-- ==== Sys2Proof/Word.lean ====
section
/-! DEFINITION. The widths the manual gives its values: bytes, words, free-running counts, milliseconds, bus addresses. -/

namespace Sys2Proof

/-- One byte of packet memory, of hold memory or of the carrier link. -/
abbrev Byte := BitVec 8

/-- One 32-bit word of the packet-memory bus. -/
abbrev Word := BitVec 32

/-- A free-running 16-bit ring count (00_scope.md, Index arithmetic; R43). -/
abbrev Count := BitVec 16

/-- A value of the 32-bit millisecond clock, which wraps (00_scope.md, Clock). -/
abbrev Millis := BitVec 32

/-- A byte address of packet memory, 0 to 16 777 215 (R141). -/
abbrev Addr := BitVec 24

end Sys2Proof
end

