-- ==== Sys2Proof/Config.lean ====
section
/-! DEFINITION. What the manual fixes as a number, and the values it leaves open (free values, without a body). -/

namespace Sys2Proof

/-- Number of hold memory cells (R67). -/
def Config.cellCount : Nat := 256

/-- Bytes in a cell (R67). -/
def Config.cellBytes : Nat := 256

/-- Bytes of packet memory (R141). -/
def Config.memoryBytes : Nat := 16777216

/-- Places in the memory master queue (R150). -/
def Config.queuePlaces : Nat := 8

/-- Takes in progress at most (R53, R54). -/
def Config.takePlaces : Nat := 4

/-- What a byte of packet memory or hold memory that nothing has written reads as.
DESIGN CHOICE (log 5, unsafe): the spec gives no contents after power-on. -/
def Config.unlistedByte : Byte := 0

/-- FREE VALUE (log 8): whether byte `i` of the master write at the head of the queue had reached the SRAM when a
reset cut the transfer off, for the `n`-th such reset (R153: "The SRAM may hold part of a master write"). -/
opaque Config.tornByte (n i : Nat) : Bool

/-- FREE VALUE (log 19): the failure cause recorded for an Attach Result whose tag is neither 0 nor 1 to 15 (R106, 11.4). -/
opaque Config.attachFailureCause (tag : Byte) : Nat

/-- FREE VALUE (log 20): the "mode left" of a Power Mode record with cause start-up (R154, R155). -/
opaque Config.startUpModeLeft : Byte

end Sys2Proof
end

