-- ==== Sys2Proof/Syntax.lean ====
section
/-! DEFINITION. The commands of the part: one constructor of `Instr` per row of spec/opcode_table.json, in the table's order.
The table gives the rows no operands; the operands below are what the event brings from outside (log 10). -/

namespace Sys2Proof

/-- The requester tag of a gateway-bus transfer (00_scope.md, Requesters). -/
inductive Requester
  | p  -- the gateway processor
  | u  -- the fibre uplink DMA
  | o  -- any other requester
  deriving DecidableEq, Repr

/-- The length of a transfer in words: 1, 2, 4, 8 or 16 (R141). -/
inductive BurstLen
  | one | two | four | eight | sixteen
  deriving DecidableEq, Repr

/-- One word of a write with its four lane enables; lane `j` is byte `j` of the word (11.4: lowest address least significant). -/
structure LaneWord where
  data  : Word
  lanes : BitVec 4
  deriving DecidableEq, Repr

/-- A transfer of the packet-memory bus: byte address, length, direction and, for a write, data and lane enables (R141, R150). -/
inductive Transfer
  | read (addr : Addr) (len : BurstLen)
  | write (addr : Addr) (words : List LaneWord)
  deriving DecidableEq, Repr

/-- The two send slots (R119). -/
inductive Slot
  | a | b
  deriving DecidableEq, Repr

/-- The commands, one per row of spec/opcode_table.json. -/
inductive Instr
  -- resets and the configuration load
  | powerOnReset (intPolarity : Bool)
  | configurationLoadEnd (acknowledged bypass : Bool) (image : List Byte)
  | shadowReadsCarried
  -- gateway-side transfers
  | gatewayTransfer (req : Requester) (x : Transfer)
  | uReadTxpWord (addr : Addr) (len : BurstLen)
  | uReadRxpWord (addr : Addr) (len : BurstLen)
  | txpWordWrite (req : Requester) (addr : Addr) (words : List LaneWord)
  | txcWordWrite (req : Requester) (addr : Addr) (words : List LaneWord)
  | rxpWordWrite (req : Requester) (addr : Addr) (words : List LaneWord)
  | rxfWordWrite (req : Requester) (addr : Addr) (words : List LaneWord)
  | evcWordWrite (req : Requester) (addr : Addr) (words : List LaneWord)
  | pgenWordWrite (req : Requester) (addr : Addr) (words : List LaneWord)
  | txRingCompletionWrite (addr : Addr) (words : List LaneWord)
  | staleUplinkWrite (addr : Addr) (words : List LaneWord)
  -- the memory master
  | masterTransferCarried
  -- lines
  | losLinkChange (los link : Bool)
  | offhookAssert
  | offhookDeassert
  | mainsLostAssert
  | mainsLostDeassert
  | riAssert
  -- messages from the module
  | moduleReady
  | attachResult (tag : Byte)
  | grantReport (uplink downlink : BitVec 16) (quality : Byte)
  | sendResult (tag : Byte)
  | coverageLost
  | deliverDownHeader (tag : Byte) (length : BitVec 16)
  | deliverDownEnd (payload : List Byte)
  | badCarrierHeader (type tag : Byte) (length : BitVec 16)
  | linkFramingError
  -- messages to the module; `mrdy` is the MRDY line as the arbiter looks at it (R106)
  | attachRequest (mrdy : Bool)
  | detachRequest (mrdy : Bool)
  | detachRequestSent
  | sendUp (mrdy : Bool)
  | sendUpEnd
  | pauseDown (mrdy : Bool)
  | resumeDown (mrdy : Bool)
  | downCap (mrdy : Bool)
  | lowPower (mrdy : Bool)
  | lowPowerSent
  -- radio timers
  | moduleResetRelease
  | startTimerExpiry
  | cycleTimerExpiry
  | attachTimerExpiry
  | backoffTimerExpiry
  | grantSilenceExpiry
  | lingerTimerExpiry
  | sendResultTimeout (slot : Slot)
  -- fibre health
  | health100msExpiry
  | health1sExpiry
  -- rings and path
  | priorityScanReadReturn
  | releaseTimerExpiry
  | dwellTimerExpiry
  | drainComplete
  | drainTimerExpiry
  | handBack
  | refallTimerExpiry
  | priorityTimerExpiry
  | descriptorReadReturn
  | takeEnd
  -- pacing and sweeps
  | pacingTimerExpiry
  | refusalPauseEnd
  | sweep10ms
  | sweep1s
  -- delivery
  | deliveryDescriptorRead
  | deliveryEnd
  -- events, status page, policy
  | eventPost
  | statusRefreshExpiry
  | statusPageWrite
  | policyApplied
  | softResetDiscard
  -- power modes
  | mainsReturnExpiry
  | quietTimerExpiry
  | dozeEntrySettled
  | dozeReached
  | dozeTimerExpiry
  | restartEnd
  -- link receiver and RESET#
  | linkReceiverResync
  | resetAsserted
  deriving DecidableEq, Repr

end Sys2Proof
end

