-- ==== Sys2Proof/WellFormed.lean ====
section
/-! DEFINITION. Which operands a bus, a link or a device can bring: the checks a sender's command passes. -/

namespace Sys2Proof

/-- A write names 1, 2, 4, 8 or 16 words (R141, R150). -/
def wordsWellFormed (words : List LaneWord) : Bool :=
  words.length == 1 || words.length == 2 || words.length == 4 || words.length == 8 || words.length == 16

/-- A transfer is a read of a legal length, or a write of a legal number of words (R141). -/
def transferWellFormed : Transfer → Bool
  | .read _ _ => true
  | .write _ words => wordsWellFormed words

/-- The operands of a command are ones the outside can bring.
An acknowledged read of the image holds all of its 2048 bytes (R172).
A Deliver Down header that reaches its owner names at most 2047 bytes, and a payload that ends whole holds 1 to 2047 (R105, R106). -/
def Instr.wellFormed : Instr → Bool
  | .configurationLoadEnd acknowledged _ image => !acknowledged || image.length == 2048
  | .gatewayTransfer _ x => transferWellFormed x
  | .txpWordWrite _ _ words => wordsWellFormed words
  | .txcWordWrite _ _ words => wordsWellFormed words
  | .rxpWordWrite _ _ words => wordsWellFormed words
  | .rxfWordWrite _ _ words => wordsWellFormed words
  | .evcWordWrite _ _ words => wordsWellFormed words
  | .pgenWordWrite _ _ words => wordsWellFormed words
  | .txRingCompletionWrite _ words => wordsWellFormed words
  | .staleUplinkWrite _ words => wordsWellFormed words
  | .deliverDownHeader _ length => length.toNat ≤ 2047
  | .deliverDownEnd payload => 1 ≤ payload.length && payload.length ≤ 2047
  | .powerOnReset _ => true
  | .shadowReadsCarried => true
  | .uReadTxpWord _ _ => true
  | .uReadRxpWord _ _ => true
  | .masterTransferCarried => true
  | .losLinkChange _ _ => true
  | .offhookAssert => true
  | .offhookDeassert => true
  | .mainsLostAssert => true
  | .mainsLostDeassert => true
  | .riAssert => true
  | .moduleReady => true
  | .attachResult _ => true
  | .grantReport _ _ _ => true
  | .sendResult _ => true
  | .coverageLost => true
  | .badCarrierHeader _ _ _ => true
  | .linkFramingError => true
  | .attachRequest _ => true
  | .detachRequest _ => true
  | .detachRequestSent => true
  | .sendUp _ => true
  | .sendUpEnd => true
  | .pauseDown _ => true
  | .resumeDown _ => true
  | .downCap _ => true
  | .lowPower _ => true
  | .lowPowerSent => true
  | .moduleResetRelease => true
  | .startTimerExpiry => true
  | .cycleTimerExpiry => true
  | .attachTimerExpiry => true
  | .backoffTimerExpiry => true
  | .grantSilenceExpiry => true
  | .lingerTimerExpiry => true
  | .sendResultTimeout _ => true
  | .health100msExpiry => true
  | .health1sExpiry => true
  | .priorityScanReadReturn => true
  | .releaseTimerExpiry => true
  | .dwellTimerExpiry => true
  | .drainComplete => true
  | .drainTimerExpiry => true
  | .handBack => true
  | .refallTimerExpiry => true
  | .priorityTimerExpiry => true
  | .descriptorReadReturn => true
  | .takeEnd => true
  | .pacingTimerExpiry => true
  | .refusalPauseEnd => true
  | .sweep10ms => true
  | .sweep1s => true
  | .deliveryDescriptorRead => true
  | .deliveryEnd => true
  | .eventPost => true
  | .statusRefreshExpiry => true
  | .statusPageWrite => true
  | .policyApplied => true
  | .softResetDiscard => true
  | .mainsReturnExpiry => true
  | .quietTimerExpiry => true
  | .dozeEntrySettled => true
  | .dozeReached => true
  | .dozeTimerExpiry => true
  | .restartEnd => true
  | .linkReceiverResync => true
  | .resetAsserted => true

end Sys2Proof
end

