-- ==== Sys2Proof/Machine/State.lean ====
section
/-! DEFINITION. The state of the part: everything the manual gives it, as plain data, and its value right after reset.
One structure per block of the manual (00_scope.md, Block diagram). -/

namespace Sys2Proof.Machine

/-- Why the part stops. The spec gives it no way to stop: no command faults, so there is no constructor. -/
inductive Fault
  deriving DecidableEq, Repr

/-- Why a command has no outcome. -/
inductive Refusal
  /-- A command whose meaning is not written yet; raised by `exec` only. Safe: nothing is claimed of it. -/
  | notModelled (mnemonic : String)
  deriving DecidableEq, Repr

/-! ### Small types -/

/-- A timer: stopped, or running with the milliseconds left. `some 0` is an expiry not yet acted on (log 2, log 3). -/
abbrev Timer := Option Nat

/-- Byte-addressed memory: address and byte pairs in canonical form (`Memory.wf`). -/
abbrev Memory := List Host.Cell

/-- The six watched words (R142). -/
inductive Watched
  | txp | txc | rxp | rxf | evc | pgen
  deriving DecidableEq, Repr

/-- The two gateway rings (R43). -/
inductive Ring
  | transmit | receive
  deriving DecidableEq, Repr

/-- The class of a frame in hold (R69). -/
inductive FrameClass
  | data | voice | voicePriority
  deriving DecidableEq, Repr

/-- The direction of a frame in hold (R69). -/
inductive Direction
  | uplink | downlink
  deriving DecidableEq, Repr

/-- The completion values the part writes (R44, R56). -/
inductive Completion
  | takenRadio | notCarried | tooLong | empty | abandoned | droppedAtReturn
  deriving DecidableEq, Repr

/-- The six path states (R1). -/
inductive PathState
  | fibre | takeover | radio | held | returning | disabled
  deriving DecidableEq, Repr

/-- The return phase, held in RETURNING (R1). -/
inductive ReturnPhase
  | draining | closing
  deriving DecidableEq, Repr

/-- The causes of a Path Change (R23). -/
inductive PathCause
  | verdict | radioNow | priority | attached | attachFailed | radioLost | dwellMet | fibreOnly
  | interruptedByVerdict | interruptedByRadioNow | handedBack | softReset
  deriving DecidableEq, Repr

/-- The dwell timer (R1, R13). -/
inductive Dwell
  | stopped
  | running (left : Nat)
  | met
  deriving DecidableEq, Repr

/-- The path override (R2, R15). -/
inductive PathOverride
  | automatic | fibreOnly | radioNow
  deriving DecidableEq, Repr

/-- The verdict (R34). -/
inductive Verdict
  | healthy | unhealthy
  deriving DecidableEq, Repr

/-- The four health attributes, in the order of R35. -/
inductive Attribute
  | sig | txp | rxa | txe
  deriving DecidableEq, Repr

/-- The radio states, in the order of R107. -/
inductive RadioState
  | off | starting | detached | attaching | attached | backoff
  deriving DecidableEq, Repr

/-- The power modes (R154). -/
inductive PowerMode
  | mains | reserve | doze
  deriving DecidableEq, Repr

/-- How far an entry to DOZE has come (R157). -/
inductive EntryStage
  | settling  -- waiting for the work in flight
  | page      -- the status page of entry is being written
  | link      -- waiting for Low Power and the messages already begun
  deriving DecidableEq, Repr

/-- The doze step (R154). -/
inductive DozeStep
  | awake
  | entering (stage : EntryStage)
  | dozing
  | restarting
  deriving DecidableEq, Repr

/-- The quiet timer (R154). -/
inductive Quiet
  | stopped
  | running (left : Nat)
  | runOut
  deriving DecidableEq, Repr

/-- The allowance states (R100). -/
inductive Allowance
  | normal | warned | exhausted
  deriving DecidableEq, Repr

/-- The causes of an Allowance event (R101). -/
inductive AllowanceCause
  | count | policy | startUp
  deriving DecidableEq, Repr

/-- The reasons of a loss (R78, 11.4). -/
inductive LossReason
  | expired | refused | noCells | incomplete | discardedAtReturn | fibrePath
  deriving DecidableEq, Repr

/-- The causes of a Power Mode event (R155, 11.4). -/
inductive PowerCause
  | mainsLost | mainsReturned | startUp
  deriving DecidableEq, Repr

/-- The eleven event kinds, in priority order (R167). -/
inductive EventKind
  | emergencyAttach | pathChange | radioUnavailable | fibreVerdict | allowance | voiceLoss | dataLoss
  | busAnomaly | powerMode | policyApplied | softResetDone
  deriving DecidableEq, Repr

/-- The ten counters, in the order of R165. -/
inductive CounterName
  | voiceLate | voiceRefused | dataRefused | dataExpired | downlinkDropped | downlinkTruncated
  | discardedAtReturn | staleUplinkWrites | linkFramingErrors | straySendResults
  deriving DecidableEq, Repr

/-- What a Voice Loss or Data Loss says of the frame lost (R78). -/
structure LossDetail where
  reason    : LossReason
  direction : Direction
  cls       : FrameClass
  position  : Option Count
  ageMs     : Nat
  deriving DecidableEq, Repr

/-- The detail of an event, by kind (R167, 11.4). -/
inductive EventDetail
  | emergencyAttach (n cause : Nat)
  | pathChange (left entered : PathState) (cause : PathCause)
  | radioUnavailable (cause n : Nat)
  | fibreVerdict (entered : Verdict) (deciding : Option Attribute) (sig txp rxa txe : Nat)
  | allowance (left entered : Allowance) (cause : AllowanceCause) (usageKiB : Nat)
  | voiceLoss (loss : LossDetail)
  | dataLoss (loss : LossDetail)
  | staleUplinkWrite (ring : Ring) (addr : Addr)
  | producerOverrun (ring : Ring) (producer : Count)
  /-- `left` is the code byte of the mode left: at start-up there is none, and the byte is free (log 20). -/
  | powerMode (left : Byte) (entered : PowerMode) (cause : PowerCause)
  | policyApplied (clamped : Nat) (pgen : Word)
  | softResetDone (uplink downlink positions : Nat)
  deriving DecidableEq, Repr

/-- A set pending entry: repeat count, first timestamp, latest detail (R167). -/
structure EventEntry where
  repeats : Nat
  stamp   : Millis
  detail  : EventDetail
  deriving DecidableEq, Repr

/-- A saturating counter and its saturated flag (R165). -/
structure Counter where
  value     : Nat
  saturated : Bool
  deriving DecidableEq, Repr

/-! ### Policy and configuration -/

/-- The four parameters of a health attribute (R27). -/
structure AttributeParams where
  p : Nat
  q : Nat
  t : Nat
  m : Nat
  deriving DecidableEq, Repr

/-- The policy in force, in the units of the policy block (R163, 11.4). -/
structure Policy where
  d0             : Nat   -- s
  releaseTimeout : Nat   -- 100 ms
  drainLimit     : Nat   -- s
  pathOverride   : PathOverride
  eventMask      : BitVec 16
  sig            : AttributeParams
  txp            : AttributeParams
  rxa            : AttributeParams
  txe            : AttributeParams
  frameLimit     : Nat   -- bytes
  voiceReserve   : Nat   -- cells, R_v
  voiceLifetime  : Nat   -- ms
  dataHold       : Nat   -- s
  downlinkHold   : Nat   -- 100 ms
  highWater      : Nat   -- cells, H_d
  lowWater       : Nat   -- cells, L_d
  burst          : Nat   -- bytes, B
  overhead       : Nat   -- bytes, h
  warm           : Bool
  reserveCap     : Nat   -- kbit/s
  trickle        : Nat   -- kbit/s
  allowanceMiB   : Nat   -- MiB, A
  linger         : Nat   -- s
  usageBase      : Nat   -- KiB
  dozeDelay      : Nat   -- s
  attachTimeout  : Nat   -- s
  dozeWake       : Nat   -- s
  deriving DecidableEq, Repr

/-- The memory map of the configuration image (R142, 11.4). -/
structure MemoryMap where
  txBase     : Nat
  txSize     : Nat
  rxBase     : Nat
  rxSize     : Nat
  eventBase  : Nat
  eventSize  : Nat
  policyBase : Nat
  pageBase   : Nat
  txpAddr    : Nat
  txcAddr    : Nat
  rxpAddr    : Nat
  rxfAddr    : Nat
  evcAddr    : Nat
  pgenAddr   : Nat
  deriving DecidableEq, Repr

/-- RESET# held, the configuration load, or the load ended (R172, R173). -/
inductive LoadPhase
  | heldInReset | loading | ended
  deriving DecidableEq, Repr

/-- The policy read state (R162). -/
inductive ReadState
  | idle | reading | readingDue
  deriving DecidableEq, Repr

/-- What the policy read in progress is for (R162, R171, R175). -/
inductive ReadKind
  | ordinary | startUp | softReset
  deriving DecidableEq, Repr

/-- The step of the soft reset sequence (R24, R171). -/
inductive SoftReset
  | none        -- no sequence
  | waiting     -- taking stopped, the busy slots awaited
  | completing  -- discarded; the rings are being completed and handed back
  | rereading   -- re-initialised; the policy block is being read again
  deriving DecidableEq, Repr

/-- The Configuration Loader's record (R162, R164, R171 to R176). -/
structure Loader where
  phase               : LoadPhase
  flashCode           : Nat
  map                 : Option MemoryMap
  linkClock           : Nat
  /-- The default policy of the image, clamped; a policy application leaves it as it stands (R175, R176). -/
  defaultPolicy       : Policy
  policy              : Policy
  readState           : ReadState
  readKind            : ReadKind
  dueAfterRestart     : Bool
  firstHalf           : List Byte
  pgenAtIssue         : Word
  softResetInForce    : Bool
  counterClearInForce : Bool
  shadowsLoaded       : Bool
  softReset           : SoftReset
  softWait            : Timer
  softUp              : Nat
  softDown            : Nat
  softPositions       : Nat
  deriving DecidableEq, Repr

/-! ### Lines -/

/-- The input lines as last seen, and the strap as sampled (11.3). -/
structure Pins where
  los         : Bool
  link        : Bool
  offhook     : Bool
  mainsLost   : Bool
  ri          : Bool
  mrdy        : Bool
  bypass      : Bool
  intPolarity : Bool
  deriving DecidableEq, Repr

/-! ### Bus Path -/

/-- A view: off, fixed at its value, or following the part's own index (R142, R147). -/
inductive View
  | off | fixed | following
  deriving DecidableEq, Repr

/-- What a memory master transfer is for: who issued it and what it reads or writes (R150). -/
inductive Purpose
  | shadowRead (w : Watched)
  | descriptorRead (first : Count) (n : Nat)
  | scanRead (pos : Count)
  | frameRead (pos : Count)
  | completion (pos : Count) (value : Completion)
  | txcAdvance
  | txcForced
  | txcHandBack
  | receiveDescriptorRead
  | bufferWrite
  | receiveStatus
  | abandonedEmpty (pos : Count)
  | rxfDelivery
  | rxfCatchUp
  | rxfForced
  | eventRecord
  | evpWrite
  | pageHalf (second entry : Bool)
  | policyRead (second : Bool)
  deriving DecidableEq, Repr

/-- A transfer in the memory master queue (R150). -/
structure MasterTransfer where
  purpose  : Purpose
  transfer : Transfer
  deriving DecidableEq, Repr

/-- The shadows of the six watched words (R142). -/
structure Shadows where
  txp  : Option Word
  txc  : Option Word
  rxp  : Option Word
  rxf  : Option Word
  evc  : Option Word
  pgen : Option Word
  deriving DecidableEq, Repr

/-- The Bus Path's record (R142), with H and G as fixed at the latest takeover (R146). -/
structure BusPath where
  shadows          : Shadows
  txHorizon        : Option Count
  rxHorizon        : Option Count
  fixedH           : Option Count
  fixedG           : Option Count
  uplinkView       : View
  receiveView      : View
  uplinkViewValue  : Option Count
  receiveViewValue : Option Count
  txGuard          : Bool
  rxGuard          : Bool
  queue            : List MasterTransfer
  waiting          : List Purpose
  waitCount        : Nat
  gatewayData      : List Word
  deriving DecidableEq, Repr

/-! ### Hold Memory -/

/-- A frame record (R69). Its place and its slot are where it stands in the state. -/
structure FrameRecord where
  cls       : FrameClass
  direction : Direction
  length    : Nat
  cells     : List Nat
  time      : Millis
  refusals  : Nat
  position  : Option Count
  deriving DecidableEq, Repr

/-- Hold Memory's record (R67, R72, R77, R80). -/
structure HoldMemory where
  cells    : Memory
  freeList : List Nat
  uqE      : List FrameRecord
  uqV      : List FrameRecord
  uqD      : List FrameRecord
  dqV      : List FrameRecord
  dqD      : List FrameRecord
  /-- Records freed while their Send Up is being sent (R67, R119). -/
  onLdo    : List FrameRecord
  paused   : Bool
  sweep10  : Timer
  sweep1s  : Timer
  deriving DecidableEq, Repr

/-! ### Ring Agent -/

/-- The state of a take window entry (R48). -/
inductive EntryState
  | pending | taking | done
  deriving DecidableEq, Repr

/-- An entry of the take window (R48). `completing` is the model's mark that a completion write of the agent's own
waits for room in the master queue; the entry becomes DONE when it is issued (R52, R61). -/
structure Entry where
  pos        : Count
  st         : EntryState
  cls        : Byte
  length     : Nat
  addr       : Addr
  cellsNeed  : Nat
  completing : Bool
  deriving DecidableEq, Repr

/-- A take in progress: the position, the record it fills, the frame's address and how many words have been read (R54, R55). -/
structure Take where
  pos       : Count
  record    : FrameRecord
  addr      : Addr
  wordsRead : Nat
  deriving DecidableEq, Repr

/-- A descriptor read in flight (R48, R51); `discard` when its contents are to be thrown away. -/
structure DescriptorRead where
  first   : Count
  n       : Nat
  discard : Bool
  deriving DecidableEq, Repr

/-- A priority-scan read in flight (R63). -/
structure ScanRead where
  pos     : Count
  discard : Bool
  deriving DecidableEq, Repr

/-- The stages of a delivery (R128, R131). -/
inductive DeliveryStage
  | reading | writing | status
  deriving DecidableEq, Repr

/-- A delivery in progress (R128): `wordsIssued` counts the buffer words written so far, `statusAsked` says the status
write has been asked for, `passedByCatchUp` that the RXF write of a forced release's step 4 is to pass it (R133). -/
structure Delivery where
  record          : FrameRecord
  stage           : DeliveryStage
  wordsIssued     : Nat
  statusAsked     : Bool
  passedByCatchUp : Bool
  deriving DecidableEq, Repr

/-- The Ring Agent's record, transmit side (R48) and receive side (R128). The two checks due are overrun checks whose cause
fell in DOZE and which the restart makes (R66). -/
structure RingAgent where
  window         : List Entry
  base           : Option Count
  partTxc        : Option Count
  readMark       : Option Count
  descriptorRead : Option DescriptorRead
  takes          : List Take
  fence          : Option Count
  overrun        : Bool
  txCheckDue     : Bool
  scanRunning    : Bool
  scanMark       : Option Count
  scanRead       : Option ScanRead
  txForcing      : Bool
  rxForcing      : Bool
  handBackAsked  : Bool
  fillCursor     : Option Count
  partRxf        : Option Count
  delivery       : Option Delivery
  descriptorHeld : Option (Addr × Nat)
  rxOverrun      : Bool
  rxCheckDue     : Bool
  deriving DecidableEq, Repr

/-! ### Fibre Health Monitor -/

/-- The Fibre Health Monitor's record (R27, R40). -/
structure Health where
  sig          : Nat
  txp          : Nat
  rxa          : Nat
  txe          : Nat
  verdict      : Verdict
  txReference  : Option Count
  activityMark : Bool
  timer100     : Timer
  timer1s      : Timer
  deriving DecidableEq, Repr

/-! ### Path Controller -/

/-- An expiry that fell in DOZE and waits for the restart (R26, R124). -/
inductive Recorded
  | release | dwell | refall | priority | start | attach | backoff | linger
  deriving DecidableEq, Repr

/-- The Path Controller's record (R1). The call pin is the OFFHOOK line; the override is the policy's field in force. -/
structure PathController where
  path          : PathState
  phase         : Option ReturnPhase
  dwellD        : Nat
  dwell         : Dwell
  refallTimer   : Timer
  refallOpen    : Bool
  releaseTimer  : Timer
  txReleased    : Bool
  rxReleased    : Bool
  drainTimer    : Timer
  emergency     : Bool
  priorityTimer : Timer
  radioWanted   : Bool
  returnPause   : Bool
  recorded      : List Recorded
  deriving DecidableEq, Repr

/-! ### Pacer and Allowance Meter -/

/-- The Pacer's and Meter's record (R85). -/
structure Pacer where
  credit       : Int
  pacing       : Timer
  refusalPause : Timer
  chargeA      : Option Nat
  chargeB      : Option Nat
  grantSeen    : Bool
  usageBase    : Option Nat
  carried      : Nat
  allowance    : Allowance
  downlinkCap  : Nat
  deriving DecidableEq, Repr

/-! ### Radio Link Manager -/

/-- A busy send slot (R107, R119). -/
structure BusySlot where
  record : FrameRecord
  sent   : Bool
  timer  : Timer
  deriving DecidableEq, Repr

/-- The pending control items, at most one of each kind (R106). -/
structure ControlItems where
  lowPower : Option Bool
  downCap  : Bool
  pause    : Bool
  detach   : Bool
  attach   : Bool
  deriving DecidableEq, Repr

/-- A message being sent on LDO whose end is a step of its own. `live` falls when the message is overtaken: a Detach Request by
another way of leaving ATTACHED (R118), a Send Up whose slot was settled (R119, R120), a Low Power on whose entry to DOZE was
abandoned (R157). A Send Up names its record until Hold Memory's re-initialisation has ended every record (R67, R82). -/
inductive Sending
  | detach (live : Bool)
  | sendUp (slot : Slot) (live : Bool) (record : Option FrameRecord)
  | lowPower (on live : Bool)
  deriving DecidableEq, Repr

/-- A carrier message: type, tag and payload; the length is the payload's (R105). -/
structure CarrierMessage where
  type    : Byte
  tag     : Byte
  payload : List Byte
  deriving DecidableEq, Repr

/-- What becomes of a record whose payload is arriving (R70, R81, R82). -/
inductive ReceiveFate
  | ordinary | atReturn | atSoftReset
  deriving DecidableEq, Repr

/-- The Deliver Down payload being received; no record when its cells were refused (R122). -/
structure Receiving where
  record : Option FrameRecord
  length : Nat
  fate   : ReceiveFate
  deriving DecidableEq, Repr

/-- The receiver on LDI (R105). -/
inductive Receiver
  | idle
  | payload (r : Receiving)
  | resync
  deriving DecidableEq, Repr

/-- The Radio Link Manager's record (R107) and its lines (R104). -/
structure RadioLink where
  state        : RadioState
  ready        : Bool
  failures     : Nat
  lastCause    : Option Nat
  startTimer   : Timer
  cycleTimer   : Timer
  attachTimer  : Timer
  backoffTimer : Timer
  silenceTimer : Timer
  lingerTimer  : Timer
  mrstTimer    : Timer
  grantUp      : Nat
  grantDown    : Nat
  grantQuality : Nat
  slotA        : Option BusySlot
  slotB        : Option BusySlot
  unsent       : List Slot
  attachTag    : Option Bool
  pauseTold    : Bool
  capTold      : Nat
  lowPowerTold : Bool
  items        : ControlItems
  ldo          : Option Sending
  ldoLast      : Option CarrierMessage
  receiver     : Receiver
  mpwr         : Bool
  mrst         : Bool
  deriving DecidableEq, Repr

/-! ### Power Mode Unit -/

/-- The wake sources (R159). -/
inductive WakeSource
  | txpWrite | pgenWrite | offhook | losLink | ri | dozeTimer | mainsReturned
  deriving DecidableEq, Repr

/-- The wake latch: which sources have fallen, each at most once (R154, R159). -/
structure WakeLatch where
  txpWrite      : Bool
  pgenWrite     : Bool
  offhook       : Bool
  losLink       : Bool
  ri            : Bool
  dozeTimer     : Bool
  mainsReturned : Bool
  deriving DecidableEq, Repr

/-- The Power Mode Unit's record (R154). -/
structure PowerUnit where
  mode        : PowerMode
  step        : DozeStep
  mainsReturn : Timer
  quiet       : Quiet
  dozeTimer   : Timer
  restart     : Timer
  latch       : WakeLatch
  deriving DecidableEq, Repr

/-! ### Event and Status Unit -/

/-- The Event and Status Unit's record (R165 to R168). `entries` has one place per kind in priority order,
`counters` one per counter in the order of R165, `slotKinds` one per event ring slot. -/
structure EventUnit where
  entries      : List (Option EventEntry)
  evp          : Count
  slotKinds    : List (Option EventKind)
  refreshCount : Word
  refreshTimer : Timer
  pageWriting  : Bool
  pageWanted   : Bool
  counters     : List Counter
  /-- How many milliseconds of the flashing period the LEDs have shown (R170, R174, log 37). -/
  ledMs        : Nat
  deriving DecidableEq, Repr

/-! ### The whole part -/

/-- The state of the part, with the queue of commands that wait (first in, first out). -/
structure State where
  pending : List Instr
  clock   : Millis
  /-- The model's own counter of free values drawn (log 8). -/
  draws   : Nat
  /-- The external packet SRAM behind the part. -/
  sram    : Memory
  pins    : Pins
  loader  : Loader
  bus     : BusPath
  ring    : RingAgent
  health  : Health
  path    : PathController
  hold    : HoldMemory
  pacer   : Pacer
  radio   : RadioLink
  power   : PowerUnit
  events  : EventUnit
  deriving DecidableEq, Repr

/-! ### Reset values -/

/-- The defaults of R163, which "a vendor image carries": in force until an image gives others (log 7). -/
def Policy.default : Policy where
  d0 := 60
  releaseTimeout := 20
  drainLimit := 5
  pathOverride := .automatic
  eventMask := 0
  sig := ⟨60, 10, 60, 120⟩
  txp := ⟨20, 20, 40, 100⟩
  rxa := ⟨40, 40, 50, 100⟩
  txe := ⟨16, 4, 30, 100⟩
  frameLimit := 1514
  voiceReserve := 24
  voiceLifetime := 60
  dataHold := 15
  downlinkHold := 20
  highWater := 48
  lowWater := 128
  burst := 8192
  overhead := 28
  warm := true
  reserveCap := 256
  trickle := 64
  allowanceMiB := 0
  linger := 120
  usageBase := 0
  dozeDelay := 30
  attachTimeout := 30
  dozeWake := 10

/-- The Loader at the start of the load (R162, R164, R172). DESIGN CHOICE (log 7): the registers whose reset value the spec does not
give, the recorded flash code among them: it is 0, which stands for none, until an image has been judged (R173). -/
def Loader.reset : Loader where
  phase := .loading
  flashCode := 0
  map := none
  linkClock := 0
  defaultPolicy := Policy.default
  policy := Policy.default
  readState := .idle
  readKind := .ordinary
  dueAfterRestart := false
  firstHalf := []
  pgenAtIssue := 0
  softResetInForce := false
  counterClearInForce := false
  shadowsLoaded := false
  softReset := .none
  softWait := none
  softUp := 0
  softDown := 0
  softPositions := 0

/-- The lines at power-on as the model takes them (log 6). -/
def Pins.reset : Pins where
  los := false
  link := false
  offhook := false
  mainsLost := false
  ri := false
  mrdy := true
  bypass := false
  intPolarity := false

/-- The Bus Path after reset (R142). -/
def BusPath.reset : BusPath where
  shadows := ⟨none, none, none, none, none, none⟩
  txHorizon := none
  rxHorizon := none
  fixedH := none
  fixedG := none
  uplinkView := .off
  receiveView := .off
  uplinkViewValue := none
  receiveViewValue := none
  txGuard := false
  rxGuard := false
  queue := []
  waiting := []
  waitCount := 0
  gatewayData := []

/-- The Ring Agent after reset (R48, R128). -/
def RingAgent.reset : RingAgent where
  window := []
  base := none
  partTxc := none
  readMark := none
  descriptorRead := none
  takes := []
  fence := none
  overrun := false
  txCheckDue := false
  scanRunning := false
  scanMark := none
  scanRead := none
  txForcing := false
  rxForcing := false
  handBackAsked := false
  fillCursor := none
  partRxf := none
  delivery := none
  descriptorHeld := none
  rxOverrun := false
  rxCheckDue := false

/-- The Fibre Health Monitor after reset (R40). -/
def Health.reset : Health where
  sig := 253
  txp := 253
  rxa := 253
  txe := 253
  verdict := .healthy
  txReference := none
  activityMark := false
  timer100 := none
  timer1s := none

/-- The Path Controller after reset and through the load (R1). -/
def PathController.reset : PathController where
  path := .disabled
  phase := none
  dwellD := 0
  dwell := .stopped
  refallTimer := none
  refallOpen := false
  releaseTimer := none
  txReleased := true
  rxReleased := true
  drainTimer := none
  emergency := false
  priorityTimer := none
  radioWanted := false
  returnPause := false
  recorded := []

/-- Hold Memory's lists and marks after reset (R67, R83); the cell contents are kept as `cells`. -/
def HoldMemory.resetWith (cells : Memory) : HoldMemory where
  cells := cells
  freeList := List.range Config.cellCount
  uqE := []
  uqV := []
  uqD := []
  dqV := []
  dqD := []
  onLdo := []
  paused := false
  sweep10 := none
  sweep1s := none

/-- The Pacer and Meter after reset (R85). -/
def Pacer.reset : Pacer where
  credit := 0
  pacing := none
  refusalPause := none
  chargeA := none
  chargeB := none
  grantSeen := false
  usageBase := none
  carried := 0
  allowance := .normal
  downlinkCap := 0

/-- No control item pending (R107). -/
def ControlItems.none : ControlItems where
  lowPower := Option.none
  downCap := false
  pause := false
  detach := false
  attach := false

/-- The Radio Link Manager after reset (R104, R107). -/
def RadioLink.reset : RadioLink where
  state := .off
  ready := false
  failures := 0
  lastCause := none
  startTimer := none
  cycleTimer := none
  attachTimer := none
  backoffTimer := none
  silenceTimer := none
  lingerTimer := none
  mrstTimer := none
  grantUp := 0
  grantDown := 0
  grantQuality := 0
  slotA := none
  slotB := none
  unsent := []
  attachTag := none
  pauseTold := false
  capTold := 0
  lowPowerTold := false
  items := ControlItems.none
  ldo := none
  ldoLast := none
  receiver := .idle
  mpwr := false
  mrst := true

/-- An empty wake latch (R154). -/
def WakeLatch.empty : WakeLatch := ⟨false, false, false, false, false, false, false⟩

/-- The Power Mode Unit after reset: the mode follows MAINS_LOST (R154). -/
def PowerUnit.resetWith (mainsLost : Bool) : PowerUnit where
  mode := if mainsLost then .reserve else .mains
  step := .awake
  mainsReturn := none
  quiet := .stopped
  dozeTimer := none
  restart := none
  latch := WakeLatch.empty

/-- The Event and Status Unit after reset (R165 to R168). -/
def EventUnit.reset : EventUnit where
  entries := List.replicate 11 none
  evp := 0
  slotKinds := List.replicate 64 none
  refreshCount := 0
  refreshTimer := none
  pageWriting := false
  pageWanted := false
  counters := List.replicate 10 ⟨0, false⟩
  ledMs := 0

/-- The part right after reset: RESET# just released, the configuration load begun (R172), nothing queued. -/
def State.reset : State where
  pending := []
  clock := 0
  draws := 0
  sram := []
  pins := Pins.reset
  loader := Loader.reset
  bus := BusPath.reset
  ring := RingAgent.reset
  health := Health.reset
  path := PathController.reset
  hold := HoldMemory.resetWith []
  pacer := Pacer.reset
  radio := RadioLink.reset
  power := PowerUnit.resetWith false
  events := EventUnit.reset

end Sys2Proof.Machine
end

