-- ==== Sys2Proof/Machine/Operands.lean ====
section
/-! DEFINITION. The layouts of 11.4 and the operand forms built from them: index arithmetic, bytes and words, descriptors,
the policy block, the configuration image, event records, carrier messages, and the code of every name firmware reads. -/

namespace Sys2Proof.Machine

/-! ### Index arithmetic (00_scope.md) -/

/-- The distance from one count to another: their difference modulo 65536 (R43). -/
def dist (a b : Count) : Nat := (b - a).toNat

/-- The count `n` positions past `a`. -/
def advance (a : Count) (n : Nat) : Count := a + BitVec.ofNat 16 n

/-- `b` lies behind `a`: the shorter way from `a` to `b` is backwards. DESIGN CHOICE (log 62): R63 says when TXC passes the mark and
TXP moves back, but not how a distance modulo 65536 tells it; half the range and more is taken as backwards. -/
def isBehind (a b : Count) : Bool := 32768 ≤ dist a b

/-- The slot of a position: count modulo ring size (R43). -/
def slotOf (size : Nat) (c : Count) : Nat := c.toNat % size

/-- The age of a timestamp: the clock now less it, modulo 2^32 (R69). -/
def ageOf (now time : Millis) : Nat := (now - time).toNat

/-! ### Bytes and words (11.4: lowest-addressed byte least significant) -/

/-- The `n` low bytes of `v`, least significant first. -/
def leBytes (n v : Nat) : List Byte := (List.range n).map fun i => BitVec.ofNat 8 (v / 256 ^ i)

/-- The value of bytes held least significant first. -/
def ofLe : List Byte → Nat
  | [] => 0
  | b :: bs => b.toNat + 256 * ofLe bs

/-- `n` bytes from offset `off`; a byte past the end reads 0. -/
def slice (bs : List Byte) (off n : Nat) : List Byte := (List.range n).map fun i => bs.getD (off + i) 0

/-- The little-endian value of `n` bytes from offset `off`. -/
def field (bs : List Byte) (off n : Nat) : Nat := ofLe (slice bs off n)

/-- Byte `j` of a word, byte 0 least significant. -/
def wordByte (w : Word) (j : Nat) : Byte := BitVec.ofNat 8 (w.toNat / 256 ^ j)

/-- The word that four bytes hold. -/
def wordOf (bs : List Byte) : Word := BitVec.ofNat 32 (field bs 0 4)

/-- Bytes cut into whole words, all lanes enabled. -/
def wordsOf (bs : List Byte) : List LaneWord :=
  (List.range (bs.length / 4)).map fun i => ⟨wordOf (slice bs (4 * i) 4), 15⟩

/-- The bytes of words, in address order. -/
def bytesOf (ws : List Word) : List Byte := ws.flatMap fun w => [wordByte w 0, wordByte w 1, wordByte w 2, wordByte w 3]

/-- Whether lane `j` is enabled. -/
def laneOn (l : LaneWord) (j : Nat) : Bool := l.lanes.getLsbD j

/-- A write of a word merged into the word it covers: each byte whose lane is enabled takes the written value (R143). -/
def mergeLanes (old : Word) (l : LaneWord) : Word :=
  wordOf ((List.range 4).map fun j => if laneOn l j then wordByte l.data j else wordByte old j)

/-- The count of an index word: its low half (R43). -/
def countOf (w : Word) : Count := w.setWidth 16

/-- The word the part writes for an index: upper half zero (R43). -/
def indexWord (c : Count) : LaneWord := ⟨c.setWidth 32, 15⟩

/-- The number of words of a burst length. -/
def burstWords : BurstLen → Nat
  | .one => 1
  | .two => 2
  | .four => 4
  | .eight => 8
  | .sixteen => 16

/-- The longest burst of at most `n` words (1 when `n` is 0). -/
def burstFor (n : Nat) : BurstLen :=
  if 16 ≤ n then .sixteen else if 8 ≤ n then .eight else if 4 ≤ n then .four else if 2 ≤ n then .two else .one

/-- A byte address brought into packet memory, wrapping at the top (R141; for an address of the image past the top, log 22). -/
def wrapAddr (a : Nat) : Nat := a % Config.memoryBytes

/-- A number as a bus address. -/
def addrOf (a : Nat) : Addr := BitVec.ofNat 24 a

/-- The addresses of the `n` words of a transfer: the word that holds byte `a`, and those after it, wrapping (R141, log 9). -/
def wordAddrs (a : Addr) (n : Nat) : List Nat :=
  (List.range n).map fun i => wrapAddr (a.toNat / 4 * 4 + 4 * i)

/-! ### Descriptors (R44, R127) -/

/-- The address of the descriptor at a position. -/
def descriptorAddr (base size : Nat) (c : Count) : Nat := base + 16 * slotOf size c

/-- Cells a frame needs: length divided by 256, rounded up (R48, R68). -/
def cellsFor (length : Nat) : Nat := (length + 255) / 256

/-- The window entry of a transmit descriptor's 16 bytes (R44, R48). -/
def entryOf (pos : Count) (bs : List Byte) : Entry where
  pos := pos
  st := .pending
  cls := bs.getD 6 0
  length := field bs 4 2
  addr := addrOf (field bs 0 3)
  cellsNeed := cellsFor (field bs 4 2)
  completing := false

/-- The class of a descriptor that may be taken; a class outside 0 to 2 has none (R44, R52). -/
def takeClass (cls : Byte) : Option FrameClass :=
  if cls = 0 then some .data else if cls = 1 then some .voice else if cls = 2 then some .voicePriority else none

/-- Buffer address and buffer size of a receive descriptor's 16 bytes (R127). -/
def bufferOf (bs : List Byte) : Addr × Nat := (addrOf (field bs 0 3), field bs 4 2)

/-- The completion codes (R44). -/
def completionCode : Completion → Byte
  | .takenRadio => 8
  | .notCarried => 9
  | .tooLong => 10
  | .empty => 11
  | .abandoned => 12
  | .droppedAtReturn => 13

/-- The one-word write of a completion: the lane of the completion field alone (R44). -/
def completionWord (v : Completion) : LaneWord := ⟨BitVec.ofNat 32 ((completionCode v).toNat * 256 ^ 3), 8⟩

/-- The voice classes (R69). -/
def isVoice : FrameClass → Bool
  | .data => false
  | .voice => true
  | .voicePriority => true

/-- The status word of a receive descriptor, written whole (R127): status, class and via-radio bits, received length. -/
def statusWord (status : Nat) (voice viaRadio : Bool) (length : Nat) : LaneWord :=
  ⟨wordOf ([BitVec.ofNat 8 status, BitVec.ofNat 8 ((if voice then 1 else 0) + if viaRadio then 2 else 0)] ++ leBytes 2 length), 15⟩

/-- The status word of a delivery: Delivered (8), or Truncated (9) when the buffer is smaller than the frame (R127, R132). -/
def deliveryStatusWord (cls : FrameClass) (length size : Nat) : LaneWord :=
  statusWord (if length ≤ size then 8 else 9) (isVoice cls) true length

/-- The status word Abandoned Empty (10): length 0, class Data, via radio 0 (R127). -/
def abandonedEmptyWord : LaneWord := statusWord 10 false false 0

/-! ### Codes (11.4) -/

/-- Path state codes. -/
def pathCode : PathState → Byte
  | .disabled => 0
  | .fibre => 1
  | .takeover => 2
  | .radio => 3
  | .held => 4
  | .returning => 5

/-- Path Change cause codes (R23). -/
def pathCauseCode : PathCause → Byte
  | .verdict => 1
  | .radioNow => 2
  | .priority => 3
  | .attached => 4
  | .attachFailed => 5
  | .radioLost => 6
  | .dwellMet => 7
  | .fibreOnly => 8
  | .interruptedByVerdict => 9
  | .interruptedByRadioNow => 10
  | .handedBack => 11
  | .softReset => 12

/-- Radio state codes: the order of R107 from 0. -/
def radioCode : RadioState → Byte
  | .off => 0
  | .starting => 1
  | .detached => 2
  | .attaching => 3
  | .attached => 4
  | .backoff => 5

/-- Power mode codes. -/
def powerCode : PowerMode → Byte
  | .mains => 0
  | .reserve => 1
  | .doze => 2

/-- Allowance state codes. -/
def allowanceCode : Allowance → Byte
  | .normal => 0
  | .warned => 1
  | .exhausted => 2

/-- Allowance cause codes. -/
def allowanceCauseCode : AllowanceCause → Byte
  | .count => 0
  | .policy => 1
  | .startUp => 2

/-- Verdict codes. -/
def verdictCode : Verdict → Byte
  | .healthy => 0
  | .unhealthy => 1

/-- Deciding attribute codes; 0 for none. -/
def attributeCode : Option Attribute → Byte
  | none => 0
  | some .sig => 1
  | some .txp => 2
  | some .rxa => 3
  | some .txe => 4

/-- Loss reason codes. -/
def reasonCode : LossReason → Byte
  | .expired => 1
  | .refused => 2
  | .noCells => 3
  | .incomplete => 4
  | .discardedAtReturn => 5
  | .fibrePath => 6

/-- Direction codes. -/
def directionCode : Direction → Byte
  | .uplink => 0
  | .downlink => 1

/-- Class codes. -/
def classCode : FrameClass → Byte
  | .data => 0
  | .voice => 1
  | .voicePriority => 2

/-- Power Mode cause codes. -/
def powerCauseCode : PowerCause → Byte
  | .mainsLost => 0
  | .mainsReturned => 1
  | .startUp => 2

/-- Ring codes. -/
def ringCode : Ring → Byte
  | .transmit => 0
  | .receive => 1

/-- The priority of an event kind, 1 highest (R167); also its code in a record. -/
def kindPriority : EventKind → Nat
  | .emergencyAttach => 1
  | .pathChange => 2
  | .radioUnavailable => 3
  | .fibreVerdict => 4
  | .allowance => 5
  | .voiceLoss => 6
  | .dataLoss => 7
  | .busAnomaly => 8
  | .powerMode => 9
  | .policyApplied => 10
  | .softResetDone => 11

/-- The kind of a detail. -/
def detailKind : EventDetail → EventKind
  | .emergencyAttach _ _ => .emergencyAttach
  | .pathChange _ _ _ => .pathChange
  | .radioUnavailable _ _ => .radioUnavailable
  | .fibreVerdict _ _ _ _ _ _ => .fibreVerdict
  | .allowance _ _ _ _ => .allowance
  | .voiceLoss _ => .voiceLoss
  | .dataLoss _ => .dataLoss
  | .staleUplinkWrite _ _ => .busAnomaly
  | .producerOverrun _ _ => .busAnomaly
  | .powerMode _ _ _ => .powerMode
  | .policyApplied _ _ => .policyApplied
  | .softResetDone _ _ _ => .softResetDone

/-- The detail bytes of a loss (11.4). -/
def lossBytes (l : LossDetail) : List Byte :=
  [reasonCode l.reason, directionCode l.direction, classCode l.cls, 0]
    ++ leBytes 2 ((l.position.getD 0).toNat) ++ leBytes 2 (min l.ageMs 65535)

/-- Bytes 8 to 15 of an event record (11.4). -/
def detailBytes : EventDetail → List Byte
  | .emergencyAttach n cause => [BitVec.ofNat 8 n, BitVec.ofNat 8 cause, 0, 0, 0, 0, 0, 0]
  | .pathChange l e c => [pathCode l, pathCode e, pathCauseCode c, 0, 0, 0, 0, 0]
  | .radioUnavailable cause n => [BitVec.ofNat 8 cause, BitVec.ofNat 8 n, 0, 0, 0, 0, 0, 0]
  | .fibreVerdict v a sig txp rxa txe =>
      [verdictCode v, attributeCode a, BitVec.ofNat 8 sig, BitVec.ofNat 8 txp, BitVec.ofNat 8 rxa, BitVec.ofNat 8 txe, 0, 0]
  | .allowance l e c usage => [allowanceCode l, allowanceCode e, allowanceCauseCode c, 0] ++ leBytes 4 usage
  | .voiceLoss l => lossBytes l
  | .dataLoss l => lossBytes l
  | .staleUplinkWrite r a => [1, ringCode r, 0, 0] ++ leBytes 4 a.toNat
  | .producerOverrun r c => [2, ringCode r, 0, 0] ++ leBytes 4 c.toNat
  | .powerMode l e c => [l, powerCode e, powerCauseCode c, 0, 0, 0, 0, 0]
  | .policyApplied n pgen => [BitVec.ofNat 8 n, 0, 0, 0] ++ leBytes 4 pgen.toNat
  | .softResetDone up down pos => leBytes 2 up ++ leBytes 2 down ++ leBytes 2 pos ++ [0, 0]

/-- The 16 bytes of an event record (11.4). -/
def recordBytes (e : EventEntry) : List Byte :=
  [BitVec.ofNat 8 (kindPriority (detailKind e.detail)), BitVec.ofNat 8 e.repeats, 0, 0]
    ++ leBytes 4 e.stamp.toNat ++ detailBytes e.detail

/-! ### Carrier messages (R105, R106, 11.4) -/

/-- The bytes of a carrier message as sent: type, tag, length low byte first, payload. -/
def messageBytes (m : CarrierMessage) : List Byte := [m.type, m.tag] ++ leBytes 2 m.payload.length ++ m.payload

/-- Attach Request, tag 1 when emergency. -/
def attachRequestMessage (emergency : Bool) : CarrierMessage := ⟨0x01, if emergency then 1 else 0, []⟩

/-- Detach Request. -/
def detachRequestMessage : CarrierMessage := ⟨0x02, 0, []⟩

/-- The slot bit of a tag: 0 A, 1 B. -/
def slotBit : Slot → Nat
  | .a => 0
  | .b => 1

/-- Send Up: tag bit 0 slot, bits 4 to 5 class; the payload is the frame. -/
def sendUpMessage (slot : Slot) (cls : FrameClass) (frame : List Byte) : CarrierMessage :=
  ⟨0x03, BitVec.ofNat 8 (slotBit slot + 16 * (classCode cls).toNat), frame⟩

/-- Pause Down. -/
def pauseDownMessage : CarrierMessage := ⟨0x04, 0, []⟩

/-- Resume Down. -/
def resumeDownMessage : CarrierMessage := ⟨0x05, 0, []⟩

/-- Down Cap with the rate in kbit/s. -/
def downCapMessage (rate : Nat) : CarrierMessage := ⟨0x06, 0, leBytes 2 rate⟩

/-- Low Power, tag 1 on, 0 off. -/
def lowPowerMessage (on : Bool) : CarrierMessage := ⟨0x07, if on then 1 else 0, []⟩

/-- The slot a Send Result names: tag bit 0 (11.4). -/
def resultSlot (tag : Byte) : Slot := if tag.getLsbD 0 then .b else .a

/-- A Send Result says Refused: tag bit 4 (11.4). -/
def resultRefused (tag : Byte) : Bool := tag.getLsbD 4

/-- The class a Deliver Down's tag names; any other value is handled as Data (R122). -/
def deliverClass (tag : Byte) : FrameClass :=
  if tag = 1 then .voice else if tag = 2 then .voicePriority else .data

/-- The failure cause of an Attach Result (11.4; for a tag above 15 a free value, log 19). -/
def attachCause (tag : Byte) : Nat := if tag.toNat ≤ 15 then tag.toNat else Config.attachFailureCause tag

/-- A header the receiver reads and discards with a link framing error (R105): an unknown type, a length over 2047, or
one the type does not take. -/
def headerIsBad (type : Byte) (length : Nat) : Bool :=
  if 2047 < length then true
  else if type = 0x81 || type = 0x82 || type = 0x84 || type = 0x86 then length != 0
  else if type = 0x83 then length != 5
  else if type = 0x85 then false
  else true

/-! ### The policy block (R163, 11.4) -/

/-- A numeric or coded field of the policy block: its place, its bytes and its limits in the block's units. -/
structure FieldRange where
  off : Nat
  len : Nat
  lo  : Nat
  hi  : Nat
  deriving DecidableEq, Repr

/-- A value brought to the nearest limit of its range (R163). -/
def clampTo (lo hi v : Nat) : Nat := if v < lo then lo else if hi < v then hi else v

/-- The clamped value of a field. -/
def fieldValue (bs : List Byte) (r : FieldRange) : Nat := clampTo r.lo r.hi (field bs r.off r.len)

/-- A field outside its limits (R163). -/
def fieldOutside (bs : List Byte) (r : FieldRange) : Bool :=
  field bs r.off r.len < r.lo || r.hi < field bs r.off r.len

/-- The ranges of R163 in the units of 11.4; a code above its last is taken as the last (R163). -/
def policyRanges : List FieldRange :=
  [⟨0, 2, 10, 3600⟩, ⟨2, 1, 5, 100⟩, ⟨3, 1, 1, 30⟩, ⟨4, 1, 0, 2⟩,
   ⟨8, 1, 1, 253⟩, ⟨9, 1, 1, 253⟩, ⟨10, 1, 1, 252⟩, ⟨11, 1, 1, 252⟩,
   ⟨12, 1, 1, 253⟩, ⟨13, 1, 1, 253⟩, ⟨14, 1, 1, 252⟩, ⟨15, 1, 1, 252⟩,
   ⟨16, 1, 1, 253⟩, ⟨17, 1, 1, 253⟩, ⟨18, 1, 1, 252⟩, ⟨19, 1, 1, 252⟩,
   ⟨20, 1, 1, 253⟩, ⟨21, 1, 1, 253⟩, ⟨22, 1, 1, 252⟩, ⟨23, 1, 1, 252⟩,
   ⟨24, 2, 576, 2047⟩, ⟨26, 1, 0, 64⟩, ⟨27, 1, 20, 200⟩, ⟨28, 1, 1, 120⟩, ⟨29, 1, 1, 100⟩,
   ⟨30, 1, 16, 192⟩, ⟨31, 1, 32, 240⟩, ⟨32, 2, 1024, 65535⟩, ⟨34, 1, 0, 255⟩, ⟨35, 1, 0, 1⟩,
   ⟨36, 2, 8, 65535⟩, ⟨38, 2, 8, 512⟩, ⟨40, 2, 0, 65535⟩, ⟨42, 2, 0, 600⟩, ⟨44, 4, 0, 4294967295⟩,
   ⟨48, 2, 5, 600⟩, ⟨50, 1, 5, 120⟩, ⟨51, 1, 1, 60⟩]

/-- The clamped value of the field at an offset of the block. -/
def policyValue (bs : List Byte) (off : Nat) : Nat :=
  match policyRanges.find? (fun r => r.off == off) with
  | some r => fieldValue bs r
  | none => 0

/-- The override of a clamped code. -/
def overrideOf (code : Nat) : PathOverride :=
  if code = 0 then .automatic else if code = 1 then .fibreOnly else .radioNow

/-- The pairing of H_d and L_d: L_d below H_d + 16 becomes the lesser of H_d + 16 and 240 (R79). -/
def pairedLowWater (highWater lowWater : Nat) : Nat :=
  if lowWater < highWater + 16 then min (highWater + 16) 240 else lowWater

/-- The parameters of the attribute whose four bytes start at `off`. -/
def paramsAt (bs : List Byte) (off : Nat) : AttributeParams :=
  ⟨policyValue bs off, policyValue bs (off + 1), policyValue bs (off + 2), policyValue bs (off + 3)⟩

/-- The policy of a block, clamped and paired (R163, R79). -/
def policyOf (bs : List Byte) : Policy where
  d0 := policyValue bs 0
  releaseTimeout := policyValue bs 2
  drainLimit := policyValue bs 3
  pathOverride := overrideOf (policyValue bs 4)
  eventMask := BitVec.ofNat 16 (field bs 6 2)
  sig := paramsAt bs 8
  txp := paramsAt bs 12
  rxa := paramsAt bs 16
  txe := paramsAt bs 20
  frameLimit := policyValue bs 24
  voiceReserve := policyValue bs 26
  voiceLifetime := policyValue bs 27
  dataHold := policyValue bs 28
  downlinkHold := policyValue bs 29
  highWater := policyValue bs 30
  lowWater := pairedLowWater (policyValue bs 30) (policyValue bs 31)
  burst := policyValue bs 32
  overhead := policyValue bs 34
  warm := policyValue bs 35 != 0
  reserveCap := policyValue bs 36
  trickle := policyValue bs 38
  allowanceMiB := policyValue bs 40
  linger := policyValue bs 42
  usageBase := policyValue bs 44
  dozeDelay := policyValue bs 48
  attachTimeout := policyValue bs 50
  dozeWake := policyValue bs 51

/-- How many fields of a block were clamped, the pairing counted when it changes L_d (R163, R79). -/
def clampedCount (bs : List Byte) : Nat :=
  (policyRanges.filter (fieldOutside bs)).length
    + if policyValue bs 31 < policyValue bs 30 + 16 then 1 else 0

/-- The control field asks for a soft reset (11.4: bit 0). -/
def asksSoftReset (bs : List Byte) : Bool := (bs.getD 5 0).getLsbD 0

/-- The control field asks for a counter clear (11.4: bit 1). -/
def asksCounterClear (bs : List Byte) : Bool := (bs.getD 5 0).getLsbD 1

/-! ### The configuration image (R173, 11.4) -/

/-- The memory map an image holds. -/
def mapOf (bs : List Byte) : MemoryMap where
  txBase := field bs 4 4
  txSize := field bs 8 2
  rxBase := field bs 12 4
  rxSize := field bs 10 2
  eventBase := field bs 16 4
  eventSize := field bs 20 1
  policyBase := field bs 24 4
  pageBase := field bs 28 4
  txpAddr := field bs 32 4
  txcAddr := field bs 36 4
  rxpAddr := field bs 40 4
  rxfAddr := field bs 44 4
  evcAddr := field bs 48 4
  pgenAddr := field bs 52 4

/-- The five regions of a map, base and bytes (R173 check 4). -/
def regionsOf (m : MemoryMap) : List (Nat × Nat) :=
  [(m.txBase, 16 * m.txSize), (m.rxBase, 16 * m.rxSize), (m.eventBase, 16 * m.eventSize), (m.policyBase, 128), (m.pageBase, 128)]

/-- The six watched-word addresses of a map, where the words stand in packet memory: past its top an address wraps (log 22). -/
def watchedAddrs (m : MemoryMap) : List Nat := [m.txpAddr, m.txcAddr, m.rxpAddr, m.rxfAddr, m.evcAddr, m.pgenAddr].map wrapAddr

/-- Two regions share a byte. -/
def regionsMeet (a b : Nat × Nat) : Bool := a.1 < b.1 + b.2 && b.1 < a.1 + a.2

/-- Some two regions of the list share a byte. -/
def anyMeet : List (Nat × Nat) → Bool
  | [] => false
  | r :: rs => rs.any (regionsMeet r) || anyMeet rs

/-- Some two of the numbers are equal. -/
def anyEqual : List Nat → Bool
  | [] => false
  | a :: as => as.any (fun b => b == a) || anyEqual as

/-- A legal transmit or receive ring size: a power of two from 16 to 1024. -/
def ringSizeOk (n : Nat) : Bool := [16, 32, 64, 128, 256, 512, 1024].any (fun k => k == n)

/-- A legal event ring size. -/
def eventSizeOk (n : Nat) : Bool := [8, 16, 32, 64].any (fun k => k == n)

/-- Check 1 fails: the read ended unacknowledged, or the signature is not 3140₁₆. -/
def check1Fails (acknowledged : Bool) (bs : List Byte) : Bool :=
  !acknowledged || bs.length != 2048 || field bs 0 2 != 0x3140

/-- Check 2 fails: a ring size. -/
def check2Fails (m : MemoryMap) : Bool := !ringSizeOk m.txSize || !ringSizeOk m.rxSize || !eventSizeOk m.eventSize

/-- Check 3 fails: an alignment. -/
def check3Fails (m : MemoryMap) : Bool :=
  [m.txBase, m.rxBase, m.eventBase].any (fun a => a % 16 != 0)
    || ([m.policyBase, m.pageBase] ++ watchedAddrs m).any (fun a => a % 4 != 0)

/-- Check 4 fails: a region past the top of packet memory, or two that share a byte. -/
def check4Fails (m : MemoryMap) : Bool :=
  (regionsOf m).any (fun r => Config.memoryBytes < r.1 + r.2) || anyMeet (regionsOf m)

/-- Check 5 fails: two watched words at one address, or one inside a region, judged where the words stand, so that in a valid map
each lies outside both rings (R142, log 22). -/
def check5Fails (m : MemoryMap) : Bool :=
  anyEqual (watchedAddrs m) || (watchedAddrs m).any (fun a => (regionsOf m).any (fun r => r.1 ≤ a && a < r.1 + r.2))

/-- Check 6 fails: the link clock is outside 1 to 26 MHz. -/
def check6Fails (bs : List Byte) : Bool := field bs 2 1 < 1 || 26 < field bs 2 1

/-- The flash code of a load: 7 for BYPASS, else the first failing check, 0 for a valid image (R173). -/
def judgeImage (acknowledged bypass : Bool) (bs : List Byte) : Nat :=
  if bypass then 7
  else if check1Fails acknowledged bs then 1
  else if check2Fails (mapOf bs) then 2
  else if check3Fails (mapOf bs) then 3
  else if check4Fails (mapOf bs) then 4
  else if check5Fails (mapOf bs) then 5
  else if check6Fails bs then 6
  else 0

/-- The default policy block of an image: bytes 128 to 255 (11.4). -/
def imagePolicy (bs : List Byte) : List Byte := slice bs 128 128

end Sys2Proof.Machine
end

