-- ==== Sys2Proof/Machine/Flags.lean ====
section
/-! DEFINITION. The standing conditions, levels and indications the manual computes from the state: they hold no storage of
their own, so each is one function here. -/

namespace Sys2Proof.Machine

/-! ### The part as a whole -/

/-- The engines run: the power mode is not DOZE (R158; in a restart the mode is still DOZE, R160). -/
def enginesRun (s : State) : Bool := s.power.mode != .doze

/-- The path holds the rings: neither FIBRE nor DISABLED (R49, R50). -/
def holdsRings (s : State) : Bool := s.path.path != .fibre && s.path.path != .disabled

/-- The part works: the load has ended with the path not DISABLED (R3, R145). -/
def partWorks (s : State) : Bool := s.loader.phase == .ended && s.path.path != .disabled

/-- A soft reset sequence stands between its start and its re-initialisation step (R168, R171). -/
def softResetStands (s : State) : Bool := s.loader.softReset == .waiting || s.loader.softReset == .completing

/-! ### Bus Path -/

/-- The shadow of a watched word (R142). -/
def shadowOf (sh : Shadows) : Watched → Option Word
  | .txp => sh.txp
  | .txc => sh.txc
  | .rxp => sh.rxp
  | .rxf => sh.rxf
  | .evc => sh.evc
  | .pgen => sh.pgen

/-- The shadow word, 0 while there is none. -/
def shadowWord (s : State) (w : Watched) : Word := (shadowOf s.bus.shadows w).getD 0

/-- The count of a shadow (R143). -/
def shadowCount (s : State) (w : Watched) : Count := countOf (shadowWord s w)

/-- The address of a watched word in a map (R142; past the top of packet memory, log 22). -/
def watchedAddr (m : MemoryMap) : Watched → Nat
  | .txp => wrapAddr m.txpAddr
  | .txc => wrapAddr m.txcAddr
  | .rxp => wrapAddr m.rxpAddr
  | .rxf => wrapAddr m.rxfAddr
  | .evc => wrapAddr m.evcAddr
  | .pgen => wrapAddr m.pgenAddr

/-- The address of a watched word, none while no map is loaded. -/
def watchedAt (s : State) (w : Watched) : Option Nat := s.loader.map.map fun m => watchedAddr m w

/-- The transmit ring size, 0 while no map is loaded. -/
def txSize (s : State) : Nat := match s.loader.map with
  | some m => m.txSize
  | none => 0

/-- The receive ring size, 0 while no map is loaded. -/
def rxSize (s : State) : Nat := match s.loader.map with
  | some m => m.rxSize
  | none => 0

/-- The event ring size, 0 while no map is loaded. -/
def eventSize (s : State) : Nat := match s.loader.map with
  | some m => m.eventSize
  | none => 0

/-- A word address lies in the transmit ring region (R142). -/
def inTxRing (m : MemoryMap) (a : Nat) : Bool := m.txBase ≤ a && a < m.txBase + 16 * m.txSize

/-- A word address lies in the receive ring region (R142). -/
def inRxRing (m : MemoryMap) (a : Nat) : Bool := m.rxBase ≤ a && a < m.rxBase + 16 * m.rxSize

/-- The ring under whose raised guard a word address falls, for a U write (R148). -/
def guardedBy (s : State) (a : Nat) : Option Ring :=
  match s.loader.map with
  | none => none
  | some m =>
    if s.bus.txGuard && (inTxRing m a || a == watchedAddr m .txc) then some .transmit
    else if s.bus.rxGuard && (inRxRing m a || a == watchedAddr m .rxf) then some .receive
    else none

/-- The arbiter gives the master its turn before the gateway transfer presented: wait count 4, queue not empty (R151). -/
def masterTurn (s : State) : Bool := s.bus.queue != [] && 4 ≤ s.bus.waitCount

/-! ### Rings -/

/-- The consumer reference: the TXC shadow before transmit release, the part's TXC after it (R49). -/
def consumerRef (s : State) : Count := if s.path.txReleased then s.ring.partTxc.getD 0 else shadowCount s .txc

/-- The window span: the lesser of 32 and the transmit ring size (R49). -/
def windowSpan (s : State) : Nat := min 32 (txSize s)

/-- The effective producer for a consumer reference (R49). -/
def effectiveProducer (s : State) (ref : Count) : Count :=
  if dist ref (shadowCount s .txp) ≤ txSize s then shadowCount s .txp else advance ref (txSize s)

/-- The window base lies before the effective producer (R49). DESIGN CHOICE (log 56): "at or beyond" is measured from the consumer
reference, so a TXC shadow moved past H before release stops all reading. -/
def baseBeforeProducer (s : State) : Bool :=
  dist (consumerRef s) (s.ring.base.getD 0) < dist (consumerRef s) (effectiveProducer s (consumerRef s))

/-- The fence, if it stands, lies past the position (R51, R60). -/
def belowFence (s : State) (pos : Count) : Bool :=
  match s.ring.fence with
  | none => true
  | some f => dist (s.ring.base.getD 0) pos < dist (s.ring.base.getD 0) f

/-- The Ring Agent may read a position for the window: the three conditions of R49, and the fence of R51. -/
def mayRead (s : State) (pos : Count) : Bool :=
  let base := s.ring.base.getD 0
  let ref := consumerRef s
  baseBeforeProducer s
    && dist base pos < windowSpan s
    && dist base pos < dist base (effectiveProducer s ref)
    && dist ref pos < txSize s
    && belowFence s pos

/-- How many positions from `pos` one descriptor read covers: four, two or one, in slots before the ring's end (R51). -/
def readLength (s : State) (pos : Count) : Nat :=
  let room := fun (n : Nat) =>
    slotOf (txSize s) pos + n ≤ txSize s && (List.range n).all fun i => mayRead s (advance pos i)
  if room 4 then 4 else if room 2 then 2 else if mayRead s pos then 1 else 0

/-- The transmit ring is overrun: the distance from the consumer reference to the TXP shadow exceeds the ring size (R50).
While the priority scan runs in FIBRE the reference is the TXC shadow (R63). -/
def txOverrunNow (s : State) : Bool :=
  txSize s < dist (if holdsRings s then consumerRef s else shadowCount s .txc) (shadowCount s .txp)

/-- The receive consumer reference (R129). -/
def rxConsumerRef (s : State) : Count := if s.path.rxReleased then s.ring.partRxf.getD 0 else shadowCount s .rxf

/-- The effective receive producer (R129). -/
def rxEffectiveProducer (s : State) : Count :=
  if dist (rxConsumerRef s) (shadowCount s .rxp) ≤ rxSize s then shadowCount s .rxp
  else advance (rxConsumerRef s) (rxSize s)

/-- The receive ring is overrun (R129). -/
def rxOverrunNow (s : State) : Bool := rxSize s < dist (rxConsumerRef s) (shadowCount s .rxp)

/-- A posted buffer is available: the fill cursor may be filled (R129). -/
def bufferAvailable (s : State) : Bool :=
  match s.ring.fillCursor with
  | none => false
  | some f =>
    dist (rxConsumerRef s) f < rxSize s && dist (rxConsumerRef s) f < dist (rxConsumerRef s) (rxEffectiveProducer s)

/-- The limit of the priority scan, as a distance from the TXC shadow (R63). -/
def scanReach (s : State) : Nat :=
  min (dist (shadowCount s .txc) (effectiveProducer s (shadowCount s .txc))) (windowSpan s)

/-- The three things that keep the priority scan running (R6). -/
def scanWanted (s : State) : Bool :=
  s.path.path == .fibre && s.health.verdict == .unhealthy && s.loader.policy.pathOverride == .fibreOnly
    && s.loader.shadowsLoaded && !softResetStands s

/-! ### Hold memory -/

/-- The free count: the length of the free list (R67). -/
def freeCount (s : State) : Nat := s.hold.freeList.length

/-- The age of a frame record (R69). -/
def recordAge (s : State) (r : FrameRecord) : Nat := ageOf s.clock r.time

/-- A voice-class record older than the voice lifetime (R73, R77). -/
def voiceTooOld (s : State) (r : FrameRecord) : Bool := s.loader.policy.voiceLifetime < recordAge s r

/-- Some record of UQ-D has been in hold longer than the data hold limit (R53). -/
def uqDTooOld (s : State) : Bool := s.hold.uqD.any fun r => s.loader.policy.dataHold * 1000 < recordAge s r

/-- UQ-E, UQ-V and UQ-D are empty (R76). -/
def uplinkEmpty (s : State) : Bool := s.hold.uqE == [] && s.hold.uqV == [] && s.hold.uqD == []

/-- DQ-V and DQ-D are empty (R76). -/
def downlinkEmpty (s : State) : Bool := s.hold.dqV == [] && s.hold.dqD == []

/-- The busy slot, if any (R107). -/
def slotOfRadio (s : State) : Slot → Option BusySlot
  | .a => s.radio.slotA
  | .b => s.radio.slotB

/-- Both send slots are free (R76). -/
def slotsFree (s : State) : Bool := s.radio.slotA == none && s.radio.slotB == none

/-- The rule that gives cells to a request: R70's table but for the two refusals of a downlink request. -/
def cellsAllow (s : State) (cls : FrameClass) (belowFence : Bool) (n : Nat) : Bool :=
  if isVoice cls || belowFence then n ≤ freeCount s
  else n + s.loader.policy.voiceReserve ≤ freeCount s

/-- A PENDING entry is eligible for taking (R53). -/
def eligible (s : State) (e : Entry) : Bool :=
  match takeClass e.cls with
  | none => false
  | some cls =>
    e.st == .pending && !e.completing
      && cellsAllow s cls (s.path.path == .returning) e.cellsNeed
      && (isVoice cls || s.path.path == .returning || !uqDTooOld s)

/-! ### Pacer and meter -/

/-- The uplink rate that counts: the latest grant's once a report has been seen since the attach (R88). -/
def grantedRate (s : State) : Nat := if s.pacer.grantSeen then s.radio.grantUp else 0

/-- The granted rate held to the reserve cap outside MAINS (R88). -/
def reservedRate (s : State) : Nat :=
  if s.power.mode = .mains then grantedRate s else min (grantedRate s) s.loader.policy.reserveCap

/-- The refill rate r in bits per millisecond (R88). -/
def refillRate (s : State) : Nat :=
  if s.radio.state = .attached then
    if s.pacer.allowance = .exhausted then min (reservedRate s) s.loader.policy.trickle else reservedRate s
  else 0

/-- The bound of the credit: 8B bits (R85). -/
def creditBound (s : State) : Int := 8 * (s.loader.policy.burst : Int)

/-- The cost of a frame in bits: 8 × (L + 4 + h) (R89). -/
def frameCost (s : State) (length : Nat) : Nat := 8 * (length + 4 + s.loader.policy.overhead)

/-- A head may go on the credit as it stands (R91). -/
def creditAllows (s : State) (r : FrameRecord) : Bool :=
  if isVoice r.cls then decide (-creditBound s ≤ s.pacer.credit - frameCost s r.length)
  else decide ((frameCost s r.length : Int) ≤ s.pacer.credit)

/-- The usage count in bytes, saturating (R98). -/
def usageCount (s : State) : Nat := min (s.pacer.usageBase.getD 0 * 1024 + s.pacer.carried) (2 ^ 64 - 1)

/-- The allowance state of an allowance in MiB and a usage count (R100). -/
def allowanceOf (mib usage : Nat) : Allowance :=
  if mib = 0 then .normal
  else if mib * 1048576 ≤ usage then .exhausted
  else if mib * 1048576 - mib * 1048576 / 8 ≤ usage then .warned
  else .normal

/-! ### Radio -/

/-- The module is needed (R108). -/
def moduleNeeded (s : State) : Bool :=
  s.path.radioWanted || s.path.emergency || s.radio.state == .attached || s.radio.state == .attaching
    || (s.loader.policy.warm && s.power.mode == .mains)

/-- Something wants an attach: radio wanted or the emergency flag (R112). -/
def attachWanted (s : State) : Bool := s.path.radioWanted || s.path.emergency

/-- LCLK runs: MPWR asserted and the power mode not DOZE (R104). -/
def lclkRuns (s : State) : Bool := s.radio.mpwr && enginesRun s

/-- The module listens: the states in which the arbiter sends (R106). -/
def moduleListens (s : State) : Bool :=
  s.radio.state == .detached || s.radio.state == .attaching || s.radio.state == .attached
    || (s.radio.state == .backoff && s.radio.ready)

/-- A message may begin on LDO, MRDY apart: the module listens, the clock runs, nothing is being sent (R106). -/
def ldoFree (s : State) : Bool := moduleListens s && lclkRuns s && s.radio.ldo == none

/-- The module can send: LCLK runs and the part does not hold it in reset (R104, R105). -/
def ldiRuns (s : State) : Bool := lclkRuns s && !s.radio.mrst

/-- A message may arrive: the module can send and the receiver waits for a header (R104, R105, log 18). -/
def receiverReady (s : State) : Bool := ldiRuns s && s.radio.receiver == .idle

/-- The pause target: Hold Memory's pause or the return pause (R123). -/
def pauseTarget (s : State) : Bool := s.hold.paused || s.path.returnPause

/-! ### Path -/

/-- The return decision and its cause (R14). -/
def returnDecision (s : State) : Option PathCause :=
  if s.pins.offhook then none
  else if s.path.path = .takeover || s.path.path = .radio || s.path.path = .held then
    match s.loader.policy.pathOverride with
    | .automatic => if s.path.dwell = .met then some .dwellMet else none
    | .fibreOnly => if s.path.priorityTimer = none then some .fibreOnly else none
    | .radioNow => none
  else none

/-- The takeover conditions other than the priority scan's, in the table's order (R5). -/
def takeoverCause (s : State) : Option PathCause :=
  if s.health.verdict = .unhealthy && s.loader.policy.pathOverride = .automatic then some .verdict
  else if s.loader.policy.pathOverride = .radioNow then some .radioNow
  else none

/-- What R17 asks to hold together for the drain to be complete; receive release is complete with the RXF write over buffers
filled before it issued, so that the part's RXF equals the fill cursor (R133, R136). -/
def drainDone (s : State) : Bool :=
  uplinkEmpty s && slotsFree s && downlinkEmpty s && s.ring.delivery == none
    && s.ring.partTxc == s.ring.fence && s.path.txReleased && s.path.rxReleased && s.ring.partRxf == s.ring.fillCursor

/-- What the hand-back write waits for in CLOSING and in a soft reset: every entry below F done, no take and no delivery in
progress, both rings released, the part's TXC equal to F (R18, R24). -/
def closed (s : State) : Bool :=
  s.ring.takes == [] && s.ring.delivery == none && s.ring.partTxc == s.ring.fence
    && s.path.txReleased && s.path.rxReleased

/-! ### Health -/

/-- The value of an attribute (R27). -/
def attributeValue (h : Health) : Attribute → Nat
  | .sig => h.sig
  | .txp => h.txp
  | .rxa => h.rxa
  | .txe => h.txe

/-- The parameters in force for an attribute (R28). -/
def attributeParams (p : Policy) : Attribute → AttributeParams
  | .sig => p.sig
  | .txp => p.txp
  | .rxa => p.rxa
  | .txe => p.txe

/-- The restore level: the lesser of 253 and t + m (R27). -/
def restoreLevel (a : AttributeParams) : Nat := min 253 (a.t + a.m)

/-- The counted attributes: all four in FIBRE, SIG alone elsewhere (R37). -/
def counted (s : State) : List Attribute := if s.path.path = .fibre then [.sig, .txp, .rxa, .txe] else [.sig]

/-- An attribute lies in its low band (R27). -/
def inLowBand (s : State) (a : Attribute) : Bool :=
  attributeValue s.health a ≤ (attributeParams s.loader.policy a).t

/-- An attribute lies in its high band (R27). -/
def inHighBand (s : State) (a : Attribute) : Bool :=
  restoreLevel (attributeParams s.loader.policy a) ≤ attributeValue s.health a

/-- The verdict an evaluation gives (R34). -/
def verdictNow (s : State) : Verdict :=
  if (counted s).any (inLowBand s) then .unhealthy
  else if (counted s).all (inHighBand s) then .healthy
  else s.health.verdict

/-- The deciding attribute: for UNHEALTHY the first counted one in its low band, for HEALTHY none (R35). -/
def decidingAttribute (s : State) : Option Attribute := (counted s).find? (inLowBand s)

/-! ### Power -/

/-- The starting conditions of an entry to DOZE, the doze step apart (R157). -/
def dozeConditions (s : State) : Bool :=
  s.power.mode == .reserve && s.pins.mainsLost && s.power.mainsReturn == none
    && (s.path.path == .fibre || s.path.path == .radio || s.path.path == .held)
    && uplinkEmpty s && downlinkEmpty s && slotsFree s
    && !s.pins.offhook
    && s.power.quiet == .runOut

/-! ### Events, INT and the LEDs -/

/-- The kinds in the event ring slots of the `n` positions from `c`, oldest first. -/
def kindsFrom (s : State) (c : Count) (n : Nat) : List EventKind :=
  (List.range n).filterMap fun i => s.events.slotKinds.getD (slotOf (eventSize s) (advance c i)) none

/-- The posted-kind list (R168). -/
def postedKinds (s : State) : List EventKind :=
  if dist (shadowCount s .evc) s.events.evp ≤ eventSize s then
    kindsFrom s (shadowCount s .evc) (dist (shadowCount s .evc) s.events.evp)
  else s.events.slotKinds.filterMap id

/-- A kind is masked by the event mask in force: bit k-1 for the kind of priority k (11.4). -/
def masked (s : State) (k : EventKind) : Bool := s.loader.policy.eventMask.getLsbD (kindPriority k - 1)

/-- INT is asserted (R169). -/
def intAsserted (s : State) : Bool := partWorks s && (postedKinds s).any fun k => !masked s k

/-- The level of the INT line: the strap gives the asserted level (R169, R176). DESIGN CHOICE (log 39): a strap sampled at 1 makes
INT asserted at 1, which the spec does not say. -/
def intLevel (s : State) : Bool := if intAsserted s then s.pins.intPolarity else !s.pins.intPolarity

/-- The event ring has room (R168). -/
def ringHasRoom (s : State) : Bool := dist (shadowCount s .evc) s.events.evp < eventSize s

/-- An entry can be posted but for work in progress elsewhere: room in the ring and some entry set (R157 item 3, R168). -/
def postable (s : State) : Bool := ringHasRoom s && s.events.entries.any Option.isSome

/-- What an LED shows (R170, R174). -/
inductive LedPattern
  | off
  | slowFlash           -- 1 Hz
  | on
  | flashCode (k : Nat) -- the DISABLED pattern
  deriving DecidableEq, Repr

/-- The flashing period in ms: k flashes of 300 ms and 2 s dark in DISABLED (R174), else the 1 s of a slow flash (R170). -/
def ledPeriod (s : State) : Nat := if s.path.path = .disabled then 300 * s.loader.flashCode + 2000 else 1000

/-- Whether an LED with a pattern is lit `t` ms into its period. A flash of the DISABLED pattern is 100 ms lit and 200 ms dark
(R174); a slow flash is lit for the first half of its second (DESIGN CHOICE, log 37). -/
def patternLit : LedPattern → Nat → Bool
  | .off, _ => false
  | .on, _ => true
  | .slowFlash, t => t < 500
  | .flashCode k, t => t < 300 * k && t % 300 < 100

/-- PATHLED (R170, R172, R174). -/
def pathLed (s : State) : LedPattern :=
  if s.loader.phase != .ended || s.power.mode == .doze then .off
  else match s.path.path with
    | .fibre => .off
    | .takeover => .slowFlash
    | .returning => .slowFlash
    | .radio => .on
    | .held => .on
    | .disabled => .flashCode s.loader.flashCode

/-- PATHLED is lit (R170, R174). -/
def pathLedLit (s : State) : Bool := patternLit (pathLed s) s.events.ledMs

/-- RADLED (R170, R172, R174). -/
def radLed (s : State) : LedPattern :=
  if s.loader.phase != .ended || s.power.mode == .doze then .off
  else match s.radio.state with
    | .off => .off
    | .detached => .off
    | .starting => .slowFlash
    | .attaching => .slowFlash
    | .backoff => .slowFlash
    | .attached => .on

/-- RADLED is lit (R170). -/
def radLedLit (s : State) : Bool := patternLit (radLed s) s.events.ledMs

end Sys2Proof.Machine
end

