-- ==== Sys2Proof/Machine/Ops.lean ====
section
/-! DEFINITION. The named operations every block uses: the two memories, the pending events and counters, requests to the
memory master, the pause item, the wake sources and the abandonment of a DOZE entry. -/

namespace Sys2Proof.Machine

/-! ### Memory -/

/-- The byte at an address; one that is not listed reads as `Config.unlistedByte` (log 5). -/
def memRead : Memory → Nat → Byte
  | [], _ => Config.unlistedByte
  | (k, c) :: rest, a => if k = a then c else memRead rest a

/-- A cell put before the rest, unless it holds what an unlisted address reads as. -/
def consCell (a : Nat) (b : Byte) (rest : Memory) : Memory :=
  if b = Config.unlistedByte then rest else (a, b) :: rest

/-- Writing a byte; the canonical form is kept. -/
def memWrite : Memory → Nat → Byte → Memory
  | [], a, b => consCell a b []
  | (k, c) :: rest, a, b =>
    if a < k then consCell a b ((k, c) :: rest)
    else if a = k then consCell a b rest
    else (k, c) :: memWrite rest a b

/-- Every address is above `lo` and rising, and no listed byte is what an unlisted one reads as. -/
def memRising : Nat → Memory → Bool
  | _, [] => true
  | lo, (k, c) :: rest => lo ≤ k && c != Config.unlistedByte && memRising (k + 1) rest

/-- The canonical form: addresses strictly rising, no entry equal to what an unlisted address reads as. -/
def Memory.wf (m : Memory) : Bool := memRising 0 m

/-- Writing bytes one after another. -/
def memWriteAll : Memory → List (Nat × Byte) → Memory
  | m, [] => m
  | m, (a, b) :: rest => memWriteAll (memWrite m a b) rest

/-- The word at an address, lowest byte least significant. -/
def memWord (m : Memory) (a : Nat) : Word := wordOf ((List.range 4).map fun j => memRead m (a + j))

/-- The bytes a word write stores: the enabled lanes. -/
def laneBytes (a : Nat) (l : LaneWord) : List (Nat × Byte) :=
  (List.range 4).filterMap fun j => if laneOn l j then some (a + j, wordByte l.data j) else none

/-- Writing words at their addresses, lane by lane. -/
def memWriteWords (m : Memory) (ws : List (Nat × LaneWord)) : Memory :=
  memWriteAll m (ws.flatMap fun p => laneBytes p.1 p.2)

/-- The words of a read, in order, wrapping at the top (R141). -/
def memReadWords (m : Memory) (a : Addr) (n : Nat) : List Word := (wordAddrs a n).map (memWord m)

/-- The words of a write with their addresses. -/
def placeWords (a : Addr) (ws : List LaneWord) : List (Nat × LaneWord) := (wordAddrs a ws.length).zip ws

/-- The place of byte `i` of a record in hold memory (R68). -/
def cellPlace (r : FrameRecord) (i : Nat) : Nat :=
  r.cells.getD (i / Config.cellBytes) 0 * Config.cellBytes + i % Config.cellBytes

/-- Byte `i` of a record (R68). -/
def frameByte (s : State) (r : FrameRecord) (i : Nat) : Byte := memRead s.hold.cells (cellPlace r i)

/-- The bytes of a record's frame, in order. -/
def frameBytes (s : State) (r : FrameRecord) : List Byte := (List.range r.length).map (frameByte s r)

/-- Storing bytes of a frame from byte `first` on into the record's cells (R55, R122). -/
def storeFrame (s : State) (r : FrameRecord) (first : Nat) (bs : List Byte) : State :=
  { s with hold.cells := memWriteAll s.hold.cells ((List.range bs.length).map fun i => (cellPlace r (first + i), bs.getD i 0)) }

/-! ### Events and counters -/

/-- The entry a raise leaves: a clear entry becomes set with repeat 1, a set one repeats, saturating at 255 (R167). -/
def raisedEntry (now : Millis) (d : EventDetail) : Option EventEntry → EventEntry
  | none => ⟨1, now, d⟩
  | some e => ⟨min (e.repeats + 1) 255, e.stamp, d⟩

/-- A block raises an event kind (R167). -/
def raiseEvent (d : EventDetail) (s : State) : State :=
  { s with events.entries := s.events.entries.modify (kindPriority (detailKind d) - 1) fun e => some (raisedEntry s.clock d e) }

/-- The place of a counter in the order of R165. -/
def counterIndex : CounterName → Nat
  | .voiceLate => 0
  | .voiceRefused => 1
  | .dataRefused => 2
  | .dataExpired => 3
  | .downlinkDropped => 4
  | .downlinkTruncated => 5
  | .discardedAtReturn => 6
  | .staleUplinkWrites => 7
  | .linkFramingErrors => 8
  | .straySendResults => 9

/-- A raise of a saturating counter (R165). -/
def raisedCounter (c : Counter) : Counter :=
  if c.value < 65535 then { c with value := c.value + 1 } else { c with saturated := true }

/-- A block raises a counter (R165). -/
def raiseCounter (c : CounterName) (s : State) : State :=
  { s with events.counters := s.events.counters.modify (counterIndex c) raisedCounter }

/-- A status page write is asked for (R23, R166). DESIGN CHOICE (log 74): a request that falls while one is wanted already, and has not
begun, joins it; R166 speaks only of requests during a write. -/
def askPage (s : State) : State := { s with events.pageWanted := true }

/-- The counter a loss raises (R78). -/
def lossCounter (reason : LossReason) (r : FrameRecord) : CounterName :=
  match reason with
  | .expired =>
    if isVoice r.cls then .voiceLate
    else match r.direction with
      | .uplink => .dataExpired
      | .downlink => .downlinkDropped
  | .refused => if isVoice r.cls then .voiceRefused else .dataRefused
  | .noCells => .downlinkDropped
  | .incomplete => .downlinkDropped
  | .discardedAtReturn =>
    match r.direction with
    | .uplink => .discardedAtReturn
    | .downlink => .downlinkDropped
  | .fibrePath => .downlinkDropped

/-- The detail of a loss (R78). -/
def lossDetail (s : State) (reason : LossReason) (r : FrameRecord) : EventDetail :=
  let d : LossDetail := ⟨reason, r.direction, r.cls, r.position, min (recordAge s r) 65535⟩
  if isVoice r.cls then .voiceLoss d else .dataLoss d

/-- A frame given up: one counter and one event kind are raised (R78). -/
def reportLoss (reason : LossReason) (r : FrameRecord) (s : State) : State :=
  s |> raiseCounter (lossCounter reason r) |> raiseEvent (lossDetail s reason r)

/-- A frame discarded by a soft reset: counted, and added to the counts of Soft Reset Done, with no event (R82). -/
def countSoftDiscard (r : FrameRecord) (s : State) : State :=
  let s := raiseCounter (lossCounter .discardedAtReturn r) s
  match r.direction with
  | .uplink => { s with loader.softUp := s.loader.softUp + 1 }
  | .downlink => { s with loader.softDown := s.loader.softDown + 1 }

/-! ### Requests to the memory master -/

/-- A block asks the memory master for a transfer; it waits for a place in the queue (R150). The transfer is formed, and its
effect on the block made, when it is issued. -/
def request (p : Purpose) (s : State) : State := { s with bus.waiting := s.bus.waiting ++ [p] }

/-- Several requests in order. -/
def requestAll (ps : List Purpose) (s : State) : State := { s with bus.waiting := s.bus.waiting ++ ps }

/-! ### The pause item -/

/-- A change made by `f` that may move the pause target; when it does, a pause item becomes pending (R123). -/
def withPauseTarget (f : State → State) (s : State) : State :=
  if pauseTarget (f s) = pauseTarget s then f s else { f s with radio.items.pause := true }

/-! ### Quiet timer, wake sources and abandonment -/

/-- The quiet timer restarts for the doze delay (R156). -/
def restartQuiet (s : State) : State := { s with power.quiet := .running (s.loader.policy.dozeDelay * 1000) }

/-- A wake source added to the latch (R159). -/
def latchSource (w : WakeSource) (l : WakeLatch) : WakeLatch :=
  match w with
  | .txpWrite => { l with txpWrite := true }
  | .pgenWrite => { l with pgenWrite := true }
  | .offhook => { l with offhook := true }
  | .losLink => { l with losLink := true }
  | .ri => { l with ri := true }
  | .dozeTimer => { l with dozeTimer := true }
  | .mainsReturned => { l with mainsReturned := true }

/-- What an entry to DOZE that has told the Radio Link Manager leaves when it is abandoned (R157, log 27): a Low Power on being
sent is answered when it ends; one already sent, or told still, is answered by a Low Power off item; one not yet begun stays
pending. -/
def answerLowPower (s : State) : State :=
  match s.radio.ldo with
  | some (.lowPower true _) => { s with radio.ldo := some (.lowPower true false) }
  | some (.lowPower false _) => s
  | _ =>
    if s.radio.lowPowerTold && s.radio.items.lowPower == none then { s with radio.items.lowPower := some false } else s

/-- An entry to DOZE is abandoned: the step returns to AWAKE, and only what the Radio Link Manager has been told of it is
answered (R157). -/
def abandonEntry (s : State) : State :=
  let s' := { s with power.step := .awake }
  if s.power.step = .entering .link then answerLowPower s' else s'

/-- A source of R159 falls: in DOZE it is latched and begins the restart of 2 ms; during an entry it abandons the entry and
the quiet timer is restarted (R156, R157, R159, R160). -/
def wakeSource (w : WakeSource) (s : State) : State :=
  match s.power.step with
  | .dozing => { s with power.latch := latchSource w s.power.latch, power.step := .restarting, power.restart := some 2,
                        power.dozeTimer := none }
  | .restarting => { s with power.latch := latchSource w s.power.latch }
  | .entering _ => restartQuiet (abandonEntry s)
  | .awake => s

/-- An entry to DOZE that is under way is abandoned (R157). -/
def ceaseEntry (s : State) : State :=
  match s.power.step with
  | .entering _ => abandonEntry s
  | _ => s

/-- A record joins a queue: an entry to DOZE under way is abandoned (R157). -/
def recordJoins (s : State) : State := ceaseEntry s

end Sys2Proof.Machine
end

