-- ==== Sys2Proof/Machine/Taking.lean ====
section
/-! DEFINITION. Beginning takes: the grant of cells, the take itself with what a Voice Priority take does to the Path Controller
and the radio, and the judgement of the PENDING entries that every rise of the free count brings (R53, R54, R22, R116). It stands
before Hold Memory's freeing, which makes that judgement. -/

namespace Sys2Proof.Machine

/-! ### The grant of cells -/

/-- The pause state the waters give on the free count (R80). -/
def pauseNow (s : State) : Bool :=
  if s.hold.paused then freeCount s ≤ s.loader.policy.lowWater else freeCount s < s.loader.policy.highWater

/-- Hold Memory evaluates the downlink pause; a change is reported to the Radio Link Manager (R80, R123). -/
def evalPause (s : State) : State := withPauseTarget (fun s => { s with hold.paused := pauseNow s }) s

/-- The record a grant of `cellsFor length` cells makes: the first cells of the free list, in order (R67, R69, R70). -/
def newRecord (s : State) (cls : FrameClass) (dir : Direction) (length : Nat) (pos : Option Count) : FrameRecord :=
  ⟨cls, dir, length, s.hold.freeList.take (cellsFor length), s.clock, 0, pos⟩

/-- The cells of a grant leave the free list and the pause is re-evaluated (R67, R70). -/
def takeCells (length : Nat) (s : State) : State :=
  evalPause { s with hold.freeList := s.hold.freeList.drop (cellsFor length) }

/-! ### The emergency (R22, R116) -/

/-- MPWR asserted, MRST kept asserted for 10 ms more (R108, R110). -/
def powerUp (s : State) : State := { s with radio.mpwr := true, radio.mrst := true, radio.mrstTimer := some 10 }

/-- STARTING is entered with the start timer of 20 s running (R108, R115). -/
def enterStarting (s : State) : State :=
  { s with radio.state := .starting, radio.ready := false, radio.startTimer := some 20000 }

/-- An Attach Request is made pending: ATTACHING is entered and the attach timer starts (R112). -/
def requestAttach (s : State) : State :=
  { s with
    radio.state := .attaching
    radio.items.attach := true
    radio.attachTimer := some (s.loader.policy.attachTimeout * 1000)
    radio.attachTag := none }

/-- A BACKOFF with the ready mark clear has lost its timer: STARTING is entered, or waits for the end of a cycle that still runs
(R115, R116, R126). -/
def startAfterCycle (s : State) : State := if s.radio.cycleTimer = none then enterStarting s else s

/-- The emergency flag changes from clear to set (R116); the linger stops (R121). The flag makes the module needed and wants an
attach, so the power rule in OFF powers it. -/
def emergencySet (s : State) : State :=
  let s := { s with radio.lingerTimer := none }
  match s.radio.state with
  | .off => if partWorks s then enterStarting (powerUp s) else s
  | .starting => s
  | .detached => requestAttach s
  | .attaching => s
  | .attached => s
  | .backoff =>
    let s := { s with radio.backoffTimer := none }
    if s.radio.ready then requestAttach s else startAfterCycle s

/-- The priority timer restarts at 60 s (R22). -/
def restartPriority (s : State) : State := { s with path.priorityTimer := some 60000 }

/-- A Voice Priority take is reported: the priority timer restarts and, when the radio is not ATTACHED, the emergency flag is
set (R22, R116). -/
def priorityTake (s : State) : State :=
  let s := restartPriority s
  if s.radio.state = .attached || s.path.emergency then s
  else emergencySet { s with path.emergency := true }

/-! ### Takes -/

/-- A window entry changed where its position is `pos`. -/
def updateEntry (pos : Count) (f : Entry → Entry) (s : State) : State :=
  { s with ring.window := s.ring.window.map fun e => if e.pos = pos then f e else e }

/-- A take begins: cells granted into a record that stands in no queue, the entry TAKING, the first frame read asked for, and
a Voice Priority take reported (R54). -/
def beginTake (e : Entry) (cls : FrameClass) (s : State) : State :=
  let r := newRecord s cls .uplink e.length (some e.pos)
  let s := takeCells e.length s
  let s := updateEntry e.pos (fun e => { e with st := .taking }) s
  let s := request (.frameRead e.pos) { s with ring.takes := s.ring.takes ++ [⟨e.pos, r, e.addr, 0⟩] }
  if cls = .voicePriority then priorityTake s else s

/-- The Ring Agent may begin takes: the path holds the rings, outside CLOSING, a soft reset before its
re-initialisation (log 64) and DOZE (R24, R61, R66). -/
def mayTake (s : State) : Bool :=
  holdsRings s && s.path.phase != some .closing && !softResetStands s && enginesRun s

/-- The judgement of one entry: a take for an eligible one while fewer than four are in progress (R53). -/
def judgeEntry (s : State) (e : Entry) : State :=
  if s.ring.takes.length < Config.takePlaces && mayTake s && eligible s e then
    match takeClass e.cls with
    | some cls => beginTake e cls s
    | none => s
  else s

/-- The Ring Agent judges the PENDING entries in window order (R53). -/
def judgePending (s : State) : State := s.ring.window.foldl judgeEntry s

end Sys2Proof.Machine
end

