-- ==== Sys2Proof/Machine/HoldMemory.lean ====
section
/-! DEFINITION. Hold Memory: frame records, the five queues, losses (chapter 4). The grant of cells stands in Taking.lean. -/

namespace Sys2Proof.Machine

/-- The record's frame is being sent on LDO (R67, R119). -/
def onLdoNow (s : State) (r : FrameRecord) : Bool :=
  match s.radio.ldo with
  | some (.sendUp _ _ (some q)) => q.cells == r.cells
  | _ => false

/-- Cells join the tail of the free list, in order: the pause is evaluated, and the Ring Agent, told of the rise of the free
count, judges its PENDING entries (R53, R67, R76, R80). -/
def freeCells (cells : List Nat) (s : State) : State :=
  if cells = [] then s else judgePending (evalPause { s with hold.freeList := s.hold.freeList ++ cells })

/-- A record is freed; while its Send Up is being sent its cells wait for the end of the message (R67). -/
def freeRecord (r : FrameRecord) (s : State) : State :=
  if onLdoNow s r then { s with hold.onLdo := s.hold.onLdo ++ [r] } else freeCells r.cells s

/-- The message on LDO has ended: the records freed meanwhile cease to exist, one after another (R67, R119). -/
def freeOnLdo (s : State) : State :=
  s.hold.onLdo.foldl (fun s r => freeCells r.cells s) { s with hold.onLdo := [] }

/-- A record is freed and reported lost (R78). -/
def loseRecord (reason : LossReason) (r : FrameRecord) (s : State) : State := freeRecord r (reportLoss reason r s)

/-- A record is freed and counted by a soft reset (R82). -/
def softDiscardRecord (r : FrameRecord) (s : State) : State := freeRecord r (countSoftDiscard r s)

/-- A record joins the tail of its queue (R72). -/
def joinQueue (r : FrameRecord) (s : State) : State :=
  match r.direction, r.cls with
  | .uplink, .voicePriority => { s with hold.uqE := s.hold.uqE ++ [r] }
  | .uplink, .voice => { s with hold.uqV := s.hold.uqV ++ [r] }
  | .uplink, .data => { s with hold.uqD := s.hold.uqD ++ [r] }
  | .downlink, .voicePriority => { s with hold.dqV := s.hold.dqV ++ [r] }
  | .downlink, .voice => { s with hold.dqV := s.hold.dqV ++ [r] }
  | .downlink, .data => { s with hold.dqD := s.hold.dqD ++ [r] }

/-- A returned uplink record re-enters its queue at the head (R75). -/
def rejoinQueue (r : FrameRecord) (s : State) : State :=
  match r.cls with
  | .voicePriority => { s with hold.uqE := r :: s.hold.uqE }
  | .voice => { s with hold.uqV := r :: s.hold.uqV }
  | .data => { s with hold.uqD := r :: s.hold.uqD }

/-- A record returned from its slot: the refusal count rises; at 16 it is freed and lost, else it re-enters at the head (R75). -/
def returnRecord (r : FrameRecord) (s : State) : State :=
  let r' := { r with refusals := r.refusals + 1 }
  if 16 ≤ r'.refusals then loseRecord .refused r' s else rejoinQueue r' s

/-- Records lost for one reason, in order. -/
def loseAll (reason : LossReason) (rs : List FrameRecord) (s : State) : State :=
  rs.foldl (fun s r => loseRecord reason r s) s

/-- Records discarded by a soft reset, in order (R82). -/
def softDiscardAll (rs : List FrameRecord) (s : State) : State := rs.foldl (fun s r => softDiscardRecord r s) s

/-- UQ-E is freed of the expired heads that stand before the first head that may be chosen (R73). -/
def dropOldUqE (s : State) : State :=
  loseAll .expired (s.hold.uqE.takeWhile (voiceTooOld s)) { s with hold.uqE := s.hold.uqE.dropWhile (voiceTooOld s) }

/-- UQ-V likewise (R73). -/
def dropOldUqV (s : State) : State :=
  loseAll .expired (s.hold.uqV.takeWhile (voiceTooOld s)) { s with hold.uqV := s.hold.uqV.dropWhile (voiceTooOld s) }

/-- DQ-V likewise (R73, R130). -/
def dropOldDqV (s : State) : State :=
  loseAll .expired (s.hold.dqV.takeWhile (voiceTooOld s)) { s with hold.dqV := s.hold.dqV.dropWhile (voiceTooOld s) }

/-- The 10 ms sweep over one voice queue's records: those too old are lost, in queue order (R77). -/
def sweepVoice (s : State) : State :=
  let old := voiceTooOld s
  let s := loseAll .expired (s.hold.uqE.filter old) { s with hold.uqE := s.hold.uqE.filter fun r => !old r }
  let s := loseAll .expired (s.hold.uqV.filter old) { s with hold.uqV := s.hold.uqV.filter fun r => !old r }
  loseAll .expired (s.hold.dqV.filter old) { s with hold.dqV := s.hold.dqV.filter fun r => !old r }

/-- A record of UQ-D is given up as expired: it leaves the queue and is freed, and its leaving is reported to the Ring Agent, which
judges its PENDING entries, whether or not its cells still wait for a Send Up on LDO (R53, R67, R76, R77). -/
def expireUqD (r : FrameRecord) (s : State) : State :=
  judgePending (loseRecord .expired r { s with hold.uqD := s.hold.uqD.erase r })

/-- The 1 s sweep over UQ-D, removal by removal, then over DQ-D (R77). -/
def sweepData (s : State) : State :=
  let oldUp := fun r => decide (s.loader.policy.dataHold * 1000 < recordAge s r)
  let oldDown := fun r => decide (s.loader.policy.downlinkHold * 100 < recordAge s r)
  let s := (s.hold.uqD.filter oldUp).foldl (fun s r => expireUqD r s) s
  loseAll .expired (s.hold.dqD.filter oldDown) { s with hold.dqD := s.hold.dqD.filter fun r => !oldDown r }

/-- The slot's record and its Send Up leave the Radio Link Manager: the slot is free, an unsent Send Up is withdrawn, one that
has begun is sent to its end and changes no slot (R119, R120). -/
def clearSlot (slot : Slot) (s : State) : State :=
  let s := match slot with
    | .a => { s with radio.slotA := none }
    | .b => { s with radio.slotB := none }
  let s := { s with radio.unsent := s.radio.unsent.filter (· != slot) }
  match s.radio.ldo with
  | some (.sendUp q _ r) => if q = slot then { s with radio.ldo := some (.sendUp q false r) } else s
  | _ => s

/-- The charge of a slot becomes none (R93 to R95). -/
def clearCharge (slot : Slot) (s : State) : State :=
  match slot with
  | .a => { s with pacer.chargeA := none }
  | .b => { s with pacer.chargeB := none }

/-- The records of the busy slots, slot A's before slot B's. DESIGN CHOICE (log 45): the spec gives no order in which the drain
limit and the soft reset discard them; the order fixes that of the free list and which loss is the latest. -/
def slotRecords (s : State) : List FrameRecord := [s.radio.slotA, s.radio.slotB].filterMap fun b => b.map (·.record)

/-- Both slots emptied without a settlement: no refund, no usage, no pause (R95). -/
def emptySlots (s : State) : State := s |> clearSlot .a |> clearSlot .b |> clearCharge .a |> clearCharge .b

/-- All five queues emptied. -/
def emptyQueues (s : State) : State :=
  { s with hold.uqE := [], hold.uqV := [], hold.uqD := [], hold.dqV := [], hold.dqD := [] }

/-- The records the drain limit and the soft reset discard: the uplink queues, the slots, the downlink queues (R18, R24). -/
def standingRecords (s : State) : List FrameRecord :=
  s.hold.uqE ++ s.hold.uqV ++ s.hold.uqD ++ slotRecords s ++ s.hold.dqV ++ s.hold.dqD

/-- A payload still being received gets the fate its record meets at its end; one that a soft reset has marked keeps that, and
a soft reset takes over one marked at the return (R81, R82). -/
def markReceiving (fate : ReceiveFate) (s : State) : State :=
  match s.radio.receiver with
  | .payload r =>
    if r.fate = .atSoftReset then s else { s with radio.receiver := .payload { r with fate := fate } }
  | _ => s

/-- Hold Memory at the drain limit: every queued and slotted record is discarded and reported (R18, R81). -/
def discardAtReturn (s : State) : State :=
  let rs := standingRecords s
  s |> emptySlots |> emptyQueues |> loseAll .discardedAtReturn rs |> markReceiving .atReturn

/-- Hold Memory at the discard step of a soft reset (R82, R95). A record in a take, in the receiver or in delivery is freed and
counted as that ends (takeEnds, payloadEnds, endDelivery). -/
def discardAtSoftReset (s : State) : State :=
  let rs := standingRecords s
  s |> emptySlots |> emptyQueues |> softDiscardAll rs |> markReceiving .atSoftReset

/-- Whether a downlink request is granted: never in CLOSING nor in a soft reset before its re-initialisation, else by the
rule of its class (R70). -/
def downlinkGranted (s : State) (cls : FrameClass) (length : Nat) : Bool :=
  s.path.phase != some .closing && !softResetStands s && cellsAllow s cls false (cellsFor length)

/-- A record that stands for a refused request in its loss report (R70, R78): no cells, age 0. -/
def refusedRecord (s : State) (cls : FrameClass) (length : Nat) : FrameRecord :=
  ⟨cls, .downlink, length, [], s.clock, 0, none⟩

/-- How a refused downlink request is counted (R70, R82). DESIGN CHOICE (log 46): in CLOSING with a soft reset under way R70
gives both counts; the soft reset's is taken. -/
def reportRefused (cls : FrameClass) (length : Nat) (s : State) : State :=
  if softResetStands s then countSoftDiscard (refusedRecord s cls length) s
  else if s.path.phase = some .closing then reportLoss .discardedAtReturn (refusedRecord s cls length) s
  else reportLoss .noCells (refusedRecord s cls length) s

end Sys2Proof.Machine
end

