-- ==== Sys2Proof/Machine/Pacer.lean ====
section
/-! DEFINITION. The Pacer and Allowance Meter: credit, placement, refunds, the usage count and the allowance (chapter 5). -/

namespace Sys2Proof.Machine

/-! ### Credit -/

/-- Credit brought down to +8B (R85, R87, R94). -/
def capCredit (s : State) (c : Int) : Int := min c (creditBound s)

/-- The refill of one pacing expiry: C becomes the lesser of C + r and 8B (R87). -/
def refill (s : State) : State := { s with pacer.credit := capCredit s (s.pacer.credit + refillRate s) }

/-- C brought into the range of the burst size in force (R97). -/
def clampCredit (s : State) : State :=
  { s with pacer.credit := max (-creditBound s) (min s.pacer.credit (creditBound s)) }

/-- The charge of a slot (R89). -/
def chargeOf (s : State) : Slot → Option Nat
  | .a => s.pacer.chargeA
  | .b => s.pacer.chargeB

/-- The refund of a refusal and the refusal pause of 20 ms (R94). -/
def refund (slot : Slot) (s : State) : State :=
  { clearCharge slot s with
    pacer.credit := capCredit s (s.pacer.credit + ((chargeOf s slot).getD 0 : Nat))
    pacer.refusalPause := some 20 }

/-- An entry of the radio to ATTACHED: C is 0 and no grant has been seen (R96). -/
def creditAtAttach (s : State) : State := { s with pacer.credit := 0, pacer.grantSeen := false }

/-! ### The downlink cap and the allowance -/

/-- The downlink cap takes a value; a change makes a Down Cap item pending (R101, R123). -/
def setDownlinkCap (cap : Nat) (s : State) : State :=
  if cap = s.pacer.downlinkCap then s
  else { s with pacer.downlinkCap := cap, radio.items.downCap := true }

/-- The usage count in KiB as an Allowance record carries it (R101). -/
def usageKiB (s : State) : Nat := min (usageCount s / 1024) 4294967295

/-- The allowance state takes a value: the downlink cap follows it (R101). -/
def setAllowance (a : Allowance) (s : State) : State :=
  let s := { s with pacer.allowance := a }
  if a = .exhausted then setDownlinkCap s.loader.policy.trickle s else setDownlinkCap 0 s

/-- The Meter evaluates the allowance state; a change raises Allowance (R100, R101). -/
def evalAllowance (cause : AllowanceCause) (s : State) : State :=
  let new := allowanceOf s.loader.policy.allowanceMiB (usageCount s)
  if new = s.pacer.allowance then s
  else setAllowance new (raiseEvent (.allowance s.pacer.allowance new cause (usageKiB s)) s)

/-- Data bytes are added to the carried bytes (R98). -/
def countUsage (length : Nat) (s : State) : State :=
  evalAllowance .count { s with pacer.carried := s.pacer.carried + length }

/-- A usage base is applied (R99). -/
def applyUsageBase (base : Nat) (s : State) : State :=
  { s with pacer.usageBase := some base, pacer.carried := 0 }

/-- The start-up application of the usage base: Allowance is raised with cause start-up when the state is then WARNED or
EXHAUSTED, or has changed (R101). -/
def startUpAllowance (s : State) : State :=
  let s := applyUsageBase s.loader.policy.usageBase s
  let new := allowanceOf s.loader.policy.allowanceMiB (usageCount s)
  if new = .normal && s.pacer.allowance = .normal then s
  else setAllowance new (raiseEvent (.allowance s.pacer.allowance new .startUp (usageKiB s)) s)

/-! ### Placement -/

/-- The slot a placement fills: A when it is free, else B when that is free (R90). -/
def freeSlot (s : State) : Option Slot :=
  if s.radio.slotA = none then some .a else if s.radio.slotB = none then some .b else none

/-- The conditions of an attempt, the examination apart (R90); none is made once a soft reset has stopped taking
(R102), until its re-initialisation (log 64). DESIGN CHOICE (log 75): an attempt that a soft reset so bars makes no examination either,
so it gives up no expired voice head (R73); R102 bars the placement and has the Pacer act otherwise as at any other time. -/
def mayPlace (s : State) : Bool :=
  s.radio.state == .attached && s.pacer.refusalPause == none && (freeSlot s).isSome
    && enginesRun s && !softResetStands s

/-- The head an examination finds leaves its queue: UQ-E, UQ-V, UQ-D, the first that has one (R73, R91). -/
def removeHead (s : State) : State :=
  match s.hold.uqE, s.hold.uqV with
  | _ :: rest, _ => { s with hold.uqE := rest }
  | [], _ :: rest => { s with hold.uqV := rest }
  | [], [] => { s with hold.uqD := s.hold.uqD.tail }

/-- A record put in a slot: the slot is busy, its Send Up unsent, its 500 ms timer running (R92, R119). -/
def fillSlot (slot : Slot) (r : FrameRecord) (s : State) : State :=
  let b : BusySlot := ⟨r, false, some 500⟩
  match slot with
  | .a => { s with radio.slotA := some b, radio.unsent := s.radio.unsent ++ [.a] }
  | .b => { s with radio.slotB := some b, radio.unsent := s.radio.unsent ++ [.b] }

/-- C is lowered by the cost, which becomes the slot's charge (R89, R92). -/
def chargeSlot (slot : Slot) (cost : Nat) (s : State) : State :=
  match slot with
  | .a => { s with pacer.credit := s.pacer.credit - cost, pacer.chargeA := some cost }
  | .b => { s with pacer.credit := s.pacer.credit - cost, pacer.chargeB := some cost }

/-- A placement (R92); a record that leaves UQ-D brings the Ring Agent's judgement (R53, R76). -/
def place (slot : Slot) (r : FrameRecord) (s : State) : State :=
  let s := s |> chargeSlot slot (frameCost s r.length) |> removeHead |> fillSlot slot r
  if r.cls = .data then judgePending s else s

/-- The examination passes the expired heads of UQ-E, and of UQ-V when UQ-E is empty (R73, R91). -/
def examine (s : State) : State :=
  let s := dropOldUqE s
  if s.hold.uqE = [] then dropOldUqV s else s

/-- The head found by an examination: UQ-E, UQ-V, UQ-D, the first that has one (R91). -/
def foundHead (s : State) : Option FrameRecord :=
  match s.hold.uqE with
  | r :: _ => some r
  | [] => match s.hold.uqV with
    | r :: _ => some r
    | [] => s.hold.uqD.head?

/-- One examination and, when its head may go, one placement (R91, R92). -/
def placeOnce (s : State) : State :=
  if mayPlace s then
    let s := examine s
    match foundHead s, freeSlot s with
    | some r, some slot => if creditAllows s r then place slot r s else s
    | _, _ => s
  else s

/-- A placement attempt places zero, one or two frames (R90). -/
def placementAttempt (s : State) : State :=
  let s' := placeOnce s
  if s'.radio.unsent.length = s.radio.unsent.length then s' else placeOnce s'

/-! ### Settling a slot -/

/-- The slot is settled as Accepted (R93). -/
def settleAccepted (slot : Slot) (b : BusySlot) (s : State) : State :=
  let s := s |> clearSlot slot |> clearCharge slot
  let s := if b.record.cls = .data then countUsage b.record.length s else s
  s |> freeRecord b.record |> placementAttempt

/-- The slot is settled as Refused or by its timeout (R94, R75). -/
def settleRefused (slot : Slot) (b : BusySlot) (s : State) : State :=
  s |> refund slot |> clearSlot slot |> returnRecord b.record |> placementAttempt

end Sys2Proof.Machine
end

