-- ==== Sys2Proof/Machine/RadioLink.lean ====
section
/-! DEFINITION. The Radio Link Manager: module power, attaching, the outgoing arbiter, ways of leaving ATTACHED (chapter 6).
What the Path Controller makes of a radio report is in PathController.lean. -/

namespace Sys2Proof.Machine

/-! ### Link and module power -/

/-- A Deliver Down payload abandoned: its record is freed and reported lost as incomplete (R70, R105); one that a soft reset
has marked is counted with no event (R82). -/
def abandonPayload (s : State) : State :=
  match s.radio.receiver with
  | .payload r =>
    let s := { s with radio.receiver := .idle }
    match r.record with
    | none => s
    | some rec =>
      match r.fate with
      | .ordinary => loseRecord .incomplete rec s
      | .atReturn => loseRecord .incomplete rec s
      | .atSoftReset => softDiscardRecord rec s
  | _ => s

/-- The link is cut: the message being sent is cut off, and the one being received abandoned, with no framing error (R105).
What it frees is reported last, so it is made once the radio's state has moved. DESIGN CHOICE (log 69): a receiver that discards
until LDI has idled forgets it here, and waits for a header when the link runs again; R105 gives it no other end than the idling.
DESIGN CHOICE (log 67): a Detach Request, Send Up or Low Power begun on LDO is cut off with the link and not sent again, where R106,
R118 and R119 send a message begun to its end. -/
def cutLink (s : State) : State :=
  let s := freeOnLdo { s with radio.ldo := none }
  { abandonPayload s with radio.receiver := .idle }

/-- MPWR deasserted and MRST asserted (R108, R110). -/
def dropPower (s : State) : State := { s with radio.mpwr := false, radio.mrst := true, radio.mrstTimer := none }

/-- OFF is entered (R108). -/
def enterOff (s : State) : State :=
  cutLink { dropPower s with
    radio.state := .off
    radio.ready := false
    radio.startTimer := none
    radio.cycleTimer := none
    radio.backoffTimer := none
    radio.items := ControlItems.none }

/-- The power rule (R108); in DISABLED nothing is asked of the radio (R3). -/
def powerRule (s : State) : State :=
  if !partWorks s then s
  else match s.radio.state with
    | .off => if moduleNeeded s then enterStarting (powerUp s) else s
    | .starting => if moduleNeeded s then s else enterOff s
    | .detached => if moduleNeeded s then s else enterOff s
    | .backoff => if moduleNeeded s then s else enterOff s
    | .attaching => s
    | .attached => s

/-! ### Attaching -/

/-- In DETACHED an Attach Request is made pending when radio wanted is yes or the emergency flag is set (R112); otherwise the
power rule decides (R108). -/
def detachedNext (s : State) : State := if attachWanted s then requestAttach s else powerRule s

/-- The backoff time after failure `n`, in ms: the lesser of 4 s × 2^(n-1) and 256 s (R114). -/
def backoffTime (n : Nat) : Nat := 1000 * min (4 * 2 ^ (n - 1)) 256

/-- BACKOFF is entered with its timer (R114). -/
def enterBackoff (s : State) : State :=
  { s with radio.state := .backoff, radio.backoffTimer := some (backoffTime s.radio.failures), radio.items.attach := false }

/-- A failure is counted: n rises, saturating; at 5 Radio Unavailable is raised (R114). -/
def countFailure (cause : Nat) (s : State) : State :=
  let n := min (s.radio.failures + 1) 255
  let s := { s with radio.attachTimer := none, radio.failures := n, radio.lastCause := some cause }
  if n = 5 then raiseEvent (.radioUnavailable cause n) s else s

/-- An attach fails in ATTACHING: immediate emergency retry after an attach sent with tag normal, else backoff (R114). -/
def attachFails (cause : Nat) (s : State) : State :=
  let s := countFailure cause s
  if s.radio.attachTag = some false && s.path.emergency then requestAttach s else enterBackoff s

/-- The power rule once ATTACHING has ended in BACKOFF: one of its inputs has changed (R108). -/
def afterFailure (s : State) : State := if s.radio.state = .backoff then powerRule s else s

/-- What the backoff's end does (R115); with the ready mark clear and the cycle timer still running, STARTING waits for the
end of the cycle (R116, R126). -/
def endBackoff (s : State) : State :=
  let s := { s with radio.backoffTimer := none }
  if s.radio.ready then detachedNext { s with radio.state := .detached } else startAfterCycle s

/-- The linger starts: ATTACHED, radio wanted no, emergency flag clear; a linger of 0 expires at once (R113, R121). -/
def startLinger (s : State) : State :=
  if s.radio.state = .attached && !attachWanted s then
    if s.loader.policy.linger = 0 then { s with radio.items.detach := true }
    else { s with radio.lingerTimer := some (s.loader.policy.linger * 1000) }
  else s

/-- Radio wanted becomes yes: the linger stops, a Detach Request not begun is withdrawn, a DETACHED module attaches, and the
power rule is evaluated (R108, R112, R121). DESIGN CHOICE (log 70): one that a soft reset made pending is withdrawn as well, and
the radio stays ATTACHED with the grant silence timer stopped until a Grant Report starts it; R121 says so of the linger's, and
R126 does not speak of a takeover. -/
def wantRadio (s : State) : State :=
  let s := { s with path.radioWanted := true, radio.lingerTimer := none, radio.items.detach := false }
  if s.radio.state = .detached then requestAttach s else powerRule s

/-- Radio wanted becomes no (R19, R24): the linger starts in ATTACHED, and the power rule is evaluated (R108, R121). -/
def unwantRadio (s : State) : State := powerRule (startLinger { s with path.radioWanted := false })

/-! ### Leaving ATTACHED -/

/-- The radio leaves ATTACHED: DETACHED, with silence and linger stopped and a Detach Request not begun withdrawn; one begun
changes nothing further (R118). -/
def leaveAttached (s : State) : State :=
  let s := { s with
    radio.state := .detached
    radio.silenceTimer := none
    radio.lingerTimer := none
    radio.items.detach := false }
  match s.radio.ldo with
  | some (.detach _) => { s with radio.ldo := some (.detach false) }
  | _ => s

/-- The cap and pause items a Module Ready makes pending (R109): the told values have been set to none. -/
def readyItems (s : State) : State :=
  { s with
    radio.items.downCap := s.pacer.downlinkCap != 0
    radio.items.pause := pauseTarget s }

/-- What Module Ready does in every state: the ready mark, pause told no, cap told 0 (R109, R110, R111). -/
def readyTold (s : State) : State := { s with radio.ready := true, radio.pauseTold := false, radio.capTold := 0 }

/-- A busy slot is settled as a timeout (R94, R118, R120). -/
def timeOutSlot (slot : Slot) (s : State) : State :=
  match slotOfRadio s slot with
  | none => s
  | some b => settleRefused slot b s

/-! ### The outgoing arbiter (R106) -/

/-- What the arbiter takes next. -/
inductive NextMessage
  | lowPower (on : Bool)
  | downCap
  | pauseDown
  | resumeDown
  | detach
  | attach
  | sendUp (slot : Slot)
  | nothing
  deriving DecidableEq, Repr

/-- The arbiter looks at the pending items in their order; a cap or pause item that would tell the module what it has been
told is dropped as it is reached (R106, R123). -/
def dropTold (s : State) : State :=
  if s.radio.items.lowPower.isSome then s
  else
    let s := if s.radio.items.downCap && s.pacer.downlinkCap == s.radio.capTold then { s with radio.items.downCap := false } else s
    if s.radio.items.downCap then s
    else if s.radio.items.pause && pauseTarget s == s.radio.pauseTold then { s with radio.items.pause := false } else s

/-- The next message: the first pending control item, else the oldest unsent Send Up (R106). -/
def nextMessage (s : State) : NextMessage :=
  match s.radio.items.lowPower with
  | some on => .lowPower on
  | none =>
    if s.radio.items.downCap then .downCap
    else if s.radio.items.pause then (if pauseTarget s then .pauseDown else .resumeDown)
    else if s.radio.items.detach then .detach
    else if s.radio.items.attach then .attach
    else match s.radio.unsent with
      | slot :: _ => .sendUp slot
      | [] => .nothing

/-- The arbiter may begin a message: MRDY is high as it looks, the module listens and LDO is free (R106). -/
def arbiterLooks (mrdy : Bool) (s : State) : Bool := mrdy && ldoFree s

/-- A message begun on LDO whose end is no step of its own: it is taken as sent whole (R106, log 16). -/
def sendWhole (m : CarrierMessage) (s : State) : State := { s with radio.ldoLast := some m }

/-- A message begun on LDO whose end is a step of its own. -/
def beginSending (k : Sending) (m : CarrierMessage) (s : State) : State :=
  { s with radio.ldo := some k, radio.ldoLast := some m }

end Sys2Proof.Machine
end

