-- ==== Sys2Proof/Machine/RingAgent.lean ====
section
/-! DEFINITION. The Ring Agent's own operations on the take window, the fence, the priority scan and the forced releases
(chapter 3, and the receive side of chapter 7). Beginning takes and deliveries is in Taking.lean. -/

namespace Sys2Proof.Machine

/-! ### Producer overrun -/

/-- The transmit overrun check on the shadows as they stand: on a change from clear to set Bus Anomaly is raised (R50). -/
def judgeTxOverrun (s : State) : State :=
  if txOverrunNow s then
    if s.ring.overrun then s
    else raiseEvent (.producerOverrun .transmit (shadowCount s .txp)) { s with ring.overrun := true }
  else { s with ring.overrun := false }

/-- A change calls for the transmit overrun check, while the path holds the rings or the priority scan runs (R50); in DOZE the
check is due at the restart (R66). -/
def checkTxOverrun (s : State) : State :=
  if holdsRings s || s.ring.scanRunning then
    if enginesRun s then judgeTxOverrun s else { s with ring.txCheckDue := true }
  else s

/-- The receive overrun check on the shadows as they stand (R129). -/
def judgeRxOverrun (s : State) : State :=
  if rxOverrunNow s then
    if s.ring.rxOverrun then s
    else raiseEvent (.producerOverrun .receive (shadowCount s .rxp)) { s with ring.rxOverrun := true }
  else { s with ring.rxOverrun := false }

/-- A change calls for the receive overrun check, while the path holds the rings (R129); in DOZE the check is due at the
restart (R66). -/
def checkRxOverrun (s : State) : State :=
  if holdsRings s then
    if enginesRun s then judgeRxOverrun s else { s with ring.rxCheckDue := true }
  else s

/-- The overrun checks that fell due in DOZE are made, once (R66). -/
def checksDue (s : State) : State :=
  let s := if s.ring.txCheckDue then judgeTxOverrun { s with ring.txCheckDue := false } else s
  if s.ring.rxCheckDue then judgeRxOverrun { s with ring.rxCheckDue := false } else s

/-! ### Reading ahead -/

/-- Reading ahead is allowed: the path holds the rings and has not begun CLOSING, no soft reset stands, the engines run, and
no descriptor read is in flight (R51, R60, R65, R66). -/
def mayReadAhead (s : State) : Bool :=
  holdsRings s && s.path.phase != some .closing && !softResetStands s && enginesRun s
    && s.ring.descriptorRead == none

/-- The next descriptor read is issued if any position may be read (R51). DESIGN CHOICE (log 47): from the moment it is asked for
it counts as in flight and keeps its positions, though it may still wait for room in the master queue. -/
def readAhead (s : State) : State :=
  let first := s.ring.readMark.getD 0
  let n := readLength s first
  if mayReadAhead s && n != 0 then
    request (.descriptorRead first n) { s with ring.descriptorRead := some ⟨first, n, false⟩ }
  else s

/-- The length of the DONE prefix: DONE entries from the window base with no other before them (R57). -/
def doneCount (s : State) : Nat := (s.ring.window.takeWhile fun e => e.st == .done).length

/-- A TXC advance is asked for when the window may hold a DONE prefix (R57); the value is formed when the write is issued. -/
def tryAdvance (s : State) : State :=
  if s.path.txReleased && enginesRun s && doneCount s != 0 && !s.bus.waiting.contains .txcAdvance then request .txcAdvance s
  else s

/-- The completion an entry gets when it is entered, if any: the checks of R52 in order. -/
def entryCheck (s : State) (e : Entry) : Option Completion :=
  if takeClass e.cls = none then some .notCarried
  else if e.length = 0 then some .empty
  else if s.loader.policy.frameLimit < e.length then some .tooLong
  else none

/-- An entry is appended to the window and decided: the checks of R52, and for one that passes them the judgement of R53. -/
def appendEntry (e : Entry) (s : State) : State :=
  match entryCheck s e with
  | none => judgePending { s with ring.window := s.ring.window ++ [e] }
  | some v => request (.completion e.pos v) { s with ring.window := s.ring.window ++ [{ e with completing := true }] }

/-- The entries of a descriptor read's words: one per position, in order (R51). -/
def readEntries (first : Count) (n : Nat) (ws : List Word) : List Entry :=
  (List.range n).map fun i => entryOf (advance first i) (slice (bytesOf ws) (16 * i) 16)

/-- A read-ahead descriptor read returns (R51): its entries are appended and decided, the mark moves past them and the next
read is issued; a discarded read enters nothing. -/
def descriptorsReturn (ws : List Word) (s : State) : State :=
  match s.ring.descriptorRead with
  | none => s
  | some d =>
    let s := { s with ring.descriptorRead := none }
    if d.discard then readAhead s
    else
      let s := (readEntries d.first d.n ws).foldl (fun s e => appendEntry e s) s
      readAhead { s with ring.readMark := some (advance d.first d.n) }

/-! ### The fence -/

/-- An entry the part has begun to carry or to complete: DONE or TAKING, or with its completion write waiting (R16, R60, log 38). -/
def entryBegun (e : Entry) : Bool := e.st != .pending || e.completing

/-- The fence: just past the highest entry begun, in window order; the window base when there is none (R16, R60). -/
def fenceAt (s : State) : Count :=
  match (s.ring.window.filter entryBegun).getLast? with
  | some e => advance e.pos 1
  | none => s.ring.base.getD 0

/-- A descriptor read in flight is to be discarded (R51, R60). -/
def discardRead (s : State) : State :=
  { s with ring.descriptorRead := s.ring.descriptorRead.map fun d => { d with discard := true } }

/-- The fence is fixed: entries at or past F leave the window, the read in flight is discarded, the mark is F (R60). -/
def fixFence (s : State) : State :=
  let f := fenceAt s
  let base := s.ring.base.getD 0
  discardRead { s with
    ring.fence := some f
    ring.readMark := some f
    ring.window := s.ring.window.filter fun e => dist base e.pos < dist base f }

/-- Every entry still PENDING below F is to be completed Dropped At Return, in window order (R61). -/
def dropPending (s : State) : State :=
  let drop := s.ring.window.filter fun e => e.st == .pending && !e.completing
  requestAll (drop.map fun e => .completion e.pos .droppedAtReturn)
    { s with ring.window := s.ring.window.map fun e => if e.st = .pending then { e with completing := true } else e }

/-- How many positions `dropPending` completes. -/
def pendingEntries (s : State) : Nat := (s.ring.window.filter fun e => e.st == .pending && !e.completing).length

/-! ### Forced release -/

/-- The transmit guard is raised and the forced release asked for: Abandoned into every descriptor from the TXC shadow up to H
when H is within a ring's size, then TXC = H (R10, R59). -/
def forceTransmit (s : State) : State :=
  let s := { s with bus.txGuard := true, ring.txForcing := true }
  let c := shadowCount s .txc
  let h := s.bus.fixedH.getD 0
  let n := if dist c h ≤ txSize s then dist c h else 0
  requestAll ((List.range n).map (fun i => .completion (advance c i) .abandoned) ++ [.txcForced]) s

/-- The receive guard is raised and the forced release asked for: Abandoned Empty from the RXF shadow up to G, then RXF = G
(R10, R133). -/
def forceReceive (s : State) : State :=
  let s := { s with bus.rxGuard := true, ring.rxForcing := true }
  let c := shadowCount s .rxf
  let g := s.bus.fixedG.getD 0
  let n := if dist c g ≤ rxSize s then dist c g else 0
  requestAll ((List.range n).map (fun i => .abandonedEmpty (advance c i)) ++ [.rxfForced]) s

/-! ### The priority scan -/

/-- The priority scan starts at the TXC shadow (R63). -/
def startScan (s : State) : State :=
  { s with ring.scanRunning := true, ring.scanMark := some (shadowCount s .txc) }

/-- The request is a class read of the priority scan. -/
def isScanRead (p : Purpose) : Bool :=
  match p with
  | .scanRead _ => true
  | _ => false

/-- A class read that still waits for room in the master queue is withdrawn: it is not in flight, and its position need not be
read any more (R63, log 47). -/
def withdrawScanRead (s : State) : State :=
  if s.bus.waiting.any isScanRead then
    { s with bus.waiting := s.bus.waiting.filter fun p => !isScanRead p, ring.scanRead := none }
  else s

/-- The scanned-up-to mark moves to the TXC shadow; positions passed are not read (R63). -/
def moveScanMark (s : State) : State := withdrawScanRead { s with ring.scanMark := some (shadowCount s .txc) }

/-- The priority scan stops; a read in flight is completed and its result discarded (R6, R63). DESIGN CHOICE (log 71): its
scanned-up-to mark is none until the scan starts again at the TXC shadow. -/
def stopScan (s : State) : State :=
  let s := withdrawScanRead s
  { s with
    ring.scanRunning := false
    ring.scanMark := none
    ring.scanRead := s.ring.scanRead.map fun r => { r with discard := true } }

/-- The scan's next class read, if one is due and none is in flight (R63). -/
def scanNext (s : State) : State :=
  let m := s.ring.scanMark.getD 0
  if s.ring.scanRunning && enginesRun s && s.ring.scanRead == none && dist (shadowCount s .txc) m < scanReach s then
    request (.scanRead m) { s with ring.scanRead := some ⟨m, false⟩ }
  else s

/-- The scan runs exactly while the three things of R6 hold together. -/
def evalScan (s : State) : State :=
  if scanWanted s then
    if s.ring.scanRunning then scanNext s else scanNext (startScan s)
  else if s.ring.scanRunning then stopScan s else s

/-- The scan follows the TXC shadow: a mark it has passed moves to it (R63). -/
def scanFollowsTxc (s : State) : State :=
  if s.ring.scanRunning && isBehind (shadowCount s .txc) (s.ring.scanMark.getD 0) then moveScanMark s else s

/-- A write that moves the TXP shadow back sends the mark back to the TXC shadow (R63). DESIGN CHOICE (log 48): R63 names a P
write; a U or O write, which R144 reports to the scan as well, does the same. -/
def scanFollowsTxp (old : Count) (s : State) : State :=
  if s.ring.scanRunning && isBehind old (shadowCount s .txp) then moveScanMark s else s

end Sys2Proof.Machine
end

