-- ==== Sys2Proof/Machine/PathController.lean ====
section
/-! DEFINITION. The Path Controller: takeover, release, the return decision, the fence, interruption, hand-back, emergency,
and what it makes of the radio's and the verdict's reports (chapter 1). -/

namespace Sys2Proof.Machine

/-- A change of the path state raises Path Change and asks for a status page write (R23). -/
def changePath (entered : PathState) (cause : PathCause) (s : State) : State :=
  askPage (raiseEvent (.pathChange s.path.path entered cause) { s with path.path := entered })

/-! ### Release (R9, R10) -/

/-- The release timer stops when both flags are set (R9). -/
def stopReleaseTimer (s : State) : State :=
  if s.path.txReleased && s.path.rxReleased then { s with path.releaseTimer := none } else s

/-- Transmit released is set and the uplink view follows the part's TXC, which is H (R9, R10). -/
def setTxReleased (s : State) : State :=
  stopReleaseTimer { s with
    path.txReleased := true
    bus.uplinkView := .following
    bus.uplinkViewValue := s.bus.fixedH
    ring.partTxc := s.bus.fixedH
    ring.base := s.bus.fixedH
    ring.txForcing := false }

/-- After transmit release: the overrun check, a TXC advance over the DONE prefix, reading on (R50, R51, R57). -/
def afterTxRelease (s : State) : State := s |> checkTxOverrun |> tryAdvance |> readAhead

/-- Transmit release by the MAC's own writes: the guard is raised at once (R9). -/
def completeTx (s : State) : State := afterTxRelease (setTxReleased { s with bus.txGuard := true })

/-- Receive released is set and the receive view follows the part's RXF, which is G (R9, R10, R133). -/
def setRxReleased (s : State) : State :=
  stopReleaseTimer { s with
    path.rxReleased := true
    bus.receiveView := .following
    bus.receiveViewValue := s.bus.fixedG
    ring.partRxf := s.bus.fixedG
    ring.rxForcing := false }

/-- RXF is to be written up to the fill cursor when buffers were filled before the release (R133); in DOZE it waits. -/
def catchUpRxf (s : State) : State :=
  if s.path.rxReleased && enginesRun s && s.ring.fillCursor != s.ring.partRxf && s.ring.delivery == none
      && !s.bus.waiting.contains .rxfCatchUp then
    request .rxfCatchUp s
  else s

/-- After receive release: the overrun check and the RXF write over buffers filled before it (R129, R133). -/
def afterRxRelease (s : State) : State :=
  let s := checkRxOverrun s
  if enginesRun s && s.ring.fillCursor != s.ring.partRxf then request .rxfCatchUp s else s

/-- After a forced receive release: the RXF write over buffers filled before it waits for a delivery that stands in STATUS, which
ends with its status write, and passes it (R133). -/
def afterForcedRx (s : State) : State :=
  match s.ring.delivery with
  | some d =>
    if d.stage = .status then checkRxOverrun { s with ring.delivery := some { d with passedByCatchUp := true } }
    else afterRxRelease s
  | none => afterRxRelease s

/-- Receive release by the MAC's own writes (R9, R133). -/
def completeRx (s : State) : State := afterRxRelease (setRxReleased { s with bus.rxGuard := true })

/-- Transmit release is complete when the TXC shadow equals H (R9). -/
def checkTxRelease (s : State) : State :=
  if holdsRings s && !s.path.txReleased && !s.ring.txForcing && some (shadowCount s .txc) == s.bus.fixedH then completeTx s
  else s

/-- Receive release is complete when the RXF shadow equals G (R9). DESIGN CHOICE (log 49): a forced release that has begun is not
overtaken by a P or O write that sets the RXF shadow to G (R10, R140); the transmit ring likewise. -/
def checkRxRelease (s : State) : State :=
  if holdsRings s && !s.path.rxReleased && !s.ring.rxForcing && some (shadowCount s .rxf) == s.bus.fixedG then completeRx s
  else s

/-- Forced release of the transmit ring, unless released or being released (R10); with the TXC shadow at H it writes nothing
and the ring is released as by R9 (log 26). -/
def forceTx (s : State) : State :=
  if s.path.txReleased || s.ring.txForcing then s
  else if some (shadowCount s .txc) = s.bus.fixedH then completeTx s
  else forceTransmit s

/-- Forced release of the receive ring (R10, R133). -/
def forceRx (s : State) : State :=
  if s.path.rxReleased || s.ring.rxForcing then s
  else if some (shadowCount s .rxf) = s.bus.fixedG then completeRx s
  else forceReceive s

/-- Each ring not yet released is released by force, while the path holds the rings (R10, R18, R24). -/
def forceRelease (s : State) : State := if holdsRings s then forceRx (forceTx s) else s

/-! ### The return (R14, R16, R20) -/

/-- Entry to RETURNING (R16); the PENDING entries below F are then judged on the RETURNING column (R53, R60). -/
def enterReturning (cause : PathCause) (s : State) : State :=
  let s := fixFence { s with path.phase := some .draining }
  let s := { s with path.drainTimer := some (s.loader.policy.drainLimit * 1000) }
  let s := withPauseTarget (fun s => { s with path.returnPause := true }) s
  judgePending (changePath .returning cause s)

/-- The return decision is evaluated (R14); not during a soft reset, whose return takes its place (R171), and in DOZE at the
restart (R26). -/
def evalReturn (s : State) : State :=
  if softResetStands s || !enginesRun s then s
  else match returnDecision s with
    | some cause => enterReturning cause s
    | none => s

/-- A move to RADIO or HELD, after which the return decision is evaluated (R11, R12, R14, R20). -/
def moveAndEval (entered : PathState) (cause : PathCause) (s : State) : State := evalReturn (changePath entered cause s)

/-- What the Path Controller makes of a report of the radio state (R11, R12). -/
def radioReport (s : State) : State :=
  match s.path.path with
  | .takeover =>
    match s.radio.state with
    | .attached => moveAndEval .radio .attached s
    | .backoff => moveAndEval .held .attachFailed s
    | .off => s
    | .starting => s
    | .detached => s
    | .attaching => s
  | .radio => if s.radio.state = .attached then s else moveAndEval .held .radioLost s
  | .held => if s.radio.state = .attached then moveAndEval .radio .attached s else s
  | .fibre => s
  | .returning => s
  | .disabled => s

/-- A return is interrupted in its DRAINING phase (R20); the PENDING entries are judged on the first column again (R62). -/
def interruptReturn (cause : PathCause) (s : State) : State :=
  if s.path.path = .returning && s.path.phase = some .draining && !softResetStands s then
    let s := { s with path.drainTimer := none, path.phase := none, ring.fence := none }
    let s := withPauseTarget (fun s => { s with path.returnPause := false }) s
    let s := readAhead s
    evalReturn (judgePending (changePath (if s.radio.state = .attached then .radio else .held) cause s))
  else s

/-! ### Takeover (R5, R7, R8) -/

/-- The restore dwell a takeover sets (R7). -/
def takeoverDwell (s : State) : Nat :=
  if s.path.refallOpen then min (2 * s.path.dwellD) 3600 else s.loader.policy.d0

/-- The views are fixed at the horizons (R8 step 1, R146). -/
def fixViews (s : State) : State :=
  { s with
    bus.fixedH := s.bus.txHorizon
    bus.fixedG := s.bus.rxHorizon
    bus.uplinkView := .fixed
    bus.receiveView := .fixed
    bus.uplinkViewValue := s.bus.txHorizon
    bus.receiveViewValue := s.bus.rxHorizon }

/-- The Ring Agent starts with the window based at H and the fill cursor at G (R8 step 4, R128). DESIGN CHOICE (log 57): the part's
TXC is none from the takeover to transmit release, for which R58 gives no value. DESIGN CHOICE (log 72): that the part's TXC and RXF
become none here calls for no overrun check (R50, R129). -/
def startTaking (s : State) : State :=
  { s with
    ring.window := []
    ring.base := s.bus.fixedH
    ring.readMark := s.bus.fixedH
    ring.partTxc := none
    ring.fence := none
    ring.txForcing := false
    ring.rxForcing := false
    ring.handBackAsked := false
    ring.fillCursor := s.bus.fixedG
    ring.partRxf := none }

/-- Both release flags are cleared and each ring checked at once; the timer starts unless both are released (R8 steps 2, 3). -/
def beginRelease (s : State) : State :=
  let s := { s with path.txReleased := false, path.rxReleased := false }
  let s := checkRxRelease (checkTxRelease s)
  if s.path.txReleased && s.path.rxReleased then s
  else { s with path.releaseTimer := some (s.loader.policy.releaseTimeout * 100) }

/-- Entry to TAKEOVER (R7, R8). The Ring Agent's start (step 4) is made before the release check (step 2) that reads it; each
touches what the other does not. TAKEOVER admits no entry to DOZE: one under way is abandoned, though the same event may bring the
path on to RADIO or HELD (R157). -/
def enterTakeover (cause : PathCause) (s : State) : State :=
  let s := { s with path.dwellD := takeoverDwell s, path.path := .takeover, path.phase := none, health.timer1s := none }
  let s := s |> ceaseEntry |> stopScan |> fixViews |> startTaking |> beginRelease |> readAhead |> wantRadio
  let s := { s with path.dwell := if s.health.verdict = .healthy then .running (s.path.dwellD * 1000) else .stopped }
  let s := askPage (raiseEvent (.pathChange .fibre .takeover cause) s)
  let s' := radioReport s
  if s'.path.path = .takeover then evalReturn s' else s'

/-- The takeover condition is evaluated (R5); not before the six start-up reads have been carried (R145). -/
def evalTakeover (s : State) : State :=
  if s.path.path = .fibre && s.loader.shadowsLoaded && !softResetStands s then
    match takeoverCause s with
    | some cause => enterTakeover cause s
    | none => s
  else s

/-- A change of the verdict reaches the Path Controller (R5, R13, R20). -/
def verdictReport (s : State) : State :=
  match s.path.path with
  | .fibre => evalTakeover s
  | .disabled => s
  | _ =>
    match s.health.verdict with
    | .healthy => { s with path.dwell := .running (s.path.dwellD * 1000) }
    | .unhealthy =>
      let s := { s with path.dwell := .stopped }
      if s.loader.policy.pathOverride = .automatic then interruptReturn .interruptedByVerdict s else s

/-- An applied policy has changed the override (R2, R15, R20). -/
def overrideChanged (s : State) : State :=
  match s.path.path with
  | .fibre => evalTakeover s
  | .disabled => s
  | .returning =>
    match s.loader.policy.pathOverride with
    | .radioNow => interruptReturn .interruptedByRadioNow s
    | .automatic => if s.health.verdict = .unhealthy then interruptReturn .interruptedByVerdict s else s
    | .fibreOnly => s
  | _ => evalReturn s

/-! ### Emergency (R22) -/

/-- The emergency flag clears; the power rule is evaluated (R22, R108). -/
def clearEmergency (s : State) : State := powerRule { s with path.emergency := false }

/-- The priority scan reports Voice Priority: the timer restarts, and TAKEOVER is entered with cause Priority (R5, R6). When
another condition holds at the evaluation, the first of R5's table is the cause. -/
def scanReports (s : State) : State :=
  if s.path.path = .fibre && s.health.verdict = .unhealthy then
    enterTakeover ((takeoverCause s).getD .priority) (restartPriority s)
  else s

/-! ### Hand-back (R18, R19) -/

/-- The hand-back write is asked for when CLOSING, or the completion step of a soft reset, has nothing left to wait for
(R18, R19, R24). -/
def tryHandBack (s : State) : State :=
  if ((s.path.path == .returning && s.path.phase == some .closing && s.loader.softReset != .waiting)
        || s.loader.softReset == .completing)
      && s.ring.fence.isSome && !s.ring.handBackAsked && closed s then
    request .txcHandBack { s with ring.handBackAsked := true }
  else s

/-- The Bus Path's part of the hand-back: guards down, views ended, horizons at F and the part's RXF (R19 step 2, R146, R147).
DESIGN CHOICE (log 65): a view that has ended holds no value. -/
def endViews (s : State) : State :=
  { s with
    bus.txGuard := false
    bus.rxGuard := false
    bus.uplinkView := .off
    bus.receiveView := .off
    bus.uplinkViewValue := none
    bus.receiveViewValue := none
    bus.txHorizon := s.ring.fence
    bus.rxHorizon := s.ring.partRxf }

/-- The Ring Agent's record on the entry to FIBRE (R19, R50, R61, R65, R128). DESIGN CHOICE (log 68): the window base is none after
every hand-back, as R65 says after a soft reset; R61 names only the window, the fence and the overrun indication. -/
def ringInFibre (s : State) : State :=
  { s with
    ring.window := []
    ring.base := none
    ring.fence := none
    ring.overrun := false
    ring.rxOverrun := false
    ring.descriptorHeld := none
    ring.handBackAsked := false }

/-- The Fibre Health Monitor on an entry to FIBRE from RETURNING (R38). -/
def healthInFibre (s : State) : State :=
  { s with
    health.txp := 253
    health.rxa := 253
    health.txe := 253
    health.txReference := some (shadowCount s .txc)
    health.activityMark := false
    health.timer1s := some 1000 }

/-- Steps 2 to 6 of the hand-back (R19), made when the write of TXC = F has been carried. -/
def handBackWith (cause : PathCause) (s : State) : State :=
  let s := ringInFibre (endViews s)
  let s := { s with path.phase := none, path.drainTimer := none, path.releaseTimer := none, path.dwell := .stopped }
  let s := healthInFibre (changePath .fibre cause s)
  let s := markReceiving .atReturn s
  let s := withPauseTarget (fun s => { s with path.returnPause := false }) s
  unwantRadio s

/-- The hand-back of a return (R19): steps 2 to 8. -/
def handBackReturn (s : State) : State :=
  let s := handBackWith .handedBack s
  evalTakeover { s with path.refallOpen := true, path.refallTimer := some 600000 }

end Sys2Proof.Machine
end

