-- ==== Sys2Proof/Machine/Health.lean ====
section
/-! DEFINITION. The Fibre Health Monitor: penalty and recovery, the four samples, the evaluation (chapter 2). -/

namespace Sys2Proof.Machine

/-- A penalty event: the greater of 1 and v − p (R27). -/
def penalty (a : AttributeParams) (v : Nat) : Nat := max 1 (v - a.p)

/-- A recovery event: the lesser of 253 and v + q (R27). -/
def recovery (a : AttributeParams) (v : Nat) : Nat := min 253 (v + a.q)

/-- An attribute takes a value. -/
def setAttribute (a : Attribute) (v : Nat) (s : State) : State :=
  match a with
  | .sig => { s with health.sig := v }
  | .txp => { s with health.txp := v }
  | .rxa => { s with health.rxa := v }
  | .txe => { s with health.txe := v }

/-- A sample of an attribute: a recovery when `good`, else a penalty, with the parameters in force (R27, R28). -/
def sample (a : Attribute) (good : Bool) (s : State) : State :=
  let p := attributeParams s.loader.policy a
  let v := attributeValue s.health a
  setAttribute a (if good then recovery p v else penalty p v) s

/-- The SIG sample: a recovery exactly when LOS is deasserted and LINK asserted (R30). -/
def sampleSig (s : State) : State := sample .sig (!s.pins.los && s.pins.link) s

/-- The TXP sample: a penalty exactly when the TXC shadow equals the reference and the TXP shadow differs from it; the
reference then takes the TXC shadow's value (R31). With no reference yet there is nothing to compare and no sample (log 31). -/
def sampleTxp (s : State) : State :=
  match s.health.txReference with
  | none => s
  | some ref =>
    let c := shadowCount s .txc
    let s := sample .txp (c != ref || shadowCount s .txp == c) s
    { s with health.txReference := some c }

/-- The RXA sample: a recovery when the mark is set, else a penalty; the mark is then cleared (R32). -/
def sampleRxa (s : State) : State :=
  { sample .rxa s.health.activityMark s with health.activityMark := false }

/-- An evaluation of the verdict; a change raises Fibre Verdict and is reported to the Path Controller (R34, R35). -/
def evaluate (s : State) : State :=
  let v := verdictNow s
  if v = s.health.verdict then s
  else
    let d : EventDetail := .fibreVerdict v (decidingAttribute s) s.health.sig s.health.txp s.health.rxa s.health.txe
    verdictReport (raiseEvent d { s with health.verdict := v })

/-- A TXE sample for one completion value written by the MAC, followed by its evaluation; taken in FIBRE only, and not in
DOZE (R33, R42). DESIGN CHOICE (log 50): R33's table stops at 15; a value of 16 to 255 gives no sample. -/
def sampleTxe (v : Byte) (s : State) : State :=
  if s.path.path = .fibre && enginesRun s then
    if v = 1 then evaluate (sample .txe true s)
    else if 2 ≤ v.toNat && v.toNat ≤ 7 then evaluate (sample .txe false s)
    else s
  else s

/-- The monitor's re-initialisation by a soft reset (R41). -/
def reinitHealth (s : State) : State :=
  { s with
    health.sig := 253
    health.txp := 253
    health.rxa := 253
    health.txe := 253
    health.verdict := .healthy
    health.txReference := some (shadowCount s .txc)
    health.activityMark := false
    health.timer100 := some 100
    health.timer1s := some 1000 }

/-- The monitor at the restart after DOZE (R42). -/
def restartHealth (s : State) : State :=
  { s with
    health.txReference := some (shadowCount s .txc)
    health.activityMark := false
    health.timer100 := some 100
    health.timer1s := if s.path.path = .fibre then some 1000 else none }

end Sys2Proof.Machine
end

