-- ==== Sys2Proof/Machine/Delivering.lean ====
section
/-! DEFINITION. Beginning a delivery: the Ring Agent's judgement of the downlink queues (R130). -/

namespace Sys2Proof.Machine

/-- The conditions of R130 for a delivery to begin. DESIGN CHOICE (log 64): a soft reset bars one from its first step to its
re-initialisation, not through the reread that follows. -/
def mayDeliver (s : State) : Bool :=
  (s.path.path == .takeover || s.path.path == .radio || s.path.path == .held
      || (s.path.path == .returning && s.path.phase == some .draining))
    && enginesRun s && s.ring.delivery == none && bufferAvailable s && !downlinkEmpty s && !softResetStands s

/-- A record leaves its queue for delivery; the receive descriptor is read (R130, R131). -/
def beginDelivery (r : FrameRecord) (s : State) : State :=
  request .receiveDescriptorRead { s with ring.delivery := some ⟨r, .reading, 0, false, false⟩ }

/-- The Ring Agent judges whether to begin a delivery: the head of DQ-V after its age check, else the head of DQ-D (R73, R130). -/
def judgeDelivery (s : State) : State :=
  if mayDeliver s then
    let s := dropOldDqV s
    match s.hold.dqV, s.hold.dqD with
    | r :: rest, _ => beginDelivery r { s with hold.dqV := rest }
    | [], r :: rest => beginDelivery r { s with hold.dqD := rest }
    | [], [] => s
  else s

end Sys2Proof.Machine
end

