-- ==== Sys2Proof/Machine/EventStatus.lean ====
section
/-! DEFINITION. The Event and Status Unit: the bytes of the status page, the record to be posted, the posting (R166 to R168, 11.4). -/

namespace Sys2Proof.Machine

/-- The saturated flags as a number: bit k−1 for counter k (11.4). -/
def saturatedFlags : List Counter → Nat
  | [] => 0
  | c :: cs => (if c.saturated then 1 else 0) + 2 * saturatedFlags cs

/-- The two bytes of counter `i`. -/
def counterBytes (s : State) (i : Nat) : List Byte := leBytes 2 (s.events.counters.getD i ⟨0, false⟩).value

/-- The low 32 bits of the credit, as a signed word (11.4). -/
def creditBytes (s : State) : List Byte := leBytes 4 (BitVec.ofInt 32 s.pacer.credit).toNat

/-- Bytes 0 to 63 of the status page; the page of a DOZE entry shows the power mode DOZE (R157, 11.4). -/
def pageFirst (entry : Bool) (s : State) : List Byte :=
  leBytes 4 s.events.refreshCount.toNat
    ++ [pathCode s.path.path, radioCode s.radio.state, powerCode (if entry then .doze else s.power.mode),
        allowanceCode s.pacer.allowance]
    ++ [verdictCode s.health.verdict, BitVec.ofNat 8 s.health.sig, BitVec.ofNat 8 s.health.txp, BitVec.ofNat 8 s.health.rxa]
    ++ [BitVec.ofNat 8 s.health.txe, BitVec.ofNat 8 s.radio.failures, BitVec.ofNat 8 (s.radio.lastCause.getD 0),
        BitVec.ofNat 8 s.radio.grantQuality]
    ++ creditBytes s ++ leBytes 4 s.events.evp.toNat
    ++ leBytes 2 (refillRate s) ++ leBytes 2 s.path.dwellD
    ++ leBytes 2 s.radio.grantUp ++ leBytes 2 s.radio.grantDown
    ++ leBytes 8 (usageCount s) ++ leBytes 4 (s.pacer.usageBase.getD 0)
    ++ leBytes 2 (saturatedFlags s.events.counters) ++ [0, 0]
    ++ (List.range 8).flatMap (counterBytes s)

/-- Bytes 64 to 127 of the status page. -/
def pageSecond (s : State) : List Byte :=
  counterBytes s 8 ++ counterBytes s 9 ++ List.replicate 56 0 ++ leBytes 4 s.events.refreshCount.toNat

/-- A status page write begins: the refresh count rises by one and the two halves are asked for (R166). DESIGN CHOICE (log 74): it
answers every request that stands, whichever of R166's occasions it begins for. -/
def beginPage (entry : Bool) (s : State) : State :=
  requestAll [.pageHalf false entry, .pageHalf true entry]
    { s with events.refreshCount := s.events.refreshCount + 1, events.pageWriting := true, events.pageWanted := false }

/-- The set entry of highest priority (R168). -/
def nextEntry (s : State) : Option EventEntry := (s.events.entries.filterMap id).head?

/-- The slot of the event ring the next record goes to. -/
def eventSlot (s : State) : Nat := slotOf (eventSize s) s.events.evp

/-- The record is issued: its entry is cleared, its kind recorded for the slot, EVP advanced, and the write of EVP asked for
(R168 steps 2 to 4). -/
def recordIssued (s : State) : State :=
  match nextEntry s with
  | none => s
  | some e =>
    let k := detailKind e.detail
    request .evpWrite
      { s with
        events.entries := s.events.entries.set (kindPriority k - 1) none
        events.slotKinds := s.events.slotKinds.set (eventSlot s) (some k)
        events.evp := s.events.evp + 1 }

/-- The unit may post (R168). -/
def mayPost (s : State) : Bool :=
  postable s && !s.events.pageWriting && enginesRun s && !softResetStands s && partWorks s && s.loader.shadowsLoaded

/-- The ten counters and their flags become 0 (R164, R165). -/
def clearCounters (s : State) : State := { s with events.counters := List.replicate 10 ⟨0, false⟩ }

/-- Every pending entry is cleared (R171). -/
def clearEntries (s : State) : State := { s with events.entries := List.replicate 11 none }

end Sys2Proof.Machine
end

