-- ==== Sys2Proof/Machine/PowerModes.lean ====
section
/-! DEFINITION. The Power Mode Unit's standing evaluation and the two ends of DOZE (chapter 9). -/

namespace Sys2Proof.Machine

/-- The unit evaluates the starting conditions: an entry begins when they hold, and is abandoned when one ceases to (R157). -/
def evalDoze (s : State) : State :=
  match s.power.step with
  | .awake => if dozeConditions s then { s with power.step := .entering .settling } else s
  | .entering _ => if dozeConditions s then s else abandonEntry s
  | .dozing => s
  | .restarting => s

/-- What an entry waits for before its status page (R157 items 1 to 5). -/
def entrySettled (s : State) : Bool :=
  s.ring.takes == [] && s.ring.delivery == none
    && (match s.radio.receiver with
        | .payload _ => false
        | _ => true)
    && s.loader.readState == .idle && !s.loader.dueAfterRestart && s.loader.softReset == .none
    && !mayPost s && !s.events.pageWriting
    && s.bus.queue == [] && s.bus.waiting == []

/-- The Radio Link Manager is told of the entry (R124, log 27): in a state in which the module listens a Low Power on becomes
pending, but for a Low Power off not yet begun, which is withdrawn with low power told still on (R160), and for a Low Power on
of an abandoned entry still being sent, which serves this entry. -/
def tellEntry (s : State) : State :=
  if !moduleListens s || s.radio.items.lowPower == some false then { s with radio.items.lowPower := none }
  else match s.radio.ldo with
    | some (.lowPower true _) => { s with radio.ldo := some (.lowPower true true), radio.items.lowPower := none }
    | _ => { s with radio.items.lowPower := some true }

/-- The status page of entry has been carried (R157). -/
def entryPageCarried (s : State) : State :=
  match s.power.step with
  | .entering .page => tellEntry { s with power.step := .entering .link }
  | _ => s

/-- What the last stage of an entry waits for: Low Power and every message already begun on LDO or LDI ended, and nothing of
the master's outstanding (R152, R157, log 28). -/
def entryDone (s : State) : Bool :=
  s.radio.items.lowPower == none && s.radio.ldo == none
    && (match s.radio.receiver with
        | .payload _ => false
        | _ => true)
    && s.bus.queue == [] && s.bus.waiting == []

/-- DOZE is reached: the mode, the empty latch, the doze timer, and the stops of R158. -/
def enterDoze (s : State) : State :=
  { s with
    power.mode := .doze
    power.step := .dozing
    power.latch := WakeLatch.empty
    power.dozeTimer := some (s.loader.policy.dozeWake * 1000)
    pacer.pacing := none
    pacer.refusalPause := none
    hold.sweep10 := none
    hold.sweep1s := none
    health.timer100 := none
    health.timer1s := none
    events.refreshTimer := none }

/-- A step whose cause falls in DOZE is recorded, once, for the restart; else it is made at once (R26, R124). -/
def nowOrRecorded (r : Recorded) (f : State → State) (s : State) : State :=
  if enginesRun s then f s
  else if s.path.recorded.contains r then s
  else { s with path.recorded := s.path.recorded ++ [r] }

end Sys2Proof.Machine
end

