-- ==== Sys2Proof/Machine/Master.lean ====
section
/-! DEFINITION. The memory master: what each of its transfers is, what its issue does to the block that issued it, and the
standing work every command ends with (R150; R52, R55, R57, R59, R61, R131 to R133, R168). -/

namespace Sys2Proof.Machine

/-! ### The transfer of each purpose -/

/-- The take of a position. -/
def takeAt (s : State) (pos : Count) : Option Take := s.ring.takes.find? fun t => t.pos == pos

/-- The words that hold the `n` bytes from address `a`. -/
def wordsSpanned (a : Addr) (n : Nat) : Nat := if n = 0 then 0 else (a.toNat % 4 + n + 3) / 4

/-- The address of word `k` of the words that hold byte `a`, wrapping at the top (R44, R127). -/
def wordAt (a : Addr) (k : Nat) : Addr := addrOf (wrapAddr (a.toNat / 4 * 4 + 4 * k))

/-- The burst of a take's next read: the longest that does not pass the words of the frame (R55, log 14). -/
def takeBurst (t : Take) : BurstLen := burstFor (wordsSpanned t.addr t.record.length - t.wordsRead)

/-- How many bytes a delivery writes: the lesser of the frame length and the buffer size (R131). -/
def deliveryBytes (d : Delivery) (size : Nat) : Nat := min d.record.length size

/-- Byte `i` of the words of a delivery is one of the first `n` bytes of the frame (R131). -/
def inDelivery (a : Addr) (n i : Nat) : Bool := a.toNat % 4 ≤ i && i < a.toNat % 4 + n

/-- Word `k` of a delivery: its lanes cover only the first `n` bytes of the frame (R131). -/
def bufferWord (s : State) (r : FrameRecord) (a : Addr) (n k : Nat) : LaneWord where
  data := wordOf ((List.range 4).map fun j =>
    if inDelivery a n (4 * k + j) then frameByte s r (4 * k + j - a.toNat % 4) else 0)
  lanes := BitVec.ofNat 4 (((List.range 4).map fun j => if inDelivery a n (4 * k + j) then 2 ^ j else 0).sum)

/-- The next write of a delivery: up to 16 words, in ascending address order (R131, log 15). -/
def bufferTransfer (s : State) (d : Delivery) (a : Addr) (size : Nat) : Transfer :=
  let n := deliveryBytes d size
  let k := burstWords (burstFor (wordsSpanned a n - d.wordsIssued))
  .write (wordAt a d.wordsIssued) ((List.range k).map fun i => bufferWord s d.record a n (d.wordsIssued + i))

/-- The transfer a purpose stands for, formed as it is issued; none when there is nothing left to do. -/
def formTransfer (s : State) (m : MemoryMap) (p : Purpose) : Option Transfer :=
  let txAt := fun (c : Count) => descriptorAddr m.txBase m.txSize c
  let rxAt := fun (c : Count) => descriptorAddr m.rxBase m.rxSize c
  let index := fun (w : Watched) (c : Count) => some (Transfer.write (addrOf (watchedAddr m w)) [indexWord c])
  match p with
  | .shadowRead w => some (.read (addrOf (watchedAddr m w)) .one)
  | .descriptorRead first n => some (.read (addrOf (txAt first)) (burstFor (4 * n)))
  | .scanRead pos => some (.read (addrOf (txAt pos + 4)) .one)
  | .frameRead pos => (takeAt s pos).map fun t => .read (wordAt t.addr t.wordsRead) (takeBurst t)
  | .completion pos v => some (.write (addrOf (txAt pos + 4)) [completionWord v])
  | .txcAdvance =>
    if s.path.txReleased && doneCount s != 0 then index .txc (advance (s.ring.base.getD 0) (doneCount s)) else none
  | .txcForced => index .txc (s.bus.fixedH.getD 0)
  | .txcHandBack => index .txc (s.ring.fence.getD 0)
  | .receiveDescriptorRead => some (.read (addrOf (rxAt (s.ring.fillCursor.getD 0))) .four)
  | .bufferWrite =>
    match s.ring.delivery, s.ring.descriptorHeld with
    | some d, some (a, size) => some (bufferTransfer s d a size)
    | _, _ => none
  | .receiveStatus =>
    match s.ring.delivery, s.ring.descriptorHeld with
    | some d, some (_, size) =>
      some (.write (addrOf (rxAt (s.ring.fillCursor.getD 0) + 8)) [deliveryStatusWord d.record.cls d.record.length size])
    | _, _ => none
  | .abandonedEmpty pos => some (.write (addrOf (rxAt pos + 8)) [abandonedEmptyWord])
  | .rxfDelivery => index .rxf (s.ring.fillCursor.getD 0)
  | .rxfCatchUp => if s.ring.fillCursor = s.ring.partRxf then none else index .rxf (s.ring.fillCursor.getD 0)
  | .rxfForced => index .rxf (s.bus.fixedG.getD 0)
  | .eventRecord =>
    (nextEntry s).map fun e => .write (addrOf (m.eventBase + 16 * eventSlot s)) (wordsOf (recordBytes e))
  | .evpWrite => some (.write (addrOf (m.pageBase + 20)) [indexWord s.events.evp])
  | .pageHalf false entry => some (.write (addrOf m.pageBase) (wordsOf (pageFirst entry s)))
  | .pageHalf true _ => some (.write (addrOf (m.pageBase + 64)) (wordsOf (pageSecond s)))
  | .policyRead false => some (.read (addrOf m.policyBase) .sixteen)
  | .policyRead true => some (.read (addrOf (m.policyBase + 64)) .sixteen)

/-! ### What an issue does -/

/-- A take ends as its completion write is issued: the entry is DONE and the record goes to Hold Memory, which queues it, or
discards it in CLOSING and after a soft reset's discard (R55, R61, R81, R82). -/
def takeEnds (pos : Count) (s : State) : State :=
  match takeAt s pos with
  | none => s
  | some t =>
    let s := updateEntry pos (fun e => { e with st := .done }) s
    let s := { s with ring.takes := s.ring.takes.eraseP fun u => u.pos == pos }
    if s.loader.softReset = .completing then softDiscardRecord t.record s
    else if s.path.phase = some .closing then loseRecord .discardedAtReturn t.record s
    else s |> joinQueue t.record |> recordJoins |> placementAttempt |> judgePending

/-- A completion write is issued (R52, R55, R59, R61). -/
def completionIssued (pos : Count) (v : Completion) (s : State) : State :=
  match v with
  | .abandoned => s
  | .takenRadio => tryAdvance (takeEnds pos s)
  | .notCarried => tryAdvance (updateEntry pos (fun e => { e with st := .done }) s)
  | .tooLong => tryAdvance (updateEntry pos (fun e => { e with st := .done }) s)
  | .empty => tryAdvance (updateEntry pos (fun e => { e with st := .done }) s)
  | .droppedAtReturn => tryAdvance (updateEntry pos (fun e => { e with st := .done }) s)

/-- A TXC advance is issued: the prefix leaves the window, whose base and the part's TXC move past it (R57). -/
def advanceIssued (s : State) : State :=
  let n := doneCount s
  let v := advance (s.ring.base.getD 0) n
  readAhead (checkTxOverrun
    { s with ring.window := s.ring.window.drop n, ring.base := some v, ring.partTxc := some v })

/-- A delivery ends: its record is freed, and a Truncated one counted (R74, R132). One that ends after a soft reset's discard step
is counted by the soft reset as it is freed, though its frame has been delivered (R82 steps 2 and 3, R137 step 1). DESIGN CHOICE
(log 51): the receive descriptor held is kept, with the fill cursor past it, until the next descriptor read or the entry to FIBRE
(R128). -/
def endDelivery (s : State) : State :=
  match s.ring.delivery with
  | none => s
  | some d =>
    let short := match s.ring.descriptorHeld with
      | some (_, size) => decide (size < d.record.length)
      | none => false
    let s := { s with ring.delivery := none }
    let s := if short then raiseCounter .downlinkTruncated s else s
    if s.loader.softReset = .completing then softDiscardRecord d.record s else freeRecord d.record s

/-- One of a delivery's buffer writes is issued; after the last, the delivery enters STATUS (R131). -/
def bufferIssued (s : State) : State :=
  match s.ring.delivery, s.ring.descriptorHeld with
  | some d, some (a, size) =>
    let left := wordsSpanned a (deliveryBytes d size) - d.wordsIssued
    let done := d.wordsIssued + burstWords (burstFor left)
    if done < wordsSpanned a (deliveryBytes d size) then
      request .bufferWrite { s with ring.delivery := some { d with wordsIssued := done } }
    else { s with ring.delivery := some { d with wordsIssued := done, stage := .status } }
  | _, _ => s

/-- The RXF write of a forced release's step 4 is to pass the delivery in progress (R133). -/
def catchUpPasses (s : State) : Bool :=
  match s.ring.delivery with
  | some d => d.passedByCatchUp
  | none => false

/-- The status write is issued: the fill cursor advances; RXF follows after receive release, else the delivery ends (R132). One
that stood in STATUS at a forced release ends here, and step 4's RXF write follows it (R133). -/
def statusIssued (s : State) : State :=
  let s := { s with ring.fillCursor := some (advance (s.ring.fillCursor.getD 0) 1) }
  if catchUpPasses s then request .rxfCatchUp (endDelivery s)
  else if s.path.rxReleased then request .rxfDelivery s
  else endDelivery s

/-- An RXF write up to the fill cursor is issued: the part's RXF takes its value (R128, R132, R133). -/
def rxfIssued (s : State) : State := checkRxOverrun { s with ring.partRxf := s.ring.fillCursor }

/-- What the issue of a transfer does to the block that issued it. -/
def onIssue (p : Purpose) (s : State) : State :=
  match p with
  | .completion pos v => completionIssued pos v s
  | .txcAdvance => advanceIssued s
  | .txcForced => if holdsRings s then afterTxRelease (setTxReleased s) else s
  | .txcHandBack => { s with ring.window := [], ring.overrun := false }
  | .bufferWrite => bufferIssued s
  | .receiveStatus => statusIssued s
  | .rxfDelivery => endDelivery (rxfIssued s)
  | .rxfCatchUp => rxfIssued s
  | .rxfForced => if holdsRings s then afterForcedRx (setRxReleased s) else s
  | .eventRecord => recordIssued s
  | .policyRead false => { s with loader.pgenAtIssue := shadowWord s .pgen }
  | .policyRead true => s
  | .shadowRead _ => s
  | .descriptorRead _ _ => s
  | .scanRead _ => s
  | .frameRead _ => s
  | .receiveDescriptorRead => s
  | .abandonedEmpty _ => s
  | .evpWrite => s
  | .pageHalf _ _ => s

/-! ### Issuing -/

/-- One waiting request is issued: its transfer joins the queue, and the issuing block acts (R150). -/
def issueOne (p : Purpose) (rest : List Purpose) (s : State) : State :=
  let s := { s with bus.waiting := rest }
  match s.loader.map with
  | none => s
  | some m =>
    match formTransfer s m p with
    | none => s
    | some x => onIssue p { s with bus.queue := s.bus.queue ++ [⟨p, x⟩] }

/-- Waiting requests are issued, first in first out, while the queue has room; nothing is issued in DOZE (R150, R152, log 12). -/
def pump : Nat → State → State
  | 0, s => s
  | fuel + 1, s =>
    match s.bus.waiting with
    | [] => s
    | p :: rest =>
      if s.bus.queue.length < Config.queuePlaces && enginesRun s then pump fuel (issueOne p rest s) else s

/-- Issue all that can be issued. -/
def issueAll (s : State) : State := pump 64 s

/-- The standing work a command ends with: requests issued, a delivery begun, the scan kept, the hand-back asked for when due, and
the doze conditions evaluated (R6, R18, R130, R150, R157). -/
def settle (s : State) : State :=
  s |> issueAll |> judgeDelivery |> evalScan |> issueAll |> tryHandBack |> issueAll |> evalDoze

end Sys2Proof.Machine
end

