-- ==== Sys2Proof/Machine/PolicyBlock.lean ====
section
/-! DEFINITION. The Configuration Loader's policy read and application, the start-up steps and the soft reset sequence
(chapter 10, R171, R175). -/

namespace Sys2Proof.Machine

/-! ### The policy read (R162) -/

/-- The two reads of the policy block are asked for (R162). -/
def beginRead (kind : ReadKind) (s : State) : State :=
  requestAll [.policyRead false, .policyRead true]
    { s with loader.readState := .reading, loader.readKind := kind, loader.dueAfterRestart := false }

/-- A read is wanted (R162): none during the first two steps of a soft reset (R171), held as due in DOZE. DESIGN CHOICE (log 60): a
read counts as begun from its request, so a PGEN change while a soft reset's reread still waits for room brings one further read. -/
def wantRead (s : State) : State :=
  if softResetStands s then s
  else if !enginesRun s then { s with loader.dueAfterRestart := true }
  else match s.loader.readState with
    | .idle => beginRead .ordinary s
    | .reading => { s with loader.readState := .readingDue }
    | .readingDue => s

/-! ### The soft reset sequence (R24, R171) -/

/-- A payload still arriving at the re-initialisation: its record ends counted, and what is left of it is read and discarded
(R82, log 21). -/
def endReceiving (s : State) : State :=
  match s.radio.receiver with
  | .payload r =>
    match r.record with
    | some rec => { countSoftDiscard rec s with radio.receiver := .payload { r with record := none } }
    | none => s
  | _ => s

/-- A Send Up still being sent at the re-initialisation goes on to its end, but its record has ended and its cells are in the
rebuilt free list (R82, log 21). -/
def endSending (s : State) : State :=
  match s.radio.ldo with
  | some (.sendUp slot live _) => { s with radio.ldo := some (.sendUp slot live none) }
  | _ => s

/-- Hold Memory's re-initialisation: every record ends; free list 0 to 255, not paused, sweeps restarted (R82). -/
def reinitHold (s : State) : State :=
  let s := emptyQueues (emptySlots (endSending (endReceiving s)))
  withPauseTarget (fun s => { s with hold.paused := false })
    { s with
      hold.freeList := List.range Config.cellCount
      hold.onLdo := []
      hold.sweep10 := some 10
      hold.sweep1s := some 1000
      ring.takes := []
      ring.delivery := none }

/-- The Pacer's re-initialisation (R102). -/
def reinitPacer (s : State) : State :=
  { s with
    pacer.credit := 0
    pacer.refusalPause := none
    pacer.chargeA := none
    pacer.chargeB := none
    pacer.grantSeen := false
    pacer.pacing := some 1 }

/-- The Ring Agent's re-initialisation: all but the part's TXC, the fill cursor and the part's RXF (R65, R137); a read in flight
is discarded as it returns. DESIGN CHOICE (log 52): the read-ahead mark takes its reset value none, as R65 says of all but the
part's TXC, where R51 leaves it as it stands. -/
def reinitRing (s : State) : State :=
  discardRead (stopScan { ringInFibre s with ring.readMark := none })

/-- The Radio Link Manager's re-initialisation, the power rule apart (R126). -/
def reinitRadio (s : State) : State :=
  let s := match s.radio.state with
    | .attached => { s with radio.items.detach := true }
    | .attaching => { s with radio.items.attach := false, radio.state := .detached }
    | .backoff =>
      let s := { s with radio.backoffTimer := none }
      if s.radio.ready then { s with radio.state := .detached } else startAfterCycle s
    | .off => s
    | .starting => s
    | .detached => s
  { s with
    radio.failures := 0
    radio.lastCause := none
    radio.silenceTimer := none
    radio.lingerTimer := none
    radio.attachTimer := none
    radio.attachTag := none
    radio.grantUp := 0
    radio.grantDown := 0
    radio.grantQuality := 0 }

/-- The Power Mode Unit's re-initialisation (R161). -/
def reinitPower (s : State) : State := restartQuiet { s with power.latch := WakeLatch.empty }

/-- The re-initialisation step: every block by its own rule, the entries cleared, Soft Reset Done raised, and the policy block
read again (R171 steps 2 and 3). -/
def reinitialise (s : State) : State :=
  let s := s |> reinitHealth |> reinitHold |> reinitPacer |> reinitRing |> reinitRadio |> reinitPower
  let s := powerRule s
  let s := raiseEvent (.softResetDone s.loader.softUp s.loader.softDown s.loader.softPositions) (clearEntries s)
  beginRead .softReset { s with loader.softReset := .rereading, loader.softWait := none }

/-- The soft reset sequence begins (R24, R65, R171). -/
def beginSoftReset (s : State) : State :=
  let s := { s with loader.softUp := 0, loader.softDown := 0, loader.softPositions := 0, path.priorityTimer := none }
  let s := clearEmergency s
  if s.path.path = .fibre then reinitialise (stopScan s)
  else
    let s := if s.path.path = .returning then discardRead s else fixFence s
    { s with loader.softReset := .waiting, loader.softWait := some 500 }

/-- The discard step: forced releases, Dropped At Return below F, every record discarded and counted (R24, R61, R82, R95). -/
def softDiscard (s : State) : State :=
  let s := forceRelease s
  let s := { s with loader.softPositions := s.loader.softPositions + pendingEntries s }
  let s := discardAtSoftReset (dropPending s)
  { s with loader.softReset := .completing, loader.softWait := none }

/-- The hand-back of a soft reset, then the re-initialisation (R24, R171). DESIGN CHOICE (log 55): when the soft reset began in
CLOSING after the return's own write of TXC = F had been asked for, the carriage of that write is the soft reset's discard and
hand-back, with cause Soft Reset and no second write. -/
def handBackSoft (s : State) : State :=
  let s := if s.loader.softReset = .waiting then softDiscard s else s
  reinitialise (handBackWith .softReset s)

/-- Hand-back when its write has been carried: a return's, or a soft reset's (R19, R24). -/
def handBack (s : State) : State := if softResetStands s then handBackSoft s else handBackReturn s

/-! ### Applying a block (R163, R164) -/

/-- The Meter takes a policy: the trickle in EXHAUSTED, a usage base that differs (not at start-up), an allowance that differs
(R99, R100, R101). -/
def meterTakes (old : Policy) (startUp : Bool) (s : State) : State :=
  let p := s.loader.policy
  let s := if p.trickle != old.trickle && s.pacer.allowance == .exhausted then setDownlinkCap p.trickle s else s
  let rebase := !startUp && s.pacer.usageBase != some p.usageBase
  let s := if rebase then applyUsageBase p.usageBase s else s
  if rebase || p.allowanceMiB != old.allowanceMiB then evalAllowance .policy s else s

/-- Every owner takes its fields at once; those whose rule acts on a change act on it, in the order of R163's table
(R2, R53, R79, R86, R97, R101, R107, R164, log 1). -/
def ownersTake (p : Policy) (startUp : Bool) (s : State) : State :=
  let old := s.loader.policy
  let s := clampCredit { s with loader.policy := p }
  let s := if p.pathOverride != old.pathOverride then overrideChanged s else s
  let s := judgePending (evalPause s)
  let s := if p.burst != old.burst || p.overhead != old.overhead then placementAttempt s else s
  powerRule (meterTakes old startUp s)

/-- Both control requests are taken into force; a counter clear that changes from clear to set clears the counters (R164). -/
def takeRequests (bs : List Byte) (startUp : Bool) (s : State) : State :=
  let s := if asksCounterClear bs && !s.loader.counterClearInForce && !startUp then clearCounters s else s
  { s with loader.counterClearInForce := asksCounterClear bs, loader.softResetInForce := asksSoftReset bs }

/-- The read has ended: a further read due is issued at once, unless a soft reset begins (R162). -/
def readEnds (s : State) : State :=
  if s.loader.readState = .readingDue then beginRead .ordinary s
  else { s with loader.readState := .idle, loader.readKind := .ordinary }

/-- What follows the application of a block, by what its read was for (R164, R171 step 4, R175 step 4). DESIGN CHOICE (log 61): at
start-up step 4 follows the first application, and a further read due is applied as an ordinary one, its requests acted on. -/
def afterApplication (kind : ReadKind) (soft : Bool) (s : State) : State :=
  match kind with
  | .ordinary =>
    if soft then beginSoftReset { s with loader.readState := .idle, loader.readKind := .ordinary } else readEnds s
  | .startUp =>
    let s := startUpAllowance s
    readEnds (if s.path.path = .fibre then { s with path.dwellD := s.loader.policy.d0 } else s)
  | .softReset => readEnds (askPage (evalTakeover { s with loader.softReset := .none }))

/-- A block is applied as one event (R163, R164). DESIGN CHOICE (log 59): a counter clear is taken before the raises that the same
application brings, which R165 leaves open. -/
def applyBlock (bs : List Byte) (s : State) : State :=
  let kind := s.loader.readKind
  let soft := asksSoftReset bs && !s.loader.softResetInForce
  let s := takeRequests bs (kind == .startUp) s
  let s := ownersTake (policyOf bs) (kind == .startUp) s
  let s := raiseEvent (.policyApplied (clampedCount bs) s.loader.pgenAtIssue) s
  afterApplication kind soft s

/-! ### Start-up (R173 to R175) -/

/-- The load ends with a valid image: map, link clock and default policy in force, path FIBRE, and the start-up actions (R175). -/
def startUp (bs : List Byte) (s : State) : State :=
  let p := policyOf (imagePolicy bs)
  let s := { s with
    loader.map := some (mapOf bs)
    loader.linkClock := field bs 2 1
    loader.defaultPolicy := p
    loader.policy := p
    path.path := .fibre
    path.dwellD := p.d0
    health.timer100 := some 100
    health.timer1s := some 1000
    health.activityMark := false
    hold.sweep10 := some 10
    hold.sweep1s := some 1000
    pacer.pacing := some 1 }
  let s := restartQuiet (powerRule (clampCredit s))
  let s := if s.power.mode = .reserve then raiseEvent (.powerMode Config.startUpModeLeft .reserve .startUp) s else s
  settle (requestAll [.shadowRead .txp, .shadowRead .txc, .shadowRead .rxp, .shadowRead .rxf, .shadowRead .evc, .shadowRead .pgen] s)

/-- The load ends: BYPASS is sampled and the image judged (R173, R174). A valid image records no check; the flash code is then 0,
which stands for none (log 7). -/
def loadEnds (acknowledged bypass : Bool) (bs : List Byte) (s : State) : State :=
  let code := judgeImage acknowledged bypass bs
  let s := { s with loader.phase := .ended, loader.flashCode := code, pins.bypass := bypass }
  if code = 0 then startUp bs s else s

/-- All six shadows are set. -/
def allShadows (s : State) : Bool :=
  s.bus.shadows.txp.isSome && s.bus.shadows.txc.isSome && s.bus.shadows.rxp.isSome && s.bus.shadows.rxf.isSome
    && s.bus.shadows.evc.isSome && s.bus.shadows.pgen.isSome

/-- All six start-up reads have been carried: EVP, the transmit reference, the takeover condition, the first page write and the
start-up policy read or, with PGEN zero, the start-up application of the usage base (R31, R101, R145, R175). -/
def shadowsCarried (s : State) : State :=
  let s := { s with
    loader.shadowsLoaded := true
    events.evp := shadowCount s .evc
    events.slotKinds := List.replicate 64 none
    health.txReference := some (shadowCount s .txc)
    events.refreshTimer := some 100 }
  let s := beginPage false (evalTakeover s)
  if shadowWord s .pgen != 0 then beginRead .startUp s else startUpAllowance s

end Sys2Proof.Machine
end

