-- ==== Sys2Proof/Machine/PacketBus.lean ====
section
/-! DEFINITION. The Bus Path: carrying gateway transfers and the master's, shadows, horizons, views, guards and the reports of
R144 (chapter 8). -/

namespace Sys2Proof.Machine

/-! ### Shadows (R143) -/

/-- A shadow after carried words: each byte whose lane is enabled takes the written value; none stays none (R143, R145). -/
def followWords (a : Nat) (ws : List (Nat × LaneWord)) (old : Option Word) : Option Word :=
  old.map fun v => ws.foldl (fun v p => if p.1 = a then mergeLanes v p.2 else v) v

/-- The six shadows after carried words. -/
def followAll (m : MemoryMap) (ws : List (Nat × LaneWord)) (sh : Shadows) : Shadows where
  txp := followWords (watchedAddr m .txp) ws sh.txp
  txc := followWords (watchedAddr m .txc) ws sh.txc
  rxp := followWords (watchedAddr m .rxp) ws sh.rxp
  rxf := followWords (watchedAddr m .rxf) ws sh.rxf
  evc := followWords (watchedAddr m .evc) ws sh.evc
  pgen := followWords (watchedAddr m .pgen) ws sh.pgen

/-- Carried words land in the SRAM and in the shadows. -/
def landWords (ws : List (Nat × LaneWord)) (s : State) : State :=
  let s := { s with sram := memWriteWords s.sram ws }
  match s.loader.map with
  | none => s
  | some m => { s with bus.shadows := followAll m ws s.bus.shadows }

/-! ### Reports (R144) -/

/-- Carried words cover some byte of a watched word: a lane of a word on it is enabled (R144). DESIGN CHOICE (log 73): so for the RXF
word too, of which R144 and R32 do not say how much of it a write covers. -/
def covers (s : State) (ws : List (Nat × LaneWord)) (w : Watched) : Bool :=
  match s.loader.map with
  | none => false
  | some m => ws.any fun p => p.1 == watchedAddr m w && p.2.lanes != 0

/-- A read covers a watched word. -/
def readCovers (s : State) (addrs : List Nat) (w : Watched) : Bool :=
  match s.loader.map with
  | none => false
  | some m => addrs.contains (watchedAddr m w)

/-- The count of a watched word differs between two states. -/
def countChanged (before s : State) (w : Watched) : Bool := shadowCount before w != shadowCount s w

/-- The report of a TXP count that changed (R50, R51, R63). -/
def txpChanged (before : State) (s : State) : State :=
  s |> scanFollowsTxp (shadowCount before .txp) |> checkTxOverrun |> readAhead

/-- The report of a TXC count that changed (R9, R50, R63). -/
def txcChanged (s : State) : State := s |> scanFollowsTxc |> checkTxRelease |> checkTxOverrun

/-- The report of an RXF count that changed (R9, R129). -/
def rxfChanged (s : State) : State := checkRxOverrun (checkRxRelease s)

/-- The reports of changed counts, whoever wrote. -/
def reportChanges (before : State) (s : State) : State :=
  let s := if countChanged before s .txp then txpChanged before s else s
  let s := if countChanged before s .txc then txcChanged s else s
  let s := if countChanged before s .rxp then checkRxOverrun s else s
  if countChanged before s .rxf then rxfChanged s else s

/-- A P write covering any byte of the TXP word: the quiet timer, which in DOZE waits for the restart, and the wake source
(R144, R156, R159). -/
def txpTouched (s : State) : State := wakeSource .txpWrite (if enginesRun s then restartQuiet s else s)

/-- A P write covering any byte of the PGEN word: a changed word wants a policy read; a wake source either way (R144, R162). -/
def pgenTouched (before : State) (s : State) : State :=
  wakeSource .pgenWrite (if before.bus.shadows.pgen != s.bus.shadows.pgen then wantRead s else s)

/-- A U write covering the RXF word (log 73): the receive activity mark, in FIBRE and outside DOZE (R32, R42, R144). -/
def rxfTouched (s : State) : State :=
  if s.path.path = .fibre && enginesRun s then { s with health.activityMark := true } else s

/-- A word put in its place among words in ascending address order. -/
def insertWord (p : Nat × LaneWord) : List (Nat × LaneWord) → List (Nat × LaneWord)
  | [] => [p]
  | q :: qs => if p.1 ≤ q.1 then p :: q :: qs else q :: insertWord p qs

/-- The completion values a U write puts into whole completion fields of the transmit ring, in ascending address order (R33). -/
def completionsIn (s : State) (ws : List (Nat × LaneWord)) : List Byte :=
  match s.loader.map with
  | none => []
  | some m =>
    let fields := ws.filter fun p => inTxRing m p.1 && (p.1 - m.txBase) % 16 == 4 && laneOn p.2 3
    (fields.foldr insertWord []).map fun p => wordByte p.2.data 3

/-- The reports that depend on the requester (R144). -/
def reportRequester (req : Requester) (ws : List (Nat × LaneWord)) (before : State) (s : State) : State :=
  match req with
  | .p =>
    let s := if covers s ws .txp then txpTouched s else s
    if covers s ws .pgen then pgenTouched before s else s
  | .u =>
    let s := if covers s ws .rxf then rxfTouched s else s
    (completionsIn s ws).foldl (fun s v => sampleTxe v s) s
  | .o => s

/-! ### Guards (R148) -/

/-- The words of a gateway write that are dropped under a raised guard, and their ring (R148). -/
def droppedWords (s : State) (req : Requester) (ws : List (Nat × LaneWord)) : List (Nat × Ring) :=
  if req = .u then ws.filterMap fun p => (guardedBy s p.1).map fun r => (p.1, r) else []

/-- The words of a gateway write that are carried. -/
def carriedWords (s : State) (req : Requester) (ws : List (Nat × LaneWord)) : List (Nat × LaneWord) :=
  if req = .u then ws.filter fun p => (guardedBy s p.1).isNone else ws

/-- A write with dropped words counts once, with the ring and address of the first (R148). -/
def reportStale (dropped : List (Nat × Ring)) (s : State) : State :=
  match dropped with
  | [] => s
  | (a, r) :: _ => raiseEvent (.staleUplinkWrite r (addrOf a)) (raiseCounter .staleUplinkWrites s)

/-! ### Views and horizons (R146, R147) -/

/-- A word read, its low half replaced by a view value. -/
def withCount (w : Word) (c : Count) : Word := BitVec.ofNat 32 (w.toNat / 65536 * 65536 + c.toNat)

/-- A word of a U read as it is returned: the view in place of the count of the word it stands on (R147). -/
def viewedWord (s : State) (a : Nat) (w : Word) : Word :=
  match s.loader.map with
  | none => w
  | some m =>
    if a = watchedAddr m .txp && s.bus.uplinkView != .off then withCount w (s.bus.uplinkViewValue.getD 0)
    else if a = watchedAddr m .rxp && s.bus.receiveView != .off then withCount w (s.bus.receiveViewValue.getD 0)
    else w

/-- The words a gateway read returns (R141, R147). -/
def returnedWords (s : State) (req : Requester) (a : Addr) (n : Nat) : List Word :=
  if req = .u then List.zipWith (viewedWord s) (wordAddrs a n) (memReadWords s.sram a n) else memReadWords s.sram a n

/-- The count returned for the watched word at an address, if the read covers it. -/
def countReturned (addrs : List Nat) (ws : List Word) (a : Nat) : Option Count :=
  ((addrs.zip ws).find? fun p => p.1 == a).map fun p => countOf p.2

/-- A U read sets the horizons to the counts it returns (R146). -/
def setHorizons (addrs : List Nat) (ws : List Word) (s : State) : State :=
  match s.loader.map with
  | none => s
  | some m =>
    let s := match countReturned addrs ws (watchedAddr m .txp) with
      | some c => { s with bus.txHorizon := some c }
      | none => s
    match countReturned addrs ws (watchedAddr m .rxp) with
    | some c => { s with bus.rxHorizon := some c }
    | none => s

/-! ### Gateway transfers -/

/-- A gateway read is carried (R141, R146, R147). -/
def carryRead (req : Requester) (a : Addr) (len : BurstLen) (s : State) : State :=
  let n := burstWords len
  let ws := returnedWords s req a n
  let s := { s with bus.gatewayData := ws }
  if req = .u then setHorizons (wordAddrs a n) ws s else s

/-- A gateway write is carried, but for the words dropped under a guard (R141, R143, R144, R148). DESIGN CHOICE (log 53): R144
makes the reports of one write together; they are acted on in one fixed order, the stale report last. -/
def carryWrite (req : Requester) (a : Addr) (words : List LaneWord) (s : State) : State :=
  let ws := placeWords a words
  let kept := carriedWords s req ws
  let dropped := droppedWords s req ws
  let after := landWords kept s
  after |> reportChanges s |> reportRequester req kept s |> reportStale dropped

/-! ### Master transfers -/

/-- A view that follows takes the count of a TXC or RXF write of the master as it is carried (R147). -/
def followViews (p : Purpose) (ws : List LaneWord) (s : State) : State :=
  let c := (ws.head?).map fun l => countOf l.data
  match p with
  | .txcAdvance => if s.bus.uplinkView = .following then { s with bus.uplinkViewValue := c } else s
  | .txcForced => if s.bus.uplinkView = .following then { s with bus.uplinkViewValue := c } else s
  | .txcHandBack => if s.bus.uplinkView = .following then { s with bus.uplinkViewValue := c } else s
  | .rxfDelivery => if s.bus.receiveView = .following then { s with bus.receiveViewValue := c } else s
  | .rxfCatchUp => if s.bus.receiveView = .following then { s with bus.receiveViewValue := c } else s
  | .rxfForced => if s.bus.receiveView = .following then { s with bus.receiveViewValue := c } else s
  | _ => s

/-- A start-up shadow read is carried: the shadow, for TXP and RXP the horizon, and after the last the start-up steps (R145). -/
def shadowReturns (w : Watched) (v : Word) (s : State) : State :=
  let s := match w with
    | .txp => { s with bus.shadows.txp := some v, bus.txHorizon := some (countOf v) }
    | .txc => { s with bus.shadows.txc := some v }
    | .rxp => { s with bus.shadows.rxp := some v, bus.rxHorizon := some (countOf v) }
    | .rxf => { s with bus.shadows.rxf := some v }
    | .evc => { s with bus.shadows.evc := some v }
    | .pgen => { s with bus.shadows.pgen := some v }
  if allShadows s && !s.loader.shadowsLoaded then shadowsCarried s else s

/-- A class read of the priority scan returns: Voice Priority is reported; else the mark moves past it (R63). -/
def scanReturns (pos : Count) (v : Word) (s : State) : State :=
  match s.ring.scanRead with
  | none => s
  | some r =>
    let s := { s with ring.scanRead := none }
    if r.discard then s
    else if wordByte v 2 = 2 then scanReports s
    else if s.ring.scanMark = some pos then { s with ring.scanMark := some (advance pos 1) }
    else s

/-- The frame bytes that words `first` and on of a take bring: place in the frame and byte (R55). -/
def takeBytes (t : Take) (ws : List Word) : List Byte :=
  let skip := if t.wordsRead = 0 then t.addr.toNat % 4 else 0
  let start := 4 * t.wordsRead - t.addr.toNat % 4
  ((bytesOf ws).drop skip).take (t.record.length - start)

/-- A frame read returns: its bytes are stored; after the last, the completion write of Taken Radio is asked for, else the next
read (R55). -/
def frameReturns (pos : Count) (ws : List Word) (s : State) : State :=
  match takeAt s pos with
  | none => s
  | some t =>
    let s := storeFrame s t.record (4 * t.wordsRead - t.addr.toNat % 4) (takeBytes t ws)
    let done := t.wordsRead + ws.length
    let s := { s with ring.takes := s.ring.takes.map fun u => if u.pos = pos then { u with wordsRead := done } else u }
    if done < wordsSpanned t.addr t.record.length then request (.frameRead pos) s else request (.completion pos .takenRadio) s

/-- The receive descriptor read of a delivery returns: WRITING, or STATUS at once with nothing to write (R131). -/
def bufferFound (ws : List Word) (s : State) : State :=
  match s.ring.delivery with
  | none => s
  | some d =>
    let b := bufferOf (bytesOf ws)
    let s := { s with ring.descriptorHeld := some b }
    if deliveryBytes d b.2 = 0 then { s with ring.delivery := some { d with stage := .status } }
    else request .bufferWrite { s with ring.delivery := some { d with stage := .writing } }

/-- A master read is carried and its data returned to the block that issued it (R150). -/
def readReturns (p : Purpose) (ws : List Word) (s : State) : State :=
  match p with
  | .shadowRead w => shadowReturns w (ws.headD 0) s
  | .descriptorRead _ _ => descriptorsReturn ws s
  | .scanRead pos => scanReturns pos (ws.headD 0) s
  | .frameRead pos => frameReturns pos ws s
  | .receiveDescriptorRead => bufferFound ws s
  | .policyRead second => if second then applyBlock (s.loader.firstHalf ++ bytesOf ws) s else { s with loader.firstHalf := bytesOf ws }
  | .completion _ _ => s
  | .txcAdvance => s
  | .txcForced => s
  | .txcHandBack => s
  | .bufferWrite => s
  | .receiveStatus => s
  | .abandonedEmpty _ => s
  | .rxfDelivery => s
  | .rxfCatchUp => s
  | .rxfForced => s
  | .eventRecord => s
  | .evpWrite => s
  | .pageHalf _ _ => s

/-- What the carriage of a master write brings about beyond its landing (R19, R157, R166). -/
def writeCarried (p : Purpose) (s : State) : State :=
  match p with
  | .txcHandBack => handBack s
  | .pageHalf true entry =>
    let s := { s with events.pageWriting := false }
    if entry then entryPageCarried s else s
  | _ => s

/-- A master transfer is carried to the SRAM (R150). -/
def carryMaster (t : MasterTransfer) (s : State) : State :=
  match t.transfer with
  | .read a len => readReturns t.purpose (memReadWords s.sram a (burstWords len)) s
  | .write a words =>
    landWords (placeWords a words) s |> followViews t.purpose words |> reportChanges s |> writeCarried t.purpose

/-- The arbiter grants the SRAM to the head of the master queue (R150, R151). -/
def carryHead (s : State) : State :=
  match s.bus.queue with
  | [] => s
  | t :: rest => settle (carryMaster t { s with bus.queue := rest, bus.waitCount := 0 })

/-- The head of the master queue, if any. -/
def headPurpose (s : State) : Option Purpose := (s.bus.queue.head?).map (·.purpose)

/-! ### The arbiter (R151) -/

/-- The arbiter comes to a gateway transfer presented: the master's head first when the wait count has reached 4 (R151, log 11). -/
def masterFirst (s : State) : State := if masterTurn s then carryHead s else s

/-- The gateway transfer is granted: the wait count rises while the master waits, and is 0 with its queue empty (R151). -/
def grantGateway (s : State) : State :=
  { s with bus.waitCount := if s.bus.queue = [] then 0 else s.bus.waitCount + 1 }

/-- A gateway transfer, from its presentation to its carriage (R141, R151). -/
def gatewayTransfer (req : Requester) (x : Transfer) (s : State) : State :=
  let s := grantGateway (masterFirst s)
  settle (match x with
    | .read a len => carryRead req a len s
    | .write a words => carryWrite req a words s)

end Sys2Proof.Machine
end

