-- ==== Sys2Proof/Machine/ResetCommands.lean ====
section
/-! DEFINITION. Commands: the resets, the end of the configuration load and the last start-up shadow read. -/

namespace Sys2Proof.Machine

/-- The bytes of the write being carried when a reset falls: those of its enabled lanes that had reached the SRAM, each a free
value (R153, log 8). -/
def tornBytes (n : Nat) (ws : List (Nat × LaneWord)) : List (Nat × Byte) :=
  let bs := ws.flatMap fun p => laneBytes p.1 p.2
  ((List.range bs.length).zip bs).filterMap fun p => if Config.tornByte n p.1 then some p.2 else none

/-- A reset cuts off the transfer at the head of the master queue: a write may have landed in part (R153). -/
def cutMaster (s : State) : State :=
  match s.bus.queue with
  | ⟨_, .write a words⟩ :: _ =>
    { s with sram := memWriteAll s.sram (tornBytes s.draws (placeWords a words)), draws := s.draws + 1 }
  | _ => s

/-- Every block takes its reset values; the SRAM, the cells' contents, the lines and the queue of commands stand
(R25, R40, R48, R64, R67, R83, R85, R107, R125, R128, R138, R142, R153, R154). -/
def resetBlocks (phase : LoadPhase) (s : State) : State :=
  { s with
    clock := 0
    loader := { Loader.reset with phase := phase }
    bus := BusPath.reset
    ring := RingAgent.reset
    health := Health.reset
    path := PathController.reset
    hold := HoldMemory.resetWith s.hold.cells
    pacer := Pacer.reset
    radio := RadioLink.reset
    power := PowerUnit.resetWith s.pins.mainsLost
    events := EventUnit.reset }

/-- POWER_ON_RESET: power-on, or the release of RESET#: everything in flight is aborted, the INTPOL strap sampled, the load
begun with the clock at 0 (R172, R176). -/
def doPowerOnReset (intPolarity : Bool) (s : State) : State :=
  let s := resetBlocks .loading (cutMaster s)
  { s with pins.intPolarity := intPolarity }

/-- RESET_ASSERTED: everything in flight is aborted and a load in progress abandoned until the release (R172). -/
def doResetAsserted (s : State) : State := resetBlocks .heldInReset (cutMaster s)

/-- CONFIGURATION_LOAD_END, during a load (R173). -/
def doConfigurationLoadEnd (acknowledged bypass : Bool) (image : List Byte) (s : State) : State :=
  if s.loader.phase = .loading then loadEnds acknowledged bypass image s else s

/-- How many start-up reads have still to be carried. -/
def shadowsMissing (s : State) : Nat :=
  ([s.bus.shadows.txp, s.bus.shadows.txc, s.bus.shadows.rxp, s.bus.shadows.rxf, s.bus.shadows.evc, s.bus.shadows.pgen].filter
    Option.isNone).length

/-- The head of the master queue is the last start-up shadow read to be carried (R145). -/
def lastShadowRead (s : State) : Bool :=
  match headPurpose s with
  | some (.shadowRead _) => shadowsMissing s == 1
  | _ => false

/-- SHADOW_READS_CARRIED: the last of the six reads is carried, and the events of the start-up run (R145, R175). -/
def doShadowReadsCarried (s : State) : State := if lastShadowRead s then carryHead s else s

end Sys2Proof.Machine
end

