-- ==== Sys2Proof/Machine/BusCommands.lean ====
section
/-! DEFINITION. Commands: the gateway bus and the memory master. Every gateway row carries its transfer by all the rules of
chapter 8; the row names the effect it was chosen for (log 10). -/

namespace Sys2Proof.Machine

/-- GATEWAY_TRANSFER (R141, R151). -/
def doGatewayTransfer (req : Requester) (x : Transfer) (s : State) : State := gatewayTransfer req x s

/-- U_READ_TXP_WORD: a U read (R146, R147). -/
def doUReadTxpWord (a : Addr) (len : BurstLen) (s : State) : State := gatewayTransfer .u (.read a len) s

/-- U_READ_RXP_WORD: a U read (R146, R147). -/
def doUReadRxpWord (a : Addr) (len : BurstLen) (s : State) : State := gatewayTransfer .u (.read a len) s

/-- TXP_WORD_WRITE (R143, R144). -/
def doTxpWordWrite (req : Requester) (a : Addr) (ws : List LaneWord) (s : State) : State := gatewayTransfer req (.write a ws) s

/-- TXC_WORD_WRITE (R9, R143, R144). -/
def doTxcWordWrite (req : Requester) (a : Addr) (ws : List LaneWord) (s : State) : State := gatewayTransfer req (.write a ws) s

/-- RXP_WORD_WRITE (R143, R144). -/
def doRxpWordWrite (req : Requester) (a : Addr) (ws : List LaneWord) (s : State) : State := gatewayTransfer req (.write a ws) s

/-- RXF_WORD_WRITE (R9, R143, R144). -/
def doRxfWordWrite (req : Requester) (a : Addr) (ws : List LaneWord) (s : State) : State := gatewayTransfer req (.write a ws) s

/-- EVC_WORD_WRITE (R143, R168, R169). -/
def doEvcWordWrite (req : Requester) (a : Addr) (ws : List LaneWord) (s : State) : State := gatewayTransfer req (.write a ws) s

/-- PGEN_WORD_WRITE (R143, R162). -/
def doPgenWordWrite (req : Requester) (a : Addr) (ws : List LaneWord) (s : State) : State := gatewayTransfer req (.write a ws) s

/-- TX_RING_COMPLETION_WRITE: a U write (R33). -/
def doTxRingCompletionWrite (a : Addr) (ws : List LaneWord) (s : State) : State := gatewayTransfer .u (.write a ws) s

/-- STALE_UPLINK_WRITE: a U write (R148). -/
def doStaleUplinkWrite (a : Addr) (ws : List LaneWord) (s : State) : State := gatewayTransfer .u (.write a ws) s

/-- MASTER_TRANSFER_CARRIED: the head of the master queue is carried (R150). -/
def doMasterTransferCarried (s : State) : State := carryHead s

/-- The head of the master queue is carried when it is of the kind a command names; else the command's event cannot fall (log 4, log 13). -/
def carryWhen (p : Purpose → Bool) (s : State) : State :=
  match headPurpose s with
  | some q => if p q then carryHead s else s
  | none => s

/-- DESCRIPTOR_READ_RETURN (R51, R52). -/
def doDescriptorReadReturn (s : State) : State :=
  carryWhen (fun p => match p with
    | .descriptorRead _ _ => true
    | _ => false) s

/-- PRIORITY_SCAN_READ_RETURN (R63). -/
def doPriorityScanReadReturn (s : State) : State :=
  carryWhen (fun p => match p with
    | .scanRead _ => true
    | _ => false) s

/-- The frame read at a position is the last of its take (R55). -/
def lastFrameRead (s : State) (pos : Count) : Bool :=
  match takeAt s pos with
  | none => false
  | some t => wordsSpanned t.addr t.record.length ≤ t.wordsRead + burstWords (takeBurst t)

/-- TAKE_END: the last frame read of a take returns (R55). -/
def doTakeEnd (s : State) : State :=
  carryWhen (fun p => match p with
    | .frameRead pos => lastFrameRead s pos
    | _ => false) s

/-- DELIVERY_DESCRIPTOR_READ (R131). -/
def doDeliveryDescriptorRead (s : State) : State :=
  carryWhen (fun p => match p with
    | .receiveDescriptorRead => true
    | _ => false) s

/-- HAND_BACK: the write of TXC = F is carried (R19). -/
def doHandBack (s : State) : State :=
  carryWhen (fun p => match p with
    | .txcHandBack => true
    | _ => false) s

/-- POLICY_APPLIED: the second policy read is carried (R162, R164). -/
def doPolicyApplied (s : State) : State :=
  carryWhen (fun p => match p with
    | .policyRead true => true
    | _ => false) s

/-- DELIVERY_END: the status write of the delivery is issued, and what follows it (R132). -/
def doDeliveryEnd (s : State) : State :=
  match s.ring.delivery with
  | some d =>
    if d.stage = .status && !d.statusAsked then
      settle (request .receiveStatus { s with ring.delivery := some { d with statusAsked := true } })
    else s
  | none => s

end Sys2Proof.Machine
end

