-- ==== Sys2Proof/Machine/LineCommands.lean ====
section
/-! DEFINITION. Commands: the lines LOS, LINK, OFFHOOK, MAINS_LOST and RI. -/

namespace Sys2Proof.Machine

/-- LOS_LINK_CHANGE: the levels later SIG samples read; a change is a wake source (R30, R159). -/
def doLosLinkChange (los link : Bool) (s : State) : State :=
  if los = s.pins.los && link = s.pins.link then s
  else settle (wakeSource .losLink { s with pins.los := los, pins.link := link })

/-- OFFHOOK_ASSERT: the call pin sets; a wake source (R1, R157, R159). -/
def doOffhookAssert (s : State) : State :=
  if s.pins.offhook then s else settle (wakeSource .offhook { s with pins.offhook := true })

/-- OFFHOOK_DEASSERT: the call pin clears and the return decision is evaluated; a wake source (R14, R159). -/
def doOffhookDeassert (s : State) : State :=
  if s.pins.offhook then settle (evalReturn (wakeSource .offhook { s with pins.offhook := false })) else s

/-- The power mode moves between MAINS and RESERVE: Power Mode is raised and the power rule evaluated (R155). -/
def changeMode (mode : PowerMode) (cause : PowerCause) (s : State) : State :=
  powerRule (raiseEvent (.powerMode (powerCode s.power.mode) mode cause) { s with power.mode := mode })

/-- MAINS_LOST_ASSERT: during the load the mode follows; in DISABLED it is kept; else R155's table (R154, R155). -/
def doMainsLostAssert (s : State) : State :=
  if s.pins.mainsLost then s
  else
    let s := { s with pins.mainsLost := true }
    if s.loader.phase != .ended then { s with power.mode := .reserve }
    else if !partWorks s then s
    else match s.power.mode with
      | .mains => settle (changeMode .reserve .mainsLost s)
      | .reserve => settle { s with power.mainsReturn := none }
      | .doze => s

/-- MAINS_LOST_DEASSERT: during the load the mode follows; in RESERVE the mains-return timer starts; a wake source (R154, R155,
R157, R159). -/
def doMainsLostDeassert (s : State) : State :=
  if s.pins.mainsLost then
    let s := { s with pins.mainsLost := false }
    if s.loader.phase != .ended then { s with power.mode := .mains }
    else if !partWorks s then s
    else match s.power.mode with
      | .mains => s
      | .reserve => settle (wakeSource .mainsReturned { s with power.mainsReturn := some 10000 })
      | .doze => settle (wakeSource .mainsReturned s)
  else s

/-- RI_ASSERT: a wake source (R159). -/
def doRiAssert (s : State) : State := settle (wakeSource .ri { s with pins.ri := true })

end Sys2Proof.Machine
end

