-- ==== Sys2Proof/Machine/ModuleCommands.lean ====
section
/-! DEFINITION. Commands: what arrives from the module on LDI. A message can arrive only while LCLK runs and the receiver
waits for a header (R104, R105, log 18). -/

namespace Sys2Proof.Machine

/-- The radio leaves ATTACHED: the timers stop, the module is attached again if wanted, and the Path Controller is told (R118). -/
def attachedLost (s : State) : State := radioReport (detachedNext (leaveAttached s))

/-- Module Ready in ATTACHED: DETACHED, each busy slot settled as a timeout, items made pending (R111, R118, log 35). -/
def readyInAttached (s : State) : State :=
  let s := s |> readyTold |> leaveAttached |> timeOutSlot .a |> timeOutSlot .b
  radioReport (detachedNext (readyItems s))

/-- Module Ready by radio state (R109, R110, R111). -/
def moduleIsReady (s : State) : State :=
  match s.radio.state with
  | .off => s
  | .starting => detachedNext (readyItems { readyTold s with radio.state := .detached, radio.startTimer := none })
  | .detached => readyItems (readyTold s)
  | .attaching => afterFailure (radioReport (attachFails 18 (readyItems (readyTold s))))
  | .attached => readyInAttached s
  | .backoff => readyItems (readyTold s)

/-- MODULE_READY (R109, R110, R111). -/
def doModuleReady (s : State) : State := if receiverReady s then settle (moduleIsReady s) else s

/-- Attach Result success (R113): n 0, ATTACHED, the silence timer, the reports to the Path Controller and the Pacer, the linger.
DESIGN CHOICE (log 58): an Attach Request still pending is withdrawn. -/
def attachSucceeds (s : State) : State :=
  let s := { s with
    radio.attachTimer := none
    radio.failures := 0
    radio.lastCause := none
    radio.state := .attached
    radio.silenceTimer := some 10000
    radio.items.attach := false
    radio.attachTag := none
    path.emergency := false }
  s |> creditAtAttach |> radioReport |> placementAttempt |> startLinger

/-- ATTACH_RESULT, in ATTACHING; in any other state it is ignored (R113, R114). -/
def doAttachResult (tag : Byte) (s : State) : State :=
  if receiverReady s && s.radio.state == .attaching then
    if tag = 0 then settle (attachSucceeds s) else settle (afterFailure (radioReport (attachFails (attachCause tag) s)))
  else s

/-- GRANT_REPORT: the latest grant in every state but OFF; in ATTACHED also the silence timer and grant seen (R117). -/
def doGrantReport (uplink downlink : BitVec 16) (quality : Byte) (s : State) : State :=
  if receiverReady s && s.radio.state != .off then
    let s := { s with
      radio.grantUp := uplink.toNat
      radio.grantDown := downlink.toNat
      radio.grantQuality := min quality.toNat 31 }
    if s.radio.state = .attached then { s with radio.silenceTimer := some 10000, pacer.grantSeen := true } else s
  else s

/-- SEND_RESULT: a busy slot is settled as Accepted or Refused; a result for a free slot is stray (R93, R94, R120). -/
def doSendResult (tag : Byte) (s : State) : State :=
  if receiverReady s then
    match slotOfRadio s (resultSlot tag) with
    | none => raiseCounter .straySendResults s
    | some b =>
      if resultRefused tag then settle (settleRefused (resultSlot tag) b s) else settle (settleAccepted (resultSlot tag) b s)
  else s

/-- COVERAGE_LOST, in ATTACHED; in any other state it is ignored (R118). -/
def doCoverageLost (s : State) : State :=
  if receiverReady s && s.radio.state == .attached then settle (attachedLost s) else s

/-- The receiver reads the payload of a Deliver Down of `length` bytes into `record`, or discards it (R122). -/
def receivePayload (record : Option FrameRecord) (length : Nat) (s : State) : State :=
  { s with radio.receiver := .payload ⟨record, length, .ordinary⟩ }

/-- A Deliver Down of 1 to 2047 bytes asks for cells (R70, R122). -/
def askDownlink (cls : FrameClass) (length : Nat) (s : State) : State :=
  if downlinkGranted s cls length then
    receivePayload (some (newRecord s cls .downlink length none)) length (takeCells length s)
  else receivePayload none length (reportRefused cls length s)

/-- DELIVER_DOWN_HEADER: the quiet timer restarts whatever the length; a length of 0 is dropped, one over 2047 is a link framing
error, its payload read within the command (log 63; R105, R122, R156). -/
def doDeliverDownHeader (tag : Byte) (length : BitVec 16) (s : State) : State :=
  if receiverReady s then
    let s := restartQuiet s
    let n := length.toNat
    if n = 0 then settle s
    else if 2047 < n then settle (raiseCounter .linkFramingErrors s)
    else settle (askDownlink (deliverClass tag) n s)
  else s

/-- A whole payload has ended into a granted record: it joins its queue, or is freed as its fate, CLOSING or FIBRE rule
(R70, R81, R82, R98, R134). -/
def payloadEnds (r : FrameRecord) (fate : ReceiveFate) (s : State) : State :=
  match fate with
  | .atSoftReset => softDiscardRecord r s
  | .atReturn => loseRecord .discardedAtReturn r s
  | .ordinary =>
    if s.path.phase = some .closing then loseRecord .discardedAtReturn r s
    else if s.path.path = .fibre then loseRecord .fibrePath r s
    else
      let s := recordJoins (joinQueue r s)
      if r.cls = .data then countUsage r.length s else s

/-- DELIVER_DOWN_END: the payload being received has arrived whole (R70, R122). -/
def doDeliverDownEnd (payload : List Byte) (s : State) : State :=
  match s.radio.receiver with
  | .payload r =>
    if ldiRuns s && payload.length == r.length then
      let s := { s with radio.receiver := .idle }
      match r.record with
      | none => settle s
      | some rec => settle (payloadEnds rec r.fate (storeFrame s rec 0 payload))
    else s
  | _ => s

/-- BAD_CARRIER_HEADER: the payload is read and discarded and one link framing error counted; a Deliver Down header restarts the
quiet timer whatever its length (R105, R156). DESIGN CHOICE (log 63): the discarded payload has been read when the command ends. -/
def doBadCarrierHeader (type tag : Byte) (length : BitVec 16) (s : State) : State :=
  if receiverReady s && headerIsBad type length.toNat then
    let _ := tag
    let s := raiseCounter .linkFramingErrors s
    settle (if type = 0x85 then restartQuiet s else s)
  else s

/-- LINK_FRAMING_ERROR: counted; the message in progress is abandoned and input discarded until LDI has idled (R105). -/
def doLinkFramingError (s : State) : State :=
  if ldiRuns s && s.radio.receiver != .resync then
    let s := abandonPayload (raiseCounter .linkFramingErrors s)
    settle { s with radio.receiver := .resync }
  else s

/-- LINK_RECEIVER_RESYNC: the next start bit begins a header (R105). -/
def doLinkReceiverResync (s : State) : State :=
  if lclkRuns s && s.radio.receiver == .resync then { s with radio.receiver := .idle } else s

end Sys2Proof.Machine
end

