-- ==== Sys2Proof/Machine/ArbiterCommands.lean ====
section
/-! DEFINITION. Commands: what the outgoing arbiter begins and ends on LDO. A begin command gives the level of MRDY as the
arbiter looks at it (log 17) and acts when the arbiter takes that message next (R106). -/

namespace Sys2Proof.Machine

/-- The arbiter looks: a message begins when MRDY is high, LDO is free, the module listens and the message is the next (R106). -/
def arbiterTakes (mrdy : Bool) (next : NextMessage) (act : State → State) (s : State) : State :=
  let s := { s with pins.mrdy := mrdy }
  if arbiterLooks mrdy s then
    let s := dropTold s
    if nextMessage s = next then act s else s
  else s

/-- The Attach Request begins: the tag is taken now, and an emergency tag raises Emergency Attach (R112). -/
def beginAttach (s : State) : State :=
  let e := s.path.emergency
  let s := sendWhole (attachRequestMessage e) { s with radio.items.attach := false, radio.attachTag := some e }
  if e then raiseEvent (.emergencyAttach s.radio.failures (s.radio.lastCause.getD 0)) s else s

/-- ATTACH_REQUEST (R106, R112). -/
def doAttachRequest (mrdy : Bool) (s : State) : State := arbiterTakes mrdy .attach beginAttach s

/-- The Detach Request begins (R121). -/
def beginDetach (s : State) : State :=
  beginSending (.detach true) detachRequestMessage { s with radio.items.detach := false }

/-- DETACH_REQUEST (R106, R121). -/
def doDetachRequest (mrdy : Bool) (s : State) : State := arbiterTakes mrdy .detach beginDetach s

/-- DETACH_REQUEST_SENT: the radio leaves ATTACHED, unless it has left it meanwhile (R118, R121). -/
def doDetachRequestSent (s : State) : State :=
  match s.radio.ldo with
  | some (.detach live) =>
    let s := { s with radio.ldo := none }
    if live && s.radio.state == .attached then settle (attachedLost s) else settle s
  | _ => s

/-- The Send Up of a slot begins: the frame is read from the record's cells (R119). -/
def beginSendUp (slot : Slot) (s : State) : State :=
  match slotOfRadio s slot with
  | none => s
  | some b =>
    beginSending (.sendUp slot true (some b.record)) (sendUpMessage slot b.record.cls (frameBytes s b.record))
      { s with radio.unsent := s.radio.unsent.tail }

/-- SEND_UP: the oldest unsent Send Up (R106, R119). -/
def doSendUp (mrdy : Bool) (s : State) : State :=
  match s.radio.unsent with
  | slot :: _ => arbiterTakes mrdy (.sendUp slot) (beginSendUp slot) s
  | [] => { s with pins.mrdy := mrdy }

/-- The slot's sent mark is set (R119). -/
def markSent (slot : Slot) (s : State) : State :=
  match slot with
  | .a => { s with radio.slotA := s.radio.slotA.map fun b => { b with sent := true } }
  | .b => { s with radio.slotB := s.radio.slotB.map fun b => { b with sent := true } }

/-- SEND_UP_END: the last byte has been sent: the sent mark is set, and cells of records freed meanwhile join the free list
(R67, R119). -/
def doSendUpEnd (s : State) : State :=
  match s.radio.ldo with
  | some (.sendUp slot live _) =>
    let s := { s with radio.ldo := none }
    settle (freeOnLdo (if live then markSent slot s else s))
  | _ => s

/-- PAUSE_DOWN (R123). -/
def doPauseDown (mrdy : Bool) (s : State) : State :=
  arbiterTakes mrdy .pauseDown
    (fun s => sendWhole pauseDownMessage { s with radio.items.pause := false, radio.pauseTold := true }) s

/-- RESUME_DOWN (R123). -/
def doResumeDown (mrdy : Bool) (s : State) : State :=
  arbiterTakes mrdy .resumeDown
    (fun s => sendWhole resumeDownMessage { s with radio.items.pause := false, radio.pauseTold := false }) s

/-- DOWN_CAP: the cap target standing is carried and told (R123). -/
def doDownCap (mrdy : Bool) (s : State) : State :=
  arbiterTakes mrdy .downCap
    (fun s => sendWhole (downCapMessage s.pacer.downlinkCap)
      { s with radio.items.downCap := false, radio.capTold := s.pacer.downlinkCap }) s

/-- An entry to DOZE has told the Radio Link Manager. -/
def entryTold (s : State) : Bool := s.power.step == .entering .link

/-- The pending Low Power begins; an on begun when no entry stands that asked for it is answered at its end (R124, R157). -/
def beginLowPower (on : Bool) (s : State) : State :=
  beginSending (.lowPower on (entryTold s)) (lowPowerMessage on) { s with radio.items.lowPower := none }

/-- LOW_POWER: the pending Low Power begins, with its tag (R106, R124). -/
def doLowPower (mrdy : Bool) (s : State) : State :=
  match s.radio.items.lowPower with
  | some on => arbiterTakes mrdy (.lowPower on) (beginLowPower on) s
  | none => { s with pins.mrdy := mrdy }

/-- LOW_POWER_SENT: low power told takes the tag; an on whose entry was abandoned is answered by an off (R124, R157). -/
def doLowPowerSent (s : State) : State :=
  match s.radio.ldo with
  | some (.lowPower on live) =>
    let s := { s with radio.ldo := none, radio.lowPowerTold := on }
    settle (if on && !live then { s with radio.items.lowPower := some false } else s)
  | _ => s

end Sys2Proof.Machine
end

