-- ==== Sys2Proof/Machine/RadioTimerCommands.lean ====
section
/-! DEFINITION. Commands: the Radio Link Manager's timers. An expiry command acts on any running timer (log 3); one that falls
in DOZE is recorded for the restart (R124). -/

namespace Sys2Proof.Machine

/-- MODULE_RESET_RELEASE: MRST is released 10 ms after MPWR was asserted (R108, R110). -/
def doModuleResetRelease (s : State) : State :=
  if s.radio.mrstTimer.isSome then { s with radio.mrstTimer := none, radio.mrst := false } else s

/-- The start has failed: the module is unpowered for 1 s, the failure counted with cause 17, BACKOFF entered (R110, R114). -/
def startFails (s : State) : State :=
  let s := { dropPower s with radio.startTimer := none, radio.cycleTimer := some 1000, radio.ready := false }
  radioReport (cutLink (enterBackoff (countFailure 17 s)))

/-- What the start timer's expiry does (R110). -/
def startExpires (s : State) : State :=
  if s.radio.state = .starting then startFails s else { s with radio.startTimer := none }

/-- START_TIMER_EXPIRY (R110). -/
def doStartTimerExpiry (s : State) : State :=
  if s.radio.startTimer.isSome then settle (nowOrRecorded .start startExpires s) else s

/-- CYCLE_TIMER_EXPIRY: MPWR is asserted again; a BACKOFF whose timer was stopped enters STARTING (R110, R116, R124, R126). -/
def doCycleTimerExpiry (s : State) : State :=
  if s.radio.cycleTimer.isSome then
    let s := powerUp { s with radio.cycleTimer := none }
    settle (if s.radio.state = .backoff && s.radio.backoffTimer = none && !s.radio.ready then enterStarting s else s)
  else s

/-- What the attach timer's expiry does: a request still pending is withdrawn unsent, and the attach fails with cause 16
(R112, R114). -/
def attachExpires (s : State) : State :=
  let s := { s with radio.attachTimer := none }
  if s.radio.state = .attaching then afterFailure (radioReport (attachFails 16 { s with radio.items.attach := false })) else s

/-- ATTACH_TIMER_EXPIRY (R114). -/
def doAttachTimerExpiry (s : State) : State :=
  if s.radio.attachTimer.isSome then settle (nowOrRecorded .attach attachExpires s) else s

/-- What the backoff timer's expiry does (R115). -/
def backoffExpires (s : State) : State :=
  if s.radio.state = .backoff then endBackoff s else { s with radio.backoffTimer := none }

/-- BACKOFF_TIMER_EXPIRY (R115). -/
def doBackoffTimerExpiry (s : State) : State :=
  if s.radio.backoffTimer.isSome then settle (nowOrRecorded .backoff backoffExpires s) else s

/-- GRANT_SILENCE_EXPIRY: the radio leaves ATTACHED; the timer is held in DOZE (R118, R124). -/
def doGrantSilenceExpiry (s : State) : State :=
  if s.radio.silenceTimer.isSome && enginesRun s && s.radio.state == .attached then settle (attachedLost s) else s

/-- What the linger timer's expiry does: a Detach Request becomes pending (R121). -/
def lingerExpires (s : State) : State :=
  let s := { s with radio.lingerTimer := none }
  if s.radio.state = .attached then { s with radio.items.detach := true } else s

/-- LINGER_TIMER_EXPIRY (R121). -/
def doLingerTimerExpiry (s : State) : State :=
  if s.radio.lingerTimer.isSome then settle (nowOrRecorded .linger lingerExpires s) else s

/-- SEND_RESULT_TIMEOUT: a busy slot's 500 ms have passed (R94, R119, R120). -/
def doSendResultTimeout (slot : Slot) (s : State) : State :=
  if (slotOfRadio s slot).isSome then settle (timeOutSlot slot s) else s

end Sys2Proof.Machine
end

