-- ==== Sys2Proof/Machine/PathCommands.lean ====
section
/-! DEFINITION. Commands: the health timers and the Path Controller's timers and conditions. -/

namespace Sys2Proof.Machine

/-- HEALTH_100MS_EXPIRY: SIG and, in FIBRE, TXP are sampled, then one evaluation (R29, R30, R31). -/
def doHealth100msExpiry (s : State) : State :=
  if s.health.timer100.isSome && enginesRun s then
    let s := sampleSig { s with health.timer100 := some 100 }
    settle (evaluate (if s.path.path = .fibre then sampleTxp s else s))
  else s

/-- HEALTH_1S_EXPIRY: in FIBRE, RXA is sampled and the verdict evaluated (R29, R32). -/
def doHealth1sExpiry (s : State) : State :=
  if s.health.timer1s.isSome && enginesRun s && s.path.path == .fibre then
    settle (evaluate (sampleRxa { s with health.timer1s := some 1000 }))
  else s

/-- What the release timer's expiry does: each ring not released is released by force (R10). -/
def releaseExpires (s : State) : State := forceRelease { s with path.releaseTimer := none }

/-- RELEASE_TIMER_EXPIRY (R10). -/
def doReleaseTimerExpiry (s : State) : State :=
  if s.path.releaseTimer.isSome then settle (nowOrRecorded .release releaseExpires s) else s

/-- The dwell timer runs. -/
def dwellRuns (s : State) : Bool :=
  match s.path.dwell with
  | .running _ => true
  | _ => false

/-- What the dwell timer's expiry does: MET, and the return decision (R13, R14). -/
def dwellExpires (s : State) : State := if dwellRuns s then evalReturn { s with path.dwell := .met } else s

/-- DWELL_TIMER_EXPIRY (R13). -/
def doDwellTimerExpiry (s : State) : State :=
  if dwellRuns s then settle (nowOrRecorded .dwell dwellExpires s) else s

/-- A return is draining under the controller's own rules (R17, R18; log 34). -/
def draining (s : State) : Bool :=
  s.path.path == .returning && s.path.phase == some .draining && !softResetStands s

/-- DRAIN_COMPLETE: the conditions of R17 hold together: CLOSING, the drain timer stopped, the hand-back begun. -/
def doDrainComplete (s : State) : State :=
  if draining s && drainDone s then settle { s with path.phase := some .closing, path.drainTimer := none } else s

/-- DRAIN_TIMER_EXPIRY: CLOSING, forced release, Dropped At Return, every queued and slotted record discarded (R18). -/
def doDrainTimerExpiry (s : State) : State :=
  if draining s && s.path.drainTimer.isSome then
    let s := forceRelease { s with path.phase := some .closing, path.drainTimer := none }
    settle (discardAtReturn (dropPending s))
  else s

/-- What the refall timer's expiry does: the window closes (R7). -/
def refallExpires (s : State) : State := { s with path.refallTimer := none, path.refallOpen := false }

/-- REFALL_TIMER_EXPIRY (R7, R26). -/
def doRefallTimerExpiry (s : State) : State :=
  if s.path.refallTimer.isSome then nowOrRecorded .refall refallExpires s else s

/-- What the priority timer's expiry does: it stops, the emergency flag clears, the return decision is evaluated (R22). -/
def priorityExpires (s : State) : State := evalReturn (clearEmergency { s with path.priorityTimer := none })

/-- PRIORITY_TIMER_EXPIRY (R22). -/
def doPriorityTimerExpiry (s : State) : State :=
  if s.path.priorityTimer.isSome then settle (nowOrRecorded .priority priorityExpires s) else s

end Sys2Proof.Machine
end

