-- ==== Sys2Proof/Machine/HoldCommands.lean ====
section
/-! DEFINITION. Commands: pacing and the sweeps of Hold Memory. -/

namespace Sys2Proof.Machine

/-- PACING_TIMER_EXPIRY: the refill, then a placement attempt (R87, R90). -/
def doPacingTimerExpiry (s : State) : State :=
  if s.pacer.pacing.isSome then settle (placementAttempt (refill { s with pacer.pacing := some 1 })) else s

/-- REFUSAL_PAUSE_END: a placement attempt (R90, R94). -/
def doRefusalPauseEnd (s : State) : State :=
  if s.pacer.refusalPause.isSome then settle (placementAttempt { s with pacer.refusalPause := none }) else s

/-- SWEEP_10MS (R77). -/
def doSweep10ms (s : State) : State :=
  if s.hold.sweep10.isSome then settle (sweepVoice { s with hold.sweep10 := some 10 }) else s

/-- SWEEP_1S (R77). -/
def doSweep1s (s : State) : State :=
  if s.hold.sweep1s.isSome then settle (sweepData { s with hold.sweep1s := some 1000 }) else s

end Sys2Proof.Machine
end

