-- ==== Sys2Proof/Machine/EventCommands.lean ====
section
/-! DEFINITION. Commands: event posting, the status page and the soft reset's discard step. -/

namespace Sys2Proof.Machine

/-- The record's write can be issued at once: the queue has room and no block waits before it (R150). -/
def masterFree (s : State) : Bool := s.bus.queue.length < Config.queuePlaces && s.bus.waiting == []

/-- EVENT_POST (R168). -/
def doEventPost (s : State) : State := if mayPost s && masterFree s then settle (request .eventRecord s) else s

/-- STATUS_REFRESH_EXPIRY: a page write is asked for and the timer restarts (R166). -/
def doStatusRefreshExpiry (s : State) : State :=
  if s.events.refreshTimer.isSome then askPage { s with events.refreshTimer := some 100 } else s

/-- An entry to DOZE has reached its status page, which is the last one before DOZE (R166, log 42). -/
def entryPageBegun (s : State) : Bool := s.power.step == .entering .page || s.power.step == .entering .link

/-- STATUS_PAGE_WRITE: a page write that was asked for begins, unless one is in progress (R166, log 24). -/
def doStatusPageWrite (s : State) : State :=
  if s.events.pageWanted && !s.events.pageWriting && enginesRun s && partWorks s && s.loader.shadowsLoaded
      && !entryPageBegun s then
    settle (beginPage false s)
  else s

/-- SOFT_RESET_DISCARD: the busy slots have settled, or their 500 ms have passed (R24, R61, R82). -/
def doSoftResetDiscard (s : State) : State :=
  if s.loader.softReset = .waiting then settle (softDiscard s) else s

end Sys2Proof.Machine
end

