-- ==== Sys2Proof/Machine/PowerCommands.lean ====
section
/-! DEFINITION. Commands: the Power Mode Unit's timers, the entry to DOZE and the restart. -/

namespace Sys2Proof.Machine

/-- MAINS_RETURN_EXPIRY: the mode becomes MAINS (R155). -/
def doMainsReturnExpiry (s : State) : State :=
  if s.power.mainsReturn.isSome && s.power.mode == .reserve then
    settle (changeMode .mains .mainsReturned { s with power.mainsReturn := none })
  else s

/-- The quiet timer runs. -/
def quietRuns (s : State) : Bool :=
  match s.power.quiet with
  | .running _ => true
  | _ => false

/-- QUIET_TIMER_EXPIRY: the timer has run out (R156). -/
def doQuietTimerExpiry (s : State) : State :=
  if quietRuns s then settle { s with power.quiet := .runOut } else s

/-- DOZE_ENTRY_SETTLED: nothing remains in flight: the status page of entry is written (R157). -/
def doDozeEntrySettled (s : State) : State :=
  if s.power.step = .entering .settling && dozeConditions s && entrySettled s then
    settle (beginPage true { s with power.step := .entering .page })
  else s

/-- DOZE_REACHED: page and messages have ended (R157, R158). -/
def doDozeReached (s : State) : State :=
  if s.power.step = .entering .link && dozeConditions s && entryDone s then enterDoze s else s

/-- DOZE_TIMER_EXPIRY: a wake source (R159). -/
def doDozeTimerExpiry (s : State) : State :=
  if s.power.step = .dozing && s.power.dozeTimer.isSome then wakeSource .dozeTimer { s with power.dozeTimer := none } else s

/-- What a recorded cause brings at the restart (R26, R124). -/
def actRecorded (r : Recorded) (s : State) : State :=
  match r with
  | .release => releaseExpires s
  | .dwell => dwellExpires s
  | .refall => refallExpires s
  | .priority => priorityExpires s
  | .start => startExpires s
  | .attach => attachExpires s
  | .backoff => backoffExpires s
  | .linger => lingerExpires s

/-- The recorded causes are acted on in the order they fell. -/
def actAllRecorded (s : State) : State :=
  s.path.recorded.foldl (fun s r => actRecorded r s) { s with path.recorded := [] }

/-- Every stopped block starts again (R160 steps 1 and 2; R42, R84, R103, R124, R166). -/
def startBlocks (s : State) : State :=
  let s := restartHealth { s with
    power.mode := .reserve
    power.step := .awake
    power.restart := none
    pacer.pacing := some 1
    hold.sweep10 := some 10
    hold.sweep1s := some 1000
    events.refreshTimer := some 100
    pins.ri := false }
  let s := if s.radio.lowPowerTold then { s with radio.items.lowPower := some false } else s
  if s.radio.silenceTimer.isSome then { s with radio.silenceTimer := some 10000 } else s

/-- The Ring Agent and the Loader take up what waited for the restart (R66, R139, R162). -/
def takeUpWork (s : State) : State :=
  let s := s |> checksDue |> tryAdvance |> catchUpRxf |> readAhead
  if s.loader.dueAfterRestart then wantRead { s with loader.dueAfterRestart := false } else s

/-- The restart's use of the wake latch: the mains-return timer, the quiet timer and the SIG sample of a doze timer wake
(R42, R160 steps 3 to 5). -/
def useLatch (s : State) : State :=
  let l := s.power.latch
  let s := if l.mainsReturned && !s.pins.mainsLost then { s with power.mainsReturn := some 10000 } else s
  let s := if l.txpWrite || l.pgenWrite || l.offhook || l.losLink || l.ri || l.mainsReturned then restartQuiet s else s
  let s := { s with power.latch := WakeLatch.empty }
  if l.dozeTimer then evaluate (sampleSig s) else s

/-- RESTART_END: the 2 ms of the restart have passed (R160). DESIGN CHOICE (log 54): the recorded causes are acted on before the
SIG sample of a doze timer wake (R42), whose order R160 leaves open. DESIGN CHOICE (log 66): a takeover at that sample that goes on
to RADIO or HELD is followed by a new entry at once, by R157, where R160 speaks only of the path TAKEOVER. -/
def doRestartEnd (s : State) : State :=
  if s.power.step = .restarting then
    settle (evalReturn (useLatch (takeUpWork (actAllRecorded (startBlocks s)))))
  else s

end Sys2Proof.Machine
end

