-- ==== Sys2Proof/Machine/Tick.lean ====
section
/-! DEFINITION. One millisecond of the reference clock, which passes when no command waits (log 2): the clock, the timers, and
the expiry commands of the timers that run out. -/

namespace Sys2Proof.Machine

/-- A timer a millisecond later. -/
def countDown (t : Timer) : Timer := t.map (· - 1)

/-- A timer that runs out in this millisecond. -/
def runsOut (t : Timer) : Bool := t == some 1

/-- The dwell timer a millisecond later. -/
def countDwell : Dwell → Dwell
  | .running n => .running (n - 1)
  | .stopped => .stopped
  | .met => .met

/-- The quiet timer a millisecond later. -/
def countQuiet : Quiet → Quiet
  | .running n => .running (n - 1)
  | .stopped => .stopped
  | .runOut => .runOut

/-- A send slot a millisecond later. -/
def countSlot (b : Option BusySlot) : Option BusySlot := b.map fun b => { b with timer := countDown b.timer }

/-- A slot's timer. -/
def slotTimer (b : Option BusySlot) : Timer := b.bind (·.timer)

/-- Every running timer a millisecond later; the grant silence timer is held while the mode is DOZE (R124). -/
def countTimers (s : State) : State :=
  { s with
    loader.softWait := countDown s.loader.softWait
    health.timer100 := countDown s.health.timer100
    health.timer1s := countDown s.health.timer1s
    path.dwell := countDwell s.path.dwell
    path.refallTimer := countDown s.path.refallTimer
    path.releaseTimer := countDown s.path.releaseTimer
    path.drainTimer := countDown s.path.drainTimer
    path.priorityTimer := countDown s.path.priorityTimer
    hold.sweep10 := countDown s.hold.sweep10
    hold.sweep1s := countDown s.hold.sweep1s
    pacer.pacing := countDown s.pacer.pacing
    pacer.refusalPause := countDown s.pacer.refusalPause
    radio.startTimer := countDown s.radio.startTimer
    radio.cycleTimer := countDown s.radio.cycleTimer
    radio.attachTimer := countDown s.radio.attachTimer
    radio.backoffTimer := countDown s.radio.backoffTimer
    radio.silenceTimer := if enginesRun s then countDown s.radio.silenceTimer else s.radio.silenceTimer
    radio.lingerTimer := countDown s.radio.lingerTimer
    radio.mrstTimer := countDown s.radio.mrstTimer
    radio.slotA := countSlot s.radio.slotA
    radio.slotB := countSlot s.radio.slotB
    power.mainsReturn := countDown s.power.mainsReturn
    power.quiet := countQuiet s.power.quiet
    power.dozeTimer := countDown s.power.dozeTimer
    power.restart := countDown s.power.restart
    events.refreshTimer := countDown s.events.refreshTimer }

/-- The expiry commands of the timers that run out in this millisecond, in one fixed order (log 1, log 2). -/
def expiries (s : State) : List Instr :=
  [(runsOut s.health.timer100, Instr.health100msExpiry),
   (runsOut s.health.timer1s, .health1sExpiry),
   (runsOut s.path.releaseTimer, .releaseTimerExpiry),
   (s.path.dwell == .running 1, .dwellTimerExpiry),
   (runsOut s.path.drainTimer, .drainTimerExpiry),
   (runsOut s.path.refallTimer, .refallTimerExpiry),
   (runsOut s.path.priorityTimer, .priorityTimerExpiry),
   (runsOut s.pacer.pacing, .pacingTimerExpiry),
   (runsOut s.pacer.refusalPause, .refusalPauseEnd),
   (runsOut s.hold.sweep10, .sweep10ms),
   (runsOut s.hold.sweep1s, .sweep1s),
   (runsOut s.events.refreshTimer, .statusRefreshExpiry),
   (runsOut s.power.mainsReturn, .mainsReturnExpiry),
   (s.power.quiet == .running 1, .quietTimerExpiry),
   (runsOut s.power.dozeTimer, .dozeTimerExpiry),
   (runsOut s.power.restart, .restartEnd),
   (runsOut s.radio.mrstTimer, .moduleResetRelease),
   (runsOut s.radio.startTimer, .startTimerExpiry),
   (runsOut s.radio.cycleTimer, .cycleTimerExpiry),
   (runsOut s.radio.attachTimer, .attachTimerExpiry),
   (runsOut s.radio.backoffTimer, .backoffTimerExpiry),
   (enginesRun s && runsOut s.radio.silenceTimer, .grantSilenceExpiry),
   (runsOut s.radio.lingerTimer, .lingerTimerExpiry),
   (runsOut (slotTimer s.radio.slotA), .sendResultTimeout .a),
   (runsOut (slotTimer s.radio.slotB), .sendResultTimeout .b),
   (runsOut s.loader.softWait, .softResetDiscard)].filterMap fun p => if p.1 then some p.2 else none

/-- The LEDs a millisecond later in their flashing period (R170, R174). -/
def tickLeds (s : State) : State := { s with events.ledMs := (s.events.ledMs + 1) % ledPeriod s }

/-- One millisecond passes: the clock runs from the release of RESET# (R172), the timers and the LEDs once the load has ended. -/
def tick (s : State) : State :=
  match s.loader.phase with
  | .heldInReset => s
  | .loading => { s with clock := s.clock + 1 }
  | .ended => { tickLeds (countTimers s) with clock := s.clock + 1, pending := s.pending ++ expiries s }

end Sys2Proof.Machine
end

