-- ==== Sys2Proof/Machine/Meanings.lean ====
section
/-! DEFINITION. The meaning of each command, as an outcome. No command stops: each answers a next state (log 4). -/

namespace Sys2Proof.Machine

/-- What a command answers. -/
abbrev Answer := Host.Outcome State Fault Refusal

/-- POWER_ON_RESET (R172). -/
def execPowerOnReset (intPolarity : Bool) (s : State) : Answer := .next (doPowerOnReset intPolarity s)

/-- CONFIGURATION_LOAD_END (R173). -/
def execConfigurationLoadEnd (acknowledged bypass : Bool) (image : List Byte) (s : State) : Answer := .next (doConfigurationLoadEnd acknowledged bypass image s)

/-- SHADOW_READS_CARRIED (R175). -/
def execShadowReadsCarried (s : State) : Answer := .next (doShadowReadsCarried s)

/-- GATEWAY_TRANSFER (R141). -/
def execGatewayTransfer (req : Requester) (x : Transfer) (s : State) : Answer := .next (doGatewayTransfer req x s)

/-- U_READ_TXP_WORD (R146). -/
def execUReadTxpWord (addr : Addr) (len : BurstLen) (s : State) : Answer := .next (doUReadTxpWord addr len s)

/-- U_READ_RXP_WORD (R146). -/
def execUReadRxpWord (addr : Addr) (len : BurstLen) (s : State) : Answer := .next (doUReadRxpWord addr len s)

/-- TXP_WORD_WRITE (R144). -/
def execTxpWordWrite (req : Requester) (addr : Addr) (words : List LaneWord) (s : State) : Answer := .next (doTxpWordWrite req addr words s)

/-- TXC_WORD_WRITE (R9). -/
def execTxcWordWrite (req : Requester) (addr : Addr) (words : List LaneWord) (s : State) : Answer := .next (doTxcWordWrite req addr words s)

/-- RXP_WORD_WRITE (R144). -/
def execRxpWordWrite (req : Requester) (addr : Addr) (words : List LaneWord) (s : State) : Answer := .next (doRxpWordWrite req addr words s)

/-- RXF_WORD_WRITE (R9). -/
def execRxfWordWrite (req : Requester) (addr : Addr) (words : List LaneWord) (s : State) : Answer := .next (doRxfWordWrite req addr words s)

/-- EVC_WORD_WRITE (R168). -/
def execEvcWordWrite (req : Requester) (addr : Addr) (words : List LaneWord) (s : State) : Answer := .next (doEvcWordWrite req addr words s)

/-- PGEN_WORD_WRITE (R162). -/
def execPgenWordWrite (req : Requester) (addr : Addr) (words : List LaneWord) (s : State) : Answer := .next (doPgenWordWrite req addr words s)

/-- TX_RING_COMPLETION_WRITE (R33). -/
def execTxRingCompletionWrite (addr : Addr) (words : List LaneWord) (s : State) : Answer := .next (doTxRingCompletionWrite addr words s)

/-- STALE_UPLINK_WRITE (R148). -/
def execStaleUplinkWrite (addr : Addr) (words : List LaneWord) (s : State) : Answer := .next (doStaleUplinkWrite addr words s)

/-- MASTER_TRANSFER_CARRIED (R150). -/
def execMasterTransferCarried (s : State) : Answer := .next (doMasterTransferCarried s)

/-- LOS_LINK_CHANGE (R159). -/
def execLosLinkChange (los link : Bool) (s : State) : Answer := .next (doLosLinkChange los link s)

/-- OFFHOOK_ASSERT (R1). -/
def execOffhookAssert (s : State) : Answer := .next (doOffhookAssert s)

/-- OFFHOOK_DEASSERT (R14). -/
def execOffhookDeassert (s : State) : Answer := .next (doOffhookDeassert s)

/-- MAINS_LOST_ASSERT (R155). -/
def execMainsLostAssert (s : State) : Answer := .next (doMainsLostAssert s)

/-- MAINS_LOST_DEASSERT (R155). -/
def execMainsLostDeassert (s : State) : Answer := .next (doMainsLostDeassert s)

/-- RI_ASSERT (R159). -/
def execRiAssert (s : State) : Answer := .next (doRiAssert s)

/-- MODULE_READY (R109). -/
def execModuleReady (s : State) : Answer := .next (doModuleReady s)

/-- ATTACH_RESULT (R113). -/
def execAttachResult (tag : Byte) (s : State) : Answer := .next (doAttachResult tag s)

/-- GRANT_REPORT (R117). -/
def execGrantReport (uplink downlink : BitVec 16) (quality : Byte) (s : State) : Answer := .next (doGrantReport uplink downlink quality s)

/-- SEND_RESULT (R120). -/
def execSendResult (tag : Byte) (s : State) : Answer := .next (doSendResult tag s)

/-- COVERAGE_LOST (R118). -/
def execCoverageLost (s : State) : Answer := .next (doCoverageLost s)

/-- DELIVER_DOWN_HEADER (R122). -/
def execDeliverDownHeader (tag : Byte) (length : BitVec 16) (s : State) : Answer := .next (doDeliverDownHeader tag length s)

/-- DELIVER_DOWN_END (R70). -/
def execDeliverDownEnd (payload : List Byte) (s : State) : Answer := .next (doDeliverDownEnd payload s)

/-- BAD_CARRIER_HEADER (R105). -/
def execBadCarrierHeader (type tag : Byte) (length : BitVec 16) (s : State) : Answer := .next (doBadCarrierHeader type tag length s)

/-- LINK_FRAMING_ERROR (R105). -/
def execLinkFramingError (s : State) : Answer := .next (doLinkFramingError s)

/-- ATTACH_REQUEST (R112). -/
def execAttachRequest (mrdy : Bool) (s : State) : Answer := .next (doAttachRequest mrdy s)

/-- DETACH_REQUEST (R121). -/
def execDetachRequest (mrdy : Bool) (s : State) : Answer := .next (doDetachRequest mrdy s)

/-- DETACH_REQUEST_SENT (R121). -/
def execDetachRequestSent (s : State) : Answer := .next (doDetachRequestSent s)

/-- SEND_UP (R119). -/
def execSendUp (mrdy : Bool) (s : State) : Answer := .next (doSendUp mrdy s)

/-- SEND_UP_END (R119). -/
def execSendUpEnd (s : State) : Answer := .next (doSendUpEnd s)

/-- PAUSE_DOWN (R123). -/
def execPauseDown (mrdy : Bool) (s : State) : Answer := .next (doPauseDown mrdy s)

/-- RESUME_DOWN (R123). -/
def execResumeDown (mrdy : Bool) (s : State) : Answer := .next (doResumeDown mrdy s)

/-- DOWN_CAP (R123). -/
def execDownCap (mrdy : Bool) (s : State) : Answer := .next (doDownCap mrdy s)

/-- LOW_POWER (R124). -/
def execLowPower (mrdy : Bool) (s : State) : Answer := .next (doLowPower mrdy s)

/-- LOW_POWER_SENT (R124). -/
def execLowPowerSent (s : State) : Answer := .next (doLowPowerSent s)

/-- MODULE_RESET_RELEASE (R108). -/
def execModuleResetRelease (s : State) : Answer := .next (doModuleResetRelease s)

/-- START_TIMER_EXPIRY (R110). -/
def execStartTimerExpiry (s : State) : Answer := .next (doStartTimerExpiry s)

/-- CYCLE_TIMER_EXPIRY (R110). -/
def execCycleTimerExpiry (s : State) : Answer := .next (doCycleTimerExpiry s)

/-- ATTACH_TIMER_EXPIRY (R114). -/
def execAttachTimerExpiry (s : State) : Answer := .next (doAttachTimerExpiry s)

/-- BACKOFF_TIMER_EXPIRY (R115). -/
def execBackoffTimerExpiry (s : State) : Answer := .next (doBackoffTimerExpiry s)

/-- GRANT_SILENCE_EXPIRY (R118). -/
def execGrantSilenceExpiry (s : State) : Answer := .next (doGrantSilenceExpiry s)

/-- LINGER_TIMER_EXPIRY (R121). -/
def execLingerTimerExpiry (s : State) : Answer := .next (doLingerTimerExpiry s)

/-- SEND_RESULT_TIMEOUT (R94). -/
def execSendResultTimeout (slot : Slot) (s : State) : Answer := .next (doSendResultTimeout slot s)

/-- HEALTH_100MS_EXPIRY (R29). -/
def execHealth100msExpiry (s : State) : Answer := .next (doHealth100msExpiry s)

/-- HEALTH_1S_EXPIRY (R32). -/
def execHealth1sExpiry (s : State) : Answer := .next (doHealth1sExpiry s)

/-- PRIORITY_SCAN_READ_RETURN (R63). -/
def execPriorityScanReadReturn (s : State) : Answer := .next (doPriorityScanReadReturn s)

/-- RELEASE_TIMER_EXPIRY (R10). -/
def execReleaseTimerExpiry (s : State) : Answer := .next (doReleaseTimerExpiry s)

/-- DWELL_TIMER_EXPIRY (R13). -/
def execDwellTimerExpiry (s : State) : Answer := .next (doDwellTimerExpiry s)

/-- DRAIN_COMPLETE (R17). -/
def execDrainComplete (s : State) : Answer := .next (doDrainComplete s)

/-- DRAIN_TIMER_EXPIRY (R18). -/
def execDrainTimerExpiry (s : State) : Answer := .next (doDrainTimerExpiry s)

/-- HAND_BACK (R19). -/
def execHandBack (s : State) : Answer := .next (doHandBack s)

/-- REFALL_TIMER_EXPIRY (R7). -/
def execRefallTimerExpiry (s : State) : Answer := .next (doRefallTimerExpiry s)

/-- PRIORITY_TIMER_EXPIRY (R22). -/
def execPriorityTimerExpiry (s : State) : Answer := .next (doPriorityTimerExpiry s)

/-- DESCRIPTOR_READ_RETURN (R51). -/
def execDescriptorReadReturn (s : State) : Answer := .next (doDescriptorReadReturn s)

/-- TAKE_END (R55). -/
def execTakeEnd (s : State) : Answer := .next (doTakeEnd s)

/-- PACING_TIMER_EXPIRY (R87). -/
def execPacingTimerExpiry (s : State) : Answer := .next (doPacingTimerExpiry s)

/-- REFUSAL_PAUSE_END (R94). -/
def execRefusalPauseEnd (s : State) : Answer := .next (doRefusalPauseEnd s)

/-- SWEEP_10MS (R77). -/
def execSweep10ms (s : State) : Answer := .next (doSweep10ms s)

/-- SWEEP_1S (R77). -/
def execSweep1s (s : State) : Answer := .next (doSweep1s s)

/-- DELIVERY_DESCRIPTOR_READ (R131). -/
def execDeliveryDescriptorRead (s : State) : Answer := .next (doDeliveryDescriptorRead s)

/-- DELIVERY_END (R132). -/
def execDeliveryEnd (s : State) : Answer := .next (doDeliveryEnd s)

/-- EVENT_POST (R168). -/
def execEventPost (s : State) : Answer := .next (doEventPost s)

/-- STATUS_REFRESH_EXPIRY (R166). -/
def execStatusRefreshExpiry (s : State) : Answer := .next (doStatusRefreshExpiry s)

/-- STATUS_PAGE_WRITE (R166). -/
def execStatusPageWrite (s : State) : Answer := .next (doStatusPageWrite s)

/-- POLICY_APPLIED (R164). -/
def execPolicyApplied (s : State) : Answer := .next (doPolicyApplied s)

/-- SOFT_RESET_DISCARD (R24). -/
def execSoftResetDiscard (s : State) : Answer := .next (doSoftResetDiscard s)

/-- MAINS_RETURN_EXPIRY (R155). -/
def execMainsReturnExpiry (s : State) : Answer := .next (doMainsReturnExpiry s)

/-- QUIET_TIMER_EXPIRY (R156). -/
def execQuietTimerExpiry (s : State) : Answer := .next (doQuietTimerExpiry s)

/-- DOZE_ENTRY_SETTLED (R157). -/
def execDozeEntrySettled (s : State) : Answer := .next (doDozeEntrySettled s)

/-- DOZE_REACHED (R157). -/
def execDozeReached (s : State) : Answer := .next (doDozeReached s)

/-- DOZE_TIMER_EXPIRY (R159). -/
def execDozeTimerExpiry (s : State) : Answer := .next (doDozeTimerExpiry s)

/-- RESTART_END (R160). -/
def execRestartEnd (s : State) : Answer := .next (doRestartEnd s)

/-- LINK_RECEIVER_RESYNC (R105). -/
def execLinkReceiverResync (s : State) : Answer := .next (doLinkReceiverResync s)

/-- RESET_ASSERTED (R172). -/
def execResetAsserted (s : State) : Answer := .next (doResetAsserted s)

end Sys2Proof.Machine
end

