-- ==== Sys2Proof/Machine/Dispatch.lean ====
section
/-! DEFINITION. The dispatch: one arm per command, each one call of its meaning. -/

namespace Sys2Proof.Machine

def exec (i : Instr) (s : State) : Host.Outcome State Fault Refusal :=
  match i with
  | .powerOnReset intPolarity => Sys2Proof.Machine.execPowerOnReset intPolarity s
  | .configurationLoadEnd acknowledged bypass image => Sys2Proof.Machine.execConfigurationLoadEnd acknowledged bypass image s
  | .shadowReadsCarried => Sys2Proof.Machine.execShadowReadsCarried s
  | .gatewayTransfer req x => Sys2Proof.Machine.execGatewayTransfer req x s
  | .uReadTxpWord addr len => Sys2Proof.Machine.execUReadTxpWord addr len s
  | .uReadRxpWord addr len => Sys2Proof.Machine.execUReadRxpWord addr len s
  | .txpWordWrite req addr words => Sys2Proof.Machine.execTxpWordWrite req addr words s
  | .txcWordWrite req addr words => Sys2Proof.Machine.execTxcWordWrite req addr words s
  | .rxpWordWrite req addr words => Sys2Proof.Machine.execRxpWordWrite req addr words s
  | .rxfWordWrite req addr words => Sys2Proof.Machine.execRxfWordWrite req addr words s
  | .evcWordWrite req addr words => Sys2Proof.Machine.execEvcWordWrite req addr words s
  | .pgenWordWrite req addr words => Sys2Proof.Machine.execPgenWordWrite req addr words s
  | .txRingCompletionWrite addr words => Sys2Proof.Machine.execTxRingCompletionWrite addr words s
  | .staleUplinkWrite addr words => Sys2Proof.Machine.execStaleUplinkWrite addr words s
  | .masterTransferCarried => Sys2Proof.Machine.execMasterTransferCarried s
  | .losLinkChange los link => Sys2Proof.Machine.execLosLinkChange los link s
  | .offhookAssert => Sys2Proof.Machine.execOffhookAssert s
  | .offhookDeassert => Sys2Proof.Machine.execOffhookDeassert s
  | .mainsLostAssert => Sys2Proof.Machine.execMainsLostAssert s
  | .mainsLostDeassert => Sys2Proof.Machine.execMainsLostDeassert s
  | .riAssert => Sys2Proof.Machine.execRiAssert s
  | .moduleReady => Sys2Proof.Machine.execModuleReady s
  | .attachResult tag => Sys2Proof.Machine.execAttachResult tag s
  | .grantReport uplink downlink quality => Sys2Proof.Machine.execGrantReport uplink downlink quality s
  | .sendResult tag => Sys2Proof.Machine.execSendResult tag s
  | .coverageLost => Sys2Proof.Machine.execCoverageLost s
  | .deliverDownHeader tag length => Sys2Proof.Machine.execDeliverDownHeader tag length s
  | .deliverDownEnd payload => Sys2Proof.Machine.execDeliverDownEnd payload s
  | .badCarrierHeader type tag length => Sys2Proof.Machine.execBadCarrierHeader type tag length s
  | .linkFramingError => Sys2Proof.Machine.execLinkFramingError s
  | .attachRequest mrdy => Sys2Proof.Machine.execAttachRequest mrdy s
  | .detachRequest mrdy => Sys2Proof.Machine.execDetachRequest mrdy s
  | .detachRequestSent => Sys2Proof.Machine.execDetachRequestSent s
  | .sendUp mrdy => Sys2Proof.Machine.execSendUp mrdy s
  | .sendUpEnd => Sys2Proof.Machine.execSendUpEnd s
  | .pauseDown mrdy => Sys2Proof.Machine.execPauseDown mrdy s
  | .resumeDown mrdy => Sys2Proof.Machine.execResumeDown mrdy s
  | .downCap mrdy => Sys2Proof.Machine.execDownCap mrdy s
  | .lowPower mrdy => Sys2Proof.Machine.execLowPower mrdy s
  | .lowPowerSent => Sys2Proof.Machine.execLowPowerSent s
  | .moduleResetRelease => Sys2Proof.Machine.execModuleResetRelease s
  | .startTimerExpiry => Sys2Proof.Machine.execStartTimerExpiry s
  | .cycleTimerExpiry => Sys2Proof.Machine.execCycleTimerExpiry s
  | .attachTimerExpiry => Sys2Proof.Machine.execAttachTimerExpiry s
  | .backoffTimerExpiry => Sys2Proof.Machine.execBackoffTimerExpiry s
  | .grantSilenceExpiry => Sys2Proof.Machine.execGrantSilenceExpiry s
  | .lingerTimerExpiry => Sys2Proof.Machine.execLingerTimerExpiry s
  | .sendResultTimeout slot => Sys2Proof.Machine.execSendResultTimeout slot s
  | .health100msExpiry => Sys2Proof.Machine.execHealth100msExpiry s
  | .health1sExpiry => Sys2Proof.Machine.execHealth1sExpiry s
  | .priorityScanReadReturn => Sys2Proof.Machine.execPriorityScanReadReturn s
  | .releaseTimerExpiry => Sys2Proof.Machine.execReleaseTimerExpiry s
  | .dwellTimerExpiry => Sys2Proof.Machine.execDwellTimerExpiry s
  | .drainComplete => Sys2Proof.Machine.execDrainComplete s
  | .drainTimerExpiry => Sys2Proof.Machine.execDrainTimerExpiry s
  | .handBack => Sys2Proof.Machine.execHandBack s
  | .refallTimerExpiry => Sys2Proof.Machine.execRefallTimerExpiry s
  | .priorityTimerExpiry => Sys2Proof.Machine.execPriorityTimerExpiry s
  | .descriptorReadReturn => Sys2Proof.Machine.execDescriptorReadReturn s
  | .takeEnd => Sys2Proof.Machine.execTakeEnd s
  | .pacingTimerExpiry => Sys2Proof.Machine.execPacingTimerExpiry s
  | .refusalPauseEnd => Sys2Proof.Machine.execRefusalPauseEnd s
  | .sweep10ms => Sys2Proof.Machine.execSweep10ms s
  | .sweep1s => Sys2Proof.Machine.execSweep1s s
  | .deliveryDescriptorRead => Sys2Proof.Machine.execDeliveryDescriptorRead s
  | .deliveryEnd => Sys2Proof.Machine.execDeliveryEnd s
  | .eventPost => Sys2Proof.Machine.execEventPost s
  | .statusRefreshExpiry => Sys2Proof.Machine.execStatusRefreshExpiry s
  | .statusPageWrite => Sys2Proof.Machine.execStatusPageWrite s
  | .policyApplied => Sys2Proof.Machine.execPolicyApplied s
  | .softResetDiscard => Sys2Proof.Machine.execSoftResetDiscard s
  | .mainsReturnExpiry => Sys2Proof.Machine.execMainsReturnExpiry s
  | .quietTimerExpiry => Sys2Proof.Machine.execQuietTimerExpiry s
  | .dozeEntrySettled => Sys2Proof.Machine.execDozeEntrySettled s
  | .dozeReached => Sys2Proof.Machine.execDozeReached s
  | .dozeTimerExpiry => Sys2Proof.Machine.execDozeTimerExpiry s
  | .restartEnd => Sys2Proof.Machine.execRestartEnd s
  | .linkReceiverResync => Sys2Proof.Machine.execLinkReceiverResync s
  | .resetAsserted => Sys2Proof.Machine.execResetAsserted s

end Sys2Proof.Machine
end

