-- ==== Sys2Proof/Safety.lean ====
section
/-! DEFINITION. What counts as a sound state, in the terms the statements use: the invariants of the blocks, the state of a
part that is bypassed or still loading, the conditions under which no engine has work of its own, the read-ahead and the placement attempt
written out from the rules, and the layouts of 11.4 written out. -/

namespace Sys2Proof.Machine

/-! ### Invariants -/

/-- Both memories are in canonical form. -/
def MemoriesCanonical (s : State) : Prop := Memory.wf s.sram = true ∧ Memory.wf s.hold.cells = true

/-- A health value stays within 1 and 253 (R27). -/
abbrev healthOk (v : Nat) : Prop := 1 ≤ v ∧ v ≤ 253

/-- The counts and registers with a stated range hold a value of it (R27, R53, R107, R142, R165, R167). -/
def CountsInRange (s : State) : Prop :=
  healthOk s.health.sig ∧ healthOk s.health.txp ∧ healthOk s.health.rxa ∧ healthOk s.health.txe
    ∧ s.ring.takes.length ≤ Config.takePlaces
    ∧ s.bus.queue.length ≤ Config.queuePlaces ∧ s.bus.waitCount ≤ 4
    ∧ s.radio.failures ≤ 255 ∧ s.radio.grantQuality ≤ 31
    ∧ s.events.counters.length = 10 ∧ (∀ c ∈ s.events.counters, c.value ≤ 65535)
    ∧ s.events.entries.length = 11 ∧ (∀ e ∈ s.events.entries, ∀ x ∈ e, x.repeats ≤ 255)

/-- The credit stays within −8B and +8B of the burst size in force (R85, R97). -/
def CreditInRange (s : State) : Prop := -creditBound s ≤ s.pacer.credit ∧ s.pacer.credit ≤ creditBound s

/-- The record a Deliver Down payload fills, if any. -/
def receivingRecord (s : State) : List FrameRecord :=
  match s.radio.receiver with
  | .payload r => r.record.toList
  | _ => []

/-- Every frame record, in every place a record can stand (R67). -/
def allRecords (s : State) : List FrameRecord :=
  s.ring.takes.map (·.record) ++ receivingRecord s ++ s.hold.uqE ++ s.hold.uqV ++ s.hold.uqD ++ s.hold.dqV ++ s.hold.dqD
    ++ slotRecords s ++ (s.ring.delivery.map (·.record)).toList ++ s.hold.onLdo

/-- The free list and the cells of all records are the 256 cells, each once (R67). -/
def CellsAccounted (s : State) : Prop :=
  (s.hold.freeList ++ (allRecords s).flatMap (·.cells)).Perm (List.range Config.cellCount)

/-- Every block holds its reset values, but for what a part in pass-through may still see: the flash code, the data last
returned to the gateway, the power mode as it follows or keeps the line, the LEDs' place in their period, and the contents of
hold memory's cells. -/
def Blank (s : State) : Prop :=
  s.loader = { Loader.reset with phase := s.loader.phase, flashCode := s.loader.flashCode }
    ∧ s.bus = { BusPath.reset with gatewayData := s.bus.gatewayData }
    ∧ s.ring = RingAgent.reset ∧ s.health = Health.reset ∧ s.path = PathController.reset
    ∧ s.hold = HoldMemory.resetWith s.hold.cells ∧ s.pacer = Pacer.reset ∧ s.radio = RadioLink.reset
    ∧ s.power = { PowerUnit.resetWith false with mode := s.power.mode } ∧ s.power.mode ≠ .doze
    ∧ s.events = { EventUnit.reset with ledMs := s.events.ledMs }

/-- While RESET# is held and through the configuration load every block holds its reset values (R1, R145, R172). -/
def LoadBlank (s : State) : Prop := s.loader.phase ≠ .ended → Blank s

/-- The part is DISABLED after its load: BYPASS or an invalid image (R3, R174). -/
def Bypassed (s : State) : Prop := s.loader.phase = .ended ∧ 1 ≤ s.loader.flashCode ∧ s.loader.flashCode ≤ 7 ∧ Blank s

/-- In FIBRE and DISABLED no view and no guard stands, radio wanted is no and the return pause is off (R3, R4). -/
def FibreHoldsNothing (s : State) : Prop :=
  s.path.path = .fibre ∨ s.path.path = .disabled →
    s.bus.uplinkView = .off ∧ s.bus.receiveView = .off ∧ s.bus.txGuard = false ∧ s.bus.rxGuard = false
      ∧ s.path.radioWanted = false ∧ s.path.returnPause = false

/-- A return phase stands only in RETURNING (R1, R16, R19, R20, R24). -/
def PhaseInReturning (s : State) : Prop := s.path.phase ≠ none → s.path.path = .returning

/-- The mode is DOZE exactly in the doze steps DOZING and RESTARTING (R157, R160). -/
def DozeAgrees (s : State) : Prop :=
  s.power.mode = .doze ↔ (s.power.step = .dozing ∨ s.power.step = .restarting)

/-- Lower and upper limit hold. -/
abbrev within (lo hi v : Nat) : Prop := lo ≤ v ∧ v ≤ hi

/-- The limits of a health attribute's parameters (R28). -/
def ParamsInLimits (a : AttributeParams) : Prop :=
  within 1 253 a.p ∧ within 1 253 a.q ∧ within 1 252 a.t ∧ within 1 252 a.m

/-- Every ranged field of a policy lies in the range of R163, in the units of the block, and the waters are paired (R79). -/
def PolicyInLimits (p : Policy) : Prop :=
  within 10 3600 p.d0 ∧ within 5 100 p.releaseTimeout ∧ within 1 30 p.drainLimit
    ∧ ParamsInLimits p.sig ∧ ParamsInLimits p.txp ∧ ParamsInLimits p.rxa ∧ ParamsInLimits p.txe
    ∧ within 576 2047 p.frameLimit ∧ within 0 64 p.voiceReserve ∧ within 20 200 p.voiceLifetime
    ∧ within 1 120 p.dataHold ∧ within 1 100 p.downlinkHold
    ∧ within 16 192 p.highWater ∧ within 32 240 p.lowWater ∧ p.highWater + 16 ≤ p.lowWater
    ∧ within 1024 65535 p.burst ∧ within 0 255 p.overhead ∧ within 8 65535 p.reserveCap ∧ within 8 512 p.trickle
    ∧ within 0 65535 p.allowanceMiB ∧ within 0 600 p.linger ∧ within 0 4294967295 p.usageBase
    ∧ within 5 600 p.dozeDelay ∧ within 5 120 p.attachTimeout ∧ within 1 60 p.dozeWake

/-! ### Kinds of commands -/

/-- The two resets. -/
def isReset : Instr → Bool
  | .powerOnReset _ => true
  | .resetAsserted => true
  | _ => false

/-- The gateway write a command brings, if it brings one. -/
def writeOf : Instr → Option (Requester × Addr × List LaneWord)
  | .gatewayTransfer req (.write a ws) => some (req, a, ws)
  | .txpWordWrite req a ws => some (req, a, ws)
  | .txcWordWrite req a ws => some (req, a, ws)
  | .rxpWordWrite req a ws => some (req, a, ws)
  | .rxfWordWrite req a ws => some (req, a, ws)
  | .evcWordWrite req a ws => some (req, a, ws)
  | .pgenWordWrite req a ws => some (req, a, ws)
  | .txRingCompletionWrite a ws => some (.u, a, ws)
  | .staleUplinkWrite a ws => some (.u, a, ws)
  | _ => none

/-- The gateway read a command brings, if it brings one. -/
def readOf : Instr → Option (Requester × Addr × BurstLen)
  | .gatewayTransfer req (.read a len) => some (req, a, len)
  | .uReadTxpWord a len => some (.u, a, len)
  | .uReadRxpWord a len => some (.u, a, len)
  | _ => none

/-- A command at which the head of the master queue may be carried. -/
def carriesMaster : Instr → Bool
  | .shadowReadsCarried => true
  | .masterTransferCarried => true
  | .priorityScanReadReturn => true
  | .descriptorReadReturn => true
  | .takeEnd => true
  | .deliveryDescriptorRead => true
  | .handBack => true
  | .policyApplied => true
  | _ => false

/-- A command at which some transfer may be carried to the SRAM. -/
def movesBus (c : Instr) : Bool := (writeOf c).isSome || (readOf c).isSome || carriesMaster c

/-- A command that may store bytes in hold memory: a frame read returns, or a Deliver Down payload ends. -/
def fillsCells : Instr → Bool
  | .deliverDownEnd _ => true
  | c => movesBus c

/-- A reset, the end of the configuration load, or a command at which some transfer may be carried. -/
def startsOrCarries : Instr → Bool
  | .powerOnReset _ => true
  | .resetAsserted => true
  | .configurationLoadEnd _ _ _ => true
  | c => movesBus c

/-- A command that may move the lines: the resets, the end of the load (BYPASS), the line commands, the begin commands of
LDO (MRDY as the arbiter finds it) and the restart (RI). -/
def movesLine : Instr → Bool
  | .powerOnReset _ => true
  | .resetAsserted => true
  | .configurationLoadEnd _ _ _ => true
  | .losLinkChange _ _ => true
  | .offhookAssert => true
  | .offhookDeassert => true
  | .mainsLostAssert => true
  | .mainsLostDeassert => true
  | .riAssert => true
  | .attachRequest _ => true
  | .detachRequest _ => true
  | .sendUp _ => true
  | .pauseDown _ => true
  | .resumeDown _ => true
  | .downCap _ => true
  | .lowPower _ => true
  | .restartEnd => true
  | _ => false

/-- A command that may move the power mode (R154, R155, R157, R160). -/
def movesMode : Instr → Bool
  | .powerOnReset _ => true
  | .resetAsserted => true
  | .mainsLostAssert => true
  | .mainsLostDeassert => true
  | .mainsReturnExpiry => true
  | .dozeReached => true
  | .restartEnd => true
  | _ => false

/-- A command that may count an attach failure or clear the count (R113, R114); the restart acts on recorded expiries. -/
def countsFailure : Instr → Bool
  | .moduleReady => true
  | .attachResult _ => true
  | .startTimerExpiry => true
  | .attachTimerExpiry => true
  | .restartEnd => true
  | _ => false

/-- A command that may move what the module has been told (R109, R123, R124). -/
def tellsModule : Instr → Bool
  | .moduleReady => true
  | .pauseDown _ => true
  | .resumeDown _ => true
  | .downCap _ => true
  | .lowPowerSent => true
  | _ => false

/-! ### Conditions on a state -/

/-- The six watched words have six addresses (R173 check 5). -/
abbrev watchedApart (m : MemoryMap) : Prop :=
  [watchedAddr m .txp, watchedAddr m .txc, watchedAddr m .rxp, watchedAddr m .rxf, watchedAddr m .evc, watchedAddr m .pgen].Nodup

/-- The word a one-word transfer at `a` stands on is the watched word `w`. -/
abbrev onWatched (m : MemoryMap) (w : Watched) (a : Addr) : Prop := a.toNat / 4 * 4 = watchedAddr m w

/-- No request of a block waits for the master and the take window is empty: no take, completion or TXC write arises. -/
abbrev ringIdle (s : State) : Prop := s.bus.waiting = [] ∧ s.ring.window = []

/-- No engine has work of its own to begin: besides `ringIdle`, no downlink frame waits for delivery, no scan is due and no
hand-back is due. -/
abbrev atRest (s : State) : Prop :=
  ringIdle s ∧ s.hold.dqV = [] ∧ s.hold.dqD = [] ∧ s.ring.scanRunning = false ∧ scanWanted s = false
    ∧ s.path.phase ≠ some .closing ∧ s.loader.softReset ≠ .completing

/-- What is being sent on LDO, but for the mark of a Low Power on, which is as in `t`. -/
def ldoAside (s t : State) : Option Sending :=
  match s.radio.ldo with
  | some (.lowPower true _) => t.radio.ldo
  | k => k

/-- `s` with the three things every command's end may move by R157: the doze step, a pending Low Power item and the mark of a Low
Power on being sent, as in `t`. -/
def dozeAside (s t : State) : State :=
  { s with power.step := t.power.step, radio.items.lowPower := t.radio.items.lowPower, radio.ldo := ldoAside s t }

/-! ### Read-ahead and placement attempts, written out from the rules -/

/-- Where the effective producer stands: the TXP count while it lies within a ring's size of the consumer reference, else that size past it (R49). -/
abbrev producerHeld (ref txp : Count) (size : Nat) : Count := if dist ref txp ≤ size then txp else ref + BitVec.ofNat 16 size

/-- The Ring Agent may read position `p` with no fence: the conditions of R49 on the window base, the consumer reference, the TXP count and the
ring size. That the base lying at or beyond the effective producer is measured from the consumer reference is the model's choice (log 56). -/
abbrev positionReadable (base ref txp : Count) (size : Nat) (p : Count) : Prop :=
  dist base p < min 32 size ∧ dist base p < dist base (producerHeld ref txp size) ∧ dist ref p < size
    ∧ dist ref base < dist ref (producerHeld ref txp size)

/-- How many positions the next descriptor read covers from `mark` on: four, two or one that may be read, their slots before the ring's end; 0 when
none may be read (R51). -/
def positionsToRead (base ref txp : Count) (size : Nat) (mark : Count) : Nat :=
  if (∀ i < 4, positionReadable base ref txp size (mark + BitVec.ofNat 16 i)) ∧ mark.toNat % size + 4 ≤ size then 4
  else if (∀ i < 2, positionReadable base ref txp size (mark + BitVec.ofNat 16 i)) ∧ mark.toNat % size + 2 ≤ size then 2
  else if positionReadable base ref txp size mark then 1 else 0

/-- The descriptor read of `n` positions from `mark` on: 16, 8 or 4 words at the slot of the first (R43, R44, R51). -/
def readOfPositions (m : MemoryMap) (mark : Count) (n : Nat) : MasterTransfer :=
  ⟨.descriptorRead mark n, .read (BitVec.ofNat 24 (m.txBase + 16 * (mark.toNat % m.txSize))) (if n = 4 then .sixteen else if n = 2 then .eight else .four)⟩

/-- The ring under whose raised guard a word of a U write is dropped: the transmit ring's region and the TXC word, the receive ring's region and the
RXF word (R148). -/
def dropsUnder (m : MemoryMap) (s : State) (x : Nat) : Ring → Prop
  | .transmit => s.bus.txGuard = true ∧ ((m.txBase ≤ x ∧ x < m.txBase + 16 * m.txSize) ∨ x = watchedAddr m .txc)
  | .receive => s.bus.rxGuard = true ∧ ((m.rxBase ≤ x ∧ x < m.rxBase + 16 * m.rxSize) ∨ x = watchedAddr m .rxf)

/-- The command brings a placement attempt, which finds the credit at `k` (R87, R88, R90): the end of the refusal pause, or a pacing expiry outside
the pause after its refill. -/
def AttemptAt (c : Instr) (k : Int) (s : State) : Prop :=
  (c = .refusalPauseEnd ∧ s.pacer.refusalPause.isSome = true ∧ k = s.pacer.credit)
    ∨ (c = .pacingTimerExpiry ∧ s.pacer.pacing.isSome = true ∧ s.pacer.refusalPause = none
        ∧ k = min (8 * (s.loader.policy.burst : Int)) (s.pacer.credit + (if s.radio.state ≠ .attached ∨ s.pacer.grantSeen = false then 0
          else min (if s.power.mode = .mains then s.radio.grantUp else min s.radio.grantUp s.loader.policy.reserveCap)
                   (if s.pacer.allowance = .exhausted then s.loader.policy.trickle else s.radio.grantUp) : Nat)))

/-- A head of an uplink queue may go on a credit of `k`: data when `k` covers its cost, voice when `k` less its cost is at or above −8B (R91). -/
def mayGoOn (s : State) (k : Int) (r : FrameRecord) : Prop :=
  if r.cls = .data then (frameCost s r.length : Int) ≤ k else -(8 * (s.loader.policy.burst : Int)) ≤ k - (frameCost s r.length : Int)

/-- A voice record has outlived the voice lifetime (R73). -/
abbrev outlived (s : State) (r : FrameRecord) : Bool := decide (s.loader.policy.voiceLifetime < ageOf s.clock r.time)

/-- The three uplink queues in the order of R91: UQ-E, UQ-V, UQ-D. -/
abbrev UplinkQueues := List FrameRecord × List FrameRecord × List FrameRecord

/-- The uplink queues of a state. -/
abbrev uplinkQueues (s : State) : UplinkQueues := (s.hold.uqE, s.hold.uqV, s.hold.uqD)

/-- The queues after an examination has given up the expired heads of UQ-E, and of UQ-V once UQ-E is empty (R73, R91). -/
def examined (s : State) (q : UplinkQueues) : UplinkQueues :=
  let e := q.1.dropWhile (outlived s)
  (e, if e = [] then q.2.1.dropWhile (outlived s) else q.2.1, q.2.2)

/-- The records an examination gives up, in their order (R73). -/
def givenUp (s : State) (q : UplinkQueues) : List FrameRecord :=
  q.1.takeWhile (outlived s) ++ if q.1.dropWhile (outlived s) = [] then q.2.1.takeWhile (outlived s) else []

/-- The head of the first queue that has one (R91). -/
def headOf (q : UplinkQueues) : Option FrameRecord := (q.1 ++ q.2.1 ++ q.2.2).head?

/-- The queues once that head has left its queue. -/
def behindHead (q : UplinkQueues) : UplinkQueues :=
  if q.1 ≠ [] then (q.1.tail, q.2.1, q.2.2) else if q.2.1 ≠ [] then ([], q.2.1.tail, q.2.2) else ([], [], q.2.2.tail)

/-- The return decision does not hold: the call pin is set, or the override is Radio Now, or Automatic with the dwell timer not MET, or Fibre Only
with the priority timer running (R14). -/
abbrev returnBarred (s : State) : Prop :=
  s.pins.offhook = true ∨ s.loader.policy.pathOverride = .radioNow ∨ (s.loader.policy.pathOverride = .automatic ∧ s.path.dwell ≠ .met)
    ∨ (s.loader.policy.pathOverride = .fibreOnly ∧ s.path.priorityTimer ≠ none)

/-- The command is one of the three that fail an attach in ATTACHING, with its last failure cause (R114). -/
def FailsAttach (c : Instr) (cause : Nat) (s : State) : Prop :=
  (∃ tag : Byte, c = .attachResult tag ∧ receiverReady s = true ∧ tag ≠ 0 ∧ tag.toNat ≤ 15 ∧ cause = tag.toNat)
    ∨ (c = .attachTimerExpiry ∧ s.radio.attachTimer.isSome = true ∧ s.power.mode ≠ .doze ∧ cause = 16)
    ∨ (c = .moduleReady ∧ receiverReady s = true ∧ cause = 18)

/-- The pending entry of an event kind. -/
def entryOfKind (s : State) (k : EventKind) : Option EventEntry := (s.events.entries.getD (kindPriority k - 1) none)

/-- The detail the pending entry of a kind holds. -/
def detailOfKind (s : State) (k : EventKind) : Option EventDetail := (entryOfKind s k).map (·.detail)

/-- The value of a counter. -/
def counterOf (s : State) (c : CounterName) : Counter := s.events.counters.getD (counterIndex c) ⟨0, false⟩

/-! ### The layouts of 11.4, written out for the statements

The loader and the Event and Status Unit have readers and writers of their own (Machine/Operands.lean). What follows gives the same layouts
once more from the tables of the manual, byte by byte, and uses none of those. -/

/-- Byte `i` of a list of bytes, as a number. -/
def byteIn (bs : List Byte) (i : Nat) : Nat := (bs.getD i 0).toNat

/-- Two bytes from `i` on, the lowest-addressed least significant. -/
def pairIn (bs : List Byte) (i : Nat) : Nat := byteIn bs i + 256 * byteIn bs (i + 1)

/-- Four bytes from `i` on, the lowest-addressed least significant. -/
def quadIn (bs : List Byte) (i : Nat) : Nat := pairIn bs i + 65536 * pairIn bs (i + 2)

/-- What a master read of `n` bytes at `a` returns: the bytes of packet memory from the aligned word on (log 9), wrapping at the top (log 22). -/
def bytesRead (m : Memory) (a : Addr) (n : Nat) : List Byte :=
  (List.range n).map fun i => memRead m ((a.toNat / 4 * 4 + i) % 16777216)

/-- The memory map of an image (11.4, Configuration image). -/
def imageMap (img : List Byte) : MemoryMap where
  txBase := quadIn img 4
  txSize := pairIn img 8
  rxSize := pairIn img 10
  rxBase := quadIn img 12
  eventBase := quadIn img 16
  eventSize := byteIn img 20
  policyBase := quadIn img 24
  pageBase := quadIn img 28
  txpAddr := quadIn img 32
  txcAddr := quadIn img 36
  rxpAddr := quadIn img 40
  rxfAddr := quadIn img 44
  evcAddr := quadIn img 48
  pgenAddr := quadIn img 52

/-- The five regions of check 4, base and bytes, a ring descriptor and an event record taking 16 bytes. -/
def imageRegions (img : List Byte) : List (Nat × Nat) :=
  [(quadIn img 4, 16 * pairIn img 8), (quadIn img 12, 16 * pairIn img 10), (quadIn img 16, 16 * byteIn img 20), (quadIn img 24, 128),
    (quadIn img 28, 128)]

/-- Where the six watched words of an image stand, in the order of 11.4; one given past the top of packet memory wraps (log 22). -/
def imageWords (img : List Byte) : List Nat := [32, 36, 40, 44, 48, 52].map fun i => quadIn img i % 16777216

/-- The byte at `x` lies in a region. -/
def inRegion (x : Nat) (r : Nat × Nat) : Prop := r.1 ≤ x ∧ x < r.1 + r.2

/-- The image fails a check of R173; `k` says whether the read was acknowledged to its end. An image of another length than 2048 counts as one that
was not (log 36). -/
def ImageFails (k : Bool) (img : List Byte) : Nat → Prop
  | 1 => k = false ∨ img.length ≠ 2048 ∨ pairIn img 0 ≠ 0x3140
  | 2 => pairIn img 8 ∉ [16, 32, 64, 128, 256, 512, 1024] ∨ pairIn img 10 ∉ [16, 32, 64, 128, 256, 512, 1024] ∨ byteIn img 20 ∉ [8, 16, 32, 64]
  | 3 => (∃ i ∈ [4, 12, 16], quadIn img i % 16 ≠ 0) ∨ (∃ i ∈ [24, 28, 32, 36, 40, 44, 48, 52], quadIn img i % 4 ≠ 0)
  | 4 => (∃ r ∈ imageRegions img, 16777216 < r.1 + r.2) ∨ ¬ (imageRegions img).Pairwise fun a b => ∀ x, ¬ (inRegion x a ∧ inRegion x b)
  | 5 => ¬ (imageWords img).Nodup ∨ ∃ x ∈ imageWords img, ∃ r ∈ imageRegions img, inRegion x r
  | 6 => byteIn img 2 < 1 ∨ 26 < byteIn img 2
  | _ => False

/-- A value set to the limit it passes (R163). -/
def limited (lo hi v : Nat) : Nat := max lo (min hi v)

/-- The parameters p, q, t, m of an attribute, one byte each from `i` on, limited (R28, 11.4). -/
def blockParams (bs : List Byte) (i : Nat) : AttributeParams where
  p := limited 1 253 (byteIn bs i)
  q := limited 1 253 (byteIn bs (i + 1))
  t := limited 1 252 (byteIn bs (i + 2))
  m := limited 1 252 (byteIn bs (i + 3))

/-- The policy of the block that begins at byte `o`: every field at its place of 11.4, brought into its range of R163 in the units of the block, a
code above its last taken as the last, and L_d paired with H_d (R79). -/
def blockPolicy (bs : List Byte) (o : Nat) : Policy where
  d0 := limited 10 3600 (pairIn bs o)
  releaseTimeout := limited 5 100 (byteIn bs (o + 2))
  drainLimit := limited 1 30 (byteIn bs (o + 3))
  pathOverride := if byteIn bs (o + 4) = 0 then .automatic else if byteIn bs (o + 4) = 1 then .fibreOnly else .radioNow
  eventMask := BitVec.ofNat 16 (pairIn bs (o + 6))
  sig := blockParams bs (o + 8)
  txp := blockParams bs (o + 12)
  rxa := blockParams bs (o + 16)
  txe := blockParams bs (o + 20)
  frameLimit := limited 576 2047 (pairIn bs (o + 24))
  voiceReserve := limited 0 64 (byteIn bs (o + 26))
  voiceLifetime := limited 20 200 (byteIn bs (o + 27))
  dataHold := limited 1 120 (byteIn bs (o + 28))
  downlinkHold := limited 1 100 (byteIn bs (o + 29))
  highWater := limited 16 192 (byteIn bs (o + 30))
  lowWater :=
    if limited 32 240 (byteIn bs (o + 31)) < limited 16 192 (byteIn bs (o + 30)) + 16 then min (limited 16 192 (byteIn bs (o + 30)) + 16) 240
    else limited 32 240 (byteIn bs (o + 31))
  burst := limited 1024 65535 (pairIn bs (o + 32))
  overhead := byteIn bs (o + 34)
  warm := byteIn bs (o + 35) != 0
  reserveCap := limited 8 65535 (pairIn bs (o + 36))
  trickle := limited 8 512 (pairIn bs (o + 38))
  allowanceMiB := pairIn bs (o + 40)
  linger := limited 0 600 (pairIn bs (o + 42))
  usageBase := quadIn bs (o + 44)
  dozeDelay := limited 5 600 (pairIn bs (o + 48))
  attachTimeout := limited 5 120 (byteIn bs (o + 50))
  dozeWake := limited 1 60 (byteIn bs (o + 51))

/-- The fields of a block that can lie outside their range, each with its value and its limits (R163, 11.4). The other fields, h, A and the usage
base, take every value their bytes hold. -/
def rangedFields (bs : List Byte) : List (Nat × Nat × Nat) :=
  [(pairIn bs 0, 10, 3600), (byteIn bs 2, 5, 100), (byteIn bs 3, 1, 30), (byteIn bs 4, 0, 2)]
    ++ [8, 12, 16, 20].flatMap (fun i =>
      [(byteIn bs i, 1, 253), (byteIn bs (i + 1), 1, 253), (byteIn bs (i + 2), 1, 252), (byteIn bs (i + 3), 1, 252)])
    ++ [(pairIn bs 24, 576, 2047), (byteIn bs 26, 0, 64), (byteIn bs 27, 20, 200), (byteIn bs 28, 1, 120), (byteIn bs 29, 1, 100),
      (byteIn bs 30, 16, 192), (byteIn bs 31, 32, 240), (pairIn bs 32, 1024, 65535), (byteIn bs 35, 0, 1), (pairIn bs 36, 8, 65535),
      (pairIn bs 38, 8, 512), (pairIn bs 42, 0, 600), (pairIn bs 48, 5, 600), (byteIn bs 50, 5, 120), (byteIn bs 51, 1, 60)]

/-- How many fields of a block are clamped: each one outside its range, and the pairing when it changes L_d (R163, R79). -/
def clampedFields (bs : List Byte) : Nat :=
  ((rangedFields bs).filter fun f => f.1 < f.2.1 || f.2.2 < f.1).length
    + if limited 32 240 (byteIn bs 31) < limited 16 192 (byteIn bs 30) + 16 then 1 else 0

/-- The control field asks for a soft reset: byte 5, bit 0 (11.4). -/
def softResetAsked (bs : List Byte) : Bool := byteIn bs 5 % 2 == 1

/-- The control field asks for a counter clear: byte 5, bit 1 (11.4). -/
def counterClearAsked (bs : List Byte) : Bool := byteIn bs 5 / 2 % 2 == 1

/-- A word of four bytes, the lowest-addressed first, all lanes enabled. -/
def fourBytes (b0 b1 b2 b3 : Nat) : LaneWord :=
  ⟨BitVec.ofNat 32 (b0 % 256 + 256 * (b1 % 256) + 65536 * (b2 % 256) + 16777216 * (b3 % 256)), 15⟩

/-- The number of an event's kind: its priority (R167). -/
def eventNumber : EventDetail → Nat
  | .emergencyAttach _ _ => 1
  | .pathChange _ _ _ => 2
  | .radioUnavailable _ _ => 3
  | .fibreVerdict _ _ _ _ _ _ => 4
  | .allowance _ _ _ _ => 5
  | .voiceLoss _ => 6
  | .dataLoss _ => 7
  | .staleUplinkWrite _ _ => 8
  | .producerOverrun _ _ => 8
  | .powerMode _ _ _ => 9
  | .policyApplied _ _ => 10
  | .softResetDone _ _ _ => 11

/-- The path state codes: DISABLED 0 to RETURNING 5 (11.4). -/
def pathNumber (p : PathState) : Nat := [PathState.disabled, .fibre, .takeover, .radio, .held, .returning].idxOf p

/-- The cause codes of a Path Change, from 1 (R23). -/
def pathCauseNumber (c : PathCause) : Nat :=
  1 + [PathCause.verdict, .radioNow, .priority, .attached, .attachFailed, .radioLost, .dwellMet, .fibreOnly, .interruptedByVerdict,
    .interruptedByRadioNow, .handedBack, .softReset].idxOf c

/-- The radio state codes: OFF 0 to BACKOFF 5, in the order of R107 (11.4). -/
def radioNumber (r : RadioState) : Nat := [RadioState.off, .starting, .detached, .attaching, .attached, .backoff].idxOf r

/-- The power mode codes: MAINS 0, RESERVE 1, DOZE 2 (11.4). -/
def powerNumber (m : PowerMode) : Nat := [PowerMode.mains, .reserve, .doze].idxOf m

/-- The allowance state codes: NORMAL 0, WARNED 1, EXHAUSTED 2 (11.4). -/
def allowanceNumber (a : Allowance) : Nat := [Allowance.normal, .warned, .exhausted].idxOf a

/-- The detail bytes of a loss; a position of none is written as 0 (11.4, log 32), an age past 65535 as 65535 (R78). -/
def lossOctets (l : LossDetail) : List Nat :=
  let pos := (l.position.getD 0).toNat
  let age := min l.ageMs 65535
  [1 + [LossReason.expired, .refused, .noCells, .incomplete, .discardedAtReturn, .fibrePath].idxOf l.reason,
    [Direction.uplink, .downlink].idxOf l.direction, [FrameClass.data, .voice, .voicePriority].idxOf l.cls, 0, pos, pos / 256, age, age / 256]

/-- The detail of an event record from byte 8 on, each number modulo 256; a byte not listed is zero (11.4, Event record). -/
def detailOctets : EventDetail → List Nat
  | .emergencyAttach n cause => [n, cause]
  | .pathChange left entered cause => [pathNumber left, pathNumber entered, pathCauseNumber cause]
  | .radioUnavailable cause n => [cause, n]
  | .fibreVerdict v a sig txp rxa txe =>
      [[Verdict.healthy, .unhealthy].idxOf v, [none, some Attribute.sig, some .txp, some .rxa, some .txe].idxOf a, sig, txp, rxa, txe]
  | .allowance left entered cause usage =>
      [allowanceNumber left, allowanceNumber entered, [AllowanceCause.count, .policy, .startUp].idxOf cause, 0, usage, usage / 256, usage / 65536,
        usage / 16777216]
  | .voiceLoss l => lossOctets l
  | .dataLoss l => lossOctets l
  | .staleUplinkWrite r a => [1, [Ring.transmit, .receive].idxOf r, 0, 0, a.toNat, a.toNat / 256, a.toNat / 65536]
  | .producerOverrun r c => [2, [Ring.transmit, .receive].idxOf r, 0, 0, c.toNat, c.toNat / 256]
  | .powerMode left entered cause => [left.toNat, powerNumber entered, [PowerCause.mainsLost, .mainsReturned, .startUp].idxOf cause]
  | .policyApplied n pgen => [n, 0, 0, 0, pgen.toNat, pgen.toNat / 256, pgen.toNat / 65536, pgen.toNat / 16777216]
  | .softResetDone up down positions => [up, up / 256, down, down / 256, positions, positions / 256]

/-- The four words of an event record: the kind, the repeat count and two zero bytes; the first timestamp; the detail (11.4, Event record). -/
def eventRecord (e : EventEntry) : List LaneWord :=
  let d := fun i => (detailOctets e.detail).getD i 0
  [fourBytes (eventNumber e.detail) e.repeats 0 0, ⟨e.stamp, 15⟩, fourBytes (d 0) (d 1) (d 2) (d 3), fourBytes (d 4) (d 5) (d 6) (d 7)]

end Sys2Proof.Machine
end

