-- ==== Sys2Proof/Certificates/Slice0/Obligations.lean ====
section
/-! DEFINITION. The statements for the provers, one proposition each: what every command does to the state, what the kinds
of commands leave, and the invariants that every step keeps. A clause that begins with `exec … = .next …` or with `∃ t, exec … = .next t` also
says that the command answers a next state under its hypotheses. -/

open Sys2Proof Sys2Proof.Machine

/-- A step takes the command at the front of the queue (95_what_each_step_holds.md: a step is one event). -/
def Obligations.StepRunsFrontCommand : Prop :=
  ∀ (c : Instr) (rest : List Instr) (s : State), step { s with pending := c :: rest } = exec c { s with pending := rest }

/-- The millisecond on an empty queue is the model's choice (log 2), and so is the counting of the LEDs' period (log 37); the clock runs from the
release of RESET# (R172), the grant silence timer is held in DOZE (R124), and the DISABLED pattern is R174's. Every register that is neither a timer
nor the LEDs' count stands: each record of the state is the one before, its timers aside. -/
def Obligations.EmptyQueuePassesMillisecond : Prop :=
  ∀ s : State, s.pending = [] → ∃ t, step s = .next t
    ∧ (s.loader.phase = .heldInReset → t = s)
    ∧ (s.loader.phase = .loading → t = { s with clock := s.clock + 1 })
    ∧ (s.loader.phase = .ended → t.clock = s.clock + 1 ∧ t.sram = s.sram ∧ t.pins = s.pins
        ∧ t.draws = s.draws ∧ t.loader = { s.loader with softWait := t.loader.softWait } ∧ t.bus = s.bus ∧ t.ring = s.ring
        ∧ t.health = { s.health with timer100 := t.health.timer100, timer1s := t.health.timer1s }
        ∧ t.path = { s.path with
            dwell := t.path.dwell, refallTimer := t.path.refallTimer, releaseTimer := t.path.releaseTimer,
            drainTimer := t.path.drainTimer, priorityTimer := t.path.priorityTimer }
        ∧ t.hold = { s.hold with sweep10 := t.hold.sweep10, sweep1s := t.hold.sweep1s }
        ∧ t.pacer = { s.pacer with pacing := t.pacer.pacing, refusalPause := t.pacer.refusalPause }
        ∧ t.radio = { s.radio with
            startTimer := t.radio.startTimer, cycleTimer := t.radio.cycleTimer, attachTimer := t.radio.attachTimer,
            backoffTimer := t.radio.backoffTimer, silenceTimer := t.radio.silenceTimer, lingerTimer := t.radio.lingerTimer,
            mrstTimer := t.radio.mrstTimer, slotA := t.radio.slotA, slotB := t.radio.slotB }
        ∧ t.radio.slotA = s.radio.slotA.map (fun b => { b with timer := slotTimer t.radio.slotA })
        ∧ t.radio.slotB = s.radio.slotB.map (fun b => { b with timer := slotTimer t.radio.slotB })
        ∧ t.power = { s.power with
            mainsReturn := t.power.mainsReturn, quiet := t.power.quiet, dozeTimer := t.power.dozeTimer, restart := t.power.restart }
        ∧ t.events = { s.events with refreshTimer := t.events.refreshTimer, ledMs := t.events.ledMs }
        ∧ (∀ p ∈ [((fun u : State => u.health.timer100), Instr.health100msExpiry), ((fun u => u.health.timer1s), .health1sExpiry),
          ((fun u => u.path.releaseTimer), .releaseTimerExpiry), ((fun u => u.path.drainTimer), .drainTimerExpiry),
          ((fun u => u.path.refallTimer), .refallTimerExpiry), ((fun u => u.path.priorityTimer), .priorityTimerExpiry),
          ((fun u => u.pacer.pacing), .pacingTimerExpiry), ((fun u => u.pacer.refusalPause), .refusalPauseEnd),
          ((fun u => u.hold.sweep10), .sweep10ms), ((fun u => u.hold.sweep1s), .sweep1s),
          ((fun u => u.events.refreshTimer), .statusRefreshExpiry), ((fun u => u.power.mainsReturn), .mainsReturnExpiry),
          ((fun u => u.power.dozeTimer), .dozeTimerExpiry), ((fun u => u.power.restart), .restartEnd),
          ((fun u => u.radio.mrstTimer), .moduleResetRelease), ((fun u => u.radio.startTimer), .startTimerExpiry),
          ((fun u => u.radio.cycleTimer), .cycleTimerExpiry), ((fun u => u.radio.attachTimer), .attachTimerExpiry),
          ((fun u => u.radio.backoffTimer), .backoffTimerExpiry), ((fun u => u.radio.lingerTimer), .lingerTimerExpiry),
          ((fun u => slotTimer u.radio.slotA), .sendResultTimeout .a), ((fun u => slotTimer u.radio.slotB), .sendResultTimeout .b),
          ((fun u => u.loader.softWait), .softResetDiscard)],
          (∀ n, p.1 s = some (n + 2) → p.1 t = some (n + 1) ∧ p.2 ∉ t.pending)
          ∧ (p.1 s = some 1 → p.2 ∈ t.pending) ∧ (p.1 s = none → p.1 t = none ∧ p.2 ∉ t.pending))
        ∧ (∀ n, s.path.dwell = .running (n + 2) → t.path.dwell = .running (n + 1) ∧ Instr.dwellTimerExpiry ∉ t.pending)
        ∧ (s.path.dwell = .running 1 → Instr.dwellTimerExpiry ∈ t.pending)
        ∧ (s.path.dwell = .stopped ∨ s.path.dwell = .met → t.path.dwell = s.path.dwell ∧ Instr.dwellTimerExpiry ∉ t.pending)
        ∧ (∀ n, s.power.quiet = .running (n + 2) → t.power.quiet = .running (n + 1) ∧ Instr.quietTimerExpiry ∉ t.pending)
        ∧ (s.power.quiet = .running 1 → Instr.quietTimerExpiry ∈ t.pending)
        ∧ (s.power.quiet = .stopped ∨ s.power.quiet = .runOut → t.power.quiet = s.power.quiet ∧ Instr.quietTimerExpiry ∉ t.pending)
        ∧ (s.power.mode = .doze → t.radio.silenceTimer = s.radio.silenceTimer ∧ Instr.grantSilenceExpiry ∉ t.pending)
        ∧ (∀ n, s.power.mode ≠ .doze → s.radio.silenceTimer = some (n + 2) →
            t.radio.silenceTimer = some (n + 1) ∧ Instr.grantSilenceExpiry ∉ t.pending)
        ∧ (s.power.mode ≠ .doze → s.radio.silenceTimer = some 1 → Instr.grantSilenceExpiry ∈ t.pending)
        ∧ (s.radio.silenceTimer = none → t.radio.silenceTimer = none ∧ Instr.grantSilenceExpiry ∉ t.pending)
        ∧ t.events.ledMs = (s.events.ledMs + 1) % (if s.path.path = .disabled then 300 * s.loader.flashCode + 2000 else 1000)
        ∧ (s.path.path = .disabled →
          (pathLedLit t = true ↔ t.power.mode ≠ .doze ∧ t.events.ledMs < 300 * s.loader.flashCode ∧ t.events.ledMs % 300 < 100)))

/-- The frame of every command over the whole part (R141, R150: memory changes at carriages; R176: the loaded configuration stands). -/
def Obligations.ExecKeepsQueueClockMemoriesMap : Prop :=
  ∀ (c : Instr) (s : State), ∃ t, exec c s = .next t ∧ t.pending = s.pending
    ∧ (isReset c = false → t.clock = s.clock)
    ∧ (isReset c = false → movesBus c = false → t.sram = s.sram)
    ∧ (fillsCells c = false → t.hold.cells = s.hold.cells)
    ∧ (isReset c = false → (∀ k b i, c ≠ .configurationLoadEnd k b i) →
        t.loader.map = s.loader.map ∧ t.loader.defaultPolicy = s.loader.defaultPolicy ∧ t.loader.linkClock = s.loader.linkClock)
    ∧ ((∀ p, c ≠ .powerOnReset p) → t.pins.intPolarity = s.pins.intPolarity)

/-- The frame of every command over the registers with few writers (R107, R117, R123, R142, R146, R154, R163, R166). The counter of free values
drawn is the model's own (log 8); that the begin commands bring MRDY's level and the restart's end clears RI is the model's (logs 17, 33). -/
def Obligations.OnlyTheirCommandsMoveRegisters : Prop :=
  ∀ (c : Instr) (s : State), ∃ t, exec c s = .next t
    ∧ (movesLine c = false → t.pins = s.pins)
    ∧ (movesMode c = false → t.power.mode = s.power.mode)
    ∧ (isReset c = false → t.draws = s.draws)
    ∧ (startsOrCarries c = false → t.loader.policy = s.loader.policy ∧ t.bus.shadows = s.bus.shadows
        ∧ t.bus.txHorizon = s.bus.txHorizon ∧ t.bus.rxHorizon = s.bus.rxHorizon ∧ t.pacer.usageBase = s.pacer.usageBase)
    ∧ (startsOrCarries c = false → (∀ u d q, c ≠ .grantReport u d q) →
        t.radio.grantUp = s.radio.grantUp ∧ t.radio.grantDown = s.radio.grantDown ∧ t.radio.grantQuality = s.radio.grantQuality)
    ∧ (startsOrCarries c = false → countsFailure c = false → t.radio.failures = s.radio.failures ∧ t.radio.lastCause = s.radio.lastCause)
    ∧ (startsOrCarries c = false → tellsModule c = false →
        t.radio.pauseTold = s.radio.pauseTold ∧ t.radio.capTold = s.radio.capTold ∧ t.radio.lowPowerTold = s.radio.lowPowerTold)
    ∧ (startsOrCarries c = false → c ≠ .statusPageWrite → c ≠ .dozeEntrySettled → t.events.refreshCount = s.events.refreshCount)

/-- DISABLED lasts until the next reset (R3, R145, R174). The values Blank compares with include the model's own (log 7). -/
def Obligations.DisabledLasts : Prop :=
  ∀ s : State, Bypassed s → (∀ c ∈ s.pending.head?, isReset c = false) → ∃ t, step s = .next t ∧ Bypassed t

/-- The memory master issues nothing in DOZE (R152). -/
def Obligations.DozeIssuesNothing : Prop :=
  ∀ (c : Instr) (s : State), s.power.mode = .doze →
    ∃ t, exec c s = .next t ∧ (t.power.mode = .doze → t.bus.queue <:+ s.bus.queue)

/-- The canonical form of the two memories is the model's (log 5); the memories are those of R68 and R141. -/
def Obligations.MemoriesStayCanonical : Prop :=
  ∀ s t : State, step s = .next t → MemoriesCanonical s → MemoriesCanonical t

/-- The ranges of R27, R53, R107, R117, R150, R151, R165 and R167, kept by every step. -/
def Obligations.CountsStayInRange : Prop :=
  ∀ s t : State, step s = .next t → CountsInRange s → CountsInRange t

/-- C runs from −8B to +8B (R85), whatever step is taken. -/
def Obligations.CreditStaysWithinBurst : Prop :=
  ∀ s t : State, step s = .next t → CreditInRange s → CreditInRange t

/-- The free count plus the cells of all records is 256, and no cell belongs to two (R67). -/
def Obligations.CellsStayAccounted : Prop :=
  ∀ s t : State, step s = .next t → CellsAccounted s → CellsAccounted t

/-- Through the load every block holds its power-on values (R172, R1, R145); the values compared with include the model's own (log 7). -/
def Obligations.LoadStaysBlank : Prop :=
  ∀ s t : State, step s = .next t → LoadBlank s → LoadBlank t

/-- In FIBRE and DISABLED no view or guard stands, radio wanted is no, the return pause off (R3, R4, R152). -/
def Obligations.FibreHoldsNothingStays : Prop :=
  ∀ s t : State, step s = .next t → LoadBlank s ∧ FibreHoldsNothing s → LoadBlank t ∧ FibreHoldsNothing t

/-- Every policy in force has been clamped and paired (R163, R79, R175). -/
def Obligations.PolicyStaysInLimits : Prop :=
  ∀ s t : State, step s = .next t → PolicyInLimits s.loader.policy → PolicyInLimits t.loader.policy

/-- The mode becomes DOZE with the step DOZING (R157) and leaves it at the end of RESTARTING (R160). -/
def Obligations.DozeModeAgreesWithStep : Prop :=
  ∀ s t : State, step s = .next t → LoadBlank s ∧ DozeAgrees s → LoadBlank t ∧ DozeAgrees t

/-- The invariants hold right after reset; the policy in force before an image is the model's choice (log 7). -/
def Obligations.ResetStateMeetsInvariants : Prop :=
  MemoriesCanonical State.reset ∧ CountsInRange State.reset ∧ CreditInRange State.reset ∧ CellsAccounted State.reset
    ∧ LoadBlank State.reset ∧ FibreHoldsNothing State.reset ∧ PolicyInLimits State.reset.loader.policy ∧ DozeAgrees State.reset

/-- Reset values as the chapters state them; the records include the values the model gives where the spec gives none (log 7), and which bytes of a
cut-off write landed is a free value (log 8). -/
def Obligations.ResetsGivePowerOnValues : Prop :=
  ∀ (c : Instr) (s : State), isReset c = true → ∃ t, exec c s = .next t
    ∧ t.clock = 0 ∧ t.hold.cells = s.hold.cells
    ∧ (∀ p, c = .powerOnReset p → t.loader.phase = .loading ∧ t.pins = { s.pins with intPolarity := p })
    ∧ (c = .resetAsserted → t.loader.phase = .heldInReset ∧ t.pins = s.pins)
    ∧ t.loader = { Loader.reset with phase := t.loader.phase } ∧ t.bus = BusPath.reset ∧ t.ring = RingAgent.reset
    ∧ t.health = Health.reset ∧ t.path = PathController.reset ∧ t.hold = HoldMemory.resetWith s.hold.cells
    ∧ t.pacer = Pacer.reset ∧ t.radio = RadioLink.reset ∧ t.power = PowerUnit.resetWith s.pins.mainsLost
    ∧ t.events = EventUnit.reset
    ∧ t.loader.map = none ∧ t.loader.readState = .idle ∧ t.loader.softReset = .none
    ∧ t.path.path = .disabled ∧ t.path.phase = none ∧ t.path.dwell = .stopped ∧ t.path.refallTimer = none
    ∧ t.path.refallOpen = false ∧ t.path.releaseTimer = none ∧ t.path.txReleased = true ∧ t.path.rxReleased = true
    ∧ t.path.drainTimer = none ∧ t.path.emergency = false ∧ t.path.priorityTimer = none
    ∧ t.path.radioWanted = false ∧ t.path.returnPause = false
    ∧ t.health.sig = 253 ∧ t.health.txp = 253 ∧ t.health.rxa = 253 ∧ t.health.txe = 253 ∧ t.health.verdict = .healthy
    ∧ t.health.txReference = none ∧ t.health.activityMark = false ∧ t.health.timer100 = none ∧ t.health.timer1s = none
    ∧ t.ring.window = [] ∧ t.ring.takes = [] ∧ t.ring.base = none ∧ t.ring.partTxc = none ∧ t.ring.fence = none
    ∧ t.ring.fillCursor = none ∧ t.ring.partRxf = none ∧ t.ring.delivery = none ∧ t.ring.scanRunning = false
    ∧ t.hold.freeList = List.range 256 ∧ t.hold.uqE = [] ∧ t.hold.uqV = [] ∧ t.hold.uqD = [] ∧ t.hold.dqV = []
    ∧ t.hold.dqD = [] ∧ t.hold.paused = false
    ∧ t.pacer.credit = 0 ∧ t.pacer.chargeA = none ∧ t.pacer.chargeB = none ∧ t.pacer.usageBase = none
    ∧ t.pacer.carried = 0 ∧ t.pacer.allowance = .normal ∧ t.pacer.downlinkCap = 0
    ∧ (∀ w, shadowOf t.bus.shadows w = none) ∧ t.bus.txHorizon = none ∧ t.bus.rxHorizon = none
    ∧ t.bus.uplinkView = .off ∧ t.bus.receiveView = .off ∧ t.bus.txGuard = false ∧ t.bus.rxGuard = false
    ∧ t.bus.queue = [] ∧ t.bus.waitCount = 0
    ∧ t.radio.state = .off ∧ t.radio.ready = false ∧ t.radio.failures = 0 ∧ t.radio.lastCause = none
    ∧ t.radio.slotA = none ∧ t.radio.slotB = none ∧ t.radio.mpwr = false ∧ t.radio.mrst = true
    ∧ t.power.mode = (if s.pins.mainsLost then .reserve else .mains) ∧ t.power.step = .awake ∧ t.power.quiet = .stopped
    ∧ t.events.entries = List.replicate 11 none ∧ t.events.counters = List.replicate 10 ⟨0, false⟩ ∧ t.events.refreshCount = 0
    ∧ ((∀ p a ws, s.bus.queue.head? ≠ some ⟨p, .write a ws⟩) → t.sram = s.sram)
    ∧ (∀ p a ws, s.bus.queue.head? = some ⟨p, .write a ws⟩ → Memory.wf s.sram = true →
        ∀ x, memRead t.sram x = memRead s.sram x
          ∨ ∃ b, (x, b) ∈ (placeWords a ws).flatMap (fun q => laneBytes q.1 q.2) ∧ memRead t.sram x = b)

/-- The judgement of R173 by its checks, the layout of the image (11.4) and the start-up actions of R175. `ImageFails`, `imageMap` and `blockPolicy`
are the tables of R173, 11.4 and R163 written out. That D takes the image's D0 as the load ends (log 23), that STARTING stands from the assertion of
MPWR (log 41), that the six reads are queued in this order (log 12; R145 gives none), that an image of another length than 2048 fails check 1 (log 36),
that a watched word given past the top of packet memory is judged where it wraps to (log 22), and that the flash code is 0 where a valid image gives
none (log 7) is the model's. -/
def Obligations.ConfigurationLoadEndJudges : Prop :=
  (∀ (k : Bool) (img : List Byte) (s : State),
      s.loader.phase = .loading →
      exec (.configurationLoadEnd k true img) s = .next { s with loader.phase := .ended, loader.flashCode := 7, pins.bypass := true })
  ∧ (∀ (k : Bool) (img : List Byte) (n : Nat) (s : State),
      s.loader.phase = .loading → ImageFails k img n → (∀ i < n, ¬ ImageFails k img i) →
      exec (.configurationLoadEnd k false img) s = .next { s with loader.phase := .ended, loader.flashCode := n, pins.bypass := false })
  ∧ (∀ (k : Bool) (img : List Byte) (s : State),
      s.loader.phase = .loading → Blank s → (∀ n, ¬ ImageFails k img n) →
      ∃ t, exec (.configurationLoadEnd k false img) s = .next t ∧ t.loader.defaultPolicy = blockPolicy img 128 ∧ t.loader.phase = .ended
        ∧ t.loader.flashCode = 0 ∧ t.pins = { s.pins with bypass := false } ∧ t.path.path = .fibre ∧ t.loader.map = some (imageMap img)
        ∧ t.loader.linkClock = byteIn img 2 ∧ t.loader.softResetInForce = false ∧ t.loader.counterClearInForce = false
        ∧ t.loader.policy = blockPolicy img 128 ∧ t.path.dwellD = limited 10 3600 (pairIn img 128) ∧ t.health.timer100 = some 100
        ∧ t.health.timer1s = some 1000 ∧ t.hold.sweep10 = some 10 ∧ t.hold.sweep1s = some 1000 ∧ t.pacer.pacing = some 1
        ∧ t.power.quiet = .running (limited 5 600 (pairIn img 176) * 1000) ∧ t.power.mode = s.power.mode
        ∧ t.bus.queue = [(Watched.txp, 32), (.txc, 36), (.rxp, 40), (.rxf, 44), (.evc, 48), (.pgen, 52)].map (fun w =>
            ⟨.shadowRead w.1, .read (BitVec.ofNat 24 (quadIn img w.2)) .one⟩)
        ∧ t.radio.state = (if byteIn img 163 ≠ 0 ∧ s.power.mode = .mains then .starting else .off)
        ∧ (entryOfKind t .powerMode).isSome = (s.power.mode == .reserve) ∧ t.sram = s.sram ∧ t.events.evp = s.events.evp)

/-- The events of the start-up at the last shadow read and at the application of the start-up read (R145, R175). The page's halves are queued before
the policy reads (R175 allows either order, log 12), and D takes the new D0 here (R1, log 23). -/
def Obligations.ShadowReadsCarriedStartsUp : Prop :=
  (∀ (a : Addr) (c : Word) (e : Word) (m : MemoryMap) (s : State),
      s.bus.queue = [⟨.shadowRead .pgen, .read a .one⟩] → s.bus.waiting = [] → s.loader.map = some m → s.bus.shadows.pgen = none →
      s.bus.shadows.txp ≠ none → s.bus.shadows.rxp ≠ none → s.bus.shadows.rxf ≠ none → s.bus.shadows.txc = some c → s.bus.shadows.evc = some e →
      s.loader.shadowsLoaded = false → s.path.path = .fibre → s.health.verdict = .healthy → s.loader.policy.pathOverride = .automatic →
      s.power.mode ≠ .doze → s.loader.softReset = .none →
      ∃ t, exec .shadowReadsCarried s = .next t ∧ t.bus.shadows.pgen = some (memWord s.sram (a.toNat / 4 * 4)) ∧ t.loader.shadowsLoaded = true
        ∧ t.events.evp = countOf e ∧ postedKinds t = [] ∧ t.health.txReference = some (countOf c) ∧ t.events.refreshTimer = some 100
        ∧ t.events.refreshCount = s.events.refreshCount + 1 ∧ t.path.path = .fibre
        ∧ (t.bus.queue.map (·.purpose)).take 2 = [.pageHalf false false, .pageHalf true false]
        ∧ (memWord s.sram (a.toNat / 4 * 4) ≠ 0 → t.loader.readState = .reading ∧
            (t.bus.queue.map (·.purpose)).take 4 = [.pageHalf false false, .pageHalf true false, .policyRead false, .policyRead true])
        ∧ (memWord s.sram (a.toNat / 4 * 4) = 0 → t.loader.readState = s.loader.readState ∧ t.pacer.usageBase = some s.loader.policy.usageBase ∧
            t.pacer.carried = 0))
  ∧ (∀ (a : Addr) (rest : List MasterTransfer) (bs : List Byte) (s : State),
      s.bus.queue = ⟨.policyRead true, .read a .sixteen⟩ :: rest → bs = s.loader.firstHalf ++ bytesOf (memReadWords s.sram a 16) →
      s.loader.readKind = .startUp → s.path.path = .fibre → s.loader.readState = .reading → s.loader.softReset = .none →
      (s.health.verdict = .healthy ∨ (policyOf bs).pathOverride = .fibreOnly) → (policyOf bs).pathOverride ≠ .radioNow → atRest s →
      uplinkEmpty s = true → s.radio.receiver = .idle → s.events.entries.length = 11 →
      ∃ t, exec .policyApplied s = .next t ∧ t.loader.policy = policyOf bs ∧ t.loader.softResetInForce = asksSoftReset bs
        ∧ t.loader.counterClearInForce = asksCounterClear bs ∧ t.loader.softReset = .none ∧ t.loader.readState = .idle ∧ t.loader.readKind = .ordinary
        ∧ t.events.counters = s.events.counters ∧ detailOfKind t .policyApplied = some (.policyApplied (clampedCount bs) s.loader.pgenAtIssue)
        ∧ t.path.path = .fibre ∧ t.path.dwellD = (policyOf bs).d0 ∧ t.pacer.usageBase = some (policyOf bs).usageBase ∧ t.pacer.carried = 0
        ∧ t.pacer.allowance = (if (policyOf bs).allowanceMiB = 0 then .normal else if (policyOf bs).allowanceMiB * 1048576 ≤ (policyOf bs).usageBase * 1024 then .exhausted else if (policyOf bs).allowanceMiB * 917504 ≤ (policyOf bs).usageBase * 1024 then .warned else .normal))

/-- A gateway write is carried unchanged but for words dropped under a guard (R141, R148): of a U write the words outside the ring's region
and its consumer word are carried, guard or no guard; an unaligned address stands for its word (log 9). -/
def Obligations.GatewayWriteStoresCarriedBytes : Prop :=
  ∀ (c : Instr) (q : Requester) (a : Addr) (ws : List LaneWord) (s : State),
    writeOf c = some (q, a, ws) → wordsWellFormed ws = true → masterTurn s = false → Memory.wf s.sram = true →
    ∃ t, exec c s = .next t
      ∧ (∀ p ∈ carriedWords s q (placeWords a ws), ∀ j < 4, laneOn p.2 j = true → memRead t.sram (p.1 + j) = wordByte p.2.data j)
      ∧ (∀ x, (∀ p ∈ carriedWords s q (placeWords a ws), ∀ j < 4, laneOn p.2 j = true → x ≠ p.1 + j) → memRead t.sram x = memRead s.sram x)
      ∧ (q ≠ .u ∨ (s.bus.txGuard = false ∧ s.bus.rxGuard = false) → carriedWords s q (placeWords a ws) = placeWords a ws)
      ∧ (q = .u → ∀ m, s.loader.map = some m → ∀ p, p ∈ carriedWords s q (placeWords a ws) ↔
          p ∈ placeWords a ws ∧ ¬ dropsUnder m s p.1 .transmit ∧ ¬ dropsUnder m s p.1 .receive)
      ∧ t.hold.cells = s.hold.cells

/-- Reads return the SRAM's words, or the view to U (R141, R147); U reads set the horizons (R146); an unaligned address stands for its word (log 9).
-/
def Obligations.GatewayReadReturnsViews : Prop :=
  ∀ (q : Requester) (a : Addr) (len : BurstLen) (c : Instr) (s : State),
    readOf c = some (q, a, len) → masterTurn s = false →
    ∃ t, exec c s = .next t ∧ t.sram = s.sram ∧ t.bus.gatewayData.length = burstWords len
      ∧ (q ≠ .u → t.bus.gatewayData = memReadWords s.sram a (burstWords len) ∧ t.bus.txHorizon = s.bus.txHorizon ∧ t.bus.rxHorizon = s.bus.rxHorizon)
      ∧ (q = .u → ∀ m, s.loader.map = some m → watchedApart m →
        (watchedAddr m .txp ∉ wordAddrs a (burstWords len) → t.bus.txHorizon = s.bus.txHorizon)
        ∧ (watchedAddr m .rxp ∉ wordAddrs a (burstWords len) → t.bus.rxHorizon = s.bus.rxHorizon)
        ∧ ∀ (i x : Nat) (w : Word), (wordAddrs a (burstWords len))[i]? = some x → t.bus.gatewayData[i]? = some w →
          (x ≠ watchedAddr m .txp → x ≠ watchedAddr m .rxp → w = memWord s.sram x)
          ∧ (x = watchedAddr m .txp → t.bus.txHorizon = some (countOf w)
              ∧ w = if s.bus.uplinkView = .off then memWord s.sram x
                    else withCount (memWord s.sram x) (s.bus.uplinkViewValue.getD 0))
          ∧ (x = watchedAddr m .rxp → t.bus.rxHorizon = some (countOf w)
              ∧ w = if s.bus.receiveView = .off then memWord s.sram x
                    else withCount (memWord s.sram x) (s.bus.receiveViewValue.getD 0)))

/-- Shadows follow the carried bytes (R143); none stays none (R145); dropped words are not carried (R148); an unaligned address stands for its word
(log 9). -/
def Obligations.ShadowsFollowCarriedBytes : Prop :=
  ∀ (q : Requester) (a : Addr) (ws : List LaneWord) (c : Instr) (m : MemoryMap) (w : Watched) (s : State),
    writeOf c = some (q, a, ws) → wordsWellFormed ws = true → masterTurn s = false → s.loader.map = some m →
    ∃ t, exec c s = .next t ∧ (shadowOf s.bus.shadows w = none → shadowOf t.bus.shadows w = none)
      ∧ (∀ v, shadowOf s.bus.shadows w = some v → ∃ v', shadowOf t.bus.shadows w = some v' ∧ ∀ j < 4,
        (∀ p ∈ carriedWords s q (placeWords a ws), p.1 = watchedAddr m w → laneOn p.2 j = true → wordByte v' j = wordByte p.2.data j)
        ∧ ((∀ p ∈ carriedWords s q (placeWords a ws), p.1 = watchedAddr m w → laneOn p.2 j = false) → wordByte v' j = wordByte v j))

/-- Reports of a TXP write by P (R144, R156, R159) and of a changed producer count (R50, R66, R129); the descriptor read that a
changed TXP count, the entry to TAKEOVER and a read's return issue (R49, R51; `positionsToRead` writes its length out), where the base at or beyond
the producer is measured as log 56 chooses and a read counts as in flight from its request (log 47); an unaligned address stands for its word (log
9). -/
def Obligations.ProducerWritesWakeAndOverrun : Prop :=
  (∀ (a : Addr) (l : LaneWord) (m : MemoryMap) (s : State),
      s.loader.map = some m → onWatched m .txp a → l.lanes ≠ 0 → masterTurn s = false →
      ∃ t, exec (.txpWordWrite .p a [l]) s = .next t
        ∧ (s.power.mode ≠ .doze → s.power.step ≠ .dozing → s.power.step ≠ .restarting →
            t.power.quiet = .running (s.loader.policy.dozeDelay * 1000) ∧ t.power.step = .awake ∧ t.power.mode = s.power.mode)
        ∧ (s.power.mode = .doze → s.power.step = .dozing → t.power.mode = .doze ∧ t.power.step = .restarting ∧ t.power.restart = some 2 ∧
            t.power.dozeTimer = none ∧ t.power.latch.txpWrite = true))
  ∧ (∀ (q : Requester) (a : Addr) (l : LaneWord) (m : MemoryMap) (v : Word) (s : State),
      s.loader.map = some m → watchedApart m → onWatched m .rxp a → masterTurn s = false →
      (q ≠ .u ∨ (s.bus.txGuard = false ∧ s.bus.rxGuard = false)) → holdsRings s = true → s.power.mode ≠ .doze → s.ring.rxOverrun = false →
      s.bus.shadows.rxp = some v → s.bus.waiting = [] → s.events.entries.length = 11 →
      ∃ t, exec (.rxpWordWrite q a [l]) s = .next t
        ∧ (countOf (mergeLanes v l) ≠ countOf v → rxSize s < dist (rxConsumerRef s) (countOf (mergeLanes v l)) → t.ring.rxOverrun = true ∧
            detailOfKind t .busAnomaly = some (.producerOverrun .receive (countOf (mergeLanes v l))))
        ∧ (dist (rxConsumerRef s) (countOf (mergeLanes v l)) ≤ rxSize s → t.ring.rxOverrun = false ∧
            detailOfKind t .busAnomaly = detailOfKind s .busAnomaly))
  ∧ (∀ (q : Requester) (a : Addr) (l : LaneWord) (m : MemoryMap) (v : Word) (s : State),
      s.loader.map = some m → watchedApart m → onWatched m .txp a → masterTurn s = false →
      (q ≠ .u ∨ (s.bus.txGuard = false ∧ s.bus.rxGuard = false)) → holdsRings s = true → s.power.mode ≠ .doze → s.ring.overrun = false →
      s.bus.shadows.txp = some v → s.bus.waiting = [] → s.events.entries.length = 11 →
      ((s.path.phase ≠ some .closing ∧ s.loader.softReset ≠ .completing) ∨ s.ring.handBackAsked = true ∨ closed s = false) →
      ∃ t, exec (.txpWordWrite q a [l]) s = .next t
        ∧ (countOf (mergeLanes v l) ≠ countOf v → txSize s < dist (consumerRef s) (countOf (mergeLanes v l)) → t.ring.overrun = true ∧
            detailOfKind t .busAnomaly = some (.producerOverrun .transmit (countOf (mergeLanes v l))))
        ∧ (dist (consumerRef s) (countOf (mergeLanes v l)) ≤ txSize s → t.ring.overrun = false ∧
            detailOfKind t .busAnomaly = detailOfKind s .busAnomaly))
  ∧ (∀ (q : Requester) (a : Addr) (l : LaneWord) (m : MemoryMap) (v : Word) (s : State),
      s.loader.map = some m → watchedApart m → onWatched m .txp a → masterTurn s = false →
      (q ≠ .u ∨ (s.bus.txGuard = false ∧ s.bus.rxGuard = false)) → holdsRings s = true → s.power.mode = .doze → s.bus.shadows.txp = some v →
      countOf (mergeLanes v l) ≠ countOf v → s.bus.queue = [] →
      ∃ t, exec (.txpWordWrite q a [l]) s = .next t ∧ t.ring.txCheckDue = true ∧ t.ring.overrun = s.ring.overrun ∧
          t.events.entries = s.events.entries)
  ∧ (∀ (q : Requester) (a : Addr) (l : LaneWord) (m : MemoryMap) (v : Word) (s : State),
      s.loader.map = some m → watchedApart m → onWatched m .rxp a → masterTurn s = false →
      (q ≠ .u ∨ (s.bus.txGuard = false ∧ s.bus.rxGuard = false)) → holdsRings s = true → s.power.mode = .doze → s.bus.shadows.rxp = some v →
      countOf (mergeLanes v l) ≠ countOf v → s.bus.queue = [] →
      ∃ t, exec (.rxpWordWrite q a [l]) s = .next t ∧ t.ring.rxCheckDue = true ∧ t.ring.rxOverrun = s.ring.rxOverrun
        ∧ t.events.entries = s.events.entries)
  ∧ (∀ (q : Requester) (a : Addr) (l : LaneWord) (m : MemoryMap) (v : Word) (b : Count) (k : Count) (n : Nat) (s : State),
      s.loader.map = some m → watchedApart m → onWatched m .txp a → masterTurn s = false →
      (q ≠ .u ∨ (s.bus.txGuard = false ∧ s.bus.rxGuard = false)) → holdsRings s = true → s.path.phase ≠ some .closing → s.loader.softReset = .none →
      s.power.mode ≠ .doze → s.bus.shadows.txp = some v → countOf (mergeLanes v l) ≠ countOf v → s.bus.waiting = [] → s.bus.queue.length ≤ 7 →
      s.ring.descriptorRead = none → s.ring.fence = none → s.ring.base = some b → s.ring.readMark = some k →
      n = positionsToRead b (if s.path.txReleased then s.ring.partTxc.getD 0 else shadowCount s .txc) (countOf (mergeLanes v l)) m.txSize k →
      ∃ t, exec (.txpWordWrite q a [l]) s = .next t
        ∧ (n ≠ 0 → s.bus.queue ++ [readOfPositions m k n] <+: t.bus.queue ∧ t.ring.descriptorRead = some ⟨k, n, false⟩)
        ∧ (n = 0 → t.ring.descriptorRead = none) ∧ t.ring.readMark = some k)
  ∧ (∀ (m : MemoryMap) (h : Count) (n : Nat) (s : State),
      s.health.timer100.isSome = true → s.power.mode ≠ .doze → s.path.path = .fibre → s.loader.shadowsLoaded = true → s.loader.softReset = .none →
      s.loader.policy.pathOverride = .automatic → s.health.verdict = .healthy → s.pins.los = true →
      max 1 (s.health.sig - s.loader.policy.sig.p) ≤ s.loader.policy.sig.t → s.radio.state ≠ .attached → s.radio.state ≠ .backoff →
      s.bus.waiting = [] → s.bus.queue.length ≤ 7 → s.loader.map = some m → s.bus.txHorizon = some h → s.ring.descriptorRead = none →
      n = positionsToRead h (shadowCount s .txc) (shadowCount s .txp) m.txSize h →
      ∃ t, exec .health100msExpiry s = .next t ∧ t.path.path = .takeover
        ∧ (n ≠ 0 → s.bus.queue ++ [readOfPositions m h n] <+: t.bus.queue ∧ t.ring.descriptorRead = some ⟨h, n, false⟩)
        ∧ (n = 0 → t.ring.descriptorRead = none) ∧ t.ring.readMark = some h)
  ∧ (∀ (first : Count) (j : Nat) (a : Addr) (len : BurstLen) (rest : List MasterTransfer) (m : MemoryMap) (b : Count) (n : Nat) (s : State),
      s.bus.queue = ⟨.descriptorRead first j, .read a len⟩ :: rest → s.ring.descriptorRead = some ⟨first, j, false⟩ → s.loader.map = some m →
      holdsRings s = true → s.path.phase ≠ some .closing → s.loader.softReset = .none → s.power.mode ≠ .doze → s.bus.waiting = [] →
      s.ring.fence = none → s.ring.base = some b → (∀ e ∈ s.ring.window, e.st ≠ .pending) → rest.length + j ≤ 7 →
      n = positionsToRead b (if s.path.txReleased then s.ring.partTxc.getD 0 else shadowCount s .txc) (shadowCount s .txp) m.txSize
        (first + BitVec.ofNat 16 j) →
      ∃ t, exec .descriptorReadReturn s = .next t
        ∧ (n ≠ 0 → readOfPositions m (first + BitVec.ofNat 16 j) n ∈ t.bus.queue ∧
            t.ring.descriptorRead = some ⟨first + BitVec.ofNat 16 j, n, false⟩ ∧ t.ring.readMark = some (first + BitVec.ofNat 16 j))
        ∧ ((∀ e ∈ readEntries first j (memReadWords s.sram a (burstWords len)), entryCheck s e = none) → n = 0 → t.ring.descriptorRead = none ∧
            t.ring.readMark = some (first + BitVec.ofNat 16 j)))

/-- Release by writes that bring TXC to H and RXF to G (R9, R57, R133, R144, R147); an unaligned address stands for its word (log 9). -/
def Obligations.ReleaseCompletesByOwnWrite : Prop :=
  (∀ (q : Requester) (a : Addr) (l : LaneWord) (m : MemoryMap) (h : Count) (v : Word) (n : Nat) (s : State),
      s.loader.map = some m → watchedApart m → onWatched m .txc a → masterTurn s = false →
      (q ≠ .u ∨ (s.bus.txGuard = false ∧ guardedBy s (watchedAddr m .txc) = none)) → holdsRings s = true → s.path.txReleased = false →
      s.ring.txForcing = false → s.bus.fixedH = some h → s.bus.shadows.txc = some v → countOf v ≠ h → countOf (mergeLanes v l) = h →
      s.bus.waiting = [] → n = doneCount s → s.path.phase ≠ some .closing → s.loader.softReset ≠ .completing →
      ∃ t, exec (.txcWordWrite q a [l]) s = .next t ∧ t.path.txReleased = true ∧ t.bus.txGuard = true ∧ t.bus.uplinkView = .following
        ∧ t.bus.uplinkViewValue = some h
        ∧ (n = 0 ∨ s.power.mode = .doze → t.ring.partTxc = some h ∧ t.ring.base = some h ∧ t.ring.window.map (·.pos) = s.ring.window.map (·.pos))
        ∧ (n ≠ 0 → s.power.mode ≠ .doze → s.bus.queue.length ≤ 7 → t.ring.partTxc = some (advance h n) ∧ t.ring.base = some (advance h n) ∧
            t.ring.window.map (·.pos) = (s.ring.window.drop n).map (·.pos) ∧
            ⟨.txcAdvance, .write (addrOf (watchedAddr m .txc)) [⟨(advance h n).setWidth 32, 15⟩]⟩ ∈ t.bus.queue)
        ∧ t.path.releaseTimer = (if s.path.rxReleased then none else s.path.releaseTimer) ∧ t.path.rxReleased = s.path.rxReleased
        ∧ t.path.path = s.path.path)
  ∧ (∀ (q : Requester) (a : Addr) (l : LaneWord) (m : MemoryMap) (g : Count) (v : Word) (s : State),
      s.loader.map = some m → watchedApart m → onWatched m .rxf a → masterTurn s = false →
      (q ≠ .u ∨ (s.bus.rxGuard = false ∧ guardedBy s (watchedAddr m .rxf) = none)) → holdsRings s = true → s.path.rxReleased = false →
      s.ring.rxForcing = false → s.bus.fixedG = some g → s.bus.shadows.rxf = some v → countOf v ≠ g → countOf (mergeLanes v l) = g →
      s.bus.waiting = [] →
      ∃ t, exec (.rxfWordWrite q a [l]) s = .next t ∧ t.path.rxReleased = true ∧ t.bus.rxGuard = true ∧ t.bus.receiveView = .following
        ∧ t.bus.receiveViewValue = some g ∧ (s.power.mode = .doze ∨ s.ring.fillCursor = some g → t.ring.partRxf = some g)
        ∧ (∀ f, s.power.mode ≠ .doze → s.ring.fillCursor = some f → f ≠ g → s.bus.queue.length ≤ 7 → t.ring.partRxf = some f ∧
            ⟨.rxfCatchUp, .write (addrOf (watchedAddr m .rxf)) [indexWord f]⟩ ∈ t.bus.queue)
        ∧ t.path.releaseTimer = (if s.path.txReleased then none else s.path.releaseTimer) ∧ t.path.txReleased = s.path.txReleased
        ∧ t.path.path = s.path.path)

/-- The posted-kind list follows the EVC shadow (R168) and INT follows it (R169); the level of the line by the strap is the model's reading (log
39), and an unaligned address stands for its word (log 9). -/
def Obligations.EvcWriteMovesPostedKinds : Prop :=
  ∀ (q : Requester) (a : Addr) (l : LaneWord) (m : MemoryMap) (v : Word) (e : Count) (s : State),
    s.loader.map = some m → watchedApart m → onWatched m .evc a → s.bus.shadows.evc = some v → countOf (mergeLanes v l) = e →
    (q ≠ .u ∨ (s.bus.txGuard = false ∧ s.bus.rxGuard = false)) → masterTurn s = false → s.bus.waiting = [] →
    ∃ t, exec (.evcWordWrite q a [l]) s = .next t ∧ t.events.evp = s.events.evp
      ∧ (dist e s.events.evp ≤ eventSize s → postedKinds t = kindsFrom s e (dist e s.events.evp) ∧
          intAsserted t = (partWorks s && (kindsFrom s e (dist e s.events.evp)).any fun k => !masked s k))
      ∧ (e = s.events.evp → postedKinds t = [] ∧ intAsserted t = false ∧ intLevel t = !s.pins.intPolarity)
      ∧ (eventSize s < dist e s.events.evp → postedKinds t = s.events.slotKinds.filterMap id ∧
          intAsserted t = (partWorks s && (s.events.slotKinds.filterMap id).any fun k => !masked s k) ∧ ringHasRoom t = false)

/-- A changed PGEN wants a policy read (R162); an unaligned address stands for its word (log 9). -/
def Obligations.PgenWriteWantsPolicyRead : Prop :=
  (∀ (a : Addr) (l : LaneWord) (m : MemoryMap) (v : Word) (s : State),
      s.loader.map = some m → watchedApart m → onWatched m .pgen a → s.bus.shadows.pgen = some v → mergeLanes v l ≠ v → masterTurn s = false →
      s.loader.softReset = .none →
      ∃ t, exec (.pgenWordWrite .p a [l]) s = .next t
        ∧ (s.power.mode ≠ .doze → s.loader.readState = .idle → s.bus.waiting = [] → s.bus.queue.length ≤ 6 → t.loader.readState = .reading ∧
            t.loader.pgenAtIssue = mergeLanes v l ∧ s.bus.queue ++ [⟨.policyRead false, .read (addrOf m.policyBase) .sixteen⟩, ⟨.policyRead true,
            .read (addrOf (m.policyBase + 64)) .sixteen⟩] <+: t.bus.queue)
        ∧ (s.power.mode ≠ .doze → s.loader.readState ≠ .idle → t.loader.readState = .readingDue)
        ∧ (s.power.mode = .doze → s.power.step = .dozing → t.loader.readState = s.loader.readState ∧ t.loader.dueAfterRestart = true ∧
            t.power.step = .restarting ∧ t.power.latch.pgenWrite = true))
  ∧ (∀ (q : Requester) (a : Addr) (l : LaneWord) (s : State),
      q ≠ .p → masterTurn s = false →
      ∃ t, exec (.pgenWordWrite q a [l]) s = .next t ∧ t.loader.readState = s.loader.readState ∧ t.loader.dueAfterRestart = s.loader.dueAfterRestart)

/-- Words under a raised guard are dropped and counted (R148): a burst with dropped words counts once, and its report names the ring and
address of the first of them; an unaligned address stands for its word (log 9). -/
def Obligations.StaleUplinkWriteIsDropped : Prop :=
  (∀ (a : Addr) (l : LaneWord) (m : MemoryMap) (s : State),
      s.loader.map = some m → masterTurn s = false → s.bus.waiting = [] → s.events.entries.length = 11 → s.events.counters.length = 10 →
      s.bus.txGuard = true → (inTxRing m (a.toNat / 4 * 4) = true ∨ a.toNat / 4 * 4 = watchedAddr m .txc) →
      ∃ t, exec (.staleUplinkWrite a [l]) s = .next t ∧ t.sram = s.sram ∧ t.bus.shadows = s.bus.shadows
        ∧ detailOfKind t .busAnomaly = some (.staleUplinkWrite .transmit (addrOf (a.toNat / 4 * 4)))
        ∧ ((counterOf s .staleUplinkWrites).value < 65535 → (counterOf t .staleUplinkWrites).value = (counterOf s .staleUplinkWrites).value + 1)
        ∧ (65535 ≤ (counterOf s .staleUplinkWrites).value → (counterOf t .staleUplinkWrites).saturated = true))
  ∧ (∀ (a : Addr) (l : LaneWord) (m : MemoryMap) (s : State),
      s.loader.map = some m → masterTurn s = false → s.bus.waiting = [] → s.events.entries.length = 11 → s.events.counters.length = 10 →
      s.bus.rxGuard = true → (s.bus.txGuard = false ∨ (inTxRing m (a.toNat / 4 * 4) = false ∧ a.toNat / 4 * 4 ≠ watchedAddr m .txc)) →
      (inRxRing m (a.toNat / 4 * 4) = true ∨ a.toNat / 4 * 4 = watchedAddr m .rxf) →
      ∃ t, exec (.staleUplinkWrite a [l]) s = .next t ∧ t.sram = s.sram ∧ t.bus.shadows = s.bus.shadows
        ∧ detailOfKind t .busAnomaly = some (.staleUplinkWrite .receive (addrOf (a.toNat / 4 * 4)))
        ∧ ((counterOf s .staleUplinkWrites).value < 65535 → (counterOf t .staleUplinkWrites).value = (counterOf s .staleUplinkWrites).value + 1))
  ∧ (∀ (c : Instr) (a : Addr) (ws : List LaneWord) (m : MemoryMap) (s : State),
      writeOf c = some (.u, a, ws) → wordsWellFormed ws = true → s.loader.map = some m → masterTurn s = false → s.bus.waiting = [] →
      s.events.counters.length = 10 →
      ∃ t, exec c s = .next t
        ∧ ((∀ p ∈ placeWords a ws, ¬ dropsUnder m s p.1 .transmit ∧ ¬ dropsUnder m s p.1 .receive) →
            counterOf t .staleUplinkWrites = counterOf s .staleUplinkWrites)
        ∧ ((∃ p ∈ placeWords a ws, dropsUnder m s p.1 .transmit ∨ dropsUnder m s p.1 .receive) →
            ((counterOf s .staleUplinkWrites).value < 65535 →
              counterOf t .staleUplinkWrites = { counterOf s .staleUplinkWrites with value := (counterOf s .staleUplinkWrites).value + 1 })
            ∧ (65535 ≤ (counterOf s .staleUplinkWrites).value → counterOf t .staleUplinkWrites = { counterOf s .staleUplinkWrites with saturated := true })))
  ∧ (∀ (c : Instr) (a : Addr) (ws : List LaneWord) (m : MemoryMap) (pre : List (Nat × LaneWord)) (p : Nat × LaneWord) (post : List (Nat × LaneWord)) (s : State),
      writeOf c = some (.u, a, ws) → wordsWellFormed ws = true → s.loader.map = some m → masterTurn s = false → s.bus.waiting = [] →
      holdsRings s = true → s.events.entries.length = 11 → placeWords a ws = pre ++ p :: post →
      (∀ x ∈ pre, ¬ dropsUnder m s x.1 .transmit ∧ ¬ dropsUnder m s x.1 .receive) → (dropsUnder m s p.1 .transmit ∨ dropsUnder m s p.1 .receive) →
      (∀ x ∈ pre ++ post, dropsUnder m s x.1 .transmit ∨ dropsUnder m s x.1 .receive ∨ x.1 ∉ [watchedAddr m .txp, watchedAddr m .txc,
          watchedAddr m .rxp, watchedAddr m .rxf, watchedAddr m .evc, watchedAddr m .pgen]) →
      ∃ t, exec c s = .next t ∧ (dropsUnder m s p.1 .transmit → detailOfKind t .busAnomaly = some (.staleUplinkWrite .transmit (BitVec.ofNat 24 p.1)))
        ∧ (¬ dropsUnder m s p.1 .transmit → detailOfKind t .busAnomaly = some (.staleUplinkWrite .receive (BitVec.ofNat 24 p.1)))
        ∧ t.bus.shadows = s.bus.shadows)

/-- Issue order, the arbiter's table and the views that follow (R147, R150, R151; log 11 for the master's turn inside a gateway command, log 9 for
unaligned addresses). -/
def Obligations.MasterCarriesInIssueOrder : Prop :=
  (∀ (p : Purpose) (a : Addr) (ws : List LaneWord) (rest : List MasterTransfer) (s : State),
      s.bus.queue = ⟨p, .write a ws⟩ :: rest →
      ∃ t, exec .masterTransferCarried s = .next t ∧ t.sram = memWriteWords s.sram (placeWords a ws) ∧ t.bus.waitCount = 0 ∧ rest <+: t.bus.queue)
  ∧ (∀ (p : Purpose) (a : Addr) (len : BurstLen) (rest : List MasterTransfer) (s : State),
      s.bus.queue = ⟨p, .read a len⟩ :: rest →
      ∃ t, exec .masterTransferCarried s = .next t ∧ t.sram = s.sram ∧ t.bus.waitCount = 0 ∧ rest <+: t.bus.queue)
  ∧ (∀ (s : State),
      s.bus.queue = [] →
      exec .masterTransferCarried s = .next s)
  ∧ (∀ (c : Instr) (s : State),
      ((writeOf c).isSome ∨ (readOf c).isSome) → masterTurn s = false →
      ∃ t, exec c s = .next t ∧ t.bus.waitCount = (if s.bus.queue = [] then 0 else s.bus.waitCount + 1))
  ∧ (∀ (c : Instr) (s : State), (writeOf c).isSome ∨ (readOf c).isSome → masterTurn s = true →
      ∃ u, exec .masterTransferCarried s = .next u ∧ exec c s = exec c u)
  ∧ (∀ (a : Addr) (c : Count) (rest : List MasterTransfer) (s : State),
      s.bus.queue = ⟨.txcAdvance, .write a [⟨c.setWidth 32, 15⟩]⟩ :: rest → s.path.txReleased = true → s.path.path ≠ .fibre → s.bus.waiting = [] →
      ∃ t, exec .masterTransferCarried s = .next t ∧ (s.bus.uplinkView = .following → t.bus.uplinkViewValue = some c)
        ∧ (s.bus.uplinkView ≠ .following → t.bus.uplinkViewValue = s.bus.uplinkViewValue) ∧ t.bus.uplinkView = s.bus.uplinkView)
  ∧ (∀ (a : Addr) (c : Count) (rest : List MasterTransfer) (s : State),
      s.bus.queue = ⟨.rxfDelivery, .write a [⟨c.setWidth 32, 15⟩]⟩ :: rest → s.path.rxReleased = true → s.path.path ≠ .fibre → s.bus.waiting = [] →
      ∃ t, exec .masterTransferCarried s = .next t ∧ (s.bus.receiveView = .following → t.bus.receiveViewValue = some c)
        ∧ (s.bus.receiveView ≠ .following → t.bus.receiveViewValue = s.bus.receiveViewValue) ∧ t.bus.receiveView = s.bus.receiveView)

/-- R30: the SIG sample by the levels at the expiry; a change of the lines is seen only through the level it leaves. -/
def Obligations.SigSampleReadsTheLines : Prop :=
  (∀ (s : State),
      s.health.timer100.isSome = true → s.power.mode ≠ .doze →
      ∃ t, exec .health100msExpiry s = .next t
        ∧ t.health.sig = (if s.pins.los = false ∧
            s.pins.link = true then min 253 (s.health.sig + s.loader.policy.sig.q) else max 1 (s.health.sig - s.loader.policy.sig.p))
        ∧ t.health.timer100 = some 100)
  ∧ (∀ (los : Bool) (link : Bool) (s : State),
      ∃ t, exec (.losLinkChange los link) s = .next t ∧ t.pins.los = los ∧ t.pins.link = link ∧ t.health = s.health)

/-- The receive activity mark with the RXA sample (R32, R42), and the TXP sample (R31; none without a reference, log 31). That one enabled lane
makes a U write cover the RXF word is the model's choice (log 73); an unaligned address stands for its word (log 9). -/
def Obligations.ReceiveActivityIsSampledEachSecond : Prop :=
  (∀ (a : Addr) (l : LaneWord) (m : MemoryMap) (s : State),
      s.loader.map = some m → onWatched m .rxf a → l.lanes ≠ 0 → masterTurn s = false → s.bus.txGuard = false → s.bus.rxGuard = false →
      s.path.path = .fibre → s.power.mode ≠ .doze →
      ∃ t, exec (.rxfWordWrite .u a [l]) s = .next t ∧ t.health.activityMark = true)
  ∧ (∀ (q : Requester) (a : Addr) (ws : List LaneWord) (s : State),
      (q ≠ .u ∨ s.path.path ≠ .fibre ∨ s.power.mode = .doze) → masterTurn s = false →
      ∃ t, exec (.rxfWordWrite q a ws) s = .next t ∧ t.health.activityMark = s.health.activityMark)
  ∧ (∀ (s : State),
      s.health.timer1s.isSome = true → s.power.mode ≠ .doze → s.path.path = .fibre →
      ∃ t, exec .health1sExpiry s = .next t
        ∧ t.health.rxa = (if s.health.activityMark then min 253 (s.health.rxa + s.loader.policy.rxa.q) else max 1 (s.health.rxa - s.loader.policy.rxa.p))
        ∧ t.health.activityMark = false ∧ t.health.sig = s.health.sig ∧ t.health.txp = s.health.txp ∧ t.health.txe = s.health.txe)
  ∧ (∀ (ref : Count) (s : State),
      s.health.timer100.isSome = true → s.power.mode ≠ .doze → s.path.path = .fibre → s.health.txReference = some ref →
      ∃ t, exec .health100msExpiry s = .next t
        ∧ t.health.txp = (if shadowCount s .txc = ref ∧
            shadowCount s .txp ≠ ref then max 1 (s.health.txp - s.loader.policy.txp.p) else min 253 (s.health.txp + s.loader.policy.txp.q))
        ∧ t.health.txReference = some (shadowCount s .txc) ∧ t.health.rxa = s.health.rxa ∧ t.health.txe = s.health.txe)
  ∧ (∀ (s : State),
      s.health.timer100.isSome = true → s.power.mode ≠ .doze → (s.path.path ≠ .fibre ∨ s.health.txReference = none) →
      ∃ t, exec .health100msExpiry s = .next t ∧ t.health.txp = s.health.txp ∧ (s.path.path ≠ .fibre → t.health.txReference = s.health.txReference)
        ∧ t.health.rxa = s.health.rxa ∧ t.health.txe = s.health.txe)

/-- The TXE sample for a completion the MAC writes (R33); no sample for a value of 16 to 255 is the model's choice (log 50), and an unaligned
address stands for its word (log 9). -/
def Obligations.MacCompletionSamplesTxe : Prop :=
  ∀ (a : Addr) (l : LaneWord) (m : MemoryMap) (k : Nat) (s : State),
    s.loader.map = some m → k < m.txSize → a.toNat / 4 * 4 = m.txBase + 16 * k + 4 → laneOn l 3 = true → s.bus.txGuard = false →
    s.bus.rxGuard = false → masterTurn s = false → s.path.path = .fibre → s.power.mode ≠ .doze →
    ∃ t, exec (.txRingCompletionWrite a [l]) s = .next t ∧ (wordByte l.data 3 = 1 → t.health.txe = min 253 (s.health.txe + s.loader.policy.txe.q))
      ∧ (2 ≤ (wordByte l.data 3).toNat → (wordByte l.data 3).toNat ≤ 7 → t.health.txe = max 1 (s.health.txe - s.loader.policy.txe.p))
      ∧ ((wordByte l.data 3 = 0 ∨ 8 ≤ (wordByte l.data 3).toNat) → t.health.txe = s.health.txe) ∧ t.health.sig = s.health.sig
      ∧ t.health.txp = s.health.txp ∧ t.health.rxa = s.health.rxa

/-- Descriptor reads with the descriptor's layout (R44, 11.4; a read stands on its aligned word, log 9, and wraps at the top, log 22), the checks on
entering (R51, R52), the judgement of the entries (R53, R76), what begins a take (R54) and what a Voice Priority take brings (R22, R116; STARTING
stands from the assertion of MPWR, log 41). Clauses 3 to 6 also cover the reread of a soft reset: that taking is barred only until the
re-initialisation is the model's choice (log 64). -/
def Obligations.DescriptorReadEntersWindow : Prop :=
  (∀ (first : Count) (n : Nat) (a : Addr) (len : BurstLen) (rest : List MasterTransfer) (m : MemoryMap) (s : State),
      s.bus.queue = ⟨.descriptorRead first n, .read a len⟩ :: rest → s.ring.descriptorRead = some ⟨first, n, false⟩ → s.loader.map = some m →
      s.bus.waiting = [] → s.path.phase ≠ some .closing → s.loader.softReset = .none →
      (∀ e ∈ readEntries first n (memReadWords s.sram a (burstWords len)), entryCheck s e = none) →
      ∃ t, exec .descriptorReadReturn s = .next t ∧ t.ring.window.map (·.pos) = s.ring.window.map (·.pos) ++ (List.range n).map (advance first)
        ∧ t.ring.readMark = some (advance first n)
        ∧ (∀ e ∈ readEntries first n (memReadWords s.sram a (burstWords len)), ∃ e' ∈ t.ring.window, e'.pos = e.pos ∧ e'.cls = e.cls ∧
            e'.length = e.length ∧ e'.addr = e.addr ∧ e'.cellsNeed = (e.length + 255) / 256)
        ∧ (burstWords len = 4 * n → ∀ i < n, ∃ e' ∈ t.ring.window, e'.pos = advance first i ∧
            e'.cls = (bytesRead s.sram a (16 * n)).getD (16 * i + 6) 0 ∧ e'.length = pairIn (bytesRead s.sram a (16 * n)) (16 * i + 4) ∧
            e'.addr = BitVec.ofNat 24 (quadIn (bytesRead s.sram a (16 * n)) (16 * i))))
  ∧ (∀ (first : Count) (a : Addr) (rest : List MasterTransfer) (m : MemoryMap) (e : Entry) (s : State),
      s.bus.queue = ⟨.descriptorRead first 1, .read a .four⟩ :: rest → s.ring.descriptorRead = some ⟨first, 1, false⟩ → s.loader.map = some m →
      s.bus.waiting = [] → rest.length ≤ 7 → s.power.mode ≠ .doze → e = entryOf first (slice (bytesOf (memReadWords s.sram a 4)) 0 16) →
      ∃ t, exec .descriptorReadReturn s = .next t
        ∧ (2 < e.cls.toNat → ⟨.completion first .notCarried,
            .write (addrOf (descriptorAddr m.txBase m.txSize first + 4)) [⟨BitVec.ofNat 32 (9 * 16777216), 8⟩]⟩ ∈ t.bus.queue)
        ∧ (e.cls.toNat ≤ 2 → e.length = 0 → ⟨.completion first .empty,
            .write (addrOf (descriptorAddr m.txBase m.txSize first + 4)) [⟨BitVec.ofNat 32 (11 * 16777216), 8⟩]⟩ ∈ t.bus.queue)
        ∧ (e.cls.toNat ≤ 2 → s.loader.policy.frameLimit < e.length →
            ⟨.completion first .tooLong, .write (addrOf (descriptorAddr m.txBase m.txSize first + 4)) [⟨BitVec.ofNat 32 (10 * 16777216),
            8⟩]⟩ ∈ t.bus.queue))
  ∧ (∀ (first : Count) (a : Addr) (rest : List MasterTransfer) (m : MemoryMap) (e : Entry) (cls : FrameClass) (s : State),
      s.bus.queue = ⟨.descriptorRead first 1, .read a .four⟩ :: rest → s.ring.descriptorRead = some ⟨first, 1, false⟩ → s.loader.map = some m →
      s.bus.waiting = [] → rest.length ≤ 7 → holdsRings s = true → s.path.phase ≠ some .closing → softResetStands s = false → s.power.mode ≠ .doze →
      e = entryOf first (slice (bytesOf (memReadWords s.sram a 4)) 0 16) → entryCheck s e = none →
      cls = (if e.cls = 2 then .voicePriority else if e.cls = 1 then .voice else .data) → (∀ e ∈ s.ring.window, e.st ≠ .pending) → s.hold.dqV = [] →
      s.hold.dqD = [] → s.ring.takes.length < 4 →
      ((e.length + 255) / 256 + (if cls = .data ∧ s.path.path ≠ .returning then s.loader.policy.voiceReserve else 0) ≤ s.hold.freeList.length) →
      (cls = .data → s.path.path ≠ .returning → ∀ r ∈ s.hold.uqD, ageOf s.clock r.time ≤ s.loader.policy.dataHold * 1000) →
      ∃ t, exec .descriptorReadReturn s = .next t
        ∧ t.ring.takes = s.ring.takes ++ [⟨first, ⟨cls, .uplink, e.length, s.hold.freeList.take ((e.length + 255) / 256), s.clock, 0, some first⟩,
            e.addr, 0⟩]
        ∧ t.hold.freeList = s.hold.freeList.drop ((e.length + 255) / 256) ∧ .frameRead first ∈ t.bus.queue.map (·.purpose)
        ∧ (∃ e' ∈ t.ring.window, e'.pos = first ∧ e'.st = .taking)
        ∧ (cls ≠ .voicePriority → t.path.priorityTimer = s.path.priorityTimer ∧ t.path.emergency = s.path.emergency ∧ t.radio.state = s.radio.state)
        ∧ (cls = .voicePriority → t.path.priorityTimer = some 60000 ∧ t.path.emergency = (s.path.emergency || s.radio.state != .attached))
        ∧ (cls = .voicePriority → s.path.emergency = true ∨ s.radio.state = .attached → t.radio.state = s.radio.state ∧
            t.radio.backoffTimer = s.radio.backoffTimer)
        ∧ (cls = .voicePriority → s.path.emergency = false → s.radio.state = .detached ∨ (s.radio.state = .backoff ∧ s.radio.ready = true) →
            t.radio.state = .attaching ∧ t.radio.items.attach = true ∧ t.radio.attachTimer = some (s.loader.policy.attachTimeout * 1000) ∧
            (s.radio.state = .backoff → t.radio.backoffTimer = none))
        ∧ (cls = .voicePriority → s.path.emergency = false → s.radio.state = .backoff → s.radio.ready = false → t.radio.backoffTimer = none ∧
            t.radio.state = (if s.radio.cycleTimer = none then .starting else .backoff))
        ∧ (cls = .voicePriority → s.path.emergency = false → s.radio.state = .off → partWorks s = true → t.radio.state = .starting ∧
            t.radio.mpwr = true ∧ t.radio.startTimer = some 20000)
        ∧ (cls = .voicePriority → s.path.emergency = false → s.radio.state = .starting ∨ s.radio.state = .attaching → t.radio.state = s.radio.state))
  ∧ (∀ (first : Count) (a : Addr) (rest : List MasterTransfer) (m : MemoryMap) (e : Entry) (cls : FrameClass) (s : State),
      s.bus.queue = ⟨.descriptorRead first 1, .read a .four⟩ :: rest → s.ring.descriptorRead = some ⟨first, 1, false⟩ → s.loader.map = some m →
      s.bus.waiting = [] → rest.length ≤ 7 → holdsRings s = true → s.path.phase ≠ some .closing → softResetStands s = false → s.power.mode ≠ .doze →
      e = entryOf first (slice (bytesOf (memReadWords s.sram a 4)) 0 16) → entryCheck s e = none →
      cls = (if e.cls = 2 then .voicePriority else if e.cls = 1 then .voice else .data) → (∀ e ∈ s.ring.window, e.st ≠ .pending) → s.hold.dqV = [] →
      s.hold.dqD = [] →
      (4 ≤ s.ring.takes.length ∨ s.hold.freeList.length < (e.length + 255) / 256 + (if cls = .data ∧
          s.path.path ≠ .returning then s.loader.policy.voiceReserve else 0) ∨ (cls = .data ∧ s.path.path ≠ .returning ∧
          ∃ r ∈ s.hold.uqD, s.loader.policy.dataHold * 1000 < ageOf s.clock r.time)) →
      ∃ t, exec .descriptorReadReturn s = .next t ∧ t.ring.takes = s.ring.takes ∧ t.hold.freeList = s.hold.freeList
        ∧ (∃ e' ∈ t.ring.window, e'.pos = first ∧ e'.st = .pending) ∧ t.path.emergency = s.path.emergency
        ∧ t.path.priorityTimer = s.path.priorityTimer)
  ∧ (∀ (x : FrameRecord) (e : Entry) (cls : FrameClass) (s : State),
      s.hold.sweep1s.isSome = true → s.bus.waiting = [] → holdsRings s = true → s.path.phase ≠ some .closing → softResetStands s = false →
      s.power.mode ≠ .doze → s.ring.window = [e] → e.st = .pending → e.completing = false → e.cls.toNat ≤ 2 → e.cellsNeed = (e.length + 255) / 256 →
      cls = (if e.cls = 2 then .voicePriority else if e.cls = 1 then .voice else .data) → s.ring.takes.length < 4 → s.hold.uqD = [] →
      s.hold.dqV = [] → s.hold.dqD = [x] → s.loader.policy.downlinkHold * 100 < ageOf s.clock x.time →
      (∀ q live r, s.radio.ldo ≠ some (.sendUp q live r)) →
      (s.hold.freeList.length < (e.length + 255) / 256 + (if cls = .data ∧ s.path.path ≠ .returning then s.loader.policy.voiceReserve else 0)) →
      ((e.length + 255) / 256 + (if cls = .data ∧
          s.path.path ≠ .returning then s.loader.policy.voiceReserve else 0) ≤ s.hold.freeList.length + x.cells.length) →
      ∃ t, exec .sweep1s s = .next t
        ∧ t.ring.takes = s.ring.takes ++ [⟨e.pos, ⟨cls, .uplink, e.length, (s.hold.freeList ++ x.cells).take ((e.length + 255) / 256), s.clock, 0,
            some e.pos⟩, e.addr, 0⟩]
        ∧ t.ring.window = [{ e with st := .taking }] ∧ t.hold.freeList = (s.hold.freeList ++ x.cells).drop ((e.length + 255) / 256) ∧ t.hold.dqD = [])
  ∧ (∀ (x : FrameRecord) (e : Entry) (slot : Slot) (live : Bool) (s : State),
      s.hold.sweep1s.isSome = true → s.bus.waiting = [] → holdsRings s = true → s.path.path ≠ .returning → softResetStands s = false →
      s.path.phase ≠ some .closing → s.power.mode ≠ .doze → s.ring.window = [e] → e.st = .pending → e.completing = false → e.cls = 0 →
      e.cellsNeed = (e.length + 255) / 256 → s.ring.takes.length < 4 → s.hold.uqD = [x] → s.hold.dqV = [] → s.hold.dqD = [] →
      s.loader.policy.dataHold * 1000 < ageOf s.clock x.time → s.radio.ldo = some (.sendUp slot live (some x)) →
      (e.length + 255) / 256 + s.loader.policy.voiceReserve ≤ s.hold.freeList.length →
      ∃ t, exec .sweep1s s = .next t
        ∧ t.ring.takes = s.ring.takes ++ [⟨e.pos, ⟨.data, .uplink, e.length, s.hold.freeList.take ((e.length + 255) / 256), s.clock, 0, some e.pos⟩,
            e.addr, 0⟩]
        ∧ t.ring.window = [{ e with st := .taking }] ∧ t.hold.freeList = s.hold.freeList.drop ((e.length + 255) / 256) ∧ t.hold.uqD = []
        ∧ t.hold.onLdo = s.hold.onLdo ++ [x] ∧ t.radio.ldo = s.radio.ldo)

/-- The priority scan's report (R6, R22, R63), and the mark that a write of TXC passes (R63, R143); that a read waits for room before its issue is
R150's, and its withdrawal the model's (log 47). That TXC has passed the mark from a distance of half the range on (32768) is the model's choice
(log 62), and so is it that a takeover may begin in the reread of a soft reset, which clause 1 covers (log 64); in clause 2 an
unaligned address stands for its word (log 9). -/
def Obligations.PriorityScanTakesOver : Prop :=
  (∀ (pos : Count) (a : Addr) (len : BurstLen) (rest : List MasterTransfer) (s : State),
      s.bus.queue = ⟨.scanRead pos, .read a len⟩ :: rest → s.ring.scanRead = some ⟨pos, false⟩ → s.path.path = .fibre →
      s.health.verdict = .unhealthy → s.loader.policy.pathOverride = .fibreOnly → s.radio.state ≠ .attached → s.radio.state ≠ .backoff →
      s.bus.waiting = [] → s.events.entries.length = 11 →
      ∃ t, exec .priorityScanReadReturn s = .next t
        ∧ (wordByte (memWord s.sram (a.toNat / 4 * 4)) 2 = 2 → t.path.path = .takeover ∧ t.path.priorityTimer = some 60000 ∧
            detailOfKind t .pathChange = some (.pathChange .fibre .takeover .priority) ∧ t.ring.scanRunning = false ∧ t.bus.uplinkView ≠ .off ∧
            t.bus.receiveView ≠ .off ∧ t.path.radioWanted = true)
        ∧ (wordByte (memWord s.sram (a.toNat / 4 * 4)) 2 ≠ 2 → t.path.path = .fibre ∧ (s.ring.scanMark = some pos → s.ring.scanRunning = true →
            scanWanted s = true → t.ring.scanMark = some (advance pos 1))))
  ∧ (∀ (q : Requester) (a : Addr) (l : LaneWord) (m : MemoryMap) (v : Word) (c : Count) (k : Count) (s : State),
      s.loader.map = some m → watchedApart m → onWatched m .txc a → masterTurn s = false → inTxRing m (watchedAddr m .txc) = false →
      (q ≠ .u ∨ (s.bus.txGuard = false ∧ s.bus.rxGuard = false)) → scanWanted s = true → s.ring.scanRunning = true → s.ring.scanMark = some k →
      s.ring.scanRead = some ⟨k, false⟩ → s.bus.waiting = [.scanRead k] → s.bus.queue.length = 8 → s.power.mode ≠ .doze →
      s.bus.shadows.txc = some v → c = countOf (mergeLanes v l) → c ≠ countOf v → 32768 ≤ dist c k →
      ∃ t, exec (.txcWordWrite q a [l]) s = .next t ∧ t.ring.scanMark = some c ∧ t.bus.queue = s.bus.queue
        ∧ ((t.bus.waiting = [] ∧ t.ring.scanRead = none) ∨ (t.bus.waiting = [.scanRead c] ∧ t.ring.scanRead = some ⟨c, false⟩)))

/-- The end of a take (R55), the TXC advance (R57) and where the frame's bytes lie (R68). How reads are cut into bursts is the model's choice (log
14), as is wrapping at the top of packet memory (log 22). -/
def Obligations.TakeEndHandsFrameToHold : Prop :=
  (∀ (pos : Count) (a : Addr) (rest : List MasterTransfer) (m : MemoryMap) (tk : Take) (s : State),
      takeAt s pos = some tk → s.bus.queue = ⟨.frameRead pos, .read a (takeBurst tk)⟩ :: rest → lastFrameRead s pos = true → rest.length ≤ 7 →
      s.bus.waiting = [] → s.loader.map = some m → s.power.mode ≠ .doze → s.loader.softReset = .none → s.path.phase ≠ some .closing →
      s.radio.state ≠ .attached → (∀ e ∈ s.ring.window, e.st ≠ .pending) →
      ∃ t, exec .takeEnd s = .next t
        ∧ ⟨.completion pos .takenRadio, .write (addrOf (descriptorAddr m.txBase m.txSize pos + 4)) [⟨BitVec.ofNat 32 (8 * 16777216),
            8⟩]⟩ ∈ t.bus.queue
        ∧ t.ring.takes.length + 1 = s.ring.takes.length
        ∧ (tk.record.direction = .uplink → t.hold.uqE = (if tk.record.cls = .voicePriority then s.hold.uqE ++ [tk.record] else s.hold.uqE) ∧
            t.hold.uqV = (if tk.record.cls = .voice then s.hold.uqV ++ [tk.record] else s.hold.uqV) ∧
            t.hold.uqD = (if tk.record.cls = .data then s.hold.uqD ++ [tk.record] else s.hold.uqD)))
  ∧ (∀ (pos : Count) (a : Addr) (rest : List MasterTransfer) (tk : Take) (ds : List Entry) (tl : List Entry) (e : Entry) (m : MemoryMap) (b : Count) (s : State),
      takeAt s pos = some tk → s.bus.queue = ⟨.frameRead pos, .read a (takeBurst tk)⟩ :: rest → lastFrameRead s pos = true → rest.length ≤ 6 →
      s.bus.waiting = [] → s.loader.map = some m → s.power.mode ≠ .doze → s.loader.softReset = .none → s.path.phase ≠ some .closing →
      s.radio.state ≠ .attached → s.path.txReleased = true → (∀ e ∈ s.ring.window, e.st ≠ .pending) → s.ring.base = some b →
      s.ring.window = e :: (ds ++ tl) → e.pos = pos → e.st = .taking → (∀ d ∈ ds, d.st = .done) → (∀ d ∈ tl.head?, d.st = .taking ∧ d.pos ≠ pos) →
      ∃ t, exec .takeEnd s = .next t
        ∧ ⟨.txcAdvance, .write (addrOf (watchedAddr m .txc)) [⟨(advance b (1 + ds.length)).setWidth 32, 15⟩]⟩ ∈ t.bus.queue
        ∧ t.ring.base = some (advance b (1 + ds.length)) ∧ t.ring.partTxc = some (advance b (1 + ds.length))
        ∧ t.ring.window.map (·.pos) = tl.map (·.pos))
  ∧ (∀ (pos : Count) (a : Addr) (rest : List MasterTransfer) (tk : Take) (len : BurstLen) (c : Instr) (s : State),
      (c = .masterTransferCarried ∨ (c = .takeEnd ∧ lastFrameRead s pos = true)) → takeAt s pos = some tk →
      s.bus.queue = ⟨.frameRead pos, .read a len⟩ :: rest → a = wordAt tk.addr tk.wordsRead → tk.record.cells.Nodup →
      tk.record.cells.length = (tk.record.length + 255) / 256 → Memory.wf s.hold.cells = true →
      ∃ t, exec c s = .next t
        ∧ (∀ i < tk.record.length, frameByte t tk.record i = (if 4 * tk.wordsRead ≤ tk.addr.toNat % 4 + i ∧
            tk.addr.toNat % 4 + i < 4 * (tk.wordsRead + burstWords len) then memRead s.sram ((tk.addr.toNat + i) % 16777216) else frameByte s tk.record i)))

/-- Forced release at the release timer (R10, R59, R133); which of the two rings is forced first is the model's (log 12). -/
def Obligations.ReleaseTimerForcesRelease : Prop :=
  (∀ (m : MemoryMap) (h : Count) (c : Word) (s : State),
      s.loader.map = some m → holdsRings s = true → s.path.releaseTimer.isSome = true → s.power.mode ≠ .doze → s.path.txReleased = false →
      s.ring.txForcing = false → s.path.rxReleased = true → s.bus.fixedH = some h → s.bus.shadows.txc = some c → countOf c ≠ h →
      dist (countOf c) h ≤ txSize s → dist (countOf c) h ≤ 7 → s.bus.queue = [] → s.bus.waiting = [] →
      ∃ t, exec .releaseTimerExpiry s = .next t
        ∧ (List.range (dist (countOf c) h)).map (fun i => ⟨.completion (advance (countOf c) i) .abandoned,
            .write (addrOf (descriptorAddr m.txBase m.txSize (advance (countOf c) i) + 4)) [⟨BitVec.ofNat 32 (12 * 16777216), 8⟩]⟩) ++ [⟨.txcForced,
            .write (addrOf (watchedAddr m .txc)) [⟨h.setWidth 32, 15⟩]⟩] <+: t.bus.queue
        ∧ t.bus.txGuard = true ∧ t.path.txReleased = true ∧ t.path.releaseTimer = none ∧ t.bus.uplinkView = .following ∧ t.path.path = s.path.path)
  ∧ (∀ (m : MemoryMap) (g : Count) (c : Word) (s : State),
      s.loader.map = some m → holdsRings s = true → s.path.releaseTimer.isSome = true → s.power.mode ≠ .doze → s.path.rxReleased = false →
      s.ring.rxForcing = false → s.path.txReleased = true → s.bus.fixedG = some g → s.bus.shadows.rxf = some c → countOf c ≠ g →
      dist (countOf c) g ≤ rxSize s → dist (countOf c) g ≤ 7 → s.bus.queue = [] → s.bus.waiting = [] →
      ∃ t, exec .releaseTimerExpiry s = .next t
        ∧ (List.range (dist (countOf c) g)).map (fun i => ⟨.abandonedEmpty (advance (countOf c) i),
            .write (addrOf (descriptorAddr m.rxBase m.rxSize (advance (countOf c) i) + 8)) [⟨10, 15⟩]⟩) ++ [⟨.rxfForced,
            .write (addrOf (watchedAddr m .rxf)) [⟨g.setWidth 32, 15⟩]⟩] <+: t.bus.queue
        ∧ t.bus.rxGuard = true ∧ t.path.rxReleased = true ∧ t.path.releaseTimer = none ∧ t.bus.receiveView = .following ∧ t.path.path = s.path.path)
  ∧ (∀ (s : State),
      s.power.mode = .doze → s.path.releaseTimer.isSome = true →
      ∃ t, exec .releaseTimerExpiry s = .next t
        ∧ t.path.recorded = (if s.path.recorded.contains .release then s.path.recorded else s.path.recorded ++ [.release])
        ∧ t.bus.txGuard = s.bus.txGuard ∧ t.bus.rxGuard = s.bus.rxGuard ∧ t.path.txReleased = s.path.txReleased
        ∧ t.path.rxReleased = s.path.rxReleased)
  ∧ (∀ (m : MemoryMap) (h : Count) (g : Count) (c : Word) (d : Word) (s : State),
      s.loader.map = some m → holdsRings s = true → s.path.releaseTimer.isSome = true → s.power.mode ≠ .doze → s.bus.waiting = [] →
      s.bus.fixedH = some h → s.bus.fixedG = some g → s.bus.shadows.txc = some c → s.bus.shadows.rxf = some d →
      (s.path.txReleased = false → s.ring.txForcing = false ∧ countOf c ≠ h) →
      (s.path.rxReleased = false → s.ring.rxForcing = false ∧ countOf d ≠ g) →
      ∃ t, exec .releaseTimerExpiry s = .next t
        ∧ s.bus.queue.map (·.purpose) ++ (if s.path.txReleased then [] else (if dist (countOf c) h ≤ txSize s then (List.range (dist (countOf c) h)).map (fun i => .completion (advance (countOf c) i) .abandoned) else []) ++ [.txcForced]) ++ (if s.path.rxReleased then [] else (if dist (countOf d) g ≤ rxSize s then (List.range (dist (countOf d) g)).map (fun i => .abandonedEmpty (advance (countOf d) i)) else []) ++ [.rxfForced]) <+: t.bus.queue.map (·.purpose) ++ t.bus.waiting
        ∧ (s.path.txReleased = false → t.bus.txGuard = true ∧ (t.path.txReleased = true ∨ t.ring.txForcing = true))
        ∧ (s.path.rxReleased = false → t.bus.rxGuard = true ∧ (t.path.rxReleased = true ∨ t.ring.rxForcing = true))
        ∧ (∀ x ∈ t.bus.queue.drop s.bus.queue.length, ∀ p, (x.purpose = .completion p .abandoned →
            x.transfer = .write (addrOf (descriptorAddr m.txBase m.txSize p + 4)) [⟨BitVec.ofNat 32 (12 * 16777216), 8⟩]) ∧
            (x.purpose = .abandonedEmpty p → x.transfer = .write (addrOf (descriptorAddr m.rxBase m.rxSize p + 8)) [⟨10, 15⟩]))
        ∧ t.path.path = s.path.path)

/-- The return decision and its occasions (R13, R14, R16, R22). -/
def Obligations.ReturnBeginsOnItsOccasions : Prop :=
  (∀ (s : State),
      dwellRuns s = true → s.power.mode ≠ .doze → s.loader.softReset = .none → s.events.entries.length = 11 → s.bus.waiting = [] →
      ∃ t, exec .dwellTimerExpiry s = .next t ∧ t.path.dwell = .met ∧ (s.pins.offhook = true → t.path.path = s.path.path)
        ∧ (s.pins.offhook = false → s.loader.policy.pathOverride = .automatic →
            (s.path.path = .takeover ∨ s.path.path = .radio ∨ s.path.path = .held) → t.path.path = .returning ∧ t.path.phase = some .draining ∧
            t.path.drainTimer = some (s.loader.policy.drainLimit * 1000) ∧ t.path.returnPause = true ∧ t.ring.fence = some (fenceAt s) ∧
            detailOfKind t .pathChange = some (.pathChange s.path.path .returning .dwellMet)))
  ∧ (∀ (s : State),
      ∃ t, exec .offhookAssert s = .next t ∧ t.pins = { s.pins with offhook := true } ∧ t.path.path = s.path.path
        ∧ (s.pins.offhook = false → s.power.step = .entering .settling ∨ s.power.step = .entering .page ∨ s.power.step = .entering .link →
            t.power.step = .awake))
  ∧ (∀ (s : State),
      s.pins.offhook = true → s.power.mode ≠ .doze → s.loader.softReset = .none → s.events.entries.length = 11 → s.bus.waiting = [] →
      (s.path.path = .takeover ∨ s.path.path = .radio ∨ s.path.path = .held) →
      ∃ t, exec .offhookDeassert s = .next t ∧ t.pins = { s.pins with offhook := false }
        ∧ (s.loader.policy.pathOverride = .automatic → s.path.dwell = .met → t.path.path = .returning ∧ t.path.phase = some .draining ∧
            t.path.drainTimer = some (s.loader.policy.drainLimit * 1000) ∧ t.path.returnPause = true ∧ t.ring.fence = some (fenceAt s) ∧
            detailOfKind t .pathChange = some (.pathChange s.path.path .returning .dwellMet))
        ∧ (s.loader.policy.pathOverride = .automatic → s.path.dwell ≠ .met → t.path.path = s.path.path))
  ∧ (∀ (s : State),
      s.path.priorityTimer.isSome = true → s.power.mode ≠ .doze → s.loader.softReset = .none → s.events.entries.length = 11 → ringIdle s →
      ∃ t, exec .priorityTimerExpiry s = .next t ∧ t.path.priorityTimer = none ∧ t.path.emergency = false
        ∧ (s.pins.offhook = false → s.loader.policy.pathOverride = .fibreOnly →
            (s.path.path = .takeover ∨ s.path.path = .radio ∨ s.path.path = .held) → t.path.path = .returning ∧ t.path.phase = some .draining ∧
            t.path.drainTimer = some (s.loader.policy.drainLimit * 1000) ∧ t.path.returnPause = true ∧
            detailOfKind t .pathChange = some (.pathChange s.path.path .returning .fibreOnly))
        ∧ (s.pins.offhook = true → t.path.path = s.path.path))

/-- The drain condition, each of its parts spelled out (R17, R136), and the first step of the hand-back (R19). Receive release is complete with the
RXF write over buffers filled before it issued, so that the part's RXF equals the fill cursor (R133, R136). No drain is judged in a soft reset, whose
return takes its place (R171, log 34). -/
def Obligations.DrainCompleteBeginsHandBack : Prop :=
  (∀ (m : MemoryMap) (f : Count) (s : State),
      s.path.path = .returning → s.path.phase = some .draining → s.loader.softReset ≠ .waiting → s.loader.softReset ≠ .completing →
      s.hold.uqE = [] → s.hold.uqV = [] → s.hold.uqD = [] → s.radio.slotA = none → s.radio.slotB = none → s.hold.dqV = [] → s.hold.dqD = [] →
      s.ring.delivery = none → s.ring.fence = some f → s.ring.partTxc = some f → s.path.txReleased = true → s.path.rxReleased = true →
      s.ring.partRxf = s.ring.fillCursor → s.ring.takes = [] → s.ring.handBackAsked = false → s.loader.map = some m → s.power.mode ≠ .doze →
      s.bus.queue.length ≤ 7 → s.bus.waiting = [] →
      ∃ t, exec .drainComplete s = .next t ∧ t.path.path = .returning ∧ t.path.phase = some .closing ∧ t.path.drainTimer = none
        ∧ t.bus.queue = s.bus.queue ++ [⟨.txcHandBack, .write (addrOf (watchedAddr m .txc)) [⟨f.setWidth 32, 15⟩]⟩])
  ∧ (∀ (s : State),
      (s.hold.uqE ≠ [] ∨ s.hold.uqV ≠ [] ∨ s.hold.uqD ≠ [] ∨ s.radio.slotA ≠ none ∨ s.radio.slotB ≠ none ∨ s.hold.dqV ≠ [] ∨ s.hold.dqD ≠ [] ∨
          s.ring.delivery ≠ none ∨ s.ring.partTxc ≠ s.ring.fence ∨ s.path.txReleased = false ∨ s.path.rxReleased = false ∨
          s.ring.partRxf ≠ s.ring.fillCursor) →
      exec .drainComplete s = .next s)
  ∧ (∀ (b : Count) (f : Count) (s : State),
      s.ring.base = some b → s.ring.partTxc = s.ring.base → s.ring.fence = some f →
      ((∃ e ∈ s.ring.window, dist b e.pos < dist b f) ∨ (∃ k ∈ s.ring.takes, dist b k.pos < dist b f)) →
      exec .drainComplete s = .next s)
  ∧ (∀ (s : State),
      (s.path.path ≠ .returning ∨ s.path.phase ≠ some .draining ∨ s.loader.softReset = .waiting ∨ s.loader.softReset = .completing) →
      exec .drainComplete s = .next s)

/-- The drain limit (R18, R61, R81, R95), and the soft reset off FIBRE: its beginning (R24, R60, R65, R171; log 38 for an entry whose completion
waits) and its discard step (R24, R61, R65, R82, R137), the counters included (R165). -/
def Obligations.DiscardsEmptyHold : Prop :=
  (∀ (s : State),
      draining s = true → s.path.drainTimer.isSome = true → s.bus.waiting = [] → s.events.counters.length = 10 →
      (∀ r ∈ s.hold.uqE ++ s.hold.uqV ++ s.hold.uqD ++ slotRecords s, r.direction = .uplink) →
      (∀ r ∈ s.hold.dqV ++ s.hold.dqD, r.direction = .downlink) →
      ∃ t, exec .drainTimerExpiry s = .next t ∧ t.path.path = .returning ∧ t.path.phase = some .closing ∧ t.path.drainTimer = none
        ∧ (t.path.txReleased = true ∨ t.ring.txForcing = true) ∧ (t.path.rxReleased = true ∨ t.ring.rxForcing = true) ∧ t.hold.uqE = []
        ∧ t.hold.uqV = [] ∧ t.hold.uqD = [] ∧ t.hold.dqV = [] ∧ t.hold.dqD = [] ∧ t.radio.slotA = none ∧ t.radio.slotB = none ∧ t.radio.unsent = []
        ∧ t.pacer.chargeA = none ∧ t.pacer.chargeB = none ∧ t.pacer.credit = s.pacer.credit ∧ t.pacer.carried = s.pacer.carried
        ∧ ((counterOf s .discardedAtReturn).value + (s.hold.uqE ++ s.hold.uqV ++ s.hold.uqD ++ slotRecords s).length ≤ 65535 →
            (counterOf t .discardedAtReturn).value = (counterOf s .discardedAtReturn).value + (s.hold.uqE ++ s.hold.uqV ++ s.hold.uqD ++ slotRecords s).length)
        ∧ ((counterOf s .downlinkDropped).value + (s.hold.dqV ++ s.hold.dqD).length ≤ 65535 →
            (counterOf t .downlinkDropped).value = (counterOf s .downlinkDropped).value + (s.hold.dqV ++ s.hold.dqD).length)
        ∧ (∀ m, s.loader.map = some m → (s.ring.window.filter fun e => e.st == .pending && !e.completing).map (fun e => Purpose.completion e.pos .droppedAtReturn) <:+: t.bus.queue.map (·.purpose) ++ t.bus.waiting)
        ∧ (∀ m, s.loader.map = some m → ∀ x ∈ t.bus.queue.drop s.bus.queue.length, ∀ p, x.purpose = .completion p .droppedAtReturn →
            x.transfer = .write (addrOf (descriptorAddr m.txBase m.txSize p + 4)) [⟨BitVec.ofNat 32 (13 * 16777216), 8⟩]))
  ∧ (∀ (s : State),
      s.loader.softReset = .waiting → s.bus.waiting = [] → s.events.counters.length = 10 →
      (∀ r ∈ s.hold.uqE ++ s.hold.uqV ++ s.hold.uqD ++ slotRecords s, r.direction = .uplink) →
      (∀ r ∈ s.hold.dqV ++ s.hold.dqD, r.direction = .downlink) →
      ∃ t, exec .softResetDiscard s = .next t ∧ t.loader.softReset = .completing ∧ t.loader.softWait = none ∧ t.hold.uqE = [] ∧ t.hold.uqV = []
        ∧ t.hold.uqD = [] ∧ t.hold.dqV = [] ∧ t.hold.dqD = [] ∧ t.radio.slotA = none ∧ t.radio.slotB = none ∧ t.pacer.chargeA = none
        ∧ t.pacer.chargeB = none ∧ t.pacer.credit = s.pacer.credit ∧ t.pacer.carried = s.pacer.carried
        ∧ t.loader.softUp = s.loader.softUp + (s.hold.uqE ++ s.hold.uqV ++ s.hold.uqD ++ slotRecords s).length
        ∧ t.loader.softDown = s.loader.softDown + (s.hold.dqV ++ s.hold.dqD).length
        ∧ ((counterOf s .discardedAtReturn).value + (s.hold.uqE ++ s.hold.uqV ++ s.hold.uqD ++ slotRecords s).length ≤ 65535 →
            (counterOf t .discardedAtReturn).value = (counterOf s .discardedAtReturn).value + (s.hold.uqE ++ s.hold.uqV ++ s.hold.uqD ++ slotRecords s).length)
        ∧ ((counterOf s .downlinkDropped).value + (s.hold.dqV ++ s.hold.dqD).length ≤ 65535 →
            (counterOf t .downlinkDropped).value = (counterOf s .downlinkDropped).value + (s.hold.dqV ++ s.hold.dqD).length)
        ∧ (holdsRings s = true → (t.path.txReleased = true ∨ t.ring.txForcing = true) ∧ (t.path.rxReleased = true ∨ t.ring.rxForcing = true))
        ∧ t.loader.softPositions = s.loader.softPositions + (s.ring.window.filter fun e => e.st == .pending && !e.completing).length
        ∧ entryOfKind t .voiceLoss = entryOfKind s .voiceLoss ∧ entryOfKind t .dataLoss = entryOfKind s .dataLoss
        ∧ (∀ m, s.loader.map = some m → (s.ring.window.filter fun e => e.st == .pending && !e.completing).map (fun e => Purpose.completion e.pos .droppedAtReturn) <:+: t.bus.queue.map (·.purpose) ++ t.bus.waiting)
        ∧ (∀ m, s.loader.map = some m → ∀ x ∈ t.bus.queue.drop s.bus.queue.length, ∀ p, x.purpose = .completion p .droppedAtReturn →
            x.transfer = .write (addrOf (descriptorAddr m.txBase m.txSize p + 4)) [⟨BitVec.ofNat 32 (13 * 16777216), 8⟩]))
  ∧ (∀ (a : Addr) (rest : List MasterTransfer) (bs : List Byte) (s : State),
      s.bus.queue = ⟨.policyRead true, .read a .sixteen⟩ :: rest → bs = s.loader.firstHalf ++ bytesOf (memReadWords s.sram a 16) →
      s.loader.readKind = .ordinary → asksSoftReset bs = true → s.loader.softResetInForce = false →
      (s.path.path = .takeover ∨ s.path.path = .radio ∨ s.path.path = .held ∨ s.path.path = .returning) →
      s.loader.policy.pathOverride = (policyOf bs).pathOverride → s.bus.waiting = [] →
      ((∀ e ∈ s.ring.window, e.st ≠ .pending) ∨ (s.hold.freeList = [] ∧ (∀ e ∈ s.ring.window, 0 < e.cellsNeed) ∧ s.path.radioWanted = true ∧
          (s.radio.state = .attached → s.loader.policy.burst = (policyOf bs).burst ∧ s.loader.policy.overhead = (policyOf bs).overhead))) →
      (∀ p, s.radio.receiver = .payload p → p.fate ≠ .atSoftReset) →
      ∃ t, exec .policyApplied s = .next t ∧ t.path.path = s.path.path ∧ t.path.emergency = false ∧ t.path.priorityTimer = none
        ∧ t.loader.softReset = .waiting ∧ t.loader.softWait = some 500 ∧ t.loader.softUp = 0 ∧ t.loader.softDown = 0 ∧ t.loader.softPositions = 0
        ∧ t.loader.readState = .idle ∧ t.ring.takes = s.ring.takes
        ∧ (s.path.path ≠ .returning → t.ring.fence = some (fenceAt s) ∧ t.ring.readMark = some (fenceAt s) ∧
            t.ring.window = s.ring.window.filter fun e => dist (s.ring.base.getD 0) e.pos < dist (s.ring.base.getD 0) (fenceAt s))
        ∧ (s.path.path = .returning → t.ring.fence = s.ring.fence ∧ t.ring.window = s.ring.window)
        ∧ (∀ d, s.ring.descriptorRead = some d → t.ring.descriptorRead = some { d with discard := true }))

/-- The hand-back's steps (R19, R38, R146), and those of a soft reset with the re-initialisation that follows (R24, R171). That the window base is none
after the hand-back of a return too is the model's choice (log 68; R65 says it of a soft reset). That the free list is 0 to 255 at the re-initialisation though a Send Up is still
being sent on LDO, whose record R67 and R119 keep to the message's end, is the model's reading (log 21; R82 step 4). -/
def Obligations.HandBackReturnsTheRings : Prop :=
  (∀ (a : Addr) (rest : List MasterTransfer) (m : MemoryMap) (f : Count) (s : State),
      s.bus.queue = ⟨.txcHandBack, .write a [⟨f.setWidth 32, 15⟩]⟩ :: rest → s.loader.map = some m → watchedApart m → a.toNat = watchedAddr m .txc →
      s.ring.fence = some f → s.path.path = .returning → s.path.txReleased = true → s.path.rxReleased = true → s.loader.softReset = .none →
      s.health.verdict = .healthy → s.loader.policy.pathOverride = .automatic → ringIdle s → s.events.entries.length = 11 →
      ∃ t, exec .handBack s = .next t ∧ t.path.path = .fibre ∧ t.path.phase = none ∧ t.path.drainTimer = none ∧ t.path.releaseTimer = none
        ∧ t.path.dwell = .stopped ∧ t.path.refallOpen = true ∧ t.path.refallTimer = some 600000 ∧ t.path.dwellD = s.path.dwellD
        ∧ t.path.radioWanted = false ∧ t.path.returnPause = false ∧ t.bus.uplinkView = .off ∧ t.bus.receiveView = .off ∧ t.bus.txGuard = false
        ∧ t.bus.rxGuard = false ∧ t.bus.txHorizon = some f ∧ t.bus.rxHorizon = s.ring.partRxf ∧ t.ring.window = [] ∧ t.ring.base = none
        ∧ t.ring.fence = none ∧ t.health.sig = s.health.sig ∧ t.health.txp = 253 ∧ t.health.rxa = 253 ∧ t.health.txe = 253
        ∧ t.health.verdict = .healthy ∧ t.health.activityMark = false ∧ t.health.timer1s = some 1000 ∧ t.health.timer100 = s.health.timer100
        ∧ detailOfKind t .pathChange = some (.pathChange .returning .fibre .handedBack))
  ∧ (∀ (a : Addr) (rest : List MasterTransfer) (m : MemoryMap) (f : Count) (s : State),
      s.bus.queue = ⟨.txcHandBack, .write a [⟨f.setWidth 32, 15⟩]⟩ :: rest → s.loader.map = some m → watchedApart m → a.toNat = watchedAddr m .txc →
      s.ring.fence = some f → holdsRings s = true → s.path.txReleased = true → s.path.rxReleased = true → s.loader.softReset = .completing →
      s.power.mode ≠ .doze → s.bus.waiting = [] → s.events.entries.length = 11 → s.radio.receiver = .idle →
      ∃ t, exec .handBack s = .next t ∧ t.path.path = .fibre ∧ t.path.phase = none ∧ t.path.drainTimer = none ∧ t.path.dwell = .stopped
        ∧ t.path.refallOpen = s.path.refallOpen ∧ t.path.refallTimer = s.path.refallTimer ∧ t.path.dwellD = s.path.dwellD ∧ t.path.radioWanted = false
        ∧ t.path.returnPause = false ∧ t.bus.uplinkView = .off ∧ t.bus.receiveView = .off ∧ t.bus.txGuard = false ∧ t.bus.rxGuard = false
        ∧ t.bus.txHorizon = some f ∧ t.bus.rxHorizon = s.ring.partRxf ∧ t.ring.window = [] ∧ t.ring.base = none ∧ t.ring.fence = none
        ∧ t.ring.takes = [] ∧ t.ring.delivery = none ∧ t.loader.softReset = .rereading ∧ t.loader.softWait = none ∧ t.loader.readState = .reading
        ∧ t.health.sig = 253 ∧ t.health.txp = 253 ∧ t.health.rxa = 253 ∧ t.health.txe = 253 ∧ t.health.verdict = .healthy
        ∧ t.health.timer100 = some 100 ∧ t.health.timer1s = some 1000 ∧ t.hold.freeList = List.range 256 ∧ t.hold.uqE = [] ∧ t.hold.uqV = []
        ∧ t.hold.uqD = [] ∧ t.hold.dqV = [] ∧ t.hold.dqD = [] ∧ t.hold.paused = false ∧ t.hold.sweep10 = some 10 ∧ t.hold.sweep1s = some 1000
        ∧ t.pacer.credit = 0 ∧ t.pacer.grantSeen = false ∧ t.pacer.refusalPause = none ∧ t.pacer.carried = s.pacer.carried ∧ t.radio.slotA = none
        ∧ t.radio.slotB = none ∧ t.radio.failures = 0 ∧ t.radio.lastCause = none ∧ t.power.quiet = .running (s.loader.policy.dozeDelay * 1000)
        ∧ t.power.latch = ⟨false, false, false, false, false, false, false⟩ ∧ (∀ k, k ≠ .softResetDone → entryOfKind t k = none)
        ∧ detailOfKind t .softResetDone = some (.softResetDone s.loader.softUp s.loader.softDown s.loader.softPositions))

/-- Takeover on the verdict (R5, R7, R8, R34), which abandons an entry to DOZE (R157), the refall window (R7, R26), the dwell's start (R13) and the
interruption of a return (R15, R20, R62): by the verdict, and by a policy that changes the override to Radio Now, or to Automatic while the verdict is
UNHEALTHY and the dwell is not met (R13 has stopped it). The takeover in FIBRE by a policy that changes the override likewise (R2, R5): the path goes
on to RADIO or HELD at once when the radio is ATTACHED or in BACKOFF (R11, R12). -/
def Obligations.TakeoverSetsDwellAndViews : Prop :=
  (∀ (s : State),
      s.health.timer100.isSome = true → s.power.mode ≠ .doze → s.path.path = .fibre → s.loader.shadowsLoaded = true → s.loader.softReset = .none →
      s.loader.policy.pathOverride = .automatic → s.health.verdict = .healthy → s.pins.los = true →
      max 1 (s.health.sig - s.loader.policy.sig.p) ≤ s.loader.policy.sig.t → s.radio.state ≠ .attached → s.radio.state ≠ .backoff →
      s.bus.waiting = [] → s.events.entries.length = 11 →
      ∃ t, exec .health100msExpiry s = .next t ∧ t.health.verdict = .unhealthy ∧ t.path.path = .takeover
        ∧ t.path.dwellD = (if s.path.refallOpen then min (2 * s.path.dwellD) 3600 else s.loader.policy.d0) ∧ t.path.dwell = .stopped
        ∧ t.bus.fixedH = s.bus.txHorizon ∧ t.bus.fixedG = s.bus.rxHorizon ∧ t.ring.base = s.bus.txHorizon ∧ t.ring.fillCursor = s.bus.rxHorizon
        ∧ t.bus.uplinkView ≠ .off ∧ t.bus.receiveView ≠ .off ∧ t.health.timer1s = none ∧ t.path.radioWanted = true
        ∧ detailOfKind t .pathChange = some (.pathChange .fibre .takeover .verdict))
  ∧ (∀ (s : State),
      s.path.refallTimer.isSome = true → s.power.mode ≠ .doze →
      exec .refallTimerExpiry s = .next { s with path.refallTimer := none, path.refallOpen := false })
  ∧ (∀ (s : State),
      s.path.refallTimer.isSome = true → s.power.mode = .doze → s.path.recorded.contains .refall = false →
      exec .refallTimerExpiry s = .next { s with path.recorded := s.path.recorded ++ [.refall] })
  ∧ (∀ (s : State),
      s.health.timer100.isSome = true → s.power.mode ≠ .doze →
      (s.path.path = .takeover ∨ s.path.path = .radio ∨ s.path.path = .held ∨ s.path.path = .returning) → s.health.verdict = .unhealthy →
      s.pins.los = false → s.pins.link = true → s.loader.policy.sig.t < min 253 (s.health.sig + s.loader.policy.sig.q) →
      min 253 (s.loader.policy.sig.t + s.loader.policy.sig.m) ≤ min 253 (s.health.sig + s.loader.policy.sig.q) →
      ∃ t, exec .health100msExpiry s = .next t ∧ t.health.verdict = .healthy ∧ t.path.dwell = .running (s.path.dwellD * 1000)
        ∧ t.path.path = s.path.path)
  ∧ (∀ (s : State),
      s.health.timer100.isSome = true → s.power.mode ≠ .doze → s.path.path = .returning → s.path.phase = some .draining →
      s.loader.softReset = .none → s.loader.policy.pathOverride = .automatic → s.health.verdict = .healthy → s.pins.los = true →
      max 1 (s.health.sig - s.loader.policy.sig.p) ≤ s.loader.policy.sig.t → s.bus.waiting = [] → s.events.entries.length = 11 →
      ∃ t, exec .health100msExpiry s = .next t ∧ t.health.verdict = .unhealthy ∧ t.path.dwell = .stopped ∧ t.path.phase = none
        ∧ t.path.drainTimer = none ∧ t.ring.fence = none ∧ t.path.returnPause = false
        ∧ t.path.path = (if s.radio.state = .attached then .radio else .held)
        ∧ detailOfKind t .pathChange = some (.pathChange .returning (if s.radio.state = .attached then .radio else .held) .interruptedByVerdict)
        ∧ t.path.releaseTimer = s.path.releaseTimer ∧ t.path.txReleased = s.path.txReleased ∧ t.path.rxReleased = s.path.rxReleased
        ∧ t.events.pageWanted = true)
  ∧ (∀ (s : State),
      s.health.timer100.isSome = true → s.power.mode ≠ .doze → s.path.path = .returning → s.path.phase = some .draining →
      s.loader.policy.pathOverride = .fibreOnly → s.health.verdict = .healthy → s.pins.los = true →
      max 1 (s.health.sig - s.loader.policy.sig.p) ≤ s.loader.policy.sig.t →
      ∃ t, exec .health100msExpiry s = .next t ∧ t.health.verdict = .unhealthy ∧ t.path.dwell = .stopped ∧ t.path.path = .returning
        ∧ t.path.phase = some .draining ∧ t.path.drainTimer = s.path.drainTimer ∧ t.ring.fence = s.ring.fence)
  ∧ (∀ (a : Addr) (rest : List MasterTransfer) (bs : List Byte) (s : State),
      s.bus.queue = ⟨.policyRead true, .read a .sixteen⟩ :: rest → bs = s.loader.firstHalf ++ bytesOf (memReadWords s.sram a 16) →
      s.loader.readKind = .ordinary → asksSoftReset bs = false → s.path.path = .returning → s.path.phase = some .draining →
      s.loader.softReset = .none → s.loader.policy.pathOverride ≠ .radioNow → (policyOf bs).pathOverride = .radioNow → s.power.mode ≠ .doze →
      s.bus.waiting = [] → s.events.entries.length = 11 →
      ∃ t, exec .policyApplied s = .next t ∧ t.path.dwell = s.path.dwell ∧ t.path.phase = none ∧ t.path.drainTimer = none ∧ t.ring.fence = none
        ∧ t.path.returnPause = false ∧ t.path.path = (if s.radio.state = .attached then .radio else .held)
        ∧ detailOfKind t .pathChange = some (.pathChange .returning (if s.radio.state = .attached then .radio else .held) .interruptedByRadioNow)
        ∧ t.path.releaseTimer = s.path.releaseTimer ∧ t.path.txReleased = s.path.txReleased ∧ t.path.rxReleased = s.path.rxReleased
        ∧ t.events.pageWanted = true)
  ∧ (∀ (a : Addr) (rest : List MasterTransfer) (bs : List Byte) (s : State),
      s.bus.queue = ⟨.policyRead true, .read a .sixteen⟩ :: rest → bs = s.loader.firstHalf ++ bytesRead s.sram a 64 →
      s.loader.readKind = .ordinary → softResetAsked bs = false → s.path.path = .returning → s.path.phase = some .draining →
      s.loader.softReset = .none → s.loader.policy.pathOverride ≠ .automatic → (blockPolicy bs 0).pathOverride = .automatic →
      s.health.verdict = .unhealthy → s.path.dwell ≠ .met → s.power.mode ≠ .doze → s.bus.waiting = [] → s.events.entries.length = 11 →
      ∃ t, exec .policyApplied s = .next t ∧ t.path.dwell = s.path.dwell ∧ t.path.phase = none ∧ t.path.drainTimer = none ∧ t.ring.fence = none
        ∧ t.path.returnPause = false ∧ t.path.path = (if s.radio.state = .attached then .radio else .held)
        ∧ detailOfKind t .pathChange = some (.pathChange .returning (if s.radio.state = .attached then .radio else .held) .interruptedByVerdict)
        ∧ t.path.releaseTimer = s.path.releaseTimer ∧ t.path.txReleased = s.path.txReleased ∧ t.path.rxReleased = s.path.rxReleased
        ∧ t.events.pageWanted = true)
  ∧ (∀ (a : Addr) (rest : List MasterTransfer) (bs : List Byte) (s : State),
      s.bus.queue = ⟨.policyRead true, .read a .sixteen⟩ :: rest → bs = s.loader.firstHalf ++ bytesRead s.sram a 64 →
      s.loader.readKind = .ordinary → softResetAsked bs = false → s.path.path = .returning → s.path.phase = some .draining →
      s.loader.softReset = .none → s.loader.policy.pathOverride ≠ .automatic → (blockPolicy bs 0).pathOverride = .automatic →
      s.health.verdict = .healthy → s.power.mode ≠ .doze → s.bus.waiting = [] →
      ∃ t, exec .policyApplied s = .next t ∧ t.path.path = .returning ∧ t.path.phase = some .draining ∧ t.path.drainTimer = s.path.drainTimer
        ∧ t.ring.fence = s.ring.fence ∧ t.path.returnPause = s.path.returnPause)
  ∧ (∀ (a : Addr) (rest : List MasterTransfer) (bs : List Byte) (cause : PathCause) (s : State),
      s.bus.queue = ⟨.policyRead true, .read a .sixteen⟩ :: rest → bs = s.loader.firstHalf ++ bytesRead s.sram a 64 →
      s.loader.readKind = .ordinary → softResetAsked bs = false → s.path.path = .fibre → s.loader.shadowsLoaded = true →
      s.loader.softReset = .none → s.loader.policy.pathOverride ≠ (blockPolicy bs 0).pathOverride →
      ((blockPolicy bs 0).pathOverride = .radioNow ∧ cause = .radioNow ∨
          (blockPolicy bs 0).pathOverride = .automatic ∧ s.health.verdict = .unhealthy ∧ cause = .verdict) →
      s.power.mode ≠ .doze → s.bus.waiting = [] → s.events.entries.length = 11 →
      ∃ t, exec .policyApplied s = .next t
        ∧ t.path.path = (if s.radio.state = .attached then .radio else if s.radio.state = .backoff then .held else .takeover)
        ∧ detailOfKind t .pathChange = some (if s.radio.state = .attached then .pathChange .takeover .radio .attached
            else if s.radio.state = .backoff then .pathChange .takeover .held .attachFailed else .pathChange .fibre .takeover cause)
        ∧ t.path.dwellD = (if s.path.refallOpen then min (2 * s.path.dwellD) 3600 else (blockPolicy bs 0).d0)
        ∧ t.path.dwell = (if s.health.verdict = .healthy then .running (t.path.dwellD * 1000) else .stopped)
        ∧ t.bus.fixedH = s.bus.txHorizon ∧ t.bus.fixedG = s.bus.rxHorizon ∧ t.ring.base = s.bus.txHorizon ∧ t.ring.fillCursor = s.bus.rxHorizon
        ∧ t.bus.uplinkView ≠ .off ∧ t.bus.receiveView ≠ .off ∧ t.health.timer1s = none ∧ t.path.radioWanted = true)
  ∧ (∀ (e : EntryStage) (s : State),
      s.health.timer100.isSome = true → s.path.path = .fibre → s.loader.shadowsLoaded = true → s.loader.softReset = .none →
      s.loader.policy.pathOverride = .automatic → s.health.verdict = .healthy → s.pins.los = true →
      max 1 (s.health.sig - s.loader.policy.sig.p) ≤ s.loader.policy.sig.t → s.bus.waiting = [] → s.events.entries.length = 11 →
      (s.radio.state = .attached ∨ s.radio.state = .backoff) → s.power.step = .entering e → dozeConditions s = true →
      ∃ t, exec .health100msExpiry s = .next t ∧ t.path.path = (if s.radio.state = .attached then .radio else .held)
        ∧ t.power.step = .entering .settling ∧ t.power.mode = .reserve ∧ (e ≠ .link → t.radio.items.lowPower = s.radio.items.lowPower)
        ∧ (e = .link → s.radio.lowPowerTold = true → s.radio.ldo = none → s.radio.items.lowPower = none → t.radio.items.lowPower = some false)
        ∧ t.events.pageWanted = true)

/-- Module Ready by radio state (R109, R110, R111). -/
def Obligations.ModuleReadyEndsTheStart : Prop :=
  (∀ (s : State),
      receiverReady s = true → s.radio.state = .starting → atRest s → partWorks s = true →
      ∃ t, exec .moduleReady s = .next t ∧ t.radio.startTimer = none ∧ t.radio.pauseTold = false ∧ t.radio.capTold = 0
        ∧ ((s.path.radioWanted = true ∨ s.path.emergency = true) → t.radio.state = .attaching ∧ t.radio.ready = true ∧ t.radio.items.attach = true ∧
            t.radio.attachTimer = some (s.loader.policy.attachTimeout * 1000) ∧ t.radio.items.downCap = (s.pacer.downlinkCap != 0) ∧
            t.radio.items.pause = pauseTarget s)
        ∧ (s.path.radioWanted = false → s.path.emergency = false → s.loader.policy.warm = true → s.power.mode = .mains → t.radio.state = .detached ∧
            t.radio.ready = true ∧ t.radio.items.downCap = (s.pacer.downlinkCap != 0) ∧ t.radio.items.pause = pauseTarget s)
        ∧ (s.path.radioWanted = false → s.path.emergency = false → (s.loader.policy.warm = false ∨ s.power.mode ≠ .mains) → t.radio.state = .off ∧
            t.radio.ready = false ∧ t.radio.mpwr = false ∧ t.radio.mrst = true))
  ∧ (∀ (s : State),
      receiverReady s = true → s.radio.state = .detached → atRest s →
      ∃ t, exec .moduleReady s = .next t
        ∧ t = dozeAside { s with radio.ready := true, radio.pauseTold := false, radio.capTold := 0, radio.items.downCap := (s.pacer.downlinkCap != 0), radio.items.pause := pauseTarget s } t)
  ∧ (∀ (s : State),
      receiverReady s = true → s.radio.state = .backoff → atRest s →
      ∃ t, exec .moduleReady s = .next t
        ∧ t = dozeAside { s with radio.ready := true, radio.pauseTold := false, radio.capTold := 0, radio.items.downCap := (s.pacer.downlinkCap != 0), radio.items.pause := pauseTarget s } t)
  ∧ (∀ (s : State),
      s.radio.state = .off → s.radio.mpwr = false →
      exec .moduleReady s = .next s)

/-- Attach success (R113, R96, R11). -/
def Obligations.AttachResultSuccessAttaches : Prop :=
  (∀ (s : State),
      receiverReady s = true → s.radio.state = .attaching → atRest s → uplinkEmpty s = true → s.events.entries.length = 11 →
      ∃ t, exec (.attachResult 0) s = .next t ∧ t.radio.state = .attached ∧ t.radio.failures = 0 ∧ t.radio.lastCause = none
        ∧ t.radio.attachTimer = none ∧ t.radio.silenceTimer = some 10000 ∧ t.path.emergency = false ∧ t.pacer.credit = 0 ∧ t.pacer.grantSeen = false
        ∧ t.radio.slotA = s.radio.slotA ∧ t.radio.slotB = s.radio.slotB ∧ (s.path.radioWanted = true → t.radio.lingerTimer = s.radio.lingerTimer)
        ∧ (s.path.radioWanted = false → s.loader.policy.linger ≠ 0 → t.radio.lingerTimer = some (s.loader.policy.linger * 1000))
        ∧ (s.path.radioWanted = false → s.loader.policy.linger = 0 → t.radio.items.detach = true)
        ∧ ((s.path.path = .takeover ∨ s.path.path = .held) →
            returnBarred s → t.path.path = .radio ∧
            detailOfKind t .pathChange = some (.pathChange s.path.path .radio .attached))
        ∧ ((s.path.path = .takeover ∨ s.path.path = .held) → s.loader.softReset = .none →
            ¬ returnBarred s → t.path.path = .returning))
  ∧ (∀ (tag : Byte) (s : State),
      s.radio.state ≠ .attaching →
      exec (.attachResult tag) s = .next s)

/-- Attach failures (R114): with the radio wanted or the emergency flag set, an emergency attach that fails included; with neither, where the
power rule decides (R108); and the immediate emergency retry by each failure. The start timeout (R110). A Module Ready's items (R111, R123),
the withdrawal of a pending Attach Request (log 29) and the power rule after the entry to BACKOFF (log 42) are as logged. -/
def Obligations.AttachFailuresBackOff : Prop :=
  (∀ (tag : Byte) (s : State),
      receiverReady s = true → s.radio.state = .attaching → (s.path.radioWanted = true ∨ s.path.emergency = true) →
      (s.path.emergency = true → s.radio.attachTag ≠ some false) → atRest s →
      s.events.entries.length = 11 → tag ≠ 0 → tag.toNat ≤ 15 →
      ∃ t, exec (.attachResult tag) s = .next t ∧ t.radio.state = .backoff ∧ t.radio.failures = min (s.radio.failures + 1) 255
        ∧ t.radio.lastCause = some tag.toNat ∧ t.radio.attachTimer = none
        ∧ t.radio.backoffTimer = some (1000 * min (4 * 2 ^ (min (s.radio.failures + 1) 255 - 1)) 256)
        ∧ (s.radio.failures = 4 → detailOfKind t .radioUnavailable = some (.radioUnavailable tag.toNat 5))
        ∧ (s.path.path = .takeover → returnBarred s → t.path.path = .held ∧
            detailOfKind t .pathChange = some (.pathChange .takeover .held .attachFailed))
        ∧ (s.path.path = .takeover → s.loader.softReset = .none → ¬ returnBarred s → t.path.path = .returning))
  ∧ (∀ (s : State),
      s.radio.attachTimer.isSome = true → s.power.mode ≠ .doze → s.radio.state = .attaching → (s.path.radioWanted = true ∨ s.path.emergency = true) →
      (s.path.emergency = true → s.radio.attachTag ≠ some false) →
      atRest s → s.events.entries.length = 11 →
      ∃ t, exec .attachTimerExpiry s = .next t ∧ t.radio.state = .backoff ∧ t.radio.failures = min (s.radio.failures + 1) 255
        ∧ t.radio.lastCause = some 16 ∧ t.radio.attachTimer = none
        ∧ t.radio.backoffTimer = some (1000 * min (4 * 2 ^ (min (s.radio.failures + 1) 255 - 1)) 256)
        ∧ (s.radio.failures = 4 → detailOfKind t .radioUnavailable = some (.radioUnavailable 16 5))
        ∧ (s.path.path = .takeover → returnBarred s → t.path.path = .held ∧
            detailOfKind t .pathChange = some (.pathChange .takeover .held .attachFailed))
        ∧ (s.path.path = .takeover → s.loader.softReset = .none → ¬ returnBarred s → t.path.path = .returning)
        ∧ t.radio.items.attach = false)
  ∧ (∀ (s : State),
      receiverReady s = true → s.radio.state = .attaching → (s.path.radioWanted = true ∨ s.path.emergency = true) →
      (s.path.emergency = true → s.radio.attachTag ≠ some false) → atRest s →
      s.events.entries.length = 11 →
      ∃ t, exec .moduleReady s = .next t ∧ t.radio.state = .backoff ∧ t.radio.failures = min (s.radio.failures + 1) 255 ∧ t.radio.lastCause = some 18
        ∧ t.radio.attachTimer = none ∧ t.radio.backoffTimer = some (1000 * min (4 * 2 ^ (min (s.radio.failures + 1) 255 - 1)) 256)
        ∧ (s.radio.failures = 4 → detailOfKind t .radioUnavailable = some (.radioUnavailable 18 5))
        ∧ (s.path.path = .takeover → returnBarred s → t.path.path = .held ∧
            detailOfKind t .pathChange = some (.pathChange .takeover .held .attachFailed))
        ∧ (s.path.path = .takeover → s.loader.softReset = .none → ¬ returnBarred s → t.path.path = .returning)
        ∧ t.radio.pauseTold = false ∧ t.radio.capTold = 0 ∧ t.radio.ready = true ∧ t.radio.items.downCap = (s.pacer.downlinkCap != 0)
        ∧ (returnBarred s → t.radio.items.pause = pauseTarget s))
  ∧ (∀ (s : State),
      s.radio.startTimer.isSome = true → s.power.mode ≠ .doze → s.radio.state = .starting → atRest s → s.events.entries.length = 11 →
      ∃ t, exec .startTimerExpiry s = .next t ∧ t.radio.state = .backoff ∧ t.radio.failures = min (s.radio.failures + 1) 255
        ∧ t.radio.lastCause = some 17 ∧ t.radio.attachTimer = none
        ∧ t.radio.backoffTimer = some (1000 * min (4 * 2 ^ (min (s.radio.failures + 1) 255 - 1)) 256)
        ∧ (s.radio.failures = 4 → detailOfKind t .radioUnavailable = some (.radioUnavailable 17 5))
        ∧ (s.path.path = .takeover → returnBarred s → t.path.path = .held ∧
            detailOfKind t .pathChange = some (.pathChange .takeover .held .attachFailed))
        ∧ (s.path.path = .takeover → s.loader.softReset = .none → ¬ returnBarred s → t.path.path = .returning)
        ∧ t.radio.cycleTimer = some 1000 ∧ t.radio.mpwr = false ∧ t.radio.mrst = true ∧ t.radio.ready = false ∧ t.radio.startTimer = none)
  ∧ (∀ (c : Instr) (cause : Nat) (s : State),
      FailsAttach c cause s → s.radio.state = .attaching → s.path.emergency = true → s.radio.attachTag = some false → atRest s →
      ∃ t, exec c s = .next t ∧ t.radio.state = .attaching ∧ t.radio.items.attach = true ∧ t.radio.attachTag = none
        ∧ t.radio.failures = min (s.radio.failures + 1) 255 ∧ t.radio.lastCause = some cause ∧ t.path.emergency = true
        ∧ t.radio.attachTimer = some (s.loader.policy.attachTimeout * 1000) ∧ (s.path.path ≠ .radio → t.path.path = s.path.path)
        ∧ (s.events.entries.length = 11 → s.radio.failures = 4 → detailOfKind t .radioUnavailable = some (.radioUnavailable cause 5)))
  ∧ (∀ (c : Instr) (cause : Nat) (s : State),
      FailsAttach c cause s → s.radio.state = .attaching → s.path.radioWanted = false → s.path.emergency = false → atRest s →
      s.events.entries.length = 11 →
      ∃ t, exec c s = .next t ∧ t.radio.failures = min (s.radio.failures + 1) 255 ∧ t.radio.lastCause = some cause ∧ t.radio.attachTimer = none
        ∧ (s.radio.failures = 4 → detailOfKind t .radioUnavailable = some (.radioUnavailable cause 5))
        ∧ (s.loader.policy.warm = true → s.power.mode = .mains → t.radio.state = .backoff ∧
            t.radio.backoffTimer = some (1000 * min (4 * 2 ^ (min (s.radio.failures + 1) 255 - 1)) 256))
        ∧ ((s.loader.policy.warm = false ∨ s.power.mode ≠ .mains) → partWorks s = true → t.radio.state = .off ∧ t.radio.mpwr = false ∧
            t.radio.mrst = true ∧ t.radio.ready = false ∧ t.radio.backoffTimer = none ∧ t.radio.items.attach = false))

/-- The latest grant (R117) and the refill (R87, R88). -/
def Obligations.GrantReportFeedsTheRefill : Prop :=
  (∀ (u : BitVec 16) (d : BitVec 16) (q : Byte) (s : State),
      receiverReady s = true → s.radio.state ≠ .off →
      exec (.grantReport u d q) s = .next { s with
          radio.grantUp := u.toNat, radio.grantDown := d.toNat, radio.grantQuality := min q.toNat 31,
          radio.silenceTimer := if s.radio.state = .attached then some 10000 else s.radio.silenceTimer,
          pacer.grantSeen := if s.radio.state = .attached then true else s.pacer.grantSeen })
  ∧ (∀ (s : State),
      s.pacer.pacing.isSome = true → atRest s → uplinkEmpty s = true →
      ∃ t, exec .pacingTimerExpiry s = .next t
        ∧ t = dozeAside { s with pacer.pacing := some 1, pacer.credit := min (8 * (s.loader.policy.burst : Int)) (s.pacer.credit + (
            if s.radio.state ≠ .attached ∨ s.pacer.grantSeen = false then 0
            else min (if s.power.mode = .mains then s.radio.grantUp else min s.radio.grantUp s.loader.policy.reserveCap)
                     (if s.pacer.allowance = .exhausted then s.loader.policy.trickle else s.radio.grantUp) : Nat)) } t)

/-- Leaving ATTACHED (R12, R118), and what a Module Ready there brings (R75, R94, R109, R111); the order of the two slots is the model's (log 35).
-/
def Obligations.RadioLeavesAttached : Prop :=
  (∀ (s : State),
      receiverReady s = true → s.radio.state = .attached → atRest s → partWorks s = true → s.events.entries.length = 11 →
      ∃ t, exec .coverageLost s = .next t ∧ t.radio.silenceTimer = none ∧ t.radio.lingerTimer = none ∧ t.radio.items.detach = false
        ∧ t.radio.failures = s.radio.failures ∧ t.radio.slotA = s.radio.slotA ∧ t.radio.slotB = s.radio.slotB
        ∧ ((s.path.radioWanted = true ∨ s.path.emergency = true) → t.radio.state = .attaching ∧ t.radio.items.attach = true ∧
            t.radio.attachTimer = some (s.loader.policy.attachTimeout * 1000))
        ∧ (s.path.radioWanted = false → s.path.emergency = false → s.loader.policy.warm = true → s.power.mode = .mains → t.radio.state = .detached)
        ∧ (s.path.radioWanted = false → s.path.emergency = false → (s.loader.policy.warm = false ∨ s.power.mode ≠ .mains) → t.radio.state = .off ∧
            t.radio.mpwr = false)
        ∧ (s.path.path = .radio → returnBarred s → t.path.path = .held ∧
            detailOfKind t .pathChange = some (.pathChange .radio .held .radioLost))
        ∧ (s.path.path = .radio → s.loader.softReset = .none →
            ¬ returnBarred s → t.path.path = .returning))
  ∧ (∀ (s : State),
      s.radio.silenceTimer.isSome = true → s.power.mode ≠ .doze → s.radio.state = .attached → atRest s → partWorks s = true →
      s.events.entries.length = 11 →
      ∃ t, exec .grantSilenceExpiry s = .next t ∧ t.radio.silenceTimer = none ∧ t.radio.lingerTimer = none ∧ t.radio.items.detach = false
        ∧ t.radio.failures = s.radio.failures ∧ t.radio.slotA = s.radio.slotA ∧ t.radio.slotB = s.radio.slotB
        ∧ ((s.path.radioWanted = true ∨ s.path.emergency = true) → t.radio.state = .attaching ∧ t.radio.items.attach = true ∧
            t.radio.attachTimer = some (s.loader.policy.attachTimeout * 1000))
        ∧ (s.path.radioWanted = false → s.path.emergency = false → s.loader.policy.warm = true → s.power.mode = .mains → t.radio.state = .detached)
        ∧ (s.path.radioWanted = false → s.path.emergency = false → (s.loader.policy.warm = false ∨ s.power.mode ≠ .mains) → t.radio.state = .off ∧
            t.radio.mpwr = false)
        ∧ (s.path.path = .radio → returnBarred s → t.path.path = .held ∧
            detailOfKind t .pathChange = some (.pathChange .radio .held .radioLost))
        ∧ (s.path.path = .radio → s.loader.softReset = .none →
            ¬ returnBarred s → t.path.path = .returning))
  ∧ (∀ (s : State),
      s.radio.ldo = some (.detach true) → s.power.mode ≠ .doze → s.radio.state = .attached → atRest s → partWorks s = true →
      s.events.entries.length = 11 →
      ∃ t, exec .detachRequestSent s = .next t ∧ t.radio.ldo = none ∧ t.radio.silenceTimer = none ∧ t.radio.lingerTimer = none
        ∧ t.radio.items.detach = false ∧ t.radio.failures = s.radio.failures ∧ t.radio.slotA = s.radio.slotA ∧ t.radio.slotB = s.radio.slotB
        ∧ ((s.path.radioWanted = true ∨ s.path.emergency = true) → t.radio.state = .attaching ∧ t.radio.items.attach = true ∧
            t.radio.attachTimer = some (s.loader.policy.attachTimeout * 1000))
        ∧ (s.path.radioWanted = false → s.path.emergency = false → s.loader.policy.warm = true → s.power.mode = .mains → t.radio.state = .detached)
        ∧ (s.path.radioWanted = false → s.path.emergency = false → (s.loader.policy.warm = false ∨ s.power.mode ≠ .mains) → t.radio.state = .off ∧
            t.radio.mpwr = false)
        ∧ (s.path.path = .radio → returnBarred s → t.path.path = .held ∧
            detailOfKind t .pathChange = some (.pathChange .radio .held .radioLost))
        ∧ (s.path.path = .radio → s.loader.softReset = .none →
            ¬ returnBarred s → t.path.path = .returning))
  ∧ (∀ (s : State),
      receiverReady s = true → s.radio.slotA = none → s.radio.slotB = none → s.radio.state = .attached → atRest s → partWorks s = true →
      s.events.entries.length = 11 →
      ∃ t, exec .moduleReady s = .next t ∧ t.radio.pauseTold = false ∧ t.radio.capTold = 0
        ∧ (t.radio.state ≠ .off → t.radio.items.downCap = (s.pacer.downlinkCap != 0))
        ∧ (t.radio.state ≠ .off → pauseTarget t = true → t.radio.items.pause = true) ∧ t.radio.ready = (t.radio.state != .off)
        ∧ t.radio.silenceTimer = none ∧ t.radio.lingerTimer = none ∧ t.radio.items.detach = false ∧ t.radio.failures = s.radio.failures
        ∧ t.radio.slotA = s.radio.slotA ∧ t.radio.slotB = s.radio.slotB
        ∧ ((s.path.radioWanted = true ∨ s.path.emergency = true) → t.radio.state = .attaching ∧ t.radio.items.attach = true ∧
            t.radio.attachTimer = some (s.loader.policy.attachTimeout * 1000))
        ∧ (s.path.radioWanted = false → s.path.emergency = false → s.loader.policy.warm = true → s.power.mode = .mains → t.radio.state = .detached)
        ∧ (s.path.radioWanted = false → s.path.emergency = false → (s.loader.policy.warm = false ∨ s.power.mode ≠ .mains) → t.radio.state = .off ∧
            t.radio.mpwr = false)
        ∧ (s.path.path = .radio → returnBarred s → t.path.path = .held ∧
            detailOfKind t .pathChange = some (.pathChange .radio .held .radioLost))
        ∧ (s.path.path = .radio → s.loader.softReset = .none →
            ¬ returnBarred s → t.path.path = .returning))
  ∧ (∀ (back : FrameClass → List FrameRecord) (gone : List FrameRecord) (s : State),
      receiverReady s = true → (s.radio.slotA ≠ none ∨ s.radio.slotB ≠ none) → s.radio.state = .attached → atRest s → partWorks s = true →
      s.events.entries.length = 11 →
      (back = fun cl => [s.radio.slotB, s.radio.slotA].filterMap fun x => x.bind fun b =>
        if b.record.cls = cl ∧ b.record.refusals + 1 < 16 then some { b.record with refusals := b.record.refusals + 1 } else none) →
      (gone = [s.radio.slotA, s.radio.slotB].filterMap fun x => x.bind fun b => if 15 ≤ b.record.refusals then some b.record else none) →
      ∃ t, exec .moduleReady s = .next t ∧ t.radio.slotA = none ∧ t.radio.slotB = none ∧ (s.radio.slotA ≠ none → t.pacer.chargeA = none)
        ∧ (s.radio.slotB ≠ none → t.pacer.chargeB = none) ∧ t.pacer.refusalPause = some 20
        ∧ t.pacer.credit = min (s.pacer.credit + (if s.radio.slotA = none then 0 else s.pacer.chargeA.getD 0 : Nat) + (if s.radio.slotB = none then 0 else s.pacer.chargeB.getD 0 : Nat)) (8 * (s.loader.policy.burst : Int))
        ∧ t.hold.uqE = back .voicePriority ++ s.hold.uqE ∧ t.hold.uqV = back .voice ++ s.hold.uqV ∧ t.hold.uqD = back .data ++ s.hold.uqD
        ∧ ((∀ q live r, s.radio.ldo ≠ some (.sendUp q live r)) → s.hold.onLdo = [] → t.hold.freeList = s.hold.freeList ++ gone.flatMap (·.cells))
        ∧ t.radio.pauseTold = false ∧ t.radio.capTold = 0 ∧ (t.radio.state ≠ .off → t.radio.items.downCap = (s.pacer.downlinkCap != 0))
        ∧ (t.radio.state ≠ .off → pauseTarget t = true → t.radio.items.pause = true) ∧ t.radio.ready = (t.radio.state != .off)
        ∧ t.radio.silenceTimer = none ∧ t.radio.lingerTimer = none ∧ t.radio.items.detach = false ∧ t.radio.failures = s.radio.failures
        ∧ ((s.path.radioWanted = true ∨ s.path.emergency = true) → t.radio.state = .attaching ∧ t.radio.items.attach = true ∧
            t.radio.attachTimer = some (s.loader.policy.attachTimeout * 1000))
        ∧ (s.path.radioWanted = false → s.path.emergency = false → s.loader.policy.warm = true → s.power.mode = .mains → t.radio.state = .detached)
        ∧ (s.path.radioWanted = false → s.path.emergency = false → (s.loader.policy.warm = false ∨ s.power.mode ≠ .mains) → t.radio.state = .off ∧
            t.radio.mpwr = false)
        ∧ (s.path.path = .radio → returnBarred s → t.path.path = .held ∧
            detailOfKind t .pathChange = some (.pathChange .radio .held .radioLost))
        ∧ (s.path.path = .radio → s.loader.softReset = .none →
            ¬ returnBarred s → t.path.path = .returning))
  ∧ (∀ (s : State),
      s.radio.state ≠ .attached →
      exec .coverageLost s = .next s)

/-- Settling a slot (R93, R94, R75, R120), with the usage, the allowance and the pause that follow (R98, R100, R101), and the
downlink pause that every record's freed cells may move (R80). -/
def Obligations.SendResultsSettleTheSlot : Prop :=
  (∀ (tag : Byte) (s : State),
      receiverReady s = true → slotOfRadio s (resultSlot tag) = none →
      exec (.sendResult tag) s = .next { s with events.counters := s.events.counters.modify 9 raisedCounter })
  ∧ (∀ (tag : Byte) (slot : Slot) (b : BusySlot) (s : State),
      receiverReady s = true → resultSlot tag = slot → resultRefused tag = false → slotOfRadio s slot = some b → atRest s → uplinkEmpty s = true →
      (∀ q live r, s.radio.ldo ≠ some (.sendUp q live r)) →
      ∃ t, exec (.sendResult tag) s = .next t ∧ slotOfRadio t slot = none ∧ chargeOf t slot = none ∧ t.pacer.credit = s.pacer.credit
        ∧ t.pacer.refusalPause = s.pacer.refusalPause ∧ t.hold.freeList = s.hold.freeList ++ b.record.cells
        ∧ t.pacer.carried = s.pacer.carried + (if b.record.cls = .data then b.record.length else 0) ∧ uplinkEmpty t = true
        ∧ (b.record.cells ≠ [] →
            t.hold.paused = (if s.hold.paused then decide (s.hold.freeList.length + b.record.cells.length ≤ s.loader.policy.lowWater)
              else decide (s.hold.freeList.length + b.record.cells.length < s.loader.policy.highWater))
            ∧ (t.hold.paused ≠ s.hold.paused → s.path.returnPause = false → t.radio.items.pause = true)))
  ∧ (∀ (tag : Byte) (slot : Slot) (b : BusySlot) (s : State),
      receiverReady s = true → resultSlot tag = slot → resultRefused tag = true → slotOfRadio s slot = some b → atRest s →
      s.events.counters.length = 10 → (∀ q live r, s.radio.ldo ≠ some (.sendUp q live r)) →
      ∃ t, exec (.sendResult tag) s = .next t ∧ slotOfRadio t slot = none ∧ chargeOf t slot = none ∧ t.pacer.refusalPause = some 20
        ∧ t.pacer.credit = min (s.pacer.credit + ((chargeOf s slot).getD 0 : Nat)) (8 * (s.loader.policy.burst : Int))
        ∧ t.pacer.carried = s.pacer.carried
        ∧ (b.record.refusals + 1 < 16 → t.hold.uqE = (if b.record.cls = .voicePriority then { b.record with refusals := b.record.refusals + 1 } :: s.hold.uqE else s.hold.uqE) ∧ t.hold.uqV = (if b.record.cls = .voice then { b.record with refusals := b.record.refusals + 1 } :: s.hold.uqV else s.hold.uqV) ∧ t.hold.uqD = (if b.record.cls = .data then { b.record with refusals := b.record.refusals + 1 } :: s.hold.uqD else s.hold.uqD) ∧ t.hold.freeList = s.hold.freeList)
        ∧ (16 ≤ b.record.refusals + 1 → t.hold.uqE = s.hold.uqE ∧ t.hold.uqV = s.hold.uqV ∧ t.hold.uqD = s.hold.uqD ∧
            t.hold.freeList = s.hold.freeList ++ b.record.cells ∧ (b.record.cls = .data → (counterOf s .dataRefused).value < 65535 →
            (counterOf t .dataRefused).value = (counterOf s .dataRefused).value + 1) ∧ (b.record.cls ≠ .data →
            (counterOf s .voiceRefused).value < 65535 → (counterOf t .voiceRefused).value = (counterOf s .voiceRefused).value + 1))
        ∧ (16 ≤ b.record.refusals + 1 → b.record.cells ≠ [] →
            t.hold.paused = (if s.hold.paused then decide (s.hold.freeList.length + b.record.cells.length ≤ s.loader.policy.lowWater)
              else decide (s.hold.freeList.length + b.record.cells.length < s.loader.policy.highWater))
            ∧ (t.hold.paused ≠ s.hold.paused → s.path.returnPause = false → t.radio.items.pause = true)))
  ∧ (∀ (slot : Slot) (b : BusySlot) (s : State),
      slotOfRadio s slot = some b → atRest s → s.events.counters.length = 10 → (∀ q live r, s.radio.ldo ≠ some (.sendUp q live r)) →
      ∃ t, exec (.sendResultTimeout slot) s = .next t ∧ slotOfRadio t slot = none ∧ chargeOf t slot = none ∧ t.pacer.refusalPause = some 20
        ∧ t.pacer.credit = min (s.pacer.credit + ((chargeOf s slot).getD 0 : Nat)) (8 * (s.loader.policy.burst : Int))
        ∧ t.pacer.carried = s.pacer.carried
        ∧ (b.record.refusals + 1 < 16 → t.hold.uqE = (if b.record.cls = .voicePriority then { b.record with refusals := b.record.refusals + 1 } :: s.hold.uqE else s.hold.uqE) ∧ t.hold.uqV = (if b.record.cls = .voice then { b.record with refusals := b.record.refusals + 1 } :: s.hold.uqV else s.hold.uqV) ∧ t.hold.uqD = (if b.record.cls = .data then { b.record with refusals := b.record.refusals + 1 } :: s.hold.uqD else s.hold.uqD) ∧ t.hold.freeList = s.hold.freeList)
        ∧ (16 ≤ b.record.refusals + 1 → t.hold.uqE = s.hold.uqE ∧ t.hold.uqV = s.hold.uqV ∧ t.hold.uqD = s.hold.uqD ∧
            t.hold.freeList = s.hold.freeList ++ b.record.cells ∧ (b.record.cls = .data → (counterOf s .dataRefused).value < 65535 →
            (counterOf t .dataRefused).value = (counterOf s .dataRefused).value + 1) ∧ (b.record.cls ≠ .data →
            (counterOf s .voiceRefused).value < 65535 → (counterOf t .voiceRefused).value = (counterOf s .voiceRefused).value + 1))
        ∧ (16 ≤ b.record.refusals + 1 → b.record.cells ≠ [] →
            t.hold.paused = (if s.hold.paused then decide (s.hold.freeList.length + b.record.cells.length ≤ s.loader.policy.lowWater)
              else decide (s.hold.freeList.length + b.record.cells.length < s.loader.policy.highWater))
            ∧ (t.hold.paused ≠ s.hold.paused → s.path.returnPause = false → t.radio.items.pause = true)))
  ∧ (∀ (tag : Byte) (slot : Slot) (b : BusySlot) (u : Nat) (al : Allowance) (s : State),
      receiverReady s = true → resultSlot tag = slot → resultRefused tag = false → slotOfRadio s slot = some b → b.record.cls = .data →
      b.record.cells ≠ [] → atRest s → uplinkEmpty s = true → s.events.entries.length = 11 → (∀ q live r, s.radio.ldo ≠ some (.sendUp q live r)) →
      u = min (s.pacer.usageBase.getD 0 * 1024 + (s.pacer.carried + b.record.length)) (2 ^ 64 - 1) →
      al = (if s.loader.policy.allowanceMiB = 0 then .normal else if s.loader.policy.allowanceMiB * 1048576 ≤ u then .exhausted else if s.loader.policy.allowanceMiB * 917504 ≤ u then .warned else .normal) →
      ∃ t, exec (.sendResult tag) s = .next t ∧ t.pacer.allowance = al
        ∧ (al ≠ s.pacer.allowance → detailOfKind t .allowance = some (.allowance s.pacer.allowance al .count (min (u / 1024) 4294967295)) ∧
            t.pacer.downlinkCap = (if al = .exhausted then s.loader.policy.trickle else 0))
        ∧ (al = s.pacer.allowance → detailOfKind t .allowance = detailOfKind s .allowance ∧ t.pacer.downlinkCap = s.pacer.downlinkCap)
        ∧ (t.pacer.downlinkCap ≠ s.pacer.downlinkCap → t.radio.items.downCap = true)
        ∧ t.hold.paused = (if s.hold.paused then decide (s.hold.freeList.length + b.record.cells.length ≤ s.loader.policy.lowWater) else decide (s.hold.freeList.length + b.record.cells.length < s.loader.policy.highWater))
        ∧ (t.hold.paused ≠ s.hold.paused → s.path.returnPause = false → t.radio.items.pause = true))

/-- A Deliver Down from header to hold (R70, R122, R134, R156), with the pause that the cells it takes may begin (R80), and the refusals in CLOSING and
in a soft reset before its re-initialisation (R70, R81, R82); a message arrives only while the module can send and the receiver is free (log 18).
CLOSING is a phase of RETURNING, and a phase stands in no other path state (R1; PhaseInReturning, which every step keeps).
That a header in CLOSING of a return that a soft reset has taken over is counted for the soft reset, with no event, is the model's choice (log 46). -/
def Obligations.DeliverDownFillsHold : Prop :=
  (∀ (tag : Byte) (length : BitVec 16) (cls : FrameClass) (s : State),
      receiverReady s = true → atRest s → cls = (if tag = 1 then .voice else if tag = 2 then .voicePriority else .data) → 1 ≤ length.toNat →
      length.toNat ≤ 2047 → s.loader.softReset = .none →
      (length.toNat + 255) / 256 + (if cls = .data then s.loader.policy.voiceReserve else 0) ≤ s.hold.freeList.length →
      ∃ t, exec (.deliverDownHeader tag length) s = .next t ∧ t.power.quiet = .running (s.loader.policy.dozeDelay * 1000)
        ∧ t.radio.receiver = .payload ⟨some ⟨cls, .downlink, length.toNat, s.hold.freeList.take ((length.toNat + 255) / 256), s.clock, 0, none⟩,
            length.toNat, .ordinary⟩
        ∧ t.hold.freeList = s.hold.freeList.drop ((length.toNat + 255) / 256) ∧ t.events.counters = s.events.counters
        ∧ t.hold.paused = (if s.hold.paused then decide (s.hold.freeList.length - (length.toNat + 255) / 256 ≤ s.loader.policy.lowWater) else decide (s.hold.freeList.length - (length.toNat + 255) / 256 < s.loader.policy.highWater))
        ∧ (t.hold.paused ≠ s.hold.paused → s.path.returnPause = false → t.radio.items.pause = true))
  ∧ (∀ (tag : Byte) (length : BitVec 16) (s : State),
      receiverReady s = true → atRest s → 1 ≤ length.toNat → length.toNat ≤ 2047 → s.loader.softReset = .none → s.events.counters.length = 10 →
      (s.hold.freeList.length < (length.toNat + 255) / 256 + (if tag = 1 ∨ tag = 2 then 0 else s.loader.policy.voiceReserve)) →
      ∃ t, exec (.deliverDownHeader tag length) s = .next t ∧ t.power.quiet = .running (s.loader.policy.dozeDelay * 1000)
        ∧ t.radio.receiver = .payload ⟨none, length.toNat, .ordinary⟩ ∧ t.hold.freeList = s.hold.freeList
        ∧ ((counterOf s .downlinkDropped).value < 65535 → (counterOf t .downlinkDropped).value = (counterOf s .downlinkDropped).value + 1))
  ∧ (∀ (tag : Byte) (length : BitVec 16) (cls : FrameClass) (s : State),
      receiverReady s = true → s.bus.waiting = [] → cls = (if tag = 1 then .voice else if tag = 2 then .voicePriority else .data) →
      1 ≤ length.toNat → length.toNat ≤ 2047 → s.path.path = .returning → s.path.phase = some .closing → s.loader.softReset ≠ .waiting →
      s.loader.softReset ≠ .completing → s.events.counters.length = 10 → s.events.entries.length = 11 →
      ∃ t, exec (.deliverDownHeader tag length) s = .next t ∧ t.power.quiet = .running (s.loader.policy.dozeDelay * 1000)
        ∧ t.radio.receiver = .payload ⟨none, length.toNat, .ordinary⟩ ∧ t.hold.freeList = s.hold.freeList ∧ t.hold.paused = s.hold.paused
        ∧ ((counterOf s .downlinkDropped).value < 65535 → (counterOf t .downlinkDropped).value = (counterOf s .downlinkDropped).value + 1)
        ∧ (cls ≠ .data → detailOfKind t .voiceLoss = some (.voiceLoss ⟨.discardedAtReturn, .downlink, cls, none, 0⟩) ∧
            entryOfKind t .dataLoss = entryOfKind s .dataLoss)
        ∧ (cls = .data → detailOfKind t .dataLoss = some (.dataLoss ⟨.discardedAtReturn, .downlink, cls, none, 0⟩) ∧
            entryOfKind t .voiceLoss = entryOfKind s .voiceLoss)
        ∧ t.loader.softDown = s.loader.softDown)
  ∧ (∀ (tag : Byte) (length : BitVec 16) (s : State),
      receiverReady s = true → s.bus.waiting = [] → 1 ≤ length.toNat → length.toNat ≤ 2047 →
      (s.loader.softReset = .waiting ∨ s.loader.softReset = .completing) → s.events.counters.length = 10 →
      ∃ t, exec (.deliverDownHeader tag length) s = .next t ∧ t.power.quiet = .running (s.loader.policy.dozeDelay * 1000)
        ∧ t.radio.receiver = .payload ⟨none, length.toNat, .ordinary⟩ ∧ t.hold.freeList = s.hold.freeList ∧ t.hold.paused = s.hold.paused
        ∧ ((counterOf s .downlinkDropped).value < 65535 → (counterOf t .downlinkDropped).value = (counterOf s .downlinkDropped).value + 1)
        ∧ t.loader.softDown = s.loader.softDown + 1 ∧ entryOfKind t .voiceLoss = entryOfKind s .voiceLoss
        ∧ entryOfKind t .dataLoss = entryOfKind s .dataLoss)
  ∧ (∀ (tag : Byte) (s : State),
      receiverReady s = true → atRest s →
      ∃ t, exec (.deliverDownHeader tag 0) s = .next t ∧ t = dozeAside { s with power.quiet := .running (s.loader.policy.dozeDelay * 1000) } t)
  ∧ (∀ (p : List Byte) (x : FrameRecord) (s : State),
      s.radio.receiver = .payload ⟨some x, p.length, .ordinary⟩ → ldiRuns s = true → s.path.phase ≠ some .closing → s.path.path ≠ .fibre →
      ringIdle s → bufferAvailable s = false → x.direction = .downlink →
      ∃ t, exec (.deliverDownEnd p) s = .next t ∧ t.radio.receiver = .idle ∧ t.hold.dqV = (if x.cls = .data then s.hold.dqV else s.hold.dqV ++ [x])
        ∧ t.hold.dqD = (if x.cls = .data then s.hold.dqD ++ [x] else s.hold.dqD)
        ∧ t.pacer.carried = s.pacer.carried + (if x.cls = .data then x.length else 0) ∧ t.hold.freeList = s.hold.freeList
        ∧ (Memory.wf s.hold.cells = true → x.cells.Nodup → p.length ≤ 256 * x.cells.length → ∀ i < p.length, frameByte t x i = p.getD i 0))
  ∧ (∀ (p : List Byte) (x : FrameRecord) (s : State),
      s.radio.receiver = .payload ⟨some x, p.length, .ordinary⟩ → ldiRuns s = true → s.path.phase = none → s.path.path = .fibre → ringIdle s →
      x.direction = .downlink → s.events.counters.length = 10 → s.events.entries.length = 11 → (∀ q live r, s.radio.ldo ≠ some (.sendUp q live r)) →
      ∃ t, exec (.deliverDownEnd p) s = .next t ∧ t.radio.receiver = .idle ∧ t.hold.dqD = s.hold.dqD ∧ t.pacer.carried = s.pacer.carried
        ∧ t.hold.dqV = s.hold.dqV ∧ t.hold.freeList = s.hold.freeList ++ x.cells
        ∧ ((counterOf s .downlinkDropped).value < 65535 → (counterOf t .downlinkDropped).value = (counterOf s .downlinkDropped).value + 1)
        ∧ (x.cls ≠ .data → detailOfKind t .voiceLoss = some (.voiceLoss ⟨.fibrePath, .downlink, x.cls, x.position, min (ageOf s.clock x.time) 65535⟩) ∧
            entryOfKind t .dataLoss = entryOfKind s .dataLoss)
        ∧ (x.cls = .data → detailOfKind t .dataLoss = some (.dataLoss ⟨.fibrePath, .downlink, x.cls, x.position, min (ageOf s.clock x.time) 65535⟩) ∧
            entryOfKind t .voiceLoss = entryOfKind s .voiceLoss))

/-- The receiver's table and framing errors (R105). That the receiver is idle as the command of a bad header ends, the payload that R105 has read and
discarded included, is the model's choice (log 63). -/
def Obligations.LinkFramingErrorsAreCounted : Prop :=
  (∀ (type : Byte) (tag : Byte) (length : BitVec 16) (s : State),
      receiverReady s = true → s.events.counters.length = 10 →
      (2047 < length.toNat ∨ (type ≠ 0x81 ∧ type ≠ 0x82 ∧ type ≠ 0x83 ∧ type ≠ 0x84 ∧ type ≠ 0x85 ∧
          type ≠ 0x86) ∨ ((type = 0x81 ∨ type = 0x82 ∨ type = 0x84 ∨ type = 0x86) ∧ length ≠ 0) ∨ (type = 0x83 ∧ length ≠ 5)) →
      ∃ t, exec (.badCarrierHeader type tag length) s = .next t
        ∧ ((counterOf s .linkFramingErrors).value < 65535 → (counterOf t .linkFramingErrors).value = (counterOf s .linkFramingErrors).value + 1)
        ∧ (65535 ≤ (counterOf s .linkFramingErrors).value → (counterOf t .linkFramingErrors).saturated = true) ∧ t.radio.receiver = .idle
        ∧ (type = 0x85 → t.power.quiet = .running (s.loader.policy.dozeDelay * 1000)) ∧ (type ≠ 0x85 → t.power.quiet = s.power.quiet))
  ∧ (∀ (s : State),
      ldiRuns s = true → s.radio.receiver ≠ .resync → s.events.counters.length = 10 →
      ∃ t, exec .linkFramingError s = .next t
        ∧ ((counterOf s .linkFramingErrors).value < 65535 → (counterOf t .linkFramingErrors).value = (counterOf s .linkFramingErrors).value + 1)
        ∧ (65535 ≤ (counterOf s .linkFramingErrors).value → (counterOf t .linkFramingErrors).saturated = true) ∧ t.radio.receiver = .resync
        ∧ (∀ x n, s.radio.receiver = .payload ⟨some x, n, .ordinary⟩ → x.cls = .data → (counterOf s .downlinkDropped).value < 65535 → atRest s →
            x.direction = .downlink → (counterOf t .downlinkDropped).value = (counterOf s .downlinkDropped).value + 1))
  ∧ (∀ (s : State),
      lclkRuns s = true → s.radio.receiver = .resync →
      exec .linkReceiverResync s = .next { s with radio.receiver := .idle })

/-- The arbiter's choice (R106) and the messages' contents (R112, R123, R124). That LDO is free again after Attach, Pause, Resume and Down Cap is
the model's (log 16), as are the kept level of MRDY (log 17), the mark of a Low Power on begun for no entry that stands (log 27) and the cause 0 that
Emergency Attach carries where no last failure cause is held (log 32). -/
def Obligations.ControlMessagesBeginInOrder : Prop :=
  (∀ (b : Bool) (c : Instr) (s : State),
      c ∈ [Instr.attachRequest b, .detachRequest b, .sendUp b, .pauseDown b, .resumeDown b, .downCap b, .lowPower b] →
      (b = false ∨ ldoFree s = false) →
      exec c s = .next { s with pins.mrdy := b })
  ∧ (∀ (on : Bool) (s : State),
      ldoFree s = true → s.radio.items.lowPower = some on →
      exec (.lowPower true) s = .next { s with
          pins.mrdy := true, radio.items.lowPower := none, radio.ldo := some (.lowPower on (s.power.step == .entering .link)),
          radio.ldoLast := some ⟨0x07, if on then 1 else 0, []⟩ })
  ∧ (∀ (on : Bool) (c : Instr) (s : State),
      s.radio.items.lowPower = some on →
      c ∈ [Instr.attachRequest true, .detachRequest true, .sendUp true, .pauseDown true, .resumeDown true, .downCap true] →
      exec c s = .next { s with pins.mrdy := true })
  ∧ (∀ (s : State),
      ldoFree s = true → s.radio.items.lowPower = none → s.radio.items.downCap = true → s.pacer.downlinkCap ≠ s.radio.capTold →
      exec (.downCap true) s = .next { s with
          pins.mrdy := true, radio.items.downCap := false, radio.capTold := s.pacer.downlinkCap, radio.ldoLast := some ⟨0x06, 0,
          leBytes 2 s.pacer.downlinkCap⟩ })
  ∧ (∀ (s : State),
      ldoFree s = true → s.radio.items.lowPower = none → s.radio.items.downCap = false → s.radio.items.pause = true →
      (s.hold.paused = true ∨ s.path.returnPause = true) → s.radio.pauseTold = false →
      exec (.pauseDown true) s = .next { s with
          pins.mrdy := true, radio.items.pause := false, radio.pauseTold := true, radio.ldoLast := some ⟨0x04, 0, []⟩ })
  ∧ (∀ (s : State),
      ldoFree s = true → s.radio.items.lowPower = none → s.radio.items.downCap = false → s.radio.items.pause = true → s.hold.paused = false →
      s.path.returnPause = false → s.radio.pauseTold = true →
      exec (.resumeDown true) s = .next { s with
          pins.mrdy := true, radio.items.pause := false, radio.pauseTold := false, radio.ldoLast := some ⟨0x05, 0, []⟩ })
  ∧ (∀ (s : State),
      ldoFree s = true → s.radio.items.lowPower = none → s.radio.items.downCap = false → s.radio.items.pause = false → s.radio.items.detach = true →
      exec (.detachRequest true) s = .next { s with
          pins.mrdy := true, radio.items.detach := false, radio.ldo := some (.detach true), radio.ldoLast := some ⟨0x02, 0, []⟩ })
  ∧ (∀ (s : State),
      ldoFree s = true → s.radio.items.lowPower = none → s.radio.items.downCap = false → s.radio.items.pause = false → s.radio.items.detach = false →
      s.radio.items.attach = true → s.events.entries.length = 11 →
      ∃ t, exec (.attachRequest true) s = .next t
        ∧ t.radio = { s.radio with items := { s.radio.items with attach := false }, attachTag := some s.path.emergency, ldoLast := some ⟨0x01, if s.path.emergency then 1 else 0, []⟩ }
        ∧ (s.path.emergency = true → detailOfKind t .emergencyAttach = some (.emergencyAttach s.radio.failures (s.radio.lastCause.getD 0)))
        ∧ (s.path.emergency = false → t.events = s.events) ∧ t.path = s.path ∧ t.hold = s.hold ∧ t.pacer = s.pacer)
  ∧ (∀ (c : Instr) (s : State),
      s.radio.items.lowPower = none → s.radio.items.downCap = true → s.pacer.downlinkCap ≠ s.radio.capTold →
      c ∈ [Instr.attachRequest true, .detachRequest true, .sendUp true, .pauseDown true, .resumeDown true] →
      exec c s = .next { s with pins.mrdy := true })
  ∧ (∀ (c : Instr) (s : State),
      s.radio.items.lowPower = none → s.radio.items.downCap = false → s.radio.items.pause = true →
      (s.hold.paused || s.path.returnPause) ≠ s.radio.pauseTold →
      c ∈ [Instr.attachRequest true, .detachRequest true, .sendUp true, .downCap true, .lowPower true,
          (if (s.hold.paused || s.path.returnPause) then .resumeDown true else .pauseDown true)] →
      exec c s = .next { s with pins.mrdy := true })
  ∧ (∀ (c : Instr) (s : State),
      s.radio.items.lowPower = none → s.radio.items.downCap = false → s.radio.items.pause = false → s.radio.items.detach = true →
      c ∈ [Instr.attachRequest true, .sendUp true] →
      exec c s = .next { s with pins.mrdy := true })
  ∧ (∀ (c : Instr) (s : State),
      s.radio.items.lowPower = none → s.radio.items.downCap = false → s.radio.items.pause = false → s.radio.items.detach = false →
      s.radio.items.attach = true → c ∈ [Instr.sendUp true] →
      exec c s = .next { s with pins.mrdy := true })
  ∧ (∀ (s : State),
      ldoFree s = true → s.radio.items.lowPower = none → s.radio.items.downCap = true → s.pacer.downlinkCap = s.radio.capTold →
      exec (.downCap true) s = .next { s with
          pins.mrdy := true, radio.items.downCap := false,
          radio.items.pause := s.radio.items.pause && ((s.hold.paused || s.path.returnPause) != s.radio.pauseTold) })
  ∧ (∀ (c : Instr) (s : State),
      ldoFree s = true → s.radio.items.lowPower = none → s.radio.items.downCap = false → s.radio.items.pause = true →
      (s.hold.paused || s.path.returnPause) = s.radio.pauseTold → c ∈ [Instr.pauseDown true, .resumeDown true] →
      exec c s = .next { s with pins.mrdy := true, radio.items.pause := false })
  ∧ (∀ (s : State),
      ldoFree s = true → s.radio.items.lowPower = none → (s.radio.items.downCap = true → s.pacer.downlinkCap = s.radio.capTold) →
      (s.radio.items.pause = true → (s.hold.paused || s.path.returnPause) = s.radio.pauseTold) → s.radio.items.detach = true →
      exec (.detachRequest true) s = .next { s with
          pins.mrdy := true, radio.items.downCap := false, radio.items.pause := false, radio.items.detach := false,
          radio.ldo := some (.detach true), radio.ldoLast := some ⟨0x02, 0, []⟩ })

/-- Send Up (R119) and Low Power told (R124, R157). The kept level of MRDY is the model's (log 17), and so is the off item that answers a Low Power
on whose entry was abandoned (log 27). -/
def Obligations.SendUpSendsTheSlotsFrame : Prop :=
  (∀ (slot : Slot) (rest : List Slot) (b : BusySlot) (s : State),
      ldoFree s = true → s.radio.items = ⟨none, false, false, false, false⟩ → s.radio.unsent = slot :: rest → slotOfRadio s slot = some b →
      exec (.sendUp true) s = .next { s with
          pins.mrdy := true, radio.unsent := rest, radio.ldo := some (.sendUp slot true (some b.record)), radio.ldoLast := some ⟨0x03,
          (if slot = .a then 0 else 1) + (if b.record.cls = .data then 0 else if b.record.cls = .voice then 16 else 32), frameBytes s b.record⟩ })
  ∧ (∀ (slot : Slot) (b : BusySlot) (x : Option FrameRecord) (s : State),
      s.radio.ldo = some (.sendUp slot true x) → slotOfRadio s slot = some b → atRest s →
      ∃ t, exec .sendUpEnd s = .next t ∧ t.radio.ldo = none ∧ slotOfRadio t slot = some { b with sent := true }
        ∧ t.hold.freeList = s.hold.freeList ++ s.hold.onLdo.flatMap (·.cells) ∧ t.hold.onLdo = [] ∧ t.radio.ldoLast = s.radio.ldoLast)
  ∧ (∀ (slot : Slot) (x : Option FrameRecord) (s : State),
      s.radio.ldo = some (.sendUp slot false x) → atRest s →
      ∃ t, exec .sendUpEnd s = .next t ∧ t.radio.ldo = none ∧ t.radio.slotA = s.radio.slotA ∧ t.radio.slotB = s.radio.slotB
        ∧ t.hold.freeList = s.hold.freeList ++ s.hold.onLdo.flatMap (·.cells) ∧ t.hold.onLdo = [] ∧ t.radio.ldoLast = s.radio.ldoLast)
  ∧ (∀ (on : Bool) (live : Bool) (s : State),
      s.radio.ldo = some (.lowPower on live) → atRest s →
      ∃ t, exec .lowPowerSent s = .next t ∧ t.radio.ldo = none ∧ t.radio.lowPowerTold = on
        ∧ (on = true → live = false → s.power.step = .awake → t.radio.items.lowPower = some false)
        ∧ ((on = false ∨ live = true) → s.power.step = .awake → t.radio.items.lowPower = s.radio.items.lowPower))

/-- The radio's timers (R108, R110, R115, R121, R124). -/
def Obligations.ModuleTimersAct : Prop :=
  (∀ (s : State),
      s.radio.mrstTimer.isSome = true →
      exec .moduleResetRelease s = .next { s with radio.mrstTimer := none, radio.mrst := false })
  ∧ (∀ (s : State),
      s.radio.cycleTimer.isSome = true → atRest s →
      ∃ t, exec .cycleTimerExpiry s = .next t ∧ t.radio.mpwr = true ∧ t.radio.mrst = true ∧ t.radio.mrstTimer = some 10 ∧ t.radio.cycleTimer = none
        ∧ t.radio.backoffTimer = s.radio.backoffTimer
        ∧ t.radio.state = (if s.radio.state = .backoff ∧ s.radio.backoffTimer = none ∧ s.radio.ready = false then .starting else s.radio.state))
  ∧ (∀ (s : State),
      s.radio.backoffTimer.isSome = true → s.radio.state = .backoff → s.power.mode ≠ .doze → atRest s → partWorks s = true →
      ∃ t, exec .backoffTimerExpiry s = .next t ∧ t.radio.backoffTimer = none
        ∧ (s.radio.ready = true → (s.path.radioWanted = true ∨ s.path.emergency = true) → t.radio.state = .attaching ∧ t.radio.items.attach = true ∧
            t.radio.attachTimer = some (s.loader.policy.attachTimeout * 1000))
        ∧ (s.radio.ready = true → s.path.radioWanted = false → s.path.emergency = false → s.loader.policy.warm = true → s.power.mode = .mains →
            t.radio.state = .detached)
        ∧ (s.radio.ready = true → s.path.radioWanted = false → s.path.emergency = false → (s.loader.policy.warm = false ∨ s.power.mode ≠ .mains) →
            t.radio.state = .off ∧ t.radio.mpwr = false)
        ∧ (s.radio.ready = false → s.radio.cycleTimer = none → t.radio.state = .starting ∧ t.radio.startTimer = some 20000))
  ∧ (∀ (s : State),
      s.radio.backoffTimer.isSome = true → s.power.mode = .doze →
      ∃ t, exec .backoffTimerExpiry s = .next t ∧ t.radio.state = s.radio.state
        ∧ t.path.recorded = (if s.path.recorded.contains .backoff then s.path.recorded else s.path.recorded ++ [.backoff]))
  ∧ (∀ (s : State),
      s.radio.lingerTimer.isSome = true → s.power.mode ≠ .doze → s.radio.state = .attached → atRest s →
      ∃ t, exec .lingerTimerExpiry s = .next t ∧ t.radio.lingerTimer = none ∧ t.radio.items.detach = true ∧ t.radio.state = .attached
        ∧ t.path.path = s.path.path)

/-- The cost and the charge recorded at the placement (R89), slot A first (R90), the credit tests (R91), the placement (R92), the refund of the
charge as recorded (R94) and the slot's timer (R119). The attempt at the end of the refusal pause and at a pacing expiry after
its refill (R87, R90): the queues in their order, the expired heads given up at the examination (R73, R78), the refused head that holds back what
stands behind it (R91), slot B when A is busy, two placements in one attempt, and the conditions under which none is made. -/
def Obligations.PlacementCostsEightBitsPerByte : Prop :=
  (∀ (s : State) (n : Nat), frameCost s n = 8 * (n + 4 + s.loader.policy.overhead)
      ∧ (1 ≤ n → n ≤ 2047 → s.loader.policy.overhead ≤ 255 → 40 ≤ frameCost s n ∧ frameCost s n ≤ 18448))
  ∧ (∀ (x : FrameRecord) (s : State),
      s.pacer.refusalPause.isSome = true → s.radio.state = .attached → s.radio.slotA = none → s.power.mode ≠ .doze → s.loader.softReset = .none →
      atRest s → s.hold.uqE = [x] → s.hold.uqV = [] → s.hold.uqD = [] → x.cls = .voicePriority → recordAge s x ≤ s.loader.policy.voiceLifetime →
      -(8 * (s.loader.policy.burst : Int)) ≤ s.pacer.credit - ((8 * (x.length + 4 + s.loader.policy.overhead) : Nat) : Int) →
      ∃ t, exec .refusalPauseEnd s = .next t ∧ t.pacer.refusalPause = none
        ∧ t.radio.slotA = some ⟨x, false, some 500⟩ ∧ t.radio.unsent = s.radio.unsent ++ [.a] ∧
            t.pacer.chargeA = some (8 * (x.length + 4 + s.loader.policy.overhead)) ∧
            t.pacer.credit = s.pacer.credit - ((8 * (x.length + 4 + s.loader.policy.overhead) : Nat) : Int)
        ∧ t.hold.uqE = [])
  ∧ (∀ (x : FrameRecord) (s : State),
      s.pacer.refusalPause.isSome = true → s.radio.state = .attached → s.radio.slotA = none → s.power.mode ≠ .doze → s.loader.softReset = .none →
      atRest s → s.hold.uqE = [] → s.hold.uqV = [x] → s.hold.uqD = [] → x.cls = .voice → recordAge s x ≤ s.loader.policy.voiceLifetime →
      -(8 * (s.loader.policy.burst : Int)) ≤ s.pacer.credit - ((8 * (x.length + 4 + s.loader.policy.overhead) : Nat) : Int) →
      ∃ t, exec .refusalPauseEnd s = .next t ∧ t.pacer.refusalPause = none
        ∧ t.radio.slotA = some ⟨x, false, some 500⟩ ∧ t.radio.unsent = s.radio.unsent ++ [.a] ∧
            t.pacer.chargeA = some (8 * (x.length + 4 + s.loader.policy.overhead)) ∧
            t.pacer.credit = s.pacer.credit - ((8 * (x.length + 4 + s.loader.policy.overhead) : Nat) : Int)
        ∧ t.hold.uqV = [])
  ∧ (∀ (x : FrameRecord) (s : State),
      s.pacer.refusalPause.isSome = true → s.radio.state = .attached → s.radio.slotA = none → s.power.mode ≠ .doze → s.loader.softReset = .none →
      atRest s → s.hold.uqE = [] → s.hold.uqV = [] → s.hold.uqD = [x] → x.cls = .data →
      ∃ t, exec .refusalPauseEnd s = .next t ∧ t.pacer.refusalPause = none
        ∧ (((8 * (x.length + 4 + s.loader.policy.overhead) : Nat) : Int) ≤ s.pacer.credit → t.radio.slotA = some ⟨x, false, some 500⟩ ∧
            t.radio.unsent = s.radio.unsent ++ [.a] ∧ t.pacer.chargeA = some (8 * (x.length + 4 + s.loader.policy.overhead)) ∧
            t.pacer.credit = s.pacer.credit - ((8 * (x.length + 4 + s.loader.policy.overhead) : Nat) : Int) ∧ t.hold.uqD = [])
        ∧ (s.pacer.credit < ((8 * (x.length + 4 + s.loader.policy.overhead) : Nat) : Int) → t.radio.slotA = none ∧ t.hold.uqD = [x] ∧
            t.pacer.credit = s.pacer.credit))
  ∧ (∀ (slot : Slot) (b : BusySlot) (k : Nat) (s : State),
      slotOfRadio s slot = some b → chargeOf s slot = some k → ringIdle s → s.hold.dqV = [] → s.hold.dqD = [] →
      ∃ t, exec (.sendResultTimeout slot) s = .next t ∧ t.pacer.credit = min (s.pacer.credit + (k : Int)) (8 * (s.loader.policy.burst : Int))
        ∧ chargeOf t slot = none)
  ∧ (∀ (slot : Slot) (b : BusySlot) (a : Addr) (rest : List MasterTransfer) (s : State),
      slotOfRadio s slot = some b → s.bus.queue = ⟨.policyRead true, .read a .sixteen⟩ :: rest →
      asksSoftReset (s.loader.firstHalf ++ bytesOf (memReadWords s.sram a 16)) = false →
      ∃ t, exec .policyApplied s = .next t ∧ chargeOf t slot = chargeOf s slot)
  ∧ (∀ (c : Instr) (k : Int) (slot : Slot) (other : Slot) (q : UplinkQueues) (s : State),
      AttemptAt c k s → s.radio.state = .attached → s.power.mode ≠ .doze → s.loader.softReset = .none → atRest s → slot ≠ other →
      slotOfRadio s slot = none → slotOfRadio s other ≠ none → q = examined s (uplinkQueues s) →
      ∃ t, exec c s = .next t ∧ t.pacer.refusalPause = none ∧ slotOfRadio t other = slotOfRadio s other ∧ chargeOf t other = chargeOf s other
        ∧ (∀ x, headOf q = some x → mayGoOn s k x → slotOfRadio t slot = some ⟨x, false, some 500⟩ ∧ t.radio.unsent = s.radio.unsent ++ [slot] ∧
            chargeOf t slot = some (frameCost s x.length) ∧ t.pacer.credit = k - (frameCost s x.length : Int) ∧ uplinkQueues t = behindHead q)
        ∧ ((∀ x, headOf q = some x → ¬ mayGoOn s k x) → slotOfRadio t slot = none ∧ t.radio.unsent = s.radio.unsent ∧
            chargeOf t slot = chargeOf s slot ∧ t.pacer.credit = k ∧ uplinkQueues t = q)
        ∧ ((∀ o live r, s.radio.ldo ≠ some (.sendUp o live r)) →
            t.hold.freeList = s.hold.freeList ++ (givenUp s (uplinkQueues s)).flatMap (·.cells))
        ∧ (s.events.counters.length = 10 → (∀ r ∈ s.hold.uqE ++ s.hold.uqV, r.cls ≠ .data) →
            (counterOf s .voiceLate).value + (givenUp s (uplinkQueues s)).length ≤ 65535 →
            (counterOf t .voiceLate).value = (counterOf s .voiceLate).value + (givenUp s (uplinkQueues s)).length))
  ∧ (∀ (c : Instr) (k : Int) (q : UplinkQueues) (s : State),
      AttemptAt c k s → s.radio.state = .attached → s.power.mode ≠ .doze → s.loader.softReset = .none → atRest s → s.radio.slotA = none →
      s.radio.slotB = none → q = examined s (uplinkQueues s) →
      ∃ t, exec c s = .next t ∧ t.pacer.refusalPause = none
        ∧ ((∀ r ∈ s.hold.uqE ++ s.hold.uqV, outlived s r = false) → t.hold.freeList = s.hold.freeList)
        ∧ ((∀ x, headOf q = some x → ¬ mayGoOn s k x) → t.radio.slotA = none ∧ t.radio.slotB = none ∧ t.radio.unsent = s.radio.unsent ∧
            t.pacer.credit = k ∧ uplinkQueues t = q)
        ∧ (∀ x, headOf q = some x → mayGoOn s k x →
            t.radio.slotA = some ⟨x, false, some 500⟩ ∧ t.pacer.chargeA = some (frameCost s x.length)
            ∧ ((∀ y, headOf (examined s (behindHead q)) = some y → ¬ mayGoOn s (k - (frameCost s x.length : Int)) y) →
                t.radio.slotB = none ∧ t.radio.unsent = s.radio.unsent ++ [.a] ∧ t.pacer.credit = k - (frameCost s x.length : Int) ∧
                uplinkQueues t = examined s (behindHead q))
            ∧ (∀ y, headOf (examined s (behindHead q)) = some y → mayGoOn s (k - (frameCost s x.length : Int)) y →
                t.radio.slotB = some ⟨y, false, some 500⟩ ∧ t.radio.unsent = s.radio.unsent ++ [.a, .b] ∧
                t.pacer.chargeB = some (frameCost s y.length) ∧
                t.pacer.credit = k - (frameCost s x.length : Int) - (frameCost s y.length : Int) ∧
                uplinkQueues t = behindHead (examined s (behindHead q)))))
  ∧ (∀ (c : Instr) (k : Int) (s : State),
      AttemptAt c k s → atRest s → (s.radio.state ≠ .attached ∨ (s.radio.slotA ≠ none ∧ s.radio.slotB ≠ none)) →
      ∃ t, exec c s = .next t ∧ t.pacer.credit = k ∧ t.pacer.refusalPause = none ∧ t.radio.slotA = s.radio.slotA ∧ t.radio.slotB = s.radio.slotB
        ∧ t.radio.unsent = s.radio.unsent ∧ t.hold = s.hold ∧ t.events = s.events)
  ∧ (∀ (s : State),
      s.pacer.pacing.isSome = true → s.pacer.refusalPause ≠ none → atRest s →
      ∃ t, exec .pacingTimerExpiry s = .next t ∧ t.radio.slotA = s.radio.slotA ∧ t.radio.slotB = s.radio.slotB ∧ t.radio.unsent = s.radio.unsent
        ∧ t.hold = s.hold ∧ t.events = s.events ∧ t.pacer.refusalPause = s.pacer.refusalPause)

/-- The sweeps (R77) and their losses (R78). -/
def Obligations.SweepsDropTheOld : Prop :=
  (∀ (s : State),
      s.hold.sweep10.isSome = true → ringIdle s → bufferAvailable s = false → s.events.counters.length = 10 →
      (∀ r ∈ s.hold.uqE ++ s.hold.uqV ++ s.hold.dqV, r.cls ≠ .data) → (∀ q live r, s.radio.ldo ≠ some (.sendUp q live r)) →
      ∃ t, exec .sweep10ms s = .next t ∧ t.hold.uqE = s.hold.uqE.filter (fun r => ageOf s.clock r.time ≤ s.loader.policy.voiceLifetime)
        ∧ t.hold.uqV = s.hold.uqV.filter (fun r => ageOf s.clock r.time ≤ s.loader.policy.voiceLifetime)
        ∧ t.hold.dqV = s.hold.dqV.filter (fun r => ageOf s.clock r.time ≤ s.loader.policy.voiceLifetime) ∧ t.hold.uqD = s.hold.uqD
        ∧ t.hold.dqD = s.hold.dqD ∧ t.hold.sweep10 = some 10
        ∧ t.hold.freeList = s.hold.freeList ++ ((s.hold.uqE ++ s.hold.uqV ++ s.hold.dqV).filter (fun r => s.loader.policy.voiceLifetime < ageOf s.clock r.time)).flatMap (·.cells)
        ∧ ((counterOf s .voiceLate).value + ((s.hold.uqE ++ s.hold.uqV ++ s.hold.dqV).filter (fun r => s.loader.policy.voiceLifetime < ageOf s.clock r.time)).length ≤ 65535 → (counterOf t .voiceLate).value = (counterOf s .voiceLate).value + ((s.hold.uqE ++ s.hold.uqV ++ s.hold.dqV).filter (fun r => s.loader.policy.voiceLifetime < ageOf s.clock r.time)).length))
  ∧ (∀ (s : State),
      s.hold.sweep1s.isSome = true → ringIdle s → bufferAvailable s = false → (∀ q live r, s.radio.ldo ≠ some (.sendUp q live r)) →
      ∃ t, exec .sweep1s s = .next t ∧ t.hold.uqD = s.hold.uqD.filter (fun r => ageOf s.clock r.time ≤ s.loader.policy.dataHold * 1000)
        ∧ t.hold.dqD = s.hold.dqD.filter (fun r => ageOf s.clock r.time ≤ s.loader.policy.downlinkHold * 100) ∧ t.hold.uqE = s.hold.uqE
        ∧ t.hold.uqV = s.hold.uqV ∧ t.hold.dqV = s.hold.dqV ∧ t.hold.sweep1s = some 1000
        ∧ t.hold.freeList = s.hold.freeList ++ (s.hold.uqD.filter (fun r => s.loader.policy.dataHold * 1000 < ageOf s.clock r.time)).flatMap (·.cells) ++ (s.hold.dqD.filter (fun r => s.loader.policy.downlinkHold * 100 < ageOf s.clock r.time)).flatMap (·.cells))

/-- The beginning of a delivery (R130), its stages (R131 to R133) and its status word (R127). How its writes are cut into bursts is the model's
choice (log 15), as is wrapping at the top of packet memory (log 22); an unaligned address stands for its word (log 9). A delivery
that ends after a soft reset's discard step is counted by it (R82). The two clauses of its beginning also cover the reread of a soft reset: that R130's bar on deliveries ends at the re-initialisation is the model's choice (log 64). -/
def Obligations.DeliveryWritesFrameThenStatusThenRxf : Prop :=
  (∀ (a : Addr) (rest : List MasterTransfer) (d : Delivery) (m : MemoryMap) (b : Addr) (n : Nat) (s : State),
      s.bus.queue = ⟨.receiveDescriptorRead, .read a .four⟩ :: rest → s.ring.delivery = some d → s.loader.map = some m → s.bus.waiting = [] →
      rest.length ≤ 7 → s.power.mode ≠ .doze → d.wordsIssued = 0 → b = addrOf (field (bytesOf (memReadWords s.sram a 4)) 0 3) →
      n = field (bytesOf (memReadWords s.sram a 4)) 4 2 →
      ∃ t, exec .deliveryDescriptorRead s = .next t ∧ t.ring.descriptorHeld = some (b, n)
        ∧ (min d.record.length n = 0 → t.ring.delivery = some { d with stage := .status })
        ∧ (0 < min d.record.length n → ∃ wa ws, ⟨.bufferWrite, .write wa ws⟩ ∈ t.bus.queue ∧ wa.toNat = b.toNat / 4 * 4 ∧ ws ≠ [] ∧
        ∀ (k : Nat) (l : LaneWord), ws[k]? = some l → ∀ j < 4,
          (laneOn l j = true ↔ b.toNat % 4 ≤ 4 * k + j ∧ 4 * k + j < b.toNat % 4 + min d.record.length n)
          ∧ (laneOn l j = true → wordByte l.data j = frameByte s d.record (4 * k + j - b.toNat % 4))))
  ∧ (∀ (d : Delivery) (b : Addr) (n : Nat) (m : MemoryMap) (f : Count) (w : LaneWord) (s : State),
      s.ring.delivery = some d → d.stage = .status → d.statusAsked = false → d.passedByCatchUp = false → s.ring.descriptorHeld = some (b, n) →
      s.loader.map = some m → s.ring.fillCursor = some f → s.power.mode ≠ .doze → s.bus.queue.length ≤ 6 → atRest s → s.events.counters.length = 10 →
      (∀ q live r, s.radio.ldo ≠ some (.sendUp q live r)) →
      w = ⟨wordOf [if d.record.length ≤ n then 8 else 9, if d.record.cls = .data then 2 else 3, BitVec.ofNat 8 d.record.length,
          BitVec.ofNat 8 (d.record.length / 256)], 15⟩ →
      ∃ t, exec .deliveryEnd s = .next t ∧ t.ring.delivery = none ∧ t.ring.fillCursor = some (f + 1)
        ∧ t.hold.freeList = s.hold.freeList ++ d.record.cells
        ∧ (s.path.rxReleased = true → t.ring.partRxf = some (f + 1) ∧
            t.bus.queue = s.bus.queue ++ [⟨.receiveStatus, .write (addrOf (descriptorAddr m.rxBase m.rxSize f + 8)) [w]⟩, ⟨.rxfDelivery,
            .write (addrOf (watchedAddr m .rxf)) [⟨(f + 1).setWidth 32, 15⟩]⟩])
        ∧ (s.path.rxReleased = false → t.ring.partRxf = s.ring.partRxf ∧
            t.bus.queue = s.bus.queue ++ [⟨.receiveStatus, .write (addrOf (descriptorAddr m.rxBase m.rxSize f + 8)) [w]⟩])
        ∧ ((counterOf s .downlinkTruncated).value < 65535 →
            (counterOf t .downlinkTruncated).value = (counterOf s .downlinkTruncated).value + (if d.record.length ≤ n then 0 else 1)))
  ∧ (∀ (d : Delivery) (b : Addr) (n : Nat) (m : MemoryMap) (f : Count) (w : LaneWord) (s : State),
      s.ring.delivery = some d → d.stage = .status → d.statusAsked = false → d.passedByCatchUp = true → s.ring.descriptorHeld = some (b, n) →
      s.loader.map = some m → s.ring.fillCursor = some f → s.power.mode ≠ .doze → s.bus.queue.length ≤ 6 → atRest s → s.events.counters.length = 10 →
      (∀ q live r, s.radio.ldo ≠ some (.sendUp q live r)) →
      w = ⟨wordOf [if d.record.length ≤ n then 8 else 9, if d.record.cls = .data then 2 else 3, BitVec.ofNat 8 d.record.length,
          BitVec.ofNat 8 (d.record.length / 256)], 15⟩ →
      s.ring.partRxf ≠ some (f + 1) →
      ∃ t, exec .deliveryEnd s = .next t ∧ t.ring.delivery = none ∧ t.ring.fillCursor = some (f + 1)
        ∧ t.hold.freeList = s.hold.freeList ++ d.record.cells ∧ t.ring.partRxf = some (f + 1)
        ∧ t.bus.queue = s.bus.queue ++ [⟨.receiveStatus, .write (addrOf (descriptorAddr m.rxBase m.rxSize f + 8)) [w]⟩, ⟨.rxfCatchUp,
            .write (addrOf (watchedAddr m .rxf)) [⟨(f + 1).setWidth 32, 15⟩]⟩]
        ∧ t.path.rxReleased = s.path.rxReleased
        ∧ ((counterOf s .downlinkTruncated).value < 65535 →
            (counterOf t .downlinkTruncated).value = (counterOf s .downlinkTruncated).value + (if d.record.length ≤ n then 0 else 1)))
  ∧ (∀ (d : Delivery) (b : Addr) (n : Nat) (m : MemoryMap) (f : Count) (s : State),
      s.loader.softReset = .completing → s.ring.delivery = some d → d.stage = .status → d.statusAsked = false → d.record.direction = .downlink →
      s.ring.descriptorHeld = some (b, n) → s.loader.map = some m → s.ring.fillCursor = some f → s.power.mode ≠ .doze → s.bus.queue.length ≤ 6 →
      s.bus.waiting = [] → s.events.counters.length = 10 → (∀ q live r, s.radio.ldo ≠ some (.sendUp q live r)) →
      ∃ t, exec .deliveryEnd s = .next t ∧ t.ring.delivery = none ∧ t.ring.fillCursor = some (f + 1)
        ∧ t.hold.freeList = s.hold.freeList ++ d.record.cells ∧ t.loader.softDown = s.loader.softDown + 1 ∧ t.loader.softUp = s.loader.softUp
        ∧ ((counterOf s .downlinkDropped).value < 65535 → (counterOf t .downlinkDropped).value = (counterOf s .downlinkDropped).value + 1)
        ∧ entryOfKind t .voiceLoss = entryOfKind s .voiceLoss ∧ entryOfKind t .dataLoss = entryOfKind s .dataLoss)
  ∧ (∀ (q : Requester) (a : Addr) (l : LaneWord) (m : MemoryMap) (v : Word) (p : Count) (f : Count) (x : FrameRecord) (xs : List FrameRecord) (s : State),
      s.loader.map = some m → watchedApart m → onWatched m .rxp a → masterTurn s = false →
      (q ≠ .u ∨ (s.bus.txGuard = false ∧ s.bus.rxGuard = false)) → s.power.mode ≠ .doze → s.bus.shadows.rxp = some v → p = countOf (mergeLanes v l) →
      (s.path.path = .takeover ∨ s.path.path = .radio ∨ s.path.path = .held ∨ (s.path.path = .returning ∧ s.path.phase = some .draining)) →
      softResetStands s = false → ringIdle s → s.ring.delivery = none → s.ring.fillCursor = some f →
      dist (rxConsumerRef s) f < dist (rxConsumerRef s) p → dist (rxConsumerRef s) p ≤ rxSize s → s.bus.queue.length ≤ 7 → s.hold.dqV = x :: xs →
      ageOf s.clock x.time ≤ s.loader.policy.voiceLifetime →
      ∃ t, exec (.rxpWordWrite q a [l]) s = .next t ∧ t.ring.delivery = some ⟨x, .reading, 0, false, false⟩
        ∧ t.bus.queue = s.bus.queue ++ [⟨.receiveDescriptorRead, .read (addrOf (descriptorAddr m.rxBase m.rxSize f)) .four⟩] ∧ t.hold.dqV = xs
        ∧ t.hold.dqD = s.hold.dqD)
  ∧ (∀ (q : Requester) (a : Addr) (l : LaneWord) (m : MemoryMap) (v : Word) (p : Count) (f : Count) (x : FrameRecord) (xs : List FrameRecord) (s : State),
      s.loader.map = some m → watchedApart m → onWatched m .rxp a → masterTurn s = false →
      (q ≠ .u ∨ (s.bus.txGuard = false ∧ s.bus.rxGuard = false)) → s.power.mode ≠ .doze → s.bus.shadows.rxp = some v → p = countOf (mergeLanes v l) →
      (s.path.path = .takeover ∨ s.path.path = .radio ∨ s.path.path = .held ∨ (s.path.path = .returning ∧ s.path.phase = some .draining)) →
      softResetStands s = false → ringIdle s → s.ring.delivery = none → s.ring.fillCursor = some f →
      dist (rxConsumerRef s) f < dist (rxConsumerRef s) p → dist (rxConsumerRef s) p ≤ rxSize s → s.bus.queue.length ≤ 7 → s.hold.dqV = [] →
      s.hold.dqD = x :: xs →
      ∃ t, exec (.rxpWordWrite q a [l]) s = .next t ∧ t.ring.delivery = some ⟨x, .reading, 0, false, false⟩
        ∧ t.bus.queue = s.bus.queue ++ [⟨.receiveDescriptorRead, .read (addrOf (descriptorAddr m.rxBase m.rxSize f)) .four⟩] ∧ t.hold.dqV = []
        ∧ t.hold.dqD = xs)
  ∧ (∀ (q : MasterTransfer) (rest : List MasterTransfer) (d : Delivery) (b : Addr) (n : Nat) (s : State),
      s.bus.queue = q :: rest → q.purpose = .bufferWrite → (∀ w ln, q.transfer ≠ .read w ln) → s.bus.waiting = [.bufferWrite] →
      s.loader.map.isSome = true → s.power.mode ≠ .doze → rest.length ≤ 7 → s.ring.delivery = some d → s.ring.descriptorHeld = some (b, n) →
      4 * d.wordsIssued < b.toNat % 4 + min d.record.length n → 0 < min d.record.length n →
      ∃ t, exec .masterTransferCarried s = .next t
        ∧ (∃ wa ws, rest ++ [⟨.bufferWrite, .write wa ws⟩] <+: t.bus.queue ∧ wa.toNat = (b.toNat / 4 * 4 + 4 * d.wordsIssued) % 16777216 ∧ ws ≠ []
        ∧ (∀ (k : Nat) (l : LaneWord), ws[k]? = some l → ∀ j < 4,
          (laneOn l j = true ↔ b.toNat % 4 ≤ 4 * (d.wordsIssued + k) + j ∧ 4 * (d.wordsIssued + k) + j < b.toNat % 4 + min d.record.length n)
          ∧ (laneOn l j = true → wordByte l.data j = frameByte s d.record (4 * (d.wordsIssued + k) + j - b.toNat % 4)))
        ∧ (b.toNat % 4 + min d.record.length n ≤ 4 * (d.wordsIssued + ws.length) →
          t.ring.delivery = some { d with wordsIssued := d.wordsIssued + ws.length, stage := .status })))

/-- Posting and when there is none: the ring full, EVC out of its range, a page being written, DOZE, a soft reset before its re-initialisation, no entry
set (R168), the start-up's shadow reads not yet carried (R175). The record's four words are as 11.4 lays them out: `eventRecord` writes out the table of kinds and detail bytes, the codes of
11.4 and R23 and the age's limit (R78). A position of none is written as 0 (log 32), which is the model's. -/
def Obligations.EventPostWritesHighestEntry : Prop :=
  (∀ (i : Nat) (e : EventEntry) (m : MemoryMap) (w : Word) (s : State),
      s.loader.map = some m → s.bus.shadows.evc = some w → dist (countOf w) s.events.evp < m.eventSize → s.events.pageWriting = false →
      s.power.mode ≠ .doze → s.loader.softReset ≠ .waiting → s.loader.phase = .ended → s.path.path ≠ .disabled → s.loader.shadowsLoaded = true →
      s.bus.queue.length ≤ 6 → s.events.entries[i]? = some (some e) → (∀ j < i, s.events.entries[j]? = some none) → eventNumber e.detail = i + 1 →
      atRest s →
      ∃ t, exec .eventPost s = .next t ∧ t.events.evp = s.events.evp + 1 ∧ t.events.entries = s.events.entries.set i none
        ∧ t.events.slotKinds = s.events.slotKinds.set (s.events.evp.toNat % m.eventSize) (some (detailKind e.detail))
        ∧ t.events.counters = s.events.counters
        ∧ t.bus.queue = s.bus.queue ++ [⟨.eventRecord,
            .write (addrOf (m.eventBase + 16 * (s.events.evp.toNat % m.eventSize))) (eventRecord e)⟩, ⟨.evpWrite,
            .write (addrOf (m.pageBase + 20)) [⟨(s.events.evp + 1).setWidth 32, 15⟩]⟩]
        ∧ intAsserted t = (partWorks s && (postedKinds t).any fun k => !masked s k))
  ∧ (∀ (m : MemoryMap) (w : Word) (s : State),
      s.loader.map = some m → s.bus.shadows.evc = some w → m.eventSize ≤ dist (countOf w) s.events.evp →
      exec .eventPost s = .next s)
  ∧ (∀ (s : State),
      (s.events.pageWriting = true ∨ s.power.mode = .doze ∨ s.loader.softReset = .waiting ∨ s.loader.softReset = .completing ∨
          s.loader.shadowsLoaded = false ∨ ∀ e ∈ s.events.entries, e = none) →
      exec .eventPost s = .next s)

/-- The status page write and its contents (R166). None is written as 0 (log 32); that one page write runs at a time (log 24), that none runs
between the entry page and DOZE (log 42), that the halves are queued one after the other (log 12), and that a refresh expiry while a page is
wanted merges with that request, one page answering all that stand as it begins (log 74), is the model's. -/
def Obligations.StatusPageCarriesCountTwice : Prop :=
  (∀ (s : State),
      s.events.refreshTimer.isSome = true →
      exec .statusRefreshExpiry s = .next { s with events.refreshTimer := some 100, events.pageWanted := true })
  ∧ (∀ (m : MemoryMap) (s : State),
      s.events.pageWanted = true → s.events.pageWriting = false → s.power.mode ≠ .doze → partWorks s = true → s.loader.shadowsLoaded = true →
      entryPageBegun s = false → s.bus.waiting = [] → s.bus.queue.length ≤ 6 → s.loader.map = some m →
      ∃ t, exec .statusPageWrite s = .next t ∧ t.events.refreshCount = s.events.refreshCount + 1 ∧ t.events.pageWriting = true
        ∧ t.events.pageWanted = false
        ∧ (∃ w1 w2, s.bus.queue ++ [⟨.pageHalf false false, .write (addrOf m.pageBase) w1⟩, ⟨.pageHalf true false,
            .write (addrOf (m.pageBase + 64)) w2⟩] <+: t.bus.queue
        ∧ w1.length = 16 ∧ w2.length = 16 ∧ w1[0]? = some ⟨s.events.refreshCount + 1, 15⟩ ∧ w2[15]? = some ⟨s.events.refreshCount + 1, 15⟩
        ∧ w1[1]? = some (fourBytes (pathNumber s.path.path) (radioNumber s.radio.state) (powerNumber s.power.mode) (allowanceNumber s.pacer.allowance))
        ∧ w1[2]? = some (fourBytes (if s.health.verdict = .healthy then 0 else 1) s.health.sig s.health.txp s.health.rxa)
        ∧ w1[3]? = some (fourBytes s.health.txe s.radio.failures (s.radio.lastCause.getD 0) s.radio.grantQuality)
        ∧ w1[4]? = some ⟨BitVec.ofInt 32 s.pacer.credit, 15⟩
        ∧ w1[5]? = some ⟨s.events.evp.setWidth 32, 15⟩
        ∧ w1[6]? = some ⟨BitVec.ofNat 32 ((refillRate s) % 65536 + 65536 * ((s.path.dwellD) % 65536)), 15⟩
        ∧ w1[7]? = some ⟨BitVec.ofNat 32 ((s.radio.grantUp) % 65536 + 65536 * ((s.radio.grantDown) % 65536)), 15⟩
        ∧ w1[8]? = some ⟨BitVec.ofNat 32 (usageCount s), 15⟩
        ∧ w1[9]? = some ⟨BitVec.ofNat 32 (usageCount s / 4294967296), 15⟩
        ∧ w1[10]? = some ⟨BitVec.ofNat 32 (s.pacer.usageBase.getD 0), 15⟩
        ∧ w1[11]? = some ⟨BitVec.ofNat 32 (saturatedFlags s.events.counters % 65536), 15⟩
        ∧ w1[12]? = some ⟨BitVec.ofNat 32 (((s.events.counters.getD 0 ⟨0, false⟩).value) % 65536 + 65536 * (((s.events.counters.getD 1 ⟨0,
            false⟩).value) % 65536)), 15⟩
        ∧ w1[13]? = some ⟨BitVec.ofNat 32 (((s.events.counters.getD 2 ⟨0, false⟩).value) % 65536 + 65536 * (((s.events.counters.getD 3 ⟨0,
            false⟩).value) % 65536)), 15⟩
        ∧ w1[14]? = some ⟨BitVec.ofNat 32 (((s.events.counters.getD 4 ⟨0, false⟩).value) % 65536 + 65536 * (((s.events.counters.getD 5 ⟨0,
            false⟩).value) % 65536)), 15⟩
        ∧ w1[15]? = some ⟨BitVec.ofNat 32 (((s.events.counters.getD 6 ⟨0, false⟩).value) % 65536 + 65536 * (((s.events.counters.getD 7 ⟨0,
            false⟩).value) % 65536)), 15⟩
        ∧ w2 = [⟨BitVec.ofNat 32 (((s.events.counters.getD 8 ⟨0, false⟩).value) % 65536 + 65536 * (((s.events.counters.getD 9 ⟨0,
            false⟩).value) % 65536)), 15⟩] ++ List.replicate 14 ⟨0, 15⟩ ++ [⟨s.events.refreshCount + 1, 15⟩]))

/-- The two reads of a block (R162), applying it (R163, R164), the soft reset's re-initialisation and its reread (R24, R171). `blockPolicy`,
`clampedFields`, `softResetAsked` and `counterClearAsked` are the tables of 11.4, R163 and R79 written out; a read stands on its aligned word (log 9)
and wraps at the top of packet memory (log 22), which is the model's. That the free list is 0 to 255 at the
re-initialisation though a payload is arriving or a Send Up is still being sent, whose records R67 and R119 keep, is the model's reading (log 21; R82
step 4). -/
def Obligations.PolicyAppliedTakesTheBlock : Prop :=
  (∀ (a : Addr) (rest : List MasterTransfer) (s : State),
      s.bus.queue = ⟨.policyRead false, .read a .sixteen⟩ :: rest →
      ∃ t, exec .masterTransferCarried s = .next t ∧ t.loader.firstHalf = bytesRead s.sram a 64 ∧ t.loader.policy = s.loader.policy)
  ∧ (∀ (a : Addr) (rest : List MasterTransfer) (bs : List Byte) (s : State),
      s.bus.queue = ⟨.policyRead true, .read a .sixteen⟩ :: rest → bs = s.loader.firstHalf ++ bytesRead s.sram a 64 →
      s.loader.readKind = .ordinary → s.bus.waiting = [] → s.events.entries.length = 11 →
      ∃ t, exec .policyApplied s = .next t ∧ t.loader.policy = blockPolicy bs 0 ∧ t.loader.softResetInForce = softResetAsked bs
        ∧ t.loader.counterClearInForce = counterClearAsked bs
        ∧ ((softResetAsked bs = false ∨ s.loader.softResetInForce = true) →
            detailOfKind t .policyApplied = some (.policyApplied (clampedFields bs) s.loader.pgenAtIssue) ∧ (s.loader.readState = .reading →
            t.loader.readState = .idle) ∧ (s.loader.readState = .readingDue → t.loader.readState = .reading)))
  ∧ (∀ (a : Addr) (rest : List MasterTransfer) (bs : List Byte) (s : State),
      s.bus.queue = ⟨.policyRead true, .read a .sixteen⟩ :: rest → bs = s.loader.firstHalf ++ bytesRead s.sram a 64 →
      s.loader.readKind = .ordinary → softResetAsked bs = false → counterClearAsked bs = true → s.loader.counterClearInForce = false → atRest s →
      uplinkEmpty s = true → s.radio.receiver = .idle →
      ∃ t, exec .policyApplied s = .next t ∧ t.events.counters = List.replicate 10 ⟨0, false⟩)
  ∧ (∀ (a : Addr) (rest : List MasterTransfer) (bs : List Byte) (s : State),
      s.bus.queue = ⟨.policyRead true, .read a .sixteen⟩ :: rest → bs = s.loader.firstHalf ++ bytesRead s.sram a 64 →
      s.loader.readKind = .ordinary → softResetAsked bs = true → s.loader.softResetInForce = false → s.path.path = .fibre →
      s.loader.policy.pathOverride = (blockPolicy bs 0).pathOverride → s.bus.waiting = [] → s.events.entries.length = 11 →
      ∃ t, exec .policyApplied s = .next t ∧ t.path.path = .fibre ∧ t.path.emergency = false ∧ t.path.priorityTimer = none
        ∧ t.path.dwellD = s.path.dwellD ∧ t.loader.softReset = .rereading ∧ t.loader.readState = .reading ∧ t.health.sig = 253 ∧ t.health.txp = 253
        ∧ t.health.rxa = 253 ∧ t.health.txe = 253 ∧ t.health.verdict = .healthy ∧ t.health.timer100 = some 100 ∧ t.health.timer1s = some 1000
        ∧ t.hold.freeList = List.range 256 ∧ t.hold.uqE = [] ∧ t.hold.uqV = [] ∧ t.hold.uqD = [] ∧ t.hold.dqV = [] ∧ t.hold.dqD = []
        ∧ t.hold.paused = false ∧ t.pacer.credit = 0 ∧ t.pacer.grantSeen = false ∧ t.pacer.refusalPause = none ∧ t.radio.slotA = none
        ∧ t.radio.slotB = none ∧ t.radio.failures = 0 ∧ t.radio.lastCause = none ∧ t.power.quiet = .running ((blockPolicy bs 0).dozeDelay * 1000)
        ∧ (∀ k, k ≠ .softResetDone → entryOfKind t k = none) ∧ (entryOfKind t .softResetDone).isSome = true)
  ∧ (∀ (a : Addr) (rest : List MasterTransfer) (bs : List Byte) (s : State),
      s.bus.queue = ⟨.policyRead true, .read a .sixteen⟩ :: rest → bs = s.loader.firstHalf ++ bytesRead s.sram a 64 →
      s.loader.readKind = .ordinary → softResetAsked bs = false → (counterClearAsked bs = false ∨ s.loader.counterClearInForce = true) → atRest s →
      uplinkEmpty s = true → s.radio.receiver = .idle →
      ∃ t, exec .policyApplied s = .next t ∧ t.events.counters = s.events.counters)
  ∧ (∀ (a : Addr) (rest : List MasterTransfer) (bs : List Byte) (s : State),
      s.bus.queue = ⟨.policyRead true, .read a .sixteen⟩ :: rest → bs = s.loader.firstHalf ++ bytesRead s.sram a 64 →
      s.loader.readKind = .softReset → s.loader.softReset = .rereading → s.loader.readState = .reading → s.path.path = .fibre →
      s.health.verdict = .healthy → s.loader.shadowsLoaded = true → s.radio.state ≠ .attached → s.radio.state ≠ .backoff → s.bus.waiting = [] →
      s.events.entries.length = 11 → s.ring.window = [] →
      ∃ t, exec .policyApplied s = .next t ∧ t.loader.policy = blockPolicy bs 0 ∧ t.loader.softReset = .none ∧ t.loader.softResetInForce = softResetAsked bs
        ∧ t.loader.readState = .idle ∧ t.loader.readKind = .ordinary ∧ t.events.pageWanted = true
        ∧ detailOfKind t .policyApplied = some (.policyApplied (clampedFields bs) s.loader.pgenAtIssue)
        ∧ ((blockPolicy bs 0).pathOverride ≠ .radioNow → t.path.path = .fibre)
        ∧ ((blockPolicy bs 0).pathOverride = .radioNow → t.path.path ≠ .fibre ∧
            t.path.dwellD = (if s.path.refallOpen then min (2 * s.path.dwellD) 3600 else (blockPolicy bs 0).d0)))

/-- The mode by MAINS_LOST (R155). That STARTING and its 20 s stand from the assertion of MPWR is the model's reading (log 41). -/
def Obligations.MainsLostMovesTheMode : Prop :=
  (∀ (s : State),
      s.pins.mainsLost = false → partWorks s = true → s.power.mode = .mains → atRest s → s.events.entries.length = 11 →
      ∃ t, exec .mainsLostAssert s = .next t ∧ t.pins = { s.pins with mainsLost := true } ∧ t.power.mode = .reserve
        ∧ detailOfKind t .powerMode = some (.powerMode 0 .reserve .mainsLost) ∧ t.pacer = s.pacer ∧ t.path = s.path
        ∧ (s.path.radioWanted = false → s.path.emergency = false → s.radio.state = .detached → t.radio.state = .off ∧ t.radio.mpwr = false ∧
            t.radio.mrst = true))
  ∧ (∀ (s : State),
      s.pins.mainsLost = false → partWorks s = true → s.power.mode = .reserve →
      ∃ t, exec .mainsLostAssert s = .next t ∧ t.pins = { s.pins with mainsLost := true } ∧ t.power.mode = .reserve ∧ t.power.mainsReturn = none)
  ∧ (∀ (s : State),
      s.pins.mainsLost = true → partWorks s = true → s.power.mode = .reserve →
      ∃ t, exec .mainsLostDeassert s = .next t ∧ t.pins = { s.pins with mainsLost := false } ∧ t.power.mode = .reserve
        ∧ t.power.mainsReturn = some 10000
        ∧ (s.power.step = .entering .settling ∨ s.power.step = .entering .page ∨ s.power.step = .entering .link → t.power.step = .awake))
  ∧ (∀ (s : State),
      s.power.mainsReturn.isSome = true → partWorks s = true → s.power.mode = .reserve → atRest s → s.events.entries.length = 11 →
      ∃ t, exec .mainsReturnExpiry s = .next t ∧ t.power.mode = .mains ∧ t.power.mainsReturn = none
        ∧ detailOfKind t .powerMode = some (.powerMode 1 .mains .mainsReturned) ∧ t.pacer = s.pacer ∧ t.path = s.path
        ∧ (s.loader.policy.warm = true → s.radio.state = .off → t.radio.state = .starting ∧ t.radio.mpwr = true ∧ t.radio.mrst = true ∧
            t.radio.mrstTimer = some 10 ∧ t.radio.startTimer = some 20000 ∧ t.radio.ready = false))

/-- Entry to DOZE (R156, R157, R158), and what the Radio Link Manager is told (R124, R160). That DOZE also waits for the master to be idle (log 28),
that a soft reset's reread counts as due (log 42), and how a Low Power left from an earlier entry is met (log 27) is the model's reading. -/
def Obligations.DozeEntryRunsItsStages : Prop :=
  (∀ (s : State),
      quietRuns s = true →
      ∃ t, exec .quietTimerExpiry s = .next t ∧ t.power.quiet = .runOut ∧ t.power.mode = s.power.mode
        ∧ (atRest s → s.power.step = .awake → dozeConditions { s with power.quiet := .runOut } = true → t.power.step = .entering .settling)
        ∧ (atRest s → s.power.step = .awake → dozeConditions { s with power.quiet := .runOut } = false → t.power.step = .awake))
  ∧ (∀ (m : MemoryMap) (s : State),
      s.power.step = .entering .settling → dozeConditions s = true → entrySettled s = true → s.loader.map = some m →
      ∃ t, exec .dozeEntrySettled s = .next t ∧ t.power.step = .entering .page ∧ t.power.mode = .reserve
        ∧ t.events.refreshCount = s.events.refreshCount + 1
        ∧ (∃ w1 w2, [⟨.pageHalf false true, .write (addrOf m.pageBase) w1⟩, ⟨.pageHalf true true,
            .write (addrOf (m.pageBase + 64)) w2⟩] <+: t.bus.queue
        ∧ w1[1]? = some ⟨wordOf [pathCode s.path.path, radioCode s.radio.state, 2, allowanceCode s.pacer.allowance], 15⟩))
  ∧ (∀ (a : Addr) (ws : List LaneWord) (rest : List MasterTransfer) (m : MemoryMap) (s : State),
      s.bus.queue = ⟨.pageHalf true true, .write a ws⟩ :: rest → s.loader.map = some m →
      (∀ p ∈ placeWords a ws, p.1 ∉ [watchedAddr m .txp, watchedAddr m .txc, watchedAddr m .rxp, watchedAddr m .rxf, watchedAddr m .evc,
          watchedAddr m .pgen]) →
      s.power.step = .entering .page → dozeConditions s = true → atRest s →
      ∃ t, exec .masterTransferCarried s = .next t ∧ t.power.step = .entering .link ∧ t.power.mode = .reserve ∧ t.events.pageWriting = false
        ∧ (moduleListens s = false ∨ s.radio.items.lowPower = some false → t.radio.items.lowPower = none ∧ t.radio.ldo = s.radio.ldo)
        ∧ (moduleListens s = true → s.radio.items.lowPower ≠ some false → (s.radio.ldo ≠ some (.lowPower true true) ∧
            s.radio.ldo ≠ some (.lowPower true false)) → t.radio.items.lowPower = some true ∧ t.radio.ldo = s.radio.ldo)
        ∧ (moduleListens s = true → s.radio.items.lowPower ≠ some false →
            (s.radio.ldo = some (.lowPower true true) ∨ s.radio.ldo = some (.lowPower true false)) → t.radio.items.lowPower = none ∧
            t.radio.ldo = some (.lowPower true true)))
  ∧ (∀ (s : State),
      s.power.step = .entering .link → dozeConditions s = true → entryDone s = true →
      exec .dozeReached s = .next { s with
          power.mode := .doze, power.step := .dozing, power.latch := ⟨false, false, false, false, false, false, false⟩,
          power.dozeTimer := some (s.loader.policy.dozeWake * 1000), pacer.pacing := none, pacer.refusalPause := none, hold.sweep10 := none,
          hold.sweep1s := none, health.timer100 := none, health.timer1s := none, events.refreshTimer := none })
  ∧ (∀ (s : State),
      ((s.ring.takes ≠ [] ∨ s.ring.delivery ≠ none ∨ (∃ p,
          s.radio.receiver = .payload p) ∨ s.loader.readState ≠ .idle ∨ s.loader.dueAfterRestart = true ∨ s.loader.softReset ≠ .none ∨ mayPost s = true ∨ s.events.pageWriting = true ∨ s.bus.queue ≠ [] ∨ s.bus.waiting ≠ []) ∨ dozeConditions s = false) →
      exec .dozeEntrySettled s = .next s)
  ∧ (∀ (s : State),
      ((s.radio.items.lowPower ≠ none ∨ s.radio.ldo ≠ none ∨ (∃ p,
          s.radio.receiver = .payload p) ∨ s.bus.queue ≠ [] ∨ s.bus.waiting ≠ []) ∨ dozeConditions s = false) →
      exec .dozeReached s = .next s)

/-- Wake sources (R159) and the restart (R160), with the causes recorded in DOZE (R26, R124). That RI is cleared at the restart's end (log 33) and
that recorded causes are acted on before the SIG sample of a doze timer wake (log 54) is the model's. -/
def Obligations.WakeSourcesBeginTheRestart : Prop :=
  (∀ (s : State),
      s.power.step = .dozing → s.power.dozeTimer.isSome = true →
      exec .dozeTimerExpiry s = .next { s with
          power.step := .restarting, power.restart := some 2, power.dozeTimer := none, power.latch := { s.power.latch with dozeTimer := true } })
  ∧ (∀ (s : State),
      s.power.mode = .doze → s.power.step = .dozing →
      ∃ t, exec .riAssert s = .next t ∧ t.power.mode = .doze ∧ t.power.step = .restarting ∧ t.power.restart = some 2 ∧ t.power.dozeTimer = none
        ∧ t.power.latch = { s.power.latch with ri := true } ∧ t.pins = { s.pins with ri := true })
  ∧ (∀ (los : Bool) (link : Bool) (s : State),
      s.power.mode = .doze → s.power.step = .dozing → (los ≠ s.pins.los ∨ link ≠ s.pins.link) →
      ∃ t, exec (.losLinkChange los link) s = .next t
        ∧ t.power.mode = .doze ∧ t.power.step = .restarting ∧ t.power.restart = some 2 ∧ t.power.dozeTimer = none
        ∧ t.power.latch = { s.power.latch with losLink := true } ∧ t.pins = { s.pins with los := los, link := link })
  ∧ (∀ (s : State),
      s.power.mode = .doze → s.power.step = .dozing → s.pins.offhook = false →
      ∃ t, exec .offhookAssert s = .next t ∧ t.power.mode = .doze ∧ t.power.step = .restarting ∧ t.power.restart = some 2 ∧ t.power.dozeTimer = none
        ∧ t.power.latch = { s.power.latch with offhook := true } ∧ t.pins = { s.pins with offhook := true })
  ∧ (∀ (s : State),
      s.power.mode = .doze → s.power.step = .dozing → s.pins.offhook = true →
      ∃ t, exec .offhookDeassert s = .next t ∧ t.power.mode = .doze ∧ t.power.step = .restarting ∧ t.power.restart = some 2
        ∧ t.power.dozeTimer = none ∧ t.power.latch = { s.power.latch with offhook := true } ∧ t.pins = { s.pins with offhook := false }
        ∧ t.path = s.path)
  ∧ (∀ (s : State),
      s.power.mode = .doze → s.power.step = .dozing → s.pins.mainsLost = true → partWorks s = true →
      ∃ t, exec .mainsLostDeassert s = .next t
        ∧ t.power.mode = .doze ∧ t.power.step = .restarting ∧ t.power.restart = some 2 ∧ t.power.dozeTimer = none
        ∧ t.power.latch = { s.power.latch with mainsReturned := true })
  ∧ (∀ (s : State),
      s.power.step = .restarting → s.path.recorded = [] →
      ∃ t, exec .restartEnd s = .next t ∧ t.power.mode = .reserve ∧ t.power.latch = ⟨false, false, false, false, false, false, false⟩
        ∧ t.power.restart = none ∧ t.pacer.pacing = some 1 ∧ t.hold.sweep10 = some 10 ∧ t.hold.sweep1s = some 1000 ∧ t.health.timer100 = some 100
        ∧ t.events.refreshTimer = some 100 ∧ t.pins.ri = false
        ∧ ((s.power.latch.txpWrite ∨ s.power.latch.pgenWrite ∨ s.power.latch.offhook ∨ s.power.latch.losLink ∨ s.power.latch.ri ∨ s.power.latch.mainsReturned) → t.power.quiet = .running (s.loader.policy.dozeDelay * 1000) ∧ t.power.step = .awake)
        ∧ (s.power.latch = ⟨false, false, false, false, false, true, false⟩ → t.power.quiet = s.power.quiet ∧
            t.health.sig = (if s.pins.los = false ∧ s.pins.link = true then min 253 (s.health.sig + s.loader.policy.sig.q) else max 1 (s.health.sig - s.loader.policy.sig.p)))
        ∧ (s.power.latch.dozeTimer = false → t.health.sig = s.health.sig)
        ∧ t.power.mainsReturn = (if s.power.latch.mainsReturned ∧ s.pins.mainsLost = false then some 10000 else s.power.mainsReturn)
        ∧ t.path.recorded = [] ∧ (s.radio.lowPowerTold = true → t.radio.items.lowPower = some false)
        ∧ (s.radio.lowPowerTold = false → t.radio.items.lowPower = s.radio.items.lowPower)
        ∧ (s.radio.silenceTimer.isSome = true → t.radio.silenceTimer = some 10000) ∧ t.ring.txCheckDue = false ∧ t.ring.rxCheckDue = false)
  ∧ (∀ (s : State),
      s.power.step = .restarting → s.path.recorded = [.refall] →
      ∃ t, exec .restartEnd s = .next t ∧ t.path.recorded = [] ∧ t.path.refallOpen = false ∧ t.path.refallTimer = none)
  ∧ (∀ (s : State),
      s.power.step = .restarting → s.path.recorded = [.dwell] → dwellRuns s = true → s.path.path ≠ .fibre → s.power.latch.dozeTimer = false →
      ∃ t, exec .restartEnd s = .next t ∧ t.path.recorded = [] ∧ t.path.dwell = .met)
  ∧ (∀ (s : State),
      s.power.step = .restarting → s.path.recorded = [.priority] → ringIdle s → s.path.path ≠ .fibre →
      ∃ t, exec .restartEnd s = .next t ∧ t.path.recorded = [] ∧ t.path.priorityTimer = none ∧ t.path.emergency = false)
  ∧ (∀ (s : State),
      s.power.step = .restarting → s.path.recorded = [.linger] → s.radio.state = .attached → s.path.path ≠ .fibre →
      ∃ t, exec .restartEnd s = .next t ∧ t.path.recorded = [] ∧ t.radio.lingerTimer = none ∧ t.radio.items.detach = true)
  ∧ (∀ (s : State),
      s.power.step = .restarting → s.path.recorded = [.backoff] → s.radio.state = .backoff → s.radio.ready = true → s.path.radioWanted = true →
      s.path.path ≠ .fibre →
      ∃ t, exec .restartEnd s = .next t ∧ t.path.recorded = [] ∧ t.radio.backoffTimer = none ∧ t.radio.state = .attaching
        ∧ t.radio.items.attach = true)
  ∧ (∀ (s : State),
      s.power.step = .restarting →
      ∃ t, exec .restartEnd s = .next t ∧ t.path.recorded = [] ∧ t.power.mode = .reserve
        ∧ t.power.latch = ⟨false, false, false, false, false, false, false⟩ ∧ t.power.restart = none)

/-- R170: the two LEDs. -/
def Obligations.LedsShowPathAndRadio : Prop :=
  ∀ s : State,
    ((s.loader.phase ≠ .ended ∨ s.power.mode = .doze) → pathLed s = .off ∧ radLed s = .off)
    ∧ (s.loader.phase = .ended → s.power.mode ≠ .doze →
        (s.path.path = .fibre → pathLed s = .off)
        ∧ (s.path.path = .takeover ∨ s.path.path = .returning → pathLed s = .slowFlash)
        ∧ (s.path.path = .radio ∨ s.path.path = .held → pathLed s = .on)
        ∧ (s.path.path = .disabled → pathLed s = .flashCode s.loader.flashCode)
        ∧ (s.radio.state = .off ∨ s.radio.state = .detached → radLed s = .off)
        ∧ (s.radio.state = .starting ∨ s.radio.state = .attaching ∨ s.radio.state = .backoff → radLed s = .slowFlash)
        ∧ (s.radio.state = .attached → radLed s = .on))
end

