-- ==== Sys2Proof/Laws/State.lean ====
section
/-! SUPPORT. What the smallest updates of the state set, one lemma per field they write, and what they keep. -/

-- One theorem at a time: the threads of many at once would not fit the memory a check has.
set_option Elab.async false

namespace Sys2Proof.Machine

/-- A fold keeps what each of its steps keeps. -/
theorem foldl_keeps {β γ : Type} (p : State → γ) (g : State → β → State) (l : List β) (s : State)
    (h : ∀ s a, p (g s a) = p s) : p (l.foldl g s) = p s := by
  induction l generalizing s with
  | nil => rfl
  | cons a l ih => rw [List.foldl_cons, ih, h]

@[simp] theorem storeFrame_hold_cells (s : State) (r : FrameRecord) (first : Nat) (bs : List Byte) :
    (storeFrame s r first bs).hold.cells = (memWriteAll s.hold.cells ((List.range bs.length).map fun i => (cellPlace r (first + i), bs.getD i 0))) := rfl
@[simp] theorem storeFrame_frame (s : State) (r : FrameRecord) (first : Nat) (bs : List Byte) :
    (storeFrame s r first bs).pending = s.pending ∧ (storeFrame s r first bs).clock = s.clock ∧ (storeFrame s r first bs).draws = s.draws
    ∧ (storeFrame s r first bs).sram = s.sram ∧ (storeFrame s r first bs).pins = s.pins ∧ (storeFrame s r first bs).loader = s.loader
    ∧ (storeFrame s r first bs).bus = s.bus ∧ (storeFrame s r first bs).ring = s.ring ∧ (storeFrame s r first bs).health = s.health
    ∧ (storeFrame s r first bs).path = s.path ∧ (storeFrame s r first bs).pacer = s.pacer ∧ (storeFrame s r first bs).radio = s.radio
    ∧ (storeFrame s r first bs).power = s.power ∧ (storeFrame s r first bs).events = s.events
    ∧ (storeFrame s r first bs).hold.freeList = s.hold.freeList ∧ (storeFrame s r first bs).hold.uqE = s.hold.uqE
    ∧ (storeFrame s r first bs).hold.uqV = s.hold.uqV ∧ (storeFrame s r first bs).hold.uqD = s.hold.uqD
    ∧ (storeFrame s r first bs).hold.dqV = s.hold.dqV ∧ (storeFrame s r first bs).hold.dqD = s.hold.dqD
    ∧ (storeFrame s r first bs).hold.onLdo = s.hold.onLdo ∧ (storeFrame s r first bs).hold.paused = s.hold.paused
    ∧ (storeFrame s r first bs).hold.sweep10 = s.hold.sweep10 ∧ (storeFrame s r first bs).hold.sweep1s = s.hold.sweep1s := by simp [storeFrame]

@[simp] theorem raiseEvent_events_entries (d : EventDetail) (s : State) :
    (raiseEvent d s).events.entries = (s.events.entries.modify (kindPriority (detailKind d) - 1) fun e => some (raisedEntry s.clock d e)) := rfl
@[simp] theorem raiseEvent_frame (d : EventDetail) (s : State) :
    (raiseEvent d s).pending = s.pending ∧ (raiseEvent d s).clock = s.clock ∧ (raiseEvent d s).draws = s.draws ∧ (raiseEvent d s).sram = s.sram
    ∧ (raiseEvent d s).pins = s.pins ∧ (raiseEvent d s).loader = s.loader ∧ (raiseEvent d s).bus = s.bus ∧ (raiseEvent d s).ring = s.ring
    ∧ (raiseEvent d s).health = s.health ∧ (raiseEvent d s).path = s.path ∧ (raiseEvent d s).hold = s.hold ∧ (raiseEvent d s).pacer = s.pacer
    ∧ (raiseEvent d s).radio = s.radio ∧ (raiseEvent d s).power = s.power ∧ (raiseEvent d s).events.evp = s.events.evp
    ∧ (raiseEvent d s).events.slotKinds = s.events.slotKinds ∧ (raiseEvent d s).events.refreshCount = s.events.refreshCount
    ∧ (raiseEvent d s).events.refreshTimer = s.events.refreshTimer ∧ (raiseEvent d s).events.pageWriting = s.events.pageWriting
    ∧ (raiseEvent d s).events.pageWanted = s.events.pageWanted ∧ (raiseEvent d s).events.counters = s.events.counters
    ∧ (raiseEvent d s).events.ledMs = s.events.ledMs := by simp [raiseEvent]

@[simp] theorem raiseCounter_events_counters (c : CounterName) (s : State) :
    (raiseCounter c s).events.counters = (s.events.counters.modify (counterIndex c) raisedCounter) := rfl
@[simp] theorem raiseCounter_frame (c : CounterName) (s : State) :
    (raiseCounter c s).pending = s.pending ∧ (raiseCounter c s).clock = s.clock ∧ (raiseCounter c s).draws = s.draws
    ∧ (raiseCounter c s).sram = s.sram ∧ (raiseCounter c s).pins = s.pins ∧ (raiseCounter c s).loader = s.loader ∧ (raiseCounter c s).bus = s.bus
    ∧ (raiseCounter c s).ring = s.ring ∧ (raiseCounter c s).health = s.health ∧ (raiseCounter c s).path = s.path
    ∧ (raiseCounter c s).hold = s.hold ∧ (raiseCounter c s).pacer = s.pacer ∧ (raiseCounter c s).radio = s.radio
    ∧ (raiseCounter c s).power = s.power ∧ (raiseCounter c s).events.entries = s.events.entries ∧ (raiseCounter c s).events.evp = s.events.evp
    ∧ (raiseCounter c s).events.slotKinds = s.events.slotKinds ∧ (raiseCounter c s).events.refreshCount = s.events.refreshCount
    ∧ (raiseCounter c s).events.refreshTimer = s.events.refreshTimer ∧ (raiseCounter c s).events.pageWriting = s.events.pageWriting
    ∧ (raiseCounter c s).events.pageWanted = s.events.pageWanted ∧ (raiseCounter c s).events.ledMs = s.events.ledMs := by simp [raiseCounter]

@[simp] theorem askPage_events_pageWanted (s : State) : (askPage s).events.pageWanted = true := rfl
@[simp] theorem askPage_frame (s : State) :
    (askPage s).pending = s.pending ∧ (askPage s).clock = s.clock ∧ (askPage s).draws = s.draws ∧ (askPage s).sram = s.sram
    ∧ (askPage s).pins = s.pins ∧ (askPage s).loader = s.loader ∧ (askPage s).bus = s.bus ∧ (askPage s).ring = s.ring
    ∧ (askPage s).health = s.health ∧ (askPage s).path = s.path ∧ (askPage s).hold = s.hold ∧ (askPage s).pacer = s.pacer
    ∧ (askPage s).radio = s.radio ∧ (askPage s).power = s.power ∧ (askPage s).events.entries = s.events.entries
    ∧ (askPage s).events.evp = s.events.evp ∧ (askPage s).events.slotKinds = s.events.slotKinds
    ∧ (askPage s).events.refreshCount = s.events.refreshCount ∧ (askPage s).events.refreshTimer = s.events.refreshTimer
    ∧ (askPage s).events.pageWriting = s.events.pageWriting ∧ (askPage s).events.counters = s.events.counters
    ∧ (askPage s).events.ledMs = s.events.ledMs := by simp [askPage]

@[simp] theorem request_bus_waiting (p : Purpose) (s : State) : (request p s).bus.waiting = (s.bus.waiting ++ [p]) := rfl
@[simp] theorem request_frame (p : Purpose) (s : State) :
    (request p s).pending = s.pending ∧ (request p s).clock = s.clock ∧ (request p s).draws = s.draws ∧ (request p s).sram = s.sram
    ∧ (request p s).pins = s.pins ∧ (request p s).loader = s.loader ∧ (request p s).ring = s.ring ∧ (request p s).health = s.health
    ∧ (request p s).path = s.path ∧ (request p s).hold = s.hold ∧ (request p s).pacer = s.pacer ∧ (request p s).radio = s.radio
    ∧ (request p s).power = s.power ∧ (request p s).events = s.events ∧ (request p s).bus.shadows = s.bus.shadows
    ∧ (request p s).bus.txHorizon = s.bus.txHorizon ∧ (request p s).bus.rxHorizon = s.bus.rxHorizon ∧ (request p s).bus.fixedH = s.bus.fixedH
    ∧ (request p s).bus.fixedG = s.bus.fixedG ∧ (request p s).bus.uplinkView = s.bus.uplinkView
    ∧ (request p s).bus.receiveView = s.bus.receiveView ∧ (request p s).bus.uplinkViewValue = s.bus.uplinkViewValue
    ∧ (request p s).bus.receiveViewValue = s.bus.receiveViewValue ∧ (request p s).bus.txGuard = s.bus.txGuard
    ∧ (request p s).bus.rxGuard = s.bus.rxGuard ∧ (request p s).bus.queue = s.bus.queue ∧ (request p s).bus.waitCount = s.bus.waitCount
    ∧ (request p s).bus.gatewayData = s.bus.gatewayData := by simp [request]

@[simp] theorem requestAll_bus_waiting (ps : List Purpose) (s : State) : (requestAll ps s).bus.waiting = (s.bus.waiting ++ ps) := rfl
@[simp] theorem requestAll_frame (ps : List Purpose) (s : State) :
    (requestAll ps s).pending = s.pending ∧ (requestAll ps s).clock = s.clock ∧ (requestAll ps s).draws = s.draws
    ∧ (requestAll ps s).sram = s.sram ∧ (requestAll ps s).pins = s.pins ∧ (requestAll ps s).loader = s.loader ∧ (requestAll ps s).ring = s.ring
    ∧ (requestAll ps s).health = s.health ∧ (requestAll ps s).path = s.path ∧ (requestAll ps s).hold = s.hold ∧ (requestAll ps s).pacer = s.pacer
    ∧ (requestAll ps s).radio = s.radio ∧ (requestAll ps s).power = s.power ∧ (requestAll ps s).events = s.events
    ∧ (requestAll ps s).bus.shadows = s.bus.shadows ∧ (requestAll ps s).bus.txHorizon = s.bus.txHorizon
    ∧ (requestAll ps s).bus.rxHorizon = s.bus.rxHorizon ∧ (requestAll ps s).bus.fixedH = s.bus.fixedH
    ∧ (requestAll ps s).bus.fixedG = s.bus.fixedG ∧ (requestAll ps s).bus.uplinkView = s.bus.uplinkView
    ∧ (requestAll ps s).bus.receiveView = s.bus.receiveView ∧ (requestAll ps s).bus.uplinkViewValue = s.bus.uplinkViewValue
    ∧ (requestAll ps s).bus.receiveViewValue = s.bus.receiveViewValue ∧ (requestAll ps s).bus.txGuard = s.bus.txGuard
    ∧ (requestAll ps s).bus.rxGuard = s.bus.rxGuard ∧ (requestAll ps s).bus.queue = s.bus.queue
    ∧ (requestAll ps s).bus.waitCount = s.bus.waitCount ∧ (requestAll ps s).bus.gatewayData = s.bus.gatewayData := by simp [requestAll]

@[simp] theorem restartQuiet_power_quiet (s : State) : (restartQuiet s).power.quiet = (.running (s.loader.policy.dozeDelay * 1000)) := rfl
@[simp] theorem restartQuiet_frame (s : State) :
    (restartQuiet s).pending = s.pending ∧ (restartQuiet s).clock = s.clock ∧ (restartQuiet s).draws = s.draws ∧ (restartQuiet s).sram = s.sram
    ∧ (restartQuiet s).pins = s.pins ∧ (restartQuiet s).loader = s.loader ∧ (restartQuiet s).bus = s.bus ∧ (restartQuiet s).ring = s.ring
    ∧ (restartQuiet s).health = s.health ∧ (restartQuiet s).path = s.path ∧ (restartQuiet s).hold = s.hold ∧ (restartQuiet s).pacer = s.pacer
    ∧ (restartQuiet s).radio = s.radio ∧ (restartQuiet s).events = s.events ∧ (restartQuiet s).power.mode = s.power.mode
    ∧ (restartQuiet s).power.step = s.power.step ∧ (restartQuiet s).power.mainsReturn = s.power.mainsReturn
    ∧ (restartQuiet s).power.dozeTimer = s.power.dozeTimer ∧ (restartQuiet s).power.restart = s.power.restart
    ∧ (restartQuiet s).power.latch = s.power.latch := by simp [restartQuiet]

@[simp] theorem answerLowPower_frame (s : State) :
    (answerLowPower s).pending = s.pending ∧ (answerLowPower s).clock = s.clock ∧ (answerLowPower s).draws = s.draws
    ∧ (answerLowPower s).sram = s.sram ∧ (answerLowPower s).pins = s.pins ∧ (answerLowPower s).loader = s.loader ∧ (answerLowPower s).bus = s.bus
    ∧ (answerLowPower s).ring = s.ring ∧ (answerLowPower s).health = s.health ∧ (answerLowPower s).path = s.path
    ∧ (answerLowPower s).hold = s.hold ∧ (answerLowPower s).pacer = s.pacer ∧ (answerLowPower s).power = s.power
    ∧ (answerLowPower s).events = s.events ∧ (answerLowPower s).radio.state = s.radio.state ∧ (answerLowPower s).radio.ready = s.radio.ready
    ∧ (answerLowPower s).radio.failures = s.radio.failures ∧ (answerLowPower s).radio.lastCause = s.radio.lastCause
    ∧ (answerLowPower s).radio.startTimer = s.radio.startTimer ∧ (answerLowPower s).radio.cycleTimer = s.radio.cycleTimer
    ∧ (answerLowPower s).radio.attachTimer = s.radio.attachTimer ∧ (answerLowPower s).radio.backoffTimer = s.radio.backoffTimer
    ∧ (answerLowPower s).radio.silenceTimer = s.radio.silenceTimer ∧ (answerLowPower s).radio.lingerTimer = s.radio.lingerTimer
    ∧ (answerLowPower s).radio.mrstTimer = s.radio.mrstTimer ∧ (answerLowPower s).radio.grantUp = s.radio.grantUp
    ∧ (answerLowPower s).radio.grantDown = s.radio.grantDown ∧ (answerLowPower s).radio.grantQuality = s.radio.grantQuality
    ∧ (answerLowPower s).radio.slotA = s.radio.slotA ∧ (answerLowPower s).radio.slotB = s.radio.slotB
    ∧ (answerLowPower s).radio.unsent = s.radio.unsent ∧ (answerLowPower s).radio.attachTag = s.radio.attachTag
    ∧ (answerLowPower s).radio.pauseTold = s.radio.pauseTold ∧ (answerLowPower s).radio.capTold = s.radio.capTold
    ∧ (answerLowPower s).radio.lowPowerTold = s.radio.lowPowerTold ∧ (answerLowPower s).radio.ldoLast = s.radio.ldoLast
    ∧ (answerLowPower s).radio.receiver = s.radio.receiver ∧ (answerLowPower s).radio.mpwr = s.radio.mpwr
    ∧ (answerLowPower s).radio.mrst = s.radio.mrst := by unfold answerLowPower; (repeat' split) <;> simp

@[simp] theorem evalPause_frame (s : State) :
    (evalPause s).pending = s.pending ∧ (evalPause s).clock = s.clock ∧ (evalPause s).draws = s.draws ∧ (evalPause s).sram = s.sram
    ∧ (evalPause s).pins = s.pins ∧ (evalPause s).loader = s.loader ∧ (evalPause s).bus = s.bus ∧ (evalPause s).ring = s.ring
    ∧ (evalPause s).health = s.health ∧ (evalPause s).path = s.path ∧ (evalPause s).pacer = s.pacer ∧ (evalPause s).power = s.power
    ∧ (evalPause s).events = s.events ∧ (evalPause s).hold.cells = s.hold.cells ∧ (evalPause s).hold.freeList = s.hold.freeList
    ∧ (evalPause s).hold.uqE = s.hold.uqE ∧ (evalPause s).hold.uqV = s.hold.uqV ∧ (evalPause s).hold.uqD = s.hold.uqD
    ∧ (evalPause s).hold.dqV = s.hold.dqV ∧ (evalPause s).hold.dqD = s.hold.dqD ∧ (evalPause s).hold.onLdo = s.hold.onLdo
    ∧ (evalPause s).hold.sweep10 = s.hold.sweep10 ∧ (evalPause s).hold.sweep1s = s.hold.sweep1s ∧ (evalPause s).radio.state = s.radio.state
    ∧ (evalPause s).radio.ready = s.radio.ready ∧ (evalPause s).radio.failures = s.radio.failures
    ∧ (evalPause s).radio.lastCause = s.radio.lastCause ∧ (evalPause s).radio.startTimer = s.radio.startTimer
    ∧ (evalPause s).radio.cycleTimer = s.radio.cycleTimer ∧ (evalPause s).radio.attachTimer = s.radio.attachTimer
    ∧ (evalPause s).radio.backoffTimer = s.radio.backoffTimer ∧ (evalPause s).radio.silenceTimer = s.radio.silenceTimer
    ∧ (evalPause s).radio.lingerTimer = s.radio.lingerTimer ∧ (evalPause s).radio.mrstTimer = s.radio.mrstTimer
    ∧ (evalPause s).radio.grantUp = s.radio.grantUp ∧ (evalPause s).radio.grantDown = s.radio.grantDown
    ∧ (evalPause s).radio.grantQuality = s.radio.grantQuality ∧ (evalPause s).radio.slotA = s.radio.slotA
    ∧ (evalPause s).radio.slotB = s.radio.slotB ∧ (evalPause s).radio.unsent = s.radio.unsent ∧ (evalPause s).radio.attachTag = s.radio.attachTag
    ∧ (evalPause s).radio.pauseTold = s.radio.pauseTold ∧ (evalPause s).radio.capTold = s.radio.capTold
    ∧ (evalPause s).radio.lowPowerTold = s.radio.lowPowerTold ∧ (evalPause s).radio.ldo = s.radio.ldo
    ∧ (evalPause s).radio.ldoLast = s.radio.ldoLast ∧ (evalPause s).radio.receiver = s.radio.receiver ∧ (evalPause s).radio.mpwr = s.radio.mpwr
    ∧ (evalPause s).radio.mrst = s.radio.mrst := by simp only [evalPause, withPauseTarget]; (repeat' split) <;> simp

@[simp] theorem powerUp_radio_mpwr (s : State) : (powerUp s).radio.mpwr = true := rfl
@[simp] theorem powerUp_radio_mrst (s : State) : (powerUp s).radio.mrst = true := rfl
@[simp] theorem powerUp_radio_mrstTimer (s : State) : (powerUp s).radio.mrstTimer = (some 10) := rfl
@[simp] theorem powerUp_frame (s : State) :
    (powerUp s).pending = s.pending ∧ (powerUp s).clock = s.clock ∧ (powerUp s).draws = s.draws ∧ (powerUp s).sram = s.sram
    ∧ (powerUp s).pins = s.pins ∧ (powerUp s).loader = s.loader ∧ (powerUp s).bus = s.bus ∧ (powerUp s).ring = s.ring
    ∧ (powerUp s).health = s.health ∧ (powerUp s).path = s.path ∧ (powerUp s).hold = s.hold ∧ (powerUp s).pacer = s.pacer
    ∧ (powerUp s).power = s.power ∧ (powerUp s).events = s.events ∧ (powerUp s).radio.state = s.radio.state
    ∧ (powerUp s).radio.ready = s.radio.ready ∧ (powerUp s).radio.failures = s.radio.failures ∧ (powerUp s).radio.lastCause = s.radio.lastCause
    ∧ (powerUp s).radio.startTimer = s.radio.startTimer ∧ (powerUp s).radio.cycleTimer = s.radio.cycleTimer
    ∧ (powerUp s).radio.attachTimer = s.radio.attachTimer ∧ (powerUp s).radio.backoffTimer = s.radio.backoffTimer
    ∧ (powerUp s).radio.silenceTimer = s.radio.silenceTimer ∧ (powerUp s).radio.lingerTimer = s.radio.lingerTimer
    ∧ (powerUp s).radio.grantUp = s.radio.grantUp ∧ (powerUp s).radio.grantDown = s.radio.grantDown
    ∧ (powerUp s).radio.grantQuality = s.radio.grantQuality ∧ (powerUp s).radio.slotA = s.radio.slotA ∧ (powerUp s).radio.slotB = s.radio.slotB
    ∧ (powerUp s).radio.unsent = s.radio.unsent ∧ (powerUp s).radio.attachTag = s.radio.attachTag
    ∧ (powerUp s).radio.pauseTold = s.radio.pauseTold ∧ (powerUp s).radio.capTold = s.radio.capTold
    ∧ (powerUp s).radio.lowPowerTold = s.radio.lowPowerTold ∧ (powerUp s).radio.items = s.radio.items ∧ (powerUp s).radio.ldo = s.radio.ldo
    ∧ (powerUp s).radio.ldoLast = s.radio.ldoLast ∧ (powerUp s).radio.receiver = s.radio.receiver := by simp [powerUp]

@[simp] theorem enterStarting_radio_state (s : State) : (enterStarting s).radio.state = .starting := rfl
@[simp] theorem enterStarting_radio_ready (s : State) : (enterStarting s).radio.ready = false := rfl
@[simp] theorem enterStarting_radio_startTimer (s : State) : (enterStarting s).radio.startTimer = (some 20000) := rfl
@[simp] theorem enterStarting_frame (s : State) :
    (enterStarting s).pending = s.pending ∧ (enterStarting s).clock = s.clock ∧ (enterStarting s).draws = s.draws
    ∧ (enterStarting s).sram = s.sram ∧ (enterStarting s).pins = s.pins ∧ (enterStarting s).loader = s.loader ∧ (enterStarting s).bus = s.bus
    ∧ (enterStarting s).ring = s.ring ∧ (enterStarting s).health = s.health ∧ (enterStarting s).path = s.path ∧ (enterStarting s).hold = s.hold
    ∧ (enterStarting s).pacer = s.pacer ∧ (enterStarting s).power = s.power ∧ (enterStarting s).events = s.events
    ∧ (enterStarting s).radio.failures = s.radio.failures ∧ (enterStarting s).radio.lastCause = s.radio.lastCause
    ∧ (enterStarting s).radio.cycleTimer = s.radio.cycleTimer ∧ (enterStarting s).radio.attachTimer = s.radio.attachTimer
    ∧ (enterStarting s).radio.backoffTimer = s.radio.backoffTimer ∧ (enterStarting s).radio.silenceTimer = s.radio.silenceTimer
    ∧ (enterStarting s).radio.lingerTimer = s.radio.lingerTimer ∧ (enterStarting s).radio.mrstTimer = s.radio.mrstTimer
    ∧ (enterStarting s).radio.grantUp = s.radio.grantUp ∧ (enterStarting s).radio.grantDown = s.radio.grantDown
    ∧ (enterStarting s).radio.grantQuality = s.radio.grantQuality ∧ (enterStarting s).radio.slotA = s.radio.slotA
    ∧ (enterStarting s).radio.slotB = s.radio.slotB ∧ (enterStarting s).radio.unsent = s.radio.unsent
    ∧ (enterStarting s).radio.attachTag = s.radio.attachTag ∧ (enterStarting s).radio.pauseTold = s.radio.pauseTold
    ∧ (enterStarting s).radio.capTold = s.radio.capTold ∧ (enterStarting s).radio.lowPowerTold = s.radio.lowPowerTold
    ∧ (enterStarting s).radio.items = s.radio.items ∧ (enterStarting s).radio.ldo = s.radio.ldo
    ∧ (enterStarting s).radio.ldoLast = s.radio.ldoLast ∧ (enterStarting s).radio.receiver = s.radio.receiver
    ∧ (enterStarting s).radio.mpwr = s.radio.mpwr ∧ (enterStarting s).radio.mrst = s.radio.mrst := by simp [enterStarting]

@[simp] theorem requestAttach_radio_state (s : State) : (requestAttach s).radio.state = .attaching := rfl
@[simp] theorem requestAttach_radio_items_attach (s : State) : (requestAttach s).radio.items.attach = true := rfl
@[simp] theorem requestAttach_radio_attachTimer (s : State) :
    (requestAttach s).radio.attachTimer = (some (s.loader.policy.attachTimeout * 1000)) := rfl
@[simp] theorem requestAttach_radio_attachTag (s : State) : (requestAttach s).radio.attachTag = none := rfl
@[simp] theorem requestAttach_frame (s : State) :
    (requestAttach s).pending = s.pending ∧ (requestAttach s).clock = s.clock ∧ (requestAttach s).draws = s.draws
    ∧ (requestAttach s).sram = s.sram ∧ (requestAttach s).pins = s.pins ∧ (requestAttach s).loader = s.loader ∧ (requestAttach s).bus = s.bus
    ∧ (requestAttach s).ring = s.ring ∧ (requestAttach s).health = s.health ∧ (requestAttach s).path = s.path ∧ (requestAttach s).hold = s.hold
    ∧ (requestAttach s).pacer = s.pacer ∧ (requestAttach s).power = s.power ∧ (requestAttach s).events = s.events
    ∧ (requestAttach s).radio.ready = s.radio.ready ∧ (requestAttach s).radio.failures = s.radio.failures
    ∧ (requestAttach s).radio.lastCause = s.radio.lastCause ∧ (requestAttach s).radio.startTimer = s.radio.startTimer
    ∧ (requestAttach s).radio.cycleTimer = s.radio.cycleTimer ∧ (requestAttach s).radio.backoffTimer = s.radio.backoffTimer
    ∧ (requestAttach s).radio.silenceTimer = s.radio.silenceTimer ∧ (requestAttach s).radio.lingerTimer = s.radio.lingerTimer
    ∧ (requestAttach s).radio.mrstTimer = s.radio.mrstTimer ∧ (requestAttach s).radio.grantUp = s.radio.grantUp
    ∧ (requestAttach s).radio.grantDown = s.radio.grantDown ∧ (requestAttach s).radio.grantQuality = s.radio.grantQuality
    ∧ (requestAttach s).radio.slotA = s.radio.slotA ∧ (requestAttach s).radio.slotB = s.radio.slotB
    ∧ (requestAttach s).radio.unsent = s.radio.unsent ∧ (requestAttach s).radio.pauseTold = s.radio.pauseTold
    ∧ (requestAttach s).radio.capTold = s.radio.capTold ∧ (requestAttach s).radio.lowPowerTold = s.radio.lowPowerTold
    ∧ (requestAttach s).radio.ldo = s.radio.ldo ∧ (requestAttach s).radio.ldoLast = s.radio.ldoLast
    ∧ (requestAttach s).radio.receiver = s.radio.receiver ∧ (requestAttach s).radio.mpwr = s.radio.mpwr
    ∧ (requestAttach s).radio.mrst = s.radio.mrst := by simp [requestAttach]

@[simp] theorem restartPriority_path_priorityTimer (s : State) : (restartPriority s).path.priorityTimer = (some 60000) := rfl
@[simp] theorem restartPriority_frame (s : State) :
    (restartPriority s).pending = s.pending ∧ (restartPriority s).clock = s.clock ∧ (restartPriority s).draws = s.draws
    ∧ (restartPriority s).sram = s.sram ∧ (restartPriority s).pins = s.pins ∧ (restartPriority s).loader = s.loader
    ∧ (restartPriority s).bus = s.bus ∧ (restartPriority s).ring = s.ring ∧ (restartPriority s).health = s.health
    ∧ (restartPriority s).hold = s.hold ∧ (restartPriority s).pacer = s.pacer ∧ (restartPriority s).radio = s.radio
    ∧ (restartPriority s).power = s.power ∧ (restartPriority s).events = s.events ∧ (restartPriority s).path.path = s.path.path
    ∧ (restartPriority s).path.phase = s.path.phase ∧ (restartPriority s).path.dwellD = s.path.dwellD
    ∧ (restartPriority s).path.dwell = s.path.dwell ∧ (restartPriority s).path.refallTimer = s.path.refallTimer
    ∧ (restartPriority s).path.refallOpen = s.path.refallOpen ∧ (restartPriority s).path.releaseTimer = s.path.releaseTimer
    ∧ (restartPriority s).path.txReleased = s.path.txReleased ∧ (restartPriority s).path.rxReleased = s.path.rxReleased
    ∧ (restartPriority s).path.drainTimer = s.path.drainTimer ∧ (restartPriority s).path.emergency = s.path.emergency
    ∧ (restartPriority s).path.radioWanted = s.path.radioWanted ∧ (restartPriority s).path.returnPause = s.path.returnPause
    ∧ (restartPriority s).path.recorded = s.path.recorded := by simp [restartPriority]

@[simp] theorem updateEntry_ring_window (pos : Count) (f : Entry → Entry) (s : State) :
    (updateEntry pos f s).ring.window = (s.ring.window.map fun e => if e.pos = pos then f e else e) := rfl
@[simp] theorem updateEntry_frame (pos : Count) (f : Entry → Entry) (s : State) :
    (updateEntry pos f s).pending = s.pending ∧ (updateEntry pos f s).clock = s.clock ∧ (updateEntry pos f s).draws = s.draws
    ∧ (updateEntry pos f s).sram = s.sram ∧ (updateEntry pos f s).pins = s.pins ∧ (updateEntry pos f s).loader = s.loader
    ∧ (updateEntry pos f s).bus = s.bus ∧ (updateEntry pos f s).health = s.health ∧ (updateEntry pos f s).path = s.path
    ∧ (updateEntry pos f s).hold = s.hold ∧ (updateEntry pos f s).pacer = s.pacer ∧ (updateEntry pos f s).radio = s.radio
    ∧ (updateEntry pos f s).power = s.power ∧ (updateEntry pos f s).events = s.events ∧ (updateEntry pos f s).ring.base = s.ring.base
    ∧ (updateEntry pos f s).ring.partTxc = s.ring.partTxc ∧ (updateEntry pos f s).ring.readMark = s.ring.readMark
    ∧ (updateEntry pos f s).ring.descriptorRead = s.ring.descriptorRead ∧ (updateEntry pos f s).ring.takes = s.ring.takes
    ∧ (updateEntry pos f s).ring.fence = s.ring.fence ∧ (updateEntry pos f s).ring.overrun = s.ring.overrun
    ∧ (updateEntry pos f s).ring.txCheckDue = s.ring.txCheckDue ∧ (updateEntry pos f s).ring.scanRunning = s.ring.scanRunning
    ∧ (updateEntry pos f s).ring.scanMark = s.ring.scanMark ∧ (updateEntry pos f s).ring.scanRead = s.ring.scanRead
    ∧ (updateEntry pos f s).ring.txForcing = s.ring.txForcing ∧ (updateEntry pos f s).ring.rxForcing = s.ring.rxForcing
    ∧ (updateEntry pos f s).ring.handBackAsked = s.ring.handBackAsked ∧ (updateEntry pos f s).ring.fillCursor = s.ring.fillCursor
    ∧ (updateEntry pos f s).ring.partRxf = s.ring.partRxf ∧ (updateEntry pos f s).ring.delivery = s.ring.delivery
    ∧ (updateEntry pos f s).ring.descriptorHeld = s.ring.descriptorHeld ∧ (updateEntry pos f s).ring.rxOverrun = s.ring.rxOverrun
    ∧ (updateEntry pos f s).ring.rxCheckDue = s.ring.rxCheckDue := by simp [updateEntry]

@[simp] theorem joinQueue_frame (r : FrameRecord) (s : State) :
    (joinQueue r s).pending = s.pending ∧ (joinQueue r s).clock = s.clock ∧ (joinQueue r s).draws = s.draws ∧ (joinQueue r s).sram = s.sram
    ∧ (joinQueue r s).pins = s.pins ∧ (joinQueue r s).loader = s.loader ∧ (joinQueue r s).bus = s.bus ∧ (joinQueue r s).ring = s.ring
    ∧ (joinQueue r s).health = s.health ∧ (joinQueue r s).path = s.path ∧ (joinQueue r s).pacer = s.pacer ∧ (joinQueue r s).radio = s.radio
    ∧ (joinQueue r s).power = s.power ∧ (joinQueue r s).events = s.events ∧ (joinQueue r s).hold.cells = s.hold.cells
    ∧ (joinQueue r s).hold.freeList = s.hold.freeList ∧ (joinQueue r s).hold.onLdo = s.hold.onLdo ∧ (joinQueue r s).hold.paused = s.hold.paused
    ∧ (joinQueue r s).hold.sweep10 = s.hold.sweep10 ∧ (joinQueue r s).hold.sweep1s = s.hold.sweep1s := by unfold joinQueue; (repeat' split) <;> simp

@[simp] theorem rejoinQueue_frame (r : FrameRecord) (s : State) :
    (rejoinQueue r s).pending = s.pending ∧ (rejoinQueue r s).clock = s.clock ∧ (rejoinQueue r s).draws = s.draws
    ∧ (rejoinQueue r s).sram = s.sram ∧ (rejoinQueue r s).pins = s.pins ∧ (rejoinQueue r s).loader = s.loader ∧ (rejoinQueue r s).bus = s.bus
    ∧ (rejoinQueue r s).ring = s.ring ∧ (rejoinQueue r s).health = s.health ∧ (rejoinQueue r s).path = s.path ∧ (rejoinQueue r s).pacer = s.pacer
    ∧ (rejoinQueue r s).radio = s.radio ∧ (rejoinQueue r s).power = s.power ∧ (rejoinQueue r s).events = s.events
    ∧ (rejoinQueue r s).hold.cells = s.hold.cells ∧ (rejoinQueue r s).hold.freeList = s.hold.freeList ∧ (rejoinQueue r s).hold.dqV = s.hold.dqV
    ∧ (rejoinQueue r s).hold.dqD = s.hold.dqD ∧ (rejoinQueue r s).hold.onLdo = s.hold.onLdo ∧ (rejoinQueue r s).hold.paused = s.hold.paused
    ∧ (rejoinQueue r s).hold.sweep10 = s.hold.sweep10 ∧ (rejoinQueue r s).hold.sweep1s = s.hold.sweep1s := by unfold rejoinQueue; (repeat' split) <;> simp

@[simp] theorem clearSlot_frame (slot : Slot) (s : State) :
    (clearSlot slot s).pending = s.pending ∧ (clearSlot slot s).clock = s.clock ∧ (clearSlot slot s).draws = s.draws
    ∧ (clearSlot slot s).sram = s.sram ∧ (clearSlot slot s).pins = s.pins ∧ (clearSlot slot s).loader = s.loader ∧ (clearSlot slot s).bus = s.bus
    ∧ (clearSlot slot s).ring = s.ring ∧ (clearSlot slot s).health = s.health ∧ (clearSlot slot s).path = s.path
    ∧ (clearSlot slot s).hold = s.hold ∧ (clearSlot slot s).pacer = s.pacer ∧ (clearSlot slot s).power = s.power
    ∧ (clearSlot slot s).events = s.events ∧ (clearSlot slot s).radio.state = s.radio.state ∧ (clearSlot slot s).radio.ready = s.radio.ready
    ∧ (clearSlot slot s).radio.failures = s.radio.failures ∧ (clearSlot slot s).radio.lastCause = s.radio.lastCause
    ∧ (clearSlot slot s).radio.startTimer = s.radio.startTimer ∧ (clearSlot slot s).radio.cycleTimer = s.radio.cycleTimer
    ∧ (clearSlot slot s).radio.attachTimer = s.radio.attachTimer ∧ (clearSlot slot s).radio.backoffTimer = s.radio.backoffTimer
    ∧ (clearSlot slot s).radio.silenceTimer = s.radio.silenceTimer ∧ (clearSlot slot s).radio.lingerTimer = s.radio.lingerTimer
    ∧ (clearSlot slot s).radio.mrstTimer = s.radio.mrstTimer ∧ (clearSlot slot s).radio.grantUp = s.radio.grantUp
    ∧ (clearSlot slot s).radio.grantDown = s.radio.grantDown ∧ (clearSlot slot s).radio.grantQuality = s.radio.grantQuality
    ∧ (clearSlot slot s).radio.attachTag = s.radio.attachTag ∧ (clearSlot slot s).radio.pauseTold = s.radio.pauseTold
    ∧ (clearSlot slot s).radio.capTold = s.radio.capTold ∧ (clearSlot slot s).radio.lowPowerTold = s.radio.lowPowerTold
    ∧ (clearSlot slot s).radio.items = s.radio.items ∧ (clearSlot slot s).radio.ldoLast = s.radio.ldoLast
    ∧ (clearSlot slot s).radio.receiver = s.radio.receiver ∧ (clearSlot slot s).radio.mpwr = s.radio.mpwr
    ∧ (clearSlot slot s).radio.mrst = s.radio.mrst := by simp only [clearSlot]; (repeat' split) <;> simp

@[simp] theorem clearCharge_frame (slot : Slot) (s : State) :
    (clearCharge slot s).pending = s.pending ∧ (clearCharge slot s).clock = s.clock ∧ (clearCharge slot s).draws = s.draws
    ∧ (clearCharge slot s).sram = s.sram ∧ (clearCharge slot s).pins = s.pins ∧ (clearCharge slot s).loader = s.loader
    ∧ (clearCharge slot s).bus = s.bus ∧ (clearCharge slot s).ring = s.ring ∧ (clearCharge slot s).health = s.health
    ∧ (clearCharge slot s).path = s.path ∧ (clearCharge slot s).hold = s.hold ∧ (clearCharge slot s).radio = s.radio
    ∧ (clearCharge slot s).power = s.power ∧ (clearCharge slot s).events = s.events ∧ (clearCharge slot s).pacer.credit = s.pacer.credit
    ∧ (clearCharge slot s).pacer.pacing = s.pacer.pacing ∧ (clearCharge slot s).pacer.refusalPause = s.pacer.refusalPause
    ∧ (clearCharge slot s).pacer.grantSeen = s.pacer.grantSeen ∧ (clearCharge slot s).pacer.usageBase = s.pacer.usageBase
    ∧ (clearCharge slot s).pacer.carried = s.pacer.carried ∧ (clearCharge slot s).pacer.allowance = s.pacer.allowance
    ∧ (clearCharge slot s).pacer.downlinkCap = s.pacer.downlinkCap := by unfold clearCharge; (repeat' split) <;> simp

@[simp] theorem emptyQueues_hold_uqE (s : State) : (emptyQueues s).hold.uqE = [] := rfl
@[simp] theorem emptyQueues_hold_uqV (s : State) : (emptyQueues s).hold.uqV = [] := rfl
@[simp] theorem emptyQueues_hold_uqD (s : State) : (emptyQueues s).hold.uqD = [] := rfl
@[simp] theorem emptyQueues_hold_dqV (s : State) : (emptyQueues s).hold.dqV = [] := rfl
@[simp] theorem emptyQueues_hold_dqD (s : State) : (emptyQueues s).hold.dqD = [] := rfl
@[simp] theorem emptyQueues_frame (s : State) :
    (emptyQueues s).pending = s.pending ∧ (emptyQueues s).clock = s.clock ∧ (emptyQueues s).draws = s.draws ∧ (emptyQueues s).sram = s.sram
    ∧ (emptyQueues s).pins = s.pins ∧ (emptyQueues s).loader = s.loader ∧ (emptyQueues s).bus = s.bus ∧ (emptyQueues s).ring = s.ring
    ∧ (emptyQueues s).health = s.health ∧ (emptyQueues s).path = s.path ∧ (emptyQueues s).pacer = s.pacer ∧ (emptyQueues s).radio = s.radio
    ∧ (emptyQueues s).power = s.power ∧ (emptyQueues s).events = s.events ∧ (emptyQueues s).hold.cells = s.hold.cells
    ∧ (emptyQueues s).hold.freeList = s.hold.freeList ∧ (emptyQueues s).hold.onLdo = s.hold.onLdo ∧ (emptyQueues s).hold.paused = s.hold.paused
    ∧ (emptyQueues s).hold.sweep10 = s.hold.sweep10 ∧ (emptyQueues s).hold.sweep1s = s.hold.sweep1s := by simp [emptyQueues]

@[simp] theorem markReceiving_frame (fate : ReceiveFate) (s : State) :
    (markReceiving fate s).pending = s.pending ∧ (markReceiving fate s).clock = s.clock ∧ (markReceiving fate s).draws = s.draws
    ∧ (markReceiving fate s).sram = s.sram ∧ (markReceiving fate s).pins = s.pins ∧ (markReceiving fate s).loader = s.loader
    ∧ (markReceiving fate s).bus = s.bus ∧ (markReceiving fate s).ring = s.ring ∧ (markReceiving fate s).health = s.health
    ∧ (markReceiving fate s).path = s.path ∧ (markReceiving fate s).hold = s.hold ∧ (markReceiving fate s).pacer = s.pacer
    ∧ (markReceiving fate s).power = s.power ∧ (markReceiving fate s).events = s.events ∧ (markReceiving fate s).radio.state = s.radio.state
    ∧ (markReceiving fate s).radio.ready = s.radio.ready ∧ (markReceiving fate s).radio.failures = s.radio.failures
    ∧ (markReceiving fate s).radio.lastCause = s.radio.lastCause ∧ (markReceiving fate s).radio.startTimer = s.radio.startTimer
    ∧ (markReceiving fate s).radio.cycleTimer = s.radio.cycleTimer ∧ (markReceiving fate s).radio.attachTimer = s.radio.attachTimer
    ∧ (markReceiving fate s).radio.backoffTimer = s.radio.backoffTimer ∧ (markReceiving fate s).radio.silenceTimer = s.radio.silenceTimer
    ∧ (markReceiving fate s).radio.lingerTimer = s.radio.lingerTimer ∧ (markReceiving fate s).radio.mrstTimer = s.radio.mrstTimer
    ∧ (markReceiving fate s).radio.grantUp = s.radio.grantUp ∧ (markReceiving fate s).radio.grantDown = s.radio.grantDown
    ∧ (markReceiving fate s).radio.grantQuality = s.radio.grantQuality ∧ (markReceiving fate s).radio.slotA = s.radio.slotA
    ∧ (markReceiving fate s).radio.slotB = s.radio.slotB ∧ (markReceiving fate s).radio.unsent = s.radio.unsent
    ∧ (markReceiving fate s).radio.attachTag = s.radio.attachTag ∧ (markReceiving fate s).radio.pauseTold = s.radio.pauseTold
    ∧ (markReceiving fate s).radio.capTold = s.radio.capTold ∧ (markReceiving fate s).radio.lowPowerTold = s.radio.lowPowerTold
    ∧ (markReceiving fate s).radio.items = s.radio.items ∧ (markReceiving fate s).radio.ldo = s.radio.ldo
    ∧ (markReceiving fate s).radio.ldoLast = s.radio.ldoLast ∧ (markReceiving fate s).radio.mpwr = s.radio.mpwr
    ∧ (markReceiving fate s).radio.mrst = s.radio.mrst := by unfold markReceiving; (repeat' split) <;> simp

@[simp] theorem refill_pacer_credit (s : State) : (refill s).pacer.credit = (capCredit s (s.pacer.credit + refillRate s)) := rfl
@[simp] theorem refill_frame (s : State) :
    (refill s).pending = s.pending ∧ (refill s).clock = s.clock ∧ (refill s).draws = s.draws ∧ (refill s).sram = s.sram
    ∧ (refill s).pins = s.pins ∧ (refill s).loader = s.loader ∧ (refill s).bus = s.bus ∧ (refill s).ring = s.ring ∧ (refill s).health = s.health
    ∧ (refill s).path = s.path ∧ (refill s).hold = s.hold ∧ (refill s).radio = s.radio ∧ (refill s).power = s.power
    ∧ (refill s).events = s.events ∧ (refill s).pacer.pacing = s.pacer.pacing ∧ (refill s).pacer.refusalPause = s.pacer.refusalPause
    ∧ (refill s).pacer.chargeA = s.pacer.chargeA ∧ (refill s).pacer.chargeB = s.pacer.chargeB ∧ (refill s).pacer.grantSeen = s.pacer.grantSeen
    ∧ (refill s).pacer.usageBase = s.pacer.usageBase ∧ (refill s).pacer.carried = s.pacer.carried
    ∧ (refill s).pacer.allowance = s.pacer.allowance ∧ (refill s).pacer.downlinkCap = s.pacer.downlinkCap := by simp [refill]

@[simp] theorem clampCredit_pacer_credit (s : State) :
    (clampCredit s).pacer.credit = (max (-creditBound s) (min s.pacer.credit (creditBound s))) := rfl
@[simp] theorem clampCredit_frame (s : State) :
    (clampCredit s).pending = s.pending ∧ (clampCredit s).clock = s.clock ∧ (clampCredit s).draws = s.draws ∧ (clampCredit s).sram = s.sram
    ∧ (clampCredit s).pins = s.pins ∧ (clampCredit s).loader = s.loader ∧ (clampCredit s).bus = s.bus ∧ (clampCredit s).ring = s.ring
    ∧ (clampCredit s).health = s.health ∧ (clampCredit s).path = s.path ∧ (clampCredit s).hold = s.hold ∧ (clampCredit s).radio = s.radio
    ∧ (clampCredit s).power = s.power ∧ (clampCredit s).events = s.events ∧ (clampCredit s).pacer.pacing = s.pacer.pacing
    ∧ (clampCredit s).pacer.refusalPause = s.pacer.refusalPause ∧ (clampCredit s).pacer.chargeA = s.pacer.chargeA
    ∧ (clampCredit s).pacer.chargeB = s.pacer.chargeB ∧ (clampCredit s).pacer.grantSeen = s.pacer.grantSeen
    ∧ (clampCredit s).pacer.usageBase = s.pacer.usageBase ∧ (clampCredit s).pacer.carried = s.pacer.carried
    ∧ (clampCredit s).pacer.allowance = s.pacer.allowance ∧ (clampCredit s).pacer.downlinkCap = s.pacer.downlinkCap := by simp [clampCredit]

@[simp] theorem creditAtAttach_pacer_credit (s : State) : (creditAtAttach s).pacer.credit = 0 := rfl
@[simp] theorem creditAtAttach_pacer_grantSeen (s : State) : (creditAtAttach s).pacer.grantSeen = false := rfl
@[simp] theorem creditAtAttach_frame (s : State) :
    (creditAtAttach s).pending = s.pending ∧ (creditAtAttach s).clock = s.clock ∧ (creditAtAttach s).draws = s.draws
    ∧ (creditAtAttach s).sram = s.sram ∧ (creditAtAttach s).pins = s.pins ∧ (creditAtAttach s).loader = s.loader ∧ (creditAtAttach s).bus = s.bus
    ∧ (creditAtAttach s).ring = s.ring ∧ (creditAtAttach s).health = s.health ∧ (creditAtAttach s).path = s.path
    ∧ (creditAtAttach s).hold = s.hold ∧ (creditAtAttach s).radio = s.radio ∧ (creditAtAttach s).power = s.power
    ∧ (creditAtAttach s).events = s.events ∧ (creditAtAttach s).pacer.pacing = s.pacer.pacing
    ∧ (creditAtAttach s).pacer.refusalPause = s.pacer.refusalPause ∧ (creditAtAttach s).pacer.chargeA = s.pacer.chargeA
    ∧ (creditAtAttach s).pacer.chargeB = s.pacer.chargeB ∧ (creditAtAttach s).pacer.usageBase = s.pacer.usageBase
    ∧ (creditAtAttach s).pacer.carried = s.pacer.carried ∧ (creditAtAttach s).pacer.allowance = s.pacer.allowance
    ∧ (creditAtAttach s).pacer.downlinkCap = s.pacer.downlinkCap := by simp [creditAtAttach]

@[simp] theorem setDownlinkCap_frame (cap : Nat) (s : State) :
    (setDownlinkCap cap s).pending = s.pending ∧ (setDownlinkCap cap s).clock = s.clock ∧ (setDownlinkCap cap s).draws = s.draws
    ∧ (setDownlinkCap cap s).sram = s.sram ∧ (setDownlinkCap cap s).pins = s.pins ∧ (setDownlinkCap cap s).loader = s.loader
    ∧ (setDownlinkCap cap s).bus = s.bus ∧ (setDownlinkCap cap s).ring = s.ring ∧ (setDownlinkCap cap s).health = s.health
    ∧ (setDownlinkCap cap s).path = s.path ∧ (setDownlinkCap cap s).hold = s.hold ∧ (setDownlinkCap cap s).power = s.power
    ∧ (setDownlinkCap cap s).events = s.events ∧ (setDownlinkCap cap s).pacer.credit = s.pacer.credit
    ∧ (setDownlinkCap cap s).pacer.pacing = s.pacer.pacing ∧ (setDownlinkCap cap s).pacer.refusalPause = s.pacer.refusalPause
    ∧ (setDownlinkCap cap s).pacer.chargeA = s.pacer.chargeA ∧ (setDownlinkCap cap s).pacer.chargeB = s.pacer.chargeB
    ∧ (setDownlinkCap cap s).pacer.grantSeen = s.pacer.grantSeen ∧ (setDownlinkCap cap s).pacer.usageBase = s.pacer.usageBase
    ∧ (setDownlinkCap cap s).pacer.carried = s.pacer.carried ∧ (setDownlinkCap cap s).pacer.allowance = s.pacer.allowance
    ∧ (setDownlinkCap cap s).radio.state = s.radio.state ∧ (setDownlinkCap cap s).radio.ready = s.radio.ready
    ∧ (setDownlinkCap cap s).radio.failures = s.radio.failures ∧ (setDownlinkCap cap s).radio.lastCause = s.radio.lastCause
    ∧ (setDownlinkCap cap s).radio.startTimer = s.radio.startTimer ∧ (setDownlinkCap cap s).radio.cycleTimer = s.radio.cycleTimer
    ∧ (setDownlinkCap cap s).radio.attachTimer = s.radio.attachTimer ∧ (setDownlinkCap cap s).radio.backoffTimer = s.radio.backoffTimer
    ∧ (setDownlinkCap cap s).radio.silenceTimer = s.radio.silenceTimer ∧ (setDownlinkCap cap s).radio.lingerTimer = s.radio.lingerTimer
    ∧ (setDownlinkCap cap s).radio.mrstTimer = s.radio.mrstTimer ∧ (setDownlinkCap cap s).radio.grantUp = s.radio.grantUp
    ∧ (setDownlinkCap cap s).radio.grantDown = s.radio.grantDown ∧ (setDownlinkCap cap s).radio.grantQuality = s.radio.grantQuality
    ∧ (setDownlinkCap cap s).radio.slotA = s.radio.slotA ∧ (setDownlinkCap cap s).radio.slotB = s.radio.slotB
    ∧ (setDownlinkCap cap s).radio.unsent = s.radio.unsent ∧ (setDownlinkCap cap s).radio.attachTag = s.radio.attachTag
    ∧ (setDownlinkCap cap s).radio.pauseTold = s.radio.pauseTold ∧ (setDownlinkCap cap s).radio.capTold = s.radio.capTold
    ∧ (setDownlinkCap cap s).radio.lowPowerTold = s.radio.lowPowerTold ∧ (setDownlinkCap cap s).radio.ldo = s.radio.ldo
    ∧ (setDownlinkCap cap s).radio.ldoLast = s.radio.ldoLast ∧ (setDownlinkCap cap s).radio.receiver = s.radio.receiver
    ∧ (setDownlinkCap cap s).radio.mpwr = s.radio.mpwr ∧ (setDownlinkCap cap s).radio.mrst = s.radio.mrst := by unfold setDownlinkCap; (repeat' split) <;> simp

@[simp] theorem applyUsageBase_pacer_usageBase (base : Nat) (s : State) : (applyUsageBase base s).pacer.usageBase = (some base) := rfl
@[simp] theorem applyUsageBase_pacer_carried (base : Nat) (s : State) : (applyUsageBase base s).pacer.carried = 0 := rfl
@[simp] theorem applyUsageBase_frame (base : Nat) (s : State) :
    (applyUsageBase base s).pending = s.pending ∧ (applyUsageBase base s).clock = s.clock ∧ (applyUsageBase base s).draws = s.draws
    ∧ (applyUsageBase base s).sram = s.sram ∧ (applyUsageBase base s).pins = s.pins ∧ (applyUsageBase base s).loader = s.loader
    ∧ (applyUsageBase base s).bus = s.bus ∧ (applyUsageBase base s).ring = s.ring ∧ (applyUsageBase base s).health = s.health
    ∧ (applyUsageBase base s).path = s.path ∧ (applyUsageBase base s).hold = s.hold ∧ (applyUsageBase base s).radio = s.radio
    ∧ (applyUsageBase base s).power = s.power ∧ (applyUsageBase base s).events = s.events ∧ (applyUsageBase base s).pacer.credit = s.pacer.credit
    ∧ (applyUsageBase base s).pacer.pacing = s.pacer.pacing ∧ (applyUsageBase base s).pacer.refusalPause = s.pacer.refusalPause
    ∧ (applyUsageBase base s).pacer.chargeA = s.pacer.chargeA ∧ (applyUsageBase base s).pacer.chargeB = s.pacer.chargeB
    ∧ (applyUsageBase base s).pacer.grantSeen = s.pacer.grantSeen ∧ (applyUsageBase base s).pacer.allowance = s.pacer.allowance
    ∧ (applyUsageBase base s).pacer.downlinkCap = s.pacer.downlinkCap := by simp [applyUsageBase]

@[simp] theorem removeHead_frame (s : State) :
    (removeHead s).pending = s.pending ∧ (removeHead s).clock = s.clock ∧ (removeHead s).draws = s.draws ∧ (removeHead s).sram = s.sram
    ∧ (removeHead s).pins = s.pins ∧ (removeHead s).loader = s.loader ∧ (removeHead s).bus = s.bus ∧ (removeHead s).ring = s.ring
    ∧ (removeHead s).health = s.health ∧ (removeHead s).path = s.path ∧ (removeHead s).pacer = s.pacer ∧ (removeHead s).radio = s.radio
    ∧ (removeHead s).power = s.power ∧ (removeHead s).events = s.events ∧ (removeHead s).hold.cells = s.hold.cells
    ∧ (removeHead s).hold.freeList = s.hold.freeList ∧ (removeHead s).hold.dqV = s.hold.dqV ∧ (removeHead s).hold.dqD = s.hold.dqD
    ∧ (removeHead s).hold.onLdo = s.hold.onLdo ∧ (removeHead s).hold.paused = s.hold.paused ∧ (removeHead s).hold.sweep10 = s.hold.sweep10
    ∧ (removeHead s).hold.sweep1s = s.hold.sweep1s := by unfold removeHead; (repeat' split) <;> simp

@[simp] theorem fillSlot_frame (slot : Slot) (r : FrameRecord) (s : State) :
    (fillSlot slot r s).pending = s.pending ∧ (fillSlot slot r s).clock = s.clock ∧ (fillSlot slot r s).draws = s.draws
    ∧ (fillSlot slot r s).sram = s.sram ∧ (fillSlot slot r s).pins = s.pins ∧ (fillSlot slot r s).loader = s.loader
    ∧ (fillSlot slot r s).bus = s.bus ∧ (fillSlot slot r s).ring = s.ring ∧ (fillSlot slot r s).health = s.health
    ∧ (fillSlot slot r s).path = s.path ∧ (fillSlot slot r s).hold = s.hold ∧ (fillSlot slot r s).pacer = s.pacer
    ∧ (fillSlot slot r s).power = s.power ∧ (fillSlot slot r s).events = s.events ∧ (fillSlot slot r s).radio.state = s.radio.state
    ∧ (fillSlot slot r s).radio.ready = s.radio.ready ∧ (fillSlot slot r s).radio.failures = s.radio.failures
    ∧ (fillSlot slot r s).radio.lastCause = s.radio.lastCause ∧ (fillSlot slot r s).radio.startTimer = s.radio.startTimer
    ∧ (fillSlot slot r s).radio.cycleTimer = s.radio.cycleTimer ∧ (fillSlot slot r s).radio.attachTimer = s.radio.attachTimer
    ∧ (fillSlot slot r s).radio.backoffTimer = s.radio.backoffTimer ∧ (fillSlot slot r s).radio.silenceTimer = s.radio.silenceTimer
    ∧ (fillSlot slot r s).radio.lingerTimer = s.radio.lingerTimer ∧ (fillSlot slot r s).radio.mrstTimer = s.radio.mrstTimer
    ∧ (fillSlot slot r s).radio.grantUp = s.radio.grantUp ∧ (fillSlot slot r s).radio.grantDown = s.radio.grantDown
    ∧ (fillSlot slot r s).radio.grantQuality = s.radio.grantQuality ∧ (fillSlot slot r s).radio.attachTag = s.radio.attachTag
    ∧ (fillSlot slot r s).radio.pauseTold = s.radio.pauseTold ∧ (fillSlot slot r s).radio.capTold = s.radio.capTold
    ∧ (fillSlot slot r s).radio.lowPowerTold = s.radio.lowPowerTold ∧ (fillSlot slot r s).radio.items = s.radio.items
    ∧ (fillSlot slot r s).radio.ldo = s.radio.ldo ∧ (fillSlot slot r s).radio.ldoLast = s.radio.ldoLast
    ∧ (fillSlot slot r s).radio.receiver = s.radio.receiver ∧ (fillSlot slot r s).radio.mpwr = s.radio.mpwr
    ∧ (fillSlot slot r s).radio.mrst = s.radio.mrst := by unfold fillSlot; (repeat' split) <;> simp

@[simp] theorem chargeSlot_frame (slot : Slot) (cost : Nat) (s : State) :
    (chargeSlot slot cost s).pending = s.pending ∧ (chargeSlot slot cost s).clock = s.clock ∧ (chargeSlot slot cost s).draws = s.draws
    ∧ (chargeSlot slot cost s).sram = s.sram ∧ (chargeSlot slot cost s).pins = s.pins ∧ (chargeSlot slot cost s).loader = s.loader
    ∧ (chargeSlot slot cost s).bus = s.bus ∧ (chargeSlot slot cost s).ring = s.ring ∧ (chargeSlot slot cost s).health = s.health
    ∧ (chargeSlot slot cost s).path = s.path ∧ (chargeSlot slot cost s).hold = s.hold ∧ (chargeSlot slot cost s).radio = s.radio
    ∧ (chargeSlot slot cost s).power = s.power ∧ (chargeSlot slot cost s).events = s.events
    ∧ (chargeSlot slot cost s).pacer.pacing = s.pacer.pacing ∧ (chargeSlot slot cost s).pacer.refusalPause = s.pacer.refusalPause
    ∧ (chargeSlot slot cost s).pacer.grantSeen = s.pacer.grantSeen ∧ (chargeSlot slot cost s).pacer.usageBase = s.pacer.usageBase
    ∧ (chargeSlot slot cost s).pacer.carried = s.pacer.carried ∧ (chargeSlot slot cost s).pacer.allowance = s.pacer.allowance
    ∧ (chargeSlot slot cost s).pacer.downlinkCap = s.pacer.downlinkCap := by unfold chargeSlot; (repeat' split) <;> simp

@[simp] theorem dropPower_radio_mpwr (s : State) : (dropPower s).radio.mpwr = false := rfl
@[simp] theorem dropPower_radio_mrst (s : State) : (dropPower s).radio.mrst = true := rfl
@[simp] theorem dropPower_radio_mrstTimer (s : State) : (dropPower s).radio.mrstTimer = none := rfl
@[simp] theorem dropPower_frame (s : State) :
    (dropPower s).pending = s.pending ∧ (dropPower s).clock = s.clock ∧ (dropPower s).draws = s.draws ∧ (dropPower s).sram = s.sram
    ∧ (dropPower s).pins = s.pins ∧ (dropPower s).loader = s.loader ∧ (dropPower s).bus = s.bus ∧ (dropPower s).ring = s.ring
    ∧ (dropPower s).health = s.health ∧ (dropPower s).path = s.path ∧ (dropPower s).hold = s.hold ∧ (dropPower s).pacer = s.pacer
    ∧ (dropPower s).power = s.power ∧ (dropPower s).events = s.events ∧ (dropPower s).radio.state = s.radio.state
    ∧ (dropPower s).radio.ready = s.radio.ready ∧ (dropPower s).radio.failures = s.radio.failures
    ∧ (dropPower s).radio.lastCause = s.radio.lastCause ∧ (dropPower s).radio.startTimer = s.radio.startTimer
    ∧ (dropPower s).radio.cycleTimer = s.radio.cycleTimer ∧ (dropPower s).radio.attachTimer = s.radio.attachTimer
    ∧ (dropPower s).radio.backoffTimer = s.radio.backoffTimer ∧ (dropPower s).radio.silenceTimer = s.radio.silenceTimer
    ∧ (dropPower s).radio.lingerTimer = s.radio.lingerTimer ∧ (dropPower s).radio.grantUp = s.radio.grantUp
    ∧ (dropPower s).radio.grantDown = s.radio.grantDown ∧ (dropPower s).radio.grantQuality = s.radio.grantQuality
    ∧ (dropPower s).radio.slotA = s.radio.slotA ∧ (dropPower s).radio.slotB = s.radio.slotB ∧ (dropPower s).radio.unsent = s.radio.unsent
    ∧ (dropPower s).radio.attachTag = s.radio.attachTag ∧ (dropPower s).radio.pauseTold = s.radio.pauseTold
    ∧ (dropPower s).radio.capTold = s.radio.capTold ∧ (dropPower s).radio.lowPowerTold = s.radio.lowPowerTold
    ∧ (dropPower s).radio.items = s.radio.items ∧ (dropPower s).radio.ldo = s.radio.ldo ∧ (dropPower s).radio.ldoLast = s.radio.ldoLast
    ∧ (dropPower s).radio.receiver = s.radio.receiver := by simp [dropPower]

@[simp] theorem enterBackoff_radio_state (s : State) : (enterBackoff s).radio.state = .backoff := rfl
@[simp] theorem enterBackoff_radio_backoffTimer (s : State) : (enterBackoff s).radio.backoffTimer = (some (backoffTime s.radio.failures)) := rfl
@[simp] theorem enterBackoff_radio_items_attach (s : State) : (enterBackoff s).radio.items.attach = false := rfl
@[simp] theorem enterBackoff_frame (s : State) :
    (enterBackoff s).pending = s.pending ∧ (enterBackoff s).clock = s.clock ∧ (enterBackoff s).draws = s.draws ∧ (enterBackoff s).sram = s.sram
    ∧ (enterBackoff s).pins = s.pins ∧ (enterBackoff s).loader = s.loader ∧ (enterBackoff s).bus = s.bus ∧ (enterBackoff s).ring = s.ring
    ∧ (enterBackoff s).health = s.health ∧ (enterBackoff s).path = s.path ∧ (enterBackoff s).hold = s.hold ∧ (enterBackoff s).pacer = s.pacer
    ∧ (enterBackoff s).power = s.power ∧ (enterBackoff s).events = s.events ∧ (enterBackoff s).radio.ready = s.radio.ready
    ∧ (enterBackoff s).radio.failures = s.radio.failures ∧ (enterBackoff s).radio.lastCause = s.radio.lastCause
    ∧ (enterBackoff s).radio.startTimer = s.radio.startTimer ∧ (enterBackoff s).radio.cycleTimer = s.radio.cycleTimer
    ∧ (enterBackoff s).radio.attachTimer = s.radio.attachTimer ∧ (enterBackoff s).radio.silenceTimer = s.radio.silenceTimer
    ∧ (enterBackoff s).radio.lingerTimer = s.radio.lingerTimer ∧ (enterBackoff s).radio.mrstTimer = s.radio.mrstTimer
    ∧ (enterBackoff s).radio.grantUp = s.radio.grantUp ∧ (enterBackoff s).radio.grantDown = s.radio.grantDown
    ∧ (enterBackoff s).radio.grantQuality = s.radio.grantQuality ∧ (enterBackoff s).radio.slotA = s.radio.slotA
    ∧ (enterBackoff s).radio.slotB = s.radio.slotB ∧ (enterBackoff s).radio.unsent = s.radio.unsent
    ∧ (enterBackoff s).radio.attachTag = s.radio.attachTag ∧ (enterBackoff s).radio.pauseTold = s.radio.pauseTold
    ∧ (enterBackoff s).radio.capTold = s.radio.capTold ∧ (enterBackoff s).radio.lowPowerTold = s.radio.lowPowerTold
    ∧ (enterBackoff s).radio.ldo = s.radio.ldo ∧ (enterBackoff s).radio.ldoLast = s.radio.ldoLast
    ∧ (enterBackoff s).radio.receiver = s.radio.receiver ∧ (enterBackoff s).radio.mpwr = s.radio.mpwr
    ∧ (enterBackoff s).radio.mrst = s.radio.mrst := by simp [enterBackoff]

@[simp] theorem startLinger_frame (s : State) :
    (startLinger s).pending = s.pending ∧ (startLinger s).clock = s.clock ∧ (startLinger s).draws = s.draws ∧ (startLinger s).sram = s.sram
    ∧ (startLinger s).pins = s.pins ∧ (startLinger s).loader = s.loader ∧ (startLinger s).bus = s.bus ∧ (startLinger s).ring = s.ring
    ∧ (startLinger s).health = s.health ∧ (startLinger s).path = s.path ∧ (startLinger s).hold = s.hold ∧ (startLinger s).pacer = s.pacer
    ∧ (startLinger s).power = s.power ∧ (startLinger s).events = s.events ∧ (startLinger s).radio.state = s.radio.state
    ∧ (startLinger s).radio.ready = s.radio.ready ∧ (startLinger s).radio.failures = s.radio.failures
    ∧ (startLinger s).radio.lastCause = s.radio.lastCause ∧ (startLinger s).radio.startTimer = s.radio.startTimer
    ∧ (startLinger s).radio.cycleTimer = s.radio.cycleTimer ∧ (startLinger s).radio.attachTimer = s.radio.attachTimer
    ∧ (startLinger s).radio.backoffTimer = s.radio.backoffTimer ∧ (startLinger s).radio.silenceTimer = s.radio.silenceTimer
    ∧ (startLinger s).radio.mrstTimer = s.radio.mrstTimer ∧ (startLinger s).radio.grantUp = s.radio.grantUp
    ∧ (startLinger s).radio.grantDown = s.radio.grantDown ∧ (startLinger s).radio.grantQuality = s.radio.grantQuality
    ∧ (startLinger s).radio.slotA = s.radio.slotA ∧ (startLinger s).radio.slotB = s.radio.slotB ∧ (startLinger s).radio.unsent = s.radio.unsent
    ∧ (startLinger s).radio.attachTag = s.radio.attachTag ∧ (startLinger s).radio.pauseTold = s.radio.pauseTold
    ∧ (startLinger s).radio.capTold = s.radio.capTold ∧ (startLinger s).radio.lowPowerTold = s.radio.lowPowerTold
    ∧ (startLinger s).radio.ldo = s.radio.ldo ∧ (startLinger s).radio.ldoLast = s.radio.ldoLast
    ∧ (startLinger s).radio.receiver = s.radio.receiver ∧ (startLinger s).radio.mpwr = s.radio.mpwr ∧ (startLinger s).radio.mrst = s.radio.mrst := by unfold startLinger; (repeat' split) <;> simp

@[simp] theorem leaveAttached_frame (s : State) :
    (leaveAttached s).pending = s.pending ∧ (leaveAttached s).clock = s.clock ∧ (leaveAttached s).draws = s.draws
    ∧ (leaveAttached s).sram = s.sram ∧ (leaveAttached s).pins = s.pins ∧ (leaveAttached s).loader = s.loader ∧ (leaveAttached s).bus = s.bus
    ∧ (leaveAttached s).ring = s.ring ∧ (leaveAttached s).health = s.health ∧ (leaveAttached s).path = s.path ∧ (leaveAttached s).hold = s.hold
    ∧ (leaveAttached s).pacer = s.pacer ∧ (leaveAttached s).power = s.power ∧ (leaveAttached s).events = s.events
    ∧ (leaveAttached s).radio.ready = s.radio.ready ∧ (leaveAttached s).radio.failures = s.radio.failures
    ∧ (leaveAttached s).radio.lastCause = s.radio.lastCause ∧ (leaveAttached s).radio.startTimer = s.radio.startTimer
    ∧ (leaveAttached s).radio.cycleTimer = s.radio.cycleTimer ∧ (leaveAttached s).radio.attachTimer = s.radio.attachTimer
    ∧ (leaveAttached s).radio.backoffTimer = s.radio.backoffTimer ∧ (leaveAttached s).radio.mrstTimer = s.radio.mrstTimer
    ∧ (leaveAttached s).radio.grantUp = s.radio.grantUp ∧ (leaveAttached s).radio.grantDown = s.radio.grantDown
    ∧ (leaveAttached s).radio.grantQuality = s.radio.grantQuality ∧ (leaveAttached s).radio.slotA = s.radio.slotA
    ∧ (leaveAttached s).radio.slotB = s.radio.slotB ∧ (leaveAttached s).radio.unsent = s.radio.unsent
    ∧ (leaveAttached s).radio.attachTag = s.radio.attachTag ∧ (leaveAttached s).radio.pauseTold = s.radio.pauseTold
    ∧ (leaveAttached s).radio.capTold = s.radio.capTold ∧ (leaveAttached s).radio.lowPowerTold = s.radio.lowPowerTold
    ∧ (leaveAttached s).radio.ldoLast = s.radio.ldoLast ∧ (leaveAttached s).radio.receiver = s.radio.receiver
    ∧ (leaveAttached s).radio.mpwr = s.radio.mpwr ∧ (leaveAttached s).radio.mrst = s.radio.mrst := by simp only [leaveAttached]; (repeat' split) <;> simp

@[simp] theorem readyItems_radio_items_downCap (s : State) : (readyItems s).radio.items.downCap = (s.pacer.downlinkCap != 0) := rfl
@[simp] theorem readyItems_radio_items_pause (s : State) : (readyItems s).radio.items.pause = (pauseTarget s) := rfl
@[simp] theorem readyItems_frame (s : State) :
    (readyItems s).pending = s.pending ∧ (readyItems s).clock = s.clock ∧ (readyItems s).draws = s.draws ∧ (readyItems s).sram = s.sram
    ∧ (readyItems s).pins = s.pins ∧ (readyItems s).loader = s.loader ∧ (readyItems s).bus = s.bus ∧ (readyItems s).ring = s.ring
    ∧ (readyItems s).health = s.health ∧ (readyItems s).path = s.path ∧ (readyItems s).hold = s.hold ∧ (readyItems s).pacer = s.pacer
    ∧ (readyItems s).power = s.power ∧ (readyItems s).events = s.events ∧ (readyItems s).radio.state = s.radio.state
    ∧ (readyItems s).radio.ready = s.radio.ready ∧ (readyItems s).radio.failures = s.radio.failures
    ∧ (readyItems s).radio.lastCause = s.radio.lastCause ∧ (readyItems s).radio.startTimer = s.radio.startTimer
    ∧ (readyItems s).radio.cycleTimer = s.radio.cycleTimer ∧ (readyItems s).radio.attachTimer = s.radio.attachTimer
    ∧ (readyItems s).radio.backoffTimer = s.radio.backoffTimer ∧ (readyItems s).radio.silenceTimer = s.radio.silenceTimer
    ∧ (readyItems s).radio.lingerTimer = s.radio.lingerTimer ∧ (readyItems s).radio.mrstTimer = s.radio.mrstTimer
    ∧ (readyItems s).radio.grantUp = s.radio.grantUp ∧ (readyItems s).radio.grantDown = s.radio.grantDown
    ∧ (readyItems s).radio.grantQuality = s.radio.grantQuality ∧ (readyItems s).radio.slotA = s.radio.slotA
    ∧ (readyItems s).radio.slotB = s.radio.slotB ∧ (readyItems s).radio.unsent = s.radio.unsent
    ∧ (readyItems s).radio.attachTag = s.radio.attachTag ∧ (readyItems s).radio.pauseTold = s.radio.pauseTold
    ∧ (readyItems s).radio.capTold = s.radio.capTold ∧ (readyItems s).radio.lowPowerTold = s.radio.lowPowerTold
    ∧ (readyItems s).radio.ldo = s.radio.ldo ∧ (readyItems s).radio.ldoLast = s.radio.ldoLast ∧ (readyItems s).radio.receiver = s.radio.receiver
    ∧ (readyItems s).radio.mpwr = s.radio.mpwr ∧ (readyItems s).radio.mrst = s.radio.mrst := by simp [readyItems]

@[simp] theorem readyTold_radio_ready (s : State) : (readyTold s).radio.ready = true := rfl
@[simp] theorem readyTold_radio_pauseTold (s : State) : (readyTold s).radio.pauseTold = false := rfl
@[simp] theorem readyTold_radio_capTold (s : State) : (readyTold s).radio.capTold = 0 := rfl
@[simp] theorem readyTold_frame (s : State) :
    (readyTold s).pending = s.pending ∧ (readyTold s).clock = s.clock ∧ (readyTold s).draws = s.draws ∧ (readyTold s).sram = s.sram
    ∧ (readyTold s).pins = s.pins ∧ (readyTold s).loader = s.loader ∧ (readyTold s).bus = s.bus ∧ (readyTold s).ring = s.ring
    ∧ (readyTold s).health = s.health ∧ (readyTold s).path = s.path ∧ (readyTold s).hold = s.hold ∧ (readyTold s).pacer = s.pacer
    ∧ (readyTold s).power = s.power ∧ (readyTold s).events = s.events ∧ (readyTold s).radio.state = s.radio.state
    ∧ (readyTold s).radio.failures = s.radio.failures ∧ (readyTold s).radio.lastCause = s.radio.lastCause
    ∧ (readyTold s).radio.startTimer = s.radio.startTimer ∧ (readyTold s).radio.cycleTimer = s.radio.cycleTimer
    ∧ (readyTold s).radio.attachTimer = s.radio.attachTimer ∧ (readyTold s).radio.backoffTimer = s.radio.backoffTimer
    ∧ (readyTold s).radio.silenceTimer = s.radio.silenceTimer ∧ (readyTold s).radio.lingerTimer = s.radio.lingerTimer
    ∧ (readyTold s).radio.mrstTimer = s.radio.mrstTimer ∧ (readyTold s).radio.grantUp = s.radio.grantUp
    ∧ (readyTold s).radio.grantDown = s.radio.grantDown ∧ (readyTold s).radio.grantQuality = s.radio.grantQuality
    ∧ (readyTold s).radio.slotA = s.radio.slotA ∧ (readyTold s).radio.slotB = s.radio.slotB ∧ (readyTold s).radio.unsent = s.radio.unsent
    ∧ (readyTold s).radio.attachTag = s.radio.attachTag ∧ (readyTold s).radio.lowPowerTold = s.radio.lowPowerTold
    ∧ (readyTold s).radio.items = s.radio.items ∧ (readyTold s).radio.ldo = s.radio.ldo ∧ (readyTold s).radio.ldoLast = s.radio.ldoLast
    ∧ (readyTold s).radio.receiver = s.radio.receiver ∧ (readyTold s).radio.mpwr = s.radio.mpwr ∧ (readyTold s).radio.mrst = s.radio.mrst := by simp [readyTold]

@[simp] theorem dropTold_frame (s : State) :
    (dropTold s).pending = s.pending ∧ (dropTold s).clock = s.clock ∧ (dropTold s).draws = s.draws ∧ (dropTold s).sram = s.sram
    ∧ (dropTold s).pins = s.pins ∧ (dropTold s).loader = s.loader ∧ (dropTold s).bus = s.bus ∧ (dropTold s).ring = s.ring
    ∧ (dropTold s).health = s.health ∧ (dropTold s).path = s.path ∧ (dropTold s).hold = s.hold ∧ (dropTold s).pacer = s.pacer
    ∧ (dropTold s).power = s.power ∧ (dropTold s).events = s.events ∧ (dropTold s).radio.state = s.radio.state
    ∧ (dropTold s).radio.ready = s.radio.ready ∧ (dropTold s).radio.failures = s.radio.failures
    ∧ (dropTold s).radio.lastCause = s.radio.lastCause ∧ (dropTold s).radio.startTimer = s.radio.startTimer
    ∧ (dropTold s).radio.cycleTimer = s.radio.cycleTimer ∧ (dropTold s).radio.attachTimer = s.radio.attachTimer
    ∧ (dropTold s).radio.backoffTimer = s.radio.backoffTimer ∧ (dropTold s).radio.silenceTimer = s.radio.silenceTimer
    ∧ (dropTold s).radio.lingerTimer = s.radio.lingerTimer ∧ (dropTold s).radio.mrstTimer = s.radio.mrstTimer
    ∧ (dropTold s).radio.grantUp = s.radio.grantUp ∧ (dropTold s).radio.grantDown = s.radio.grantDown
    ∧ (dropTold s).radio.grantQuality = s.radio.grantQuality ∧ (dropTold s).radio.slotA = s.radio.slotA
    ∧ (dropTold s).radio.slotB = s.radio.slotB ∧ (dropTold s).radio.unsent = s.radio.unsent ∧ (dropTold s).radio.attachTag = s.radio.attachTag
    ∧ (dropTold s).radio.pauseTold = s.radio.pauseTold ∧ (dropTold s).radio.capTold = s.radio.capTold
    ∧ (dropTold s).radio.lowPowerTold = s.radio.lowPowerTold ∧ (dropTold s).radio.ldo = s.radio.ldo
    ∧ (dropTold s).radio.ldoLast = s.radio.ldoLast ∧ (dropTold s).radio.receiver = s.radio.receiver ∧ (dropTold s).radio.mpwr = s.radio.mpwr
    ∧ (dropTold s).radio.mrst = s.radio.mrst := by simp only [dropTold]; (repeat' split) <;> simp

@[simp] theorem sendWhole_radio_ldoLast (m : CarrierMessage) (s : State) : (sendWhole m s).radio.ldoLast = (some m) := rfl
@[simp] theorem sendWhole_frame (m : CarrierMessage) (s : State) :
    (sendWhole m s).pending = s.pending ∧ (sendWhole m s).clock = s.clock ∧ (sendWhole m s).draws = s.draws ∧ (sendWhole m s).sram = s.sram
    ∧ (sendWhole m s).pins = s.pins ∧ (sendWhole m s).loader = s.loader ∧ (sendWhole m s).bus = s.bus ∧ (sendWhole m s).ring = s.ring
    ∧ (sendWhole m s).health = s.health ∧ (sendWhole m s).path = s.path ∧ (sendWhole m s).hold = s.hold ∧ (sendWhole m s).pacer = s.pacer
    ∧ (sendWhole m s).power = s.power ∧ (sendWhole m s).events = s.events ∧ (sendWhole m s).radio.state = s.radio.state
    ∧ (sendWhole m s).radio.ready = s.radio.ready ∧ (sendWhole m s).radio.failures = s.radio.failures
    ∧ (sendWhole m s).radio.lastCause = s.radio.lastCause ∧ (sendWhole m s).radio.startTimer = s.radio.startTimer
    ∧ (sendWhole m s).radio.cycleTimer = s.radio.cycleTimer ∧ (sendWhole m s).radio.attachTimer = s.radio.attachTimer
    ∧ (sendWhole m s).radio.backoffTimer = s.radio.backoffTimer ∧ (sendWhole m s).radio.silenceTimer = s.radio.silenceTimer
    ∧ (sendWhole m s).radio.lingerTimer = s.radio.lingerTimer ∧ (sendWhole m s).radio.mrstTimer = s.radio.mrstTimer
    ∧ (sendWhole m s).radio.grantUp = s.radio.grantUp ∧ (sendWhole m s).radio.grantDown = s.radio.grantDown
    ∧ (sendWhole m s).radio.grantQuality = s.radio.grantQuality ∧ (sendWhole m s).radio.slotA = s.radio.slotA
    ∧ (sendWhole m s).radio.slotB = s.radio.slotB ∧ (sendWhole m s).radio.unsent = s.radio.unsent
    ∧ (sendWhole m s).radio.attachTag = s.radio.attachTag ∧ (sendWhole m s).radio.pauseTold = s.radio.pauseTold
    ∧ (sendWhole m s).radio.capTold = s.radio.capTold ∧ (sendWhole m s).radio.lowPowerTold = s.radio.lowPowerTold
    ∧ (sendWhole m s).radio.items = s.radio.items ∧ (sendWhole m s).radio.ldo = s.radio.ldo ∧ (sendWhole m s).radio.receiver = s.radio.receiver
    ∧ (sendWhole m s).radio.mpwr = s.radio.mpwr ∧ (sendWhole m s).radio.mrst = s.radio.mrst := by simp [sendWhole]

@[simp] theorem beginSending_frame (k : Sending) (m : CarrierMessage) (s : State) :
    (beginSending k m s).pending = s.pending ∧ (beginSending k m s).clock = s.clock ∧ (beginSending k m s).draws = s.draws
    ∧ (beginSending k m s).sram = s.sram ∧ (beginSending k m s).pins = s.pins ∧ (beginSending k m s).loader = s.loader
    ∧ (beginSending k m s).bus = s.bus ∧ (beginSending k m s).ring = s.ring ∧ (beginSending k m s).health = s.health
    ∧ (beginSending k m s).path = s.path ∧ (beginSending k m s).hold = s.hold ∧ (beginSending k m s).pacer = s.pacer
    ∧ (beginSending k m s).power = s.power ∧ (beginSending k m s).events = s.events ∧ (beginSending k m s).radio.state = s.radio.state
    ∧ (beginSending k m s).radio.ready = s.radio.ready ∧ (beginSending k m s).radio.failures = s.radio.failures
    ∧ (beginSending k m s).radio.lastCause = s.radio.lastCause ∧ (beginSending k m s).radio.startTimer = s.radio.startTimer
    ∧ (beginSending k m s).radio.cycleTimer = s.radio.cycleTimer ∧ (beginSending k m s).radio.attachTimer = s.radio.attachTimer
    ∧ (beginSending k m s).radio.backoffTimer = s.radio.backoffTimer ∧ (beginSending k m s).radio.silenceTimer = s.radio.silenceTimer
    ∧ (beginSending k m s).radio.lingerTimer = s.radio.lingerTimer ∧ (beginSending k m s).radio.mrstTimer = s.radio.mrstTimer
    ∧ (beginSending k m s).radio.grantUp = s.radio.grantUp ∧ (beginSending k m s).radio.grantDown = s.radio.grantDown
    ∧ (beginSending k m s).radio.grantQuality = s.radio.grantQuality ∧ (beginSending k m s).radio.slotA = s.radio.slotA
    ∧ (beginSending k m s).radio.slotB = s.radio.slotB ∧ (beginSending k m s).radio.unsent = s.radio.unsent
    ∧ (beginSending k m s).radio.attachTag = s.radio.attachTag ∧ (beginSending k m s).radio.pauseTold = s.radio.pauseTold
    ∧ (beginSending k m s).radio.capTold = s.radio.capTold ∧ (beginSending k m s).radio.lowPowerTold = s.radio.lowPowerTold
    ∧ (beginSending k m s).radio.items = s.radio.items ∧ (beginSending k m s).radio.receiver = s.radio.receiver
    ∧ (beginSending k m s).radio.mpwr = s.radio.mpwr ∧ (beginSending k m s).radio.mrst = s.radio.mrst := by simp [beginSending]

@[simp] theorem discardRead_ring_descriptorRead (s : State) :
    (discardRead s).ring.descriptorRead = (s.ring.descriptorRead.map fun d => { d with discard := true }) := rfl
@[simp] theorem discardRead_frame (s : State) :
    (discardRead s).pending = s.pending ∧ (discardRead s).clock = s.clock ∧ (discardRead s).draws = s.draws ∧ (discardRead s).sram = s.sram
    ∧ (discardRead s).pins = s.pins ∧ (discardRead s).loader = s.loader ∧ (discardRead s).bus = s.bus ∧ (discardRead s).health = s.health
    ∧ (discardRead s).path = s.path ∧ (discardRead s).hold = s.hold ∧ (discardRead s).pacer = s.pacer ∧ (discardRead s).radio = s.radio
    ∧ (discardRead s).power = s.power ∧ (discardRead s).events = s.events ∧ (discardRead s).ring.window = s.ring.window
    ∧ (discardRead s).ring.base = s.ring.base ∧ (discardRead s).ring.partTxc = s.ring.partTxc ∧ (discardRead s).ring.readMark = s.ring.readMark
    ∧ (discardRead s).ring.takes = s.ring.takes ∧ (discardRead s).ring.fence = s.ring.fence ∧ (discardRead s).ring.overrun = s.ring.overrun
    ∧ (discardRead s).ring.txCheckDue = s.ring.txCheckDue ∧ (discardRead s).ring.scanRunning = s.ring.scanRunning
    ∧ (discardRead s).ring.scanMark = s.ring.scanMark ∧ (discardRead s).ring.scanRead = s.ring.scanRead
    ∧ (discardRead s).ring.txForcing = s.ring.txForcing ∧ (discardRead s).ring.rxForcing = s.ring.rxForcing
    ∧ (discardRead s).ring.handBackAsked = s.ring.handBackAsked ∧ (discardRead s).ring.fillCursor = s.ring.fillCursor
    ∧ (discardRead s).ring.partRxf = s.ring.partRxf ∧ (discardRead s).ring.delivery = s.ring.delivery
    ∧ (discardRead s).ring.descriptorHeld = s.ring.descriptorHeld ∧ (discardRead s).ring.rxOverrun = s.ring.rxOverrun
    ∧ (discardRead s).ring.rxCheckDue = s.ring.rxCheckDue := by simp [discardRead]

@[simp] theorem startScan_ring_scanRunning (s : State) : (startScan s).ring.scanRunning = true := rfl
@[simp] theorem startScan_ring_scanMark (s : State) : (startScan s).ring.scanMark = (some (shadowCount s .txc)) := rfl
@[simp] theorem startScan_frame (s : State) :
    (startScan s).pending = s.pending ∧ (startScan s).clock = s.clock ∧ (startScan s).draws = s.draws ∧ (startScan s).sram = s.sram
    ∧ (startScan s).pins = s.pins ∧ (startScan s).loader = s.loader ∧ (startScan s).bus = s.bus ∧ (startScan s).health = s.health
    ∧ (startScan s).path = s.path ∧ (startScan s).hold = s.hold ∧ (startScan s).pacer = s.pacer ∧ (startScan s).radio = s.radio
    ∧ (startScan s).power = s.power ∧ (startScan s).events = s.events ∧ (startScan s).ring.window = s.ring.window
    ∧ (startScan s).ring.base = s.ring.base ∧ (startScan s).ring.partTxc = s.ring.partTxc ∧ (startScan s).ring.readMark = s.ring.readMark
    ∧ (startScan s).ring.descriptorRead = s.ring.descriptorRead ∧ (startScan s).ring.takes = s.ring.takes
    ∧ (startScan s).ring.fence = s.ring.fence ∧ (startScan s).ring.overrun = s.ring.overrun ∧ (startScan s).ring.txCheckDue = s.ring.txCheckDue
    ∧ (startScan s).ring.scanRead = s.ring.scanRead ∧ (startScan s).ring.txForcing = s.ring.txForcing
    ∧ (startScan s).ring.rxForcing = s.ring.rxForcing ∧ (startScan s).ring.handBackAsked = s.ring.handBackAsked
    ∧ (startScan s).ring.fillCursor = s.ring.fillCursor ∧ (startScan s).ring.partRxf = s.ring.partRxf
    ∧ (startScan s).ring.delivery = s.ring.delivery ∧ (startScan s).ring.descriptorHeld = s.ring.descriptorHeld
    ∧ (startScan s).ring.rxOverrun = s.ring.rxOverrun ∧ (startScan s).ring.rxCheckDue = s.ring.rxCheckDue := by simp [startScan]

@[simp] theorem withdrawScanRead_frame (s : State) :
    (withdrawScanRead s).pending = s.pending ∧ (withdrawScanRead s).clock = s.clock ∧ (withdrawScanRead s).draws = s.draws
    ∧ (withdrawScanRead s).sram = s.sram ∧ (withdrawScanRead s).pins = s.pins ∧ (withdrawScanRead s).loader = s.loader
    ∧ (withdrawScanRead s).health = s.health ∧ (withdrawScanRead s).path = s.path ∧ (withdrawScanRead s).hold = s.hold
    ∧ (withdrawScanRead s).pacer = s.pacer ∧ (withdrawScanRead s).radio = s.radio ∧ (withdrawScanRead s).power = s.power
    ∧ (withdrawScanRead s).events = s.events ∧ (withdrawScanRead s).bus.shadows = s.bus.shadows
    ∧ (withdrawScanRead s).bus.txHorizon = s.bus.txHorizon ∧ (withdrawScanRead s).bus.rxHorizon = s.bus.rxHorizon
    ∧ (withdrawScanRead s).bus.fixedH = s.bus.fixedH ∧ (withdrawScanRead s).bus.fixedG = s.bus.fixedG
    ∧ (withdrawScanRead s).bus.uplinkView = s.bus.uplinkView ∧ (withdrawScanRead s).bus.receiveView = s.bus.receiveView
    ∧ (withdrawScanRead s).bus.uplinkViewValue = s.bus.uplinkViewValue ∧ (withdrawScanRead s).bus.receiveViewValue = s.bus.receiveViewValue
    ∧ (withdrawScanRead s).bus.txGuard = s.bus.txGuard ∧ (withdrawScanRead s).bus.rxGuard = s.bus.rxGuard
    ∧ (withdrawScanRead s).bus.queue = s.bus.queue ∧ (withdrawScanRead s).bus.waitCount = s.bus.waitCount
    ∧ (withdrawScanRead s).bus.gatewayData = s.bus.gatewayData ∧ (withdrawScanRead s).ring.window = s.ring.window
    ∧ (withdrawScanRead s).ring.base = s.ring.base ∧ (withdrawScanRead s).ring.partTxc = s.ring.partTxc
    ∧ (withdrawScanRead s).ring.readMark = s.ring.readMark ∧ (withdrawScanRead s).ring.descriptorRead = s.ring.descriptorRead
    ∧ (withdrawScanRead s).ring.takes = s.ring.takes ∧ (withdrawScanRead s).ring.fence = s.ring.fence
    ∧ (withdrawScanRead s).ring.overrun = s.ring.overrun ∧ (withdrawScanRead s).ring.txCheckDue = s.ring.txCheckDue
    ∧ (withdrawScanRead s).ring.scanRunning = s.ring.scanRunning ∧ (withdrawScanRead s).ring.scanMark = s.ring.scanMark
    ∧ (withdrawScanRead s).ring.txForcing = s.ring.txForcing ∧ (withdrawScanRead s).ring.rxForcing = s.ring.rxForcing
    ∧ (withdrawScanRead s).ring.handBackAsked = s.ring.handBackAsked ∧ (withdrawScanRead s).ring.fillCursor = s.ring.fillCursor
    ∧ (withdrawScanRead s).ring.partRxf = s.ring.partRxf ∧ (withdrawScanRead s).ring.delivery = s.ring.delivery
    ∧ (withdrawScanRead s).ring.descriptorHeld = s.ring.descriptorHeld ∧ (withdrawScanRead s).ring.rxOverrun = s.ring.rxOverrun
    ∧ (withdrawScanRead s).ring.rxCheckDue = s.ring.rxCheckDue := by unfold withdrawScanRead; (repeat' split) <;> simp

@[simp] theorem stopReleaseTimer_frame (s : State) :
    (stopReleaseTimer s).pending = s.pending ∧ (stopReleaseTimer s).clock = s.clock ∧ (stopReleaseTimer s).draws = s.draws
    ∧ (stopReleaseTimer s).sram = s.sram ∧ (stopReleaseTimer s).pins = s.pins ∧ (stopReleaseTimer s).loader = s.loader
    ∧ (stopReleaseTimer s).bus = s.bus ∧ (stopReleaseTimer s).ring = s.ring ∧ (stopReleaseTimer s).health = s.health
    ∧ (stopReleaseTimer s).hold = s.hold ∧ (stopReleaseTimer s).pacer = s.pacer ∧ (stopReleaseTimer s).radio = s.radio
    ∧ (stopReleaseTimer s).power = s.power ∧ (stopReleaseTimer s).events = s.events ∧ (stopReleaseTimer s).path.path = s.path.path
    ∧ (stopReleaseTimer s).path.phase = s.path.phase ∧ (stopReleaseTimer s).path.dwellD = s.path.dwellD
    ∧ (stopReleaseTimer s).path.dwell = s.path.dwell ∧ (stopReleaseTimer s).path.refallTimer = s.path.refallTimer
    ∧ (stopReleaseTimer s).path.refallOpen = s.path.refallOpen ∧ (stopReleaseTimer s).path.txReleased = s.path.txReleased
    ∧ (stopReleaseTimer s).path.rxReleased = s.path.rxReleased ∧ (stopReleaseTimer s).path.drainTimer = s.path.drainTimer
    ∧ (stopReleaseTimer s).path.emergency = s.path.emergency ∧ (stopReleaseTimer s).path.priorityTimer = s.path.priorityTimer
    ∧ (stopReleaseTimer s).path.radioWanted = s.path.radioWanted ∧ (stopReleaseTimer s).path.returnPause = s.path.returnPause
    ∧ (stopReleaseTimer s).path.recorded = s.path.recorded := by unfold stopReleaseTimer; (repeat' split) <;> simp

@[simp] theorem fixViews_bus_fixedH (s : State) : (fixViews s).bus.fixedH = s.bus.txHorizon := rfl
@[simp] theorem fixViews_bus_fixedG (s : State) : (fixViews s).bus.fixedG = s.bus.rxHorizon := rfl
@[simp] theorem fixViews_bus_uplinkView (s : State) : (fixViews s).bus.uplinkView = .fixed := rfl
@[simp] theorem fixViews_bus_receiveView (s : State) : (fixViews s).bus.receiveView = .fixed := rfl
@[simp] theorem fixViews_bus_uplinkViewValue (s : State) : (fixViews s).bus.uplinkViewValue = s.bus.txHorizon := rfl
@[simp] theorem fixViews_bus_receiveViewValue (s : State) : (fixViews s).bus.receiveViewValue = s.bus.rxHorizon := rfl
@[simp] theorem fixViews_frame (s : State) :
    (fixViews s).pending = s.pending ∧ (fixViews s).clock = s.clock ∧ (fixViews s).draws = s.draws ∧ (fixViews s).sram = s.sram
    ∧ (fixViews s).pins = s.pins ∧ (fixViews s).loader = s.loader ∧ (fixViews s).ring = s.ring ∧ (fixViews s).health = s.health
    ∧ (fixViews s).path = s.path ∧ (fixViews s).hold = s.hold ∧ (fixViews s).pacer = s.pacer ∧ (fixViews s).radio = s.radio
    ∧ (fixViews s).power = s.power ∧ (fixViews s).events = s.events ∧ (fixViews s).bus.shadows = s.bus.shadows
    ∧ (fixViews s).bus.txHorizon = s.bus.txHorizon ∧ (fixViews s).bus.rxHorizon = s.bus.rxHorizon ∧ (fixViews s).bus.txGuard = s.bus.txGuard
    ∧ (fixViews s).bus.rxGuard = s.bus.rxGuard ∧ (fixViews s).bus.queue = s.bus.queue ∧ (fixViews s).bus.waiting = s.bus.waiting
    ∧ (fixViews s).bus.waitCount = s.bus.waitCount ∧ (fixViews s).bus.gatewayData = s.bus.gatewayData := by simp [fixViews]

@[simp] theorem startTaking_ring_window (s : State) : (startTaking s).ring.window = [] := rfl
@[simp] theorem startTaking_ring_base (s : State) : (startTaking s).ring.base = s.bus.fixedH := rfl
@[simp] theorem startTaking_ring_readMark (s : State) : (startTaking s).ring.readMark = s.bus.fixedH := rfl
@[simp] theorem startTaking_ring_partTxc (s : State) : (startTaking s).ring.partTxc = none := rfl
@[simp] theorem startTaking_ring_fence (s : State) : (startTaking s).ring.fence = none := rfl
@[simp] theorem startTaking_ring_txForcing (s : State) : (startTaking s).ring.txForcing = false := rfl
@[simp] theorem startTaking_ring_rxForcing (s : State) : (startTaking s).ring.rxForcing = false := rfl
@[simp] theorem startTaking_ring_handBackAsked (s : State) : (startTaking s).ring.handBackAsked = false := rfl
@[simp] theorem startTaking_ring_fillCursor (s : State) : (startTaking s).ring.fillCursor = s.bus.fixedG := rfl
@[simp] theorem startTaking_ring_partRxf (s : State) : (startTaking s).ring.partRxf = none := rfl
@[simp] theorem startTaking_frame (s : State) :
    (startTaking s).pending = s.pending ∧ (startTaking s).clock = s.clock ∧ (startTaking s).draws = s.draws ∧ (startTaking s).sram = s.sram
    ∧ (startTaking s).pins = s.pins ∧ (startTaking s).loader = s.loader ∧ (startTaking s).bus = s.bus ∧ (startTaking s).health = s.health
    ∧ (startTaking s).path = s.path ∧ (startTaking s).hold = s.hold ∧ (startTaking s).pacer = s.pacer ∧ (startTaking s).radio = s.radio
    ∧ (startTaking s).power = s.power ∧ (startTaking s).events = s.events ∧ (startTaking s).ring.descriptorRead = s.ring.descriptorRead
    ∧ (startTaking s).ring.takes = s.ring.takes ∧ (startTaking s).ring.overrun = s.ring.overrun
    ∧ (startTaking s).ring.txCheckDue = s.ring.txCheckDue ∧ (startTaking s).ring.scanRunning = s.ring.scanRunning
    ∧ (startTaking s).ring.scanMark = s.ring.scanMark ∧ (startTaking s).ring.scanRead = s.ring.scanRead
    ∧ (startTaking s).ring.delivery = s.ring.delivery ∧ (startTaking s).ring.descriptorHeld = s.ring.descriptorHeld
    ∧ (startTaking s).ring.rxOverrun = s.ring.rxOverrun ∧ (startTaking s).ring.rxCheckDue = s.ring.rxCheckDue := by simp [startTaking]

@[simp] theorem endViews_bus_txGuard (s : State) : (endViews s).bus.txGuard = false := rfl
@[simp] theorem endViews_bus_rxGuard (s : State) : (endViews s).bus.rxGuard = false := rfl
@[simp] theorem endViews_bus_uplinkView (s : State) : (endViews s).bus.uplinkView = .off := rfl
@[simp] theorem endViews_bus_receiveView (s : State) : (endViews s).bus.receiveView = .off := rfl
@[simp] theorem endViews_bus_uplinkViewValue (s : State) : (endViews s).bus.uplinkViewValue = none := rfl
@[simp] theorem endViews_bus_receiveViewValue (s : State) : (endViews s).bus.receiveViewValue = none := rfl
@[simp] theorem endViews_bus_txHorizon (s : State) : (endViews s).bus.txHorizon = s.ring.fence := rfl
@[simp] theorem endViews_bus_rxHorizon (s : State) : (endViews s).bus.rxHorizon = s.ring.partRxf := rfl
@[simp] theorem endViews_frame (s : State) :
    (endViews s).pending = s.pending ∧ (endViews s).clock = s.clock ∧ (endViews s).draws = s.draws ∧ (endViews s).sram = s.sram
    ∧ (endViews s).pins = s.pins ∧ (endViews s).loader = s.loader ∧ (endViews s).ring = s.ring ∧ (endViews s).health = s.health
    ∧ (endViews s).path = s.path ∧ (endViews s).hold = s.hold ∧ (endViews s).pacer = s.pacer ∧ (endViews s).radio = s.radio
    ∧ (endViews s).power = s.power ∧ (endViews s).events = s.events ∧ (endViews s).bus.shadows = s.bus.shadows
    ∧ (endViews s).bus.fixedH = s.bus.fixedH ∧ (endViews s).bus.fixedG = s.bus.fixedG ∧ (endViews s).bus.queue = s.bus.queue
    ∧ (endViews s).bus.waiting = s.bus.waiting ∧ (endViews s).bus.waitCount = s.bus.waitCount ∧ (endViews s).bus.gatewayData = s.bus.gatewayData := by simp [endViews]

@[simp] theorem ringInFibre_ring_window (s : State) : (ringInFibre s).ring.window = [] := rfl
@[simp] theorem ringInFibre_ring_base (s : State) : (ringInFibre s).ring.base = none := rfl
@[simp] theorem ringInFibre_ring_fence (s : State) : (ringInFibre s).ring.fence = none := rfl
@[simp] theorem ringInFibre_ring_overrun (s : State) : (ringInFibre s).ring.overrun = false := rfl
@[simp] theorem ringInFibre_ring_rxOverrun (s : State) : (ringInFibre s).ring.rxOverrun = false := rfl
@[simp] theorem ringInFibre_ring_descriptorHeld (s : State) : (ringInFibre s).ring.descriptorHeld = none := rfl
@[simp] theorem ringInFibre_ring_handBackAsked (s : State) : (ringInFibre s).ring.handBackAsked = false := rfl
@[simp] theorem ringInFibre_frame (s : State) :
    (ringInFibre s).pending = s.pending ∧ (ringInFibre s).clock = s.clock ∧ (ringInFibre s).draws = s.draws ∧ (ringInFibre s).sram = s.sram
    ∧ (ringInFibre s).pins = s.pins ∧ (ringInFibre s).loader = s.loader ∧ (ringInFibre s).bus = s.bus ∧ (ringInFibre s).health = s.health
    ∧ (ringInFibre s).path = s.path ∧ (ringInFibre s).hold = s.hold ∧ (ringInFibre s).pacer = s.pacer ∧ (ringInFibre s).radio = s.radio
    ∧ (ringInFibre s).power = s.power ∧ (ringInFibre s).events = s.events ∧ (ringInFibre s).ring.partTxc = s.ring.partTxc
    ∧ (ringInFibre s).ring.readMark = s.ring.readMark ∧ (ringInFibre s).ring.descriptorRead = s.ring.descriptorRead
    ∧ (ringInFibre s).ring.takes = s.ring.takes ∧ (ringInFibre s).ring.txCheckDue = s.ring.txCheckDue
    ∧ (ringInFibre s).ring.scanRunning = s.ring.scanRunning ∧ (ringInFibre s).ring.scanMark = s.ring.scanMark
    ∧ (ringInFibre s).ring.scanRead = s.ring.scanRead ∧ (ringInFibre s).ring.txForcing = s.ring.txForcing
    ∧ (ringInFibre s).ring.rxForcing = s.ring.rxForcing ∧ (ringInFibre s).ring.fillCursor = s.ring.fillCursor
    ∧ (ringInFibre s).ring.partRxf = s.ring.partRxf ∧ (ringInFibre s).ring.delivery = s.ring.delivery
    ∧ (ringInFibre s).ring.rxCheckDue = s.ring.rxCheckDue := by simp [ringInFibre]

@[simp] theorem healthInFibre_health_txp (s : State) : (healthInFibre s).health.txp = 253 := rfl
@[simp] theorem healthInFibre_health_rxa (s : State) : (healthInFibre s).health.rxa = 253 := rfl
@[simp] theorem healthInFibre_health_txe (s : State) : (healthInFibre s).health.txe = 253 := rfl
@[simp] theorem healthInFibre_health_txReference (s : State) : (healthInFibre s).health.txReference = (some (shadowCount s .txc)) := rfl
@[simp] theorem healthInFibre_health_activityMark (s : State) : (healthInFibre s).health.activityMark = false := rfl
@[simp] theorem healthInFibre_health_timer1s (s : State) : (healthInFibre s).health.timer1s = (some 1000) := rfl
@[simp] theorem healthInFibre_frame (s : State) :
    (healthInFibre s).pending = s.pending ∧ (healthInFibre s).clock = s.clock ∧ (healthInFibre s).draws = s.draws
    ∧ (healthInFibre s).sram = s.sram ∧ (healthInFibre s).pins = s.pins ∧ (healthInFibre s).loader = s.loader ∧ (healthInFibre s).bus = s.bus
    ∧ (healthInFibre s).ring = s.ring ∧ (healthInFibre s).path = s.path ∧ (healthInFibre s).hold = s.hold ∧ (healthInFibre s).pacer = s.pacer
    ∧ (healthInFibre s).radio = s.radio ∧ (healthInFibre s).power = s.power ∧ (healthInFibre s).events = s.events
    ∧ (healthInFibre s).health.sig = s.health.sig ∧ (healthInFibre s).health.verdict = s.health.verdict
    ∧ (healthInFibre s).health.timer100 = s.health.timer100 := by simp [healthInFibre]

@[simp] theorem setAttribute_frame (a : Attribute) (v : Nat) (s : State) :
    (setAttribute a v s).pending = s.pending ∧ (setAttribute a v s).clock = s.clock ∧ (setAttribute a v s).draws = s.draws
    ∧ (setAttribute a v s).sram = s.sram ∧ (setAttribute a v s).pins = s.pins ∧ (setAttribute a v s).loader = s.loader
    ∧ (setAttribute a v s).bus = s.bus ∧ (setAttribute a v s).ring = s.ring ∧ (setAttribute a v s).path = s.path
    ∧ (setAttribute a v s).hold = s.hold ∧ (setAttribute a v s).pacer = s.pacer ∧ (setAttribute a v s).radio = s.radio
    ∧ (setAttribute a v s).power = s.power ∧ (setAttribute a v s).events = s.events ∧ (setAttribute a v s).health.verdict = s.health.verdict
    ∧ (setAttribute a v s).health.txReference = s.health.txReference ∧ (setAttribute a v s).health.activityMark = s.health.activityMark
    ∧ (setAttribute a v s).health.timer100 = s.health.timer100 ∧ (setAttribute a v s).health.timer1s = s.health.timer1s := by unfold setAttribute; (repeat' split) <;> simp

@[simp] theorem reinitHealth_health_sig (s : State) : (reinitHealth s).health.sig = 253 := rfl
@[simp] theorem reinitHealth_health_txp (s : State) : (reinitHealth s).health.txp = 253 := rfl
@[simp] theorem reinitHealth_health_rxa (s : State) : (reinitHealth s).health.rxa = 253 := rfl
@[simp] theorem reinitHealth_health_txe (s : State) : (reinitHealth s).health.txe = 253 := rfl
@[simp] theorem reinitHealth_health_verdict (s : State) : (reinitHealth s).health.verdict = .healthy := rfl
@[simp] theorem reinitHealth_health_txReference (s : State) : (reinitHealth s).health.txReference = (some (shadowCount s .txc)) := rfl
@[simp] theorem reinitHealth_health_activityMark (s : State) : (reinitHealth s).health.activityMark = false := rfl
@[simp] theorem reinitHealth_health_timer100 (s : State) : (reinitHealth s).health.timer100 = (some 100) := rfl
@[simp] theorem reinitHealth_health_timer1s (s : State) : (reinitHealth s).health.timer1s = (some 1000) := rfl
@[simp] theorem reinitHealth_frame (s : State) :
    (reinitHealth s).pending = s.pending ∧ (reinitHealth s).clock = s.clock ∧ (reinitHealth s).draws = s.draws ∧ (reinitHealth s).sram = s.sram
    ∧ (reinitHealth s).pins = s.pins ∧ (reinitHealth s).loader = s.loader ∧ (reinitHealth s).bus = s.bus ∧ (reinitHealth s).ring = s.ring
    ∧ (reinitHealth s).path = s.path ∧ (reinitHealth s).hold = s.hold ∧ (reinitHealth s).pacer = s.pacer ∧ (reinitHealth s).radio = s.radio
    ∧ (reinitHealth s).power = s.power ∧ (reinitHealth s).events = s.events := by simp [reinitHealth]

@[simp] theorem restartHealth_frame (s : State) :
    (restartHealth s).pending = s.pending ∧ (restartHealth s).clock = s.clock ∧ (restartHealth s).draws = s.draws
    ∧ (restartHealth s).sram = s.sram ∧ (restartHealth s).pins = s.pins ∧ (restartHealth s).loader = s.loader ∧ (restartHealth s).bus = s.bus
    ∧ (restartHealth s).ring = s.ring ∧ (restartHealth s).path = s.path ∧ (restartHealth s).hold = s.hold ∧ (restartHealth s).pacer = s.pacer
    ∧ (restartHealth s).radio = s.radio ∧ (restartHealth s).power = s.power ∧ (restartHealth s).events = s.events
    ∧ (restartHealth s).health.sig = s.health.sig ∧ (restartHealth s).health.txp = s.health.txp ∧ (restartHealth s).health.rxa = s.health.rxa
    ∧ (restartHealth s).health.txe = s.health.txe ∧ (restartHealth s).health.verdict = s.health.verdict := by simp [restartHealth]

@[simp] theorem clearCounters_events_counters (s : State) : (clearCounters s).events.counters = (List.replicate 10 ⟨0, false⟩) := rfl
@[simp] theorem clearCounters_frame (s : State) :
    (clearCounters s).pending = s.pending ∧ (clearCounters s).clock = s.clock ∧ (clearCounters s).draws = s.draws
    ∧ (clearCounters s).sram = s.sram ∧ (clearCounters s).pins = s.pins ∧ (clearCounters s).loader = s.loader ∧ (clearCounters s).bus = s.bus
    ∧ (clearCounters s).ring = s.ring ∧ (clearCounters s).health = s.health ∧ (clearCounters s).path = s.path ∧ (clearCounters s).hold = s.hold
    ∧ (clearCounters s).pacer = s.pacer ∧ (clearCounters s).radio = s.radio ∧ (clearCounters s).power = s.power
    ∧ (clearCounters s).events.entries = s.events.entries ∧ (clearCounters s).events.evp = s.events.evp
    ∧ (clearCounters s).events.slotKinds = s.events.slotKinds ∧ (clearCounters s).events.refreshCount = s.events.refreshCount
    ∧ (clearCounters s).events.refreshTimer = s.events.refreshTimer ∧ (clearCounters s).events.pageWriting = s.events.pageWriting
    ∧ (clearCounters s).events.pageWanted = s.events.pageWanted ∧ (clearCounters s).events.ledMs = s.events.ledMs := by simp [clearCounters]

@[simp] theorem clearEntries_frame (s : State) :
    (clearEntries s).pending = s.pending ∧ (clearEntries s).clock = s.clock ∧ (clearEntries s).draws = s.draws ∧ (clearEntries s).sram = s.sram
    ∧ (clearEntries s).pins = s.pins ∧ (clearEntries s).loader = s.loader ∧ (clearEntries s).bus = s.bus ∧ (clearEntries s).ring = s.ring
    ∧ (clearEntries s).health = s.health ∧ (clearEntries s).path = s.path ∧ (clearEntries s).hold = s.hold ∧ (clearEntries s).pacer = s.pacer
    ∧ (clearEntries s).radio = s.radio ∧ (clearEntries s).power = s.power ∧ (clearEntries s).events.evp = s.events.evp
    ∧ (clearEntries s).events.slotKinds = s.events.slotKinds ∧ (clearEntries s).events.refreshCount = s.events.refreshCount
    ∧ (clearEntries s).events.refreshTimer = s.events.refreshTimer ∧ (clearEntries s).events.pageWriting = s.events.pageWriting
    ∧ (clearEntries s).events.pageWanted = s.events.pageWanted ∧ (clearEntries s).events.counters = s.events.counters
    ∧ (clearEntries s).events.ledMs = s.events.ledMs := by simp [clearEntries]

@[simp] theorem tellEntry_frame (s : State) :
    (tellEntry s).pending = s.pending ∧ (tellEntry s).clock = s.clock ∧ (tellEntry s).draws = s.draws ∧ (tellEntry s).sram = s.sram
    ∧ (tellEntry s).pins = s.pins ∧ (tellEntry s).loader = s.loader ∧ (tellEntry s).bus = s.bus ∧ (tellEntry s).ring = s.ring
    ∧ (tellEntry s).health = s.health ∧ (tellEntry s).path = s.path ∧ (tellEntry s).hold = s.hold ∧ (tellEntry s).pacer = s.pacer
    ∧ (tellEntry s).power = s.power ∧ (tellEntry s).events = s.events ∧ (tellEntry s).radio.state = s.radio.state
    ∧ (tellEntry s).radio.ready = s.radio.ready ∧ (tellEntry s).radio.failures = s.radio.failures
    ∧ (tellEntry s).radio.lastCause = s.radio.lastCause ∧ (tellEntry s).radio.startTimer = s.radio.startTimer
    ∧ (tellEntry s).radio.cycleTimer = s.radio.cycleTimer ∧ (tellEntry s).radio.attachTimer = s.radio.attachTimer
    ∧ (tellEntry s).radio.backoffTimer = s.radio.backoffTimer ∧ (tellEntry s).radio.silenceTimer = s.radio.silenceTimer
    ∧ (tellEntry s).radio.lingerTimer = s.radio.lingerTimer ∧ (tellEntry s).radio.mrstTimer = s.radio.mrstTimer
    ∧ (tellEntry s).radio.grantUp = s.radio.grantUp ∧ (tellEntry s).radio.grantDown = s.radio.grantDown
    ∧ (tellEntry s).radio.grantQuality = s.radio.grantQuality ∧ (tellEntry s).radio.slotA = s.radio.slotA
    ∧ (tellEntry s).radio.slotB = s.radio.slotB ∧ (tellEntry s).radio.unsent = s.radio.unsent ∧ (tellEntry s).radio.attachTag = s.radio.attachTag
    ∧ (tellEntry s).radio.pauseTold = s.radio.pauseTold ∧ (tellEntry s).radio.capTold = s.radio.capTold
    ∧ (tellEntry s).radio.lowPowerTold = s.radio.lowPowerTold ∧ (tellEntry s).radio.ldoLast = s.radio.ldoLast
    ∧ (tellEntry s).radio.receiver = s.radio.receiver ∧ (tellEntry s).radio.mpwr = s.radio.mpwr ∧ (tellEntry s).radio.mrst = s.radio.mrst := by unfold tellEntry; (repeat' split) <;> simp

@[simp] theorem enterDoze_power_mode (s : State) : (enterDoze s).power.mode = .doze := rfl
@[simp] theorem enterDoze_power_step (s : State) : (enterDoze s).power.step = .dozing := rfl
@[simp] theorem enterDoze_power_latch (s : State) : (enterDoze s).power.latch = WakeLatch.empty := rfl
@[simp] theorem enterDoze_power_dozeTimer (s : State) : (enterDoze s).power.dozeTimer = (some (s.loader.policy.dozeWake * 1000)) := rfl
@[simp] theorem enterDoze_pacer_pacing (s : State) : (enterDoze s).pacer.pacing = none := rfl
@[simp] theorem enterDoze_pacer_refusalPause (s : State) : (enterDoze s).pacer.refusalPause = none := rfl
@[simp] theorem enterDoze_hold_sweep10 (s : State) : (enterDoze s).hold.sweep10 = none := rfl
@[simp] theorem enterDoze_hold_sweep1s (s : State) : (enterDoze s).hold.sweep1s = none := rfl
@[simp] theorem enterDoze_health_timer100 (s : State) : (enterDoze s).health.timer100 = none := rfl
@[simp] theorem enterDoze_health_timer1s (s : State) : (enterDoze s).health.timer1s = none := rfl
@[simp] theorem enterDoze_events_refreshTimer (s : State) : (enterDoze s).events.refreshTimer = none := rfl
@[simp] theorem enterDoze_frame (s : State) :
    (enterDoze s).pending = s.pending ∧ (enterDoze s).clock = s.clock ∧ (enterDoze s).draws = s.draws ∧ (enterDoze s).sram = s.sram
    ∧ (enterDoze s).pins = s.pins ∧ (enterDoze s).loader = s.loader ∧ (enterDoze s).bus = s.bus ∧ (enterDoze s).ring = s.ring
    ∧ (enterDoze s).path = s.path ∧ (enterDoze s).radio = s.radio ∧ (enterDoze s).health.sig = s.health.sig
    ∧ (enterDoze s).health.txp = s.health.txp ∧ (enterDoze s).health.rxa = s.health.rxa ∧ (enterDoze s).health.txe = s.health.txe
    ∧ (enterDoze s).health.verdict = s.health.verdict ∧ (enterDoze s).health.txReference = s.health.txReference
    ∧ (enterDoze s).health.activityMark = s.health.activityMark ∧ (enterDoze s).hold.cells = s.hold.cells
    ∧ (enterDoze s).hold.freeList = s.hold.freeList ∧ (enterDoze s).hold.uqE = s.hold.uqE ∧ (enterDoze s).hold.uqV = s.hold.uqV
    ∧ (enterDoze s).hold.uqD = s.hold.uqD ∧ (enterDoze s).hold.dqV = s.hold.dqV ∧ (enterDoze s).hold.dqD = s.hold.dqD
    ∧ (enterDoze s).hold.onLdo = s.hold.onLdo ∧ (enterDoze s).hold.paused = s.hold.paused ∧ (enterDoze s).pacer.credit = s.pacer.credit
    ∧ (enterDoze s).pacer.chargeA = s.pacer.chargeA ∧ (enterDoze s).pacer.chargeB = s.pacer.chargeB
    ∧ (enterDoze s).pacer.grantSeen = s.pacer.grantSeen ∧ (enterDoze s).pacer.usageBase = s.pacer.usageBase
    ∧ (enterDoze s).pacer.carried = s.pacer.carried ∧ (enterDoze s).pacer.allowance = s.pacer.allowance
    ∧ (enterDoze s).pacer.downlinkCap = s.pacer.downlinkCap ∧ (enterDoze s).power.mainsReturn = s.power.mainsReturn
    ∧ (enterDoze s).power.quiet = s.power.quiet ∧ (enterDoze s).power.restart = s.power.restart ∧ (enterDoze s).events.entries = s.events.entries
    ∧ (enterDoze s).events.evp = s.events.evp ∧ (enterDoze s).events.slotKinds = s.events.slotKinds
    ∧ (enterDoze s).events.refreshCount = s.events.refreshCount ∧ (enterDoze s).events.pageWriting = s.events.pageWriting
    ∧ (enterDoze s).events.pageWanted = s.events.pageWanted ∧ (enterDoze s).events.counters = s.events.counters
    ∧ (enterDoze s).events.ledMs = s.events.ledMs := by simp [enterDoze]

@[simp] theorem endSending_frame (s : State) :
    (endSending s).pending = s.pending ∧ (endSending s).clock = s.clock ∧ (endSending s).draws = s.draws ∧ (endSending s).sram = s.sram
    ∧ (endSending s).pins = s.pins ∧ (endSending s).loader = s.loader ∧ (endSending s).bus = s.bus ∧ (endSending s).ring = s.ring
    ∧ (endSending s).health = s.health ∧ (endSending s).path = s.path ∧ (endSending s).hold = s.hold ∧ (endSending s).pacer = s.pacer
    ∧ (endSending s).power = s.power ∧ (endSending s).events = s.events ∧ (endSending s).radio.state = s.radio.state
    ∧ (endSending s).radio.ready = s.radio.ready ∧ (endSending s).radio.failures = s.radio.failures
    ∧ (endSending s).radio.lastCause = s.radio.lastCause ∧ (endSending s).radio.startTimer = s.radio.startTimer
    ∧ (endSending s).radio.cycleTimer = s.radio.cycleTimer ∧ (endSending s).radio.attachTimer = s.radio.attachTimer
    ∧ (endSending s).radio.backoffTimer = s.radio.backoffTimer ∧ (endSending s).radio.silenceTimer = s.radio.silenceTimer
    ∧ (endSending s).radio.lingerTimer = s.radio.lingerTimer ∧ (endSending s).radio.mrstTimer = s.radio.mrstTimer
    ∧ (endSending s).radio.grantUp = s.radio.grantUp ∧ (endSending s).radio.grantDown = s.radio.grantDown
    ∧ (endSending s).radio.grantQuality = s.radio.grantQuality ∧ (endSending s).radio.slotA = s.radio.slotA
    ∧ (endSending s).radio.slotB = s.radio.slotB ∧ (endSending s).radio.unsent = s.radio.unsent
    ∧ (endSending s).radio.attachTag = s.radio.attachTag ∧ (endSending s).radio.pauseTold = s.radio.pauseTold
    ∧ (endSending s).radio.capTold = s.radio.capTold ∧ (endSending s).radio.lowPowerTold = s.radio.lowPowerTold
    ∧ (endSending s).radio.items = s.radio.items ∧ (endSending s).radio.ldoLast = s.radio.ldoLast
    ∧ (endSending s).radio.receiver = s.radio.receiver ∧ (endSending s).radio.mpwr = s.radio.mpwr ∧ (endSending s).radio.mrst = s.radio.mrst := by unfold endSending; (repeat' split) <;> simp

@[simp] theorem reinitPacer_pacer_credit (s : State) : (reinitPacer s).pacer.credit = 0 := rfl
@[simp] theorem reinitPacer_pacer_refusalPause (s : State) : (reinitPacer s).pacer.refusalPause = none := rfl
@[simp] theorem reinitPacer_pacer_chargeA (s : State) : (reinitPacer s).pacer.chargeA = none := rfl
@[simp] theorem reinitPacer_pacer_chargeB (s : State) : (reinitPacer s).pacer.chargeB = none := rfl
@[simp] theorem reinitPacer_pacer_grantSeen (s : State) : (reinitPacer s).pacer.grantSeen = false := rfl
@[simp] theorem reinitPacer_pacer_pacing (s : State) : (reinitPacer s).pacer.pacing = (some 1) := rfl
@[simp] theorem reinitPacer_frame (s : State) :
    (reinitPacer s).pending = s.pending ∧ (reinitPacer s).clock = s.clock ∧ (reinitPacer s).draws = s.draws ∧ (reinitPacer s).sram = s.sram
    ∧ (reinitPacer s).pins = s.pins ∧ (reinitPacer s).loader = s.loader ∧ (reinitPacer s).bus = s.bus ∧ (reinitPacer s).ring = s.ring
    ∧ (reinitPacer s).health = s.health ∧ (reinitPacer s).path = s.path ∧ (reinitPacer s).hold = s.hold ∧ (reinitPacer s).radio = s.radio
    ∧ (reinitPacer s).power = s.power ∧ (reinitPacer s).events = s.events ∧ (reinitPacer s).pacer.usageBase = s.pacer.usageBase
    ∧ (reinitPacer s).pacer.carried = s.pacer.carried ∧ (reinitPacer s).pacer.allowance = s.pacer.allowance
    ∧ (reinitPacer s).pacer.downlinkCap = s.pacer.downlinkCap := by simp [reinitPacer]

@[simp] theorem landWords_frame (ws : List (Nat × LaneWord)) (s : State) :
    (landWords ws s).pending = s.pending ∧ (landWords ws s).clock = s.clock ∧ (landWords ws s).draws = s.draws ∧ (landWords ws s).pins = s.pins
    ∧ (landWords ws s).loader = s.loader ∧ (landWords ws s).ring = s.ring ∧ (landWords ws s).health = s.health ∧ (landWords ws s).path = s.path
    ∧ (landWords ws s).hold = s.hold ∧ (landWords ws s).pacer = s.pacer ∧ (landWords ws s).radio = s.radio ∧ (landWords ws s).power = s.power
    ∧ (landWords ws s).events = s.events ∧ (landWords ws s).bus.txHorizon = s.bus.txHorizon ∧ (landWords ws s).bus.rxHorizon = s.bus.rxHorizon
    ∧ (landWords ws s).bus.fixedH = s.bus.fixedH ∧ (landWords ws s).bus.fixedG = s.bus.fixedG
    ∧ (landWords ws s).bus.uplinkView = s.bus.uplinkView ∧ (landWords ws s).bus.receiveView = s.bus.receiveView
    ∧ (landWords ws s).bus.uplinkViewValue = s.bus.uplinkViewValue ∧ (landWords ws s).bus.receiveViewValue = s.bus.receiveViewValue
    ∧ (landWords ws s).bus.txGuard = s.bus.txGuard ∧ (landWords ws s).bus.rxGuard = s.bus.rxGuard ∧ (landWords ws s).bus.queue = s.bus.queue
    ∧ (landWords ws s).bus.waiting = s.bus.waiting ∧ (landWords ws s).bus.waitCount = s.bus.waitCount
    ∧ (landWords ws s).bus.gatewayData = s.bus.gatewayData := by simp only [landWords]; (repeat' split) <;> simp

@[simp] theorem rxfTouched_frame (s : State) :
    (rxfTouched s).pending = s.pending ∧ (rxfTouched s).clock = s.clock ∧ (rxfTouched s).draws = s.draws ∧ (rxfTouched s).sram = s.sram
    ∧ (rxfTouched s).pins = s.pins ∧ (rxfTouched s).loader = s.loader ∧ (rxfTouched s).bus = s.bus ∧ (rxfTouched s).ring = s.ring
    ∧ (rxfTouched s).path = s.path ∧ (rxfTouched s).hold = s.hold ∧ (rxfTouched s).pacer = s.pacer ∧ (rxfTouched s).radio = s.radio
    ∧ (rxfTouched s).power = s.power ∧ (rxfTouched s).events = s.events ∧ (rxfTouched s).health.sig = s.health.sig
    ∧ (rxfTouched s).health.txp = s.health.txp ∧ (rxfTouched s).health.rxa = s.health.rxa ∧ (rxfTouched s).health.txe = s.health.txe
    ∧ (rxfTouched s).health.verdict = s.health.verdict ∧ (rxfTouched s).health.txReference = s.health.txReference
    ∧ (rxfTouched s).health.timer100 = s.health.timer100 ∧ (rxfTouched s).health.timer1s = s.health.timer1s := by unfold rxfTouched; (repeat' split) <;> simp

@[simp] theorem setHorizons_frame (addrs : List Nat) (ws : List Word) (s : State) :
    (setHorizons addrs ws s).pending = s.pending ∧ (setHorizons addrs ws s).clock = s.clock ∧ (setHorizons addrs ws s).draws = s.draws
    ∧ (setHorizons addrs ws s).sram = s.sram ∧ (setHorizons addrs ws s).pins = s.pins ∧ (setHorizons addrs ws s).loader = s.loader
    ∧ (setHorizons addrs ws s).ring = s.ring ∧ (setHorizons addrs ws s).health = s.health ∧ (setHorizons addrs ws s).path = s.path
    ∧ (setHorizons addrs ws s).hold = s.hold ∧ (setHorizons addrs ws s).pacer = s.pacer ∧ (setHorizons addrs ws s).radio = s.radio
    ∧ (setHorizons addrs ws s).power = s.power ∧ (setHorizons addrs ws s).events = s.events
    ∧ (setHorizons addrs ws s).bus.shadows = s.bus.shadows ∧ (setHorizons addrs ws s).bus.fixedH = s.bus.fixedH
    ∧ (setHorizons addrs ws s).bus.fixedG = s.bus.fixedG ∧ (setHorizons addrs ws s).bus.uplinkView = s.bus.uplinkView
    ∧ (setHorizons addrs ws s).bus.receiveView = s.bus.receiveView ∧ (setHorizons addrs ws s).bus.uplinkViewValue = s.bus.uplinkViewValue
    ∧ (setHorizons addrs ws s).bus.receiveViewValue = s.bus.receiveViewValue ∧ (setHorizons addrs ws s).bus.txGuard = s.bus.txGuard
    ∧ (setHorizons addrs ws s).bus.rxGuard = s.bus.rxGuard ∧ (setHorizons addrs ws s).bus.queue = s.bus.queue
    ∧ (setHorizons addrs ws s).bus.waiting = s.bus.waiting ∧ (setHorizons addrs ws s).bus.waitCount = s.bus.waitCount
    ∧ (setHorizons addrs ws s).bus.gatewayData = s.bus.gatewayData := by unfold setHorizons; (repeat' split) <;> simp

@[simp] theorem followViews_frame (p : Purpose) (ws : List LaneWord) (s : State) :
    (followViews p ws s).pending = s.pending ∧ (followViews p ws s).clock = s.clock ∧ (followViews p ws s).draws = s.draws
    ∧ (followViews p ws s).sram = s.sram ∧ (followViews p ws s).pins = s.pins ∧ (followViews p ws s).loader = s.loader
    ∧ (followViews p ws s).ring = s.ring ∧ (followViews p ws s).health = s.health ∧ (followViews p ws s).path = s.path
    ∧ (followViews p ws s).hold = s.hold ∧ (followViews p ws s).pacer = s.pacer ∧ (followViews p ws s).radio = s.radio
    ∧ (followViews p ws s).power = s.power ∧ (followViews p ws s).events = s.events ∧ (followViews p ws s).bus.shadows = s.bus.shadows
    ∧ (followViews p ws s).bus.txHorizon = s.bus.txHorizon ∧ (followViews p ws s).bus.rxHorizon = s.bus.rxHorizon
    ∧ (followViews p ws s).bus.fixedH = s.bus.fixedH ∧ (followViews p ws s).bus.fixedG = s.bus.fixedG
    ∧ (followViews p ws s).bus.uplinkView = s.bus.uplinkView ∧ (followViews p ws s).bus.receiveView = s.bus.receiveView
    ∧ (followViews p ws s).bus.txGuard = s.bus.txGuard ∧ (followViews p ws s).bus.rxGuard = s.bus.rxGuard
    ∧ (followViews p ws s).bus.queue = s.bus.queue ∧ (followViews p ws s).bus.waiting = s.bus.waiting
    ∧ (followViews p ws s).bus.waitCount = s.bus.waitCount ∧ (followViews p ws s).bus.gatewayData = s.bus.gatewayData := by unfold followViews; (repeat' split) <;> simp

@[simp] theorem grantGateway_bus_waitCount (s : State) :
    (grantGateway s).bus.waitCount = (if s.bus.queue = [] then 0 else s.bus.waitCount + 1) := rfl
@[simp] theorem grantGateway_frame (s : State) :
    (grantGateway s).pending = s.pending ∧ (grantGateway s).clock = s.clock ∧ (grantGateway s).draws = s.draws ∧ (grantGateway s).sram = s.sram
    ∧ (grantGateway s).pins = s.pins ∧ (grantGateway s).loader = s.loader ∧ (grantGateway s).ring = s.ring ∧ (grantGateway s).health = s.health
    ∧ (grantGateway s).path = s.path ∧ (grantGateway s).hold = s.hold ∧ (grantGateway s).pacer = s.pacer ∧ (grantGateway s).radio = s.radio
    ∧ (grantGateway s).power = s.power ∧ (grantGateway s).events = s.events ∧ (grantGateway s).bus.shadows = s.bus.shadows
    ∧ (grantGateway s).bus.txHorizon = s.bus.txHorizon ∧ (grantGateway s).bus.rxHorizon = s.bus.rxHorizon
    ∧ (grantGateway s).bus.fixedH = s.bus.fixedH ∧ (grantGateway s).bus.fixedG = s.bus.fixedG
    ∧ (grantGateway s).bus.uplinkView = s.bus.uplinkView ∧ (grantGateway s).bus.receiveView = s.bus.receiveView
    ∧ (grantGateway s).bus.uplinkViewValue = s.bus.uplinkViewValue ∧ (grantGateway s).bus.receiveViewValue = s.bus.receiveViewValue
    ∧ (grantGateway s).bus.txGuard = s.bus.txGuard ∧ (grantGateway s).bus.rxGuard = s.bus.rxGuard ∧ (grantGateway s).bus.queue = s.bus.queue
    ∧ (grantGateway s).bus.waiting = s.bus.waiting ∧ (grantGateway s).bus.gatewayData = s.bus.gatewayData := by simp [grantGateway]

@[simp] theorem cutMaster_frame (s : State) :
    (cutMaster s).pending = s.pending ∧ (cutMaster s).clock = s.clock ∧ (cutMaster s).pins = s.pins ∧ (cutMaster s).loader = s.loader
    ∧ (cutMaster s).bus = s.bus ∧ (cutMaster s).ring = s.ring ∧ (cutMaster s).health = s.health ∧ (cutMaster s).path = s.path
    ∧ (cutMaster s).hold = s.hold ∧ (cutMaster s).pacer = s.pacer ∧ (cutMaster s).radio = s.radio ∧ (cutMaster s).power = s.power
    ∧ (cutMaster s).events = s.events := by unfold cutMaster; (repeat' split) <;> simp

@[simp] theorem resetBlocks_clock (phase : LoadPhase) (s : State) : (resetBlocks phase s).clock = 0 := rfl
@[simp] theorem resetBlocks_loader (phase : LoadPhase) (s : State) : (resetBlocks phase s).loader = ({ Loader.reset with phase := phase }) := rfl
@[simp] theorem resetBlocks_bus (phase : LoadPhase) (s : State) : (resetBlocks phase s).bus = BusPath.reset := rfl
@[simp] theorem resetBlocks_ring (phase : LoadPhase) (s : State) : (resetBlocks phase s).ring = RingAgent.reset := rfl
@[simp] theorem resetBlocks_health (phase : LoadPhase) (s : State) : (resetBlocks phase s).health = Health.reset := rfl
@[simp] theorem resetBlocks_path (phase : LoadPhase) (s : State) : (resetBlocks phase s).path = PathController.reset := rfl
@[simp] theorem resetBlocks_hold (phase : LoadPhase) (s : State) : (resetBlocks phase s).hold = (HoldMemory.resetWith s.hold.cells) := rfl
@[simp] theorem resetBlocks_pacer (phase : LoadPhase) (s : State) : (resetBlocks phase s).pacer = Pacer.reset := rfl
@[simp] theorem resetBlocks_radio (phase : LoadPhase) (s : State) : (resetBlocks phase s).radio = RadioLink.reset := rfl
@[simp] theorem resetBlocks_power (phase : LoadPhase) (s : State) : (resetBlocks phase s).power = (PowerUnit.resetWith s.pins.mainsLost) := rfl
@[simp] theorem resetBlocks_events (phase : LoadPhase) (s : State) : (resetBlocks phase s).events = EventUnit.reset := rfl
@[simp] theorem resetBlocks_frame (phase : LoadPhase) (s : State) :
    (resetBlocks phase s).pending = s.pending ∧ (resetBlocks phase s).draws = s.draws ∧ (resetBlocks phase s).sram = s.sram
    ∧ (resetBlocks phase s).pins = s.pins := by simp [resetBlocks]

@[simp] theorem receivePayload_radio_receiver (record : Option FrameRecord) (length : Nat) (s : State) :
    (receivePayload record length s).radio.receiver = (.payload ⟨record, length, .ordinary⟩) := rfl
@[simp] theorem receivePayload_frame (record : Option FrameRecord) (length : Nat) (s : State) :
    (receivePayload record length s).pending = s.pending ∧ (receivePayload record length s).clock = s.clock
    ∧ (receivePayload record length s).draws = s.draws ∧ (receivePayload record length s).sram = s.sram
    ∧ (receivePayload record length s).pins = s.pins ∧ (receivePayload record length s).loader = s.loader
    ∧ (receivePayload record length s).bus = s.bus ∧ (receivePayload record length s).ring = s.ring
    ∧ (receivePayload record length s).health = s.health ∧ (receivePayload record length s).path = s.path
    ∧ (receivePayload record length s).hold = s.hold ∧ (receivePayload record length s).pacer = s.pacer
    ∧ (receivePayload record length s).power = s.power ∧ (receivePayload record length s).events = s.events
    ∧ (receivePayload record length s).radio.state = s.radio.state ∧ (receivePayload record length s).radio.ready = s.radio.ready
    ∧ (receivePayload record length s).radio.failures = s.radio.failures ∧ (receivePayload record length s).radio.lastCause = s.radio.lastCause
    ∧ (receivePayload record length s).radio.startTimer = s.radio.startTimer
    ∧ (receivePayload record length s).radio.cycleTimer = s.radio.cycleTimer
    ∧ (receivePayload record length s).radio.attachTimer = s.radio.attachTimer
    ∧ (receivePayload record length s).radio.backoffTimer = s.radio.backoffTimer
    ∧ (receivePayload record length s).radio.silenceTimer = s.radio.silenceTimer
    ∧ (receivePayload record length s).radio.lingerTimer = s.radio.lingerTimer
    ∧ (receivePayload record length s).radio.mrstTimer = s.radio.mrstTimer ∧ (receivePayload record length s).radio.grantUp = s.radio.grantUp
    ∧ (receivePayload record length s).radio.grantDown = s.radio.grantDown
    ∧ (receivePayload record length s).radio.grantQuality = s.radio.grantQuality ∧ (receivePayload record length s).radio.slotA = s.radio.slotA
    ∧ (receivePayload record length s).radio.slotB = s.radio.slotB ∧ (receivePayload record length s).radio.unsent = s.radio.unsent
    ∧ (receivePayload record length s).radio.attachTag = s.radio.attachTag ∧ (receivePayload record length s).radio.pauseTold = s.radio.pauseTold
    ∧ (receivePayload record length s).radio.capTold = s.radio.capTold
    ∧ (receivePayload record length s).radio.lowPowerTold = s.radio.lowPowerTold ∧ (receivePayload record length s).radio.items = s.radio.items
    ∧ (receivePayload record length s).radio.ldo = s.radio.ldo ∧ (receivePayload record length s).radio.ldoLast = s.radio.ldoLast
    ∧ (receivePayload record length s).radio.mpwr = s.radio.mpwr ∧ (receivePayload record length s).radio.mrst = s.radio.mrst := by simp [receivePayload]

@[simp] theorem markSent_frame (slot : Slot) (s : State) :
    (markSent slot s).pending = s.pending ∧ (markSent slot s).clock = s.clock ∧ (markSent slot s).draws = s.draws
    ∧ (markSent slot s).sram = s.sram ∧ (markSent slot s).pins = s.pins ∧ (markSent slot s).loader = s.loader ∧ (markSent slot s).bus = s.bus
    ∧ (markSent slot s).ring = s.ring ∧ (markSent slot s).health = s.health ∧ (markSent slot s).path = s.path ∧ (markSent slot s).hold = s.hold
    ∧ (markSent slot s).pacer = s.pacer ∧ (markSent slot s).power = s.power ∧ (markSent slot s).events = s.events
    ∧ (markSent slot s).radio.state = s.radio.state ∧ (markSent slot s).radio.ready = s.radio.ready
    ∧ (markSent slot s).radio.failures = s.radio.failures ∧ (markSent slot s).radio.lastCause = s.radio.lastCause
    ∧ (markSent slot s).radio.startTimer = s.radio.startTimer ∧ (markSent slot s).radio.cycleTimer = s.radio.cycleTimer
    ∧ (markSent slot s).radio.attachTimer = s.radio.attachTimer ∧ (markSent slot s).radio.backoffTimer = s.radio.backoffTimer
    ∧ (markSent slot s).radio.silenceTimer = s.radio.silenceTimer ∧ (markSent slot s).radio.lingerTimer = s.radio.lingerTimer
    ∧ (markSent slot s).radio.mrstTimer = s.radio.mrstTimer ∧ (markSent slot s).radio.grantUp = s.radio.grantUp
    ∧ (markSent slot s).radio.grantDown = s.radio.grantDown ∧ (markSent slot s).radio.grantQuality = s.radio.grantQuality
    ∧ (markSent slot s).radio.unsent = s.radio.unsent ∧ (markSent slot s).radio.attachTag = s.radio.attachTag
    ∧ (markSent slot s).radio.pauseTold = s.radio.pauseTold ∧ (markSent slot s).radio.capTold = s.radio.capTold
    ∧ (markSent slot s).radio.lowPowerTold = s.radio.lowPowerTold ∧ (markSent slot s).radio.items = s.radio.items
    ∧ (markSent slot s).radio.ldo = s.radio.ldo ∧ (markSent slot s).radio.ldoLast = s.radio.ldoLast
    ∧ (markSent slot s).radio.receiver = s.radio.receiver ∧ (markSent slot s).radio.mpwr = s.radio.mpwr
    ∧ (markSent slot s).radio.mrst = s.radio.mrst := by unfold markSent; (repeat' split) <;> simp

@[simp] theorem lingerExpires_frame (s : State) :
    (lingerExpires s).pending = s.pending ∧ (lingerExpires s).clock = s.clock ∧ (lingerExpires s).draws = s.draws
    ∧ (lingerExpires s).sram = s.sram ∧ (lingerExpires s).pins = s.pins ∧ (lingerExpires s).loader = s.loader ∧ (lingerExpires s).bus = s.bus
    ∧ (lingerExpires s).ring = s.ring ∧ (lingerExpires s).health = s.health ∧ (lingerExpires s).path = s.path ∧ (lingerExpires s).hold = s.hold
    ∧ (lingerExpires s).pacer = s.pacer ∧ (lingerExpires s).power = s.power ∧ (lingerExpires s).events = s.events
    ∧ (lingerExpires s).radio.state = s.radio.state ∧ (lingerExpires s).radio.ready = s.radio.ready
    ∧ (lingerExpires s).radio.failures = s.radio.failures ∧ (lingerExpires s).radio.lastCause = s.radio.lastCause
    ∧ (lingerExpires s).radio.startTimer = s.radio.startTimer ∧ (lingerExpires s).radio.cycleTimer = s.radio.cycleTimer
    ∧ (lingerExpires s).radio.attachTimer = s.radio.attachTimer ∧ (lingerExpires s).radio.backoffTimer = s.radio.backoffTimer
    ∧ (lingerExpires s).radio.silenceTimer = s.radio.silenceTimer ∧ (lingerExpires s).radio.mrstTimer = s.radio.mrstTimer
    ∧ (lingerExpires s).radio.grantUp = s.radio.grantUp ∧ (lingerExpires s).radio.grantDown = s.radio.grantDown
    ∧ (lingerExpires s).radio.grantQuality = s.radio.grantQuality ∧ (lingerExpires s).radio.slotA = s.radio.slotA
    ∧ (lingerExpires s).radio.slotB = s.radio.slotB ∧ (lingerExpires s).radio.unsent = s.radio.unsent
    ∧ (lingerExpires s).radio.attachTag = s.radio.attachTag ∧ (lingerExpires s).radio.pauseTold = s.radio.pauseTold
    ∧ (lingerExpires s).radio.capTold = s.radio.capTold ∧ (lingerExpires s).radio.lowPowerTold = s.radio.lowPowerTold
    ∧ (lingerExpires s).radio.ldo = s.radio.ldo ∧ (lingerExpires s).radio.ldoLast = s.radio.ldoLast
    ∧ (lingerExpires s).radio.receiver = s.radio.receiver ∧ (lingerExpires s).radio.mpwr = s.radio.mpwr
    ∧ (lingerExpires s).radio.mrst = s.radio.mrst := by simp only [lingerExpires]; (repeat' split) <;> simp

@[simp] theorem refallExpires_path_refallTimer (s : State) : (refallExpires s).path.refallTimer = none := rfl
@[simp] theorem refallExpires_path_refallOpen (s : State) : (refallExpires s).path.refallOpen = false := rfl
@[simp] theorem refallExpires_frame (s : State) :
    (refallExpires s).pending = s.pending ∧ (refallExpires s).clock = s.clock ∧ (refallExpires s).draws = s.draws
    ∧ (refallExpires s).sram = s.sram ∧ (refallExpires s).pins = s.pins ∧ (refallExpires s).loader = s.loader ∧ (refallExpires s).bus = s.bus
    ∧ (refallExpires s).ring = s.ring ∧ (refallExpires s).health = s.health ∧ (refallExpires s).hold = s.hold ∧ (refallExpires s).pacer = s.pacer
    ∧ (refallExpires s).radio = s.radio ∧ (refallExpires s).power = s.power ∧ (refallExpires s).events = s.events
    ∧ (refallExpires s).path.path = s.path.path ∧ (refallExpires s).path.phase = s.path.phase ∧ (refallExpires s).path.dwellD = s.path.dwellD
    ∧ (refallExpires s).path.dwell = s.path.dwell ∧ (refallExpires s).path.releaseTimer = s.path.releaseTimer
    ∧ (refallExpires s).path.txReleased = s.path.txReleased ∧ (refallExpires s).path.rxReleased = s.path.rxReleased
    ∧ (refallExpires s).path.drainTimer = s.path.drainTimer ∧ (refallExpires s).path.emergency = s.path.emergency
    ∧ (refallExpires s).path.priorityTimer = s.path.priorityTimer ∧ (refallExpires s).path.radioWanted = s.path.radioWanted
    ∧ (refallExpires s).path.returnPause = s.path.returnPause ∧ (refallExpires s).path.recorded = s.path.recorded := by simp [refallExpires]

end Sys2Proof.Machine
end

