-- ==== Sys2Proof/Laws/BlockFrames.lean ====
section
/-! SUPPORT. What each shared operation of the blocks keeps: the fields of the state that it leaves as they stand. -/

-- One theorem at a time: the threads of many at once would not fit the memory a check has.
set_option Elab.async false

namespace Sys2Proof.Machine

@[simp] theorem reportLoss_frame (reason : LossReason) (r : FrameRecord) (s : State) :
    (reportLoss reason r s).pending = s.pending ∧ (reportLoss reason r s).clock = s.clock ∧ (reportLoss reason r s).draws = s.draws
    ∧ (reportLoss reason r s).sram = s.sram ∧ (reportLoss reason r s).pins = s.pins ∧ (reportLoss reason r s).loader = s.loader
    ∧ (reportLoss reason r s).bus = s.bus ∧ (reportLoss reason r s).ring = s.ring ∧ (reportLoss reason r s).health = s.health
    ∧ (reportLoss reason r s).path = s.path ∧ (reportLoss reason r s).hold = s.hold ∧ (reportLoss reason r s).pacer = s.pacer
    ∧ (reportLoss reason r s).radio = s.radio ∧ (reportLoss reason r s).power = s.power ∧ (reportLoss reason r s).events.evp = s.events.evp
    ∧ (reportLoss reason r s).events.slotKinds = s.events.slotKinds ∧ (reportLoss reason r s).events.refreshCount = s.events.refreshCount
    ∧ (reportLoss reason r s).events.refreshTimer = s.events.refreshTimer ∧ (reportLoss reason r s).events.pageWriting = s.events.pageWriting
    ∧ (reportLoss reason r s).events.pageWanted = s.events.pageWanted ∧ (reportLoss reason r s).events.ledMs = s.events.ledMs := by simp [reportLoss]

@[simp] theorem countSoftDiscard_frame (r : FrameRecord) (s : State) :
    (countSoftDiscard r s).pending = s.pending ∧ (countSoftDiscard r s).clock = s.clock ∧ (countSoftDiscard r s).draws = s.draws
    ∧ (countSoftDiscard r s).sram = s.sram ∧ (countSoftDiscard r s).pins = s.pins ∧ (countSoftDiscard r s).bus = s.bus
    ∧ (countSoftDiscard r s).ring = s.ring ∧ (countSoftDiscard r s).health = s.health ∧ (countSoftDiscard r s).path = s.path
    ∧ (countSoftDiscard r s).hold = s.hold ∧ (countSoftDiscard r s).pacer = s.pacer ∧ (countSoftDiscard r s).radio = s.radio
    ∧ (countSoftDiscard r s).power = s.power ∧ (countSoftDiscard r s).loader.phase = s.loader.phase
    ∧ (countSoftDiscard r s).loader.flashCode = s.loader.flashCode ∧ (countSoftDiscard r s).loader.map = s.loader.map
    ∧ (countSoftDiscard r s).loader.linkClock = s.loader.linkClock ∧ (countSoftDiscard r s).loader.defaultPolicy = s.loader.defaultPolicy
    ∧ (countSoftDiscard r s).loader.policy = s.loader.policy ∧ (countSoftDiscard r s).loader.readState = s.loader.readState
    ∧ (countSoftDiscard r s).loader.readKind = s.loader.readKind ∧ (countSoftDiscard r s).loader.dueAfterRestart = s.loader.dueAfterRestart
    ∧ (countSoftDiscard r s).loader.firstHalf = s.loader.firstHalf ∧ (countSoftDiscard r s).loader.pgenAtIssue = s.loader.pgenAtIssue
    ∧ (countSoftDiscard r s).loader.softResetInForce = s.loader.softResetInForce
    ∧ (countSoftDiscard r s).loader.counterClearInForce = s.loader.counterClearInForce
    ∧ (countSoftDiscard r s).loader.shadowsLoaded = s.loader.shadowsLoaded ∧ (countSoftDiscard r s).loader.softReset = s.loader.softReset
    ∧ (countSoftDiscard r s).loader.softWait = s.loader.softWait ∧ (countSoftDiscard r s).loader.softPositions = s.loader.softPositions
    ∧ (countSoftDiscard r s).events.entries = s.events.entries ∧ (countSoftDiscard r s).events.evp = s.events.evp
    ∧ (countSoftDiscard r s).events.slotKinds = s.events.slotKinds ∧ (countSoftDiscard r s).events.refreshCount = s.events.refreshCount
    ∧ (countSoftDiscard r s).events.refreshTimer = s.events.refreshTimer ∧ (countSoftDiscard r s).events.pageWriting = s.events.pageWriting
    ∧ (countSoftDiscard r s).events.pageWanted = s.events.pageWanted ∧ (countSoftDiscard r s).events.ledMs = s.events.ledMs := by unfold countSoftDiscard; (repeat' split) <;> simp

@[simp] theorem abandonEntry_frame (s : State) :
    (abandonEntry s).pending = s.pending ∧ (abandonEntry s).clock = s.clock ∧ (abandonEntry s).draws = s.draws ∧ (abandonEntry s).sram = s.sram
    ∧ (abandonEntry s).pins = s.pins ∧ (abandonEntry s).loader = s.loader ∧ (abandonEntry s).bus = s.bus ∧ (abandonEntry s).ring = s.ring
    ∧ (abandonEntry s).health = s.health ∧ (abandonEntry s).path = s.path ∧ (abandonEntry s).hold = s.hold ∧ (abandonEntry s).pacer = s.pacer
    ∧ (abandonEntry s).events = s.events ∧ (abandonEntry s).radio.state = s.radio.state ∧ (abandonEntry s).radio.ready = s.radio.ready
    ∧ (abandonEntry s).radio.failures = s.radio.failures ∧ (abandonEntry s).radio.lastCause = s.radio.lastCause
    ∧ (abandonEntry s).radio.startTimer = s.radio.startTimer ∧ (abandonEntry s).radio.cycleTimer = s.radio.cycleTimer
    ∧ (abandonEntry s).radio.attachTimer = s.radio.attachTimer ∧ (abandonEntry s).radio.backoffTimer = s.radio.backoffTimer
    ∧ (abandonEntry s).radio.silenceTimer = s.radio.silenceTimer ∧ (abandonEntry s).radio.lingerTimer = s.radio.lingerTimer
    ∧ (abandonEntry s).radio.mrstTimer = s.radio.mrstTimer ∧ (abandonEntry s).radio.grantUp = s.radio.grantUp
    ∧ (abandonEntry s).radio.grantDown = s.radio.grantDown ∧ (abandonEntry s).radio.grantQuality = s.radio.grantQuality
    ∧ (abandonEntry s).radio.slotA = s.radio.slotA ∧ (abandonEntry s).radio.slotB = s.radio.slotB
    ∧ (abandonEntry s).radio.unsent = s.radio.unsent ∧ (abandonEntry s).radio.attachTag = s.radio.attachTag
    ∧ (abandonEntry s).radio.pauseTold = s.radio.pauseTold ∧ (abandonEntry s).radio.capTold = s.radio.capTold
    ∧ (abandonEntry s).radio.lowPowerTold = s.radio.lowPowerTold ∧ (abandonEntry s).radio.ldoLast = s.radio.ldoLast
    ∧ (abandonEntry s).radio.receiver = s.radio.receiver ∧ (abandonEntry s).radio.mpwr = s.radio.mpwr
    ∧ (abandonEntry s).radio.mrst = s.radio.mrst ∧ (abandonEntry s).power.mode = s.power.mode
    ∧ (abandonEntry s).power.mainsReturn = s.power.mainsReturn ∧ (abandonEntry s).power.quiet = s.power.quiet
    ∧ (abandonEntry s).power.dozeTimer = s.power.dozeTimer ∧ (abandonEntry s).power.restart = s.power.restart
    ∧ (abandonEntry s).power.latch = s.power.latch := by unfold abandonEntry; (repeat' split) <;> simp

@[simp] theorem takeCells_frame (length : Nat) (s : State) :
    (takeCells length s).pending = s.pending ∧ (takeCells length s).clock = s.clock ∧ (takeCells length s).draws = s.draws
    ∧ (takeCells length s).sram = s.sram ∧ (takeCells length s).pins = s.pins ∧ (takeCells length s).loader = s.loader
    ∧ (takeCells length s).bus = s.bus ∧ (takeCells length s).ring = s.ring ∧ (takeCells length s).health = s.health
    ∧ (takeCells length s).path = s.path ∧ (takeCells length s).pacer = s.pacer ∧ (takeCells length s).power = s.power
    ∧ (takeCells length s).events = s.events ∧ (takeCells length s).hold.cells = s.hold.cells ∧ (takeCells length s).hold.uqE = s.hold.uqE
    ∧ (takeCells length s).hold.uqV = s.hold.uqV ∧ (takeCells length s).hold.uqD = s.hold.uqD ∧ (takeCells length s).hold.dqV = s.hold.dqV
    ∧ (takeCells length s).hold.dqD = s.hold.dqD ∧ (takeCells length s).hold.onLdo = s.hold.onLdo
    ∧ (takeCells length s).hold.sweep10 = s.hold.sweep10 ∧ (takeCells length s).hold.sweep1s = s.hold.sweep1s
    ∧ (takeCells length s).radio.state = s.radio.state ∧ (takeCells length s).radio.ready = s.radio.ready
    ∧ (takeCells length s).radio.failures = s.radio.failures ∧ (takeCells length s).radio.lastCause = s.radio.lastCause
    ∧ (takeCells length s).radio.startTimer = s.radio.startTimer ∧ (takeCells length s).radio.cycleTimer = s.radio.cycleTimer
    ∧ (takeCells length s).radio.attachTimer = s.radio.attachTimer ∧ (takeCells length s).radio.backoffTimer = s.radio.backoffTimer
    ∧ (takeCells length s).radio.silenceTimer = s.radio.silenceTimer ∧ (takeCells length s).radio.lingerTimer = s.radio.lingerTimer
    ∧ (takeCells length s).radio.mrstTimer = s.radio.mrstTimer ∧ (takeCells length s).radio.grantUp = s.radio.grantUp
    ∧ (takeCells length s).radio.grantDown = s.radio.grantDown ∧ (takeCells length s).radio.grantQuality = s.radio.grantQuality
    ∧ (takeCells length s).radio.slotA = s.radio.slotA ∧ (takeCells length s).radio.slotB = s.radio.slotB
    ∧ (takeCells length s).radio.unsent = s.radio.unsent ∧ (takeCells length s).radio.attachTag = s.radio.attachTag
    ∧ (takeCells length s).radio.pauseTold = s.radio.pauseTold ∧ (takeCells length s).radio.capTold = s.radio.capTold
    ∧ (takeCells length s).radio.lowPowerTold = s.radio.lowPowerTold ∧ (takeCells length s).radio.ldo = s.radio.ldo
    ∧ (takeCells length s).radio.ldoLast = s.radio.ldoLast ∧ (takeCells length s).radio.receiver = s.radio.receiver
    ∧ (takeCells length s).radio.mpwr = s.radio.mpwr ∧ (takeCells length s).radio.mrst = s.radio.mrst := by simp [takeCells]

@[simp] theorem startAfterCycle_frame (s : State) :
    (startAfterCycle s).pending = s.pending ∧ (startAfterCycle s).clock = s.clock ∧ (startAfterCycle s).draws = s.draws
    ∧ (startAfterCycle s).sram = s.sram ∧ (startAfterCycle s).pins = s.pins ∧ (startAfterCycle s).loader = s.loader
    ∧ (startAfterCycle s).bus = s.bus ∧ (startAfterCycle s).ring = s.ring ∧ (startAfterCycle s).health = s.health
    ∧ (startAfterCycle s).path = s.path ∧ (startAfterCycle s).hold = s.hold ∧ (startAfterCycle s).pacer = s.pacer
    ∧ (startAfterCycle s).power = s.power ∧ (startAfterCycle s).events = s.events ∧ (startAfterCycle s).radio.failures = s.radio.failures
    ∧ (startAfterCycle s).radio.lastCause = s.radio.lastCause ∧ (startAfterCycle s).radio.cycleTimer = s.radio.cycleTimer
    ∧ (startAfterCycle s).radio.attachTimer = s.radio.attachTimer ∧ (startAfterCycle s).radio.backoffTimer = s.radio.backoffTimer
    ∧ (startAfterCycle s).radio.silenceTimer = s.radio.silenceTimer ∧ (startAfterCycle s).radio.lingerTimer = s.radio.lingerTimer
    ∧ (startAfterCycle s).radio.mrstTimer = s.radio.mrstTimer ∧ (startAfterCycle s).radio.grantUp = s.radio.grantUp
    ∧ (startAfterCycle s).radio.grantDown = s.radio.grantDown ∧ (startAfterCycle s).radio.grantQuality = s.radio.grantQuality
    ∧ (startAfterCycle s).radio.slotA = s.radio.slotA ∧ (startAfterCycle s).radio.slotB = s.radio.slotB
    ∧ (startAfterCycle s).radio.unsent = s.radio.unsent ∧ (startAfterCycle s).radio.attachTag = s.radio.attachTag
    ∧ (startAfterCycle s).radio.pauseTold = s.radio.pauseTold ∧ (startAfterCycle s).radio.capTold = s.radio.capTold
    ∧ (startAfterCycle s).radio.lowPowerTold = s.radio.lowPowerTold ∧ (startAfterCycle s).radio.items = s.radio.items
    ∧ (startAfterCycle s).radio.ldo = s.radio.ldo ∧ (startAfterCycle s).radio.ldoLast = s.radio.ldoLast
    ∧ (startAfterCycle s).radio.receiver = s.radio.receiver ∧ (startAfterCycle s).radio.mpwr = s.radio.mpwr
    ∧ (startAfterCycle s).radio.mrst = s.radio.mrst := by unfold startAfterCycle; (repeat' split) <;> simp

@[simp] theorem emptySlots_frame (s : State) :
    (emptySlots s).pending = s.pending ∧ (emptySlots s).clock = s.clock ∧ (emptySlots s).draws = s.draws ∧ (emptySlots s).sram = s.sram
    ∧ (emptySlots s).pins = s.pins ∧ (emptySlots s).loader = s.loader ∧ (emptySlots s).bus = s.bus ∧ (emptySlots s).ring = s.ring
    ∧ (emptySlots s).health = s.health ∧ (emptySlots s).path = s.path ∧ (emptySlots s).hold = s.hold ∧ (emptySlots s).power = s.power
    ∧ (emptySlots s).events = s.events ∧ (emptySlots s).pacer.credit = s.pacer.credit ∧ (emptySlots s).pacer.pacing = s.pacer.pacing
    ∧ (emptySlots s).pacer.refusalPause = s.pacer.refusalPause ∧ (emptySlots s).pacer.grantSeen = s.pacer.grantSeen
    ∧ (emptySlots s).pacer.usageBase = s.pacer.usageBase ∧ (emptySlots s).pacer.carried = s.pacer.carried
    ∧ (emptySlots s).pacer.allowance = s.pacer.allowance ∧ (emptySlots s).pacer.downlinkCap = s.pacer.downlinkCap
    ∧ (emptySlots s).radio.state = s.radio.state ∧ (emptySlots s).radio.ready = s.radio.ready ∧ (emptySlots s).radio.failures = s.radio.failures
    ∧ (emptySlots s).radio.lastCause = s.radio.lastCause ∧ (emptySlots s).radio.startTimer = s.radio.startTimer
    ∧ (emptySlots s).radio.cycleTimer = s.radio.cycleTimer ∧ (emptySlots s).radio.attachTimer = s.radio.attachTimer
    ∧ (emptySlots s).radio.backoffTimer = s.radio.backoffTimer ∧ (emptySlots s).radio.silenceTimer = s.radio.silenceTimer
    ∧ (emptySlots s).radio.lingerTimer = s.radio.lingerTimer ∧ (emptySlots s).radio.mrstTimer = s.radio.mrstTimer
    ∧ (emptySlots s).radio.grantUp = s.radio.grantUp ∧ (emptySlots s).radio.grantDown = s.radio.grantDown
    ∧ (emptySlots s).radio.grantQuality = s.radio.grantQuality ∧ (emptySlots s).radio.attachTag = s.radio.attachTag
    ∧ (emptySlots s).radio.pauseTold = s.radio.pauseTold ∧ (emptySlots s).radio.capTold = s.radio.capTold
    ∧ (emptySlots s).radio.lowPowerTold = s.radio.lowPowerTold ∧ (emptySlots s).radio.items = s.radio.items
    ∧ (emptySlots s).radio.ldoLast = s.radio.ldoLast ∧ (emptySlots s).radio.receiver = s.radio.receiver
    ∧ (emptySlots s).radio.mpwr = s.radio.mpwr ∧ (emptySlots s).radio.mrst = s.radio.mrst := by simp [emptySlots]

@[simp] theorem refund_frame (slot : Slot) (s : State) :
    (refund slot s).pending = s.pending ∧ (refund slot s).clock = s.clock ∧ (refund slot s).draws = s.draws ∧ (refund slot s).sram = s.sram
    ∧ (refund slot s).pins = s.pins ∧ (refund slot s).loader = s.loader ∧ (refund slot s).bus = s.bus ∧ (refund slot s).ring = s.ring
    ∧ (refund slot s).health = s.health ∧ (refund slot s).path = s.path ∧ (refund slot s).hold = s.hold ∧ (refund slot s).radio = s.radio
    ∧ (refund slot s).power = s.power ∧ (refund slot s).events = s.events ∧ (refund slot s).pacer.pacing = s.pacer.pacing
    ∧ (refund slot s).pacer.grantSeen = s.pacer.grantSeen ∧ (refund slot s).pacer.usageBase = s.pacer.usageBase
    ∧ (refund slot s).pacer.carried = s.pacer.carried ∧ (refund slot s).pacer.allowance = s.pacer.allowance
    ∧ (refund slot s).pacer.downlinkCap = s.pacer.downlinkCap := by simp [refund]

@[simp] theorem setAllowance_frame (a : Allowance) (s : State) :
    (setAllowance a s).pending = s.pending ∧ (setAllowance a s).clock = s.clock ∧ (setAllowance a s).draws = s.draws
    ∧ (setAllowance a s).sram = s.sram ∧ (setAllowance a s).pins = s.pins ∧ (setAllowance a s).loader = s.loader ∧ (setAllowance a s).bus = s.bus
    ∧ (setAllowance a s).ring = s.ring ∧ (setAllowance a s).health = s.health ∧ (setAllowance a s).path = s.path
    ∧ (setAllowance a s).hold = s.hold ∧ (setAllowance a s).power = s.power ∧ (setAllowance a s).events = s.events
    ∧ (setAllowance a s).pacer.credit = s.pacer.credit ∧ (setAllowance a s).pacer.pacing = s.pacer.pacing
    ∧ (setAllowance a s).pacer.refusalPause = s.pacer.refusalPause ∧ (setAllowance a s).pacer.chargeA = s.pacer.chargeA
    ∧ (setAllowance a s).pacer.chargeB = s.pacer.chargeB ∧ (setAllowance a s).pacer.grantSeen = s.pacer.grantSeen
    ∧ (setAllowance a s).pacer.usageBase = s.pacer.usageBase ∧ (setAllowance a s).pacer.carried = s.pacer.carried
    ∧ (setAllowance a s).radio.state = s.radio.state ∧ (setAllowance a s).radio.ready = s.radio.ready
    ∧ (setAllowance a s).radio.failures = s.radio.failures ∧ (setAllowance a s).radio.lastCause = s.radio.lastCause
    ∧ (setAllowance a s).radio.startTimer = s.radio.startTimer ∧ (setAllowance a s).radio.cycleTimer = s.radio.cycleTimer
    ∧ (setAllowance a s).radio.attachTimer = s.radio.attachTimer ∧ (setAllowance a s).radio.backoffTimer = s.radio.backoffTimer
    ∧ (setAllowance a s).radio.silenceTimer = s.radio.silenceTimer ∧ (setAllowance a s).radio.lingerTimer = s.radio.lingerTimer
    ∧ (setAllowance a s).radio.mrstTimer = s.radio.mrstTimer ∧ (setAllowance a s).radio.grantUp = s.radio.grantUp
    ∧ (setAllowance a s).radio.grantDown = s.radio.grantDown ∧ (setAllowance a s).radio.grantQuality = s.radio.grantQuality
    ∧ (setAllowance a s).radio.slotA = s.radio.slotA ∧ (setAllowance a s).radio.slotB = s.radio.slotB
    ∧ (setAllowance a s).radio.unsent = s.radio.unsent ∧ (setAllowance a s).radio.attachTag = s.radio.attachTag
    ∧ (setAllowance a s).radio.pauseTold = s.radio.pauseTold ∧ (setAllowance a s).radio.capTold = s.radio.capTold
    ∧ (setAllowance a s).radio.lowPowerTold = s.radio.lowPowerTold ∧ (setAllowance a s).radio.ldo = s.radio.ldo
    ∧ (setAllowance a s).radio.ldoLast = s.radio.ldoLast ∧ (setAllowance a s).radio.receiver = s.radio.receiver
    ∧ (setAllowance a s).radio.mpwr = s.radio.mpwr ∧ (setAllowance a s).radio.mrst = s.radio.mrst := by unfold setAllowance; (repeat' split) <;> simp

@[simp] theorem countFailure_frame (cause : Nat) (s : State) :
    (countFailure cause s).pending = s.pending ∧ (countFailure cause s).clock = s.clock ∧ (countFailure cause s).draws = s.draws
    ∧ (countFailure cause s).sram = s.sram ∧ (countFailure cause s).pins = s.pins ∧ (countFailure cause s).loader = s.loader
    ∧ (countFailure cause s).bus = s.bus ∧ (countFailure cause s).ring = s.ring ∧ (countFailure cause s).health = s.health
    ∧ (countFailure cause s).path = s.path ∧ (countFailure cause s).hold = s.hold ∧ (countFailure cause s).pacer = s.pacer
    ∧ (countFailure cause s).power = s.power ∧ (countFailure cause s).radio.state = s.radio.state
    ∧ (countFailure cause s).radio.ready = s.radio.ready ∧ (countFailure cause s).radio.startTimer = s.radio.startTimer
    ∧ (countFailure cause s).radio.cycleTimer = s.radio.cycleTimer ∧ (countFailure cause s).radio.backoffTimer = s.radio.backoffTimer
    ∧ (countFailure cause s).radio.silenceTimer = s.radio.silenceTimer ∧ (countFailure cause s).radio.lingerTimer = s.radio.lingerTimer
    ∧ (countFailure cause s).radio.mrstTimer = s.radio.mrstTimer ∧ (countFailure cause s).radio.grantUp = s.radio.grantUp
    ∧ (countFailure cause s).radio.grantDown = s.radio.grantDown ∧ (countFailure cause s).radio.grantQuality = s.radio.grantQuality
    ∧ (countFailure cause s).radio.slotA = s.radio.slotA ∧ (countFailure cause s).radio.slotB = s.radio.slotB
    ∧ (countFailure cause s).radio.unsent = s.radio.unsent ∧ (countFailure cause s).radio.attachTag = s.radio.attachTag
    ∧ (countFailure cause s).radio.pauseTold = s.radio.pauseTold ∧ (countFailure cause s).radio.capTold = s.radio.capTold
    ∧ (countFailure cause s).radio.lowPowerTold = s.radio.lowPowerTold ∧ (countFailure cause s).radio.items = s.radio.items
    ∧ (countFailure cause s).radio.ldo = s.radio.ldo ∧ (countFailure cause s).radio.ldoLast = s.radio.ldoLast
    ∧ (countFailure cause s).radio.receiver = s.radio.receiver ∧ (countFailure cause s).radio.mpwr = s.radio.mpwr
    ∧ (countFailure cause s).radio.mrst = s.radio.mrst ∧ (countFailure cause s).events.evp = s.events.evp
    ∧ (countFailure cause s).events.slotKinds = s.events.slotKinds ∧ (countFailure cause s).events.refreshCount = s.events.refreshCount
    ∧ (countFailure cause s).events.refreshTimer = s.events.refreshTimer ∧ (countFailure cause s).events.pageWriting = s.events.pageWriting
    ∧ (countFailure cause s).events.pageWanted = s.events.pageWanted ∧ (countFailure cause s).events.counters = s.events.counters
    ∧ (countFailure cause s).events.ledMs = s.events.ledMs := by simp only [countFailure]; (repeat' split) <;> simp

@[simp] theorem judgeTxOverrun_frame (s : State) :
    (judgeTxOverrun s).pending = s.pending ∧ (judgeTxOverrun s).clock = s.clock ∧ (judgeTxOverrun s).draws = s.draws
    ∧ (judgeTxOverrun s).sram = s.sram ∧ (judgeTxOverrun s).pins = s.pins ∧ (judgeTxOverrun s).loader = s.loader ∧ (judgeTxOverrun s).bus = s.bus
    ∧ (judgeTxOverrun s).health = s.health ∧ (judgeTxOverrun s).path = s.path ∧ (judgeTxOverrun s).hold = s.hold
    ∧ (judgeTxOverrun s).pacer = s.pacer ∧ (judgeTxOverrun s).radio = s.radio ∧ (judgeTxOverrun s).power = s.power
    ∧ (judgeTxOverrun s).ring.window = s.ring.window ∧ (judgeTxOverrun s).ring.base = s.ring.base
    ∧ (judgeTxOverrun s).ring.partTxc = s.ring.partTxc ∧ (judgeTxOverrun s).ring.readMark = s.ring.readMark
    ∧ (judgeTxOverrun s).ring.descriptorRead = s.ring.descriptorRead ∧ (judgeTxOverrun s).ring.takes = s.ring.takes
    ∧ (judgeTxOverrun s).ring.fence = s.ring.fence ∧ (judgeTxOverrun s).ring.txCheckDue = s.ring.txCheckDue
    ∧ (judgeTxOverrun s).ring.scanRunning = s.ring.scanRunning ∧ (judgeTxOverrun s).ring.scanMark = s.ring.scanMark
    ∧ (judgeTxOverrun s).ring.scanRead = s.ring.scanRead ∧ (judgeTxOverrun s).ring.txForcing = s.ring.txForcing
    ∧ (judgeTxOverrun s).ring.rxForcing = s.ring.rxForcing ∧ (judgeTxOverrun s).ring.handBackAsked = s.ring.handBackAsked
    ∧ (judgeTxOverrun s).ring.fillCursor = s.ring.fillCursor ∧ (judgeTxOverrun s).ring.partRxf = s.ring.partRxf
    ∧ (judgeTxOverrun s).ring.delivery = s.ring.delivery ∧ (judgeTxOverrun s).ring.descriptorHeld = s.ring.descriptorHeld
    ∧ (judgeTxOverrun s).ring.rxOverrun = s.ring.rxOverrun ∧ (judgeTxOverrun s).ring.rxCheckDue = s.ring.rxCheckDue
    ∧ (judgeTxOverrun s).events.evp = s.events.evp ∧ (judgeTxOverrun s).events.slotKinds = s.events.slotKinds
    ∧ (judgeTxOverrun s).events.refreshCount = s.events.refreshCount ∧ (judgeTxOverrun s).events.refreshTimer = s.events.refreshTimer
    ∧ (judgeTxOverrun s).events.pageWriting = s.events.pageWriting ∧ (judgeTxOverrun s).events.pageWanted = s.events.pageWanted
    ∧ (judgeTxOverrun s).events.counters = s.events.counters ∧ (judgeTxOverrun s).events.ledMs = s.events.ledMs := by unfold judgeTxOverrun; (repeat' split) <;> simp

@[simp] theorem judgeRxOverrun_frame (s : State) :
    (judgeRxOverrun s).pending = s.pending ∧ (judgeRxOverrun s).clock = s.clock ∧ (judgeRxOverrun s).draws = s.draws
    ∧ (judgeRxOverrun s).sram = s.sram ∧ (judgeRxOverrun s).pins = s.pins ∧ (judgeRxOverrun s).loader = s.loader ∧ (judgeRxOverrun s).bus = s.bus
    ∧ (judgeRxOverrun s).health = s.health ∧ (judgeRxOverrun s).path = s.path ∧ (judgeRxOverrun s).hold = s.hold
    ∧ (judgeRxOverrun s).pacer = s.pacer ∧ (judgeRxOverrun s).radio = s.radio ∧ (judgeRxOverrun s).power = s.power
    ∧ (judgeRxOverrun s).ring.window = s.ring.window ∧ (judgeRxOverrun s).ring.base = s.ring.base
    ∧ (judgeRxOverrun s).ring.partTxc = s.ring.partTxc ∧ (judgeRxOverrun s).ring.readMark = s.ring.readMark
    ∧ (judgeRxOverrun s).ring.descriptorRead = s.ring.descriptorRead ∧ (judgeRxOverrun s).ring.takes = s.ring.takes
    ∧ (judgeRxOverrun s).ring.fence = s.ring.fence ∧ (judgeRxOverrun s).ring.overrun = s.ring.overrun
    ∧ (judgeRxOverrun s).ring.txCheckDue = s.ring.txCheckDue ∧ (judgeRxOverrun s).ring.scanRunning = s.ring.scanRunning
    ∧ (judgeRxOverrun s).ring.scanMark = s.ring.scanMark ∧ (judgeRxOverrun s).ring.scanRead = s.ring.scanRead
    ∧ (judgeRxOverrun s).ring.txForcing = s.ring.txForcing ∧ (judgeRxOverrun s).ring.rxForcing = s.ring.rxForcing
    ∧ (judgeRxOverrun s).ring.handBackAsked = s.ring.handBackAsked ∧ (judgeRxOverrun s).ring.fillCursor = s.ring.fillCursor
    ∧ (judgeRxOverrun s).ring.partRxf = s.ring.partRxf ∧ (judgeRxOverrun s).ring.delivery = s.ring.delivery
    ∧ (judgeRxOverrun s).ring.descriptorHeld = s.ring.descriptorHeld ∧ (judgeRxOverrun s).ring.rxCheckDue = s.ring.rxCheckDue
    ∧ (judgeRxOverrun s).events.evp = s.events.evp ∧ (judgeRxOverrun s).events.slotKinds = s.events.slotKinds
    ∧ (judgeRxOverrun s).events.refreshCount = s.events.refreshCount ∧ (judgeRxOverrun s).events.refreshTimer = s.events.refreshTimer
    ∧ (judgeRxOverrun s).events.pageWriting = s.events.pageWriting ∧ (judgeRxOverrun s).events.pageWanted = s.events.pageWanted
    ∧ (judgeRxOverrun s).events.counters = s.events.counters ∧ (judgeRxOverrun s).events.ledMs = s.events.ledMs := by unfold judgeRxOverrun; (repeat' split) <;> simp

@[simp] theorem readAhead_frame (s : State) :
    (readAhead s).pending = s.pending ∧ (readAhead s).clock = s.clock ∧ (readAhead s).draws = s.draws ∧ (readAhead s).sram = s.sram
    ∧ (readAhead s).pins = s.pins ∧ (readAhead s).loader = s.loader ∧ (readAhead s).health = s.health ∧ (readAhead s).path = s.path
    ∧ (readAhead s).hold = s.hold ∧ (readAhead s).pacer = s.pacer ∧ (readAhead s).radio = s.radio ∧ (readAhead s).power = s.power
    ∧ (readAhead s).events = s.events ∧ (readAhead s).bus.shadows = s.bus.shadows ∧ (readAhead s).bus.txHorizon = s.bus.txHorizon
    ∧ (readAhead s).bus.rxHorizon = s.bus.rxHorizon ∧ (readAhead s).bus.fixedH = s.bus.fixedH ∧ (readAhead s).bus.fixedG = s.bus.fixedG
    ∧ (readAhead s).bus.uplinkView = s.bus.uplinkView ∧ (readAhead s).bus.receiveView = s.bus.receiveView
    ∧ (readAhead s).bus.uplinkViewValue = s.bus.uplinkViewValue ∧ (readAhead s).bus.receiveViewValue = s.bus.receiveViewValue
    ∧ (readAhead s).bus.txGuard = s.bus.txGuard ∧ (readAhead s).bus.rxGuard = s.bus.rxGuard ∧ (readAhead s).bus.queue = s.bus.queue
    ∧ (readAhead s).bus.waitCount = s.bus.waitCount ∧ (readAhead s).bus.gatewayData = s.bus.gatewayData
    ∧ (readAhead s).ring.window = s.ring.window ∧ (readAhead s).ring.base = s.ring.base ∧ (readAhead s).ring.partTxc = s.ring.partTxc
    ∧ (readAhead s).ring.readMark = s.ring.readMark ∧ (readAhead s).ring.takes = s.ring.takes ∧ (readAhead s).ring.fence = s.ring.fence
    ∧ (readAhead s).ring.overrun = s.ring.overrun ∧ (readAhead s).ring.txCheckDue = s.ring.txCheckDue
    ∧ (readAhead s).ring.scanRunning = s.ring.scanRunning ∧ (readAhead s).ring.scanMark = s.ring.scanMark
    ∧ (readAhead s).ring.scanRead = s.ring.scanRead ∧ (readAhead s).ring.txForcing = s.ring.txForcing
    ∧ (readAhead s).ring.rxForcing = s.ring.rxForcing ∧ (readAhead s).ring.handBackAsked = s.ring.handBackAsked
    ∧ (readAhead s).ring.fillCursor = s.ring.fillCursor ∧ (readAhead s).ring.partRxf = s.ring.partRxf
    ∧ (readAhead s).ring.delivery = s.ring.delivery ∧ (readAhead s).ring.descriptorHeld = s.ring.descriptorHeld
    ∧ (readAhead s).ring.rxOverrun = s.ring.rxOverrun ∧ (readAhead s).ring.rxCheckDue = s.ring.rxCheckDue := by simp only [readAhead]; (repeat' split) <;> simp

@[simp] theorem tryAdvance_frame (s : State) :
    (tryAdvance s).pending = s.pending ∧ (tryAdvance s).clock = s.clock ∧ (tryAdvance s).draws = s.draws ∧ (tryAdvance s).sram = s.sram
    ∧ (tryAdvance s).pins = s.pins ∧ (tryAdvance s).loader = s.loader ∧ (tryAdvance s).ring = s.ring ∧ (tryAdvance s).health = s.health
    ∧ (tryAdvance s).path = s.path ∧ (tryAdvance s).hold = s.hold ∧ (tryAdvance s).pacer = s.pacer ∧ (tryAdvance s).radio = s.radio
    ∧ (tryAdvance s).power = s.power ∧ (tryAdvance s).events = s.events ∧ (tryAdvance s).bus.shadows = s.bus.shadows
    ∧ (tryAdvance s).bus.txHorizon = s.bus.txHorizon ∧ (tryAdvance s).bus.rxHorizon = s.bus.rxHorizon ∧ (tryAdvance s).bus.fixedH = s.bus.fixedH
    ∧ (tryAdvance s).bus.fixedG = s.bus.fixedG ∧ (tryAdvance s).bus.uplinkView = s.bus.uplinkView
    ∧ (tryAdvance s).bus.receiveView = s.bus.receiveView ∧ (tryAdvance s).bus.uplinkViewValue = s.bus.uplinkViewValue
    ∧ (tryAdvance s).bus.receiveViewValue = s.bus.receiveViewValue ∧ (tryAdvance s).bus.txGuard = s.bus.txGuard
    ∧ (tryAdvance s).bus.rxGuard = s.bus.rxGuard ∧ (tryAdvance s).bus.queue = s.bus.queue ∧ (tryAdvance s).bus.waitCount = s.bus.waitCount
    ∧ (tryAdvance s).bus.gatewayData = s.bus.gatewayData := by unfold tryAdvance; (repeat' split) <;> simp

@[simp] theorem fixFence_frame (s : State) :
    (fixFence s).pending = s.pending ∧ (fixFence s).clock = s.clock ∧ (fixFence s).draws = s.draws ∧ (fixFence s).sram = s.sram
    ∧ (fixFence s).pins = s.pins ∧ (fixFence s).loader = s.loader ∧ (fixFence s).bus = s.bus ∧ (fixFence s).health = s.health
    ∧ (fixFence s).path = s.path ∧ (fixFence s).hold = s.hold ∧ (fixFence s).pacer = s.pacer ∧ (fixFence s).radio = s.radio
    ∧ (fixFence s).power = s.power ∧ (fixFence s).events = s.events ∧ (fixFence s).ring.base = s.ring.base
    ∧ (fixFence s).ring.partTxc = s.ring.partTxc ∧ (fixFence s).ring.takes = s.ring.takes ∧ (fixFence s).ring.overrun = s.ring.overrun
    ∧ (fixFence s).ring.txCheckDue = s.ring.txCheckDue ∧ (fixFence s).ring.scanRunning = s.ring.scanRunning
    ∧ (fixFence s).ring.scanMark = s.ring.scanMark ∧ (fixFence s).ring.scanRead = s.ring.scanRead
    ∧ (fixFence s).ring.txForcing = s.ring.txForcing ∧ (fixFence s).ring.rxForcing = s.ring.rxForcing
    ∧ (fixFence s).ring.handBackAsked = s.ring.handBackAsked ∧ (fixFence s).ring.fillCursor = s.ring.fillCursor
    ∧ (fixFence s).ring.partRxf = s.ring.partRxf ∧ (fixFence s).ring.delivery = s.ring.delivery
    ∧ (fixFence s).ring.descriptorHeld = s.ring.descriptorHeld ∧ (fixFence s).ring.rxOverrun = s.ring.rxOverrun
    ∧ (fixFence s).ring.rxCheckDue = s.ring.rxCheckDue := by simp [fixFence]

@[simp] theorem dropPending_frame (s : State) :
    (dropPending s).pending = s.pending ∧ (dropPending s).clock = s.clock ∧ (dropPending s).draws = s.draws ∧ (dropPending s).sram = s.sram
    ∧ (dropPending s).pins = s.pins ∧ (dropPending s).loader = s.loader ∧ (dropPending s).health = s.health ∧ (dropPending s).path = s.path
    ∧ (dropPending s).hold = s.hold ∧ (dropPending s).pacer = s.pacer ∧ (dropPending s).radio = s.radio ∧ (dropPending s).power = s.power
    ∧ (dropPending s).events = s.events ∧ (dropPending s).bus.shadows = s.bus.shadows ∧ (dropPending s).bus.txHorizon = s.bus.txHorizon
    ∧ (dropPending s).bus.rxHorizon = s.bus.rxHorizon ∧ (dropPending s).bus.fixedH = s.bus.fixedH ∧ (dropPending s).bus.fixedG = s.bus.fixedG
    ∧ (dropPending s).bus.uplinkView = s.bus.uplinkView ∧ (dropPending s).bus.receiveView = s.bus.receiveView
    ∧ (dropPending s).bus.uplinkViewValue = s.bus.uplinkViewValue ∧ (dropPending s).bus.receiveViewValue = s.bus.receiveViewValue
    ∧ (dropPending s).bus.txGuard = s.bus.txGuard ∧ (dropPending s).bus.rxGuard = s.bus.rxGuard ∧ (dropPending s).bus.queue = s.bus.queue
    ∧ (dropPending s).bus.waitCount = s.bus.waitCount ∧ (dropPending s).bus.gatewayData = s.bus.gatewayData
    ∧ (dropPending s).ring.base = s.ring.base ∧ (dropPending s).ring.partTxc = s.ring.partTxc ∧ (dropPending s).ring.readMark = s.ring.readMark
    ∧ (dropPending s).ring.descriptorRead = s.ring.descriptorRead ∧ (dropPending s).ring.takes = s.ring.takes
    ∧ (dropPending s).ring.fence = s.ring.fence ∧ (dropPending s).ring.overrun = s.ring.overrun
    ∧ (dropPending s).ring.txCheckDue = s.ring.txCheckDue ∧ (dropPending s).ring.scanRunning = s.ring.scanRunning
    ∧ (dropPending s).ring.scanMark = s.ring.scanMark ∧ (dropPending s).ring.scanRead = s.ring.scanRead
    ∧ (dropPending s).ring.txForcing = s.ring.txForcing ∧ (dropPending s).ring.rxForcing = s.ring.rxForcing
    ∧ (dropPending s).ring.handBackAsked = s.ring.handBackAsked ∧ (dropPending s).ring.fillCursor = s.ring.fillCursor
    ∧ (dropPending s).ring.partRxf = s.ring.partRxf ∧ (dropPending s).ring.delivery = s.ring.delivery
    ∧ (dropPending s).ring.descriptorHeld = s.ring.descriptorHeld ∧ (dropPending s).ring.rxOverrun = s.ring.rxOverrun
    ∧ (dropPending s).ring.rxCheckDue = s.ring.rxCheckDue := by simp [dropPending]

@[simp] theorem forceTransmit_frame (s : State) :
    (forceTransmit s).pending = s.pending ∧ (forceTransmit s).clock = s.clock ∧ (forceTransmit s).draws = s.draws
    ∧ (forceTransmit s).sram = s.sram ∧ (forceTransmit s).pins = s.pins ∧ (forceTransmit s).loader = s.loader
    ∧ (forceTransmit s).health = s.health ∧ (forceTransmit s).path = s.path ∧ (forceTransmit s).hold = s.hold ∧ (forceTransmit s).pacer = s.pacer
    ∧ (forceTransmit s).radio = s.radio ∧ (forceTransmit s).power = s.power ∧ (forceTransmit s).events = s.events
    ∧ (forceTransmit s).bus.shadows = s.bus.shadows ∧ (forceTransmit s).bus.txHorizon = s.bus.txHorizon
    ∧ (forceTransmit s).bus.rxHorizon = s.bus.rxHorizon ∧ (forceTransmit s).bus.fixedH = s.bus.fixedH
    ∧ (forceTransmit s).bus.fixedG = s.bus.fixedG ∧ (forceTransmit s).bus.uplinkView = s.bus.uplinkView
    ∧ (forceTransmit s).bus.receiveView = s.bus.receiveView ∧ (forceTransmit s).bus.uplinkViewValue = s.bus.uplinkViewValue
    ∧ (forceTransmit s).bus.receiveViewValue = s.bus.receiveViewValue ∧ (forceTransmit s).bus.rxGuard = s.bus.rxGuard
    ∧ (forceTransmit s).bus.queue = s.bus.queue ∧ (forceTransmit s).bus.waitCount = s.bus.waitCount
    ∧ (forceTransmit s).bus.gatewayData = s.bus.gatewayData ∧ (forceTransmit s).ring.window = s.ring.window
    ∧ (forceTransmit s).ring.base = s.ring.base ∧ (forceTransmit s).ring.partTxc = s.ring.partTxc
    ∧ (forceTransmit s).ring.readMark = s.ring.readMark ∧ (forceTransmit s).ring.descriptorRead = s.ring.descriptorRead
    ∧ (forceTransmit s).ring.takes = s.ring.takes ∧ (forceTransmit s).ring.fence = s.ring.fence ∧ (forceTransmit s).ring.overrun = s.ring.overrun
    ∧ (forceTransmit s).ring.txCheckDue = s.ring.txCheckDue ∧ (forceTransmit s).ring.scanRunning = s.ring.scanRunning
    ∧ (forceTransmit s).ring.scanMark = s.ring.scanMark ∧ (forceTransmit s).ring.scanRead = s.ring.scanRead
    ∧ (forceTransmit s).ring.rxForcing = s.ring.rxForcing ∧ (forceTransmit s).ring.handBackAsked = s.ring.handBackAsked
    ∧ (forceTransmit s).ring.fillCursor = s.ring.fillCursor ∧ (forceTransmit s).ring.partRxf = s.ring.partRxf
    ∧ (forceTransmit s).ring.delivery = s.ring.delivery ∧ (forceTransmit s).ring.descriptorHeld = s.ring.descriptorHeld
    ∧ (forceTransmit s).ring.rxOverrun = s.ring.rxOverrun ∧ (forceTransmit s).ring.rxCheckDue = s.ring.rxCheckDue := by simp [forceTransmit]

@[simp] theorem forceReceive_frame (s : State) :
    (forceReceive s).pending = s.pending ∧ (forceReceive s).clock = s.clock ∧ (forceReceive s).draws = s.draws ∧ (forceReceive s).sram = s.sram
    ∧ (forceReceive s).pins = s.pins ∧ (forceReceive s).loader = s.loader ∧ (forceReceive s).health = s.health ∧ (forceReceive s).path = s.path
    ∧ (forceReceive s).hold = s.hold ∧ (forceReceive s).pacer = s.pacer ∧ (forceReceive s).radio = s.radio ∧ (forceReceive s).power = s.power
    ∧ (forceReceive s).events = s.events ∧ (forceReceive s).bus.shadows = s.bus.shadows ∧ (forceReceive s).bus.txHorizon = s.bus.txHorizon
    ∧ (forceReceive s).bus.rxHorizon = s.bus.rxHorizon ∧ (forceReceive s).bus.fixedH = s.bus.fixedH ∧ (forceReceive s).bus.fixedG = s.bus.fixedG
    ∧ (forceReceive s).bus.uplinkView = s.bus.uplinkView ∧ (forceReceive s).bus.receiveView = s.bus.receiveView
    ∧ (forceReceive s).bus.uplinkViewValue = s.bus.uplinkViewValue ∧ (forceReceive s).bus.receiveViewValue = s.bus.receiveViewValue
    ∧ (forceReceive s).bus.txGuard = s.bus.txGuard ∧ (forceReceive s).bus.queue = s.bus.queue ∧ (forceReceive s).bus.waitCount = s.bus.waitCount
    ∧ (forceReceive s).bus.gatewayData = s.bus.gatewayData ∧ (forceReceive s).ring.window = s.ring.window
    ∧ (forceReceive s).ring.base = s.ring.base ∧ (forceReceive s).ring.partTxc = s.ring.partTxc
    ∧ (forceReceive s).ring.readMark = s.ring.readMark ∧ (forceReceive s).ring.descriptorRead = s.ring.descriptorRead
    ∧ (forceReceive s).ring.takes = s.ring.takes ∧ (forceReceive s).ring.fence = s.ring.fence ∧ (forceReceive s).ring.overrun = s.ring.overrun
    ∧ (forceReceive s).ring.txCheckDue = s.ring.txCheckDue ∧ (forceReceive s).ring.scanRunning = s.ring.scanRunning
    ∧ (forceReceive s).ring.scanMark = s.ring.scanMark ∧ (forceReceive s).ring.scanRead = s.ring.scanRead
    ∧ (forceReceive s).ring.txForcing = s.ring.txForcing ∧ (forceReceive s).ring.handBackAsked = s.ring.handBackAsked
    ∧ (forceReceive s).ring.fillCursor = s.ring.fillCursor ∧ (forceReceive s).ring.partRxf = s.ring.partRxf
    ∧ (forceReceive s).ring.delivery = s.ring.delivery ∧ (forceReceive s).ring.descriptorHeld = s.ring.descriptorHeld
    ∧ (forceReceive s).ring.rxOverrun = s.ring.rxOverrun ∧ (forceReceive s).ring.rxCheckDue = s.ring.rxCheckDue := by simp [forceReceive]

@[simp] theorem moveScanMark_frame (s : State) :
    (moveScanMark s).pending = s.pending ∧ (moveScanMark s).clock = s.clock ∧ (moveScanMark s).draws = s.draws ∧ (moveScanMark s).sram = s.sram
    ∧ (moveScanMark s).pins = s.pins ∧ (moveScanMark s).loader = s.loader ∧ (moveScanMark s).health = s.health ∧ (moveScanMark s).path = s.path
    ∧ (moveScanMark s).hold = s.hold ∧ (moveScanMark s).pacer = s.pacer ∧ (moveScanMark s).radio = s.radio ∧ (moveScanMark s).power = s.power
    ∧ (moveScanMark s).events = s.events ∧ (moveScanMark s).bus.shadows = s.bus.shadows ∧ (moveScanMark s).bus.txHorizon = s.bus.txHorizon
    ∧ (moveScanMark s).bus.rxHorizon = s.bus.rxHorizon ∧ (moveScanMark s).bus.fixedH = s.bus.fixedH ∧ (moveScanMark s).bus.fixedG = s.bus.fixedG
    ∧ (moveScanMark s).bus.uplinkView = s.bus.uplinkView ∧ (moveScanMark s).bus.receiveView = s.bus.receiveView
    ∧ (moveScanMark s).bus.uplinkViewValue = s.bus.uplinkViewValue ∧ (moveScanMark s).bus.receiveViewValue = s.bus.receiveViewValue
    ∧ (moveScanMark s).bus.txGuard = s.bus.txGuard ∧ (moveScanMark s).bus.rxGuard = s.bus.rxGuard ∧ (moveScanMark s).bus.queue = s.bus.queue
    ∧ (moveScanMark s).bus.waitCount = s.bus.waitCount ∧ (moveScanMark s).bus.gatewayData = s.bus.gatewayData
    ∧ (moveScanMark s).ring.window = s.ring.window ∧ (moveScanMark s).ring.base = s.ring.base ∧ (moveScanMark s).ring.partTxc = s.ring.partTxc
    ∧ (moveScanMark s).ring.readMark = s.ring.readMark ∧ (moveScanMark s).ring.descriptorRead = s.ring.descriptorRead
    ∧ (moveScanMark s).ring.takes = s.ring.takes ∧ (moveScanMark s).ring.fence = s.ring.fence ∧ (moveScanMark s).ring.overrun = s.ring.overrun
    ∧ (moveScanMark s).ring.txCheckDue = s.ring.txCheckDue ∧ (moveScanMark s).ring.scanRunning = s.ring.scanRunning
    ∧ (moveScanMark s).ring.txForcing = s.ring.txForcing ∧ (moveScanMark s).ring.rxForcing = s.ring.rxForcing
    ∧ (moveScanMark s).ring.handBackAsked = s.ring.handBackAsked ∧ (moveScanMark s).ring.fillCursor = s.ring.fillCursor
    ∧ (moveScanMark s).ring.partRxf = s.ring.partRxf ∧ (moveScanMark s).ring.delivery = s.ring.delivery
    ∧ (moveScanMark s).ring.descriptorHeld = s.ring.descriptorHeld ∧ (moveScanMark s).ring.rxOverrun = s.ring.rxOverrun
    ∧ (moveScanMark s).ring.rxCheckDue = s.ring.rxCheckDue := by simp [moveScanMark]

@[simp] theorem stopScan_frame (s : State) :
    (stopScan s).pending = s.pending ∧ (stopScan s).clock = s.clock ∧ (stopScan s).draws = s.draws ∧ (stopScan s).sram = s.sram
    ∧ (stopScan s).pins = s.pins ∧ (stopScan s).loader = s.loader ∧ (stopScan s).health = s.health ∧ (stopScan s).path = s.path
    ∧ (stopScan s).hold = s.hold ∧ (stopScan s).pacer = s.pacer ∧ (stopScan s).radio = s.radio ∧ (stopScan s).power = s.power
    ∧ (stopScan s).events = s.events ∧ (stopScan s).bus.shadows = s.bus.shadows ∧ (stopScan s).bus.txHorizon = s.bus.txHorizon
    ∧ (stopScan s).bus.rxHorizon = s.bus.rxHorizon ∧ (stopScan s).bus.fixedH = s.bus.fixedH ∧ (stopScan s).bus.fixedG = s.bus.fixedG
    ∧ (stopScan s).bus.uplinkView = s.bus.uplinkView ∧ (stopScan s).bus.receiveView = s.bus.receiveView
    ∧ (stopScan s).bus.uplinkViewValue = s.bus.uplinkViewValue ∧ (stopScan s).bus.receiveViewValue = s.bus.receiveViewValue
    ∧ (stopScan s).bus.txGuard = s.bus.txGuard ∧ (stopScan s).bus.rxGuard = s.bus.rxGuard ∧ (stopScan s).bus.queue = s.bus.queue
    ∧ (stopScan s).bus.waitCount = s.bus.waitCount ∧ (stopScan s).bus.gatewayData = s.bus.gatewayData ∧ (stopScan s).ring.window = s.ring.window
    ∧ (stopScan s).ring.base = s.ring.base ∧ (stopScan s).ring.partTxc = s.ring.partTxc ∧ (stopScan s).ring.readMark = s.ring.readMark
    ∧ (stopScan s).ring.descriptorRead = s.ring.descriptorRead ∧ (stopScan s).ring.takes = s.ring.takes ∧ (stopScan s).ring.fence = s.ring.fence
    ∧ (stopScan s).ring.overrun = s.ring.overrun ∧ (stopScan s).ring.txCheckDue = s.ring.txCheckDue
    ∧ (stopScan s).ring.txForcing = s.ring.txForcing ∧ (stopScan s).ring.rxForcing = s.ring.rxForcing
    ∧ (stopScan s).ring.handBackAsked = s.ring.handBackAsked ∧ (stopScan s).ring.fillCursor = s.ring.fillCursor
    ∧ (stopScan s).ring.partRxf = s.ring.partRxf ∧ (stopScan s).ring.delivery = s.ring.delivery
    ∧ (stopScan s).ring.descriptorHeld = s.ring.descriptorHeld ∧ (stopScan s).ring.rxOverrun = s.ring.rxOverrun
    ∧ (stopScan s).ring.rxCheckDue = s.ring.rxCheckDue := by simp [stopScan]

@[simp] theorem scanNext_frame (s : State) :
    (scanNext s).pending = s.pending ∧ (scanNext s).clock = s.clock ∧ (scanNext s).draws = s.draws ∧ (scanNext s).sram = s.sram
    ∧ (scanNext s).pins = s.pins ∧ (scanNext s).loader = s.loader ∧ (scanNext s).health = s.health ∧ (scanNext s).path = s.path
    ∧ (scanNext s).hold = s.hold ∧ (scanNext s).pacer = s.pacer ∧ (scanNext s).radio = s.radio ∧ (scanNext s).power = s.power
    ∧ (scanNext s).events = s.events ∧ (scanNext s).bus.shadows = s.bus.shadows ∧ (scanNext s).bus.txHorizon = s.bus.txHorizon
    ∧ (scanNext s).bus.rxHorizon = s.bus.rxHorizon ∧ (scanNext s).bus.fixedH = s.bus.fixedH ∧ (scanNext s).bus.fixedG = s.bus.fixedG
    ∧ (scanNext s).bus.uplinkView = s.bus.uplinkView ∧ (scanNext s).bus.receiveView = s.bus.receiveView
    ∧ (scanNext s).bus.uplinkViewValue = s.bus.uplinkViewValue ∧ (scanNext s).bus.receiveViewValue = s.bus.receiveViewValue
    ∧ (scanNext s).bus.txGuard = s.bus.txGuard ∧ (scanNext s).bus.rxGuard = s.bus.rxGuard ∧ (scanNext s).bus.queue = s.bus.queue
    ∧ (scanNext s).bus.waitCount = s.bus.waitCount ∧ (scanNext s).bus.gatewayData = s.bus.gatewayData ∧ (scanNext s).ring.window = s.ring.window
    ∧ (scanNext s).ring.base = s.ring.base ∧ (scanNext s).ring.partTxc = s.ring.partTxc ∧ (scanNext s).ring.readMark = s.ring.readMark
    ∧ (scanNext s).ring.descriptorRead = s.ring.descriptorRead ∧ (scanNext s).ring.takes = s.ring.takes ∧ (scanNext s).ring.fence = s.ring.fence
    ∧ (scanNext s).ring.overrun = s.ring.overrun ∧ (scanNext s).ring.txCheckDue = s.ring.txCheckDue
    ∧ (scanNext s).ring.scanRunning = s.ring.scanRunning ∧ (scanNext s).ring.scanMark = s.ring.scanMark
    ∧ (scanNext s).ring.txForcing = s.ring.txForcing ∧ (scanNext s).ring.rxForcing = s.ring.rxForcing
    ∧ (scanNext s).ring.handBackAsked = s.ring.handBackAsked ∧ (scanNext s).ring.fillCursor = s.ring.fillCursor
    ∧ (scanNext s).ring.partRxf = s.ring.partRxf ∧ (scanNext s).ring.delivery = s.ring.delivery
    ∧ (scanNext s).ring.descriptorHeld = s.ring.descriptorHeld ∧ (scanNext s).ring.rxOverrun = s.ring.rxOverrun
    ∧ (scanNext s).ring.rxCheckDue = s.ring.rxCheckDue := by simp only [scanNext]; (repeat' split) <;> simp

@[simp] theorem changePath_frame (entered : PathState) (cause : PathCause) (s : State) :
    (changePath entered cause s).pending = s.pending ∧ (changePath entered cause s).clock = s.clock
    ∧ (changePath entered cause s).draws = s.draws ∧ (changePath entered cause s).sram = s.sram ∧ (changePath entered cause s).pins = s.pins
    ∧ (changePath entered cause s).loader = s.loader ∧ (changePath entered cause s).bus = s.bus ∧ (changePath entered cause s).ring = s.ring
    ∧ (changePath entered cause s).health = s.health ∧ (changePath entered cause s).hold = s.hold ∧ (changePath entered cause s).pacer = s.pacer
    ∧ (changePath entered cause s).radio = s.radio ∧ (changePath entered cause s).power = s.power
    ∧ (changePath entered cause s).path.phase = s.path.phase ∧ (changePath entered cause s).path.dwellD = s.path.dwellD
    ∧ (changePath entered cause s).path.dwell = s.path.dwell ∧ (changePath entered cause s).path.refallTimer = s.path.refallTimer
    ∧ (changePath entered cause s).path.refallOpen = s.path.refallOpen ∧ (changePath entered cause s).path.releaseTimer = s.path.releaseTimer
    ∧ (changePath entered cause s).path.txReleased = s.path.txReleased ∧ (changePath entered cause s).path.rxReleased = s.path.rxReleased
    ∧ (changePath entered cause s).path.drainTimer = s.path.drainTimer ∧ (changePath entered cause s).path.emergency = s.path.emergency
    ∧ (changePath entered cause s).path.priorityTimer = s.path.priorityTimer ∧ (changePath entered cause s).path.radioWanted = s.path.radioWanted
    ∧ (changePath entered cause s).path.returnPause = s.path.returnPause ∧ (changePath entered cause s).path.recorded = s.path.recorded
    ∧ (changePath entered cause s).events.evp = s.events.evp ∧ (changePath entered cause s).events.slotKinds = s.events.slotKinds
    ∧ (changePath entered cause s).events.refreshCount = s.events.refreshCount
    ∧ (changePath entered cause s).events.refreshTimer = s.events.refreshTimer
    ∧ (changePath entered cause s).events.pageWriting = s.events.pageWriting ∧ (changePath entered cause s).events.counters = s.events.counters
    ∧ (changePath entered cause s).events.ledMs = s.events.ledMs := by simp [changePath]

@[simp] theorem setTxReleased_frame (s : State) :
    (setTxReleased s).pending = s.pending ∧ (setTxReleased s).clock = s.clock ∧ (setTxReleased s).draws = s.draws
    ∧ (setTxReleased s).sram = s.sram ∧ (setTxReleased s).pins = s.pins ∧ (setTxReleased s).loader = s.loader
    ∧ (setTxReleased s).health = s.health ∧ (setTxReleased s).hold = s.hold ∧ (setTxReleased s).pacer = s.pacer
    ∧ (setTxReleased s).radio = s.radio ∧ (setTxReleased s).power = s.power ∧ (setTxReleased s).events = s.events
    ∧ (setTxReleased s).bus.shadows = s.bus.shadows ∧ (setTxReleased s).bus.txHorizon = s.bus.txHorizon
    ∧ (setTxReleased s).bus.rxHorizon = s.bus.rxHorizon ∧ (setTxReleased s).bus.fixedH = s.bus.fixedH
    ∧ (setTxReleased s).bus.fixedG = s.bus.fixedG ∧ (setTxReleased s).bus.receiveView = s.bus.receiveView
    ∧ (setTxReleased s).bus.receiveViewValue = s.bus.receiveViewValue ∧ (setTxReleased s).bus.txGuard = s.bus.txGuard
    ∧ (setTxReleased s).bus.rxGuard = s.bus.rxGuard ∧ (setTxReleased s).bus.queue = s.bus.queue ∧ (setTxReleased s).bus.waiting = s.bus.waiting
    ∧ (setTxReleased s).bus.waitCount = s.bus.waitCount ∧ (setTxReleased s).bus.gatewayData = s.bus.gatewayData
    ∧ (setTxReleased s).ring.window = s.ring.window ∧ (setTxReleased s).ring.readMark = s.ring.readMark
    ∧ (setTxReleased s).ring.descriptorRead = s.ring.descriptorRead ∧ (setTxReleased s).ring.takes = s.ring.takes
    ∧ (setTxReleased s).ring.fence = s.ring.fence ∧ (setTxReleased s).ring.overrun = s.ring.overrun
    ∧ (setTxReleased s).ring.txCheckDue = s.ring.txCheckDue ∧ (setTxReleased s).ring.scanRunning = s.ring.scanRunning
    ∧ (setTxReleased s).ring.scanMark = s.ring.scanMark ∧ (setTxReleased s).ring.scanRead = s.ring.scanRead
    ∧ (setTxReleased s).ring.rxForcing = s.ring.rxForcing ∧ (setTxReleased s).ring.handBackAsked = s.ring.handBackAsked
    ∧ (setTxReleased s).ring.fillCursor = s.ring.fillCursor ∧ (setTxReleased s).ring.partRxf = s.ring.partRxf
    ∧ (setTxReleased s).ring.delivery = s.ring.delivery ∧ (setTxReleased s).ring.descriptorHeld = s.ring.descriptorHeld
    ∧ (setTxReleased s).ring.rxOverrun = s.ring.rxOverrun ∧ (setTxReleased s).ring.rxCheckDue = s.ring.rxCheckDue
    ∧ (setTxReleased s).path.path = s.path.path ∧ (setTxReleased s).path.phase = s.path.phase ∧ (setTxReleased s).path.dwellD = s.path.dwellD
    ∧ (setTxReleased s).path.dwell = s.path.dwell ∧ (setTxReleased s).path.refallTimer = s.path.refallTimer
    ∧ (setTxReleased s).path.refallOpen = s.path.refallOpen ∧ (setTxReleased s).path.rxReleased = s.path.rxReleased
    ∧ (setTxReleased s).path.drainTimer = s.path.drainTimer ∧ (setTxReleased s).path.emergency = s.path.emergency
    ∧ (setTxReleased s).path.priorityTimer = s.path.priorityTimer ∧ (setTxReleased s).path.radioWanted = s.path.radioWanted
    ∧ (setTxReleased s).path.returnPause = s.path.returnPause ∧ (setTxReleased s).path.recorded = s.path.recorded := by simp [setTxReleased]

@[simp] theorem setRxReleased_frame (s : State) :
    (setRxReleased s).pending = s.pending ∧ (setRxReleased s).clock = s.clock ∧ (setRxReleased s).draws = s.draws
    ∧ (setRxReleased s).sram = s.sram ∧ (setRxReleased s).pins = s.pins ∧ (setRxReleased s).loader = s.loader
    ∧ (setRxReleased s).health = s.health ∧ (setRxReleased s).hold = s.hold ∧ (setRxReleased s).pacer = s.pacer
    ∧ (setRxReleased s).radio = s.radio ∧ (setRxReleased s).power = s.power ∧ (setRxReleased s).events = s.events
    ∧ (setRxReleased s).bus.shadows = s.bus.shadows ∧ (setRxReleased s).bus.txHorizon = s.bus.txHorizon
    ∧ (setRxReleased s).bus.rxHorizon = s.bus.rxHorizon ∧ (setRxReleased s).bus.fixedH = s.bus.fixedH
    ∧ (setRxReleased s).bus.fixedG = s.bus.fixedG ∧ (setRxReleased s).bus.uplinkView = s.bus.uplinkView
    ∧ (setRxReleased s).bus.uplinkViewValue = s.bus.uplinkViewValue ∧ (setRxReleased s).bus.txGuard = s.bus.txGuard
    ∧ (setRxReleased s).bus.rxGuard = s.bus.rxGuard ∧ (setRxReleased s).bus.queue = s.bus.queue ∧ (setRxReleased s).bus.waiting = s.bus.waiting
    ∧ (setRxReleased s).bus.waitCount = s.bus.waitCount ∧ (setRxReleased s).bus.gatewayData = s.bus.gatewayData
    ∧ (setRxReleased s).ring.window = s.ring.window ∧ (setRxReleased s).ring.base = s.ring.base ∧ (setRxReleased s).ring.partTxc = s.ring.partTxc
    ∧ (setRxReleased s).ring.readMark = s.ring.readMark ∧ (setRxReleased s).ring.descriptorRead = s.ring.descriptorRead
    ∧ (setRxReleased s).ring.takes = s.ring.takes ∧ (setRxReleased s).ring.fence = s.ring.fence ∧ (setRxReleased s).ring.overrun = s.ring.overrun
    ∧ (setRxReleased s).ring.txCheckDue = s.ring.txCheckDue ∧ (setRxReleased s).ring.scanRunning = s.ring.scanRunning
    ∧ (setRxReleased s).ring.scanMark = s.ring.scanMark ∧ (setRxReleased s).ring.scanRead = s.ring.scanRead
    ∧ (setRxReleased s).ring.txForcing = s.ring.txForcing ∧ (setRxReleased s).ring.handBackAsked = s.ring.handBackAsked
    ∧ (setRxReleased s).ring.fillCursor = s.ring.fillCursor ∧ (setRxReleased s).ring.delivery = s.ring.delivery
    ∧ (setRxReleased s).ring.descriptorHeld = s.ring.descriptorHeld ∧ (setRxReleased s).ring.rxOverrun = s.ring.rxOverrun
    ∧ (setRxReleased s).ring.rxCheckDue = s.ring.rxCheckDue ∧ (setRxReleased s).path.path = s.path.path
    ∧ (setRxReleased s).path.phase = s.path.phase ∧ (setRxReleased s).path.dwellD = s.path.dwellD ∧ (setRxReleased s).path.dwell = s.path.dwell
    ∧ (setRxReleased s).path.refallTimer = s.path.refallTimer ∧ (setRxReleased s).path.refallOpen = s.path.refallOpen
    ∧ (setRxReleased s).path.txReleased = s.path.txReleased ∧ (setRxReleased s).path.drainTimer = s.path.drainTimer
    ∧ (setRxReleased s).path.emergency = s.path.emergency ∧ (setRxReleased s).path.priorityTimer = s.path.priorityTimer
    ∧ (setRxReleased s).path.radioWanted = s.path.radioWanted ∧ (setRxReleased s).path.returnPause = s.path.returnPause
    ∧ (setRxReleased s).path.recorded = s.path.recorded := by simp [setRxReleased]

@[simp] theorem catchUpRxf_frame (s : State) :
    (catchUpRxf s).pending = s.pending ∧ (catchUpRxf s).clock = s.clock ∧ (catchUpRxf s).draws = s.draws ∧ (catchUpRxf s).sram = s.sram
    ∧ (catchUpRxf s).pins = s.pins ∧ (catchUpRxf s).loader = s.loader ∧ (catchUpRxf s).ring = s.ring ∧ (catchUpRxf s).health = s.health
    ∧ (catchUpRxf s).path = s.path ∧ (catchUpRxf s).hold = s.hold ∧ (catchUpRxf s).pacer = s.pacer ∧ (catchUpRxf s).radio = s.radio
    ∧ (catchUpRxf s).power = s.power ∧ (catchUpRxf s).events = s.events ∧ (catchUpRxf s).bus.shadows = s.bus.shadows
    ∧ (catchUpRxf s).bus.txHorizon = s.bus.txHorizon ∧ (catchUpRxf s).bus.rxHorizon = s.bus.rxHorizon ∧ (catchUpRxf s).bus.fixedH = s.bus.fixedH
    ∧ (catchUpRxf s).bus.fixedG = s.bus.fixedG ∧ (catchUpRxf s).bus.uplinkView = s.bus.uplinkView
    ∧ (catchUpRxf s).bus.receiveView = s.bus.receiveView ∧ (catchUpRxf s).bus.uplinkViewValue = s.bus.uplinkViewValue
    ∧ (catchUpRxf s).bus.receiveViewValue = s.bus.receiveViewValue ∧ (catchUpRxf s).bus.txGuard = s.bus.txGuard
    ∧ (catchUpRxf s).bus.rxGuard = s.bus.rxGuard ∧ (catchUpRxf s).bus.queue = s.bus.queue ∧ (catchUpRxf s).bus.waitCount = s.bus.waitCount
    ∧ (catchUpRxf s).bus.gatewayData = s.bus.gatewayData := by unfold catchUpRxf; (repeat' split) <;> simp

@[simp] theorem tryHandBack_frame (s : State) :
    (tryHandBack s).pending = s.pending ∧ (tryHandBack s).clock = s.clock ∧ (tryHandBack s).draws = s.draws ∧ (tryHandBack s).sram = s.sram
    ∧ (tryHandBack s).pins = s.pins ∧ (tryHandBack s).loader = s.loader ∧ (tryHandBack s).health = s.health ∧ (tryHandBack s).path = s.path
    ∧ (tryHandBack s).hold = s.hold ∧ (tryHandBack s).pacer = s.pacer ∧ (tryHandBack s).radio = s.radio ∧ (tryHandBack s).power = s.power
    ∧ (tryHandBack s).events = s.events ∧ (tryHandBack s).bus.shadows = s.bus.shadows ∧ (tryHandBack s).bus.txHorizon = s.bus.txHorizon
    ∧ (tryHandBack s).bus.rxHorizon = s.bus.rxHorizon ∧ (tryHandBack s).bus.fixedH = s.bus.fixedH ∧ (tryHandBack s).bus.fixedG = s.bus.fixedG
    ∧ (tryHandBack s).bus.uplinkView = s.bus.uplinkView ∧ (tryHandBack s).bus.receiveView = s.bus.receiveView
    ∧ (tryHandBack s).bus.uplinkViewValue = s.bus.uplinkViewValue ∧ (tryHandBack s).bus.receiveViewValue = s.bus.receiveViewValue
    ∧ (tryHandBack s).bus.txGuard = s.bus.txGuard ∧ (tryHandBack s).bus.rxGuard = s.bus.rxGuard ∧ (tryHandBack s).bus.queue = s.bus.queue
    ∧ (tryHandBack s).bus.waitCount = s.bus.waitCount ∧ (tryHandBack s).bus.gatewayData = s.bus.gatewayData
    ∧ (tryHandBack s).ring.window = s.ring.window ∧ (tryHandBack s).ring.base = s.ring.base ∧ (tryHandBack s).ring.partTxc = s.ring.partTxc
    ∧ (tryHandBack s).ring.readMark = s.ring.readMark ∧ (tryHandBack s).ring.descriptorRead = s.ring.descriptorRead
    ∧ (tryHandBack s).ring.takes = s.ring.takes ∧ (tryHandBack s).ring.fence = s.ring.fence ∧ (tryHandBack s).ring.overrun = s.ring.overrun
    ∧ (tryHandBack s).ring.txCheckDue = s.ring.txCheckDue ∧ (tryHandBack s).ring.scanRunning = s.ring.scanRunning
    ∧ (tryHandBack s).ring.scanMark = s.ring.scanMark ∧ (tryHandBack s).ring.scanRead = s.ring.scanRead
    ∧ (tryHandBack s).ring.txForcing = s.ring.txForcing ∧ (tryHandBack s).ring.rxForcing = s.ring.rxForcing
    ∧ (tryHandBack s).ring.fillCursor = s.ring.fillCursor ∧ (tryHandBack s).ring.partRxf = s.ring.partRxf
    ∧ (tryHandBack s).ring.delivery = s.ring.delivery ∧ (tryHandBack s).ring.descriptorHeld = s.ring.descriptorHeld
    ∧ (tryHandBack s).ring.rxOverrun = s.ring.rxOverrun ∧ (tryHandBack s).ring.rxCheckDue = s.ring.rxCheckDue := by unfold tryHandBack; (repeat' split) <;> simp

@[simp] theorem sample_frame (a : Attribute) (good : Bool) (s : State) :
    (sample a good s).pending = s.pending ∧ (sample a good s).clock = s.clock ∧ (sample a good s).draws = s.draws
    ∧ (sample a good s).sram = s.sram ∧ (sample a good s).pins = s.pins ∧ (sample a good s).loader = s.loader ∧ (sample a good s).bus = s.bus
    ∧ (sample a good s).ring = s.ring ∧ (sample a good s).path = s.path ∧ (sample a good s).hold = s.hold ∧ (sample a good s).pacer = s.pacer
    ∧ (sample a good s).radio = s.radio ∧ (sample a good s).power = s.power ∧ (sample a good s).events = s.events
    ∧ (sample a good s).health.verdict = s.health.verdict ∧ (sample a good s).health.txReference = s.health.txReference
    ∧ (sample a good s).health.activityMark = s.health.activityMark ∧ (sample a good s).health.timer100 = s.health.timer100
    ∧ (sample a good s).health.timer1s = s.health.timer1s := by simp [sample]

@[simp] theorem beginDelivery_frame (r : FrameRecord) (s : State) :
    (beginDelivery r s).pending = s.pending ∧ (beginDelivery r s).clock = s.clock ∧ (beginDelivery r s).draws = s.draws
    ∧ (beginDelivery r s).sram = s.sram ∧ (beginDelivery r s).pins = s.pins ∧ (beginDelivery r s).loader = s.loader
    ∧ (beginDelivery r s).health = s.health ∧ (beginDelivery r s).path = s.path ∧ (beginDelivery r s).hold = s.hold
    ∧ (beginDelivery r s).pacer = s.pacer ∧ (beginDelivery r s).radio = s.radio ∧ (beginDelivery r s).power = s.power
    ∧ (beginDelivery r s).events = s.events ∧ (beginDelivery r s).bus.shadows = s.bus.shadows
    ∧ (beginDelivery r s).bus.txHorizon = s.bus.txHorizon ∧ (beginDelivery r s).bus.rxHorizon = s.bus.rxHorizon
    ∧ (beginDelivery r s).bus.fixedH = s.bus.fixedH ∧ (beginDelivery r s).bus.fixedG = s.bus.fixedG
    ∧ (beginDelivery r s).bus.uplinkView = s.bus.uplinkView ∧ (beginDelivery r s).bus.receiveView = s.bus.receiveView
    ∧ (beginDelivery r s).bus.uplinkViewValue = s.bus.uplinkViewValue ∧ (beginDelivery r s).bus.receiveViewValue = s.bus.receiveViewValue
    ∧ (beginDelivery r s).bus.txGuard = s.bus.txGuard ∧ (beginDelivery r s).bus.rxGuard = s.bus.rxGuard
    ∧ (beginDelivery r s).bus.queue = s.bus.queue ∧ (beginDelivery r s).bus.waitCount = s.bus.waitCount
    ∧ (beginDelivery r s).bus.gatewayData = s.bus.gatewayData ∧ (beginDelivery r s).ring.window = s.ring.window
    ∧ (beginDelivery r s).ring.base = s.ring.base ∧ (beginDelivery r s).ring.partTxc = s.ring.partTxc
    ∧ (beginDelivery r s).ring.readMark = s.ring.readMark ∧ (beginDelivery r s).ring.descriptorRead = s.ring.descriptorRead
    ∧ (beginDelivery r s).ring.takes = s.ring.takes ∧ (beginDelivery r s).ring.fence = s.ring.fence
    ∧ (beginDelivery r s).ring.overrun = s.ring.overrun ∧ (beginDelivery r s).ring.txCheckDue = s.ring.txCheckDue
    ∧ (beginDelivery r s).ring.scanRunning = s.ring.scanRunning ∧ (beginDelivery r s).ring.scanMark = s.ring.scanMark
    ∧ (beginDelivery r s).ring.scanRead = s.ring.scanRead ∧ (beginDelivery r s).ring.txForcing = s.ring.txForcing
    ∧ (beginDelivery r s).ring.rxForcing = s.ring.rxForcing ∧ (beginDelivery r s).ring.handBackAsked = s.ring.handBackAsked
    ∧ (beginDelivery r s).ring.fillCursor = s.ring.fillCursor ∧ (beginDelivery r s).ring.partRxf = s.ring.partRxf
    ∧ (beginDelivery r s).ring.descriptorHeld = s.ring.descriptorHeld ∧ (beginDelivery r s).ring.rxOverrun = s.ring.rxOverrun
    ∧ (beginDelivery r s).ring.rxCheckDue = s.ring.rxCheckDue := by simp [beginDelivery]

@[simp] theorem beginPage_frame (entry : Bool) (s : State) :
    (beginPage entry s).pending = s.pending ∧ (beginPage entry s).clock = s.clock ∧ (beginPage entry s).draws = s.draws
    ∧ (beginPage entry s).sram = s.sram ∧ (beginPage entry s).pins = s.pins ∧ (beginPage entry s).loader = s.loader
    ∧ (beginPage entry s).ring = s.ring ∧ (beginPage entry s).health = s.health ∧ (beginPage entry s).path = s.path
    ∧ (beginPage entry s).hold = s.hold ∧ (beginPage entry s).pacer = s.pacer ∧ (beginPage entry s).radio = s.radio
    ∧ (beginPage entry s).power = s.power ∧ (beginPage entry s).bus.shadows = s.bus.shadows ∧ (beginPage entry s).bus.txHorizon = s.bus.txHorizon
    ∧ (beginPage entry s).bus.rxHorizon = s.bus.rxHorizon ∧ (beginPage entry s).bus.fixedH = s.bus.fixedH
    ∧ (beginPage entry s).bus.fixedG = s.bus.fixedG ∧ (beginPage entry s).bus.uplinkView = s.bus.uplinkView
    ∧ (beginPage entry s).bus.receiveView = s.bus.receiveView ∧ (beginPage entry s).bus.uplinkViewValue = s.bus.uplinkViewValue
    ∧ (beginPage entry s).bus.receiveViewValue = s.bus.receiveViewValue ∧ (beginPage entry s).bus.txGuard = s.bus.txGuard
    ∧ (beginPage entry s).bus.rxGuard = s.bus.rxGuard ∧ (beginPage entry s).bus.queue = s.bus.queue
    ∧ (beginPage entry s).bus.waitCount = s.bus.waitCount ∧ (beginPage entry s).bus.gatewayData = s.bus.gatewayData
    ∧ (beginPage entry s).events.entries = s.events.entries ∧ (beginPage entry s).events.evp = s.events.evp
    ∧ (beginPage entry s).events.slotKinds = s.events.slotKinds ∧ (beginPage entry s).events.refreshTimer = s.events.refreshTimer
    ∧ (beginPage entry s).events.counters = s.events.counters ∧ (beginPage entry s).events.ledMs = s.events.ledMs := by simp [beginPage]

@[simp] theorem recordIssued_frame (s : State) :
    (recordIssued s).pending = s.pending ∧ (recordIssued s).clock = s.clock ∧ (recordIssued s).draws = s.draws ∧ (recordIssued s).sram = s.sram
    ∧ (recordIssued s).pins = s.pins ∧ (recordIssued s).loader = s.loader ∧ (recordIssued s).ring = s.ring ∧ (recordIssued s).health = s.health
    ∧ (recordIssued s).path = s.path ∧ (recordIssued s).hold = s.hold ∧ (recordIssued s).pacer = s.pacer ∧ (recordIssued s).radio = s.radio
    ∧ (recordIssued s).power = s.power ∧ (recordIssued s).bus.shadows = s.bus.shadows ∧ (recordIssued s).bus.txHorizon = s.bus.txHorizon
    ∧ (recordIssued s).bus.rxHorizon = s.bus.rxHorizon ∧ (recordIssued s).bus.fixedH = s.bus.fixedH ∧ (recordIssued s).bus.fixedG = s.bus.fixedG
    ∧ (recordIssued s).bus.uplinkView = s.bus.uplinkView ∧ (recordIssued s).bus.receiveView = s.bus.receiveView
    ∧ (recordIssued s).bus.uplinkViewValue = s.bus.uplinkViewValue ∧ (recordIssued s).bus.receiveViewValue = s.bus.receiveViewValue
    ∧ (recordIssued s).bus.txGuard = s.bus.txGuard ∧ (recordIssued s).bus.rxGuard = s.bus.rxGuard ∧ (recordIssued s).bus.queue = s.bus.queue
    ∧ (recordIssued s).bus.waitCount = s.bus.waitCount ∧ (recordIssued s).bus.gatewayData = s.bus.gatewayData
    ∧ (recordIssued s).events.refreshCount = s.events.refreshCount ∧ (recordIssued s).events.refreshTimer = s.events.refreshTimer
    ∧ (recordIssued s).events.pageWriting = s.events.pageWriting ∧ (recordIssued s).events.pageWanted = s.events.pageWanted
    ∧ (recordIssued s).events.counters = s.events.counters ∧ (recordIssued s).events.ledMs = s.events.ledMs := by unfold recordIssued; (repeat' split) <;> simp

@[simp] theorem entryPageCarried_frame (s : State) :
    (entryPageCarried s).pending = s.pending ∧ (entryPageCarried s).clock = s.clock ∧ (entryPageCarried s).draws = s.draws
    ∧ (entryPageCarried s).sram = s.sram ∧ (entryPageCarried s).pins = s.pins ∧ (entryPageCarried s).loader = s.loader
    ∧ (entryPageCarried s).bus = s.bus ∧ (entryPageCarried s).ring = s.ring ∧ (entryPageCarried s).health = s.health
    ∧ (entryPageCarried s).path = s.path ∧ (entryPageCarried s).hold = s.hold ∧ (entryPageCarried s).pacer = s.pacer
    ∧ (entryPageCarried s).events = s.events ∧ (entryPageCarried s).radio.state = s.radio.state
    ∧ (entryPageCarried s).radio.ready = s.radio.ready ∧ (entryPageCarried s).radio.failures = s.radio.failures
    ∧ (entryPageCarried s).radio.lastCause = s.radio.lastCause ∧ (entryPageCarried s).radio.startTimer = s.radio.startTimer
    ∧ (entryPageCarried s).radio.cycleTimer = s.radio.cycleTimer ∧ (entryPageCarried s).radio.attachTimer = s.radio.attachTimer
    ∧ (entryPageCarried s).radio.backoffTimer = s.radio.backoffTimer ∧ (entryPageCarried s).radio.silenceTimer = s.radio.silenceTimer
    ∧ (entryPageCarried s).radio.lingerTimer = s.radio.lingerTimer ∧ (entryPageCarried s).radio.mrstTimer = s.radio.mrstTimer
    ∧ (entryPageCarried s).radio.grantUp = s.radio.grantUp ∧ (entryPageCarried s).radio.grantDown = s.radio.grantDown
    ∧ (entryPageCarried s).radio.grantQuality = s.radio.grantQuality ∧ (entryPageCarried s).radio.slotA = s.radio.slotA
    ∧ (entryPageCarried s).radio.slotB = s.radio.slotB ∧ (entryPageCarried s).radio.unsent = s.radio.unsent
    ∧ (entryPageCarried s).radio.attachTag = s.radio.attachTag ∧ (entryPageCarried s).radio.pauseTold = s.radio.pauseTold
    ∧ (entryPageCarried s).radio.capTold = s.radio.capTold ∧ (entryPageCarried s).radio.lowPowerTold = s.radio.lowPowerTold
    ∧ (entryPageCarried s).radio.ldoLast = s.radio.ldoLast ∧ (entryPageCarried s).radio.receiver = s.radio.receiver
    ∧ (entryPageCarried s).radio.mpwr = s.radio.mpwr ∧ (entryPageCarried s).radio.mrst = s.radio.mrst
    ∧ (entryPageCarried s).power.mode = s.power.mode ∧ (entryPageCarried s).power.mainsReturn = s.power.mainsReturn
    ∧ (entryPageCarried s).power.quiet = s.power.quiet ∧ (entryPageCarried s).power.dozeTimer = s.power.dozeTimer
    ∧ (entryPageCarried s).power.restart = s.power.restart ∧ (entryPageCarried s).power.latch = s.power.latch := by unfold entryPageCarried; (repeat' split) <;> simp

@[simp] theorem bufferIssued_frame (s : State) :
    (bufferIssued s).pending = s.pending ∧ (bufferIssued s).clock = s.clock ∧ (bufferIssued s).draws = s.draws ∧ (bufferIssued s).sram = s.sram
    ∧ (bufferIssued s).pins = s.pins ∧ (bufferIssued s).loader = s.loader ∧ (bufferIssued s).health = s.health ∧ (bufferIssued s).path = s.path
    ∧ (bufferIssued s).hold = s.hold ∧ (bufferIssued s).pacer = s.pacer ∧ (bufferIssued s).radio = s.radio ∧ (bufferIssued s).power = s.power
    ∧ (bufferIssued s).events = s.events ∧ (bufferIssued s).bus.shadows = s.bus.shadows ∧ (bufferIssued s).bus.txHorizon = s.bus.txHorizon
    ∧ (bufferIssued s).bus.rxHorizon = s.bus.rxHorizon ∧ (bufferIssued s).bus.fixedH = s.bus.fixedH ∧ (bufferIssued s).bus.fixedG = s.bus.fixedG
    ∧ (bufferIssued s).bus.uplinkView = s.bus.uplinkView ∧ (bufferIssued s).bus.receiveView = s.bus.receiveView
    ∧ (bufferIssued s).bus.uplinkViewValue = s.bus.uplinkViewValue ∧ (bufferIssued s).bus.receiveViewValue = s.bus.receiveViewValue
    ∧ (bufferIssued s).bus.txGuard = s.bus.txGuard ∧ (bufferIssued s).bus.rxGuard = s.bus.rxGuard ∧ (bufferIssued s).bus.queue = s.bus.queue
    ∧ (bufferIssued s).bus.waitCount = s.bus.waitCount ∧ (bufferIssued s).bus.gatewayData = s.bus.gatewayData
    ∧ (bufferIssued s).ring.window = s.ring.window ∧ (bufferIssued s).ring.base = s.ring.base ∧ (bufferIssued s).ring.partTxc = s.ring.partTxc
    ∧ (bufferIssued s).ring.readMark = s.ring.readMark ∧ (bufferIssued s).ring.descriptorRead = s.ring.descriptorRead
    ∧ (bufferIssued s).ring.takes = s.ring.takes ∧ (bufferIssued s).ring.fence = s.ring.fence ∧ (bufferIssued s).ring.overrun = s.ring.overrun
    ∧ (bufferIssued s).ring.txCheckDue = s.ring.txCheckDue ∧ (bufferIssued s).ring.scanRunning = s.ring.scanRunning
    ∧ (bufferIssued s).ring.scanMark = s.ring.scanMark ∧ (bufferIssued s).ring.scanRead = s.ring.scanRead
    ∧ (bufferIssued s).ring.txForcing = s.ring.txForcing ∧ (bufferIssued s).ring.rxForcing = s.ring.rxForcing
    ∧ (bufferIssued s).ring.handBackAsked = s.ring.handBackAsked ∧ (bufferIssued s).ring.fillCursor = s.ring.fillCursor
    ∧ (bufferIssued s).ring.partRxf = s.ring.partRxf ∧ (bufferIssued s).ring.descriptorHeld = s.ring.descriptorHeld
    ∧ (bufferIssued s).ring.rxOverrun = s.ring.rxOverrun ∧ (bufferIssued s).ring.rxCheckDue = s.ring.rxCheckDue := by simp only [bufferIssued]; (repeat' split) <;> simp

@[simp] theorem beginRead_frame (kind : ReadKind) (s : State) :
    (beginRead kind s).pending = s.pending ∧ (beginRead kind s).clock = s.clock ∧ (beginRead kind s).draws = s.draws
    ∧ (beginRead kind s).sram = s.sram ∧ (beginRead kind s).pins = s.pins ∧ (beginRead kind s).ring = s.ring
    ∧ (beginRead kind s).health = s.health ∧ (beginRead kind s).path = s.path ∧ (beginRead kind s).hold = s.hold
    ∧ (beginRead kind s).pacer = s.pacer ∧ (beginRead kind s).radio = s.radio ∧ (beginRead kind s).power = s.power
    ∧ (beginRead kind s).events = s.events ∧ (beginRead kind s).loader.phase = s.loader.phase
    ∧ (beginRead kind s).loader.flashCode = s.loader.flashCode ∧ (beginRead kind s).loader.map = s.loader.map
    ∧ (beginRead kind s).loader.linkClock = s.loader.linkClock ∧ (beginRead kind s).loader.defaultPolicy = s.loader.defaultPolicy
    ∧ (beginRead kind s).loader.policy = s.loader.policy ∧ (beginRead kind s).loader.firstHalf = s.loader.firstHalf
    ∧ (beginRead kind s).loader.pgenAtIssue = s.loader.pgenAtIssue ∧ (beginRead kind s).loader.softResetInForce = s.loader.softResetInForce
    ∧ (beginRead kind s).loader.counterClearInForce = s.loader.counterClearInForce
    ∧ (beginRead kind s).loader.shadowsLoaded = s.loader.shadowsLoaded ∧ (beginRead kind s).loader.softReset = s.loader.softReset
    ∧ (beginRead kind s).loader.softWait = s.loader.softWait ∧ (beginRead kind s).loader.softUp = s.loader.softUp
    ∧ (beginRead kind s).loader.softDown = s.loader.softDown ∧ (beginRead kind s).loader.softPositions = s.loader.softPositions
    ∧ (beginRead kind s).bus.shadows = s.bus.shadows ∧ (beginRead kind s).bus.txHorizon = s.bus.txHorizon
    ∧ (beginRead kind s).bus.rxHorizon = s.bus.rxHorizon ∧ (beginRead kind s).bus.fixedH = s.bus.fixedH
    ∧ (beginRead kind s).bus.fixedG = s.bus.fixedG ∧ (beginRead kind s).bus.uplinkView = s.bus.uplinkView
    ∧ (beginRead kind s).bus.receiveView = s.bus.receiveView ∧ (beginRead kind s).bus.uplinkViewValue = s.bus.uplinkViewValue
    ∧ (beginRead kind s).bus.receiveViewValue = s.bus.receiveViewValue ∧ (beginRead kind s).bus.txGuard = s.bus.txGuard
    ∧ (beginRead kind s).bus.rxGuard = s.bus.rxGuard ∧ (beginRead kind s).bus.queue = s.bus.queue
    ∧ (beginRead kind s).bus.waitCount = s.bus.waitCount ∧ (beginRead kind s).bus.gatewayData = s.bus.gatewayData := by simp [beginRead]

@[simp] theorem reinitPower_frame (s : State) :
    (reinitPower s).pending = s.pending ∧ (reinitPower s).clock = s.clock ∧ (reinitPower s).draws = s.draws ∧ (reinitPower s).sram = s.sram
    ∧ (reinitPower s).pins = s.pins ∧ (reinitPower s).loader = s.loader ∧ (reinitPower s).bus = s.bus ∧ (reinitPower s).ring = s.ring
    ∧ (reinitPower s).health = s.health ∧ (reinitPower s).path = s.path ∧ (reinitPower s).hold = s.hold ∧ (reinitPower s).pacer = s.pacer
    ∧ (reinitPower s).radio = s.radio ∧ (reinitPower s).events = s.events ∧ (reinitPower s).power.mode = s.power.mode
    ∧ (reinitPower s).power.step = s.power.step ∧ (reinitPower s).power.mainsReturn = s.power.mainsReturn
    ∧ (reinitPower s).power.dozeTimer = s.power.dozeTimer ∧ (reinitPower s).power.restart = s.power.restart := by simp [reinitPower]

@[simp] theorem takeRequests_frame (bs : List Byte) (startUp : Bool) (s : State) :
    (takeRequests bs startUp s).pending = s.pending ∧ (takeRequests bs startUp s).clock = s.clock ∧ (takeRequests bs startUp s).draws = s.draws
    ∧ (takeRequests bs startUp s).sram = s.sram ∧ (takeRequests bs startUp s).pins = s.pins ∧ (takeRequests bs startUp s).bus = s.bus
    ∧ (takeRequests bs startUp s).ring = s.ring ∧ (takeRequests bs startUp s).health = s.health ∧ (takeRequests bs startUp s).path = s.path
    ∧ (takeRequests bs startUp s).hold = s.hold ∧ (takeRequests bs startUp s).pacer = s.pacer ∧ (takeRequests bs startUp s).radio = s.radio
    ∧ (takeRequests bs startUp s).power = s.power ∧ (takeRequests bs startUp s).loader.phase = s.loader.phase
    ∧ (takeRequests bs startUp s).loader.flashCode = s.loader.flashCode ∧ (takeRequests bs startUp s).loader.map = s.loader.map
    ∧ (takeRequests bs startUp s).loader.linkClock = s.loader.linkClock
    ∧ (takeRequests bs startUp s).loader.defaultPolicy = s.loader.defaultPolicy ∧ (takeRequests bs startUp s).loader.policy = s.loader.policy
    ∧ (takeRequests bs startUp s).loader.readState = s.loader.readState ∧ (takeRequests bs startUp s).loader.readKind = s.loader.readKind
    ∧ (takeRequests bs startUp s).loader.dueAfterRestart = s.loader.dueAfterRestart
    ∧ (takeRequests bs startUp s).loader.firstHalf = s.loader.firstHalf ∧ (takeRequests bs startUp s).loader.pgenAtIssue = s.loader.pgenAtIssue
    ∧ (takeRequests bs startUp s).loader.shadowsLoaded = s.loader.shadowsLoaded
    ∧ (takeRequests bs startUp s).loader.softReset = s.loader.softReset ∧ (takeRequests bs startUp s).loader.softWait = s.loader.softWait
    ∧ (takeRequests bs startUp s).loader.softUp = s.loader.softUp ∧ (takeRequests bs startUp s).loader.softDown = s.loader.softDown
    ∧ (takeRequests bs startUp s).loader.softPositions = s.loader.softPositions ∧ (takeRequests bs startUp s).events.entries = s.events.entries
    ∧ (takeRequests bs startUp s).events.evp = s.events.evp ∧ (takeRequests bs startUp s).events.slotKinds = s.events.slotKinds
    ∧ (takeRequests bs startUp s).events.refreshCount = s.events.refreshCount
    ∧ (takeRequests bs startUp s).events.refreshTimer = s.events.refreshTimer
    ∧ (takeRequests bs startUp s).events.pageWriting = s.events.pageWriting ∧ (takeRequests bs startUp s).events.pageWanted = s.events.pageWanted
    ∧ (takeRequests bs startUp s).events.ledMs = s.events.ledMs := by unfold takeRequests; (repeat' split) <;> simp

@[simp] theorem reportStale_frame (dropped : List (Nat × Ring)) (s : State) :
    (reportStale dropped s).pending = s.pending ∧ (reportStale dropped s).clock = s.clock ∧ (reportStale dropped s).draws = s.draws
    ∧ (reportStale dropped s).sram = s.sram ∧ (reportStale dropped s).pins = s.pins ∧ (reportStale dropped s).loader = s.loader
    ∧ (reportStale dropped s).bus = s.bus ∧ (reportStale dropped s).ring = s.ring ∧ (reportStale dropped s).health = s.health
    ∧ (reportStale dropped s).path = s.path ∧ (reportStale dropped s).hold = s.hold ∧ (reportStale dropped s).pacer = s.pacer
    ∧ (reportStale dropped s).radio = s.radio ∧ (reportStale dropped s).power = s.power ∧ (reportStale dropped s).events.evp = s.events.evp
    ∧ (reportStale dropped s).events.slotKinds = s.events.slotKinds ∧ (reportStale dropped s).events.refreshCount = s.events.refreshCount
    ∧ (reportStale dropped s).events.refreshTimer = s.events.refreshTimer ∧ (reportStale dropped s).events.pageWriting = s.events.pageWriting
    ∧ (reportStale dropped s).events.pageWanted = s.events.pageWanted ∧ (reportStale dropped s).events.ledMs = s.events.ledMs := by unfold reportStale; (repeat' split) <;> simp

@[simp] theorem carryRead_frame (req : Requester) (a : Addr) (len : BurstLen) (s : State) :
    (carryRead req a len s).pending = s.pending ∧ (carryRead req a len s).clock = s.clock ∧ (carryRead req a len s).draws = s.draws
    ∧ (carryRead req a len s).sram = s.sram ∧ (carryRead req a len s).pins = s.pins ∧ (carryRead req a len s).loader = s.loader
    ∧ (carryRead req a len s).ring = s.ring ∧ (carryRead req a len s).health = s.health ∧ (carryRead req a len s).path = s.path
    ∧ (carryRead req a len s).hold = s.hold ∧ (carryRead req a len s).pacer = s.pacer ∧ (carryRead req a len s).radio = s.radio
    ∧ (carryRead req a len s).power = s.power ∧ (carryRead req a len s).events = s.events ∧ (carryRead req a len s).bus.shadows = s.bus.shadows
    ∧ (carryRead req a len s).bus.fixedH = s.bus.fixedH ∧ (carryRead req a len s).bus.fixedG = s.bus.fixedG
    ∧ (carryRead req a len s).bus.uplinkView = s.bus.uplinkView ∧ (carryRead req a len s).bus.receiveView = s.bus.receiveView
    ∧ (carryRead req a len s).bus.uplinkViewValue = s.bus.uplinkViewValue ∧ (carryRead req a len s).bus.receiveViewValue = s.bus.receiveViewValue
    ∧ (carryRead req a len s).bus.txGuard = s.bus.txGuard ∧ (carryRead req a len s).bus.rxGuard = s.bus.rxGuard
    ∧ (carryRead req a len s).bus.queue = s.bus.queue ∧ (carryRead req a len s).bus.waiting = s.bus.waiting
    ∧ (carryRead req a len s).bus.waitCount = s.bus.waitCount := by unfold carryRead; (repeat' split) <;> simp

@[simp] theorem frameReturns_frame (pos : Count) (ws : List Word) (s : State) :
    (frameReturns pos ws s).pending = s.pending ∧ (frameReturns pos ws s).clock = s.clock ∧ (frameReturns pos ws s).draws = s.draws
    ∧ (frameReturns pos ws s).sram = s.sram ∧ (frameReturns pos ws s).pins = s.pins ∧ (frameReturns pos ws s).loader = s.loader
    ∧ (frameReturns pos ws s).health = s.health ∧ (frameReturns pos ws s).path = s.path ∧ (frameReturns pos ws s).pacer = s.pacer
    ∧ (frameReturns pos ws s).radio = s.radio ∧ (frameReturns pos ws s).power = s.power ∧ (frameReturns pos ws s).events = s.events
    ∧ (frameReturns pos ws s).bus.shadows = s.bus.shadows ∧ (frameReturns pos ws s).bus.txHorizon = s.bus.txHorizon
    ∧ (frameReturns pos ws s).bus.rxHorizon = s.bus.rxHorizon ∧ (frameReturns pos ws s).bus.fixedH = s.bus.fixedH
    ∧ (frameReturns pos ws s).bus.fixedG = s.bus.fixedG ∧ (frameReturns pos ws s).bus.uplinkView = s.bus.uplinkView
    ∧ (frameReturns pos ws s).bus.receiveView = s.bus.receiveView ∧ (frameReturns pos ws s).bus.uplinkViewValue = s.bus.uplinkViewValue
    ∧ (frameReturns pos ws s).bus.receiveViewValue = s.bus.receiveViewValue ∧ (frameReturns pos ws s).bus.txGuard = s.bus.txGuard
    ∧ (frameReturns pos ws s).bus.rxGuard = s.bus.rxGuard ∧ (frameReturns pos ws s).bus.queue = s.bus.queue
    ∧ (frameReturns pos ws s).bus.waitCount = s.bus.waitCount ∧ (frameReturns pos ws s).bus.gatewayData = s.bus.gatewayData
    ∧ (frameReturns pos ws s).ring.window = s.ring.window ∧ (frameReturns pos ws s).ring.base = s.ring.base
    ∧ (frameReturns pos ws s).ring.partTxc = s.ring.partTxc ∧ (frameReturns pos ws s).ring.readMark = s.ring.readMark
    ∧ (frameReturns pos ws s).ring.descriptorRead = s.ring.descriptorRead ∧ (frameReturns pos ws s).ring.fence = s.ring.fence
    ∧ (frameReturns pos ws s).ring.overrun = s.ring.overrun ∧ (frameReturns pos ws s).ring.txCheckDue = s.ring.txCheckDue
    ∧ (frameReturns pos ws s).ring.scanRunning = s.ring.scanRunning ∧ (frameReturns pos ws s).ring.scanMark = s.ring.scanMark
    ∧ (frameReturns pos ws s).ring.scanRead = s.ring.scanRead ∧ (frameReturns pos ws s).ring.txForcing = s.ring.txForcing
    ∧ (frameReturns pos ws s).ring.rxForcing = s.ring.rxForcing ∧ (frameReturns pos ws s).ring.handBackAsked = s.ring.handBackAsked
    ∧ (frameReturns pos ws s).ring.fillCursor = s.ring.fillCursor ∧ (frameReturns pos ws s).ring.partRxf = s.ring.partRxf
    ∧ (frameReturns pos ws s).ring.delivery = s.ring.delivery ∧ (frameReturns pos ws s).ring.descriptorHeld = s.ring.descriptorHeld
    ∧ (frameReturns pos ws s).ring.rxOverrun = s.ring.rxOverrun ∧ (frameReturns pos ws s).ring.rxCheckDue = s.ring.rxCheckDue
    ∧ (frameReturns pos ws s).hold.freeList = s.hold.freeList ∧ (frameReturns pos ws s).hold.uqE = s.hold.uqE
    ∧ (frameReturns pos ws s).hold.uqV = s.hold.uqV ∧ (frameReturns pos ws s).hold.uqD = s.hold.uqD
    ∧ (frameReturns pos ws s).hold.dqV = s.hold.dqV ∧ (frameReturns pos ws s).hold.dqD = s.hold.dqD
    ∧ (frameReturns pos ws s).hold.onLdo = s.hold.onLdo ∧ (frameReturns pos ws s).hold.paused = s.hold.paused
    ∧ (frameReturns pos ws s).hold.sweep10 = s.hold.sweep10 ∧ (frameReturns pos ws s).hold.sweep1s = s.hold.sweep1s := by simp only [frameReturns]; (repeat' split) <;> simp

@[simp] theorem bufferFound_frame (ws : List Word) (s : State) :
    (bufferFound ws s).pending = s.pending ∧ (bufferFound ws s).clock = s.clock ∧ (bufferFound ws s).draws = s.draws
    ∧ (bufferFound ws s).sram = s.sram ∧ (bufferFound ws s).pins = s.pins ∧ (bufferFound ws s).loader = s.loader
    ∧ (bufferFound ws s).health = s.health ∧ (bufferFound ws s).path = s.path ∧ (bufferFound ws s).hold = s.hold
    ∧ (bufferFound ws s).pacer = s.pacer ∧ (bufferFound ws s).radio = s.radio ∧ (bufferFound ws s).power = s.power
    ∧ (bufferFound ws s).events = s.events ∧ (bufferFound ws s).bus.shadows = s.bus.shadows ∧ (bufferFound ws s).bus.txHorizon = s.bus.txHorizon
    ∧ (bufferFound ws s).bus.rxHorizon = s.bus.rxHorizon ∧ (bufferFound ws s).bus.fixedH = s.bus.fixedH
    ∧ (bufferFound ws s).bus.fixedG = s.bus.fixedG ∧ (bufferFound ws s).bus.uplinkView = s.bus.uplinkView
    ∧ (bufferFound ws s).bus.receiveView = s.bus.receiveView ∧ (bufferFound ws s).bus.uplinkViewValue = s.bus.uplinkViewValue
    ∧ (bufferFound ws s).bus.receiveViewValue = s.bus.receiveViewValue ∧ (bufferFound ws s).bus.txGuard = s.bus.txGuard
    ∧ (bufferFound ws s).bus.rxGuard = s.bus.rxGuard ∧ (bufferFound ws s).bus.queue = s.bus.queue
    ∧ (bufferFound ws s).bus.waitCount = s.bus.waitCount ∧ (bufferFound ws s).bus.gatewayData = s.bus.gatewayData
    ∧ (bufferFound ws s).ring.window = s.ring.window ∧ (bufferFound ws s).ring.base = s.ring.base
    ∧ (bufferFound ws s).ring.partTxc = s.ring.partTxc ∧ (bufferFound ws s).ring.readMark = s.ring.readMark
    ∧ (bufferFound ws s).ring.descriptorRead = s.ring.descriptorRead ∧ (bufferFound ws s).ring.takes = s.ring.takes
    ∧ (bufferFound ws s).ring.fence = s.ring.fence ∧ (bufferFound ws s).ring.overrun = s.ring.overrun
    ∧ (bufferFound ws s).ring.txCheckDue = s.ring.txCheckDue ∧ (bufferFound ws s).ring.scanRunning = s.ring.scanRunning
    ∧ (bufferFound ws s).ring.scanMark = s.ring.scanMark ∧ (bufferFound ws s).ring.scanRead = s.ring.scanRead
    ∧ (bufferFound ws s).ring.txForcing = s.ring.txForcing ∧ (bufferFound ws s).ring.rxForcing = s.ring.rxForcing
    ∧ (bufferFound ws s).ring.handBackAsked = s.ring.handBackAsked ∧ (bufferFound ws s).ring.fillCursor = s.ring.fillCursor
    ∧ (bufferFound ws s).ring.partRxf = s.ring.partRxf ∧ (bufferFound ws s).ring.rxOverrun = s.ring.rxOverrun
    ∧ (bufferFound ws s).ring.rxCheckDue = s.ring.rxCheckDue := by simp only [bufferFound]; (repeat' split) <;> simp

@[simp] theorem beginAttach_frame (s : State) :
    (beginAttach s).pending = s.pending ∧ (beginAttach s).clock = s.clock ∧ (beginAttach s).draws = s.draws ∧ (beginAttach s).sram = s.sram
    ∧ (beginAttach s).pins = s.pins ∧ (beginAttach s).loader = s.loader ∧ (beginAttach s).bus = s.bus ∧ (beginAttach s).ring = s.ring
    ∧ (beginAttach s).health = s.health ∧ (beginAttach s).path = s.path ∧ (beginAttach s).hold = s.hold ∧ (beginAttach s).pacer = s.pacer
    ∧ (beginAttach s).power = s.power ∧ (beginAttach s).radio.state = s.radio.state ∧ (beginAttach s).radio.ready = s.radio.ready
    ∧ (beginAttach s).radio.failures = s.radio.failures ∧ (beginAttach s).radio.lastCause = s.radio.lastCause
    ∧ (beginAttach s).radio.startTimer = s.radio.startTimer ∧ (beginAttach s).radio.cycleTimer = s.radio.cycleTimer
    ∧ (beginAttach s).radio.attachTimer = s.radio.attachTimer ∧ (beginAttach s).radio.backoffTimer = s.radio.backoffTimer
    ∧ (beginAttach s).radio.silenceTimer = s.radio.silenceTimer ∧ (beginAttach s).radio.lingerTimer = s.radio.lingerTimer
    ∧ (beginAttach s).radio.mrstTimer = s.radio.mrstTimer ∧ (beginAttach s).radio.grantUp = s.radio.grantUp
    ∧ (beginAttach s).radio.grantDown = s.radio.grantDown ∧ (beginAttach s).radio.grantQuality = s.radio.grantQuality
    ∧ (beginAttach s).radio.slotA = s.radio.slotA ∧ (beginAttach s).radio.slotB = s.radio.slotB ∧ (beginAttach s).radio.unsent = s.radio.unsent
    ∧ (beginAttach s).radio.pauseTold = s.radio.pauseTold ∧ (beginAttach s).radio.capTold = s.radio.capTold
    ∧ (beginAttach s).radio.lowPowerTold = s.radio.lowPowerTold ∧ (beginAttach s).radio.ldo = s.radio.ldo
    ∧ (beginAttach s).radio.receiver = s.radio.receiver ∧ (beginAttach s).radio.mpwr = s.radio.mpwr ∧ (beginAttach s).radio.mrst = s.radio.mrst
    ∧ (beginAttach s).events.evp = s.events.evp ∧ (beginAttach s).events.slotKinds = s.events.slotKinds
    ∧ (beginAttach s).events.refreshCount = s.events.refreshCount ∧ (beginAttach s).events.refreshTimer = s.events.refreshTimer
    ∧ (beginAttach s).events.pageWriting = s.events.pageWriting ∧ (beginAttach s).events.pageWanted = s.events.pageWanted
    ∧ (beginAttach s).events.counters = s.events.counters ∧ (beginAttach s).events.ledMs = s.events.ledMs := by simp only [beginAttach]; (repeat' split) <;> simp

@[simp] theorem beginDetach_frame (s : State) :
    (beginDetach s).pending = s.pending ∧ (beginDetach s).clock = s.clock ∧ (beginDetach s).draws = s.draws ∧ (beginDetach s).sram = s.sram
    ∧ (beginDetach s).pins = s.pins ∧ (beginDetach s).loader = s.loader ∧ (beginDetach s).bus = s.bus ∧ (beginDetach s).ring = s.ring
    ∧ (beginDetach s).health = s.health ∧ (beginDetach s).path = s.path ∧ (beginDetach s).hold = s.hold ∧ (beginDetach s).pacer = s.pacer
    ∧ (beginDetach s).power = s.power ∧ (beginDetach s).events = s.events ∧ (beginDetach s).radio.state = s.radio.state
    ∧ (beginDetach s).radio.ready = s.radio.ready ∧ (beginDetach s).radio.failures = s.radio.failures
    ∧ (beginDetach s).radio.lastCause = s.radio.lastCause ∧ (beginDetach s).radio.startTimer = s.radio.startTimer
    ∧ (beginDetach s).radio.cycleTimer = s.radio.cycleTimer ∧ (beginDetach s).radio.attachTimer = s.radio.attachTimer
    ∧ (beginDetach s).radio.backoffTimer = s.radio.backoffTimer ∧ (beginDetach s).radio.silenceTimer = s.radio.silenceTimer
    ∧ (beginDetach s).radio.lingerTimer = s.radio.lingerTimer ∧ (beginDetach s).radio.mrstTimer = s.radio.mrstTimer
    ∧ (beginDetach s).radio.grantUp = s.radio.grantUp ∧ (beginDetach s).radio.grantDown = s.radio.grantDown
    ∧ (beginDetach s).radio.grantQuality = s.radio.grantQuality ∧ (beginDetach s).radio.slotA = s.radio.slotA
    ∧ (beginDetach s).radio.slotB = s.radio.slotB ∧ (beginDetach s).radio.unsent = s.radio.unsent
    ∧ (beginDetach s).radio.attachTag = s.radio.attachTag ∧ (beginDetach s).radio.pauseTold = s.radio.pauseTold
    ∧ (beginDetach s).radio.capTold = s.radio.capTold ∧ (beginDetach s).radio.lowPowerTold = s.radio.lowPowerTold
    ∧ (beginDetach s).radio.receiver = s.radio.receiver ∧ (beginDetach s).radio.mpwr = s.radio.mpwr ∧ (beginDetach s).radio.mrst = s.radio.mrst := by simp [beginDetach]

@[simp] theorem beginSendUp_frame (slot : Slot) (s : State) :
    (beginSendUp slot s).pending = s.pending ∧ (beginSendUp slot s).clock = s.clock ∧ (beginSendUp slot s).draws = s.draws
    ∧ (beginSendUp slot s).sram = s.sram ∧ (beginSendUp slot s).pins = s.pins ∧ (beginSendUp slot s).loader = s.loader
    ∧ (beginSendUp slot s).bus = s.bus ∧ (beginSendUp slot s).ring = s.ring ∧ (beginSendUp slot s).health = s.health
    ∧ (beginSendUp slot s).path = s.path ∧ (beginSendUp slot s).hold = s.hold ∧ (beginSendUp slot s).pacer = s.pacer
    ∧ (beginSendUp slot s).power = s.power ∧ (beginSendUp slot s).events = s.events ∧ (beginSendUp slot s).radio.state = s.radio.state
    ∧ (beginSendUp slot s).radio.ready = s.radio.ready ∧ (beginSendUp slot s).radio.failures = s.radio.failures
    ∧ (beginSendUp slot s).radio.lastCause = s.radio.lastCause ∧ (beginSendUp slot s).radio.startTimer = s.radio.startTimer
    ∧ (beginSendUp slot s).radio.cycleTimer = s.radio.cycleTimer ∧ (beginSendUp slot s).radio.attachTimer = s.radio.attachTimer
    ∧ (beginSendUp slot s).radio.backoffTimer = s.radio.backoffTimer ∧ (beginSendUp slot s).radio.silenceTimer = s.radio.silenceTimer
    ∧ (beginSendUp slot s).radio.lingerTimer = s.radio.lingerTimer ∧ (beginSendUp slot s).radio.mrstTimer = s.radio.mrstTimer
    ∧ (beginSendUp slot s).radio.grantUp = s.radio.grantUp ∧ (beginSendUp slot s).radio.grantDown = s.radio.grantDown
    ∧ (beginSendUp slot s).radio.grantQuality = s.radio.grantQuality ∧ (beginSendUp slot s).radio.slotA = s.radio.slotA
    ∧ (beginSendUp slot s).radio.slotB = s.radio.slotB ∧ (beginSendUp slot s).radio.attachTag = s.radio.attachTag
    ∧ (beginSendUp slot s).radio.pauseTold = s.radio.pauseTold ∧ (beginSendUp slot s).radio.capTold = s.radio.capTold
    ∧ (beginSendUp slot s).radio.lowPowerTold = s.radio.lowPowerTold ∧ (beginSendUp slot s).radio.items = s.radio.items
    ∧ (beginSendUp slot s).radio.receiver = s.radio.receiver ∧ (beginSendUp slot s).radio.mpwr = s.radio.mpwr
    ∧ (beginSendUp slot s).radio.mrst = s.radio.mrst := by unfold beginSendUp; (repeat' split) <;> simp

@[simp] theorem beginLowPower_frame (on : Bool) (s : State) :
    (beginLowPower on s).pending = s.pending ∧ (beginLowPower on s).clock = s.clock ∧ (beginLowPower on s).draws = s.draws
    ∧ (beginLowPower on s).sram = s.sram ∧ (beginLowPower on s).pins = s.pins ∧ (beginLowPower on s).loader = s.loader
    ∧ (beginLowPower on s).bus = s.bus ∧ (beginLowPower on s).ring = s.ring ∧ (beginLowPower on s).health = s.health
    ∧ (beginLowPower on s).path = s.path ∧ (beginLowPower on s).hold = s.hold ∧ (beginLowPower on s).pacer = s.pacer
    ∧ (beginLowPower on s).power = s.power ∧ (beginLowPower on s).events = s.events ∧ (beginLowPower on s).radio.state = s.radio.state
    ∧ (beginLowPower on s).radio.ready = s.radio.ready ∧ (beginLowPower on s).radio.failures = s.radio.failures
    ∧ (beginLowPower on s).radio.lastCause = s.radio.lastCause ∧ (beginLowPower on s).radio.startTimer = s.radio.startTimer
    ∧ (beginLowPower on s).radio.cycleTimer = s.radio.cycleTimer ∧ (beginLowPower on s).radio.attachTimer = s.radio.attachTimer
    ∧ (beginLowPower on s).radio.backoffTimer = s.radio.backoffTimer ∧ (beginLowPower on s).radio.silenceTimer = s.radio.silenceTimer
    ∧ (beginLowPower on s).radio.lingerTimer = s.radio.lingerTimer ∧ (beginLowPower on s).radio.mrstTimer = s.radio.mrstTimer
    ∧ (beginLowPower on s).radio.grantUp = s.radio.grantUp ∧ (beginLowPower on s).radio.grantDown = s.radio.grantDown
    ∧ (beginLowPower on s).radio.grantQuality = s.radio.grantQuality ∧ (beginLowPower on s).radio.slotA = s.radio.slotA
    ∧ (beginLowPower on s).radio.slotB = s.radio.slotB ∧ (beginLowPower on s).radio.unsent = s.radio.unsent
    ∧ (beginLowPower on s).radio.attachTag = s.radio.attachTag ∧ (beginLowPower on s).radio.pauseTold = s.radio.pauseTold
    ∧ (beginLowPower on s).radio.capTold = s.radio.capTold ∧ (beginLowPower on s).radio.lowPowerTold = s.radio.lowPowerTold
    ∧ (beginLowPower on s).radio.receiver = s.radio.receiver ∧ (beginLowPower on s).radio.mpwr = s.radio.mpwr
    ∧ (beginLowPower on s).radio.mrst = s.radio.mrst := by simp [beginLowPower]

@[simp] theorem startBlocks_frame (s : State) :
    (startBlocks s).pending = s.pending ∧ (startBlocks s).clock = s.clock ∧ (startBlocks s).draws = s.draws ∧ (startBlocks s).sram = s.sram
    ∧ (startBlocks s).loader = s.loader ∧ (startBlocks s).bus = s.bus ∧ (startBlocks s).ring = s.ring ∧ (startBlocks s).path = s.path
    ∧ (startBlocks s).pins.los = s.pins.los ∧ (startBlocks s).pins.link = s.pins.link ∧ (startBlocks s).pins.offhook = s.pins.offhook
    ∧ (startBlocks s).pins.mainsLost = s.pins.mainsLost ∧ (startBlocks s).pins.mrdy = s.pins.mrdy ∧ (startBlocks s).pins.bypass = s.pins.bypass
    ∧ (startBlocks s).pins.intPolarity = s.pins.intPolarity ∧ (startBlocks s).health.sig = s.health.sig
    ∧ (startBlocks s).health.txp = s.health.txp ∧ (startBlocks s).health.rxa = s.health.rxa ∧ (startBlocks s).health.txe = s.health.txe
    ∧ (startBlocks s).health.verdict = s.health.verdict ∧ (startBlocks s).hold.cells = s.hold.cells
    ∧ (startBlocks s).hold.freeList = s.hold.freeList ∧ (startBlocks s).hold.uqE = s.hold.uqE ∧ (startBlocks s).hold.uqV = s.hold.uqV
    ∧ (startBlocks s).hold.uqD = s.hold.uqD ∧ (startBlocks s).hold.dqV = s.hold.dqV ∧ (startBlocks s).hold.dqD = s.hold.dqD
    ∧ (startBlocks s).hold.onLdo = s.hold.onLdo ∧ (startBlocks s).hold.paused = s.hold.paused ∧ (startBlocks s).pacer.credit = s.pacer.credit
    ∧ (startBlocks s).pacer.refusalPause = s.pacer.refusalPause ∧ (startBlocks s).pacer.chargeA = s.pacer.chargeA
    ∧ (startBlocks s).pacer.chargeB = s.pacer.chargeB ∧ (startBlocks s).pacer.grantSeen = s.pacer.grantSeen
    ∧ (startBlocks s).pacer.usageBase = s.pacer.usageBase ∧ (startBlocks s).pacer.carried = s.pacer.carried
    ∧ (startBlocks s).pacer.allowance = s.pacer.allowance ∧ (startBlocks s).pacer.downlinkCap = s.pacer.downlinkCap
    ∧ (startBlocks s).radio.state = s.radio.state ∧ (startBlocks s).radio.ready = s.radio.ready
    ∧ (startBlocks s).radio.failures = s.radio.failures ∧ (startBlocks s).radio.lastCause = s.radio.lastCause
    ∧ (startBlocks s).radio.startTimer = s.radio.startTimer ∧ (startBlocks s).radio.cycleTimer = s.radio.cycleTimer
    ∧ (startBlocks s).radio.attachTimer = s.radio.attachTimer ∧ (startBlocks s).radio.backoffTimer = s.radio.backoffTimer
    ∧ (startBlocks s).radio.lingerTimer = s.radio.lingerTimer ∧ (startBlocks s).radio.mrstTimer = s.radio.mrstTimer
    ∧ (startBlocks s).radio.grantUp = s.radio.grantUp ∧ (startBlocks s).radio.grantDown = s.radio.grantDown
    ∧ (startBlocks s).radio.grantQuality = s.radio.grantQuality ∧ (startBlocks s).radio.slotA = s.radio.slotA
    ∧ (startBlocks s).radio.slotB = s.radio.slotB ∧ (startBlocks s).radio.unsent = s.radio.unsent
    ∧ (startBlocks s).radio.attachTag = s.radio.attachTag ∧ (startBlocks s).radio.pauseTold = s.radio.pauseTold
    ∧ (startBlocks s).radio.capTold = s.radio.capTold ∧ (startBlocks s).radio.lowPowerTold = s.radio.lowPowerTold
    ∧ (startBlocks s).radio.ldo = s.radio.ldo ∧ (startBlocks s).radio.ldoLast = s.radio.ldoLast
    ∧ (startBlocks s).radio.receiver = s.radio.receiver ∧ (startBlocks s).radio.mpwr = s.radio.mpwr ∧ (startBlocks s).radio.mrst = s.radio.mrst
    ∧ (startBlocks s).power.mainsReturn = s.power.mainsReturn ∧ (startBlocks s).power.quiet = s.power.quiet
    ∧ (startBlocks s).power.dozeTimer = s.power.dozeTimer ∧ (startBlocks s).power.latch = s.power.latch
    ∧ (startBlocks s).events.entries = s.events.entries ∧ (startBlocks s).events.evp = s.events.evp
    ∧ (startBlocks s).events.slotKinds = s.events.slotKinds ∧ (startBlocks s).events.refreshCount = s.events.refreshCount
    ∧ (startBlocks s).events.pageWriting = s.events.pageWriting ∧ (startBlocks s).events.pageWanted = s.events.pageWanted
    ∧ (startBlocks s).events.counters = s.events.counters ∧ (startBlocks s).events.ledMs = s.events.ledMs := by simp only [startBlocks]; (repeat' split) <;> simp

@[simp] theorem wakeSource_frame (w : WakeSource) (s : State) :
    (wakeSource w s).pending = s.pending ∧ (wakeSource w s).clock = s.clock ∧ (wakeSource w s).draws = s.draws ∧ (wakeSource w s).sram = s.sram
    ∧ (wakeSource w s).pins = s.pins ∧ (wakeSource w s).loader = s.loader ∧ (wakeSource w s).bus = s.bus ∧ (wakeSource w s).ring = s.ring
    ∧ (wakeSource w s).health = s.health ∧ (wakeSource w s).path = s.path ∧ (wakeSource w s).hold = s.hold ∧ (wakeSource w s).pacer = s.pacer
    ∧ (wakeSource w s).events = s.events ∧ (wakeSource w s).radio.state = s.radio.state ∧ (wakeSource w s).radio.ready = s.radio.ready
    ∧ (wakeSource w s).radio.failures = s.radio.failures ∧ (wakeSource w s).radio.lastCause = s.radio.lastCause
    ∧ (wakeSource w s).radio.startTimer = s.radio.startTimer ∧ (wakeSource w s).radio.cycleTimer = s.radio.cycleTimer
    ∧ (wakeSource w s).radio.attachTimer = s.radio.attachTimer ∧ (wakeSource w s).radio.backoffTimer = s.radio.backoffTimer
    ∧ (wakeSource w s).radio.silenceTimer = s.radio.silenceTimer ∧ (wakeSource w s).radio.lingerTimer = s.radio.lingerTimer
    ∧ (wakeSource w s).radio.mrstTimer = s.radio.mrstTimer ∧ (wakeSource w s).radio.grantUp = s.radio.grantUp
    ∧ (wakeSource w s).radio.grantDown = s.radio.grantDown ∧ (wakeSource w s).radio.grantQuality = s.radio.grantQuality
    ∧ (wakeSource w s).radio.slotA = s.radio.slotA ∧ (wakeSource w s).radio.slotB = s.radio.slotB
    ∧ (wakeSource w s).radio.unsent = s.radio.unsent ∧ (wakeSource w s).radio.attachTag = s.radio.attachTag
    ∧ (wakeSource w s).radio.pauseTold = s.radio.pauseTold ∧ (wakeSource w s).radio.capTold = s.radio.capTold
    ∧ (wakeSource w s).radio.lowPowerTold = s.radio.lowPowerTold ∧ (wakeSource w s).radio.ldoLast = s.radio.ldoLast
    ∧ (wakeSource w s).radio.receiver = s.radio.receiver ∧ (wakeSource w s).radio.mpwr = s.radio.mpwr
    ∧ (wakeSource w s).radio.mrst = s.radio.mrst ∧ (wakeSource w s).power.mode = s.power.mode
    ∧ (wakeSource w s).power.mainsReturn = s.power.mainsReturn := by unfold wakeSource; (repeat' split) <;> simp

@[simp] theorem ceaseEntry_frame (s : State) :
    (ceaseEntry s).pending = s.pending ∧ (ceaseEntry s).clock = s.clock ∧ (ceaseEntry s).draws = s.draws ∧ (ceaseEntry s).sram = s.sram
    ∧ (ceaseEntry s).pins = s.pins ∧ (ceaseEntry s).loader = s.loader ∧ (ceaseEntry s).bus = s.bus ∧ (ceaseEntry s).ring = s.ring
    ∧ (ceaseEntry s).health = s.health ∧ (ceaseEntry s).path = s.path ∧ (ceaseEntry s).hold = s.hold ∧ (ceaseEntry s).pacer = s.pacer
    ∧ (ceaseEntry s).events = s.events ∧ (ceaseEntry s).radio.state = s.radio.state ∧ (ceaseEntry s).radio.ready = s.radio.ready
    ∧ (ceaseEntry s).radio.failures = s.radio.failures ∧ (ceaseEntry s).radio.lastCause = s.radio.lastCause
    ∧ (ceaseEntry s).radio.startTimer = s.radio.startTimer ∧ (ceaseEntry s).radio.cycleTimer = s.radio.cycleTimer
    ∧ (ceaseEntry s).radio.attachTimer = s.radio.attachTimer ∧ (ceaseEntry s).radio.backoffTimer = s.radio.backoffTimer
    ∧ (ceaseEntry s).radio.silenceTimer = s.radio.silenceTimer ∧ (ceaseEntry s).radio.lingerTimer = s.radio.lingerTimer
    ∧ (ceaseEntry s).radio.mrstTimer = s.radio.mrstTimer ∧ (ceaseEntry s).radio.grantUp = s.radio.grantUp
    ∧ (ceaseEntry s).radio.grantDown = s.radio.grantDown ∧ (ceaseEntry s).radio.grantQuality = s.radio.grantQuality
    ∧ (ceaseEntry s).radio.slotA = s.radio.slotA ∧ (ceaseEntry s).radio.slotB = s.radio.slotB ∧ (ceaseEntry s).radio.unsent = s.radio.unsent
    ∧ (ceaseEntry s).radio.attachTag = s.radio.attachTag ∧ (ceaseEntry s).radio.pauseTold = s.radio.pauseTold
    ∧ (ceaseEntry s).radio.capTold = s.radio.capTold ∧ (ceaseEntry s).radio.lowPowerTold = s.radio.lowPowerTold
    ∧ (ceaseEntry s).radio.ldoLast = s.radio.ldoLast ∧ (ceaseEntry s).radio.receiver = s.radio.receiver
    ∧ (ceaseEntry s).radio.mpwr = s.radio.mpwr ∧ (ceaseEntry s).radio.mrst = s.radio.mrst ∧ (ceaseEntry s).power.mode = s.power.mode
    ∧ (ceaseEntry s).power.mainsReturn = s.power.mainsReturn ∧ (ceaseEntry s).power.quiet = s.power.quiet
    ∧ (ceaseEntry s).power.dozeTimer = s.power.dozeTimer ∧ (ceaseEntry s).power.restart = s.power.restart
    ∧ (ceaseEntry s).power.latch = s.power.latch := by unfold ceaseEntry; (repeat' split) <;> simp

@[simp] theorem emergencySet_frame (s : State) :
    (emergencySet s).pending = s.pending ∧ (emergencySet s).clock = s.clock ∧ (emergencySet s).draws = s.draws ∧ (emergencySet s).sram = s.sram
    ∧ (emergencySet s).pins = s.pins ∧ (emergencySet s).loader = s.loader ∧ (emergencySet s).bus = s.bus ∧ (emergencySet s).ring = s.ring
    ∧ (emergencySet s).health = s.health ∧ (emergencySet s).path = s.path ∧ (emergencySet s).hold = s.hold ∧ (emergencySet s).pacer = s.pacer
    ∧ (emergencySet s).power = s.power ∧ (emergencySet s).events = s.events ∧ (emergencySet s).radio.failures = s.radio.failures
    ∧ (emergencySet s).radio.lastCause = s.radio.lastCause ∧ (emergencySet s).radio.cycleTimer = s.radio.cycleTimer
    ∧ (emergencySet s).radio.silenceTimer = s.radio.silenceTimer ∧ (emergencySet s).radio.grantUp = s.radio.grantUp
    ∧ (emergencySet s).radio.grantDown = s.radio.grantDown ∧ (emergencySet s).radio.grantQuality = s.radio.grantQuality
    ∧ (emergencySet s).radio.slotA = s.radio.slotA ∧ (emergencySet s).radio.slotB = s.radio.slotB
    ∧ (emergencySet s).radio.unsent = s.radio.unsent ∧ (emergencySet s).radio.pauseTold = s.radio.pauseTold
    ∧ (emergencySet s).radio.capTold = s.radio.capTold ∧ (emergencySet s).radio.lowPowerTold = s.radio.lowPowerTold
    ∧ (emergencySet s).radio.ldo = s.radio.ldo ∧ (emergencySet s).radio.ldoLast = s.radio.ldoLast
    ∧ (emergencySet s).radio.receiver = s.radio.receiver := by simp only [emergencySet]; (repeat' split) <;> simp

@[simp] theorem reportRefused_frame (cls : FrameClass) (length : Nat) (s : State) :
    (reportRefused cls length s).pending = s.pending ∧ (reportRefused cls length s).clock = s.clock
    ∧ (reportRefused cls length s).draws = s.draws ∧ (reportRefused cls length s).sram = s.sram ∧ (reportRefused cls length s).pins = s.pins
    ∧ (reportRefused cls length s).bus = s.bus ∧ (reportRefused cls length s).ring = s.ring ∧ (reportRefused cls length s).health = s.health
    ∧ (reportRefused cls length s).path = s.path ∧ (reportRefused cls length s).hold = s.hold ∧ (reportRefused cls length s).pacer = s.pacer
    ∧ (reportRefused cls length s).radio = s.radio ∧ (reportRefused cls length s).power = s.power
    ∧ (reportRefused cls length s).loader.phase = s.loader.phase ∧ (reportRefused cls length s).loader.flashCode = s.loader.flashCode
    ∧ (reportRefused cls length s).loader.map = s.loader.map ∧ (reportRefused cls length s).loader.linkClock = s.loader.linkClock
    ∧ (reportRefused cls length s).loader.defaultPolicy = s.loader.defaultPolicy ∧ (reportRefused cls length s).loader.policy = s.loader.policy
    ∧ (reportRefused cls length s).loader.readState = s.loader.readState ∧ (reportRefused cls length s).loader.readKind = s.loader.readKind
    ∧ (reportRefused cls length s).loader.dueAfterRestart = s.loader.dueAfterRestart
    ∧ (reportRefused cls length s).loader.firstHalf = s.loader.firstHalf ∧ (reportRefused cls length s).loader.pgenAtIssue = s.loader.pgenAtIssue
    ∧ (reportRefused cls length s).loader.softResetInForce = s.loader.softResetInForce
    ∧ (reportRefused cls length s).loader.counterClearInForce = s.loader.counterClearInForce
    ∧ (reportRefused cls length s).loader.shadowsLoaded = s.loader.shadowsLoaded
    ∧ (reportRefused cls length s).loader.softReset = s.loader.softReset ∧ (reportRefused cls length s).loader.softWait = s.loader.softWait
    ∧ (reportRefused cls length s).loader.softPositions = s.loader.softPositions ∧ (reportRefused cls length s).events.evp = s.events.evp
    ∧ (reportRefused cls length s).events.slotKinds = s.events.slotKinds
    ∧ (reportRefused cls length s).events.refreshCount = s.events.refreshCount
    ∧ (reportRefused cls length s).events.refreshTimer = s.events.refreshTimer
    ∧ (reportRefused cls length s).events.pageWriting = s.events.pageWriting
    ∧ (reportRefused cls length s).events.pageWanted = s.events.pageWanted ∧ (reportRefused cls length s).events.ledMs = s.events.ledMs := by unfold reportRefused; (repeat' split) <;> simp

@[simp] theorem evalAllowance_frame (cause : AllowanceCause) (s : State) :
    (evalAllowance cause s).pending = s.pending ∧ (evalAllowance cause s).clock = s.clock ∧ (evalAllowance cause s).draws = s.draws
    ∧ (evalAllowance cause s).sram = s.sram ∧ (evalAllowance cause s).pins = s.pins ∧ (evalAllowance cause s).loader = s.loader
    ∧ (evalAllowance cause s).bus = s.bus ∧ (evalAllowance cause s).ring = s.ring ∧ (evalAllowance cause s).health = s.health
    ∧ (evalAllowance cause s).path = s.path ∧ (evalAllowance cause s).hold = s.hold ∧ (evalAllowance cause s).power = s.power
    ∧ (evalAllowance cause s).pacer.credit = s.pacer.credit ∧ (evalAllowance cause s).pacer.pacing = s.pacer.pacing
    ∧ (evalAllowance cause s).pacer.refusalPause = s.pacer.refusalPause ∧ (evalAllowance cause s).pacer.chargeA = s.pacer.chargeA
    ∧ (evalAllowance cause s).pacer.chargeB = s.pacer.chargeB ∧ (evalAllowance cause s).pacer.grantSeen = s.pacer.grantSeen
    ∧ (evalAllowance cause s).pacer.usageBase = s.pacer.usageBase ∧ (evalAllowance cause s).pacer.carried = s.pacer.carried
    ∧ (evalAllowance cause s).radio.state = s.radio.state ∧ (evalAllowance cause s).radio.ready = s.radio.ready
    ∧ (evalAllowance cause s).radio.failures = s.radio.failures ∧ (evalAllowance cause s).radio.lastCause = s.radio.lastCause
    ∧ (evalAllowance cause s).radio.startTimer = s.radio.startTimer ∧ (evalAllowance cause s).radio.cycleTimer = s.radio.cycleTimer
    ∧ (evalAllowance cause s).radio.attachTimer = s.radio.attachTimer ∧ (evalAllowance cause s).radio.backoffTimer = s.radio.backoffTimer
    ∧ (evalAllowance cause s).radio.silenceTimer = s.radio.silenceTimer ∧ (evalAllowance cause s).radio.lingerTimer = s.radio.lingerTimer
    ∧ (evalAllowance cause s).radio.mrstTimer = s.radio.mrstTimer ∧ (evalAllowance cause s).radio.grantUp = s.radio.grantUp
    ∧ (evalAllowance cause s).radio.grantDown = s.radio.grantDown ∧ (evalAllowance cause s).radio.grantQuality = s.radio.grantQuality
    ∧ (evalAllowance cause s).radio.slotA = s.radio.slotA ∧ (evalAllowance cause s).radio.slotB = s.radio.slotB
    ∧ (evalAllowance cause s).radio.unsent = s.radio.unsent ∧ (evalAllowance cause s).radio.attachTag = s.radio.attachTag
    ∧ (evalAllowance cause s).radio.pauseTold = s.radio.pauseTold ∧ (evalAllowance cause s).radio.capTold = s.radio.capTold
    ∧ (evalAllowance cause s).radio.lowPowerTold = s.radio.lowPowerTold ∧ (evalAllowance cause s).radio.ldo = s.radio.ldo
    ∧ (evalAllowance cause s).radio.ldoLast = s.radio.ldoLast ∧ (evalAllowance cause s).radio.receiver = s.radio.receiver
    ∧ (evalAllowance cause s).radio.mpwr = s.radio.mpwr ∧ (evalAllowance cause s).radio.mrst = s.radio.mrst
    ∧ (evalAllowance cause s).events.evp = s.events.evp ∧ (evalAllowance cause s).events.slotKinds = s.events.slotKinds
    ∧ (evalAllowance cause s).events.refreshCount = s.events.refreshCount ∧ (evalAllowance cause s).events.refreshTimer = s.events.refreshTimer
    ∧ (evalAllowance cause s).events.pageWriting = s.events.pageWriting ∧ (evalAllowance cause s).events.pageWanted = s.events.pageWanted
    ∧ (evalAllowance cause s).events.counters = s.events.counters ∧ (evalAllowance cause s).events.ledMs = s.events.ledMs := by simp only [evalAllowance]; (repeat' split) <;> simp

@[simp] theorem startUpAllowance_frame (s : State) :
    (startUpAllowance s).pending = s.pending ∧ (startUpAllowance s).clock = s.clock ∧ (startUpAllowance s).draws = s.draws
    ∧ (startUpAllowance s).sram = s.sram ∧ (startUpAllowance s).pins = s.pins ∧ (startUpAllowance s).loader = s.loader
    ∧ (startUpAllowance s).bus = s.bus ∧ (startUpAllowance s).ring = s.ring ∧ (startUpAllowance s).health = s.health
    ∧ (startUpAllowance s).path = s.path ∧ (startUpAllowance s).hold = s.hold ∧ (startUpAllowance s).power = s.power
    ∧ (startUpAllowance s).pacer.credit = s.pacer.credit ∧ (startUpAllowance s).pacer.pacing = s.pacer.pacing
    ∧ (startUpAllowance s).pacer.refusalPause = s.pacer.refusalPause ∧ (startUpAllowance s).pacer.chargeA = s.pacer.chargeA
    ∧ (startUpAllowance s).pacer.chargeB = s.pacer.chargeB ∧ (startUpAllowance s).pacer.grantSeen = s.pacer.grantSeen
    ∧ (startUpAllowance s).radio.state = s.radio.state ∧ (startUpAllowance s).radio.ready = s.radio.ready
    ∧ (startUpAllowance s).radio.failures = s.radio.failures ∧ (startUpAllowance s).radio.lastCause = s.radio.lastCause
    ∧ (startUpAllowance s).radio.startTimer = s.radio.startTimer ∧ (startUpAllowance s).radio.cycleTimer = s.radio.cycleTimer
    ∧ (startUpAllowance s).radio.attachTimer = s.radio.attachTimer ∧ (startUpAllowance s).radio.backoffTimer = s.radio.backoffTimer
    ∧ (startUpAllowance s).radio.silenceTimer = s.radio.silenceTimer ∧ (startUpAllowance s).radio.lingerTimer = s.radio.lingerTimer
    ∧ (startUpAllowance s).radio.mrstTimer = s.radio.mrstTimer ∧ (startUpAllowance s).radio.grantUp = s.radio.grantUp
    ∧ (startUpAllowance s).radio.grantDown = s.radio.grantDown ∧ (startUpAllowance s).radio.grantQuality = s.radio.grantQuality
    ∧ (startUpAllowance s).radio.slotA = s.radio.slotA ∧ (startUpAllowance s).radio.slotB = s.radio.slotB
    ∧ (startUpAllowance s).radio.unsent = s.radio.unsent ∧ (startUpAllowance s).radio.attachTag = s.radio.attachTag
    ∧ (startUpAllowance s).radio.pauseTold = s.radio.pauseTold ∧ (startUpAllowance s).radio.capTold = s.radio.capTold
    ∧ (startUpAllowance s).radio.lowPowerTold = s.radio.lowPowerTold ∧ (startUpAllowance s).radio.ldo = s.radio.ldo
    ∧ (startUpAllowance s).radio.ldoLast = s.radio.ldoLast ∧ (startUpAllowance s).radio.receiver = s.radio.receiver
    ∧ (startUpAllowance s).radio.mpwr = s.radio.mpwr ∧ (startUpAllowance s).radio.mrst = s.radio.mrst
    ∧ (startUpAllowance s).events.evp = s.events.evp ∧ (startUpAllowance s).events.slotKinds = s.events.slotKinds
    ∧ (startUpAllowance s).events.refreshCount = s.events.refreshCount ∧ (startUpAllowance s).events.refreshTimer = s.events.refreshTimer
    ∧ (startUpAllowance s).events.pageWriting = s.events.pageWriting ∧ (startUpAllowance s).events.pageWanted = s.events.pageWanted
    ∧ (startUpAllowance s).events.counters = s.events.counters ∧ (startUpAllowance s).events.ledMs = s.events.ledMs := by simp only [startUpAllowance]; (repeat' split) <;> simp

@[simp] theorem attachFails_frame (cause : Nat) (s : State) :
    (attachFails cause s).pending = s.pending ∧ (attachFails cause s).clock = s.clock ∧ (attachFails cause s).draws = s.draws
    ∧ (attachFails cause s).sram = s.sram ∧ (attachFails cause s).pins = s.pins ∧ (attachFails cause s).loader = s.loader
    ∧ (attachFails cause s).bus = s.bus ∧ (attachFails cause s).ring = s.ring ∧ (attachFails cause s).health = s.health
    ∧ (attachFails cause s).path = s.path ∧ (attachFails cause s).hold = s.hold ∧ (attachFails cause s).pacer = s.pacer
    ∧ (attachFails cause s).power = s.power ∧ (attachFails cause s).radio.ready = s.radio.ready
    ∧ (attachFails cause s).radio.startTimer = s.radio.startTimer ∧ (attachFails cause s).radio.cycleTimer = s.radio.cycleTimer
    ∧ (attachFails cause s).radio.silenceTimer = s.radio.silenceTimer ∧ (attachFails cause s).radio.lingerTimer = s.radio.lingerTimer
    ∧ (attachFails cause s).radio.mrstTimer = s.radio.mrstTimer ∧ (attachFails cause s).radio.grantUp = s.radio.grantUp
    ∧ (attachFails cause s).radio.grantDown = s.radio.grantDown ∧ (attachFails cause s).radio.grantQuality = s.radio.grantQuality
    ∧ (attachFails cause s).radio.slotA = s.radio.slotA ∧ (attachFails cause s).radio.slotB = s.radio.slotB
    ∧ (attachFails cause s).radio.unsent = s.radio.unsent ∧ (attachFails cause s).radio.pauseTold = s.radio.pauseTold
    ∧ (attachFails cause s).radio.capTold = s.radio.capTold ∧ (attachFails cause s).radio.lowPowerTold = s.radio.lowPowerTold
    ∧ (attachFails cause s).radio.ldo = s.radio.ldo ∧ (attachFails cause s).radio.ldoLast = s.radio.ldoLast
    ∧ (attachFails cause s).radio.receiver = s.radio.receiver ∧ (attachFails cause s).radio.mpwr = s.radio.mpwr
    ∧ (attachFails cause s).radio.mrst = s.radio.mrst ∧ (attachFails cause s).events.evp = s.events.evp
    ∧ (attachFails cause s).events.slotKinds = s.events.slotKinds ∧ (attachFails cause s).events.refreshCount = s.events.refreshCount
    ∧ (attachFails cause s).events.refreshTimer = s.events.refreshTimer ∧ (attachFails cause s).events.pageWriting = s.events.pageWriting
    ∧ (attachFails cause s).events.pageWanted = s.events.pageWanted ∧ (attachFails cause s).events.counters = s.events.counters
    ∧ (attachFails cause s).events.ledMs = s.events.ledMs := by simp only [attachFails]; (repeat' split) <;> simp

@[simp] theorem checkTxOverrun_frame (s : State) :
    (checkTxOverrun s).pending = s.pending ∧ (checkTxOverrun s).clock = s.clock ∧ (checkTxOverrun s).draws = s.draws
    ∧ (checkTxOverrun s).sram = s.sram ∧ (checkTxOverrun s).pins = s.pins ∧ (checkTxOverrun s).loader = s.loader ∧ (checkTxOverrun s).bus = s.bus
    ∧ (checkTxOverrun s).health = s.health ∧ (checkTxOverrun s).path = s.path ∧ (checkTxOverrun s).hold = s.hold
    ∧ (checkTxOverrun s).pacer = s.pacer ∧ (checkTxOverrun s).radio = s.radio ∧ (checkTxOverrun s).power = s.power
    ∧ (checkTxOverrun s).ring.window = s.ring.window ∧ (checkTxOverrun s).ring.base = s.ring.base
    ∧ (checkTxOverrun s).ring.partTxc = s.ring.partTxc ∧ (checkTxOverrun s).ring.readMark = s.ring.readMark
    ∧ (checkTxOverrun s).ring.descriptorRead = s.ring.descriptorRead ∧ (checkTxOverrun s).ring.takes = s.ring.takes
    ∧ (checkTxOverrun s).ring.fence = s.ring.fence ∧ (checkTxOverrun s).ring.scanRunning = s.ring.scanRunning
    ∧ (checkTxOverrun s).ring.scanMark = s.ring.scanMark ∧ (checkTxOverrun s).ring.scanRead = s.ring.scanRead
    ∧ (checkTxOverrun s).ring.txForcing = s.ring.txForcing ∧ (checkTxOverrun s).ring.rxForcing = s.ring.rxForcing
    ∧ (checkTxOverrun s).ring.handBackAsked = s.ring.handBackAsked ∧ (checkTxOverrun s).ring.fillCursor = s.ring.fillCursor
    ∧ (checkTxOverrun s).ring.partRxf = s.ring.partRxf ∧ (checkTxOverrun s).ring.delivery = s.ring.delivery
    ∧ (checkTxOverrun s).ring.descriptorHeld = s.ring.descriptorHeld ∧ (checkTxOverrun s).ring.rxOverrun = s.ring.rxOverrun
    ∧ (checkTxOverrun s).ring.rxCheckDue = s.ring.rxCheckDue ∧ (checkTxOverrun s).events.evp = s.events.evp
    ∧ (checkTxOverrun s).events.slotKinds = s.events.slotKinds ∧ (checkTxOverrun s).events.refreshCount = s.events.refreshCount
    ∧ (checkTxOverrun s).events.refreshTimer = s.events.refreshTimer ∧ (checkTxOverrun s).events.pageWriting = s.events.pageWriting
    ∧ (checkTxOverrun s).events.pageWanted = s.events.pageWanted ∧ (checkTxOverrun s).events.counters = s.events.counters
    ∧ (checkTxOverrun s).events.ledMs = s.events.ledMs := by unfold checkTxOverrun; (repeat' split) <;> simp

@[simp] theorem checkRxOverrun_frame (s : State) :
    (checkRxOverrun s).pending = s.pending ∧ (checkRxOverrun s).clock = s.clock ∧ (checkRxOverrun s).draws = s.draws
    ∧ (checkRxOverrun s).sram = s.sram ∧ (checkRxOverrun s).pins = s.pins ∧ (checkRxOverrun s).loader = s.loader ∧ (checkRxOverrun s).bus = s.bus
    ∧ (checkRxOverrun s).health = s.health ∧ (checkRxOverrun s).path = s.path ∧ (checkRxOverrun s).hold = s.hold
    ∧ (checkRxOverrun s).pacer = s.pacer ∧ (checkRxOverrun s).radio = s.radio ∧ (checkRxOverrun s).power = s.power
    ∧ (checkRxOverrun s).ring.window = s.ring.window ∧ (checkRxOverrun s).ring.base = s.ring.base
    ∧ (checkRxOverrun s).ring.partTxc = s.ring.partTxc ∧ (checkRxOverrun s).ring.readMark = s.ring.readMark
    ∧ (checkRxOverrun s).ring.descriptorRead = s.ring.descriptorRead ∧ (checkRxOverrun s).ring.takes = s.ring.takes
    ∧ (checkRxOverrun s).ring.fence = s.ring.fence ∧ (checkRxOverrun s).ring.overrun = s.ring.overrun
    ∧ (checkRxOverrun s).ring.txCheckDue = s.ring.txCheckDue ∧ (checkRxOverrun s).ring.scanRunning = s.ring.scanRunning
    ∧ (checkRxOverrun s).ring.scanMark = s.ring.scanMark ∧ (checkRxOverrun s).ring.scanRead = s.ring.scanRead
    ∧ (checkRxOverrun s).ring.txForcing = s.ring.txForcing ∧ (checkRxOverrun s).ring.rxForcing = s.ring.rxForcing
    ∧ (checkRxOverrun s).ring.handBackAsked = s.ring.handBackAsked ∧ (checkRxOverrun s).ring.fillCursor = s.ring.fillCursor
    ∧ (checkRxOverrun s).ring.partRxf = s.ring.partRxf ∧ (checkRxOverrun s).ring.delivery = s.ring.delivery
    ∧ (checkRxOverrun s).ring.descriptorHeld = s.ring.descriptorHeld ∧ (checkRxOverrun s).events.evp = s.events.evp
    ∧ (checkRxOverrun s).events.slotKinds = s.events.slotKinds ∧ (checkRxOverrun s).events.refreshCount = s.events.refreshCount
    ∧ (checkRxOverrun s).events.refreshTimer = s.events.refreshTimer ∧ (checkRxOverrun s).events.pageWriting = s.events.pageWriting
    ∧ (checkRxOverrun s).events.pageWanted = s.events.pageWanted ∧ (checkRxOverrun s).events.counters = s.events.counters
    ∧ (checkRxOverrun s).events.ledMs = s.events.ledMs := by unfold checkRxOverrun; (repeat' split) <;> simp

@[simp] theorem checksDue_frame (s : State) :
    (checksDue s).pending = s.pending ∧ (checksDue s).clock = s.clock ∧ (checksDue s).draws = s.draws ∧ (checksDue s).sram = s.sram
    ∧ (checksDue s).pins = s.pins ∧ (checksDue s).loader = s.loader ∧ (checksDue s).bus = s.bus ∧ (checksDue s).health = s.health
    ∧ (checksDue s).path = s.path ∧ (checksDue s).hold = s.hold ∧ (checksDue s).pacer = s.pacer ∧ (checksDue s).radio = s.radio
    ∧ (checksDue s).power = s.power ∧ (checksDue s).ring.window = s.ring.window ∧ (checksDue s).ring.base = s.ring.base
    ∧ (checksDue s).ring.partTxc = s.ring.partTxc ∧ (checksDue s).ring.readMark = s.ring.readMark
    ∧ (checksDue s).ring.descriptorRead = s.ring.descriptorRead ∧ (checksDue s).ring.takes = s.ring.takes
    ∧ (checksDue s).ring.fence = s.ring.fence ∧ (checksDue s).ring.scanRunning = s.ring.scanRunning
    ∧ (checksDue s).ring.scanMark = s.ring.scanMark ∧ (checksDue s).ring.scanRead = s.ring.scanRead
    ∧ (checksDue s).ring.txForcing = s.ring.txForcing ∧ (checksDue s).ring.rxForcing = s.ring.rxForcing
    ∧ (checksDue s).ring.handBackAsked = s.ring.handBackAsked ∧ (checksDue s).ring.fillCursor = s.ring.fillCursor
    ∧ (checksDue s).ring.partRxf = s.ring.partRxf ∧ (checksDue s).ring.delivery = s.ring.delivery
    ∧ (checksDue s).ring.descriptorHeld = s.ring.descriptorHeld ∧ (checksDue s).events.evp = s.events.evp
    ∧ (checksDue s).events.slotKinds = s.events.slotKinds ∧ (checksDue s).events.refreshCount = s.events.refreshCount
    ∧ (checksDue s).events.refreshTimer = s.events.refreshTimer ∧ (checksDue s).events.pageWriting = s.events.pageWriting
    ∧ (checksDue s).events.pageWanted = s.events.pageWanted ∧ (checksDue s).events.counters = s.events.counters
    ∧ (checksDue s).events.ledMs = s.events.ledMs := by simp only [checksDue]; (repeat' split) <;> simp

@[simp] theorem evalScan_frame (s : State) :
    (evalScan s).pending = s.pending ∧ (evalScan s).clock = s.clock ∧ (evalScan s).draws = s.draws ∧ (evalScan s).sram = s.sram
    ∧ (evalScan s).pins = s.pins ∧ (evalScan s).loader = s.loader ∧ (evalScan s).health = s.health ∧ (evalScan s).path = s.path
    ∧ (evalScan s).hold = s.hold ∧ (evalScan s).pacer = s.pacer ∧ (evalScan s).radio = s.radio ∧ (evalScan s).power = s.power
    ∧ (evalScan s).events = s.events ∧ (evalScan s).bus.shadows = s.bus.shadows ∧ (evalScan s).bus.txHorizon = s.bus.txHorizon
    ∧ (evalScan s).bus.rxHorizon = s.bus.rxHorizon ∧ (evalScan s).bus.fixedH = s.bus.fixedH ∧ (evalScan s).bus.fixedG = s.bus.fixedG
    ∧ (evalScan s).bus.uplinkView = s.bus.uplinkView ∧ (evalScan s).bus.receiveView = s.bus.receiveView
    ∧ (evalScan s).bus.uplinkViewValue = s.bus.uplinkViewValue ∧ (evalScan s).bus.receiveViewValue = s.bus.receiveViewValue
    ∧ (evalScan s).bus.txGuard = s.bus.txGuard ∧ (evalScan s).bus.rxGuard = s.bus.rxGuard ∧ (evalScan s).bus.queue = s.bus.queue
    ∧ (evalScan s).bus.waitCount = s.bus.waitCount ∧ (evalScan s).bus.gatewayData = s.bus.gatewayData ∧ (evalScan s).ring.window = s.ring.window
    ∧ (evalScan s).ring.base = s.ring.base ∧ (evalScan s).ring.partTxc = s.ring.partTxc ∧ (evalScan s).ring.readMark = s.ring.readMark
    ∧ (evalScan s).ring.descriptorRead = s.ring.descriptorRead ∧ (evalScan s).ring.takes = s.ring.takes ∧ (evalScan s).ring.fence = s.ring.fence
    ∧ (evalScan s).ring.overrun = s.ring.overrun ∧ (evalScan s).ring.txCheckDue = s.ring.txCheckDue
    ∧ (evalScan s).ring.txForcing = s.ring.txForcing ∧ (evalScan s).ring.rxForcing = s.ring.rxForcing
    ∧ (evalScan s).ring.handBackAsked = s.ring.handBackAsked ∧ (evalScan s).ring.fillCursor = s.ring.fillCursor
    ∧ (evalScan s).ring.partRxf = s.ring.partRxf ∧ (evalScan s).ring.delivery = s.ring.delivery
    ∧ (evalScan s).ring.descriptorHeld = s.ring.descriptorHeld ∧ (evalScan s).ring.rxOverrun = s.ring.rxOverrun
    ∧ (evalScan s).ring.rxCheckDue = s.ring.rxCheckDue := by unfold evalScan; (repeat' split) <;> simp

@[simp] theorem scanFollowsTxc_frame (s : State) :
    (scanFollowsTxc s).pending = s.pending ∧ (scanFollowsTxc s).clock = s.clock ∧ (scanFollowsTxc s).draws = s.draws
    ∧ (scanFollowsTxc s).sram = s.sram ∧ (scanFollowsTxc s).pins = s.pins ∧ (scanFollowsTxc s).loader = s.loader
    ∧ (scanFollowsTxc s).health = s.health ∧ (scanFollowsTxc s).path = s.path ∧ (scanFollowsTxc s).hold = s.hold
    ∧ (scanFollowsTxc s).pacer = s.pacer ∧ (scanFollowsTxc s).radio = s.radio ∧ (scanFollowsTxc s).power = s.power
    ∧ (scanFollowsTxc s).events = s.events ∧ (scanFollowsTxc s).bus.shadows = s.bus.shadows ∧ (scanFollowsTxc s).bus.txHorizon = s.bus.txHorizon
    ∧ (scanFollowsTxc s).bus.rxHorizon = s.bus.rxHorizon ∧ (scanFollowsTxc s).bus.fixedH = s.bus.fixedH
    ∧ (scanFollowsTxc s).bus.fixedG = s.bus.fixedG ∧ (scanFollowsTxc s).bus.uplinkView = s.bus.uplinkView
    ∧ (scanFollowsTxc s).bus.receiveView = s.bus.receiveView ∧ (scanFollowsTxc s).bus.uplinkViewValue = s.bus.uplinkViewValue
    ∧ (scanFollowsTxc s).bus.receiveViewValue = s.bus.receiveViewValue ∧ (scanFollowsTxc s).bus.txGuard = s.bus.txGuard
    ∧ (scanFollowsTxc s).bus.rxGuard = s.bus.rxGuard ∧ (scanFollowsTxc s).bus.queue = s.bus.queue
    ∧ (scanFollowsTxc s).bus.waitCount = s.bus.waitCount ∧ (scanFollowsTxc s).bus.gatewayData = s.bus.gatewayData
    ∧ (scanFollowsTxc s).ring.window = s.ring.window ∧ (scanFollowsTxc s).ring.base = s.ring.base
    ∧ (scanFollowsTxc s).ring.partTxc = s.ring.partTxc ∧ (scanFollowsTxc s).ring.readMark = s.ring.readMark
    ∧ (scanFollowsTxc s).ring.descriptorRead = s.ring.descriptorRead ∧ (scanFollowsTxc s).ring.takes = s.ring.takes
    ∧ (scanFollowsTxc s).ring.fence = s.ring.fence ∧ (scanFollowsTxc s).ring.overrun = s.ring.overrun
    ∧ (scanFollowsTxc s).ring.txCheckDue = s.ring.txCheckDue ∧ (scanFollowsTxc s).ring.scanRunning = s.ring.scanRunning
    ∧ (scanFollowsTxc s).ring.txForcing = s.ring.txForcing ∧ (scanFollowsTxc s).ring.rxForcing = s.ring.rxForcing
    ∧ (scanFollowsTxc s).ring.handBackAsked = s.ring.handBackAsked ∧ (scanFollowsTxc s).ring.fillCursor = s.ring.fillCursor
    ∧ (scanFollowsTxc s).ring.partRxf = s.ring.partRxf ∧ (scanFollowsTxc s).ring.delivery = s.ring.delivery
    ∧ (scanFollowsTxc s).ring.descriptorHeld = s.ring.descriptorHeld ∧ (scanFollowsTxc s).ring.rxOverrun = s.ring.rxOverrun
    ∧ (scanFollowsTxc s).ring.rxCheckDue = s.ring.rxCheckDue := by unfold scanFollowsTxc; (repeat' split) <;> simp

@[simp] theorem scanFollowsTxp_frame (old : Count) (s : State) :
    (scanFollowsTxp old s).pending = s.pending ∧ (scanFollowsTxp old s).clock = s.clock ∧ (scanFollowsTxp old s).draws = s.draws
    ∧ (scanFollowsTxp old s).sram = s.sram ∧ (scanFollowsTxp old s).pins = s.pins ∧ (scanFollowsTxp old s).loader = s.loader
    ∧ (scanFollowsTxp old s).health = s.health ∧ (scanFollowsTxp old s).path = s.path ∧ (scanFollowsTxp old s).hold = s.hold
    ∧ (scanFollowsTxp old s).pacer = s.pacer ∧ (scanFollowsTxp old s).radio = s.radio ∧ (scanFollowsTxp old s).power = s.power
    ∧ (scanFollowsTxp old s).events = s.events ∧ (scanFollowsTxp old s).bus.shadows = s.bus.shadows
    ∧ (scanFollowsTxp old s).bus.txHorizon = s.bus.txHorizon ∧ (scanFollowsTxp old s).bus.rxHorizon = s.bus.rxHorizon
    ∧ (scanFollowsTxp old s).bus.fixedH = s.bus.fixedH ∧ (scanFollowsTxp old s).bus.fixedG = s.bus.fixedG
    ∧ (scanFollowsTxp old s).bus.uplinkView = s.bus.uplinkView ∧ (scanFollowsTxp old s).bus.receiveView = s.bus.receiveView
    ∧ (scanFollowsTxp old s).bus.uplinkViewValue = s.bus.uplinkViewValue ∧ (scanFollowsTxp old s).bus.receiveViewValue = s.bus.receiveViewValue
    ∧ (scanFollowsTxp old s).bus.txGuard = s.bus.txGuard ∧ (scanFollowsTxp old s).bus.rxGuard = s.bus.rxGuard
    ∧ (scanFollowsTxp old s).bus.queue = s.bus.queue ∧ (scanFollowsTxp old s).bus.waitCount = s.bus.waitCount
    ∧ (scanFollowsTxp old s).bus.gatewayData = s.bus.gatewayData ∧ (scanFollowsTxp old s).ring.window = s.ring.window
    ∧ (scanFollowsTxp old s).ring.base = s.ring.base ∧ (scanFollowsTxp old s).ring.partTxc = s.ring.partTxc
    ∧ (scanFollowsTxp old s).ring.readMark = s.ring.readMark ∧ (scanFollowsTxp old s).ring.descriptorRead = s.ring.descriptorRead
    ∧ (scanFollowsTxp old s).ring.takes = s.ring.takes ∧ (scanFollowsTxp old s).ring.fence = s.ring.fence
    ∧ (scanFollowsTxp old s).ring.overrun = s.ring.overrun ∧ (scanFollowsTxp old s).ring.txCheckDue = s.ring.txCheckDue
    ∧ (scanFollowsTxp old s).ring.scanRunning = s.ring.scanRunning ∧ (scanFollowsTxp old s).ring.txForcing = s.ring.txForcing
    ∧ (scanFollowsTxp old s).ring.rxForcing = s.ring.rxForcing ∧ (scanFollowsTxp old s).ring.handBackAsked = s.ring.handBackAsked
    ∧ (scanFollowsTxp old s).ring.fillCursor = s.ring.fillCursor ∧ (scanFollowsTxp old s).ring.partRxf = s.ring.partRxf
    ∧ (scanFollowsTxp old s).ring.delivery = s.ring.delivery ∧ (scanFollowsTxp old s).ring.descriptorHeld = s.ring.descriptorHeld
    ∧ (scanFollowsTxp old s).ring.rxOverrun = s.ring.rxOverrun ∧ (scanFollowsTxp old s).ring.rxCheckDue = s.ring.rxCheckDue := by unfold scanFollowsTxp; (repeat' split) <;> simp

@[simp] theorem sampleSig_frame (s : State) :
    (sampleSig s).pending = s.pending ∧ (sampleSig s).clock = s.clock ∧ (sampleSig s).draws = s.draws ∧ (sampleSig s).sram = s.sram
    ∧ (sampleSig s).pins = s.pins ∧ (sampleSig s).loader = s.loader ∧ (sampleSig s).bus = s.bus ∧ (sampleSig s).ring = s.ring
    ∧ (sampleSig s).path = s.path ∧ (sampleSig s).hold = s.hold ∧ (sampleSig s).pacer = s.pacer ∧ (sampleSig s).radio = s.radio
    ∧ (sampleSig s).power = s.power ∧ (sampleSig s).events = s.events ∧ (sampleSig s).health.verdict = s.health.verdict
    ∧ (sampleSig s).health.txReference = s.health.txReference ∧ (sampleSig s).health.activityMark = s.health.activityMark
    ∧ (sampleSig s).health.timer100 = s.health.timer100 ∧ (sampleSig s).health.timer1s = s.health.timer1s := by simp [sampleSig]

@[simp] theorem sampleTxp_frame (s : State) :
    (sampleTxp s).pending = s.pending ∧ (sampleTxp s).clock = s.clock ∧ (sampleTxp s).draws = s.draws ∧ (sampleTxp s).sram = s.sram
    ∧ (sampleTxp s).pins = s.pins ∧ (sampleTxp s).loader = s.loader ∧ (sampleTxp s).bus = s.bus ∧ (sampleTxp s).ring = s.ring
    ∧ (sampleTxp s).path = s.path ∧ (sampleTxp s).hold = s.hold ∧ (sampleTxp s).pacer = s.pacer ∧ (sampleTxp s).radio = s.radio
    ∧ (sampleTxp s).power = s.power ∧ (sampleTxp s).events = s.events ∧ (sampleTxp s).health.verdict = s.health.verdict
    ∧ (sampleTxp s).health.activityMark = s.health.activityMark ∧ (sampleTxp s).health.timer100 = s.health.timer100
    ∧ (sampleTxp s).health.timer1s = s.health.timer1s := by unfold sampleTxp; (repeat' split) <;> simp

@[simp] theorem sampleRxa_frame (s : State) :
    (sampleRxa s).pending = s.pending ∧ (sampleRxa s).clock = s.clock ∧ (sampleRxa s).draws = s.draws ∧ (sampleRxa s).sram = s.sram
    ∧ (sampleRxa s).pins = s.pins ∧ (sampleRxa s).loader = s.loader ∧ (sampleRxa s).bus = s.bus ∧ (sampleRxa s).ring = s.ring
    ∧ (sampleRxa s).path = s.path ∧ (sampleRxa s).hold = s.hold ∧ (sampleRxa s).pacer = s.pacer ∧ (sampleRxa s).radio = s.radio
    ∧ (sampleRxa s).power = s.power ∧ (sampleRxa s).events = s.events ∧ (sampleRxa s).health.verdict = s.health.verdict
    ∧ (sampleRxa s).health.txReference = s.health.txReference ∧ (sampleRxa s).health.timer100 = s.health.timer100
    ∧ (sampleRxa s).health.timer1s = s.health.timer1s := by simp [sampleRxa]

@[simp] theorem evalDoze_frame (s : State) :
    (evalDoze s).pending = s.pending ∧ (evalDoze s).clock = s.clock ∧ (evalDoze s).draws = s.draws ∧ (evalDoze s).sram = s.sram
    ∧ (evalDoze s).pins = s.pins ∧ (evalDoze s).loader = s.loader ∧ (evalDoze s).bus = s.bus ∧ (evalDoze s).ring = s.ring
    ∧ (evalDoze s).health = s.health ∧ (evalDoze s).path = s.path ∧ (evalDoze s).hold = s.hold ∧ (evalDoze s).pacer = s.pacer
    ∧ (evalDoze s).events = s.events ∧ (evalDoze s).radio.state = s.radio.state ∧ (evalDoze s).radio.ready = s.radio.ready
    ∧ (evalDoze s).radio.failures = s.radio.failures ∧ (evalDoze s).radio.lastCause = s.radio.lastCause
    ∧ (evalDoze s).radio.startTimer = s.radio.startTimer ∧ (evalDoze s).radio.cycleTimer = s.radio.cycleTimer
    ∧ (evalDoze s).radio.attachTimer = s.radio.attachTimer ∧ (evalDoze s).radio.backoffTimer = s.radio.backoffTimer
    ∧ (evalDoze s).radio.silenceTimer = s.radio.silenceTimer ∧ (evalDoze s).radio.lingerTimer = s.radio.lingerTimer
    ∧ (evalDoze s).radio.mrstTimer = s.radio.mrstTimer ∧ (evalDoze s).radio.grantUp = s.radio.grantUp
    ∧ (evalDoze s).radio.grantDown = s.radio.grantDown ∧ (evalDoze s).radio.grantQuality = s.radio.grantQuality
    ∧ (evalDoze s).radio.slotA = s.radio.slotA ∧ (evalDoze s).radio.slotB = s.radio.slotB ∧ (evalDoze s).radio.unsent = s.radio.unsent
    ∧ (evalDoze s).radio.attachTag = s.radio.attachTag ∧ (evalDoze s).radio.pauseTold = s.radio.pauseTold
    ∧ (evalDoze s).radio.capTold = s.radio.capTold ∧ (evalDoze s).radio.lowPowerTold = s.radio.lowPowerTold
    ∧ (evalDoze s).radio.ldoLast = s.radio.ldoLast ∧ (evalDoze s).radio.receiver = s.radio.receiver ∧ (evalDoze s).radio.mpwr = s.radio.mpwr
    ∧ (evalDoze s).radio.mrst = s.radio.mrst ∧ (evalDoze s).power.mode = s.power.mode ∧ (evalDoze s).power.mainsReturn = s.power.mainsReturn
    ∧ (evalDoze s).power.quiet = s.power.quiet ∧ (evalDoze s).power.dozeTimer = s.power.dozeTimer ∧ (evalDoze s).power.restart = s.power.restart
    ∧ (evalDoze s).power.latch = s.power.latch := by unfold evalDoze; (repeat' split) <;> simp

@[simp] theorem wantRead_frame (s : State) :
    (wantRead s).pending = s.pending ∧ (wantRead s).clock = s.clock ∧ (wantRead s).draws = s.draws ∧ (wantRead s).sram = s.sram
    ∧ (wantRead s).pins = s.pins ∧ (wantRead s).ring = s.ring ∧ (wantRead s).health = s.health ∧ (wantRead s).path = s.path
    ∧ (wantRead s).hold = s.hold ∧ (wantRead s).pacer = s.pacer ∧ (wantRead s).radio = s.radio ∧ (wantRead s).power = s.power
    ∧ (wantRead s).events = s.events ∧ (wantRead s).loader.phase = s.loader.phase ∧ (wantRead s).loader.flashCode = s.loader.flashCode
    ∧ (wantRead s).loader.map = s.loader.map ∧ (wantRead s).loader.linkClock = s.loader.linkClock
    ∧ (wantRead s).loader.defaultPolicy = s.loader.defaultPolicy ∧ (wantRead s).loader.policy = s.loader.policy
    ∧ (wantRead s).loader.firstHalf = s.loader.firstHalf ∧ (wantRead s).loader.pgenAtIssue = s.loader.pgenAtIssue
    ∧ (wantRead s).loader.softResetInForce = s.loader.softResetInForce ∧ (wantRead s).loader.counterClearInForce = s.loader.counterClearInForce
    ∧ (wantRead s).loader.shadowsLoaded = s.loader.shadowsLoaded ∧ (wantRead s).loader.softReset = s.loader.softReset
    ∧ (wantRead s).loader.softWait = s.loader.softWait ∧ (wantRead s).loader.softUp = s.loader.softUp
    ∧ (wantRead s).loader.softDown = s.loader.softDown ∧ (wantRead s).loader.softPositions = s.loader.softPositions
    ∧ (wantRead s).bus.shadows = s.bus.shadows ∧ (wantRead s).bus.txHorizon = s.bus.txHorizon ∧ (wantRead s).bus.rxHorizon = s.bus.rxHorizon
    ∧ (wantRead s).bus.fixedH = s.bus.fixedH ∧ (wantRead s).bus.fixedG = s.bus.fixedG ∧ (wantRead s).bus.uplinkView = s.bus.uplinkView
    ∧ (wantRead s).bus.receiveView = s.bus.receiveView ∧ (wantRead s).bus.uplinkViewValue = s.bus.uplinkViewValue
    ∧ (wantRead s).bus.receiveViewValue = s.bus.receiveViewValue ∧ (wantRead s).bus.txGuard = s.bus.txGuard
    ∧ (wantRead s).bus.rxGuard = s.bus.rxGuard ∧ (wantRead s).bus.queue = s.bus.queue ∧ (wantRead s).bus.waitCount = s.bus.waitCount
    ∧ (wantRead s).bus.gatewayData = s.bus.gatewayData := by unfold wantRead; (repeat' split) <;> simp

@[simp] theorem endReceiving_frame (s : State) :
    (endReceiving s).pending = s.pending ∧ (endReceiving s).clock = s.clock ∧ (endReceiving s).draws = s.draws ∧ (endReceiving s).sram = s.sram
    ∧ (endReceiving s).pins = s.pins ∧ (endReceiving s).bus = s.bus ∧ (endReceiving s).ring = s.ring ∧ (endReceiving s).health = s.health
    ∧ (endReceiving s).path = s.path ∧ (endReceiving s).hold = s.hold ∧ (endReceiving s).pacer = s.pacer ∧ (endReceiving s).power = s.power
    ∧ (endReceiving s).loader.phase = s.loader.phase ∧ (endReceiving s).loader.flashCode = s.loader.flashCode
    ∧ (endReceiving s).loader.map = s.loader.map ∧ (endReceiving s).loader.linkClock = s.loader.linkClock
    ∧ (endReceiving s).loader.defaultPolicy = s.loader.defaultPolicy ∧ (endReceiving s).loader.policy = s.loader.policy
    ∧ (endReceiving s).loader.readState = s.loader.readState ∧ (endReceiving s).loader.readKind = s.loader.readKind
    ∧ (endReceiving s).loader.dueAfterRestart = s.loader.dueAfterRestart ∧ (endReceiving s).loader.firstHalf = s.loader.firstHalf
    ∧ (endReceiving s).loader.pgenAtIssue = s.loader.pgenAtIssue ∧ (endReceiving s).loader.softResetInForce = s.loader.softResetInForce
    ∧ (endReceiving s).loader.counterClearInForce = s.loader.counterClearInForce ∧ (endReceiving s).loader.shadowsLoaded = s.loader.shadowsLoaded
    ∧ (endReceiving s).loader.softReset = s.loader.softReset ∧ (endReceiving s).loader.softWait = s.loader.softWait
    ∧ (endReceiving s).loader.softPositions = s.loader.softPositions ∧ (endReceiving s).radio.state = s.radio.state
    ∧ (endReceiving s).radio.ready = s.radio.ready ∧ (endReceiving s).radio.failures = s.radio.failures
    ∧ (endReceiving s).radio.lastCause = s.radio.lastCause ∧ (endReceiving s).radio.startTimer = s.radio.startTimer
    ∧ (endReceiving s).radio.cycleTimer = s.radio.cycleTimer ∧ (endReceiving s).radio.attachTimer = s.radio.attachTimer
    ∧ (endReceiving s).radio.backoffTimer = s.radio.backoffTimer ∧ (endReceiving s).radio.silenceTimer = s.radio.silenceTimer
    ∧ (endReceiving s).radio.lingerTimer = s.radio.lingerTimer ∧ (endReceiving s).radio.mrstTimer = s.radio.mrstTimer
    ∧ (endReceiving s).radio.grantUp = s.radio.grantUp ∧ (endReceiving s).radio.grantDown = s.radio.grantDown
    ∧ (endReceiving s).radio.grantQuality = s.radio.grantQuality ∧ (endReceiving s).radio.slotA = s.radio.slotA
    ∧ (endReceiving s).radio.slotB = s.radio.slotB ∧ (endReceiving s).radio.unsent = s.radio.unsent
    ∧ (endReceiving s).radio.attachTag = s.radio.attachTag ∧ (endReceiving s).radio.pauseTold = s.radio.pauseTold
    ∧ (endReceiving s).radio.capTold = s.radio.capTold ∧ (endReceiving s).radio.lowPowerTold = s.radio.lowPowerTold
    ∧ (endReceiving s).radio.items = s.radio.items ∧ (endReceiving s).radio.ldo = s.radio.ldo ∧ (endReceiving s).radio.ldoLast = s.radio.ldoLast
    ∧ (endReceiving s).radio.mpwr = s.radio.mpwr ∧ (endReceiving s).radio.mrst = s.radio.mrst
    ∧ (endReceiving s).events.entries = s.events.entries ∧ (endReceiving s).events.evp = s.events.evp
    ∧ (endReceiving s).events.slotKinds = s.events.slotKinds ∧ (endReceiving s).events.refreshCount = s.events.refreshCount
    ∧ (endReceiving s).events.refreshTimer = s.events.refreshTimer ∧ (endReceiving s).events.pageWriting = s.events.pageWriting
    ∧ (endReceiving s).events.pageWanted = s.events.pageWanted ∧ (endReceiving s).events.ledMs = s.events.ledMs := by unfold endReceiving; (repeat' split) <;> simp

@[simp] theorem reinitRing_frame (s : State) :
    (reinitRing s).pending = s.pending ∧ (reinitRing s).clock = s.clock ∧ (reinitRing s).draws = s.draws ∧ (reinitRing s).sram = s.sram
    ∧ (reinitRing s).pins = s.pins ∧ (reinitRing s).loader = s.loader ∧ (reinitRing s).health = s.health ∧ (reinitRing s).path = s.path
    ∧ (reinitRing s).hold = s.hold ∧ (reinitRing s).pacer = s.pacer ∧ (reinitRing s).radio = s.radio ∧ (reinitRing s).power = s.power
    ∧ (reinitRing s).events = s.events ∧ (reinitRing s).bus.shadows = s.bus.shadows ∧ (reinitRing s).bus.txHorizon = s.bus.txHorizon
    ∧ (reinitRing s).bus.rxHorizon = s.bus.rxHorizon ∧ (reinitRing s).bus.fixedH = s.bus.fixedH ∧ (reinitRing s).bus.fixedG = s.bus.fixedG
    ∧ (reinitRing s).bus.uplinkView = s.bus.uplinkView ∧ (reinitRing s).bus.receiveView = s.bus.receiveView
    ∧ (reinitRing s).bus.uplinkViewValue = s.bus.uplinkViewValue ∧ (reinitRing s).bus.receiveViewValue = s.bus.receiveViewValue
    ∧ (reinitRing s).bus.txGuard = s.bus.txGuard ∧ (reinitRing s).bus.rxGuard = s.bus.rxGuard ∧ (reinitRing s).bus.queue = s.bus.queue
    ∧ (reinitRing s).bus.waitCount = s.bus.waitCount ∧ (reinitRing s).bus.gatewayData = s.bus.gatewayData
    ∧ (reinitRing s).ring.partTxc = s.ring.partTxc ∧ (reinitRing s).ring.takes = s.ring.takes
    ∧ (reinitRing s).ring.txCheckDue = s.ring.txCheckDue ∧ (reinitRing s).ring.txForcing = s.ring.txForcing
    ∧ (reinitRing s).ring.rxForcing = s.ring.rxForcing ∧ (reinitRing s).ring.fillCursor = s.ring.fillCursor
    ∧ (reinitRing s).ring.partRxf = s.ring.partRxf ∧ (reinitRing s).ring.delivery = s.ring.delivery
    ∧ (reinitRing s).ring.rxCheckDue = s.ring.rxCheckDue := by simp [reinitRing]

@[simp] theorem reinitRadio_frame (s : State) :
    (reinitRadio s).pending = s.pending ∧ (reinitRadio s).clock = s.clock ∧ (reinitRadio s).draws = s.draws ∧ (reinitRadio s).sram = s.sram
    ∧ (reinitRadio s).pins = s.pins ∧ (reinitRadio s).loader = s.loader ∧ (reinitRadio s).bus = s.bus ∧ (reinitRadio s).ring = s.ring
    ∧ (reinitRadio s).health = s.health ∧ (reinitRadio s).path = s.path ∧ (reinitRadio s).hold = s.hold ∧ (reinitRadio s).pacer = s.pacer
    ∧ (reinitRadio s).power = s.power ∧ (reinitRadio s).events = s.events ∧ (reinitRadio s).radio.cycleTimer = s.radio.cycleTimer
    ∧ (reinitRadio s).radio.mrstTimer = s.radio.mrstTimer ∧ (reinitRadio s).radio.slotA = s.radio.slotA
    ∧ (reinitRadio s).radio.slotB = s.radio.slotB ∧ (reinitRadio s).radio.unsent = s.radio.unsent
    ∧ (reinitRadio s).radio.pauseTold = s.radio.pauseTold ∧ (reinitRadio s).radio.capTold = s.radio.capTold
    ∧ (reinitRadio s).radio.lowPowerTold = s.radio.lowPowerTold ∧ (reinitRadio s).radio.ldo = s.radio.ldo
    ∧ (reinitRadio s).radio.ldoLast = s.radio.ldoLast ∧ (reinitRadio s).radio.receiver = s.radio.receiver
    ∧ (reinitRadio s).radio.mpwr = s.radio.mpwr ∧ (reinitRadio s).radio.mrst = s.radio.mrst := by simp only [reinitRadio]; (repeat' split) <;> simp

@[simp] theorem readEnds_frame (s : State) :
    (readEnds s).pending = s.pending ∧ (readEnds s).clock = s.clock ∧ (readEnds s).draws = s.draws ∧ (readEnds s).sram = s.sram
    ∧ (readEnds s).pins = s.pins ∧ (readEnds s).ring = s.ring ∧ (readEnds s).health = s.health ∧ (readEnds s).path = s.path
    ∧ (readEnds s).hold = s.hold ∧ (readEnds s).pacer = s.pacer ∧ (readEnds s).radio = s.radio ∧ (readEnds s).power = s.power
    ∧ (readEnds s).events = s.events ∧ (readEnds s).loader.phase = s.loader.phase ∧ (readEnds s).loader.flashCode = s.loader.flashCode
    ∧ (readEnds s).loader.map = s.loader.map ∧ (readEnds s).loader.linkClock = s.loader.linkClock
    ∧ (readEnds s).loader.defaultPolicy = s.loader.defaultPolicy ∧ (readEnds s).loader.policy = s.loader.policy
    ∧ (readEnds s).loader.firstHalf = s.loader.firstHalf ∧ (readEnds s).loader.pgenAtIssue = s.loader.pgenAtIssue
    ∧ (readEnds s).loader.softResetInForce = s.loader.softResetInForce ∧ (readEnds s).loader.counterClearInForce = s.loader.counterClearInForce
    ∧ (readEnds s).loader.shadowsLoaded = s.loader.shadowsLoaded ∧ (readEnds s).loader.softReset = s.loader.softReset
    ∧ (readEnds s).loader.softWait = s.loader.softWait ∧ (readEnds s).loader.softUp = s.loader.softUp
    ∧ (readEnds s).loader.softDown = s.loader.softDown ∧ (readEnds s).loader.softPositions = s.loader.softPositions
    ∧ (readEnds s).bus.shadows = s.bus.shadows ∧ (readEnds s).bus.txHorizon = s.bus.txHorizon ∧ (readEnds s).bus.rxHorizon = s.bus.rxHorizon
    ∧ (readEnds s).bus.fixedH = s.bus.fixedH ∧ (readEnds s).bus.fixedG = s.bus.fixedG ∧ (readEnds s).bus.uplinkView = s.bus.uplinkView
    ∧ (readEnds s).bus.receiveView = s.bus.receiveView ∧ (readEnds s).bus.uplinkViewValue = s.bus.uplinkViewValue
    ∧ (readEnds s).bus.receiveViewValue = s.bus.receiveViewValue ∧ (readEnds s).bus.txGuard = s.bus.txGuard
    ∧ (readEnds s).bus.rxGuard = s.bus.rxGuard ∧ (readEnds s).bus.queue = s.bus.queue ∧ (readEnds s).bus.waitCount = s.bus.waitCount
    ∧ (readEnds s).bus.gatewayData = s.bus.gatewayData := by unfold readEnds; (repeat' split) <;> simp

@[simp] theorem recordJoins_frame (s : State) :
    (recordJoins s).pending = s.pending ∧ (recordJoins s).clock = s.clock ∧ (recordJoins s).draws = s.draws ∧ (recordJoins s).sram = s.sram
    ∧ (recordJoins s).pins = s.pins ∧ (recordJoins s).loader = s.loader ∧ (recordJoins s).bus = s.bus ∧ (recordJoins s).ring = s.ring
    ∧ (recordJoins s).health = s.health ∧ (recordJoins s).path = s.path ∧ (recordJoins s).hold = s.hold ∧ (recordJoins s).pacer = s.pacer
    ∧ (recordJoins s).events = s.events ∧ (recordJoins s).radio.state = s.radio.state ∧ (recordJoins s).radio.ready = s.radio.ready
    ∧ (recordJoins s).radio.failures = s.radio.failures ∧ (recordJoins s).radio.lastCause = s.radio.lastCause
    ∧ (recordJoins s).radio.startTimer = s.radio.startTimer ∧ (recordJoins s).radio.cycleTimer = s.radio.cycleTimer
    ∧ (recordJoins s).radio.attachTimer = s.radio.attachTimer ∧ (recordJoins s).radio.backoffTimer = s.radio.backoffTimer
    ∧ (recordJoins s).radio.silenceTimer = s.radio.silenceTimer ∧ (recordJoins s).radio.lingerTimer = s.radio.lingerTimer
    ∧ (recordJoins s).radio.mrstTimer = s.radio.mrstTimer ∧ (recordJoins s).radio.grantUp = s.radio.grantUp
    ∧ (recordJoins s).radio.grantDown = s.radio.grantDown ∧ (recordJoins s).radio.grantQuality = s.radio.grantQuality
    ∧ (recordJoins s).radio.slotA = s.radio.slotA ∧ (recordJoins s).radio.slotB = s.radio.slotB ∧ (recordJoins s).radio.unsent = s.radio.unsent
    ∧ (recordJoins s).radio.attachTag = s.radio.attachTag ∧ (recordJoins s).radio.pauseTold = s.radio.pauseTold
    ∧ (recordJoins s).radio.capTold = s.radio.capTold ∧ (recordJoins s).radio.lowPowerTold = s.radio.lowPowerTold
    ∧ (recordJoins s).radio.ldoLast = s.radio.ldoLast ∧ (recordJoins s).radio.receiver = s.radio.receiver
    ∧ (recordJoins s).radio.mpwr = s.radio.mpwr ∧ (recordJoins s).radio.mrst = s.radio.mrst ∧ (recordJoins s).power.mode = s.power.mode
    ∧ (recordJoins s).power.mainsReturn = s.power.mainsReturn ∧ (recordJoins s).power.quiet = s.power.quiet
    ∧ (recordJoins s).power.dozeTimer = s.power.dozeTimer ∧ (recordJoins s).power.restart = s.power.restart
    ∧ (recordJoins s).power.latch = s.power.latch := by simp [recordJoins]

@[simp] theorem priorityTake_frame (s : State) :
    (priorityTake s).pending = s.pending ∧ (priorityTake s).clock = s.clock ∧ (priorityTake s).draws = s.draws ∧ (priorityTake s).sram = s.sram
    ∧ (priorityTake s).pins = s.pins ∧ (priorityTake s).loader = s.loader ∧ (priorityTake s).bus = s.bus ∧ (priorityTake s).ring = s.ring
    ∧ (priorityTake s).health = s.health ∧ (priorityTake s).hold = s.hold ∧ (priorityTake s).pacer = s.pacer ∧ (priorityTake s).power = s.power
    ∧ (priorityTake s).events = s.events ∧ (priorityTake s).path.path = s.path.path ∧ (priorityTake s).path.phase = s.path.phase
    ∧ (priorityTake s).path.dwellD = s.path.dwellD ∧ (priorityTake s).path.dwell = s.path.dwell
    ∧ (priorityTake s).path.refallTimer = s.path.refallTimer ∧ (priorityTake s).path.refallOpen = s.path.refallOpen
    ∧ (priorityTake s).path.releaseTimer = s.path.releaseTimer ∧ (priorityTake s).path.txReleased = s.path.txReleased
    ∧ (priorityTake s).path.rxReleased = s.path.rxReleased ∧ (priorityTake s).path.drainTimer = s.path.drainTimer
    ∧ (priorityTake s).path.radioWanted = s.path.radioWanted ∧ (priorityTake s).path.returnPause = s.path.returnPause
    ∧ (priorityTake s).path.recorded = s.path.recorded ∧ (priorityTake s).radio.failures = s.radio.failures
    ∧ (priorityTake s).radio.lastCause = s.radio.lastCause ∧ (priorityTake s).radio.cycleTimer = s.radio.cycleTimer
    ∧ (priorityTake s).radio.silenceTimer = s.radio.silenceTimer ∧ (priorityTake s).radio.grantUp = s.radio.grantUp
    ∧ (priorityTake s).radio.grantDown = s.radio.grantDown ∧ (priorityTake s).radio.grantQuality = s.radio.grantQuality
    ∧ (priorityTake s).radio.slotA = s.radio.slotA ∧ (priorityTake s).radio.slotB = s.radio.slotB
    ∧ (priorityTake s).radio.unsent = s.radio.unsent ∧ (priorityTake s).radio.pauseTold = s.radio.pauseTold
    ∧ (priorityTake s).radio.capTold = s.radio.capTold ∧ (priorityTake s).radio.lowPowerTold = s.radio.lowPowerTold
    ∧ (priorityTake s).radio.ldo = s.radio.ldo ∧ (priorityTake s).radio.ldoLast = s.radio.ldoLast
    ∧ (priorityTake s).radio.receiver = s.radio.receiver := by simp only [priorityTake]; (repeat' split) <;> simp

@[simp] theorem countUsage_frame (length : Nat) (s : State) :
    (countUsage length s).pending = s.pending ∧ (countUsage length s).clock = s.clock ∧ (countUsage length s).draws = s.draws
    ∧ (countUsage length s).sram = s.sram ∧ (countUsage length s).pins = s.pins ∧ (countUsage length s).loader = s.loader
    ∧ (countUsage length s).bus = s.bus ∧ (countUsage length s).ring = s.ring ∧ (countUsage length s).health = s.health
    ∧ (countUsage length s).path = s.path ∧ (countUsage length s).hold = s.hold ∧ (countUsage length s).power = s.power
    ∧ (countUsage length s).pacer.credit = s.pacer.credit ∧ (countUsage length s).pacer.pacing = s.pacer.pacing
    ∧ (countUsage length s).pacer.refusalPause = s.pacer.refusalPause ∧ (countUsage length s).pacer.chargeA = s.pacer.chargeA
    ∧ (countUsage length s).pacer.chargeB = s.pacer.chargeB ∧ (countUsage length s).pacer.grantSeen = s.pacer.grantSeen
    ∧ (countUsage length s).pacer.usageBase = s.pacer.usageBase ∧ (countUsage length s).radio.state = s.radio.state
    ∧ (countUsage length s).radio.ready = s.radio.ready ∧ (countUsage length s).radio.failures = s.radio.failures
    ∧ (countUsage length s).radio.lastCause = s.radio.lastCause ∧ (countUsage length s).radio.startTimer = s.radio.startTimer
    ∧ (countUsage length s).radio.cycleTimer = s.radio.cycleTimer ∧ (countUsage length s).radio.attachTimer = s.radio.attachTimer
    ∧ (countUsage length s).radio.backoffTimer = s.radio.backoffTimer ∧ (countUsage length s).radio.silenceTimer = s.radio.silenceTimer
    ∧ (countUsage length s).radio.lingerTimer = s.radio.lingerTimer ∧ (countUsage length s).radio.mrstTimer = s.radio.mrstTimer
    ∧ (countUsage length s).radio.grantUp = s.radio.grantUp ∧ (countUsage length s).radio.grantDown = s.radio.grantDown
    ∧ (countUsage length s).radio.grantQuality = s.radio.grantQuality ∧ (countUsage length s).radio.slotA = s.radio.slotA
    ∧ (countUsage length s).radio.slotB = s.radio.slotB ∧ (countUsage length s).radio.unsent = s.radio.unsent
    ∧ (countUsage length s).radio.attachTag = s.radio.attachTag ∧ (countUsage length s).radio.pauseTold = s.radio.pauseTold
    ∧ (countUsage length s).radio.capTold = s.radio.capTold ∧ (countUsage length s).radio.lowPowerTold = s.radio.lowPowerTold
    ∧ (countUsage length s).radio.ldo = s.radio.ldo ∧ (countUsage length s).radio.ldoLast = s.radio.ldoLast
    ∧ (countUsage length s).radio.receiver = s.radio.receiver ∧ (countUsage length s).radio.mpwr = s.radio.mpwr
    ∧ (countUsage length s).radio.mrst = s.radio.mrst ∧ (countUsage length s).events.evp = s.events.evp
    ∧ (countUsage length s).events.slotKinds = s.events.slotKinds ∧ (countUsage length s).events.refreshCount = s.events.refreshCount
    ∧ (countUsage length s).events.refreshTimer = s.events.refreshTimer ∧ (countUsage length s).events.pageWriting = s.events.pageWriting
    ∧ (countUsage length s).events.pageWanted = s.events.pageWanted ∧ (countUsage length s).events.counters = s.events.counters
    ∧ (countUsage length s).events.ledMs = s.events.ledMs := by simp [countUsage]

@[simp] theorem afterTxRelease_frame (s : State) :
    (afterTxRelease s).pending = s.pending ∧ (afterTxRelease s).clock = s.clock ∧ (afterTxRelease s).draws = s.draws
    ∧ (afterTxRelease s).sram = s.sram ∧ (afterTxRelease s).pins = s.pins ∧ (afterTxRelease s).loader = s.loader
    ∧ (afterTxRelease s).health = s.health ∧ (afterTxRelease s).path = s.path ∧ (afterTxRelease s).hold = s.hold
    ∧ (afterTxRelease s).pacer = s.pacer ∧ (afterTxRelease s).radio = s.radio ∧ (afterTxRelease s).power = s.power
    ∧ (afterTxRelease s).bus.shadows = s.bus.shadows ∧ (afterTxRelease s).bus.txHorizon = s.bus.txHorizon
    ∧ (afterTxRelease s).bus.rxHorizon = s.bus.rxHorizon ∧ (afterTxRelease s).bus.fixedH = s.bus.fixedH
    ∧ (afterTxRelease s).bus.fixedG = s.bus.fixedG ∧ (afterTxRelease s).bus.uplinkView = s.bus.uplinkView
    ∧ (afterTxRelease s).bus.receiveView = s.bus.receiveView ∧ (afterTxRelease s).bus.uplinkViewValue = s.bus.uplinkViewValue
    ∧ (afterTxRelease s).bus.receiveViewValue = s.bus.receiveViewValue ∧ (afterTxRelease s).bus.txGuard = s.bus.txGuard
    ∧ (afterTxRelease s).bus.rxGuard = s.bus.rxGuard ∧ (afterTxRelease s).bus.queue = s.bus.queue
    ∧ (afterTxRelease s).bus.waitCount = s.bus.waitCount ∧ (afterTxRelease s).bus.gatewayData = s.bus.gatewayData
    ∧ (afterTxRelease s).ring.window = s.ring.window ∧ (afterTxRelease s).ring.base = s.ring.base
    ∧ (afterTxRelease s).ring.partTxc = s.ring.partTxc ∧ (afterTxRelease s).ring.readMark = s.ring.readMark
    ∧ (afterTxRelease s).ring.takes = s.ring.takes ∧ (afterTxRelease s).ring.fence = s.ring.fence
    ∧ (afterTxRelease s).ring.scanRunning = s.ring.scanRunning ∧ (afterTxRelease s).ring.scanMark = s.ring.scanMark
    ∧ (afterTxRelease s).ring.scanRead = s.ring.scanRead ∧ (afterTxRelease s).ring.txForcing = s.ring.txForcing
    ∧ (afterTxRelease s).ring.rxForcing = s.ring.rxForcing ∧ (afterTxRelease s).ring.handBackAsked = s.ring.handBackAsked
    ∧ (afterTxRelease s).ring.fillCursor = s.ring.fillCursor ∧ (afterTxRelease s).ring.partRxf = s.ring.partRxf
    ∧ (afterTxRelease s).ring.delivery = s.ring.delivery ∧ (afterTxRelease s).ring.descriptorHeld = s.ring.descriptorHeld
    ∧ (afterTxRelease s).ring.rxOverrun = s.ring.rxOverrun ∧ (afterTxRelease s).ring.rxCheckDue = s.ring.rxCheckDue
    ∧ (afterTxRelease s).events.evp = s.events.evp ∧ (afterTxRelease s).events.slotKinds = s.events.slotKinds
    ∧ (afterTxRelease s).events.refreshCount = s.events.refreshCount ∧ (afterTxRelease s).events.refreshTimer = s.events.refreshTimer
    ∧ (afterTxRelease s).events.pageWriting = s.events.pageWriting ∧ (afterTxRelease s).events.pageWanted = s.events.pageWanted
    ∧ (afterTxRelease s).events.counters = s.events.counters ∧ (afterTxRelease s).events.ledMs = s.events.ledMs := by simp [afterTxRelease]

@[simp] theorem afterRxRelease_frame (s : State) :
    (afterRxRelease s).pending = s.pending ∧ (afterRxRelease s).clock = s.clock ∧ (afterRxRelease s).draws = s.draws
    ∧ (afterRxRelease s).sram = s.sram ∧ (afterRxRelease s).pins = s.pins ∧ (afterRxRelease s).loader = s.loader
    ∧ (afterRxRelease s).health = s.health ∧ (afterRxRelease s).path = s.path ∧ (afterRxRelease s).hold = s.hold
    ∧ (afterRxRelease s).pacer = s.pacer ∧ (afterRxRelease s).radio = s.radio ∧ (afterRxRelease s).power = s.power
    ∧ (afterRxRelease s).bus.shadows = s.bus.shadows ∧ (afterRxRelease s).bus.txHorizon = s.bus.txHorizon
    ∧ (afterRxRelease s).bus.rxHorizon = s.bus.rxHorizon ∧ (afterRxRelease s).bus.fixedH = s.bus.fixedH
    ∧ (afterRxRelease s).bus.fixedG = s.bus.fixedG ∧ (afterRxRelease s).bus.uplinkView = s.bus.uplinkView
    ∧ (afterRxRelease s).bus.receiveView = s.bus.receiveView ∧ (afterRxRelease s).bus.uplinkViewValue = s.bus.uplinkViewValue
    ∧ (afterRxRelease s).bus.receiveViewValue = s.bus.receiveViewValue ∧ (afterRxRelease s).bus.txGuard = s.bus.txGuard
    ∧ (afterRxRelease s).bus.rxGuard = s.bus.rxGuard ∧ (afterRxRelease s).bus.queue = s.bus.queue
    ∧ (afterRxRelease s).bus.waitCount = s.bus.waitCount ∧ (afterRxRelease s).bus.gatewayData = s.bus.gatewayData
    ∧ (afterRxRelease s).ring.window = s.ring.window ∧ (afterRxRelease s).ring.base = s.ring.base
    ∧ (afterRxRelease s).ring.partTxc = s.ring.partTxc ∧ (afterRxRelease s).ring.readMark = s.ring.readMark
    ∧ (afterRxRelease s).ring.descriptorRead = s.ring.descriptorRead ∧ (afterRxRelease s).ring.takes = s.ring.takes
    ∧ (afterRxRelease s).ring.fence = s.ring.fence ∧ (afterRxRelease s).ring.overrun = s.ring.overrun
    ∧ (afterRxRelease s).ring.txCheckDue = s.ring.txCheckDue ∧ (afterRxRelease s).ring.scanRunning = s.ring.scanRunning
    ∧ (afterRxRelease s).ring.scanMark = s.ring.scanMark ∧ (afterRxRelease s).ring.scanRead = s.ring.scanRead
    ∧ (afterRxRelease s).ring.txForcing = s.ring.txForcing ∧ (afterRxRelease s).ring.rxForcing = s.ring.rxForcing
    ∧ (afterRxRelease s).ring.handBackAsked = s.ring.handBackAsked ∧ (afterRxRelease s).ring.fillCursor = s.ring.fillCursor
    ∧ (afterRxRelease s).ring.partRxf = s.ring.partRxf ∧ (afterRxRelease s).ring.delivery = s.ring.delivery
    ∧ (afterRxRelease s).ring.descriptorHeld = s.ring.descriptorHeld ∧ (afterRxRelease s).events.evp = s.events.evp
    ∧ (afterRxRelease s).events.slotKinds = s.events.slotKinds ∧ (afterRxRelease s).events.refreshCount = s.events.refreshCount
    ∧ (afterRxRelease s).events.refreshTimer = s.events.refreshTimer ∧ (afterRxRelease s).events.pageWriting = s.events.pageWriting
    ∧ (afterRxRelease s).events.pageWanted = s.events.pageWanted ∧ (afterRxRelease s).events.counters = s.events.counters
    ∧ (afterRxRelease s).events.ledMs = s.events.ledMs := by simp only [afterRxRelease]; (repeat' split) <;> simp

@[simp] theorem advanceIssued_frame (s : State) :
    (advanceIssued s).pending = s.pending ∧ (advanceIssued s).clock = s.clock ∧ (advanceIssued s).draws = s.draws
    ∧ (advanceIssued s).sram = s.sram ∧ (advanceIssued s).pins = s.pins ∧ (advanceIssued s).loader = s.loader
    ∧ (advanceIssued s).health = s.health ∧ (advanceIssued s).path = s.path ∧ (advanceIssued s).hold = s.hold ∧ (advanceIssued s).pacer = s.pacer
    ∧ (advanceIssued s).radio = s.radio ∧ (advanceIssued s).power = s.power ∧ (advanceIssued s).bus.shadows = s.bus.shadows
    ∧ (advanceIssued s).bus.txHorizon = s.bus.txHorizon ∧ (advanceIssued s).bus.rxHorizon = s.bus.rxHorizon
    ∧ (advanceIssued s).bus.fixedH = s.bus.fixedH ∧ (advanceIssued s).bus.fixedG = s.bus.fixedG
    ∧ (advanceIssued s).bus.uplinkView = s.bus.uplinkView ∧ (advanceIssued s).bus.receiveView = s.bus.receiveView
    ∧ (advanceIssued s).bus.uplinkViewValue = s.bus.uplinkViewValue ∧ (advanceIssued s).bus.receiveViewValue = s.bus.receiveViewValue
    ∧ (advanceIssued s).bus.txGuard = s.bus.txGuard ∧ (advanceIssued s).bus.rxGuard = s.bus.rxGuard ∧ (advanceIssued s).bus.queue = s.bus.queue
    ∧ (advanceIssued s).bus.waitCount = s.bus.waitCount ∧ (advanceIssued s).bus.gatewayData = s.bus.gatewayData
    ∧ (advanceIssued s).ring.readMark = s.ring.readMark ∧ (advanceIssued s).ring.takes = s.ring.takes
    ∧ (advanceIssued s).ring.fence = s.ring.fence ∧ (advanceIssued s).ring.scanRunning = s.ring.scanRunning
    ∧ (advanceIssued s).ring.scanMark = s.ring.scanMark ∧ (advanceIssued s).ring.scanRead = s.ring.scanRead
    ∧ (advanceIssued s).ring.txForcing = s.ring.txForcing ∧ (advanceIssued s).ring.rxForcing = s.ring.rxForcing
    ∧ (advanceIssued s).ring.handBackAsked = s.ring.handBackAsked ∧ (advanceIssued s).ring.fillCursor = s.ring.fillCursor
    ∧ (advanceIssued s).ring.partRxf = s.ring.partRxf ∧ (advanceIssued s).ring.delivery = s.ring.delivery
    ∧ (advanceIssued s).ring.descriptorHeld = s.ring.descriptorHeld ∧ (advanceIssued s).ring.rxOverrun = s.ring.rxOverrun
    ∧ (advanceIssued s).ring.rxCheckDue = s.ring.rxCheckDue ∧ (advanceIssued s).events.evp = s.events.evp
    ∧ (advanceIssued s).events.slotKinds = s.events.slotKinds ∧ (advanceIssued s).events.refreshCount = s.events.refreshCount
    ∧ (advanceIssued s).events.refreshTimer = s.events.refreshTimer ∧ (advanceIssued s).events.pageWriting = s.events.pageWriting
    ∧ (advanceIssued s).events.pageWanted = s.events.pageWanted ∧ (advanceIssued s).events.counters = s.events.counters
    ∧ (advanceIssued s).events.ledMs = s.events.ledMs := by simp [advanceIssued]

@[simp] theorem rxfIssued_frame (s : State) :
    (rxfIssued s).pending = s.pending ∧ (rxfIssued s).clock = s.clock ∧ (rxfIssued s).draws = s.draws ∧ (rxfIssued s).sram = s.sram
    ∧ (rxfIssued s).pins = s.pins ∧ (rxfIssued s).loader = s.loader ∧ (rxfIssued s).bus = s.bus ∧ (rxfIssued s).health = s.health
    ∧ (rxfIssued s).path = s.path ∧ (rxfIssued s).hold = s.hold ∧ (rxfIssued s).pacer = s.pacer ∧ (rxfIssued s).radio = s.radio
    ∧ (rxfIssued s).power = s.power ∧ (rxfIssued s).ring.window = s.ring.window ∧ (rxfIssued s).ring.base = s.ring.base
    ∧ (rxfIssued s).ring.partTxc = s.ring.partTxc ∧ (rxfIssued s).ring.readMark = s.ring.readMark
    ∧ (rxfIssued s).ring.descriptorRead = s.ring.descriptorRead ∧ (rxfIssued s).ring.takes = s.ring.takes
    ∧ (rxfIssued s).ring.fence = s.ring.fence ∧ (rxfIssued s).ring.overrun = s.ring.overrun ∧ (rxfIssued s).ring.txCheckDue = s.ring.txCheckDue
    ∧ (rxfIssued s).ring.scanRunning = s.ring.scanRunning ∧ (rxfIssued s).ring.scanMark = s.ring.scanMark
    ∧ (rxfIssued s).ring.scanRead = s.ring.scanRead ∧ (rxfIssued s).ring.txForcing = s.ring.txForcing
    ∧ (rxfIssued s).ring.rxForcing = s.ring.rxForcing ∧ (rxfIssued s).ring.handBackAsked = s.ring.handBackAsked
    ∧ (rxfIssued s).ring.fillCursor = s.ring.fillCursor ∧ (rxfIssued s).ring.delivery = s.ring.delivery
    ∧ (rxfIssued s).ring.descriptorHeld = s.ring.descriptorHeld ∧ (rxfIssued s).events.evp = s.events.evp
    ∧ (rxfIssued s).events.slotKinds = s.events.slotKinds ∧ (rxfIssued s).events.refreshCount = s.events.refreshCount
    ∧ (rxfIssued s).events.refreshTimer = s.events.refreshTimer ∧ (rxfIssued s).events.pageWriting = s.events.pageWriting
    ∧ (rxfIssued s).events.pageWanted = s.events.pageWanted ∧ (rxfIssued s).events.counters = s.events.counters
    ∧ (rxfIssued s).events.ledMs = s.events.ledMs := by simp [rxfIssued]

@[simp] theorem reinitHold_frame (s : State) :
    (reinitHold s).pending = s.pending ∧ (reinitHold s).clock = s.clock ∧ (reinitHold s).draws = s.draws ∧ (reinitHold s).sram = s.sram
    ∧ (reinitHold s).pins = s.pins ∧ (reinitHold s).bus = s.bus ∧ (reinitHold s).health = s.health ∧ (reinitHold s).path = s.path
    ∧ (reinitHold s).power = s.power ∧ (reinitHold s).loader.phase = s.loader.phase ∧ (reinitHold s).loader.flashCode = s.loader.flashCode
    ∧ (reinitHold s).loader.map = s.loader.map ∧ (reinitHold s).loader.linkClock = s.loader.linkClock
    ∧ (reinitHold s).loader.defaultPolicy = s.loader.defaultPolicy ∧ (reinitHold s).loader.policy = s.loader.policy
    ∧ (reinitHold s).loader.readState = s.loader.readState ∧ (reinitHold s).loader.readKind = s.loader.readKind
    ∧ (reinitHold s).loader.dueAfterRestart = s.loader.dueAfterRestart ∧ (reinitHold s).loader.firstHalf = s.loader.firstHalf
    ∧ (reinitHold s).loader.pgenAtIssue = s.loader.pgenAtIssue ∧ (reinitHold s).loader.softResetInForce = s.loader.softResetInForce
    ∧ (reinitHold s).loader.counterClearInForce = s.loader.counterClearInForce ∧ (reinitHold s).loader.shadowsLoaded = s.loader.shadowsLoaded
    ∧ (reinitHold s).loader.softReset = s.loader.softReset ∧ (reinitHold s).loader.softWait = s.loader.softWait
    ∧ (reinitHold s).loader.softPositions = s.loader.softPositions ∧ (reinitHold s).ring.window = s.ring.window
    ∧ (reinitHold s).ring.base = s.ring.base ∧ (reinitHold s).ring.partTxc = s.ring.partTxc ∧ (reinitHold s).ring.readMark = s.ring.readMark
    ∧ (reinitHold s).ring.descriptorRead = s.ring.descriptorRead ∧ (reinitHold s).ring.fence = s.ring.fence
    ∧ (reinitHold s).ring.overrun = s.ring.overrun ∧ (reinitHold s).ring.txCheckDue = s.ring.txCheckDue
    ∧ (reinitHold s).ring.scanRunning = s.ring.scanRunning ∧ (reinitHold s).ring.scanMark = s.ring.scanMark
    ∧ (reinitHold s).ring.scanRead = s.ring.scanRead ∧ (reinitHold s).ring.txForcing = s.ring.txForcing
    ∧ (reinitHold s).ring.rxForcing = s.ring.rxForcing ∧ (reinitHold s).ring.handBackAsked = s.ring.handBackAsked
    ∧ (reinitHold s).ring.fillCursor = s.ring.fillCursor ∧ (reinitHold s).ring.partRxf = s.ring.partRxf
    ∧ (reinitHold s).ring.descriptorHeld = s.ring.descriptorHeld ∧ (reinitHold s).ring.rxOverrun = s.ring.rxOverrun
    ∧ (reinitHold s).ring.rxCheckDue = s.ring.rxCheckDue ∧ (reinitHold s).hold.cells = s.hold.cells
    ∧ (reinitHold s).pacer.credit = s.pacer.credit ∧ (reinitHold s).pacer.pacing = s.pacer.pacing
    ∧ (reinitHold s).pacer.refusalPause = s.pacer.refusalPause ∧ (reinitHold s).pacer.grantSeen = s.pacer.grantSeen
    ∧ (reinitHold s).pacer.usageBase = s.pacer.usageBase ∧ (reinitHold s).pacer.carried = s.pacer.carried
    ∧ (reinitHold s).pacer.allowance = s.pacer.allowance ∧ (reinitHold s).pacer.downlinkCap = s.pacer.downlinkCap
    ∧ (reinitHold s).radio.state = s.radio.state ∧ (reinitHold s).radio.ready = s.radio.ready ∧ (reinitHold s).radio.failures = s.radio.failures
    ∧ (reinitHold s).radio.lastCause = s.radio.lastCause ∧ (reinitHold s).radio.startTimer = s.radio.startTimer
    ∧ (reinitHold s).radio.cycleTimer = s.radio.cycleTimer ∧ (reinitHold s).radio.attachTimer = s.radio.attachTimer
    ∧ (reinitHold s).radio.backoffTimer = s.radio.backoffTimer ∧ (reinitHold s).radio.silenceTimer = s.radio.silenceTimer
    ∧ (reinitHold s).radio.lingerTimer = s.radio.lingerTimer ∧ (reinitHold s).radio.mrstTimer = s.radio.mrstTimer
    ∧ (reinitHold s).radio.grantUp = s.radio.grantUp ∧ (reinitHold s).radio.grantDown = s.radio.grantDown
    ∧ (reinitHold s).radio.grantQuality = s.radio.grantQuality ∧ (reinitHold s).radio.attachTag = s.radio.attachTag
    ∧ (reinitHold s).radio.pauseTold = s.radio.pauseTold ∧ (reinitHold s).radio.capTold = s.radio.capTold
    ∧ (reinitHold s).radio.lowPowerTold = s.radio.lowPowerTold ∧ (reinitHold s).radio.ldoLast = s.radio.ldoLast
    ∧ (reinitHold s).radio.mpwr = s.radio.mpwr ∧ (reinitHold s).radio.mrst = s.radio.mrst ∧ (reinitHold s).events.entries = s.events.entries
    ∧ (reinitHold s).events.evp = s.events.evp ∧ (reinitHold s).events.slotKinds = s.events.slotKinds
    ∧ (reinitHold s).events.refreshCount = s.events.refreshCount ∧ (reinitHold s).events.refreshTimer = s.events.refreshTimer
    ∧ (reinitHold s).events.pageWriting = s.events.pageWriting ∧ (reinitHold s).events.pageWanted = s.events.pageWanted
    ∧ (reinitHold s).events.ledMs = s.events.ledMs := by simp only [reinitHold, withPauseTarget]; (repeat' split) <;> simp

@[simp] theorem meterTakes_frame (old : Policy) (startUp : Bool) (s : State) :
    (meterTakes old startUp s).pending = s.pending ∧ (meterTakes old startUp s).clock = s.clock ∧ (meterTakes old startUp s).draws = s.draws
    ∧ (meterTakes old startUp s).sram = s.sram ∧ (meterTakes old startUp s).pins = s.pins ∧ (meterTakes old startUp s).loader = s.loader
    ∧ (meterTakes old startUp s).bus = s.bus ∧ (meterTakes old startUp s).ring = s.ring ∧ (meterTakes old startUp s).health = s.health
    ∧ (meterTakes old startUp s).path = s.path ∧ (meterTakes old startUp s).hold = s.hold ∧ (meterTakes old startUp s).power = s.power
    ∧ (meterTakes old startUp s).pacer.credit = s.pacer.credit ∧ (meterTakes old startUp s).pacer.pacing = s.pacer.pacing
    ∧ (meterTakes old startUp s).pacer.refusalPause = s.pacer.refusalPause ∧ (meterTakes old startUp s).pacer.chargeA = s.pacer.chargeA
    ∧ (meterTakes old startUp s).pacer.chargeB = s.pacer.chargeB ∧ (meterTakes old startUp s).pacer.grantSeen = s.pacer.grantSeen
    ∧ (meterTakes old startUp s).radio.state = s.radio.state ∧ (meterTakes old startUp s).radio.ready = s.radio.ready
    ∧ (meterTakes old startUp s).radio.failures = s.radio.failures ∧ (meterTakes old startUp s).radio.lastCause = s.radio.lastCause
    ∧ (meterTakes old startUp s).radio.startTimer = s.radio.startTimer ∧ (meterTakes old startUp s).radio.cycleTimer = s.radio.cycleTimer
    ∧ (meterTakes old startUp s).radio.attachTimer = s.radio.attachTimer ∧ (meterTakes old startUp s).radio.backoffTimer = s.radio.backoffTimer
    ∧ (meterTakes old startUp s).radio.silenceTimer = s.radio.silenceTimer ∧ (meterTakes old startUp s).radio.lingerTimer = s.radio.lingerTimer
    ∧ (meterTakes old startUp s).radio.mrstTimer = s.radio.mrstTimer ∧ (meterTakes old startUp s).radio.grantUp = s.radio.grantUp
    ∧ (meterTakes old startUp s).radio.grantDown = s.radio.grantDown ∧ (meterTakes old startUp s).radio.grantQuality = s.radio.grantQuality
    ∧ (meterTakes old startUp s).radio.slotA = s.radio.slotA ∧ (meterTakes old startUp s).radio.slotB = s.radio.slotB
    ∧ (meterTakes old startUp s).radio.unsent = s.radio.unsent ∧ (meterTakes old startUp s).radio.attachTag = s.radio.attachTag
    ∧ (meterTakes old startUp s).radio.pauseTold = s.radio.pauseTold ∧ (meterTakes old startUp s).radio.capTold = s.radio.capTold
    ∧ (meterTakes old startUp s).radio.lowPowerTold = s.radio.lowPowerTold ∧ (meterTakes old startUp s).radio.ldo = s.radio.ldo
    ∧ (meterTakes old startUp s).radio.ldoLast = s.radio.ldoLast ∧ (meterTakes old startUp s).radio.receiver = s.radio.receiver
    ∧ (meterTakes old startUp s).radio.mpwr = s.radio.mpwr ∧ (meterTakes old startUp s).radio.mrst = s.radio.mrst
    ∧ (meterTakes old startUp s).events.evp = s.events.evp ∧ (meterTakes old startUp s).events.slotKinds = s.events.slotKinds
    ∧ (meterTakes old startUp s).events.refreshCount = s.events.refreshCount
    ∧ (meterTakes old startUp s).events.refreshTimer = s.events.refreshTimer
    ∧ (meterTakes old startUp s).events.pageWriting = s.events.pageWriting ∧ (meterTakes old startUp s).events.pageWanted = s.events.pageWanted
    ∧ (meterTakes old startUp s).events.counters = s.events.counters ∧ (meterTakes old startUp s).events.ledMs = s.events.ledMs := by simp only [meterTakes]; (repeat' split) <;> simp

@[simp] theorem txpChanged_frame (before : State) (s : State) :
    (txpChanged before s).pending = s.pending ∧ (txpChanged before s).clock = s.clock ∧ (txpChanged before s).draws = s.draws
    ∧ (txpChanged before s).sram = s.sram ∧ (txpChanged before s).pins = s.pins ∧ (txpChanged before s).loader = s.loader
    ∧ (txpChanged before s).health = s.health ∧ (txpChanged before s).path = s.path ∧ (txpChanged before s).hold = s.hold
    ∧ (txpChanged before s).pacer = s.pacer ∧ (txpChanged before s).radio = s.radio ∧ (txpChanged before s).power = s.power
    ∧ (txpChanged before s).bus.shadows = s.bus.shadows ∧ (txpChanged before s).bus.txHorizon = s.bus.txHorizon
    ∧ (txpChanged before s).bus.rxHorizon = s.bus.rxHorizon ∧ (txpChanged before s).bus.fixedH = s.bus.fixedH
    ∧ (txpChanged before s).bus.fixedG = s.bus.fixedG ∧ (txpChanged before s).bus.uplinkView = s.bus.uplinkView
    ∧ (txpChanged before s).bus.receiveView = s.bus.receiveView ∧ (txpChanged before s).bus.uplinkViewValue = s.bus.uplinkViewValue
    ∧ (txpChanged before s).bus.receiveViewValue = s.bus.receiveViewValue ∧ (txpChanged before s).bus.txGuard = s.bus.txGuard
    ∧ (txpChanged before s).bus.rxGuard = s.bus.rxGuard ∧ (txpChanged before s).bus.queue = s.bus.queue
    ∧ (txpChanged before s).bus.waitCount = s.bus.waitCount ∧ (txpChanged before s).bus.gatewayData = s.bus.gatewayData
    ∧ (txpChanged before s).ring.window = s.ring.window ∧ (txpChanged before s).ring.base = s.ring.base
    ∧ (txpChanged before s).ring.partTxc = s.ring.partTxc ∧ (txpChanged before s).ring.readMark = s.ring.readMark
    ∧ (txpChanged before s).ring.takes = s.ring.takes ∧ (txpChanged before s).ring.fence = s.ring.fence
    ∧ (txpChanged before s).ring.scanRunning = s.ring.scanRunning ∧ (txpChanged before s).ring.txForcing = s.ring.txForcing
    ∧ (txpChanged before s).ring.rxForcing = s.ring.rxForcing ∧ (txpChanged before s).ring.handBackAsked = s.ring.handBackAsked
    ∧ (txpChanged before s).ring.fillCursor = s.ring.fillCursor ∧ (txpChanged before s).ring.partRxf = s.ring.partRxf
    ∧ (txpChanged before s).ring.delivery = s.ring.delivery ∧ (txpChanged before s).ring.descriptorHeld = s.ring.descriptorHeld
    ∧ (txpChanged before s).ring.rxOverrun = s.ring.rxOverrun ∧ (txpChanged before s).ring.rxCheckDue = s.ring.rxCheckDue
    ∧ (txpChanged before s).events.evp = s.events.evp ∧ (txpChanged before s).events.slotKinds = s.events.slotKinds
    ∧ (txpChanged before s).events.refreshCount = s.events.refreshCount ∧ (txpChanged before s).events.refreshTimer = s.events.refreshTimer
    ∧ (txpChanged before s).events.pageWriting = s.events.pageWriting ∧ (txpChanged before s).events.pageWanted = s.events.pageWanted
    ∧ (txpChanged before s).events.counters = s.events.counters ∧ (txpChanged before s).events.ledMs = s.events.ledMs := by simp [txpChanged]

@[simp] theorem txpTouched_frame (s : State) :
    (txpTouched s).pending = s.pending ∧ (txpTouched s).clock = s.clock ∧ (txpTouched s).draws = s.draws ∧ (txpTouched s).sram = s.sram
    ∧ (txpTouched s).pins = s.pins ∧ (txpTouched s).loader = s.loader ∧ (txpTouched s).bus = s.bus ∧ (txpTouched s).ring = s.ring
    ∧ (txpTouched s).health = s.health ∧ (txpTouched s).path = s.path ∧ (txpTouched s).hold = s.hold ∧ (txpTouched s).pacer = s.pacer
    ∧ (txpTouched s).events = s.events ∧ (txpTouched s).radio.state = s.radio.state ∧ (txpTouched s).radio.ready = s.radio.ready
    ∧ (txpTouched s).radio.failures = s.radio.failures ∧ (txpTouched s).radio.lastCause = s.radio.lastCause
    ∧ (txpTouched s).radio.startTimer = s.radio.startTimer ∧ (txpTouched s).radio.cycleTimer = s.radio.cycleTimer
    ∧ (txpTouched s).radio.attachTimer = s.radio.attachTimer ∧ (txpTouched s).radio.backoffTimer = s.radio.backoffTimer
    ∧ (txpTouched s).radio.silenceTimer = s.radio.silenceTimer ∧ (txpTouched s).radio.lingerTimer = s.radio.lingerTimer
    ∧ (txpTouched s).radio.mrstTimer = s.radio.mrstTimer ∧ (txpTouched s).radio.grantUp = s.radio.grantUp
    ∧ (txpTouched s).radio.grantDown = s.radio.grantDown ∧ (txpTouched s).radio.grantQuality = s.radio.grantQuality
    ∧ (txpTouched s).radio.slotA = s.radio.slotA ∧ (txpTouched s).radio.slotB = s.radio.slotB ∧ (txpTouched s).radio.unsent = s.radio.unsent
    ∧ (txpTouched s).radio.attachTag = s.radio.attachTag ∧ (txpTouched s).radio.pauseTold = s.radio.pauseTold
    ∧ (txpTouched s).radio.capTold = s.radio.capTold ∧ (txpTouched s).radio.lowPowerTold = s.radio.lowPowerTold
    ∧ (txpTouched s).radio.ldoLast = s.radio.ldoLast ∧ (txpTouched s).radio.receiver = s.radio.receiver
    ∧ (txpTouched s).radio.mpwr = s.radio.mpwr ∧ (txpTouched s).radio.mrst = s.radio.mrst ∧ (txpTouched s).power.mode = s.power.mode
    ∧ (txpTouched s).power.mainsReturn = s.power.mainsReturn := by unfold txpTouched; (repeat' split) <;> simp

@[simp] theorem pgenTouched_frame (before : State) (s : State) :
    (pgenTouched before s).pending = s.pending ∧ (pgenTouched before s).clock = s.clock ∧ (pgenTouched before s).draws = s.draws
    ∧ (pgenTouched before s).sram = s.sram ∧ (pgenTouched before s).pins = s.pins ∧ (pgenTouched before s).ring = s.ring
    ∧ (pgenTouched before s).health = s.health ∧ (pgenTouched before s).path = s.path ∧ (pgenTouched before s).hold = s.hold
    ∧ (pgenTouched before s).pacer = s.pacer ∧ (pgenTouched before s).events = s.events ∧ (pgenTouched before s).loader.phase = s.loader.phase
    ∧ (pgenTouched before s).loader.flashCode = s.loader.flashCode ∧ (pgenTouched before s).loader.map = s.loader.map
    ∧ (pgenTouched before s).loader.linkClock = s.loader.linkClock ∧ (pgenTouched before s).loader.defaultPolicy = s.loader.defaultPolicy
    ∧ (pgenTouched before s).loader.policy = s.loader.policy ∧ (pgenTouched before s).loader.firstHalf = s.loader.firstHalf
    ∧ (pgenTouched before s).loader.pgenAtIssue = s.loader.pgenAtIssue
    ∧ (pgenTouched before s).loader.softResetInForce = s.loader.softResetInForce
    ∧ (pgenTouched before s).loader.counterClearInForce = s.loader.counterClearInForce
    ∧ (pgenTouched before s).loader.shadowsLoaded = s.loader.shadowsLoaded ∧ (pgenTouched before s).loader.softReset = s.loader.softReset
    ∧ (pgenTouched before s).loader.softWait = s.loader.softWait ∧ (pgenTouched before s).loader.softUp = s.loader.softUp
    ∧ (pgenTouched before s).loader.softDown = s.loader.softDown ∧ (pgenTouched before s).loader.softPositions = s.loader.softPositions
    ∧ (pgenTouched before s).bus.shadows = s.bus.shadows ∧ (pgenTouched before s).bus.txHorizon = s.bus.txHorizon
    ∧ (pgenTouched before s).bus.rxHorizon = s.bus.rxHorizon ∧ (pgenTouched before s).bus.fixedH = s.bus.fixedH
    ∧ (pgenTouched before s).bus.fixedG = s.bus.fixedG ∧ (pgenTouched before s).bus.uplinkView = s.bus.uplinkView
    ∧ (pgenTouched before s).bus.receiveView = s.bus.receiveView ∧ (pgenTouched before s).bus.uplinkViewValue = s.bus.uplinkViewValue
    ∧ (pgenTouched before s).bus.receiveViewValue = s.bus.receiveViewValue ∧ (pgenTouched before s).bus.txGuard = s.bus.txGuard
    ∧ (pgenTouched before s).bus.rxGuard = s.bus.rxGuard ∧ (pgenTouched before s).bus.queue = s.bus.queue
    ∧ (pgenTouched before s).bus.waitCount = s.bus.waitCount ∧ (pgenTouched before s).bus.gatewayData = s.bus.gatewayData
    ∧ (pgenTouched before s).radio.state = s.radio.state ∧ (pgenTouched before s).radio.ready = s.radio.ready
    ∧ (pgenTouched before s).radio.failures = s.radio.failures ∧ (pgenTouched before s).radio.lastCause = s.radio.lastCause
    ∧ (pgenTouched before s).radio.startTimer = s.radio.startTimer ∧ (pgenTouched before s).radio.cycleTimer = s.radio.cycleTimer
    ∧ (pgenTouched before s).radio.attachTimer = s.radio.attachTimer ∧ (pgenTouched before s).radio.backoffTimer = s.radio.backoffTimer
    ∧ (pgenTouched before s).radio.silenceTimer = s.radio.silenceTimer ∧ (pgenTouched before s).radio.lingerTimer = s.radio.lingerTimer
    ∧ (pgenTouched before s).radio.mrstTimer = s.radio.mrstTimer ∧ (pgenTouched before s).radio.grantUp = s.radio.grantUp
    ∧ (pgenTouched before s).radio.grantDown = s.radio.grantDown ∧ (pgenTouched before s).radio.grantQuality = s.radio.grantQuality
    ∧ (pgenTouched before s).radio.slotA = s.radio.slotA ∧ (pgenTouched before s).radio.slotB = s.radio.slotB
    ∧ (pgenTouched before s).radio.unsent = s.radio.unsent ∧ (pgenTouched before s).radio.attachTag = s.radio.attachTag
    ∧ (pgenTouched before s).radio.pauseTold = s.radio.pauseTold ∧ (pgenTouched before s).radio.capTold = s.radio.capTold
    ∧ (pgenTouched before s).radio.lowPowerTold = s.radio.lowPowerTold ∧ (pgenTouched before s).radio.ldoLast = s.radio.ldoLast
    ∧ (pgenTouched before s).radio.receiver = s.radio.receiver ∧ (pgenTouched before s).radio.mpwr = s.radio.mpwr
    ∧ (pgenTouched before s).radio.mrst = s.radio.mrst ∧ (pgenTouched before s).power.mode = s.power.mode
    ∧ (pgenTouched before s).power.mainsReturn = s.power.mainsReturn := by unfold pgenTouched; (repeat' split) <;> simp

@[simp] theorem askDownlink_frame (cls : FrameClass) (length : Nat) (s : State) :
    (askDownlink cls length s).pending = s.pending ∧ (askDownlink cls length s).clock = s.clock ∧ (askDownlink cls length s).draws = s.draws
    ∧ (askDownlink cls length s).sram = s.sram ∧ (askDownlink cls length s).pins = s.pins ∧ (askDownlink cls length s).bus = s.bus
    ∧ (askDownlink cls length s).ring = s.ring ∧ (askDownlink cls length s).health = s.health ∧ (askDownlink cls length s).path = s.path
    ∧ (askDownlink cls length s).pacer = s.pacer ∧ (askDownlink cls length s).power = s.power
    ∧ (askDownlink cls length s).loader.phase = s.loader.phase ∧ (askDownlink cls length s).loader.flashCode = s.loader.flashCode
    ∧ (askDownlink cls length s).loader.map = s.loader.map ∧ (askDownlink cls length s).loader.linkClock = s.loader.linkClock
    ∧ (askDownlink cls length s).loader.defaultPolicy = s.loader.defaultPolicy ∧ (askDownlink cls length s).loader.policy = s.loader.policy
    ∧ (askDownlink cls length s).loader.readState = s.loader.readState ∧ (askDownlink cls length s).loader.readKind = s.loader.readKind
    ∧ (askDownlink cls length s).loader.dueAfterRestart = s.loader.dueAfterRestart
    ∧ (askDownlink cls length s).loader.firstHalf = s.loader.firstHalf ∧ (askDownlink cls length s).loader.pgenAtIssue = s.loader.pgenAtIssue
    ∧ (askDownlink cls length s).loader.softResetInForce = s.loader.softResetInForce
    ∧ (askDownlink cls length s).loader.counterClearInForce = s.loader.counterClearInForce
    ∧ (askDownlink cls length s).loader.shadowsLoaded = s.loader.shadowsLoaded ∧ (askDownlink cls length s).loader.softReset = s.loader.softReset
    ∧ (askDownlink cls length s).loader.softWait = s.loader.softWait ∧ (askDownlink cls length s).loader.softPositions = s.loader.softPositions
    ∧ (askDownlink cls length s).hold.cells = s.hold.cells ∧ (askDownlink cls length s).hold.uqE = s.hold.uqE
    ∧ (askDownlink cls length s).hold.uqV = s.hold.uqV ∧ (askDownlink cls length s).hold.uqD = s.hold.uqD
    ∧ (askDownlink cls length s).hold.dqV = s.hold.dqV ∧ (askDownlink cls length s).hold.dqD = s.hold.dqD
    ∧ (askDownlink cls length s).hold.onLdo = s.hold.onLdo ∧ (askDownlink cls length s).hold.sweep10 = s.hold.sweep10
    ∧ (askDownlink cls length s).hold.sweep1s = s.hold.sweep1s ∧ (askDownlink cls length s).radio.state = s.radio.state
    ∧ (askDownlink cls length s).radio.ready = s.radio.ready ∧ (askDownlink cls length s).radio.failures = s.radio.failures
    ∧ (askDownlink cls length s).radio.lastCause = s.radio.lastCause ∧ (askDownlink cls length s).radio.startTimer = s.radio.startTimer
    ∧ (askDownlink cls length s).radio.cycleTimer = s.radio.cycleTimer ∧ (askDownlink cls length s).radio.attachTimer = s.radio.attachTimer
    ∧ (askDownlink cls length s).radio.backoffTimer = s.radio.backoffTimer ∧ (askDownlink cls length s).radio.silenceTimer = s.radio.silenceTimer
    ∧ (askDownlink cls length s).radio.lingerTimer = s.radio.lingerTimer ∧ (askDownlink cls length s).radio.mrstTimer = s.radio.mrstTimer
    ∧ (askDownlink cls length s).radio.grantUp = s.radio.grantUp ∧ (askDownlink cls length s).radio.grantDown = s.radio.grantDown
    ∧ (askDownlink cls length s).radio.grantQuality = s.radio.grantQuality ∧ (askDownlink cls length s).radio.slotA = s.radio.slotA
    ∧ (askDownlink cls length s).radio.slotB = s.radio.slotB ∧ (askDownlink cls length s).radio.unsent = s.radio.unsent
    ∧ (askDownlink cls length s).radio.attachTag = s.radio.attachTag ∧ (askDownlink cls length s).radio.pauseTold = s.radio.pauseTold
    ∧ (askDownlink cls length s).radio.capTold = s.radio.capTold ∧ (askDownlink cls length s).radio.lowPowerTold = s.radio.lowPowerTold
    ∧ (askDownlink cls length s).radio.ldo = s.radio.ldo ∧ (askDownlink cls length s).radio.ldoLast = s.radio.ldoLast
    ∧ (askDownlink cls length s).radio.mpwr = s.radio.mpwr ∧ (askDownlink cls length s).radio.mrst = s.radio.mrst
    ∧ (askDownlink cls length s).events.evp = s.events.evp ∧ (askDownlink cls length s).events.slotKinds = s.events.slotKinds
    ∧ (askDownlink cls length s).events.refreshCount = s.events.refreshCount
    ∧ (askDownlink cls length s).events.refreshTimer = s.events.refreshTimer
    ∧ (askDownlink cls length s).events.pageWriting = s.events.pageWriting ∧ (askDownlink cls length s).events.pageWanted = s.events.pageWanted
    ∧ (askDownlink cls length s).events.ledMs = s.events.ledMs := by unfold askDownlink; (repeat' split) <;> simp

@[simp] theorem takeUpWork_frame (s : State) :
    (takeUpWork s).pending = s.pending ∧ (takeUpWork s).clock = s.clock ∧ (takeUpWork s).draws = s.draws ∧ (takeUpWork s).sram = s.sram
    ∧ (takeUpWork s).pins = s.pins ∧ (takeUpWork s).health = s.health ∧ (takeUpWork s).path = s.path ∧ (takeUpWork s).hold = s.hold
    ∧ (takeUpWork s).pacer = s.pacer ∧ (takeUpWork s).radio = s.radio ∧ (takeUpWork s).power = s.power
    ∧ (takeUpWork s).loader.phase = s.loader.phase ∧ (takeUpWork s).loader.flashCode = s.loader.flashCode
    ∧ (takeUpWork s).loader.map = s.loader.map ∧ (takeUpWork s).loader.linkClock = s.loader.linkClock
    ∧ (takeUpWork s).loader.defaultPolicy = s.loader.defaultPolicy ∧ (takeUpWork s).loader.policy = s.loader.policy
    ∧ (takeUpWork s).loader.firstHalf = s.loader.firstHalf ∧ (takeUpWork s).loader.pgenAtIssue = s.loader.pgenAtIssue
    ∧ (takeUpWork s).loader.softResetInForce = s.loader.softResetInForce
    ∧ (takeUpWork s).loader.counterClearInForce = s.loader.counterClearInForce ∧ (takeUpWork s).loader.shadowsLoaded = s.loader.shadowsLoaded
    ∧ (takeUpWork s).loader.softReset = s.loader.softReset ∧ (takeUpWork s).loader.softWait = s.loader.softWait
    ∧ (takeUpWork s).loader.softUp = s.loader.softUp ∧ (takeUpWork s).loader.softDown = s.loader.softDown
    ∧ (takeUpWork s).loader.softPositions = s.loader.softPositions ∧ (takeUpWork s).bus.shadows = s.bus.shadows
    ∧ (takeUpWork s).bus.txHorizon = s.bus.txHorizon ∧ (takeUpWork s).bus.rxHorizon = s.bus.rxHorizon ∧ (takeUpWork s).bus.fixedH = s.bus.fixedH
    ∧ (takeUpWork s).bus.fixedG = s.bus.fixedG ∧ (takeUpWork s).bus.uplinkView = s.bus.uplinkView
    ∧ (takeUpWork s).bus.receiveView = s.bus.receiveView ∧ (takeUpWork s).bus.uplinkViewValue = s.bus.uplinkViewValue
    ∧ (takeUpWork s).bus.receiveViewValue = s.bus.receiveViewValue ∧ (takeUpWork s).bus.txGuard = s.bus.txGuard
    ∧ (takeUpWork s).bus.rxGuard = s.bus.rxGuard ∧ (takeUpWork s).bus.queue = s.bus.queue ∧ (takeUpWork s).bus.waitCount = s.bus.waitCount
    ∧ (takeUpWork s).bus.gatewayData = s.bus.gatewayData ∧ (takeUpWork s).ring.window = s.ring.window ∧ (takeUpWork s).ring.base = s.ring.base
    ∧ (takeUpWork s).ring.partTxc = s.ring.partTxc ∧ (takeUpWork s).ring.readMark = s.ring.readMark ∧ (takeUpWork s).ring.takes = s.ring.takes
    ∧ (takeUpWork s).ring.fence = s.ring.fence ∧ (takeUpWork s).ring.scanRunning = s.ring.scanRunning
    ∧ (takeUpWork s).ring.scanMark = s.ring.scanMark ∧ (takeUpWork s).ring.scanRead = s.ring.scanRead
    ∧ (takeUpWork s).ring.txForcing = s.ring.txForcing ∧ (takeUpWork s).ring.rxForcing = s.ring.rxForcing
    ∧ (takeUpWork s).ring.handBackAsked = s.ring.handBackAsked ∧ (takeUpWork s).ring.fillCursor = s.ring.fillCursor
    ∧ (takeUpWork s).ring.partRxf = s.ring.partRxf ∧ (takeUpWork s).ring.delivery = s.ring.delivery
    ∧ (takeUpWork s).ring.descriptorHeld = s.ring.descriptorHeld ∧ (takeUpWork s).events.evp = s.events.evp
    ∧ (takeUpWork s).events.slotKinds = s.events.slotKinds ∧ (takeUpWork s).events.refreshCount = s.events.refreshCount
    ∧ (takeUpWork s).events.refreshTimer = s.events.refreshTimer ∧ (takeUpWork s).events.pageWriting = s.events.pageWriting
    ∧ (takeUpWork s).events.pageWanted = s.events.pageWanted ∧ (takeUpWork s).events.counters = s.events.counters
    ∧ (takeUpWork s).events.ledMs = s.events.ledMs := by simp only [takeUpWork]; (repeat' split) <;> simp

@[simp] theorem beginTake_frame (e : Entry) (cls : FrameClass) (s : State) :
    (beginTake e cls s).pending = s.pending ∧ (beginTake e cls s).clock = s.clock ∧ (beginTake e cls s).draws = s.draws
    ∧ (beginTake e cls s).sram = s.sram ∧ (beginTake e cls s).pins = s.pins ∧ (beginTake e cls s).loader = s.loader
    ∧ (beginTake e cls s).health = s.health ∧ (beginTake e cls s).pacer = s.pacer ∧ (beginTake e cls s).power = s.power
    ∧ (beginTake e cls s).events = s.events ∧ (beginTake e cls s).bus.shadows = s.bus.shadows
    ∧ (beginTake e cls s).bus.txHorizon = s.bus.txHorizon ∧ (beginTake e cls s).bus.rxHorizon = s.bus.rxHorizon
    ∧ (beginTake e cls s).bus.fixedH = s.bus.fixedH ∧ (beginTake e cls s).bus.fixedG = s.bus.fixedG
    ∧ (beginTake e cls s).bus.uplinkView = s.bus.uplinkView ∧ (beginTake e cls s).bus.receiveView = s.bus.receiveView
    ∧ (beginTake e cls s).bus.uplinkViewValue = s.bus.uplinkViewValue ∧ (beginTake e cls s).bus.receiveViewValue = s.bus.receiveViewValue
    ∧ (beginTake e cls s).bus.txGuard = s.bus.txGuard ∧ (beginTake e cls s).bus.rxGuard = s.bus.rxGuard
    ∧ (beginTake e cls s).bus.queue = s.bus.queue ∧ (beginTake e cls s).bus.waitCount = s.bus.waitCount
    ∧ (beginTake e cls s).bus.gatewayData = s.bus.gatewayData ∧ (beginTake e cls s).ring.base = s.ring.base
    ∧ (beginTake e cls s).ring.partTxc = s.ring.partTxc ∧ (beginTake e cls s).ring.readMark = s.ring.readMark
    ∧ (beginTake e cls s).ring.descriptorRead = s.ring.descriptorRead ∧ (beginTake e cls s).ring.fence = s.ring.fence
    ∧ (beginTake e cls s).ring.overrun = s.ring.overrun ∧ (beginTake e cls s).ring.txCheckDue = s.ring.txCheckDue
    ∧ (beginTake e cls s).ring.scanRunning = s.ring.scanRunning ∧ (beginTake e cls s).ring.scanMark = s.ring.scanMark
    ∧ (beginTake e cls s).ring.scanRead = s.ring.scanRead ∧ (beginTake e cls s).ring.txForcing = s.ring.txForcing
    ∧ (beginTake e cls s).ring.rxForcing = s.ring.rxForcing ∧ (beginTake e cls s).ring.handBackAsked = s.ring.handBackAsked
    ∧ (beginTake e cls s).ring.fillCursor = s.ring.fillCursor ∧ (beginTake e cls s).ring.partRxf = s.ring.partRxf
    ∧ (beginTake e cls s).ring.delivery = s.ring.delivery ∧ (beginTake e cls s).ring.descriptorHeld = s.ring.descriptorHeld
    ∧ (beginTake e cls s).ring.rxOverrun = s.ring.rxOverrun ∧ (beginTake e cls s).ring.rxCheckDue = s.ring.rxCheckDue
    ∧ (beginTake e cls s).path.path = s.path.path ∧ (beginTake e cls s).path.phase = s.path.phase
    ∧ (beginTake e cls s).path.dwellD = s.path.dwellD ∧ (beginTake e cls s).path.dwell = s.path.dwell
    ∧ (beginTake e cls s).path.refallTimer = s.path.refallTimer ∧ (beginTake e cls s).path.refallOpen = s.path.refallOpen
    ∧ (beginTake e cls s).path.releaseTimer = s.path.releaseTimer ∧ (beginTake e cls s).path.txReleased = s.path.txReleased
    ∧ (beginTake e cls s).path.rxReleased = s.path.rxReleased ∧ (beginTake e cls s).path.drainTimer = s.path.drainTimer
    ∧ (beginTake e cls s).path.radioWanted = s.path.radioWanted ∧ (beginTake e cls s).path.returnPause = s.path.returnPause
    ∧ (beginTake e cls s).path.recorded = s.path.recorded ∧ (beginTake e cls s).hold.cells = s.hold.cells
    ∧ (beginTake e cls s).hold.uqE = s.hold.uqE ∧ (beginTake e cls s).hold.uqV = s.hold.uqV ∧ (beginTake e cls s).hold.uqD = s.hold.uqD
    ∧ (beginTake e cls s).hold.dqV = s.hold.dqV ∧ (beginTake e cls s).hold.dqD = s.hold.dqD ∧ (beginTake e cls s).hold.onLdo = s.hold.onLdo
    ∧ (beginTake e cls s).hold.sweep10 = s.hold.sweep10 ∧ (beginTake e cls s).hold.sweep1s = s.hold.sweep1s
    ∧ (beginTake e cls s).radio.failures = s.radio.failures ∧ (beginTake e cls s).radio.lastCause = s.radio.lastCause
    ∧ (beginTake e cls s).radio.cycleTimer = s.radio.cycleTimer ∧ (beginTake e cls s).radio.silenceTimer = s.radio.silenceTimer
    ∧ (beginTake e cls s).radio.grantUp = s.radio.grantUp ∧ (beginTake e cls s).radio.grantDown = s.radio.grantDown
    ∧ (beginTake e cls s).radio.grantQuality = s.radio.grantQuality ∧ (beginTake e cls s).radio.slotA = s.radio.slotA
    ∧ (beginTake e cls s).radio.slotB = s.radio.slotB ∧ (beginTake e cls s).radio.unsent = s.radio.unsent
    ∧ (beginTake e cls s).radio.pauseTold = s.radio.pauseTold ∧ (beginTake e cls s).radio.capTold = s.radio.capTold
    ∧ (beginTake e cls s).radio.lowPowerTold = s.radio.lowPowerTold ∧ (beginTake e cls s).radio.ldo = s.radio.ldo
    ∧ (beginTake e cls s).radio.ldoLast = s.radio.ldoLast ∧ (beginTake e cls s).radio.receiver = s.radio.receiver := by unfold beginTake; (repeat' split) <;> simp

@[simp] theorem completeTx_frame (s : State) :
    (completeTx s).pending = s.pending ∧ (completeTx s).clock = s.clock ∧ (completeTx s).draws = s.draws ∧ (completeTx s).sram = s.sram
    ∧ (completeTx s).pins = s.pins ∧ (completeTx s).loader = s.loader ∧ (completeTx s).health = s.health ∧ (completeTx s).hold = s.hold
    ∧ (completeTx s).pacer = s.pacer ∧ (completeTx s).radio = s.radio ∧ (completeTx s).power = s.power
    ∧ (completeTx s).bus.shadows = s.bus.shadows ∧ (completeTx s).bus.txHorizon = s.bus.txHorizon
    ∧ (completeTx s).bus.rxHorizon = s.bus.rxHorizon ∧ (completeTx s).bus.fixedH = s.bus.fixedH ∧ (completeTx s).bus.fixedG = s.bus.fixedG
    ∧ (completeTx s).bus.receiveView = s.bus.receiveView ∧ (completeTx s).bus.receiveViewValue = s.bus.receiveViewValue
    ∧ (completeTx s).bus.rxGuard = s.bus.rxGuard ∧ (completeTx s).bus.queue = s.bus.queue ∧ (completeTx s).bus.waitCount = s.bus.waitCount
    ∧ (completeTx s).bus.gatewayData = s.bus.gatewayData ∧ (completeTx s).ring.window = s.ring.window
    ∧ (completeTx s).ring.readMark = s.ring.readMark ∧ (completeTx s).ring.takes = s.ring.takes ∧ (completeTx s).ring.fence = s.ring.fence
    ∧ (completeTx s).ring.scanRunning = s.ring.scanRunning ∧ (completeTx s).ring.scanMark = s.ring.scanMark
    ∧ (completeTx s).ring.scanRead = s.ring.scanRead ∧ (completeTx s).ring.rxForcing = s.ring.rxForcing
    ∧ (completeTx s).ring.handBackAsked = s.ring.handBackAsked ∧ (completeTx s).ring.fillCursor = s.ring.fillCursor
    ∧ (completeTx s).ring.partRxf = s.ring.partRxf ∧ (completeTx s).ring.delivery = s.ring.delivery
    ∧ (completeTx s).ring.descriptorHeld = s.ring.descriptorHeld ∧ (completeTx s).ring.rxOverrun = s.ring.rxOverrun
    ∧ (completeTx s).ring.rxCheckDue = s.ring.rxCheckDue ∧ (completeTx s).path.path = s.path.path ∧ (completeTx s).path.phase = s.path.phase
    ∧ (completeTx s).path.dwellD = s.path.dwellD ∧ (completeTx s).path.dwell = s.path.dwell
    ∧ (completeTx s).path.refallTimer = s.path.refallTimer ∧ (completeTx s).path.refallOpen = s.path.refallOpen
    ∧ (completeTx s).path.rxReleased = s.path.rxReleased ∧ (completeTx s).path.drainTimer = s.path.drainTimer
    ∧ (completeTx s).path.emergency = s.path.emergency ∧ (completeTx s).path.priorityTimer = s.path.priorityTimer
    ∧ (completeTx s).path.radioWanted = s.path.radioWanted ∧ (completeTx s).path.returnPause = s.path.returnPause
    ∧ (completeTx s).path.recorded = s.path.recorded ∧ (completeTx s).events.evp = s.events.evp
    ∧ (completeTx s).events.slotKinds = s.events.slotKinds ∧ (completeTx s).events.refreshCount = s.events.refreshCount
    ∧ (completeTx s).events.refreshTimer = s.events.refreshTimer ∧ (completeTx s).events.pageWriting = s.events.pageWriting
    ∧ (completeTx s).events.pageWanted = s.events.pageWanted ∧ (completeTx s).events.counters = s.events.counters
    ∧ (completeTx s).events.ledMs = s.events.ledMs := by simp [completeTx]

@[simp] theorem afterForcedRx_frame (s : State) :
    (afterForcedRx s).pending = s.pending ∧ (afterForcedRx s).clock = s.clock ∧ (afterForcedRx s).draws = s.draws
    ∧ (afterForcedRx s).sram = s.sram ∧ (afterForcedRx s).pins = s.pins ∧ (afterForcedRx s).loader = s.loader
    ∧ (afterForcedRx s).health = s.health ∧ (afterForcedRx s).path = s.path ∧ (afterForcedRx s).hold = s.hold ∧ (afterForcedRx s).pacer = s.pacer
    ∧ (afterForcedRx s).radio = s.radio ∧ (afterForcedRx s).power = s.power ∧ (afterForcedRx s).bus.shadows = s.bus.shadows
    ∧ (afterForcedRx s).bus.txHorizon = s.bus.txHorizon ∧ (afterForcedRx s).bus.rxHorizon = s.bus.rxHorizon
    ∧ (afterForcedRx s).bus.fixedH = s.bus.fixedH ∧ (afterForcedRx s).bus.fixedG = s.bus.fixedG
    ∧ (afterForcedRx s).bus.uplinkView = s.bus.uplinkView ∧ (afterForcedRx s).bus.receiveView = s.bus.receiveView
    ∧ (afterForcedRx s).bus.uplinkViewValue = s.bus.uplinkViewValue ∧ (afterForcedRx s).bus.receiveViewValue = s.bus.receiveViewValue
    ∧ (afterForcedRx s).bus.txGuard = s.bus.txGuard ∧ (afterForcedRx s).bus.rxGuard = s.bus.rxGuard ∧ (afterForcedRx s).bus.queue = s.bus.queue
    ∧ (afterForcedRx s).bus.waitCount = s.bus.waitCount ∧ (afterForcedRx s).bus.gatewayData = s.bus.gatewayData
    ∧ (afterForcedRx s).ring.window = s.ring.window ∧ (afterForcedRx s).ring.base = s.ring.base ∧ (afterForcedRx s).ring.partTxc = s.ring.partTxc
    ∧ (afterForcedRx s).ring.readMark = s.ring.readMark ∧ (afterForcedRx s).ring.descriptorRead = s.ring.descriptorRead
    ∧ (afterForcedRx s).ring.takes = s.ring.takes ∧ (afterForcedRx s).ring.fence = s.ring.fence ∧ (afterForcedRx s).ring.overrun = s.ring.overrun
    ∧ (afterForcedRx s).ring.txCheckDue = s.ring.txCheckDue ∧ (afterForcedRx s).ring.scanRunning = s.ring.scanRunning
    ∧ (afterForcedRx s).ring.scanMark = s.ring.scanMark ∧ (afterForcedRx s).ring.scanRead = s.ring.scanRead
    ∧ (afterForcedRx s).ring.txForcing = s.ring.txForcing ∧ (afterForcedRx s).ring.rxForcing = s.ring.rxForcing
    ∧ (afterForcedRx s).ring.handBackAsked = s.ring.handBackAsked ∧ (afterForcedRx s).ring.fillCursor = s.ring.fillCursor
    ∧ (afterForcedRx s).ring.partRxf = s.ring.partRxf ∧ (afterForcedRx s).ring.descriptorHeld = s.ring.descriptorHeld
    ∧ (afterForcedRx s).events.evp = s.events.evp ∧ (afterForcedRx s).events.slotKinds = s.events.slotKinds
    ∧ (afterForcedRx s).events.refreshCount = s.events.refreshCount ∧ (afterForcedRx s).events.refreshTimer = s.events.refreshTimer
    ∧ (afterForcedRx s).events.pageWriting = s.events.pageWriting ∧ (afterForcedRx s).events.pageWanted = s.events.pageWanted
    ∧ (afterForcedRx s).events.counters = s.events.counters ∧ (afterForcedRx s).events.ledMs = s.events.ledMs := by unfold afterForcedRx; (repeat' split) <;> simp

@[simp] theorem completeRx_frame (s : State) :
    (completeRx s).pending = s.pending ∧ (completeRx s).clock = s.clock ∧ (completeRx s).draws = s.draws ∧ (completeRx s).sram = s.sram
    ∧ (completeRx s).pins = s.pins ∧ (completeRx s).loader = s.loader ∧ (completeRx s).health = s.health ∧ (completeRx s).hold = s.hold
    ∧ (completeRx s).pacer = s.pacer ∧ (completeRx s).radio = s.radio ∧ (completeRx s).power = s.power
    ∧ (completeRx s).bus.shadows = s.bus.shadows ∧ (completeRx s).bus.txHorizon = s.bus.txHorizon
    ∧ (completeRx s).bus.rxHorizon = s.bus.rxHorizon ∧ (completeRx s).bus.fixedH = s.bus.fixedH ∧ (completeRx s).bus.fixedG = s.bus.fixedG
    ∧ (completeRx s).bus.uplinkView = s.bus.uplinkView ∧ (completeRx s).bus.uplinkViewValue = s.bus.uplinkViewValue
    ∧ (completeRx s).bus.txGuard = s.bus.txGuard ∧ (completeRx s).bus.queue = s.bus.queue ∧ (completeRx s).bus.waitCount = s.bus.waitCount
    ∧ (completeRx s).bus.gatewayData = s.bus.gatewayData ∧ (completeRx s).ring.window = s.ring.window ∧ (completeRx s).ring.base = s.ring.base
    ∧ (completeRx s).ring.partTxc = s.ring.partTxc ∧ (completeRx s).ring.readMark = s.ring.readMark
    ∧ (completeRx s).ring.descriptorRead = s.ring.descriptorRead ∧ (completeRx s).ring.takes = s.ring.takes
    ∧ (completeRx s).ring.fence = s.ring.fence ∧ (completeRx s).ring.overrun = s.ring.overrun
    ∧ (completeRx s).ring.txCheckDue = s.ring.txCheckDue ∧ (completeRx s).ring.scanRunning = s.ring.scanRunning
    ∧ (completeRx s).ring.scanMark = s.ring.scanMark ∧ (completeRx s).ring.scanRead = s.ring.scanRead
    ∧ (completeRx s).ring.txForcing = s.ring.txForcing ∧ (completeRx s).ring.handBackAsked = s.ring.handBackAsked
    ∧ (completeRx s).ring.fillCursor = s.ring.fillCursor ∧ (completeRx s).ring.delivery = s.ring.delivery
    ∧ (completeRx s).ring.descriptorHeld = s.ring.descriptorHeld ∧ (completeRx s).path.path = s.path.path
    ∧ (completeRx s).path.phase = s.path.phase ∧ (completeRx s).path.dwellD = s.path.dwellD ∧ (completeRx s).path.dwell = s.path.dwell
    ∧ (completeRx s).path.refallTimer = s.path.refallTimer ∧ (completeRx s).path.refallOpen = s.path.refallOpen
    ∧ (completeRx s).path.txReleased = s.path.txReleased ∧ (completeRx s).path.drainTimer = s.path.drainTimer
    ∧ (completeRx s).path.emergency = s.path.emergency ∧ (completeRx s).path.priorityTimer = s.path.priorityTimer
    ∧ (completeRx s).path.radioWanted = s.path.radioWanted ∧ (completeRx s).path.returnPause = s.path.returnPause
    ∧ (completeRx s).path.recorded = s.path.recorded ∧ (completeRx s).events.evp = s.events.evp
    ∧ (completeRx s).events.slotKinds = s.events.slotKinds ∧ (completeRx s).events.refreshCount = s.events.refreshCount
    ∧ (completeRx s).events.refreshTimer = s.events.refreshTimer ∧ (completeRx s).events.pageWriting = s.events.pageWriting
    ∧ (completeRx s).events.pageWanted = s.events.pageWanted ∧ (completeRx s).events.counters = s.events.counters
    ∧ (completeRx s).events.ledMs = s.events.ledMs := by simp [completeRx]

@[simp] theorem judgeEntry_frame (s : State) (e : Entry) :
    (judgeEntry s e).pending = s.pending ∧ (judgeEntry s e).clock = s.clock ∧ (judgeEntry s e).draws = s.draws ∧ (judgeEntry s e).sram = s.sram
    ∧ (judgeEntry s e).pins = s.pins ∧ (judgeEntry s e).loader = s.loader ∧ (judgeEntry s e).health = s.health ∧ (judgeEntry s e).pacer = s.pacer
    ∧ (judgeEntry s e).power = s.power ∧ (judgeEntry s e).events = s.events ∧ (judgeEntry s e).bus.shadows = s.bus.shadows
    ∧ (judgeEntry s e).bus.txHorizon = s.bus.txHorizon ∧ (judgeEntry s e).bus.rxHorizon = s.bus.rxHorizon
    ∧ (judgeEntry s e).bus.fixedH = s.bus.fixedH ∧ (judgeEntry s e).bus.fixedG = s.bus.fixedG
    ∧ (judgeEntry s e).bus.uplinkView = s.bus.uplinkView ∧ (judgeEntry s e).bus.receiveView = s.bus.receiveView
    ∧ (judgeEntry s e).bus.uplinkViewValue = s.bus.uplinkViewValue ∧ (judgeEntry s e).bus.receiveViewValue = s.bus.receiveViewValue
    ∧ (judgeEntry s e).bus.txGuard = s.bus.txGuard ∧ (judgeEntry s e).bus.rxGuard = s.bus.rxGuard ∧ (judgeEntry s e).bus.queue = s.bus.queue
    ∧ (judgeEntry s e).bus.waitCount = s.bus.waitCount ∧ (judgeEntry s e).bus.gatewayData = s.bus.gatewayData
    ∧ (judgeEntry s e).ring.base = s.ring.base ∧ (judgeEntry s e).ring.partTxc = s.ring.partTxc
    ∧ (judgeEntry s e).ring.readMark = s.ring.readMark ∧ (judgeEntry s e).ring.descriptorRead = s.ring.descriptorRead
    ∧ (judgeEntry s e).ring.fence = s.ring.fence ∧ (judgeEntry s e).ring.overrun = s.ring.overrun
    ∧ (judgeEntry s e).ring.txCheckDue = s.ring.txCheckDue ∧ (judgeEntry s e).ring.scanRunning = s.ring.scanRunning
    ∧ (judgeEntry s e).ring.scanMark = s.ring.scanMark ∧ (judgeEntry s e).ring.scanRead = s.ring.scanRead
    ∧ (judgeEntry s e).ring.txForcing = s.ring.txForcing ∧ (judgeEntry s e).ring.rxForcing = s.ring.rxForcing
    ∧ (judgeEntry s e).ring.handBackAsked = s.ring.handBackAsked ∧ (judgeEntry s e).ring.fillCursor = s.ring.fillCursor
    ∧ (judgeEntry s e).ring.partRxf = s.ring.partRxf ∧ (judgeEntry s e).ring.delivery = s.ring.delivery
    ∧ (judgeEntry s e).ring.descriptorHeld = s.ring.descriptorHeld ∧ (judgeEntry s e).ring.rxOverrun = s.ring.rxOverrun
    ∧ (judgeEntry s e).ring.rxCheckDue = s.ring.rxCheckDue ∧ (judgeEntry s e).path.path = s.path.path
    ∧ (judgeEntry s e).path.phase = s.path.phase ∧ (judgeEntry s e).path.dwellD = s.path.dwellD ∧ (judgeEntry s e).path.dwell = s.path.dwell
    ∧ (judgeEntry s e).path.refallTimer = s.path.refallTimer ∧ (judgeEntry s e).path.refallOpen = s.path.refallOpen
    ∧ (judgeEntry s e).path.releaseTimer = s.path.releaseTimer ∧ (judgeEntry s e).path.txReleased = s.path.txReleased
    ∧ (judgeEntry s e).path.rxReleased = s.path.rxReleased ∧ (judgeEntry s e).path.drainTimer = s.path.drainTimer
    ∧ (judgeEntry s e).path.radioWanted = s.path.radioWanted ∧ (judgeEntry s e).path.returnPause = s.path.returnPause
    ∧ (judgeEntry s e).path.recorded = s.path.recorded ∧ (judgeEntry s e).hold.cells = s.hold.cells ∧ (judgeEntry s e).hold.uqE = s.hold.uqE
    ∧ (judgeEntry s e).hold.uqV = s.hold.uqV ∧ (judgeEntry s e).hold.uqD = s.hold.uqD ∧ (judgeEntry s e).hold.dqV = s.hold.dqV
    ∧ (judgeEntry s e).hold.dqD = s.hold.dqD ∧ (judgeEntry s e).hold.onLdo = s.hold.onLdo ∧ (judgeEntry s e).hold.sweep10 = s.hold.sweep10
    ∧ (judgeEntry s e).hold.sweep1s = s.hold.sweep1s ∧ (judgeEntry s e).radio.failures = s.radio.failures
    ∧ (judgeEntry s e).radio.lastCause = s.radio.lastCause ∧ (judgeEntry s e).radio.cycleTimer = s.radio.cycleTimer
    ∧ (judgeEntry s e).radio.silenceTimer = s.radio.silenceTimer ∧ (judgeEntry s e).radio.grantUp = s.radio.grantUp
    ∧ (judgeEntry s e).radio.grantDown = s.radio.grantDown ∧ (judgeEntry s e).radio.grantQuality = s.radio.grantQuality
    ∧ (judgeEntry s e).radio.slotA = s.radio.slotA ∧ (judgeEntry s e).radio.slotB = s.radio.slotB
    ∧ (judgeEntry s e).radio.unsent = s.radio.unsent ∧ (judgeEntry s e).radio.pauseTold = s.radio.pauseTold
    ∧ (judgeEntry s e).radio.capTold = s.radio.capTold ∧ (judgeEntry s e).radio.lowPowerTold = s.radio.lowPowerTold
    ∧ (judgeEntry s e).radio.ldo = s.radio.ldo ∧ (judgeEntry s e).radio.ldoLast = s.radio.ldoLast
    ∧ (judgeEntry s e).radio.receiver = s.radio.receiver := by unfold judgeEntry; (repeat' split) <;> simp

@[simp] theorem checkTxRelease_frame (s : State) :
    (checkTxRelease s).pending = s.pending ∧ (checkTxRelease s).clock = s.clock ∧ (checkTxRelease s).draws = s.draws
    ∧ (checkTxRelease s).sram = s.sram ∧ (checkTxRelease s).pins = s.pins ∧ (checkTxRelease s).loader = s.loader
    ∧ (checkTxRelease s).health = s.health ∧ (checkTxRelease s).hold = s.hold ∧ (checkTxRelease s).pacer = s.pacer
    ∧ (checkTxRelease s).radio = s.radio ∧ (checkTxRelease s).power = s.power ∧ (checkTxRelease s).bus.shadows = s.bus.shadows
    ∧ (checkTxRelease s).bus.txHorizon = s.bus.txHorizon ∧ (checkTxRelease s).bus.rxHorizon = s.bus.rxHorizon
    ∧ (checkTxRelease s).bus.fixedH = s.bus.fixedH ∧ (checkTxRelease s).bus.fixedG = s.bus.fixedG
    ∧ (checkTxRelease s).bus.receiveView = s.bus.receiveView ∧ (checkTxRelease s).bus.receiveViewValue = s.bus.receiveViewValue
    ∧ (checkTxRelease s).bus.rxGuard = s.bus.rxGuard ∧ (checkTxRelease s).bus.queue = s.bus.queue
    ∧ (checkTxRelease s).bus.waitCount = s.bus.waitCount ∧ (checkTxRelease s).bus.gatewayData = s.bus.gatewayData
    ∧ (checkTxRelease s).ring.window = s.ring.window ∧ (checkTxRelease s).ring.readMark = s.ring.readMark
    ∧ (checkTxRelease s).ring.takes = s.ring.takes ∧ (checkTxRelease s).ring.fence = s.ring.fence
    ∧ (checkTxRelease s).ring.scanRunning = s.ring.scanRunning ∧ (checkTxRelease s).ring.scanMark = s.ring.scanMark
    ∧ (checkTxRelease s).ring.scanRead = s.ring.scanRead ∧ (checkTxRelease s).ring.rxForcing = s.ring.rxForcing
    ∧ (checkTxRelease s).ring.handBackAsked = s.ring.handBackAsked ∧ (checkTxRelease s).ring.fillCursor = s.ring.fillCursor
    ∧ (checkTxRelease s).ring.partRxf = s.ring.partRxf ∧ (checkTxRelease s).ring.delivery = s.ring.delivery
    ∧ (checkTxRelease s).ring.descriptorHeld = s.ring.descriptorHeld ∧ (checkTxRelease s).ring.rxOverrun = s.ring.rxOverrun
    ∧ (checkTxRelease s).ring.rxCheckDue = s.ring.rxCheckDue ∧ (checkTxRelease s).path.path = s.path.path
    ∧ (checkTxRelease s).path.phase = s.path.phase ∧ (checkTxRelease s).path.dwellD = s.path.dwellD
    ∧ (checkTxRelease s).path.dwell = s.path.dwell ∧ (checkTxRelease s).path.refallTimer = s.path.refallTimer
    ∧ (checkTxRelease s).path.refallOpen = s.path.refallOpen ∧ (checkTxRelease s).path.rxReleased = s.path.rxReleased
    ∧ (checkTxRelease s).path.drainTimer = s.path.drainTimer ∧ (checkTxRelease s).path.emergency = s.path.emergency
    ∧ (checkTxRelease s).path.priorityTimer = s.path.priorityTimer ∧ (checkTxRelease s).path.radioWanted = s.path.radioWanted
    ∧ (checkTxRelease s).path.returnPause = s.path.returnPause ∧ (checkTxRelease s).path.recorded = s.path.recorded
    ∧ (checkTxRelease s).events.evp = s.events.evp ∧ (checkTxRelease s).events.slotKinds = s.events.slotKinds
    ∧ (checkTxRelease s).events.refreshCount = s.events.refreshCount ∧ (checkTxRelease s).events.refreshTimer = s.events.refreshTimer
    ∧ (checkTxRelease s).events.pageWriting = s.events.pageWriting ∧ (checkTxRelease s).events.pageWanted = s.events.pageWanted
    ∧ (checkTxRelease s).events.counters = s.events.counters ∧ (checkTxRelease s).events.ledMs = s.events.ledMs := by unfold checkTxRelease; (repeat' split) <;> simp

@[simp] theorem checkRxRelease_frame (s : State) :
    (checkRxRelease s).pending = s.pending ∧ (checkRxRelease s).clock = s.clock ∧ (checkRxRelease s).draws = s.draws
    ∧ (checkRxRelease s).sram = s.sram ∧ (checkRxRelease s).pins = s.pins ∧ (checkRxRelease s).loader = s.loader
    ∧ (checkRxRelease s).health = s.health ∧ (checkRxRelease s).hold = s.hold ∧ (checkRxRelease s).pacer = s.pacer
    ∧ (checkRxRelease s).radio = s.radio ∧ (checkRxRelease s).power = s.power ∧ (checkRxRelease s).bus.shadows = s.bus.shadows
    ∧ (checkRxRelease s).bus.txHorizon = s.bus.txHorizon ∧ (checkRxRelease s).bus.rxHorizon = s.bus.rxHorizon
    ∧ (checkRxRelease s).bus.fixedH = s.bus.fixedH ∧ (checkRxRelease s).bus.fixedG = s.bus.fixedG
    ∧ (checkRxRelease s).bus.uplinkView = s.bus.uplinkView ∧ (checkRxRelease s).bus.uplinkViewValue = s.bus.uplinkViewValue
    ∧ (checkRxRelease s).bus.txGuard = s.bus.txGuard ∧ (checkRxRelease s).bus.queue = s.bus.queue
    ∧ (checkRxRelease s).bus.waitCount = s.bus.waitCount ∧ (checkRxRelease s).bus.gatewayData = s.bus.gatewayData
    ∧ (checkRxRelease s).ring.window = s.ring.window ∧ (checkRxRelease s).ring.base = s.ring.base
    ∧ (checkRxRelease s).ring.partTxc = s.ring.partTxc ∧ (checkRxRelease s).ring.readMark = s.ring.readMark
    ∧ (checkRxRelease s).ring.descriptorRead = s.ring.descriptorRead ∧ (checkRxRelease s).ring.takes = s.ring.takes
    ∧ (checkRxRelease s).ring.fence = s.ring.fence ∧ (checkRxRelease s).ring.overrun = s.ring.overrun
    ∧ (checkRxRelease s).ring.txCheckDue = s.ring.txCheckDue ∧ (checkRxRelease s).ring.scanRunning = s.ring.scanRunning
    ∧ (checkRxRelease s).ring.scanMark = s.ring.scanMark ∧ (checkRxRelease s).ring.scanRead = s.ring.scanRead
    ∧ (checkRxRelease s).ring.txForcing = s.ring.txForcing ∧ (checkRxRelease s).ring.handBackAsked = s.ring.handBackAsked
    ∧ (checkRxRelease s).ring.fillCursor = s.ring.fillCursor ∧ (checkRxRelease s).ring.delivery = s.ring.delivery
    ∧ (checkRxRelease s).ring.descriptorHeld = s.ring.descriptorHeld ∧ (checkRxRelease s).path.path = s.path.path
    ∧ (checkRxRelease s).path.phase = s.path.phase ∧ (checkRxRelease s).path.dwellD = s.path.dwellD
    ∧ (checkRxRelease s).path.dwell = s.path.dwell ∧ (checkRxRelease s).path.refallTimer = s.path.refallTimer
    ∧ (checkRxRelease s).path.refallOpen = s.path.refallOpen ∧ (checkRxRelease s).path.txReleased = s.path.txReleased
    ∧ (checkRxRelease s).path.drainTimer = s.path.drainTimer ∧ (checkRxRelease s).path.emergency = s.path.emergency
    ∧ (checkRxRelease s).path.priorityTimer = s.path.priorityTimer ∧ (checkRxRelease s).path.radioWanted = s.path.radioWanted
    ∧ (checkRxRelease s).path.returnPause = s.path.returnPause ∧ (checkRxRelease s).path.recorded = s.path.recorded
    ∧ (checkRxRelease s).events.evp = s.events.evp ∧ (checkRxRelease s).events.slotKinds = s.events.slotKinds
    ∧ (checkRxRelease s).events.refreshCount = s.events.refreshCount ∧ (checkRxRelease s).events.refreshTimer = s.events.refreshTimer
    ∧ (checkRxRelease s).events.pageWriting = s.events.pageWriting ∧ (checkRxRelease s).events.pageWanted = s.events.pageWanted
    ∧ (checkRxRelease s).events.counters = s.events.counters ∧ (checkRxRelease s).events.ledMs = s.events.ledMs := by unfold checkRxRelease; (repeat' split) <;> simp

@[simp] theorem forceTx_frame (s : State) :
    (forceTx s).pending = s.pending ∧ (forceTx s).clock = s.clock ∧ (forceTx s).draws = s.draws ∧ (forceTx s).sram = s.sram
    ∧ (forceTx s).pins = s.pins ∧ (forceTx s).loader = s.loader ∧ (forceTx s).health = s.health ∧ (forceTx s).hold = s.hold
    ∧ (forceTx s).pacer = s.pacer ∧ (forceTx s).radio = s.radio ∧ (forceTx s).power = s.power ∧ (forceTx s).bus.shadows = s.bus.shadows
    ∧ (forceTx s).bus.txHorizon = s.bus.txHorizon ∧ (forceTx s).bus.rxHorizon = s.bus.rxHorizon ∧ (forceTx s).bus.fixedH = s.bus.fixedH
    ∧ (forceTx s).bus.fixedG = s.bus.fixedG ∧ (forceTx s).bus.receiveView = s.bus.receiveView
    ∧ (forceTx s).bus.receiveViewValue = s.bus.receiveViewValue ∧ (forceTx s).bus.rxGuard = s.bus.rxGuard ∧ (forceTx s).bus.queue = s.bus.queue
    ∧ (forceTx s).bus.waitCount = s.bus.waitCount ∧ (forceTx s).bus.gatewayData = s.bus.gatewayData ∧ (forceTx s).ring.window = s.ring.window
    ∧ (forceTx s).ring.readMark = s.ring.readMark ∧ (forceTx s).ring.takes = s.ring.takes ∧ (forceTx s).ring.fence = s.ring.fence
    ∧ (forceTx s).ring.scanRunning = s.ring.scanRunning ∧ (forceTx s).ring.scanMark = s.ring.scanMark
    ∧ (forceTx s).ring.scanRead = s.ring.scanRead ∧ (forceTx s).ring.rxForcing = s.ring.rxForcing
    ∧ (forceTx s).ring.handBackAsked = s.ring.handBackAsked ∧ (forceTx s).ring.fillCursor = s.ring.fillCursor
    ∧ (forceTx s).ring.partRxf = s.ring.partRxf ∧ (forceTx s).ring.delivery = s.ring.delivery
    ∧ (forceTx s).ring.descriptorHeld = s.ring.descriptorHeld ∧ (forceTx s).ring.rxOverrun = s.ring.rxOverrun
    ∧ (forceTx s).ring.rxCheckDue = s.ring.rxCheckDue ∧ (forceTx s).path.path = s.path.path ∧ (forceTx s).path.phase = s.path.phase
    ∧ (forceTx s).path.dwellD = s.path.dwellD ∧ (forceTx s).path.dwell = s.path.dwell ∧ (forceTx s).path.refallTimer = s.path.refallTimer
    ∧ (forceTx s).path.refallOpen = s.path.refallOpen ∧ (forceTx s).path.rxReleased = s.path.rxReleased
    ∧ (forceTx s).path.drainTimer = s.path.drainTimer ∧ (forceTx s).path.emergency = s.path.emergency
    ∧ (forceTx s).path.priorityTimer = s.path.priorityTimer ∧ (forceTx s).path.radioWanted = s.path.radioWanted
    ∧ (forceTx s).path.returnPause = s.path.returnPause ∧ (forceTx s).path.recorded = s.path.recorded ∧ (forceTx s).events.evp = s.events.evp
    ∧ (forceTx s).events.slotKinds = s.events.slotKinds ∧ (forceTx s).events.refreshCount = s.events.refreshCount
    ∧ (forceTx s).events.refreshTimer = s.events.refreshTimer ∧ (forceTx s).events.pageWriting = s.events.pageWriting
    ∧ (forceTx s).events.pageWanted = s.events.pageWanted ∧ (forceTx s).events.counters = s.events.counters
    ∧ (forceTx s).events.ledMs = s.events.ledMs := by unfold forceTx; (repeat' split) <;> simp

@[simp] theorem forceRx_frame (s : State) :
    (forceRx s).pending = s.pending ∧ (forceRx s).clock = s.clock ∧ (forceRx s).draws = s.draws ∧ (forceRx s).sram = s.sram
    ∧ (forceRx s).pins = s.pins ∧ (forceRx s).loader = s.loader ∧ (forceRx s).health = s.health ∧ (forceRx s).hold = s.hold
    ∧ (forceRx s).pacer = s.pacer ∧ (forceRx s).radio = s.radio ∧ (forceRx s).power = s.power ∧ (forceRx s).bus.shadows = s.bus.shadows
    ∧ (forceRx s).bus.txHorizon = s.bus.txHorizon ∧ (forceRx s).bus.rxHorizon = s.bus.rxHorizon ∧ (forceRx s).bus.fixedH = s.bus.fixedH
    ∧ (forceRx s).bus.fixedG = s.bus.fixedG ∧ (forceRx s).bus.uplinkView = s.bus.uplinkView
    ∧ (forceRx s).bus.uplinkViewValue = s.bus.uplinkViewValue ∧ (forceRx s).bus.txGuard = s.bus.txGuard ∧ (forceRx s).bus.queue = s.bus.queue
    ∧ (forceRx s).bus.waitCount = s.bus.waitCount ∧ (forceRx s).bus.gatewayData = s.bus.gatewayData ∧ (forceRx s).ring.window = s.ring.window
    ∧ (forceRx s).ring.base = s.ring.base ∧ (forceRx s).ring.partTxc = s.ring.partTxc ∧ (forceRx s).ring.readMark = s.ring.readMark
    ∧ (forceRx s).ring.descriptorRead = s.ring.descriptorRead ∧ (forceRx s).ring.takes = s.ring.takes ∧ (forceRx s).ring.fence = s.ring.fence
    ∧ (forceRx s).ring.overrun = s.ring.overrun ∧ (forceRx s).ring.txCheckDue = s.ring.txCheckDue
    ∧ (forceRx s).ring.scanRunning = s.ring.scanRunning ∧ (forceRx s).ring.scanMark = s.ring.scanMark
    ∧ (forceRx s).ring.scanRead = s.ring.scanRead ∧ (forceRx s).ring.txForcing = s.ring.txForcing
    ∧ (forceRx s).ring.handBackAsked = s.ring.handBackAsked ∧ (forceRx s).ring.fillCursor = s.ring.fillCursor
    ∧ (forceRx s).ring.delivery = s.ring.delivery ∧ (forceRx s).ring.descriptorHeld = s.ring.descriptorHeld ∧ (forceRx s).path.path = s.path.path
    ∧ (forceRx s).path.phase = s.path.phase ∧ (forceRx s).path.dwellD = s.path.dwellD ∧ (forceRx s).path.dwell = s.path.dwell
    ∧ (forceRx s).path.refallTimer = s.path.refallTimer ∧ (forceRx s).path.refallOpen = s.path.refallOpen
    ∧ (forceRx s).path.txReleased = s.path.txReleased ∧ (forceRx s).path.drainTimer = s.path.drainTimer
    ∧ (forceRx s).path.emergency = s.path.emergency ∧ (forceRx s).path.priorityTimer = s.path.priorityTimer
    ∧ (forceRx s).path.radioWanted = s.path.radioWanted ∧ (forceRx s).path.returnPause = s.path.returnPause
    ∧ (forceRx s).path.recorded = s.path.recorded ∧ (forceRx s).events.evp = s.events.evp ∧ (forceRx s).events.slotKinds = s.events.slotKinds
    ∧ (forceRx s).events.refreshCount = s.events.refreshCount ∧ (forceRx s).events.refreshTimer = s.events.refreshTimer
    ∧ (forceRx s).events.pageWriting = s.events.pageWriting ∧ (forceRx s).events.pageWanted = s.events.pageWanted
    ∧ (forceRx s).events.counters = s.events.counters ∧ (forceRx s).events.ledMs = s.events.ledMs := by unfold forceRx; (repeat' split) <;> simp

@[simp] theorem judgePending_frame (s : State) :
    (judgePending s).pending = s.pending ∧ (judgePending s).clock = s.clock ∧ (judgePending s).draws = s.draws ∧ (judgePending s).sram = s.sram
    ∧ (judgePending s).pins = s.pins ∧ (judgePending s).loader = s.loader ∧ (judgePending s).health = s.health ∧ (judgePending s).pacer = s.pacer
    ∧ (judgePending s).power = s.power ∧ (judgePending s).events = s.events ∧ (judgePending s).bus.shadows = s.bus.shadows
    ∧ (judgePending s).bus.txHorizon = s.bus.txHorizon ∧ (judgePending s).bus.rxHorizon = s.bus.rxHorizon
    ∧ (judgePending s).bus.fixedH = s.bus.fixedH ∧ (judgePending s).bus.fixedG = s.bus.fixedG
    ∧ (judgePending s).bus.uplinkView = s.bus.uplinkView ∧ (judgePending s).bus.receiveView = s.bus.receiveView
    ∧ (judgePending s).bus.uplinkViewValue = s.bus.uplinkViewValue ∧ (judgePending s).bus.receiveViewValue = s.bus.receiveViewValue
    ∧ (judgePending s).bus.txGuard = s.bus.txGuard ∧ (judgePending s).bus.rxGuard = s.bus.rxGuard ∧ (judgePending s).bus.queue = s.bus.queue
    ∧ (judgePending s).bus.waitCount = s.bus.waitCount ∧ (judgePending s).bus.gatewayData = s.bus.gatewayData
    ∧ (judgePending s).ring.base = s.ring.base ∧ (judgePending s).ring.partTxc = s.ring.partTxc
    ∧ (judgePending s).ring.readMark = s.ring.readMark ∧ (judgePending s).ring.descriptorRead = s.ring.descriptorRead
    ∧ (judgePending s).ring.fence = s.ring.fence ∧ (judgePending s).ring.overrun = s.ring.overrun
    ∧ (judgePending s).ring.txCheckDue = s.ring.txCheckDue ∧ (judgePending s).ring.scanRunning = s.ring.scanRunning
    ∧ (judgePending s).ring.scanMark = s.ring.scanMark ∧ (judgePending s).ring.scanRead = s.ring.scanRead
    ∧ (judgePending s).ring.txForcing = s.ring.txForcing ∧ (judgePending s).ring.rxForcing = s.ring.rxForcing
    ∧ (judgePending s).ring.handBackAsked = s.ring.handBackAsked ∧ (judgePending s).ring.fillCursor = s.ring.fillCursor
    ∧ (judgePending s).ring.partRxf = s.ring.partRxf ∧ (judgePending s).ring.delivery = s.ring.delivery
    ∧ (judgePending s).ring.descriptorHeld = s.ring.descriptorHeld ∧ (judgePending s).ring.rxOverrun = s.ring.rxOverrun
    ∧ (judgePending s).ring.rxCheckDue = s.ring.rxCheckDue ∧ (judgePending s).path.path = s.path.path
    ∧ (judgePending s).path.phase = s.path.phase ∧ (judgePending s).path.dwellD = s.path.dwellD ∧ (judgePending s).path.dwell = s.path.dwell
    ∧ (judgePending s).path.refallTimer = s.path.refallTimer ∧ (judgePending s).path.refallOpen = s.path.refallOpen
    ∧ (judgePending s).path.releaseTimer = s.path.releaseTimer ∧ (judgePending s).path.txReleased = s.path.txReleased
    ∧ (judgePending s).path.rxReleased = s.path.rxReleased ∧ (judgePending s).path.drainTimer = s.path.drainTimer
    ∧ (judgePending s).path.radioWanted = s.path.radioWanted ∧ (judgePending s).path.returnPause = s.path.returnPause
    ∧ (judgePending s).path.recorded = s.path.recorded ∧ (judgePending s).hold.cells = s.hold.cells ∧ (judgePending s).hold.uqE = s.hold.uqE
    ∧ (judgePending s).hold.uqV = s.hold.uqV ∧ (judgePending s).hold.uqD = s.hold.uqD ∧ (judgePending s).hold.dqV = s.hold.dqV
    ∧ (judgePending s).hold.dqD = s.hold.dqD ∧ (judgePending s).hold.onLdo = s.hold.onLdo ∧ (judgePending s).hold.sweep10 = s.hold.sweep10
    ∧ (judgePending s).hold.sweep1s = s.hold.sweep1s ∧ (judgePending s).radio.failures = s.radio.failures
    ∧ (judgePending s).radio.lastCause = s.radio.lastCause ∧ (judgePending s).radio.cycleTimer = s.radio.cycleTimer
    ∧ (judgePending s).radio.silenceTimer = s.radio.silenceTimer ∧ (judgePending s).radio.grantUp = s.radio.grantUp
    ∧ (judgePending s).radio.grantDown = s.radio.grantDown ∧ (judgePending s).radio.grantQuality = s.radio.grantQuality
    ∧ (judgePending s).radio.slotA = s.radio.slotA ∧ (judgePending s).radio.slotB = s.radio.slotB
    ∧ (judgePending s).radio.unsent = s.radio.unsent ∧ (judgePending s).radio.pauseTold = s.radio.pauseTold
    ∧ (judgePending s).radio.capTold = s.radio.capTold ∧ (judgePending s).radio.lowPowerTold = s.radio.lowPowerTold
    ∧ (judgePending s).radio.ldo = s.radio.ldo ∧ (judgePending s).radio.ldoLast = s.radio.ldoLast
    ∧ (judgePending s).radio.receiver = s.radio.receiver := by
  have keep {γ : Type} (p : State → γ) (h : ∀ s a, p (judgeEntry s a) = p s) : p (judgePending s) = p s := foldl_keeps p _ _ _ h
  exact ⟨keep (·.pending) (by simp), keep (·.clock) (by simp), keep (·.draws) (by simp), keep (·.sram) (by simp), keep (·.pins) (by simp),
    keep (·.loader) (by simp), keep (·.health) (by simp), keep (·.pacer) (by simp), keep (·.power) (by simp), keep (·.events) (by simp),
    keep (·.bus.shadows) (by simp), keep (·.bus.txHorizon) (by simp), keep (·.bus.rxHorizon) (by simp), keep (·.bus.fixedH) (by simp),
    keep (·.bus.fixedG) (by simp), keep (·.bus.uplinkView) (by simp), keep (·.bus.receiveView) (by simp),
    keep (·.bus.uplinkViewValue) (by simp), keep (·.bus.receiveViewValue) (by simp), keep (·.bus.txGuard) (by simp),
    keep (·.bus.rxGuard) (by simp), keep (·.bus.queue) (by simp), keep (·.bus.waitCount) (by simp), keep (·.bus.gatewayData) (by simp),
    keep (·.ring.base) (by simp), keep (·.ring.partTxc) (by simp), keep (·.ring.readMark) (by simp),
    keep (·.ring.descriptorRead) (by simp), keep (·.ring.fence) (by simp), keep (·.ring.overrun) (by simp),
    keep (·.ring.txCheckDue) (by simp), keep (·.ring.scanRunning) (by simp), keep (·.ring.scanMark) (by simp),
    keep (·.ring.scanRead) (by simp), keep (·.ring.txForcing) (by simp), keep (·.ring.rxForcing) (by simp),
    keep (·.ring.handBackAsked) (by simp), keep (·.ring.fillCursor) (by simp), keep (·.ring.partRxf) (by simp),
    keep (·.ring.delivery) (by simp), keep (·.ring.descriptorHeld) (by simp), keep (·.ring.rxOverrun) (by simp),
    keep (·.ring.rxCheckDue) (by simp), keep (·.path.path) (by simp), keep (·.path.phase) (by simp), keep (·.path.dwellD) (by simp),
    keep (·.path.dwell) (by simp), keep (·.path.refallTimer) (by simp), keep (·.path.refallOpen) (by simp),
    keep (·.path.releaseTimer) (by simp), keep (·.path.txReleased) (by simp), keep (·.path.rxReleased) (by simp),
    keep (·.path.drainTimer) (by simp), keep (·.path.radioWanted) (by simp), keep (·.path.returnPause) (by simp),
    keep (·.path.recorded) (by simp), keep (·.hold.cells) (by simp), keep (·.hold.uqE) (by simp), keep (·.hold.uqV) (by simp),
    keep (·.hold.uqD) (by simp), keep (·.hold.dqV) (by simp), keep (·.hold.dqD) (by simp), keep (·.hold.onLdo) (by simp),
    keep (·.hold.sweep10) (by simp), keep (·.hold.sweep1s) (by simp), keep (·.radio.failures) (by simp),
    keep (·.radio.lastCause) (by simp), keep (·.radio.cycleTimer) (by simp), keep (·.radio.silenceTimer) (by simp),
    keep (·.radio.grantUp) (by simp), keep (·.radio.grantDown) (by simp), keep (·.radio.grantQuality) (by simp),
    keep (·.radio.slotA) (by simp), keep (·.radio.slotB) (by simp), keep (·.radio.unsent) (by simp), keep (·.radio.pauseTold) (by simp),
    keep (·.radio.capTold) (by simp), keep (·.radio.lowPowerTold) (by simp), keep (·.radio.ldo) (by simp),
    keep (·.radio.ldoLast) (by simp), keep (·.radio.receiver) (by simp)⟩

@[simp] theorem forceRelease_frame (s : State) :
    (forceRelease s).pending = s.pending ∧ (forceRelease s).clock = s.clock ∧ (forceRelease s).draws = s.draws ∧ (forceRelease s).sram = s.sram
    ∧ (forceRelease s).pins = s.pins ∧ (forceRelease s).loader = s.loader ∧ (forceRelease s).health = s.health ∧ (forceRelease s).hold = s.hold
    ∧ (forceRelease s).pacer = s.pacer ∧ (forceRelease s).radio = s.radio ∧ (forceRelease s).power = s.power
    ∧ (forceRelease s).bus.shadows = s.bus.shadows ∧ (forceRelease s).bus.txHorizon = s.bus.txHorizon
    ∧ (forceRelease s).bus.rxHorizon = s.bus.rxHorizon ∧ (forceRelease s).bus.fixedH = s.bus.fixedH ∧ (forceRelease s).bus.fixedG = s.bus.fixedG
    ∧ (forceRelease s).bus.queue = s.bus.queue ∧ (forceRelease s).bus.waitCount = s.bus.waitCount
    ∧ (forceRelease s).bus.gatewayData = s.bus.gatewayData ∧ (forceRelease s).ring.window = s.ring.window
    ∧ (forceRelease s).ring.readMark = s.ring.readMark ∧ (forceRelease s).ring.takes = s.ring.takes ∧ (forceRelease s).ring.fence = s.ring.fence
    ∧ (forceRelease s).ring.scanRunning = s.ring.scanRunning ∧ (forceRelease s).ring.scanMark = s.ring.scanMark
    ∧ (forceRelease s).ring.scanRead = s.ring.scanRead ∧ (forceRelease s).ring.handBackAsked = s.ring.handBackAsked
    ∧ (forceRelease s).ring.fillCursor = s.ring.fillCursor ∧ (forceRelease s).ring.delivery = s.ring.delivery
    ∧ (forceRelease s).ring.descriptorHeld = s.ring.descriptorHeld ∧ (forceRelease s).path.path = s.path.path
    ∧ (forceRelease s).path.phase = s.path.phase ∧ (forceRelease s).path.dwellD = s.path.dwellD ∧ (forceRelease s).path.dwell = s.path.dwell
    ∧ (forceRelease s).path.refallTimer = s.path.refallTimer ∧ (forceRelease s).path.refallOpen = s.path.refallOpen
    ∧ (forceRelease s).path.drainTimer = s.path.drainTimer ∧ (forceRelease s).path.emergency = s.path.emergency
    ∧ (forceRelease s).path.priorityTimer = s.path.priorityTimer ∧ (forceRelease s).path.radioWanted = s.path.radioWanted
    ∧ (forceRelease s).path.returnPause = s.path.returnPause ∧ (forceRelease s).path.recorded = s.path.recorded
    ∧ (forceRelease s).events.evp = s.events.evp ∧ (forceRelease s).events.slotKinds = s.events.slotKinds
    ∧ (forceRelease s).events.refreshCount = s.events.refreshCount ∧ (forceRelease s).events.refreshTimer = s.events.refreshTimer
    ∧ (forceRelease s).events.pageWriting = s.events.pageWriting ∧ (forceRelease s).events.pageWanted = s.events.pageWanted
    ∧ (forceRelease s).events.counters = s.events.counters ∧ (forceRelease s).events.ledMs = s.events.ledMs := by unfold forceRelease; (repeat' split) <;> simp

@[simp] theorem beginRelease_frame (s : State) :
    (beginRelease s).pending = s.pending ∧ (beginRelease s).clock = s.clock ∧ (beginRelease s).draws = s.draws ∧ (beginRelease s).sram = s.sram
    ∧ (beginRelease s).pins = s.pins ∧ (beginRelease s).loader = s.loader ∧ (beginRelease s).health = s.health ∧ (beginRelease s).hold = s.hold
    ∧ (beginRelease s).pacer = s.pacer ∧ (beginRelease s).radio = s.radio ∧ (beginRelease s).power = s.power
    ∧ (beginRelease s).bus.shadows = s.bus.shadows ∧ (beginRelease s).bus.txHorizon = s.bus.txHorizon
    ∧ (beginRelease s).bus.rxHorizon = s.bus.rxHorizon ∧ (beginRelease s).bus.fixedH = s.bus.fixedH ∧ (beginRelease s).bus.fixedG = s.bus.fixedG
    ∧ (beginRelease s).bus.queue = s.bus.queue ∧ (beginRelease s).bus.waitCount = s.bus.waitCount
    ∧ (beginRelease s).bus.gatewayData = s.bus.gatewayData ∧ (beginRelease s).ring.window = s.ring.window
    ∧ (beginRelease s).ring.readMark = s.ring.readMark ∧ (beginRelease s).ring.takes = s.ring.takes ∧ (beginRelease s).ring.fence = s.ring.fence
    ∧ (beginRelease s).ring.scanRunning = s.ring.scanRunning ∧ (beginRelease s).ring.scanMark = s.ring.scanMark
    ∧ (beginRelease s).ring.scanRead = s.ring.scanRead ∧ (beginRelease s).ring.handBackAsked = s.ring.handBackAsked
    ∧ (beginRelease s).ring.fillCursor = s.ring.fillCursor ∧ (beginRelease s).ring.delivery = s.ring.delivery
    ∧ (beginRelease s).ring.descriptorHeld = s.ring.descriptorHeld ∧ (beginRelease s).path.path = s.path.path
    ∧ (beginRelease s).path.phase = s.path.phase ∧ (beginRelease s).path.dwellD = s.path.dwellD ∧ (beginRelease s).path.dwell = s.path.dwell
    ∧ (beginRelease s).path.refallTimer = s.path.refallTimer ∧ (beginRelease s).path.refallOpen = s.path.refallOpen
    ∧ (beginRelease s).path.drainTimer = s.path.drainTimer ∧ (beginRelease s).path.emergency = s.path.emergency
    ∧ (beginRelease s).path.priorityTimer = s.path.priorityTimer ∧ (beginRelease s).path.radioWanted = s.path.radioWanted
    ∧ (beginRelease s).path.returnPause = s.path.returnPause ∧ (beginRelease s).path.recorded = s.path.recorded
    ∧ (beginRelease s).events.evp = s.events.evp ∧ (beginRelease s).events.slotKinds = s.events.slotKinds
    ∧ (beginRelease s).events.refreshCount = s.events.refreshCount ∧ (beginRelease s).events.refreshTimer = s.events.refreshTimer
    ∧ (beginRelease s).events.pageWriting = s.events.pageWriting ∧ (beginRelease s).events.pageWanted = s.events.pageWanted
    ∧ (beginRelease s).events.counters = s.events.counters ∧ (beginRelease s).events.ledMs = s.events.ledMs := by simp only [beginRelease]; (repeat' split) <;> simp

@[simp] theorem txcChanged_frame (s : State) :
    (txcChanged s).pending = s.pending ∧ (txcChanged s).clock = s.clock ∧ (txcChanged s).draws = s.draws ∧ (txcChanged s).sram = s.sram
    ∧ (txcChanged s).pins = s.pins ∧ (txcChanged s).loader = s.loader ∧ (txcChanged s).health = s.health ∧ (txcChanged s).hold = s.hold
    ∧ (txcChanged s).pacer = s.pacer ∧ (txcChanged s).radio = s.radio ∧ (txcChanged s).power = s.power
    ∧ (txcChanged s).bus.shadows = s.bus.shadows ∧ (txcChanged s).bus.txHorizon = s.bus.txHorizon
    ∧ (txcChanged s).bus.rxHorizon = s.bus.rxHorizon ∧ (txcChanged s).bus.fixedH = s.bus.fixedH ∧ (txcChanged s).bus.fixedG = s.bus.fixedG
    ∧ (txcChanged s).bus.receiveView = s.bus.receiveView ∧ (txcChanged s).bus.receiveViewValue = s.bus.receiveViewValue
    ∧ (txcChanged s).bus.rxGuard = s.bus.rxGuard ∧ (txcChanged s).bus.queue = s.bus.queue ∧ (txcChanged s).bus.waitCount = s.bus.waitCount
    ∧ (txcChanged s).bus.gatewayData = s.bus.gatewayData ∧ (txcChanged s).ring.window = s.ring.window
    ∧ (txcChanged s).ring.readMark = s.ring.readMark ∧ (txcChanged s).ring.takes = s.ring.takes ∧ (txcChanged s).ring.fence = s.ring.fence
    ∧ (txcChanged s).ring.scanRunning = s.ring.scanRunning ∧ (txcChanged s).ring.rxForcing = s.ring.rxForcing
    ∧ (txcChanged s).ring.handBackAsked = s.ring.handBackAsked ∧ (txcChanged s).ring.fillCursor = s.ring.fillCursor
    ∧ (txcChanged s).ring.partRxf = s.ring.partRxf ∧ (txcChanged s).ring.delivery = s.ring.delivery
    ∧ (txcChanged s).ring.descriptorHeld = s.ring.descriptorHeld ∧ (txcChanged s).ring.rxOverrun = s.ring.rxOverrun
    ∧ (txcChanged s).ring.rxCheckDue = s.ring.rxCheckDue ∧ (txcChanged s).path.path = s.path.path ∧ (txcChanged s).path.phase = s.path.phase
    ∧ (txcChanged s).path.dwellD = s.path.dwellD ∧ (txcChanged s).path.dwell = s.path.dwell
    ∧ (txcChanged s).path.refallTimer = s.path.refallTimer ∧ (txcChanged s).path.refallOpen = s.path.refallOpen
    ∧ (txcChanged s).path.rxReleased = s.path.rxReleased ∧ (txcChanged s).path.drainTimer = s.path.drainTimer
    ∧ (txcChanged s).path.emergency = s.path.emergency ∧ (txcChanged s).path.priorityTimer = s.path.priorityTimer
    ∧ (txcChanged s).path.radioWanted = s.path.radioWanted ∧ (txcChanged s).path.returnPause = s.path.returnPause
    ∧ (txcChanged s).path.recorded = s.path.recorded ∧ (txcChanged s).events.evp = s.events.evp
    ∧ (txcChanged s).events.slotKinds = s.events.slotKinds ∧ (txcChanged s).events.refreshCount = s.events.refreshCount
    ∧ (txcChanged s).events.refreshTimer = s.events.refreshTimer ∧ (txcChanged s).events.pageWriting = s.events.pageWriting
    ∧ (txcChanged s).events.pageWanted = s.events.pageWanted ∧ (txcChanged s).events.counters = s.events.counters
    ∧ (txcChanged s).events.ledMs = s.events.ledMs := by simp [txcChanged]

@[simp] theorem rxfChanged_frame (s : State) :
    (rxfChanged s).pending = s.pending ∧ (rxfChanged s).clock = s.clock ∧ (rxfChanged s).draws = s.draws ∧ (rxfChanged s).sram = s.sram
    ∧ (rxfChanged s).pins = s.pins ∧ (rxfChanged s).loader = s.loader ∧ (rxfChanged s).health = s.health ∧ (rxfChanged s).hold = s.hold
    ∧ (rxfChanged s).pacer = s.pacer ∧ (rxfChanged s).radio = s.radio ∧ (rxfChanged s).power = s.power
    ∧ (rxfChanged s).bus.shadows = s.bus.shadows ∧ (rxfChanged s).bus.txHorizon = s.bus.txHorizon
    ∧ (rxfChanged s).bus.rxHorizon = s.bus.rxHorizon ∧ (rxfChanged s).bus.fixedH = s.bus.fixedH ∧ (rxfChanged s).bus.fixedG = s.bus.fixedG
    ∧ (rxfChanged s).bus.uplinkView = s.bus.uplinkView ∧ (rxfChanged s).bus.uplinkViewValue = s.bus.uplinkViewValue
    ∧ (rxfChanged s).bus.txGuard = s.bus.txGuard ∧ (rxfChanged s).bus.queue = s.bus.queue ∧ (rxfChanged s).bus.waitCount = s.bus.waitCount
    ∧ (rxfChanged s).bus.gatewayData = s.bus.gatewayData ∧ (rxfChanged s).ring.window = s.ring.window ∧ (rxfChanged s).ring.base = s.ring.base
    ∧ (rxfChanged s).ring.partTxc = s.ring.partTxc ∧ (rxfChanged s).ring.readMark = s.ring.readMark
    ∧ (rxfChanged s).ring.descriptorRead = s.ring.descriptorRead ∧ (rxfChanged s).ring.takes = s.ring.takes
    ∧ (rxfChanged s).ring.fence = s.ring.fence ∧ (rxfChanged s).ring.overrun = s.ring.overrun
    ∧ (rxfChanged s).ring.txCheckDue = s.ring.txCheckDue ∧ (rxfChanged s).ring.scanRunning = s.ring.scanRunning
    ∧ (rxfChanged s).ring.scanMark = s.ring.scanMark ∧ (rxfChanged s).ring.scanRead = s.ring.scanRead
    ∧ (rxfChanged s).ring.txForcing = s.ring.txForcing ∧ (rxfChanged s).ring.handBackAsked = s.ring.handBackAsked
    ∧ (rxfChanged s).ring.fillCursor = s.ring.fillCursor ∧ (rxfChanged s).ring.delivery = s.ring.delivery
    ∧ (rxfChanged s).ring.descriptorHeld = s.ring.descriptorHeld ∧ (rxfChanged s).path.path = s.path.path
    ∧ (rxfChanged s).path.phase = s.path.phase ∧ (rxfChanged s).path.dwellD = s.path.dwellD ∧ (rxfChanged s).path.dwell = s.path.dwell
    ∧ (rxfChanged s).path.refallTimer = s.path.refallTimer ∧ (rxfChanged s).path.refallOpen = s.path.refallOpen
    ∧ (rxfChanged s).path.txReleased = s.path.txReleased ∧ (rxfChanged s).path.drainTimer = s.path.drainTimer
    ∧ (rxfChanged s).path.emergency = s.path.emergency ∧ (rxfChanged s).path.priorityTimer = s.path.priorityTimer
    ∧ (rxfChanged s).path.radioWanted = s.path.radioWanted ∧ (rxfChanged s).path.returnPause = s.path.returnPause
    ∧ (rxfChanged s).path.recorded = s.path.recorded ∧ (rxfChanged s).events.evp = s.events.evp
    ∧ (rxfChanged s).events.slotKinds = s.events.slotKinds ∧ (rxfChanged s).events.refreshCount = s.events.refreshCount
    ∧ (rxfChanged s).events.refreshTimer = s.events.refreshTimer ∧ (rxfChanged s).events.pageWriting = s.events.pageWriting
    ∧ (rxfChanged s).events.pageWanted = s.events.pageWanted ∧ (rxfChanged s).events.counters = s.events.counters
    ∧ (rxfChanged s).events.ledMs = s.events.ledMs := by simp [rxfChanged]

@[simp] theorem freeCells_frame (cells : List Nat) (s : State) :
    (freeCells cells s).pending = s.pending ∧ (freeCells cells s).clock = s.clock ∧ (freeCells cells s).draws = s.draws
    ∧ (freeCells cells s).sram = s.sram ∧ (freeCells cells s).pins = s.pins ∧ (freeCells cells s).loader = s.loader
    ∧ (freeCells cells s).health = s.health ∧ (freeCells cells s).pacer = s.pacer ∧ (freeCells cells s).power = s.power
    ∧ (freeCells cells s).events = s.events ∧ (freeCells cells s).bus.shadows = s.bus.shadows
    ∧ (freeCells cells s).bus.txHorizon = s.bus.txHorizon ∧ (freeCells cells s).bus.rxHorizon = s.bus.rxHorizon
    ∧ (freeCells cells s).bus.fixedH = s.bus.fixedH ∧ (freeCells cells s).bus.fixedG = s.bus.fixedG
    ∧ (freeCells cells s).bus.uplinkView = s.bus.uplinkView ∧ (freeCells cells s).bus.receiveView = s.bus.receiveView
    ∧ (freeCells cells s).bus.uplinkViewValue = s.bus.uplinkViewValue ∧ (freeCells cells s).bus.receiveViewValue = s.bus.receiveViewValue
    ∧ (freeCells cells s).bus.txGuard = s.bus.txGuard ∧ (freeCells cells s).bus.rxGuard = s.bus.rxGuard
    ∧ (freeCells cells s).bus.queue = s.bus.queue ∧ (freeCells cells s).bus.waitCount = s.bus.waitCount
    ∧ (freeCells cells s).bus.gatewayData = s.bus.gatewayData ∧ (freeCells cells s).ring.base = s.ring.base
    ∧ (freeCells cells s).ring.partTxc = s.ring.partTxc ∧ (freeCells cells s).ring.readMark = s.ring.readMark
    ∧ (freeCells cells s).ring.descriptorRead = s.ring.descriptorRead ∧ (freeCells cells s).ring.fence = s.ring.fence
    ∧ (freeCells cells s).ring.overrun = s.ring.overrun ∧ (freeCells cells s).ring.txCheckDue = s.ring.txCheckDue
    ∧ (freeCells cells s).ring.scanRunning = s.ring.scanRunning ∧ (freeCells cells s).ring.scanMark = s.ring.scanMark
    ∧ (freeCells cells s).ring.scanRead = s.ring.scanRead ∧ (freeCells cells s).ring.txForcing = s.ring.txForcing
    ∧ (freeCells cells s).ring.rxForcing = s.ring.rxForcing ∧ (freeCells cells s).ring.handBackAsked = s.ring.handBackAsked
    ∧ (freeCells cells s).ring.fillCursor = s.ring.fillCursor ∧ (freeCells cells s).ring.partRxf = s.ring.partRxf
    ∧ (freeCells cells s).ring.delivery = s.ring.delivery ∧ (freeCells cells s).ring.descriptorHeld = s.ring.descriptorHeld
    ∧ (freeCells cells s).ring.rxOverrun = s.ring.rxOverrun ∧ (freeCells cells s).ring.rxCheckDue = s.ring.rxCheckDue
    ∧ (freeCells cells s).path.path = s.path.path ∧ (freeCells cells s).path.phase = s.path.phase
    ∧ (freeCells cells s).path.dwellD = s.path.dwellD ∧ (freeCells cells s).path.dwell = s.path.dwell
    ∧ (freeCells cells s).path.refallTimer = s.path.refallTimer ∧ (freeCells cells s).path.refallOpen = s.path.refallOpen
    ∧ (freeCells cells s).path.releaseTimer = s.path.releaseTimer ∧ (freeCells cells s).path.txReleased = s.path.txReleased
    ∧ (freeCells cells s).path.rxReleased = s.path.rxReleased ∧ (freeCells cells s).path.drainTimer = s.path.drainTimer
    ∧ (freeCells cells s).path.radioWanted = s.path.radioWanted ∧ (freeCells cells s).path.returnPause = s.path.returnPause
    ∧ (freeCells cells s).path.recorded = s.path.recorded ∧ (freeCells cells s).hold.cells = s.hold.cells
    ∧ (freeCells cells s).hold.uqE = s.hold.uqE ∧ (freeCells cells s).hold.uqV = s.hold.uqV ∧ (freeCells cells s).hold.uqD = s.hold.uqD
    ∧ (freeCells cells s).hold.dqV = s.hold.dqV ∧ (freeCells cells s).hold.dqD = s.hold.dqD ∧ (freeCells cells s).hold.onLdo = s.hold.onLdo
    ∧ (freeCells cells s).hold.sweep10 = s.hold.sweep10 ∧ (freeCells cells s).hold.sweep1s = s.hold.sweep1s
    ∧ (freeCells cells s).radio.failures = s.radio.failures ∧ (freeCells cells s).radio.lastCause = s.radio.lastCause
    ∧ (freeCells cells s).radio.cycleTimer = s.radio.cycleTimer ∧ (freeCells cells s).radio.silenceTimer = s.radio.silenceTimer
    ∧ (freeCells cells s).radio.grantUp = s.radio.grantUp ∧ (freeCells cells s).radio.grantDown = s.radio.grantDown
    ∧ (freeCells cells s).radio.grantQuality = s.radio.grantQuality ∧ (freeCells cells s).radio.slotA = s.radio.slotA
    ∧ (freeCells cells s).radio.slotB = s.radio.slotB ∧ (freeCells cells s).radio.unsent = s.radio.unsent
    ∧ (freeCells cells s).radio.pauseTold = s.radio.pauseTold ∧ (freeCells cells s).radio.capTold = s.radio.capTold
    ∧ (freeCells cells s).radio.lowPowerTold = s.radio.lowPowerTold ∧ (freeCells cells s).radio.ldo = s.radio.ldo
    ∧ (freeCells cells s).radio.ldoLast = s.radio.ldoLast ∧ (freeCells cells s).radio.receiver = s.radio.receiver := by unfold freeCells; (repeat' split) <;> simp

@[simp] theorem place_frame (slot : Slot) (r : FrameRecord) (s : State) :
    (place slot r s).pending = s.pending ∧ (place slot r s).clock = s.clock ∧ (place slot r s).draws = s.draws ∧ (place slot r s).sram = s.sram
    ∧ (place slot r s).pins = s.pins ∧ (place slot r s).loader = s.loader ∧ (place slot r s).health = s.health ∧ (place slot r s).power = s.power
    ∧ (place slot r s).events = s.events ∧ (place slot r s).bus.shadows = s.bus.shadows ∧ (place slot r s).bus.txHorizon = s.bus.txHorizon
    ∧ (place slot r s).bus.rxHorizon = s.bus.rxHorizon ∧ (place slot r s).bus.fixedH = s.bus.fixedH ∧ (place slot r s).bus.fixedG = s.bus.fixedG
    ∧ (place slot r s).bus.uplinkView = s.bus.uplinkView ∧ (place slot r s).bus.receiveView = s.bus.receiveView
    ∧ (place slot r s).bus.uplinkViewValue = s.bus.uplinkViewValue ∧ (place slot r s).bus.receiveViewValue = s.bus.receiveViewValue
    ∧ (place slot r s).bus.txGuard = s.bus.txGuard ∧ (place slot r s).bus.rxGuard = s.bus.rxGuard ∧ (place slot r s).bus.queue = s.bus.queue
    ∧ (place slot r s).bus.waitCount = s.bus.waitCount ∧ (place slot r s).bus.gatewayData = s.bus.gatewayData
    ∧ (place slot r s).ring.base = s.ring.base ∧ (place slot r s).ring.partTxc = s.ring.partTxc
    ∧ (place slot r s).ring.readMark = s.ring.readMark ∧ (place slot r s).ring.descriptorRead = s.ring.descriptorRead
    ∧ (place slot r s).ring.fence = s.ring.fence ∧ (place slot r s).ring.overrun = s.ring.overrun
    ∧ (place slot r s).ring.txCheckDue = s.ring.txCheckDue ∧ (place slot r s).ring.scanRunning = s.ring.scanRunning
    ∧ (place slot r s).ring.scanMark = s.ring.scanMark ∧ (place slot r s).ring.scanRead = s.ring.scanRead
    ∧ (place slot r s).ring.txForcing = s.ring.txForcing ∧ (place slot r s).ring.rxForcing = s.ring.rxForcing
    ∧ (place slot r s).ring.handBackAsked = s.ring.handBackAsked ∧ (place slot r s).ring.fillCursor = s.ring.fillCursor
    ∧ (place slot r s).ring.partRxf = s.ring.partRxf ∧ (place slot r s).ring.delivery = s.ring.delivery
    ∧ (place slot r s).ring.descriptorHeld = s.ring.descriptorHeld ∧ (place slot r s).ring.rxOverrun = s.ring.rxOverrun
    ∧ (place slot r s).ring.rxCheckDue = s.ring.rxCheckDue ∧ (place slot r s).path.path = s.path.path
    ∧ (place slot r s).path.phase = s.path.phase ∧ (place slot r s).path.dwellD = s.path.dwellD ∧ (place slot r s).path.dwell = s.path.dwell
    ∧ (place slot r s).path.refallTimer = s.path.refallTimer ∧ (place slot r s).path.refallOpen = s.path.refallOpen
    ∧ (place slot r s).path.releaseTimer = s.path.releaseTimer ∧ (place slot r s).path.txReleased = s.path.txReleased
    ∧ (place slot r s).path.rxReleased = s.path.rxReleased ∧ (place slot r s).path.drainTimer = s.path.drainTimer
    ∧ (place slot r s).path.radioWanted = s.path.radioWanted ∧ (place slot r s).path.returnPause = s.path.returnPause
    ∧ (place slot r s).path.recorded = s.path.recorded ∧ (place slot r s).hold.cells = s.hold.cells ∧ (place slot r s).hold.dqV = s.hold.dqV
    ∧ (place slot r s).hold.dqD = s.hold.dqD ∧ (place slot r s).hold.onLdo = s.hold.onLdo ∧ (place slot r s).hold.sweep10 = s.hold.sweep10
    ∧ (place slot r s).hold.sweep1s = s.hold.sweep1s ∧ (place slot r s).pacer.pacing = s.pacer.pacing
    ∧ (place slot r s).pacer.refusalPause = s.pacer.refusalPause ∧ (place slot r s).pacer.grantSeen = s.pacer.grantSeen
    ∧ (place slot r s).pacer.usageBase = s.pacer.usageBase ∧ (place slot r s).pacer.carried = s.pacer.carried
    ∧ (place slot r s).pacer.allowance = s.pacer.allowance ∧ (place slot r s).pacer.downlinkCap = s.pacer.downlinkCap
    ∧ (place slot r s).radio.failures = s.radio.failures ∧ (place slot r s).radio.lastCause = s.radio.lastCause
    ∧ (place slot r s).radio.cycleTimer = s.radio.cycleTimer ∧ (place slot r s).radio.silenceTimer = s.radio.silenceTimer
    ∧ (place slot r s).radio.grantUp = s.radio.grantUp ∧ (place slot r s).radio.grantDown = s.radio.grantDown
    ∧ (place slot r s).radio.grantQuality = s.radio.grantQuality ∧ (place slot r s).radio.pauseTold = s.radio.pauseTold
    ∧ (place slot r s).radio.capTold = s.radio.capTold ∧ (place slot r s).radio.lowPowerTold = s.radio.lowPowerTold
    ∧ (place slot r s).radio.ldo = s.radio.ldo ∧ (place slot r s).radio.ldoLast = s.radio.ldoLast
    ∧ (place slot r s).radio.receiver = s.radio.receiver := by unfold place; (repeat' split) <;> simp

@[simp] theorem appendEntry_frame (e : Entry) (s : State) :
    (appendEntry e s).pending = s.pending ∧ (appendEntry e s).clock = s.clock ∧ (appendEntry e s).draws = s.draws
    ∧ (appendEntry e s).sram = s.sram ∧ (appendEntry e s).pins = s.pins ∧ (appendEntry e s).loader = s.loader
    ∧ (appendEntry e s).health = s.health ∧ (appendEntry e s).pacer = s.pacer ∧ (appendEntry e s).power = s.power
    ∧ (appendEntry e s).events = s.events ∧ (appendEntry e s).bus.shadows = s.bus.shadows ∧ (appendEntry e s).bus.txHorizon = s.bus.txHorizon
    ∧ (appendEntry e s).bus.rxHorizon = s.bus.rxHorizon ∧ (appendEntry e s).bus.fixedH = s.bus.fixedH
    ∧ (appendEntry e s).bus.fixedG = s.bus.fixedG ∧ (appendEntry e s).bus.uplinkView = s.bus.uplinkView
    ∧ (appendEntry e s).bus.receiveView = s.bus.receiveView ∧ (appendEntry e s).bus.uplinkViewValue = s.bus.uplinkViewValue
    ∧ (appendEntry e s).bus.receiveViewValue = s.bus.receiveViewValue ∧ (appendEntry e s).bus.txGuard = s.bus.txGuard
    ∧ (appendEntry e s).bus.rxGuard = s.bus.rxGuard ∧ (appendEntry e s).bus.queue = s.bus.queue
    ∧ (appendEntry e s).bus.waitCount = s.bus.waitCount ∧ (appendEntry e s).bus.gatewayData = s.bus.gatewayData
    ∧ (appendEntry e s).ring.base = s.ring.base ∧ (appendEntry e s).ring.partTxc = s.ring.partTxc
    ∧ (appendEntry e s).ring.readMark = s.ring.readMark ∧ (appendEntry e s).ring.descriptorRead = s.ring.descriptorRead
    ∧ (appendEntry e s).ring.fence = s.ring.fence ∧ (appendEntry e s).ring.overrun = s.ring.overrun
    ∧ (appendEntry e s).ring.txCheckDue = s.ring.txCheckDue ∧ (appendEntry e s).ring.scanRunning = s.ring.scanRunning
    ∧ (appendEntry e s).ring.scanMark = s.ring.scanMark ∧ (appendEntry e s).ring.scanRead = s.ring.scanRead
    ∧ (appendEntry e s).ring.txForcing = s.ring.txForcing ∧ (appendEntry e s).ring.rxForcing = s.ring.rxForcing
    ∧ (appendEntry e s).ring.handBackAsked = s.ring.handBackAsked ∧ (appendEntry e s).ring.fillCursor = s.ring.fillCursor
    ∧ (appendEntry e s).ring.partRxf = s.ring.partRxf ∧ (appendEntry e s).ring.delivery = s.ring.delivery
    ∧ (appendEntry e s).ring.descriptorHeld = s.ring.descriptorHeld ∧ (appendEntry e s).ring.rxOverrun = s.ring.rxOverrun
    ∧ (appendEntry e s).ring.rxCheckDue = s.ring.rxCheckDue ∧ (appendEntry e s).path.path = s.path.path
    ∧ (appendEntry e s).path.phase = s.path.phase ∧ (appendEntry e s).path.dwellD = s.path.dwellD ∧ (appendEntry e s).path.dwell = s.path.dwell
    ∧ (appendEntry e s).path.refallTimer = s.path.refallTimer ∧ (appendEntry e s).path.refallOpen = s.path.refallOpen
    ∧ (appendEntry e s).path.releaseTimer = s.path.releaseTimer ∧ (appendEntry e s).path.txReleased = s.path.txReleased
    ∧ (appendEntry e s).path.rxReleased = s.path.rxReleased ∧ (appendEntry e s).path.drainTimer = s.path.drainTimer
    ∧ (appendEntry e s).path.radioWanted = s.path.radioWanted ∧ (appendEntry e s).path.returnPause = s.path.returnPause
    ∧ (appendEntry e s).path.recorded = s.path.recorded ∧ (appendEntry e s).hold.cells = s.hold.cells ∧ (appendEntry e s).hold.uqE = s.hold.uqE
    ∧ (appendEntry e s).hold.uqV = s.hold.uqV ∧ (appendEntry e s).hold.uqD = s.hold.uqD ∧ (appendEntry e s).hold.dqV = s.hold.dqV
    ∧ (appendEntry e s).hold.dqD = s.hold.dqD ∧ (appendEntry e s).hold.onLdo = s.hold.onLdo ∧ (appendEntry e s).hold.sweep10 = s.hold.sweep10
    ∧ (appendEntry e s).hold.sweep1s = s.hold.sweep1s ∧ (appendEntry e s).radio.failures = s.radio.failures
    ∧ (appendEntry e s).radio.lastCause = s.radio.lastCause ∧ (appendEntry e s).radio.cycleTimer = s.radio.cycleTimer
    ∧ (appendEntry e s).radio.silenceTimer = s.radio.silenceTimer ∧ (appendEntry e s).radio.grantUp = s.radio.grantUp
    ∧ (appendEntry e s).radio.grantDown = s.radio.grantDown ∧ (appendEntry e s).radio.grantQuality = s.radio.grantQuality
    ∧ (appendEntry e s).radio.slotA = s.radio.slotA ∧ (appendEntry e s).radio.slotB = s.radio.slotB
    ∧ (appendEntry e s).radio.unsent = s.radio.unsent ∧ (appendEntry e s).radio.pauseTold = s.radio.pauseTold
    ∧ (appendEntry e s).radio.capTold = s.radio.capTold ∧ (appendEntry e s).radio.lowPowerTold = s.radio.lowPowerTold
    ∧ (appendEntry e s).radio.ldo = s.radio.ldo ∧ (appendEntry e s).radio.ldoLast = s.radio.ldoLast
    ∧ (appendEntry e s).radio.receiver = s.radio.receiver := by unfold appendEntry; (repeat' split) <;> simp

@[simp] theorem enterReturning_frame (cause : PathCause) (s : State) :
    (enterReturning cause s).pending = s.pending ∧ (enterReturning cause s).clock = s.clock ∧ (enterReturning cause s).draws = s.draws
    ∧ (enterReturning cause s).sram = s.sram ∧ (enterReturning cause s).pins = s.pins ∧ (enterReturning cause s).loader = s.loader
    ∧ (enterReturning cause s).health = s.health ∧ (enterReturning cause s).pacer = s.pacer ∧ (enterReturning cause s).power = s.power
    ∧ (enterReturning cause s).bus.shadows = s.bus.shadows ∧ (enterReturning cause s).bus.txHorizon = s.bus.txHorizon
    ∧ (enterReturning cause s).bus.rxHorizon = s.bus.rxHorizon ∧ (enterReturning cause s).bus.fixedH = s.bus.fixedH
    ∧ (enterReturning cause s).bus.fixedG = s.bus.fixedG ∧ (enterReturning cause s).bus.uplinkView = s.bus.uplinkView
    ∧ (enterReturning cause s).bus.receiveView = s.bus.receiveView ∧ (enterReturning cause s).bus.uplinkViewValue = s.bus.uplinkViewValue
    ∧ (enterReturning cause s).bus.receiveViewValue = s.bus.receiveViewValue ∧ (enterReturning cause s).bus.txGuard = s.bus.txGuard
    ∧ (enterReturning cause s).bus.rxGuard = s.bus.rxGuard ∧ (enterReturning cause s).bus.queue = s.bus.queue
    ∧ (enterReturning cause s).bus.waitCount = s.bus.waitCount ∧ (enterReturning cause s).bus.gatewayData = s.bus.gatewayData
    ∧ (enterReturning cause s).ring.base = s.ring.base ∧ (enterReturning cause s).ring.partTxc = s.ring.partTxc
    ∧ (enterReturning cause s).ring.overrun = s.ring.overrun ∧ (enterReturning cause s).ring.txCheckDue = s.ring.txCheckDue
    ∧ (enterReturning cause s).ring.scanRunning = s.ring.scanRunning ∧ (enterReturning cause s).ring.scanMark = s.ring.scanMark
    ∧ (enterReturning cause s).ring.scanRead = s.ring.scanRead ∧ (enterReturning cause s).ring.txForcing = s.ring.txForcing
    ∧ (enterReturning cause s).ring.rxForcing = s.ring.rxForcing ∧ (enterReturning cause s).ring.handBackAsked = s.ring.handBackAsked
    ∧ (enterReturning cause s).ring.fillCursor = s.ring.fillCursor ∧ (enterReturning cause s).ring.partRxf = s.ring.partRxf
    ∧ (enterReturning cause s).ring.delivery = s.ring.delivery ∧ (enterReturning cause s).ring.descriptorHeld = s.ring.descriptorHeld
    ∧ (enterReturning cause s).ring.rxOverrun = s.ring.rxOverrun ∧ (enterReturning cause s).ring.rxCheckDue = s.ring.rxCheckDue
    ∧ (enterReturning cause s).path.dwellD = s.path.dwellD ∧ (enterReturning cause s).path.dwell = s.path.dwell
    ∧ (enterReturning cause s).path.refallTimer = s.path.refallTimer ∧ (enterReturning cause s).path.refallOpen = s.path.refallOpen
    ∧ (enterReturning cause s).path.releaseTimer = s.path.releaseTimer ∧ (enterReturning cause s).path.txReleased = s.path.txReleased
    ∧ (enterReturning cause s).path.rxReleased = s.path.rxReleased ∧ (enterReturning cause s).path.radioWanted = s.path.radioWanted
    ∧ (enterReturning cause s).path.recorded = s.path.recorded ∧ (enterReturning cause s).hold.cells = s.hold.cells
    ∧ (enterReturning cause s).hold.uqE = s.hold.uqE ∧ (enterReturning cause s).hold.uqV = s.hold.uqV
    ∧ (enterReturning cause s).hold.uqD = s.hold.uqD ∧ (enterReturning cause s).hold.dqV = s.hold.dqV
    ∧ (enterReturning cause s).hold.dqD = s.hold.dqD ∧ (enterReturning cause s).hold.onLdo = s.hold.onLdo
    ∧ (enterReturning cause s).hold.sweep10 = s.hold.sweep10 ∧ (enterReturning cause s).hold.sweep1s = s.hold.sweep1s
    ∧ (enterReturning cause s).radio.failures = s.radio.failures ∧ (enterReturning cause s).radio.lastCause = s.radio.lastCause
    ∧ (enterReturning cause s).radio.cycleTimer = s.radio.cycleTimer ∧ (enterReturning cause s).radio.silenceTimer = s.radio.silenceTimer
    ∧ (enterReturning cause s).radio.grantUp = s.radio.grantUp ∧ (enterReturning cause s).radio.grantDown = s.radio.grantDown
    ∧ (enterReturning cause s).radio.grantQuality = s.radio.grantQuality ∧ (enterReturning cause s).radio.slotA = s.radio.slotA
    ∧ (enterReturning cause s).radio.slotB = s.radio.slotB ∧ (enterReturning cause s).radio.unsent = s.radio.unsent
    ∧ (enterReturning cause s).radio.pauseTold = s.radio.pauseTold ∧ (enterReturning cause s).radio.capTold = s.radio.capTold
    ∧ (enterReturning cause s).radio.lowPowerTold = s.radio.lowPowerTold ∧ (enterReturning cause s).radio.ldo = s.radio.ldo
    ∧ (enterReturning cause s).radio.ldoLast = s.radio.ldoLast ∧ (enterReturning cause s).radio.receiver = s.radio.receiver
    ∧ (enterReturning cause s).events.evp = s.events.evp ∧ (enterReturning cause s).events.slotKinds = s.events.slotKinds
    ∧ (enterReturning cause s).events.refreshCount = s.events.refreshCount ∧ (enterReturning cause s).events.refreshTimer = s.events.refreshTimer
    ∧ (enterReturning cause s).events.pageWriting = s.events.pageWriting ∧ (enterReturning cause s).events.counters = s.events.counters
    ∧ (enterReturning cause s).events.ledMs = s.events.ledMs := by simp only [enterReturning, withPauseTarget]; (repeat' split) <;> simp

@[simp] theorem reportChanges_frame (before : State) (s : State) :
    (reportChanges before s).pending = s.pending ∧ (reportChanges before s).clock = s.clock ∧ (reportChanges before s).draws = s.draws
    ∧ (reportChanges before s).sram = s.sram ∧ (reportChanges before s).pins = s.pins ∧ (reportChanges before s).loader = s.loader
    ∧ (reportChanges before s).health = s.health ∧ (reportChanges before s).hold = s.hold ∧ (reportChanges before s).pacer = s.pacer
    ∧ (reportChanges before s).radio = s.radio ∧ (reportChanges before s).power = s.power ∧ (reportChanges before s).bus.shadows = s.bus.shadows
    ∧ (reportChanges before s).bus.txHorizon = s.bus.txHorizon ∧ (reportChanges before s).bus.rxHorizon = s.bus.rxHorizon
    ∧ (reportChanges before s).bus.fixedH = s.bus.fixedH ∧ (reportChanges before s).bus.fixedG = s.bus.fixedG
    ∧ (reportChanges before s).bus.queue = s.bus.queue ∧ (reportChanges before s).bus.waitCount = s.bus.waitCount
    ∧ (reportChanges before s).bus.gatewayData = s.bus.gatewayData ∧ (reportChanges before s).ring.window = s.ring.window
    ∧ (reportChanges before s).ring.readMark = s.ring.readMark ∧ (reportChanges before s).ring.takes = s.ring.takes
    ∧ (reportChanges before s).ring.fence = s.ring.fence ∧ (reportChanges before s).ring.scanRunning = s.ring.scanRunning
    ∧ (reportChanges before s).ring.handBackAsked = s.ring.handBackAsked ∧ (reportChanges before s).ring.fillCursor = s.ring.fillCursor
    ∧ (reportChanges before s).ring.delivery = s.ring.delivery ∧ (reportChanges before s).ring.descriptorHeld = s.ring.descriptorHeld
    ∧ (reportChanges before s).path.path = s.path.path ∧ (reportChanges before s).path.phase = s.path.phase
    ∧ (reportChanges before s).path.dwellD = s.path.dwellD ∧ (reportChanges before s).path.dwell = s.path.dwell
    ∧ (reportChanges before s).path.refallTimer = s.path.refallTimer ∧ (reportChanges before s).path.refallOpen = s.path.refallOpen
    ∧ (reportChanges before s).path.drainTimer = s.path.drainTimer ∧ (reportChanges before s).path.emergency = s.path.emergency
    ∧ (reportChanges before s).path.priorityTimer = s.path.priorityTimer ∧ (reportChanges before s).path.radioWanted = s.path.radioWanted
    ∧ (reportChanges before s).path.returnPause = s.path.returnPause ∧ (reportChanges before s).path.recorded = s.path.recorded
    ∧ (reportChanges before s).events.evp = s.events.evp ∧ (reportChanges before s).events.slotKinds = s.events.slotKinds
    ∧ (reportChanges before s).events.refreshCount = s.events.refreshCount ∧ (reportChanges before s).events.refreshTimer = s.events.refreshTimer
    ∧ (reportChanges before s).events.pageWriting = s.events.pageWriting ∧ (reportChanges before s).events.pageWanted = s.events.pageWanted
    ∧ (reportChanges before s).events.counters = s.events.counters ∧ (reportChanges before s).events.ledMs = s.events.ledMs := by simp only [reportChanges]; (repeat' split) <;> simp

@[simp] theorem releaseExpires_frame (s : State) :
    (releaseExpires s).pending = s.pending ∧ (releaseExpires s).clock = s.clock ∧ (releaseExpires s).draws = s.draws
    ∧ (releaseExpires s).sram = s.sram ∧ (releaseExpires s).pins = s.pins ∧ (releaseExpires s).loader = s.loader
    ∧ (releaseExpires s).health = s.health ∧ (releaseExpires s).hold = s.hold ∧ (releaseExpires s).pacer = s.pacer
    ∧ (releaseExpires s).radio = s.radio ∧ (releaseExpires s).power = s.power ∧ (releaseExpires s).bus.shadows = s.bus.shadows
    ∧ (releaseExpires s).bus.txHorizon = s.bus.txHorizon ∧ (releaseExpires s).bus.rxHorizon = s.bus.rxHorizon
    ∧ (releaseExpires s).bus.fixedH = s.bus.fixedH ∧ (releaseExpires s).bus.fixedG = s.bus.fixedG ∧ (releaseExpires s).bus.queue = s.bus.queue
    ∧ (releaseExpires s).bus.waitCount = s.bus.waitCount ∧ (releaseExpires s).bus.gatewayData = s.bus.gatewayData
    ∧ (releaseExpires s).ring.window = s.ring.window ∧ (releaseExpires s).ring.readMark = s.ring.readMark
    ∧ (releaseExpires s).ring.takes = s.ring.takes ∧ (releaseExpires s).ring.fence = s.ring.fence
    ∧ (releaseExpires s).ring.scanRunning = s.ring.scanRunning ∧ (releaseExpires s).ring.scanMark = s.ring.scanMark
    ∧ (releaseExpires s).ring.scanRead = s.ring.scanRead ∧ (releaseExpires s).ring.handBackAsked = s.ring.handBackAsked
    ∧ (releaseExpires s).ring.fillCursor = s.ring.fillCursor ∧ (releaseExpires s).ring.delivery = s.ring.delivery
    ∧ (releaseExpires s).ring.descriptorHeld = s.ring.descriptorHeld ∧ (releaseExpires s).path.path = s.path.path
    ∧ (releaseExpires s).path.phase = s.path.phase ∧ (releaseExpires s).path.dwellD = s.path.dwellD
    ∧ (releaseExpires s).path.dwell = s.path.dwell ∧ (releaseExpires s).path.refallTimer = s.path.refallTimer
    ∧ (releaseExpires s).path.refallOpen = s.path.refallOpen ∧ (releaseExpires s).path.drainTimer = s.path.drainTimer
    ∧ (releaseExpires s).path.emergency = s.path.emergency ∧ (releaseExpires s).path.priorityTimer = s.path.priorityTimer
    ∧ (releaseExpires s).path.radioWanted = s.path.radioWanted ∧ (releaseExpires s).path.returnPause = s.path.returnPause
    ∧ (releaseExpires s).path.recorded = s.path.recorded ∧ (releaseExpires s).events.evp = s.events.evp
    ∧ (releaseExpires s).events.slotKinds = s.events.slotKinds ∧ (releaseExpires s).events.refreshCount = s.events.refreshCount
    ∧ (releaseExpires s).events.refreshTimer = s.events.refreshTimer ∧ (releaseExpires s).events.pageWriting = s.events.pageWriting
    ∧ (releaseExpires s).events.pageWanted = s.events.pageWanted ∧ (releaseExpires s).events.counters = s.events.counters
    ∧ (releaseExpires s).events.ledMs = s.events.ledMs := by simp [releaseExpires]

@[simp] theorem freeRecord_frame (r : FrameRecord) (s : State) :
    (freeRecord r s).pending = s.pending ∧ (freeRecord r s).clock = s.clock ∧ (freeRecord r s).draws = s.draws ∧ (freeRecord r s).sram = s.sram
    ∧ (freeRecord r s).pins = s.pins ∧ (freeRecord r s).loader = s.loader ∧ (freeRecord r s).health = s.health ∧ (freeRecord r s).pacer = s.pacer
    ∧ (freeRecord r s).power = s.power ∧ (freeRecord r s).events = s.events ∧ (freeRecord r s).bus.shadows = s.bus.shadows
    ∧ (freeRecord r s).bus.txHorizon = s.bus.txHorizon ∧ (freeRecord r s).bus.rxHorizon = s.bus.rxHorizon
    ∧ (freeRecord r s).bus.fixedH = s.bus.fixedH ∧ (freeRecord r s).bus.fixedG = s.bus.fixedG
    ∧ (freeRecord r s).bus.uplinkView = s.bus.uplinkView ∧ (freeRecord r s).bus.receiveView = s.bus.receiveView
    ∧ (freeRecord r s).bus.uplinkViewValue = s.bus.uplinkViewValue ∧ (freeRecord r s).bus.receiveViewValue = s.bus.receiveViewValue
    ∧ (freeRecord r s).bus.txGuard = s.bus.txGuard ∧ (freeRecord r s).bus.rxGuard = s.bus.rxGuard ∧ (freeRecord r s).bus.queue = s.bus.queue
    ∧ (freeRecord r s).bus.waitCount = s.bus.waitCount ∧ (freeRecord r s).bus.gatewayData = s.bus.gatewayData
    ∧ (freeRecord r s).ring.base = s.ring.base ∧ (freeRecord r s).ring.partTxc = s.ring.partTxc
    ∧ (freeRecord r s).ring.readMark = s.ring.readMark ∧ (freeRecord r s).ring.descriptorRead = s.ring.descriptorRead
    ∧ (freeRecord r s).ring.fence = s.ring.fence ∧ (freeRecord r s).ring.overrun = s.ring.overrun
    ∧ (freeRecord r s).ring.txCheckDue = s.ring.txCheckDue ∧ (freeRecord r s).ring.scanRunning = s.ring.scanRunning
    ∧ (freeRecord r s).ring.scanMark = s.ring.scanMark ∧ (freeRecord r s).ring.scanRead = s.ring.scanRead
    ∧ (freeRecord r s).ring.txForcing = s.ring.txForcing ∧ (freeRecord r s).ring.rxForcing = s.ring.rxForcing
    ∧ (freeRecord r s).ring.handBackAsked = s.ring.handBackAsked ∧ (freeRecord r s).ring.fillCursor = s.ring.fillCursor
    ∧ (freeRecord r s).ring.partRxf = s.ring.partRxf ∧ (freeRecord r s).ring.delivery = s.ring.delivery
    ∧ (freeRecord r s).ring.descriptorHeld = s.ring.descriptorHeld ∧ (freeRecord r s).ring.rxOverrun = s.ring.rxOverrun
    ∧ (freeRecord r s).ring.rxCheckDue = s.ring.rxCheckDue ∧ (freeRecord r s).path.path = s.path.path
    ∧ (freeRecord r s).path.phase = s.path.phase ∧ (freeRecord r s).path.dwellD = s.path.dwellD ∧ (freeRecord r s).path.dwell = s.path.dwell
    ∧ (freeRecord r s).path.refallTimer = s.path.refallTimer ∧ (freeRecord r s).path.refallOpen = s.path.refallOpen
    ∧ (freeRecord r s).path.releaseTimer = s.path.releaseTimer ∧ (freeRecord r s).path.txReleased = s.path.txReleased
    ∧ (freeRecord r s).path.rxReleased = s.path.rxReleased ∧ (freeRecord r s).path.drainTimer = s.path.drainTimer
    ∧ (freeRecord r s).path.radioWanted = s.path.radioWanted ∧ (freeRecord r s).path.returnPause = s.path.returnPause
    ∧ (freeRecord r s).path.recorded = s.path.recorded ∧ (freeRecord r s).hold.cells = s.hold.cells ∧ (freeRecord r s).hold.uqE = s.hold.uqE
    ∧ (freeRecord r s).hold.uqV = s.hold.uqV ∧ (freeRecord r s).hold.uqD = s.hold.uqD ∧ (freeRecord r s).hold.dqV = s.hold.dqV
    ∧ (freeRecord r s).hold.dqD = s.hold.dqD ∧ (freeRecord r s).hold.sweep10 = s.hold.sweep10 ∧ (freeRecord r s).hold.sweep1s = s.hold.sweep1s
    ∧ (freeRecord r s).radio.failures = s.radio.failures ∧ (freeRecord r s).radio.lastCause = s.radio.lastCause
    ∧ (freeRecord r s).radio.cycleTimer = s.radio.cycleTimer ∧ (freeRecord r s).radio.silenceTimer = s.radio.silenceTimer
    ∧ (freeRecord r s).radio.grantUp = s.radio.grantUp ∧ (freeRecord r s).radio.grantDown = s.radio.grantDown
    ∧ (freeRecord r s).radio.grantQuality = s.radio.grantQuality ∧ (freeRecord r s).radio.slotA = s.radio.slotA
    ∧ (freeRecord r s).radio.slotB = s.radio.slotB ∧ (freeRecord r s).radio.unsent = s.radio.unsent
    ∧ (freeRecord r s).radio.pauseTold = s.radio.pauseTold ∧ (freeRecord r s).radio.capTold = s.radio.capTold
    ∧ (freeRecord r s).radio.lowPowerTold = s.radio.lowPowerTold ∧ (freeRecord r s).radio.ldo = s.radio.ldo
    ∧ (freeRecord r s).radio.ldoLast = s.radio.ldoLast ∧ (freeRecord r s).radio.receiver = s.radio.receiver := by unfold freeRecord; (repeat' split) <;> simp

@[simp] theorem freeOnLdo_frame (s : State) :
    (freeOnLdo s).pending = s.pending ∧ (freeOnLdo s).clock = s.clock ∧ (freeOnLdo s).draws = s.draws ∧ (freeOnLdo s).sram = s.sram
    ∧ (freeOnLdo s).pins = s.pins ∧ (freeOnLdo s).loader = s.loader ∧ (freeOnLdo s).health = s.health ∧ (freeOnLdo s).pacer = s.pacer
    ∧ (freeOnLdo s).power = s.power ∧ (freeOnLdo s).events = s.events ∧ (freeOnLdo s).bus.shadows = s.bus.shadows
    ∧ (freeOnLdo s).bus.txHorizon = s.bus.txHorizon ∧ (freeOnLdo s).bus.rxHorizon = s.bus.rxHorizon ∧ (freeOnLdo s).bus.fixedH = s.bus.fixedH
    ∧ (freeOnLdo s).bus.fixedG = s.bus.fixedG ∧ (freeOnLdo s).bus.uplinkView = s.bus.uplinkView
    ∧ (freeOnLdo s).bus.receiveView = s.bus.receiveView ∧ (freeOnLdo s).bus.uplinkViewValue = s.bus.uplinkViewValue
    ∧ (freeOnLdo s).bus.receiveViewValue = s.bus.receiveViewValue ∧ (freeOnLdo s).bus.txGuard = s.bus.txGuard
    ∧ (freeOnLdo s).bus.rxGuard = s.bus.rxGuard ∧ (freeOnLdo s).bus.queue = s.bus.queue ∧ (freeOnLdo s).bus.waitCount = s.bus.waitCount
    ∧ (freeOnLdo s).bus.gatewayData = s.bus.gatewayData ∧ (freeOnLdo s).ring.base = s.ring.base ∧ (freeOnLdo s).ring.partTxc = s.ring.partTxc
    ∧ (freeOnLdo s).ring.readMark = s.ring.readMark ∧ (freeOnLdo s).ring.descriptorRead = s.ring.descriptorRead
    ∧ (freeOnLdo s).ring.fence = s.ring.fence ∧ (freeOnLdo s).ring.overrun = s.ring.overrun ∧ (freeOnLdo s).ring.txCheckDue = s.ring.txCheckDue
    ∧ (freeOnLdo s).ring.scanRunning = s.ring.scanRunning ∧ (freeOnLdo s).ring.scanMark = s.ring.scanMark
    ∧ (freeOnLdo s).ring.scanRead = s.ring.scanRead ∧ (freeOnLdo s).ring.txForcing = s.ring.txForcing
    ∧ (freeOnLdo s).ring.rxForcing = s.ring.rxForcing ∧ (freeOnLdo s).ring.handBackAsked = s.ring.handBackAsked
    ∧ (freeOnLdo s).ring.fillCursor = s.ring.fillCursor ∧ (freeOnLdo s).ring.partRxf = s.ring.partRxf
    ∧ (freeOnLdo s).ring.delivery = s.ring.delivery ∧ (freeOnLdo s).ring.descriptorHeld = s.ring.descriptorHeld
    ∧ (freeOnLdo s).ring.rxOverrun = s.ring.rxOverrun ∧ (freeOnLdo s).ring.rxCheckDue = s.ring.rxCheckDue ∧ (freeOnLdo s).path.path = s.path.path
    ∧ (freeOnLdo s).path.phase = s.path.phase ∧ (freeOnLdo s).path.dwellD = s.path.dwellD ∧ (freeOnLdo s).path.dwell = s.path.dwell
    ∧ (freeOnLdo s).path.refallTimer = s.path.refallTimer ∧ (freeOnLdo s).path.refallOpen = s.path.refallOpen
    ∧ (freeOnLdo s).path.releaseTimer = s.path.releaseTimer ∧ (freeOnLdo s).path.txReleased = s.path.txReleased
    ∧ (freeOnLdo s).path.rxReleased = s.path.rxReleased ∧ (freeOnLdo s).path.drainTimer = s.path.drainTimer
    ∧ (freeOnLdo s).path.radioWanted = s.path.radioWanted ∧ (freeOnLdo s).path.returnPause = s.path.returnPause
    ∧ (freeOnLdo s).path.recorded = s.path.recorded ∧ (freeOnLdo s).hold.cells = s.hold.cells ∧ (freeOnLdo s).hold.uqE = s.hold.uqE
    ∧ (freeOnLdo s).hold.uqV = s.hold.uqV ∧ (freeOnLdo s).hold.uqD = s.hold.uqD ∧ (freeOnLdo s).hold.dqV = s.hold.dqV
    ∧ (freeOnLdo s).hold.dqD = s.hold.dqD ∧ (freeOnLdo s).hold.sweep10 = s.hold.sweep10 ∧ (freeOnLdo s).hold.sweep1s = s.hold.sweep1s
    ∧ (freeOnLdo s).radio.failures = s.radio.failures ∧ (freeOnLdo s).radio.lastCause = s.radio.lastCause
    ∧ (freeOnLdo s).radio.cycleTimer = s.radio.cycleTimer ∧ (freeOnLdo s).radio.silenceTimer = s.radio.silenceTimer
    ∧ (freeOnLdo s).radio.grantUp = s.radio.grantUp ∧ (freeOnLdo s).radio.grantDown = s.radio.grantDown
    ∧ (freeOnLdo s).radio.grantQuality = s.radio.grantQuality ∧ (freeOnLdo s).radio.slotA = s.radio.slotA
    ∧ (freeOnLdo s).radio.slotB = s.radio.slotB ∧ (freeOnLdo s).radio.unsent = s.radio.unsent ∧ (freeOnLdo s).radio.pauseTold = s.radio.pauseTold
    ∧ (freeOnLdo s).radio.capTold = s.radio.capTold ∧ (freeOnLdo s).radio.lowPowerTold = s.radio.lowPowerTold
    ∧ (freeOnLdo s).radio.ldo = s.radio.ldo ∧ (freeOnLdo s).radio.ldoLast = s.radio.ldoLast ∧ (freeOnLdo s).radio.receiver = s.radio.receiver := by
  refine ⟨by unfold freeOnLdo; (try refine (foldl_keeps (fun s => s.pending) _ _ _ ?_).trans ?_) <;> (try intros) <;> simp,
    by unfold freeOnLdo; (try refine (foldl_keeps (fun s => s.clock) _ _ _ ?_).trans ?_) <;> (try intros) <;> simp,
    by unfold freeOnLdo; (try refine (foldl_keeps (fun s => s.draws) _ _ _ ?_).trans ?_) <;> (try intros) <;> simp,
    by unfold freeOnLdo; (try refine (foldl_keeps (fun s => s.sram) _ _ _ ?_).trans ?_) <;> (try intros) <;> simp,
    by unfold freeOnLdo; (try refine (foldl_keeps (fun s => s.pins) _ _ _ ?_).trans ?_) <;> (try intros) <;> simp,
    by unfold freeOnLdo; (try refine (foldl_keeps (fun s => s.loader) _ _ _ ?_).trans ?_) <;> (try intros) <;> simp,
    by unfold freeOnLdo; (try refine (foldl_keeps (fun s => s.health) _ _ _ ?_).trans ?_) <;> (try intros) <;> simp,
    by unfold freeOnLdo; (try refine (foldl_keeps (fun s => s.pacer) _ _ _ ?_).trans ?_) <;> (try intros) <;> simp,
    by unfold freeOnLdo; (try refine (foldl_keeps (fun s => s.power) _ _ _ ?_).trans ?_) <;> (try intros) <;> simp,
    by unfold freeOnLdo; (try refine (foldl_keeps (fun s => s.events) _ _ _ ?_).trans ?_) <;> (try intros) <;> simp,
    by unfold freeOnLdo; (try refine (foldl_keeps (fun s => s.bus.shadows) _ _ _ ?_).trans ?_) <;> (try intros) <;> simp,
    by unfold freeOnLdo; (try refine (foldl_keeps (fun s => s.bus.txHorizon) _ _ _ ?_).trans ?_) <;> (try intros) <;> simp,
    by unfold freeOnLdo; (try refine (foldl_keeps (fun s => s.bus.rxHorizon) _ _ _ ?_).trans ?_) <;> (try intros) <;> simp,
    by unfold freeOnLdo; (try refine (foldl_keeps (fun s => s.bus.fixedH) _ _ _ ?_).trans ?_) <;> (try intros) <;> simp,
    by unfold freeOnLdo; (try refine (foldl_keeps (fun s => s.bus.fixedG) _ _ _ ?_).trans ?_) <;> (try intros) <;> simp,
    by unfold freeOnLdo; (try refine (foldl_keeps (fun s => s.bus.uplinkView) _ _ _ ?_).trans ?_) <;> (try intros) <;> simp,
    by unfold freeOnLdo; (try refine (foldl_keeps (fun s => s.bus.receiveView) _ _ _ ?_).trans ?_) <;> (try intros) <;> simp,
    by unfold freeOnLdo; (try refine (foldl_keeps (fun s => s.bus.uplinkViewValue) _ _ _ ?_).trans ?_) <;> (try intros) <;> simp,
    by unfold freeOnLdo; (try refine (foldl_keeps (fun s => s.bus.receiveViewValue) _ _ _ ?_).trans ?_) <;> (try intros) <;> simp,
    by unfold freeOnLdo; (try refine (foldl_keeps (fun s => s.bus.txGuard) _ _ _ ?_).trans ?_) <;> (try intros) <;> simp,
    by unfold freeOnLdo; (try refine (foldl_keeps (fun s => s.bus.rxGuard) _ _ _ ?_).trans ?_) <;> (try intros) <;> simp,
    by unfold freeOnLdo; (try refine (foldl_keeps (fun s => s.bus.queue) _ _ _ ?_).trans ?_) <;> (try intros) <;> simp,
    by unfold freeOnLdo; (try refine (foldl_keeps (fun s => s.bus.waitCount) _ _ _ ?_).trans ?_) <;> (try intros) <;> simp,
    by unfold freeOnLdo; (try refine (foldl_keeps (fun s => s.bus.gatewayData) _ _ _ ?_).trans ?_) <;> (try intros) <;> simp,
    by unfold freeOnLdo; (try refine (foldl_keeps (fun s => s.ring.base) _ _ _ ?_).trans ?_) <;> (try intros) <;> simp,
    by unfold freeOnLdo; (try refine (foldl_keeps (fun s => s.ring.partTxc) _ _ _ ?_).trans ?_) <;> (try intros) <;> simp,
    by unfold freeOnLdo; (try refine (foldl_keeps (fun s => s.ring.readMark) _ _ _ ?_).trans ?_) <;> (try intros) <;> simp,
    by unfold freeOnLdo; (try refine (foldl_keeps (fun s => s.ring.descriptorRead) _ _ _ ?_).trans ?_) <;> (try intros) <;> simp,
    by unfold freeOnLdo; (try refine (foldl_keeps (fun s => s.ring.fence) _ _ _ ?_).trans ?_) <;> (try intros) <;> simp,
    by unfold freeOnLdo; (try refine (foldl_keeps (fun s => s.ring.overrun) _ _ _ ?_).trans ?_) <;> (try intros) <;> simp,
    by unfold freeOnLdo; (try refine (foldl_keeps (fun s => s.ring.txCheckDue) _ _ _ ?_).trans ?_) <;> (try intros) <;> simp,
    by unfold freeOnLdo; (try refine (foldl_keeps (fun s => s.ring.scanRunning) _ _ _ ?_).trans ?_) <;> (try intros) <;> simp,
    by unfold freeOnLdo; (try refine (foldl_keeps (fun s => s.ring.scanMark) _ _ _ ?_).trans ?_) <;> (try intros) <;> simp,
    by unfold freeOnLdo; (try refine (foldl_keeps (fun s => s.ring.scanRead) _ _ _ ?_).trans ?_) <;> (try intros) <;> simp,
    by unfold freeOnLdo; (try refine (foldl_keeps (fun s => s.ring.txForcing) _ _ _ ?_).trans ?_) <;> (try intros) <;> simp,
    by unfold freeOnLdo; (try refine (foldl_keeps (fun s => s.ring.rxForcing) _ _ _ ?_).trans ?_) <;> (try intros) <;> simp,
    by unfold freeOnLdo; (try refine (foldl_keeps (fun s => s.ring.handBackAsked) _ _ _ ?_).trans ?_) <;> (try intros) <;> simp,
    by unfold freeOnLdo; (try refine (foldl_keeps (fun s => s.ring.fillCursor) _ _ _ ?_).trans ?_) <;> (try intros) <;> simp,
    by unfold freeOnLdo; (try refine (foldl_keeps (fun s => s.ring.partRxf) _ _ _ ?_).trans ?_) <;> (try intros) <;> simp,
    by unfold freeOnLdo; (try refine (foldl_keeps (fun s => s.ring.delivery) _ _ _ ?_).trans ?_) <;> (try intros) <;> simp,
    by unfold freeOnLdo; (try refine (foldl_keeps (fun s => s.ring.descriptorHeld) _ _ _ ?_).trans ?_) <;> (try intros) <;> simp,
    by unfold freeOnLdo; (try refine (foldl_keeps (fun s => s.ring.rxOverrun) _ _ _ ?_).trans ?_) <;> (try intros) <;> simp,
    by unfold freeOnLdo; (try refine (foldl_keeps (fun s => s.ring.rxCheckDue) _ _ _ ?_).trans ?_) <;> (try intros) <;> simp,
    by unfold freeOnLdo; (try refine (foldl_keeps (fun s => s.path.path) _ _ _ ?_).trans ?_) <;> (try intros) <;> simp,
    by unfold freeOnLdo; (try refine (foldl_keeps (fun s => s.path.phase) _ _ _ ?_).trans ?_) <;> (try intros) <;> simp,
    by unfold freeOnLdo; (try refine (foldl_keeps (fun s => s.path.dwellD) _ _ _ ?_).trans ?_) <;> (try intros) <;> simp,
    by unfold freeOnLdo; (try refine (foldl_keeps (fun s => s.path.dwell) _ _ _ ?_).trans ?_) <;> (try intros) <;> simp,
    by unfold freeOnLdo; (try refine (foldl_keeps (fun s => s.path.refallTimer) _ _ _ ?_).trans ?_) <;> (try intros) <;> simp,
    by unfold freeOnLdo; (try refine (foldl_keeps (fun s => s.path.refallOpen) _ _ _ ?_).trans ?_) <;> (try intros) <;> simp,
    by unfold freeOnLdo; (try refine (foldl_keeps (fun s => s.path.releaseTimer) _ _ _ ?_).trans ?_) <;> (try intros) <;> simp,
    by unfold freeOnLdo; (try refine (foldl_keeps (fun s => s.path.txReleased) _ _ _ ?_).trans ?_) <;> (try intros) <;> simp,
    by unfold freeOnLdo; (try refine (foldl_keeps (fun s => s.path.rxReleased) _ _ _ ?_).trans ?_) <;> (try intros) <;> simp,
    by unfold freeOnLdo; (try refine (foldl_keeps (fun s => s.path.drainTimer) _ _ _ ?_).trans ?_) <;> (try intros) <;> simp,
    by unfold freeOnLdo; (try refine (foldl_keeps (fun s => s.path.radioWanted) _ _ _ ?_).trans ?_) <;> (try intros) <;> simp,
    by unfold freeOnLdo; (try refine (foldl_keeps (fun s => s.path.returnPause) _ _ _ ?_).trans ?_) <;> (try intros) <;> simp,
    by unfold freeOnLdo; (try refine (foldl_keeps (fun s => s.path.recorded) _ _ _ ?_).trans ?_) <;> (try intros) <;> simp,
    by unfold freeOnLdo; (try refine (foldl_keeps (fun s => s.hold.cells) _ _ _ ?_).trans ?_) <;> (try intros) <;> simp,
    by unfold freeOnLdo; (try refine (foldl_keeps (fun s => s.hold.uqE) _ _ _ ?_).trans ?_) <;> (try intros) <;> simp,
    by unfold freeOnLdo; (try refine (foldl_keeps (fun s => s.hold.uqV) _ _ _ ?_).trans ?_) <;> (try intros) <;> simp,
    by unfold freeOnLdo; (try refine (foldl_keeps (fun s => s.hold.uqD) _ _ _ ?_).trans ?_) <;> (try intros) <;> simp,
    by unfold freeOnLdo; (try refine (foldl_keeps (fun s => s.hold.dqV) _ _ _ ?_).trans ?_) <;> (try intros) <;> simp,
    by unfold freeOnLdo; (try refine (foldl_keeps (fun s => s.hold.dqD) _ _ _ ?_).trans ?_) <;> (try intros) <;> simp,
    by unfold freeOnLdo; (try refine (foldl_keeps (fun s => s.hold.sweep10) _ _ _ ?_).trans ?_) <;> (try intros) <;> simp,
    by unfold freeOnLdo; (try refine (foldl_keeps (fun s => s.hold.sweep1s) _ _ _ ?_).trans ?_) <;> (try intros) <;> simp,
    by unfold freeOnLdo; (try refine (foldl_keeps (fun s => s.radio.failures) _ _ _ ?_).trans ?_) <;> (try intros) <;> simp,
    by unfold freeOnLdo; (try refine (foldl_keeps (fun s => s.radio.lastCause) _ _ _ ?_).trans ?_) <;> (try intros) <;> simp,
    by unfold freeOnLdo; (try refine (foldl_keeps (fun s => s.radio.cycleTimer) _ _ _ ?_).trans ?_) <;> (try intros) <;> simp,
    by unfold freeOnLdo; (try refine (foldl_keeps (fun s => s.radio.silenceTimer) _ _ _ ?_).trans ?_) <;> (try intros) <;> simp,
    by unfold freeOnLdo; (try refine (foldl_keeps (fun s => s.radio.grantUp) _ _ _ ?_).trans ?_) <;> (try intros) <;> simp,
    by unfold freeOnLdo; (try refine (foldl_keeps (fun s => s.radio.grantDown) _ _ _ ?_).trans ?_) <;> (try intros) <;> simp,
    by unfold freeOnLdo; (try refine (foldl_keeps (fun s => s.radio.grantQuality) _ _ _ ?_).trans ?_) <;> (try intros) <;> simp,
    by unfold freeOnLdo; (try refine (foldl_keeps (fun s => s.radio.slotA) _ _ _ ?_).trans ?_) <;> (try intros) <;> simp,
    by unfold freeOnLdo; (try refine (foldl_keeps (fun s => s.radio.slotB) _ _ _ ?_).trans ?_) <;> (try intros) <;> simp,
    by unfold freeOnLdo; (try refine (foldl_keeps (fun s => s.radio.unsent) _ _ _ ?_).trans ?_) <;> (try intros) <;> simp,
    by unfold freeOnLdo; (try refine (foldl_keeps (fun s => s.radio.pauseTold) _ _ _ ?_).trans ?_) <;> (try intros) <;> simp,
    by unfold freeOnLdo; (try refine (foldl_keeps (fun s => s.radio.capTold) _ _ _ ?_).trans ?_) <;> (try intros) <;> simp,
    by unfold freeOnLdo; (try refine (foldl_keeps (fun s => s.radio.lowPowerTold) _ _ _ ?_).trans ?_) <;> (try intros) <;> simp,
    by unfold freeOnLdo; (try refine (foldl_keeps (fun s => s.radio.ldo) _ _ _ ?_).trans ?_) <;> (try intros) <;> simp,
    by unfold freeOnLdo; (try refine (foldl_keeps (fun s => s.radio.ldoLast) _ _ _ ?_).trans ?_) <;> (try intros) <;> simp,
    by unfold freeOnLdo; (try refine (foldl_keeps (fun s => s.radio.receiver) _ _ _ ?_).trans ?_) <;> (try intros) <;> simp⟩

@[simp] theorem evalReturn_frame (s : State) :
    (evalReturn s).pending = s.pending ∧ (evalReturn s).clock = s.clock ∧ (evalReturn s).draws = s.draws ∧ (evalReturn s).sram = s.sram
    ∧ (evalReturn s).pins = s.pins ∧ (evalReturn s).loader = s.loader ∧ (evalReturn s).health = s.health ∧ (evalReturn s).pacer = s.pacer
    ∧ (evalReturn s).power = s.power ∧ (evalReturn s).bus.shadows = s.bus.shadows ∧ (evalReturn s).bus.txHorizon = s.bus.txHorizon
    ∧ (evalReturn s).bus.rxHorizon = s.bus.rxHorizon ∧ (evalReturn s).bus.fixedH = s.bus.fixedH ∧ (evalReturn s).bus.fixedG = s.bus.fixedG
    ∧ (evalReturn s).bus.uplinkView = s.bus.uplinkView ∧ (evalReturn s).bus.receiveView = s.bus.receiveView
    ∧ (evalReturn s).bus.uplinkViewValue = s.bus.uplinkViewValue ∧ (evalReturn s).bus.receiveViewValue = s.bus.receiveViewValue
    ∧ (evalReturn s).bus.txGuard = s.bus.txGuard ∧ (evalReturn s).bus.rxGuard = s.bus.rxGuard ∧ (evalReturn s).bus.queue = s.bus.queue
    ∧ (evalReturn s).bus.waitCount = s.bus.waitCount ∧ (evalReturn s).bus.gatewayData = s.bus.gatewayData
    ∧ (evalReturn s).ring.base = s.ring.base ∧ (evalReturn s).ring.partTxc = s.ring.partTxc ∧ (evalReturn s).ring.overrun = s.ring.overrun
    ∧ (evalReturn s).ring.txCheckDue = s.ring.txCheckDue ∧ (evalReturn s).ring.scanRunning = s.ring.scanRunning
    ∧ (evalReturn s).ring.scanMark = s.ring.scanMark ∧ (evalReturn s).ring.scanRead = s.ring.scanRead
    ∧ (evalReturn s).ring.txForcing = s.ring.txForcing ∧ (evalReturn s).ring.rxForcing = s.ring.rxForcing
    ∧ (evalReturn s).ring.handBackAsked = s.ring.handBackAsked ∧ (evalReturn s).ring.fillCursor = s.ring.fillCursor
    ∧ (evalReturn s).ring.partRxf = s.ring.partRxf ∧ (evalReturn s).ring.delivery = s.ring.delivery
    ∧ (evalReturn s).ring.descriptorHeld = s.ring.descriptorHeld ∧ (evalReturn s).ring.rxOverrun = s.ring.rxOverrun
    ∧ (evalReturn s).ring.rxCheckDue = s.ring.rxCheckDue ∧ (evalReturn s).path.dwellD = s.path.dwellD ∧ (evalReturn s).path.dwell = s.path.dwell
    ∧ (evalReturn s).path.refallTimer = s.path.refallTimer ∧ (evalReturn s).path.refallOpen = s.path.refallOpen
    ∧ (evalReturn s).path.releaseTimer = s.path.releaseTimer ∧ (evalReturn s).path.txReleased = s.path.txReleased
    ∧ (evalReturn s).path.rxReleased = s.path.rxReleased ∧ (evalReturn s).path.radioWanted = s.path.radioWanted
    ∧ (evalReturn s).path.recorded = s.path.recorded ∧ (evalReturn s).hold.cells = s.hold.cells ∧ (evalReturn s).hold.uqE = s.hold.uqE
    ∧ (evalReturn s).hold.uqV = s.hold.uqV ∧ (evalReturn s).hold.uqD = s.hold.uqD ∧ (evalReturn s).hold.dqV = s.hold.dqV
    ∧ (evalReturn s).hold.dqD = s.hold.dqD ∧ (evalReturn s).hold.onLdo = s.hold.onLdo ∧ (evalReturn s).hold.sweep10 = s.hold.sweep10
    ∧ (evalReturn s).hold.sweep1s = s.hold.sweep1s ∧ (evalReturn s).radio.failures = s.radio.failures
    ∧ (evalReturn s).radio.lastCause = s.radio.lastCause ∧ (evalReturn s).radio.cycleTimer = s.radio.cycleTimer
    ∧ (evalReturn s).radio.silenceTimer = s.radio.silenceTimer ∧ (evalReturn s).radio.grantUp = s.radio.grantUp
    ∧ (evalReturn s).radio.grantDown = s.radio.grantDown ∧ (evalReturn s).radio.grantQuality = s.radio.grantQuality
    ∧ (evalReturn s).radio.slotA = s.radio.slotA ∧ (evalReturn s).radio.slotB = s.radio.slotB ∧ (evalReturn s).radio.unsent = s.radio.unsent
    ∧ (evalReturn s).radio.pauseTold = s.radio.pauseTold ∧ (evalReturn s).radio.capTold = s.radio.capTold
    ∧ (evalReturn s).radio.lowPowerTold = s.radio.lowPowerTold ∧ (evalReturn s).radio.ldo = s.radio.ldo
    ∧ (evalReturn s).radio.ldoLast = s.radio.ldoLast ∧ (evalReturn s).radio.receiver = s.radio.receiver
    ∧ (evalReturn s).events.evp = s.events.evp ∧ (evalReturn s).events.slotKinds = s.events.slotKinds
    ∧ (evalReturn s).events.refreshCount = s.events.refreshCount ∧ (evalReturn s).events.refreshTimer = s.events.refreshTimer
    ∧ (evalReturn s).events.pageWriting = s.events.pageWriting ∧ (evalReturn s).events.counters = s.events.counters
    ∧ (evalReturn s).events.ledMs = s.events.ledMs := by unfold evalReturn; (repeat' split) <;> simp

@[simp] theorem loseRecord_frame (reason : LossReason) (r : FrameRecord) (s : State) :
    (loseRecord reason r s).pending = s.pending ∧ (loseRecord reason r s).clock = s.clock ∧ (loseRecord reason r s).draws = s.draws
    ∧ (loseRecord reason r s).sram = s.sram ∧ (loseRecord reason r s).pins = s.pins ∧ (loseRecord reason r s).loader = s.loader
    ∧ (loseRecord reason r s).health = s.health ∧ (loseRecord reason r s).pacer = s.pacer ∧ (loseRecord reason r s).power = s.power
    ∧ (loseRecord reason r s).bus.shadows = s.bus.shadows ∧ (loseRecord reason r s).bus.txHorizon = s.bus.txHorizon
    ∧ (loseRecord reason r s).bus.rxHorizon = s.bus.rxHorizon ∧ (loseRecord reason r s).bus.fixedH = s.bus.fixedH
    ∧ (loseRecord reason r s).bus.fixedG = s.bus.fixedG ∧ (loseRecord reason r s).bus.uplinkView = s.bus.uplinkView
    ∧ (loseRecord reason r s).bus.receiveView = s.bus.receiveView ∧ (loseRecord reason r s).bus.uplinkViewValue = s.bus.uplinkViewValue
    ∧ (loseRecord reason r s).bus.receiveViewValue = s.bus.receiveViewValue ∧ (loseRecord reason r s).bus.txGuard = s.bus.txGuard
    ∧ (loseRecord reason r s).bus.rxGuard = s.bus.rxGuard ∧ (loseRecord reason r s).bus.queue = s.bus.queue
    ∧ (loseRecord reason r s).bus.waitCount = s.bus.waitCount ∧ (loseRecord reason r s).bus.gatewayData = s.bus.gatewayData
    ∧ (loseRecord reason r s).ring.base = s.ring.base ∧ (loseRecord reason r s).ring.partTxc = s.ring.partTxc
    ∧ (loseRecord reason r s).ring.readMark = s.ring.readMark ∧ (loseRecord reason r s).ring.descriptorRead = s.ring.descriptorRead
    ∧ (loseRecord reason r s).ring.fence = s.ring.fence ∧ (loseRecord reason r s).ring.overrun = s.ring.overrun
    ∧ (loseRecord reason r s).ring.txCheckDue = s.ring.txCheckDue ∧ (loseRecord reason r s).ring.scanRunning = s.ring.scanRunning
    ∧ (loseRecord reason r s).ring.scanMark = s.ring.scanMark ∧ (loseRecord reason r s).ring.scanRead = s.ring.scanRead
    ∧ (loseRecord reason r s).ring.txForcing = s.ring.txForcing ∧ (loseRecord reason r s).ring.rxForcing = s.ring.rxForcing
    ∧ (loseRecord reason r s).ring.handBackAsked = s.ring.handBackAsked ∧ (loseRecord reason r s).ring.fillCursor = s.ring.fillCursor
    ∧ (loseRecord reason r s).ring.partRxf = s.ring.partRxf ∧ (loseRecord reason r s).ring.delivery = s.ring.delivery
    ∧ (loseRecord reason r s).ring.descriptorHeld = s.ring.descriptorHeld ∧ (loseRecord reason r s).ring.rxOverrun = s.ring.rxOverrun
    ∧ (loseRecord reason r s).ring.rxCheckDue = s.ring.rxCheckDue ∧ (loseRecord reason r s).path.path = s.path.path
    ∧ (loseRecord reason r s).path.phase = s.path.phase ∧ (loseRecord reason r s).path.dwellD = s.path.dwellD
    ∧ (loseRecord reason r s).path.dwell = s.path.dwell ∧ (loseRecord reason r s).path.refallTimer = s.path.refallTimer
    ∧ (loseRecord reason r s).path.refallOpen = s.path.refallOpen ∧ (loseRecord reason r s).path.releaseTimer = s.path.releaseTimer
    ∧ (loseRecord reason r s).path.txReleased = s.path.txReleased ∧ (loseRecord reason r s).path.rxReleased = s.path.rxReleased
    ∧ (loseRecord reason r s).path.drainTimer = s.path.drainTimer ∧ (loseRecord reason r s).path.radioWanted = s.path.radioWanted
    ∧ (loseRecord reason r s).path.returnPause = s.path.returnPause ∧ (loseRecord reason r s).path.recorded = s.path.recorded
    ∧ (loseRecord reason r s).hold.cells = s.hold.cells ∧ (loseRecord reason r s).hold.uqE = s.hold.uqE
    ∧ (loseRecord reason r s).hold.uqV = s.hold.uqV ∧ (loseRecord reason r s).hold.uqD = s.hold.uqD
    ∧ (loseRecord reason r s).hold.dqV = s.hold.dqV ∧ (loseRecord reason r s).hold.dqD = s.hold.dqD
    ∧ (loseRecord reason r s).hold.sweep10 = s.hold.sweep10 ∧ (loseRecord reason r s).hold.sweep1s = s.hold.sweep1s
    ∧ (loseRecord reason r s).radio.failures = s.radio.failures ∧ (loseRecord reason r s).radio.lastCause = s.radio.lastCause
    ∧ (loseRecord reason r s).radio.cycleTimer = s.radio.cycleTimer ∧ (loseRecord reason r s).radio.silenceTimer = s.radio.silenceTimer
    ∧ (loseRecord reason r s).radio.grantUp = s.radio.grantUp ∧ (loseRecord reason r s).radio.grantDown = s.radio.grantDown
    ∧ (loseRecord reason r s).radio.grantQuality = s.radio.grantQuality ∧ (loseRecord reason r s).radio.slotA = s.radio.slotA
    ∧ (loseRecord reason r s).radio.slotB = s.radio.slotB ∧ (loseRecord reason r s).radio.unsent = s.radio.unsent
    ∧ (loseRecord reason r s).radio.pauseTold = s.radio.pauseTold ∧ (loseRecord reason r s).radio.capTold = s.radio.capTold
    ∧ (loseRecord reason r s).radio.lowPowerTold = s.radio.lowPowerTold ∧ (loseRecord reason r s).radio.ldo = s.radio.ldo
    ∧ (loseRecord reason r s).radio.ldoLast = s.radio.ldoLast ∧ (loseRecord reason r s).radio.receiver = s.radio.receiver
    ∧ (loseRecord reason r s).events.evp = s.events.evp ∧ (loseRecord reason r s).events.slotKinds = s.events.slotKinds
    ∧ (loseRecord reason r s).events.refreshCount = s.events.refreshCount ∧ (loseRecord reason r s).events.refreshTimer = s.events.refreshTimer
    ∧ (loseRecord reason r s).events.pageWriting = s.events.pageWriting ∧ (loseRecord reason r s).events.pageWanted = s.events.pageWanted
    ∧ (loseRecord reason r s).events.ledMs = s.events.ledMs := by simp [loseRecord]

@[simp] theorem softDiscardRecord_frame (r : FrameRecord) (s : State) :
    (softDiscardRecord r s).pending = s.pending ∧ (softDiscardRecord r s).clock = s.clock ∧ (softDiscardRecord r s).draws = s.draws
    ∧ (softDiscardRecord r s).sram = s.sram ∧ (softDiscardRecord r s).pins = s.pins ∧ (softDiscardRecord r s).health = s.health
    ∧ (softDiscardRecord r s).pacer = s.pacer ∧ (softDiscardRecord r s).power = s.power ∧ (softDiscardRecord r s).loader.phase = s.loader.phase
    ∧ (softDiscardRecord r s).loader.flashCode = s.loader.flashCode ∧ (softDiscardRecord r s).loader.map = s.loader.map
    ∧ (softDiscardRecord r s).loader.linkClock = s.loader.linkClock ∧ (softDiscardRecord r s).loader.defaultPolicy = s.loader.defaultPolicy
    ∧ (softDiscardRecord r s).loader.policy = s.loader.policy ∧ (softDiscardRecord r s).loader.readState = s.loader.readState
    ∧ (softDiscardRecord r s).loader.readKind = s.loader.readKind ∧ (softDiscardRecord r s).loader.dueAfterRestart = s.loader.dueAfterRestart
    ∧ (softDiscardRecord r s).loader.firstHalf = s.loader.firstHalf ∧ (softDiscardRecord r s).loader.pgenAtIssue = s.loader.pgenAtIssue
    ∧ (softDiscardRecord r s).loader.softResetInForce = s.loader.softResetInForce
    ∧ (softDiscardRecord r s).loader.counterClearInForce = s.loader.counterClearInForce
    ∧ (softDiscardRecord r s).loader.shadowsLoaded = s.loader.shadowsLoaded ∧ (softDiscardRecord r s).loader.softReset = s.loader.softReset
    ∧ (softDiscardRecord r s).loader.softWait = s.loader.softWait ∧ (softDiscardRecord r s).loader.softPositions = s.loader.softPositions
    ∧ (softDiscardRecord r s).bus.shadows = s.bus.shadows ∧ (softDiscardRecord r s).bus.txHorizon = s.bus.txHorizon
    ∧ (softDiscardRecord r s).bus.rxHorizon = s.bus.rxHorizon ∧ (softDiscardRecord r s).bus.fixedH = s.bus.fixedH
    ∧ (softDiscardRecord r s).bus.fixedG = s.bus.fixedG ∧ (softDiscardRecord r s).bus.uplinkView = s.bus.uplinkView
    ∧ (softDiscardRecord r s).bus.receiveView = s.bus.receiveView ∧ (softDiscardRecord r s).bus.uplinkViewValue = s.bus.uplinkViewValue
    ∧ (softDiscardRecord r s).bus.receiveViewValue = s.bus.receiveViewValue ∧ (softDiscardRecord r s).bus.txGuard = s.bus.txGuard
    ∧ (softDiscardRecord r s).bus.rxGuard = s.bus.rxGuard ∧ (softDiscardRecord r s).bus.queue = s.bus.queue
    ∧ (softDiscardRecord r s).bus.waitCount = s.bus.waitCount ∧ (softDiscardRecord r s).bus.gatewayData = s.bus.gatewayData
    ∧ (softDiscardRecord r s).ring.base = s.ring.base ∧ (softDiscardRecord r s).ring.partTxc = s.ring.partTxc
    ∧ (softDiscardRecord r s).ring.readMark = s.ring.readMark ∧ (softDiscardRecord r s).ring.descriptorRead = s.ring.descriptorRead
    ∧ (softDiscardRecord r s).ring.fence = s.ring.fence ∧ (softDiscardRecord r s).ring.overrun = s.ring.overrun
    ∧ (softDiscardRecord r s).ring.txCheckDue = s.ring.txCheckDue ∧ (softDiscardRecord r s).ring.scanRunning = s.ring.scanRunning
    ∧ (softDiscardRecord r s).ring.scanMark = s.ring.scanMark ∧ (softDiscardRecord r s).ring.scanRead = s.ring.scanRead
    ∧ (softDiscardRecord r s).ring.txForcing = s.ring.txForcing ∧ (softDiscardRecord r s).ring.rxForcing = s.ring.rxForcing
    ∧ (softDiscardRecord r s).ring.handBackAsked = s.ring.handBackAsked ∧ (softDiscardRecord r s).ring.fillCursor = s.ring.fillCursor
    ∧ (softDiscardRecord r s).ring.partRxf = s.ring.partRxf ∧ (softDiscardRecord r s).ring.delivery = s.ring.delivery
    ∧ (softDiscardRecord r s).ring.descriptorHeld = s.ring.descriptorHeld ∧ (softDiscardRecord r s).ring.rxOverrun = s.ring.rxOverrun
    ∧ (softDiscardRecord r s).ring.rxCheckDue = s.ring.rxCheckDue ∧ (softDiscardRecord r s).path.path = s.path.path
    ∧ (softDiscardRecord r s).path.phase = s.path.phase ∧ (softDiscardRecord r s).path.dwellD = s.path.dwellD
    ∧ (softDiscardRecord r s).path.dwell = s.path.dwell ∧ (softDiscardRecord r s).path.refallTimer = s.path.refallTimer
    ∧ (softDiscardRecord r s).path.refallOpen = s.path.refallOpen ∧ (softDiscardRecord r s).path.releaseTimer = s.path.releaseTimer
    ∧ (softDiscardRecord r s).path.txReleased = s.path.txReleased ∧ (softDiscardRecord r s).path.rxReleased = s.path.rxReleased
    ∧ (softDiscardRecord r s).path.drainTimer = s.path.drainTimer ∧ (softDiscardRecord r s).path.radioWanted = s.path.radioWanted
    ∧ (softDiscardRecord r s).path.returnPause = s.path.returnPause ∧ (softDiscardRecord r s).path.recorded = s.path.recorded
    ∧ (softDiscardRecord r s).hold.cells = s.hold.cells ∧ (softDiscardRecord r s).hold.uqE = s.hold.uqE
    ∧ (softDiscardRecord r s).hold.uqV = s.hold.uqV ∧ (softDiscardRecord r s).hold.uqD = s.hold.uqD
    ∧ (softDiscardRecord r s).hold.dqV = s.hold.dqV ∧ (softDiscardRecord r s).hold.dqD = s.hold.dqD
    ∧ (softDiscardRecord r s).hold.sweep10 = s.hold.sweep10 ∧ (softDiscardRecord r s).hold.sweep1s = s.hold.sweep1s
    ∧ (softDiscardRecord r s).radio.failures = s.radio.failures ∧ (softDiscardRecord r s).radio.lastCause = s.radio.lastCause
    ∧ (softDiscardRecord r s).radio.cycleTimer = s.radio.cycleTimer ∧ (softDiscardRecord r s).radio.silenceTimer = s.radio.silenceTimer
    ∧ (softDiscardRecord r s).radio.grantUp = s.radio.grantUp ∧ (softDiscardRecord r s).radio.grantDown = s.radio.grantDown
    ∧ (softDiscardRecord r s).radio.grantQuality = s.radio.grantQuality ∧ (softDiscardRecord r s).radio.slotA = s.radio.slotA
    ∧ (softDiscardRecord r s).radio.slotB = s.radio.slotB ∧ (softDiscardRecord r s).radio.unsent = s.radio.unsent
    ∧ (softDiscardRecord r s).radio.pauseTold = s.radio.pauseTold ∧ (softDiscardRecord r s).radio.capTold = s.radio.capTold
    ∧ (softDiscardRecord r s).radio.lowPowerTold = s.radio.lowPowerTold ∧ (softDiscardRecord r s).radio.ldo = s.radio.ldo
    ∧ (softDiscardRecord r s).radio.ldoLast = s.radio.ldoLast ∧ (softDiscardRecord r s).radio.receiver = s.radio.receiver
    ∧ (softDiscardRecord r s).events.entries = s.events.entries ∧ (softDiscardRecord r s).events.evp = s.events.evp
    ∧ (softDiscardRecord r s).events.slotKinds = s.events.slotKinds ∧ (softDiscardRecord r s).events.refreshCount = s.events.refreshCount
    ∧ (softDiscardRecord r s).events.refreshTimer = s.events.refreshTimer ∧ (softDiscardRecord r s).events.pageWriting = s.events.pageWriting
    ∧ (softDiscardRecord r s).events.pageWanted = s.events.pageWanted ∧ (softDiscardRecord r s).events.ledMs = s.events.ledMs := by simp [softDiscardRecord]

@[simp] theorem moveAndEval_frame (entered : PathState) (cause : PathCause) (s : State) :
    (moveAndEval entered cause s).pending = s.pending ∧ (moveAndEval entered cause s).clock = s.clock
    ∧ (moveAndEval entered cause s).draws = s.draws ∧ (moveAndEval entered cause s).sram = s.sram ∧ (moveAndEval entered cause s).pins = s.pins
    ∧ (moveAndEval entered cause s).loader = s.loader ∧ (moveAndEval entered cause s).health = s.health
    ∧ (moveAndEval entered cause s).pacer = s.pacer ∧ (moveAndEval entered cause s).power = s.power
    ∧ (moveAndEval entered cause s).bus.shadows = s.bus.shadows ∧ (moveAndEval entered cause s).bus.txHorizon = s.bus.txHorizon
    ∧ (moveAndEval entered cause s).bus.rxHorizon = s.bus.rxHorizon ∧ (moveAndEval entered cause s).bus.fixedH = s.bus.fixedH
    ∧ (moveAndEval entered cause s).bus.fixedG = s.bus.fixedG ∧ (moveAndEval entered cause s).bus.uplinkView = s.bus.uplinkView
    ∧ (moveAndEval entered cause s).bus.receiveView = s.bus.receiveView
    ∧ (moveAndEval entered cause s).bus.uplinkViewValue = s.bus.uplinkViewValue
    ∧ (moveAndEval entered cause s).bus.receiveViewValue = s.bus.receiveViewValue ∧ (moveAndEval entered cause s).bus.txGuard = s.bus.txGuard
    ∧ (moveAndEval entered cause s).bus.rxGuard = s.bus.rxGuard ∧ (moveAndEval entered cause s).bus.queue = s.bus.queue
    ∧ (moveAndEval entered cause s).bus.waitCount = s.bus.waitCount ∧ (moveAndEval entered cause s).bus.gatewayData = s.bus.gatewayData
    ∧ (moveAndEval entered cause s).ring.base = s.ring.base ∧ (moveAndEval entered cause s).ring.partTxc = s.ring.partTxc
    ∧ (moveAndEval entered cause s).ring.overrun = s.ring.overrun ∧ (moveAndEval entered cause s).ring.txCheckDue = s.ring.txCheckDue
    ∧ (moveAndEval entered cause s).ring.scanRunning = s.ring.scanRunning ∧ (moveAndEval entered cause s).ring.scanMark = s.ring.scanMark
    ∧ (moveAndEval entered cause s).ring.scanRead = s.ring.scanRead ∧ (moveAndEval entered cause s).ring.txForcing = s.ring.txForcing
    ∧ (moveAndEval entered cause s).ring.rxForcing = s.ring.rxForcing ∧ (moveAndEval entered cause s).ring.handBackAsked = s.ring.handBackAsked
    ∧ (moveAndEval entered cause s).ring.fillCursor = s.ring.fillCursor ∧ (moveAndEval entered cause s).ring.partRxf = s.ring.partRxf
    ∧ (moveAndEval entered cause s).ring.delivery = s.ring.delivery ∧ (moveAndEval entered cause s).ring.descriptorHeld = s.ring.descriptorHeld
    ∧ (moveAndEval entered cause s).ring.rxOverrun = s.ring.rxOverrun ∧ (moveAndEval entered cause s).ring.rxCheckDue = s.ring.rxCheckDue
    ∧ (moveAndEval entered cause s).path.dwellD = s.path.dwellD ∧ (moveAndEval entered cause s).path.dwell = s.path.dwell
    ∧ (moveAndEval entered cause s).path.refallTimer = s.path.refallTimer ∧ (moveAndEval entered cause s).path.refallOpen = s.path.refallOpen
    ∧ (moveAndEval entered cause s).path.releaseTimer = s.path.releaseTimer ∧ (moveAndEval entered cause s).path.txReleased = s.path.txReleased
    ∧ (moveAndEval entered cause s).path.rxReleased = s.path.rxReleased ∧ (moveAndEval entered cause s).path.radioWanted = s.path.radioWanted
    ∧ (moveAndEval entered cause s).path.recorded = s.path.recorded ∧ (moveAndEval entered cause s).hold.cells = s.hold.cells
    ∧ (moveAndEval entered cause s).hold.uqE = s.hold.uqE ∧ (moveAndEval entered cause s).hold.uqV = s.hold.uqV
    ∧ (moveAndEval entered cause s).hold.uqD = s.hold.uqD ∧ (moveAndEval entered cause s).hold.dqV = s.hold.dqV
    ∧ (moveAndEval entered cause s).hold.dqD = s.hold.dqD ∧ (moveAndEval entered cause s).hold.onLdo = s.hold.onLdo
    ∧ (moveAndEval entered cause s).hold.sweep10 = s.hold.sweep10 ∧ (moveAndEval entered cause s).hold.sweep1s = s.hold.sweep1s
    ∧ (moveAndEval entered cause s).radio.failures = s.radio.failures ∧ (moveAndEval entered cause s).radio.lastCause = s.radio.lastCause
    ∧ (moveAndEval entered cause s).radio.cycleTimer = s.radio.cycleTimer
    ∧ (moveAndEval entered cause s).radio.silenceTimer = s.radio.silenceTimer ∧ (moveAndEval entered cause s).radio.grantUp = s.radio.grantUp
    ∧ (moveAndEval entered cause s).radio.grantDown = s.radio.grantDown ∧ (moveAndEval entered cause s).radio.grantQuality = s.radio.grantQuality
    ∧ (moveAndEval entered cause s).radio.slotA = s.radio.slotA ∧ (moveAndEval entered cause s).radio.slotB = s.radio.slotB
    ∧ (moveAndEval entered cause s).radio.unsent = s.radio.unsent ∧ (moveAndEval entered cause s).radio.pauseTold = s.radio.pauseTold
    ∧ (moveAndEval entered cause s).radio.capTold = s.radio.capTold ∧ (moveAndEval entered cause s).radio.lowPowerTold = s.radio.lowPowerTold
    ∧ (moveAndEval entered cause s).radio.ldo = s.radio.ldo ∧ (moveAndEval entered cause s).radio.ldoLast = s.radio.ldoLast
    ∧ (moveAndEval entered cause s).radio.receiver = s.radio.receiver ∧ (moveAndEval entered cause s).events.evp = s.events.evp
    ∧ (moveAndEval entered cause s).events.slotKinds = s.events.slotKinds
    ∧ (moveAndEval entered cause s).events.refreshCount = s.events.refreshCount
    ∧ (moveAndEval entered cause s).events.refreshTimer = s.events.refreshTimer
    ∧ (moveAndEval entered cause s).events.pageWriting = s.events.pageWriting ∧ (moveAndEval entered cause s).events.counters = s.events.counters
    ∧ (moveAndEval entered cause s).events.ledMs = s.events.ledMs := by simp [moveAndEval]

@[simp] theorem interruptReturn_frame (cause : PathCause) (s : State) :
    (interruptReturn cause s).pending = s.pending ∧ (interruptReturn cause s).clock = s.clock ∧ (interruptReturn cause s).draws = s.draws
    ∧ (interruptReturn cause s).sram = s.sram ∧ (interruptReturn cause s).pins = s.pins ∧ (interruptReturn cause s).loader = s.loader
    ∧ (interruptReturn cause s).health = s.health ∧ (interruptReturn cause s).pacer = s.pacer ∧ (interruptReturn cause s).power = s.power
    ∧ (interruptReturn cause s).bus.shadows = s.bus.shadows ∧ (interruptReturn cause s).bus.txHorizon = s.bus.txHorizon
    ∧ (interruptReturn cause s).bus.rxHorizon = s.bus.rxHorizon ∧ (interruptReturn cause s).bus.fixedH = s.bus.fixedH
    ∧ (interruptReturn cause s).bus.fixedG = s.bus.fixedG ∧ (interruptReturn cause s).bus.uplinkView = s.bus.uplinkView
    ∧ (interruptReturn cause s).bus.receiveView = s.bus.receiveView ∧ (interruptReturn cause s).bus.uplinkViewValue = s.bus.uplinkViewValue
    ∧ (interruptReturn cause s).bus.receiveViewValue = s.bus.receiveViewValue ∧ (interruptReturn cause s).bus.txGuard = s.bus.txGuard
    ∧ (interruptReturn cause s).bus.rxGuard = s.bus.rxGuard ∧ (interruptReturn cause s).bus.queue = s.bus.queue
    ∧ (interruptReturn cause s).bus.waitCount = s.bus.waitCount ∧ (interruptReturn cause s).bus.gatewayData = s.bus.gatewayData
    ∧ (interruptReturn cause s).ring.base = s.ring.base ∧ (interruptReturn cause s).ring.partTxc = s.ring.partTxc
    ∧ (interruptReturn cause s).ring.overrun = s.ring.overrun ∧ (interruptReturn cause s).ring.txCheckDue = s.ring.txCheckDue
    ∧ (interruptReturn cause s).ring.scanRunning = s.ring.scanRunning ∧ (interruptReturn cause s).ring.scanMark = s.ring.scanMark
    ∧ (interruptReturn cause s).ring.scanRead = s.ring.scanRead ∧ (interruptReturn cause s).ring.txForcing = s.ring.txForcing
    ∧ (interruptReturn cause s).ring.rxForcing = s.ring.rxForcing ∧ (interruptReturn cause s).ring.handBackAsked = s.ring.handBackAsked
    ∧ (interruptReturn cause s).ring.fillCursor = s.ring.fillCursor ∧ (interruptReturn cause s).ring.partRxf = s.ring.partRxf
    ∧ (interruptReturn cause s).ring.delivery = s.ring.delivery ∧ (interruptReturn cause s).ring.descriptorHeld = s.ring.descriptorHeld
    ∧ (interruptReturn cause s).ring.rxOverrun = s.ring.rxOverrun ∧ (interruptReturn cause s).ring.rxCheckDue = s.ring.rxCheckDue
    ∧ (interruptReturn cause s).path.dwellD = s.path.dwellD ∧ (interruptReturn cause s).path.dwell = s.path.dwell
    ∧ (interruptReturn cause s).path.refallTimer = s.path.refallTimer ∧ (interruptReturn cause s).path.refallOpen = s.path.refallOpen
    ∧ (interruptReturn cause s).path.releaseTimer = s.path.releaseTimer ∧ (interruptReturn cause s).path.txReleased = s.path.txReleased
    ∧ (interruptReturn cause s).path.rxReleased = s.path.rxReleased ∧ (interruptReturn cause s).path.radioWanted = s.path.radioWanted
    ∧ (interruptReturn cause s).path.recorded = s.path.recorded ∧ (interruptReturn cause s).hold.cells = s.hold.cells
    ∧ (interruptReturn cause s).hold.uqE = s.hold.uqE ∧ (interruptReturn cause s).hold.uqV = s.hold.uqV
    ∧ (interruptReturn cause s).hold.uqD = s.hold.uqD ∧ (interruptReturn cause s).hold.dqV = s.hold.dqV
    ∧ (interruptReturn cause s).hold.dqD = s.hold.dqD ∧ (interruptReturn cause s).hold.onLdo = s.hold.onLdo
    ∧ (interruptReturn cause s).hold.sweep10 = s.hold.sweep10 ∧ (interruptReturn cause s).hold.sweep1s = s.hold.sweep1s
    ∧ (interruptReturn cause s).radio.failures = s.radio.failures ∧ (interruptReturn cause s).radio.lastCause = s.radio.lastCause
    ∧ (interruptReturn cause s).radio.cycleTimer = s.radio.cycleTimer ∧ (interruptReturn cause s).radio.silenceTimer = s.radio.silenceTimer
    ∧ (interruptReturn cause s).radio.grantUp = s.radio.grantUp ∧ (interruptReturn cause s).radio.grantDown = s.radio.grantDown
    ∧ (interruptReturn cause s).radio.grantQuality = s.radio.grantQuality ∧ (interruptReturn cause s).radio.slotA = s.radio.slotA
    ∧ (interruptReturn cause s).radio.slotB = s.radio.slotB ∧ (interruptReturn cause s).radio.unsent = s.radio.unsent
    ∧ (interruptReturn cause s).radio.pauseTold = s.radio.pauseTold ∧ (interruptReturn cause s).radio.capTold = s.radio.capTold
    ∧ (interruptReturn cause s).radio.lowPowerTold = s.radio.lowPowerTold ∧ (interruptReturn cause s).radio.ldo = s.radio.ldo
    ∧ (interruptReturn cause s).radio.ldoLast = s.radio.ldoLast ∧ (interruptReturn cause s).radio.receiver = s.radio.receiver
    ∧ (interruptReturn cause s).events.evp = s.events.evp ∧ (interruptReturn cause s).events.slotKinds = s.events.slotKinds
    ∧ (interruptReturn cause s).events.refreshCount = s.events.refreshCount
    ∧ (interruptReturn cause s).events.refreshTimer = s.events.refreshTimer ∧ (interruptReturn cause s).events.pageWriting = s.events.pageWriting
    ∧ (interruptReturn cause s).events.counters = s.events.counters ∧ (interruptReturn cause s).events.ledMs = s.events.ledMs := by simp only [interruptReturn, withPauseTarget]; (repeat' split) <;> simp

@[simp] theorem endDelivery_frame (s : State) :
    (endDelivery s).pending = s.pending ∧ (endDelivery s).clock = s.clock ∧ (endDelivery s).draws = s.draws ∧ (endDelivery s).sram = s.sram
    ∧ (endDelivery s).pins = s.pins ∧ (endDelivery s).loader.phase = s.loader.phase
    ∧ (endDelivery s).loader.flashCode = s.loader.flashCode ∧ (endDelivery s).loader.map = s.loader.map
    ∧ (endDelivery s).loader.linkClock = s.loader.linkClock ∧ (endDelivery s).loader.defaultPolicy = s.loader.defaultPolicy
    ∧ (endDelivery s).loader.policy = s.loader.policy ∧ (endDelivery s).loader.readState = s.loader.readState
    ∧ (endDelivery s).loader.readKind = s.loader.readKind ∧ (endDelivery s).loader.dueAfterRestart = s.loader.dueAfterRestart
    ∧ (endDelivery s).loader.firstHalf = s.loader.firstHalf ∧ (endDelivery s).loader.pgenAtIssue = s.loader.pgenAtIssue
    ∧ (endDelivery s).loader.softResetInForce = s.loader.softResetInForce
    ∧ (endDelivery s).loader.counterClearInForce = s.loader.counterClearInForce
    ∧ (endDelivery s).loader.shadowsLoaded = s.loader.shadowsLoaded ∧ (endDelivery s).loader.softReset = s.loader.softReset
    ∧ (endDelivery s).loader.softWait = s.loader.softWait ∧ (endDelivery s).loader.softPositions = s.loader.softPositions
    ∧ (endDelivery s).health = s.health ∧ (endDelivery s).pacer = s.pacer
    ∧ (endDelivery s).power = s.power ∧ (endDelivery s).bus.shadows = s.bus.shadows ∧ (endDelivery s).bus.txHorizon = s.bus.txHorizon
    ∧ (endDelivery s).bus.rxHorizon = s.bus.rxHorizon ∧ (endDelivery s).bus.fixedH = s.bus.fixedH ∧ (endDelivery s).bus.fixedG = s.bus.fixedG
    ∧ (endDelivery s).bus.uplinkView = s.bus.uplinkView ∧ (endDelivery s).bus.receiveView = s.bus.receiveView
    ∧ (endDelivery s).bus.uplinkViewValue = s.bus.uplinkViewValue ∧ (endDelivery s).bus.receiveViewValue = s.bus.receiveViewValue
    ∧ (endDelivery s).bus.txGuard = s.bus.txGuard ∧ (endDelivery s).bus.rxGuard = s.bus.rxGuard ∧ (endDelivery s).bus.queue = s.bus.queue
    ∧ (endDelivery s).bus.waitCount = s.bus.waitCount ∧ (endDelivery s).bus.gatewayData = s.bus.gatewayData
    ∧ (endDelivery s).ring.base = s.ring.base ∧ (endDelivery s).ring.partTxc = s.ring.partTxc ∧ (endDelivery s).ring.readMark = s.ring.readMark
    ∧ (endDelivery s).ring.descriptorRead = s.ring.descriptorRead ∧ (endDelivery s).ring.fence = s.ring.fence
    ∧ (endDelivery s).ring.overrun = s.ring.overrun ∧ (endDelivery s).ring.txCheckDue = s.ring.txCheckDue
    ∧ (endDelivery s).ring.scanRunning = s.ring.scanRunning ∧ (endDelivery s).ring.scanMark = s.ring.scanMark
    ∧ (endDelivery s).ring.scanRead = s.ring.scanRead ∧ (endDelivery s).ring.txForcing = s.ring.txForcing
    ∧ (endDelivery s).ring.rxForcing = s.ring.rxForcing ∧ (endDelivery s).ring.handBackAsked = s.ring.handBackAsked
    ∧ (endDelivery s).ring.fillCursor = s.ring.fillCursor ∧ (endDelivery s).ring.partRxf = s.ring.partRxf
    ∧ (endDelivery s).ring.descriptorHeld = s.ring.descriptorHeld ∧ (endDelivery s).ring.rxOverrun = s.ring.rxOverrun
    ∧ (endDelivery s).ring.rxCheckDue = s.ring.rxCheckDue ∧ (endDelivery s).path.path = s.path.path ∧ (endDelivery s).path.phase = s.path.phase
    ∧ (endDelivery s).path.dwellD = s.path.dwellD ∧ (endDelivery s).path.dwell = s.path.dwell
    ∧ (endDelivery s).path.refallTimer = s.path.refallTimer ∧ (endDelivery s).path.refallOpen = s.path.refallOpen
    ∧ (endDelivery s).path.releaseTimer = s.path.releaseTimer ∧ (endDelivery s).path.txReleased = s.path.txReleased
    ∧ (endDelivery s).path.rxReleased = s.path.rxReleased ∧ (endDelivery s).path.drainTimer = s.path.drainTimer
    ∧ (endDelivery s).path.radioWanted = s.path.radioWanted ∧ (endDelivery s).path.returnPause = s.path.returnPause
    ∧ (endDelivery s).path.recorded = s.path.recorded ∧ (endDelivery s).hold.cells = s.hold.cells ∧ (endDelivery s).hold.uqE = s.hold.uqE
    ∧ (endDelivery s).hold.uqV = s.hold.uqV ∧ (endDelivery s).hold.uqD = s.hold.uqD ∧ (endDelivery s).hold.dqV = s.hold.dqV
    ∧ (endDelivery s).hold.dqD = s.hold.dqD ∧ (endDelivery s).hold.sweep10 = s.hold.sweep10 ∧ (endDelivery s).hold.sweep1s = s.hold.sweep1s
    ∧ (endDelivery s).radio.failures = s.radio.failures ∧ (endDelivery s).radio.lastCause = s.radio.lastCause
    ∧ (endDelivery s).radio.cycleTimer = s.radio.cycleTimer ∧ (endDelivery s).radio.silenceTimer = s.radio.silenceTimer
    ∧ (endDelivery s).radio.grantUp = s.radio.grantUp ∧ (endDelivery s).radio.grantDown = s.radio.grantDown
    ∧ (endDelivery s).radio.grantQuality = s.radio.grantQuality ∧ (endDelivery s).radio.slotA = s.radio.slotA
    ∧ (endDelivery s).radio.slotB = s.radio.slotB ∧ (endDelivery s).radio.unsent = s.radio.unsent
    ∧ (endDelivery s).radio.pauseTold = s.radio.pauseTold ∧ (endDelivery s).radio.capTold = s.radio.capTold
    ∧ (endDelivery s).radio.lowPowerTold = s.radio.lowPowerTold ∧ (endDelivery s).radio.ldo = s.radio.ldo
    ∧ (endDelivery s).radio.ldoLast = s.radio.ldoLast ∧ (endDelivery s).radio.receiver = s.radio.receiver
    ∧ (endDelivery s).events.entries = s.events.entries ∧ (endDelivery s).events.evp = s.events.evp
    ∧ (endDelivery s).events.slotKinds = s.events.slotKinds ∧ (endDelivery s).events.refreshCount = s.events.refreshCount
    ∧ (endDelivery s).events.refreshTimer = s.events.refreshTimer ∧ (endDelivery s).events.pageWriting = s.events.pageWriting
    ∧ (endDelivery s).events.pageWanted = s.events.pageWanted ∧ (endDelivery s).events.ledMs = s.events.ledMs := by simp only [endDelivery]; (repeat' split) <;> simp

@[simp] theorem dwellExpires_frame (s : State) :
    (dwellExpires s).pending = s.pending ∧ (dwellExpires s).clock = s.clock ∧ (dwellExpires s).draws = s.draws ∧ (dwellExpires s).sram = s.sram
    ∧ (dwellExpires s).pins = s.pins ∧ (dwellExpires s).loader = s.loader ∧ (dwellExpires s).health = s.health ∧ (dwellExpires s).pacer = s.pacer
    ∧ (dwellExpires s).power = s.power ∧ (dwellExpires s).bus.shadows = s.bus.shadows ∧ (dwellExpires s).bus.txHorizon = s.bus.txHorizon
    ∧ (dwellExpires s).bus.rxHorizon = s.bus.rxHorizon ∧ (dwellExpires s).bus.fixedH = s.bus.fixedH ∧ (dwellExpires s).bus.fixedG = s.bus.fixedG
    ∧ (dwellExpires s).bus.uplinkView = s.bus.uplinkView ∧ (dwellExpires s).bus.receiveView = s.bus.receiveView
    ∧ (dwellExpires s).bus.uplinkViewValue = s.bus.uplinkViewValue ∧ (dwellExpires s).bus.receiveViewValue = s.bus.receiveViewValue
    ∧ (dwellExpires s).bus.txGuard = s.bus.txGuard ∧ (dwellExpires s).bus.rxGuard = s.bus.rxGuard ∧ (dwellExpires s).bus.queue = s.bus.queue
    ∧ (dwellExpires s).bus.waitCount = s.bus.waitCount ∧ (dwellExpires s).bus.gatewayData = s.bus.gatewayData
    ∧ (dwellExpires s).ring.base = s.ring.base ∧ (dwellExpires s).ring.partTxc = s.ring.partTxc ∧ (dwellExpires s).ring.overrun = s.ring.overrun
    ∧ (dwellExpires s).ring.txCheckDue = s.ring.txCheckDue ∧ (dwellExpires s).ring.scanRunning = s.ring.scanRunning
    ∧ (dwellExpires s).ring.scanMark = s.ring.scanMark ∧ (dwellExpires s).ring.scanRead = s.ring.scanRead
    ∧ (dwellExpires s).ring.txForcing = s.ring.txForcing ∧ (dwellExpires s).ring.rxForcing = s.ring.rxForcing
    ∧ (dwellExpires s).ring.handBackAsked = s.ring.handBackAsked ∧ (dwellExpires s).ring.fillCursor = s.ring.fillCursor
    ∧ (dwellExpires s).ring.partRxf = s.ring.partRxf ∧ (dwellExpires s).ring.delivery = s.ring.delivery
    ∧ (dwellExpires s).ring.descriptorHeld = s.ring.descriptorHeld ∧ (dwellExpires s).ring.rxOverrun = s.ring.rxOverrun
    ∧ (dwellExpires s).ring.rxCheckDue = s.ring.rxCheckDue ∧ (dwellExpires s).path.dwellD = s.path.dwellD
    ∧ (dwellExpires s).path.refallTimer = s.path.refallTimer ∧ (dwellExpires s).path.refallOpen = s.path.refallOpen
    ∧ (dwellExpires s).path.releaseTimer = s.path.releaseTimer ∧ (dwellExpires s).path.txReleased = s.path.txReleased
    ∧ (dwellExpires s).path.rxReleased = s.path.rxReleased ∧ (dwellExpires s).path.radioWanted = s.path.radioWanted
    ∧ (dwellExpires s).path.recorded = s.path.recorded ∧ (dwellExpires s).hold.cells = s.hold.cells ∧ (dwellExpires s).hold.uqE = s.hold.uqE
    ∧ (dwellExpires s).hold.uqV = s.hold.uqV ∧ (dwellExpires s).hold.uqD = s.hold.uqD ∧ (dwellExpires s).hold.dqV = s.hold.dqV
    ∧ (dwellExpires s).hold.dqD = s.hold.dqD ∧ (dwellExpires s).hold.onLdo = s.hold.onLdo ∧ (dwellExpires s).hold.sweep10 = s.hold.sweep10
    ∧ (dwellExpires s).hold.sweep1s = s.hold.sweep1s ∧ (dwellExpires s).radio.failures = s.radio.failures
    ∧ (dwellExpires s).radio.lastCause = s.radio.lastCause ∧ (dwellExpires s).radio.cycleTimer = s.radio.cycleTimer
    ∧ (dwellExpires s).radio.silenceTimer = s.radio.silenceTimer ∧ (dwellExpires s).radio.grantUp = s.radio.grantUp
    ∧ (dwellExpires s).radio.grantDown = s.radio.grantDown ∧ (dwellExpires s).radio.grantQuality = s.radio.grantQuality
    ∧ (dwellExpires s).radio.slotA = s.radio.slotA ∧ (dwellExpires s).radio.slotB = s.radio.slotB
    ∧ (dwellExpires s).radio.unsent = s.radio.unsent ∧ (dwellExpires s).radio.pauseTold = s.radio.pauseTold
    ∧ (dwellExpires s).radio.capTold = s.radio.capTold ∧ (dwellExpires s).radio.lowPowerTold = s.radio.lowPowerTold
    ∧ (dwellExpires s).radio.ldo = s.radio.ldo ∧ (dwellExpires s).radio.ldoLast = s.radio.ldoLast
    ∧ (dwellExpires s).radio.receiver = s.radio.receiver ∧ (dwellExpires s).events.evp = s.events.evp
    ∧ (dwellExpires s).events.slotKinds = s.events.slotKinds ∧ (dwellExpires s).events.refreshCount = s.events.refreshCount
    ∧ (dwellExpires s).events.refreshTimer = s.events.refreshTimer ∧ (dwellExpires s).events.pageWriting = s.events.pageWriting
    ∧ (dwellExpires s).events.counters = s.events.counters ∧ (dwellExpires s).events.ledMs = s.events.ledMs := by unfold dwellExpires; (repeat' split) <;> simp

end Sys2Proof.Machine
end

