-- ==== Sys2Proof/Laws/EngineFrames.lean ====
section
/-! SUPPORT. What the larger operations keep, up to `settle`, the standing work every command ends with. -/

-- One theorem at a time: the threads of many at once would not fit the memory a check has.
set_option Elab.async false

namespace Sys2Proof.Machine

@[simp] theorem returnRecord_frame (r : FrameRecord) (s : State) :
    (returnRecord r s).pending = s.pending ∧ (returnRecord r s).clock = s.clock ∧ (returnRecord r s).draws = s.draws
    ∧ (returnRecord r s).sram = s.sram ∧ (returnRecord r s).pins = s.pins ∧ (returnRecord r s).loader = s.loader
    ∧ (returnRecord r s).health = s.health ∧ (returnRecord r s).pacer = s.pacer ∧ (returnRecord r s).power = s.power
    ∧ (returnRecord r s).bus.shadows = s.bus.shadows ∧ (returnRecord r s).bus.txHorizon = s.bus.txHorizon
    ∧ (returnRecord r s).bus.rxHorizon = s.bus.rxHorizon ∧ (returnRecord r s).bus.fixedH = s.bus.fixedH
    ∧ (returnRecord r s).bus.fixedG = s.bus.fixedG ∧ (returnRecord r s).bus.uplinkView = s.bus.uplinkView
    ∧ (returnRecord r s).bus.receiveView = s.bus.receiveView ∧ (returnRecord r s).bus.uplinkViewValue = s.bus.uplinkViewValue
    ∧ (returnRecord r s).bus.receiveViewValue = s.bus.receiveViewValue ∧ (returnRecord r s).bus.txGuard = s.bus.txGuard
    ∧ (returnRecord r s).bus.rxGuard = s.bus.rxGuard ∧ (returnRecord r s).bus.queue = s.bus.queue
    ∧ (returnRecord r s).bus.waitCount = s.bus.waitCount ∧ (returnRecord r s).bus.gatewayData = s.bus.gatewayData
    ∧ (returnRecord r s).ring.base = s.ring.base ∧ (returnRecord r s).ring.partTxc = s.ring.partTxc
    ∧ (returnRecord r s).ring.readMark = s.ring.readMark ∧ (returnRecord r s).ring.descriptorRead = s.ring.descriptorRead
    ∧ (returnRecord r s).ring.fence = s.ring.fence ∧ (returnRecord r s).ring.overrun = s.ring.overrun
    ∧ (returnRecord r s).ring.txCheckDue = s.ring.txCheckDue ∧ (returnRecord r s).ring.scanRunning = s.ring.scanRunning
    ∧ (returnRecord r s).ring.scanMark = s.ring.scanMark ∧ (returnRecord r s).ring.scanRead = s.ring.scanRead
    ∧ (returnRecord r s).ring.txForcing = s.ring.txForcing ∧ (returnRecord r s).ring.rxForcing = s.ring.rxForcing
    ∧ (returnRecord r s).ring.handBackAsked = s.ring.handBackAsked ∧ (returnRecord r s).ring.fillCursor = s.ring.fillCursor
    ∧ (returnRecord r s).ring.partRxf = s.ring.partRxf ∧ (returnRecord r s).ring.delivery = s.ring.delivery
    ∧ (returnRecord r s).ring.descriptorHeld = s.ring.descriptorHeld ∧ (returnRecord r s).ring.rxOverrun = s.ring.rxOverrun
    ∧ (returnRecord r s).ring.rxCheckDue = s.ring.rxCheckDue ∧ (returnRecord r s).path.path = s.path.path
    ∧ (returnRecord r s).path.phase = s.path.phase ∧ (returnRecord r s).path.dwellD = s.path.dwellD
    ∧ (returnRecord r s).path.dwell = s.path.dwell ∧ (returnRecord r s).path.refallTimer = s.path.refallTimer
    ∧ (returnRecord r s).path.refallOpen = s.path.refallOpen ∧ (returnRecord r s).path.releaseTimer = s.path.releaseTimer
    ∧ (returnRecord r s).path.txReleased = s.path.txReleased ∧ (returnRecord r s).path.rxReleased = s.path.rxReleased
    ∧ (returnRecord r s).path.drainTimer = s.path.drainTimer ∧ (returnRecord r s).path.radioWanted = s.path.radioWanted
    ∧ (returnRecord r s).path.returnPause = s.path.returnPause ∧ (returnRecord r s).path.recorded = s.path.recorded
    ∧ (returnRecord r s).hold.cells = s.hold.cells ∧ (returnRecord r s).hold.dqV = s.hold.dqV ∧ (returnRecord r s).hold.dqD = s.hold.dqD
    ∧ (returnRecord r s).hold.sweep10 = s.hold.sweep10 ∧ (returnRecord r s).hold.sweep1s = s.hold.sweep1s
    ∧ (returnRecord r s).radio.failures = s.radio.failures ∧ (returnRecord r s).radio.lastCause = s.radio.lastCause
    ∧ (returnRecord r s).radio.cycleTimer = s.radio.cycleTimer ∧ (returnRecord r s).radio.silenceTimer = s.radio.silenceTimer
    ∧ (returnRecord r s).radio.grantUp = s.radio.grantUp ∧ (returnRecord r s).radio.grantDown = s.radio.grantDown
    ∧ (returnRecord r s).radio.grantQuality = s.radio.grantQuality ∧ (returnRecord r s).radio.slotA = s.radio.slotA
    ∧ (returnRecord r s).radio.slotB = s.radio.slotB ∧ (returnRecord r s).radio.unsent = s.radio.unsent
    ∧ (returnRecord r s).radio.pauseTold = s.radio.pauseTold ∧ (returnRecord r s).radio.capTold = s.radio.capTold
    ∧ (returnRecord r s).radio.lowPowerTold = s.radio.lowPowerTold ∧ (returnRecord r s).radio.ldo = s.radio.ldo
    ∧ (returnRecord r s).radio.ldoLast = s.radio.ldoLast ∧ (returnRecord r s).radio.receiver = s.radio.receiver
    ∧ (returnRecord r s).events.evp = s.events.evp ∧ (returnRecord r s).events.slotKinds = s.events.slotKinds
    ∧ (returnRecord r s).events.refreshCount = s.events.refreshCount ∧ (returnRecord r s).events.refreshTimer = s.events.refreshTimer
    ∧ (returnRecord r s).events.pageWriting = s.events.pageWriting ∧ (returnRecord r s).events.pageWanted = s.events.pageWanted
    ∧ (returnRecord r s).events.ledMs = s.events.ledMs := by simp only [returnRecord]; (repeat' split) <;> simp

@[simp] theorem loseAll_frame (reason : LossReason) (rs : List FrameRecord) (s : State) :
    (loseAll reason rs s).pending = s.pending ∧ (loseAll reason rs s).clock = s.clock ∧ (loseAll reason rs s).draws = s.draws
    ∧ (loseAll reason rs s).sram = s.sram ∧ (loseAll reason rs s).pins = s.pins ∧ (loseAll reason rs s).loader = s.loader
    ∧ (loseAll reason rs s).health = s.health ∧ (loseAll reason rs s).pacer = s.pacer ∧ (loseAll reason rs s).power = s.power
    ∧ (loseAll reason rs s).bus.shadows = s.bus.shadows ∧ (loseAll reason rs s).bus.txHorizon = s.bus.txHorizon
    ∧ (loseAll reason rs s).bus.rxHorizon = s.bus.rxHorizon ∧ (loseAll reason rs s).bus.fixedH = s.bus.fixedH
    ∧ (loseAll reason rs s).bus.fixedG = s.bus.fixedG ∧ (loseAll reason rs s).bus.uplinkView = s.bus.uplinkView
    ∧ (loseAll reason rs s).bus.receiveView = s.bus.receiveView ∧ (loseAll reason rs s).bus.uplinkViewValue = s.bus.uplinkViewValue
    ∧ (loseAll reason rs s).bus.receiveViewValue = s.bus.receiveViewValue ∧ (loseAll reason rs s).bus.txGuard = s.bus.txGuard
    ∧ (loseAll reason rs s).bus.rxGuard = s.bus.rxGuard ∧ (loseAll reason rs s).bus.queue = s.bus.queue
    ∧ (loseAll reason rs s).bus.waitCount = s.bus.waitCount ∧ (loseAll reason rs s).bus.gatewayData = s.bus.gatewayData
    ∧ (loseAll reason rs s).ring.base = s.ring.base ∧ (loseAll reason rs s).ring.partTxc = s.ring.partTxc
    ∧ (loseAll reason rs s).ring.readMark = s.ring.readMark ∧ (loseAll reason rs s).ring.descriptorRead = s.ring.descriptorRead
    ∧ (loseAll reason rs s).ring.fence = s.ring.fence ∧ (loseAll reason rs s).ring.overrun = s.ring.overrun
    ∧ (loseAll reason rs s).ring.txCheckDue = s.ring.txCheckDue ∧ (loseAll reason rs s).ring.scanRunning = s.ring.scanRunning
    ∧ (loseAll reason rs s).ring.scanMark = s.ring.scanMark ∧ (loseAll reason rs s).ring.scanRead = s.ring.scanRead
    ∧ (loseAll reason rs s).ring.txForcing = s.ring.txForcing ∧ (loseAll reason rs s).ring.rxForcing = s.ring.rxForcing
    ∧ (loseAll reason rs s).ring.handBackAsked = s.ring.handBackAsked ∧ (loseAll reason rs s).ring.fillCursor = s.ring.fillCursor
    ∧ (loseAll reason rs s).ring.partRxf = s.ring.partRxf ∧ (loseAll reason rs s).ring.delivery = s.ring.delivery
    ∧ (loseAll reason rs s).ring.descriptorHeld = s.ring.descriptorHeld ∧ (loseAll reason rs s).ring.rxOverrun = s.ring.rxOverrun
    ∧ (loseAll reason rs s).ring.rxCheckDue = s.ring.rxCheckDue ∧ (loseAll reason rs s).path.path = s.path.path
    ∧ (loseAll reason rs s).path.phase = s.path.phase ∧ (loseAll reason rs s).path.dwellD = s.path.dwellD
    ∧ (loseAll reason rs s).path.dwell = s.path.dwell ∧ (loseAll reason rs s).path.refallTimer = s.path.refallTimer
    ∧ (loseAll reason rs s).path.refallOpen = s.path.refallOpen ∧ (loseAll reason rs s).path.releaseTimer = s.path.releaseTimer
    ∧ (loseAll reason rs s).path.txReleased = s.path.txReleased ∧ (loseAll reason rs s).path.rxReleased = s.path.rxReleased
    ∧ (loseAll reason rs s).path.drainTimer = s.path.drainTimer ∧ (loseAll reason rs s).path.radioWanted = s.path.radioWanted
    ∧ (loseAll reason rs s).path.returnPause = s.path.returnPause ∧ (loseAll reason rs s).path.recorded = s.path.recorded
    ∧ (loseAll reason rs s).hold.cells = s.hold.cells ∧ (loseAll reason rs s).hold.uqE = s.hold.uqE ∧ (loseAll reason rs s).hold.uqV = s.hold.uqV
    ∧ (loseAll reason rs s).hold.uqD = s.hold.uqD ∧ (loseAll reason rs s).hold.dqV = s.hold.dqV ∧ (loseAll reason rs s).hold.dqD = s.hold.dqD
    ∧ (loseAll reason rs s).hold.sweep10 = s.hold.sweep10 ∧ (loseAll reason rs s).hold.sweep1s = s.hold.sweep1s
    ∧ (loseAll reason rs s).radio.failures = s.radio.failures ∧ (loseAll reason rs s).radio.lastCause = s.radio.lastCause
    ∧ (loseAll reason rs s).radio.cycleTimer = s.radio.cycleTimer ∧ (loseAll reason rs s).radio.silenceTimer = s.radio.silenceTimer
    ∧ (loseAll reason rs s).radio.grantUp = s.radio.grantUp ∧ (loseAll reason rs s).radio.grantDown = s.radio.grantDown
    ∧ (loseAll reason rs s).radio.grantQuality = s.radio.grantQuality ∧ (loseAll reason rs s).radio.slotA = s.radio.slotA
    ∧ (loseAll reason rs s).radio.slotB = s.radio.slotB ∧ (loseAll reason rs s).radio.unsent = s.radio.unsent
    ∧ (loseAll reason rs s).radio.pauseTold = s.radio.pauseTold ∧ (loseAll reason rs s).radio.capTold = s.radio.capTold
    ∧ (loseAll reason rs s).radio.lowPowerTold = s.radio.lowPowerTold ∧ (loseAll reason rs s).radio.ldo = s.radio.ldo
    ∧ (loseAll reason rs s).radio.ldoLast = s.radio.ldoLast ∧ (loseAll reason rs s).radio.receiver = s.radio.receiver
    ∧ (loseAll reason rs s).events.evp = s.events.evp ∧ (loseAll reason rs s).events.slotKinds = s.events.slotKinds
    ∧ (loseAll reason rs s).events.refreshCount = s.events.refreshCount ∧ (loseAll reason rs s).events.refreshTimer = s.events.refreshTimer
    ∧ (loseAll reason rs s).events.pageWriting = s.events.pageWriting ∧ (loseAll reason rs s).events.pageWanted = s.events.pageWanted
    ∧ (loseAll reason rs s).events.ledMs = s.events.ledMs := by
  have keep {γ : Type} (p : State → γ) (h : ∀ s a, p (loseRecord reason a s) = p s) : p (loseAll reason rs s) = p s := foldl_keeps p _ _ _ h
  exact ⟨keep (·.pending) (by simp), keep (·.clock) (by simp), keep (·.draws) (by simp), keep (·.sram) (by simp), keep (·.pins) (by simp),
    keep (·.loader) (by simp), keep (·.health) (by simp), keep (·.pacer) (by simp), keep (·.power) (by simp),
    keep (·.bus.shadows) (by simp), keep (·.bus.txHorizon) (by simp), keep (·.bus.rxHorizon) (by simp), keep (·.bus.fixedH) (by simp),
    keep (·.bus.fixedG) (by simp), keep (·.bus.uplinkView) (by simp), keep (·.bus.receiveView) (by simp),
    keep (·.bus.uplinkViewValue) (by simp), keep (·.bus.receiveViewValue) (by simp), keep (·.bus.txGuard) (by simp),
    keep (·.bus.rxGuard) (by simp), keep (·.bus.queue) (by simp), keep (·.bus.waitCount) (by simp), keep (·.bus.gatewayData) (by simp),
    keep (·.ring.base) (by simp), keep (·.ring.partTxc) (by simp), keep (·.ring.readMark) (by simp),
    keep (·.ring.descriptorRead) (by simp), keep (·.ring.fence) (by simp), keep (·.ring.overrun) (by simp),
    keep (·.ring.txCheckDue) (by simp), keep (·.ring.scanRunning) (by simp), keep (·.ring.scanMark) (by simp),
    keep (·.ring.scanRead) (by simp), keep (·.ring.txForcing) (by simp), keep (·.ring.rxForcing) (by simp),
    keep (·.ring.handBackAsked) (by simp), keep (·.ring.fillCursor) (by simp), keep (·.ring.partRxf) (by simp),
    keep (·.ring.delivery) (by simp), keep (·.ring.descriptorHeld) (by simp), keep (·.ring.rxOverrun) (by simp),
    keep (·.ring.rxCheckDue) (by simp), keep (·.path.path) (by simp), keep (·.path.phase) (by simp), keep (·.path.dwellD) (by simp),
    keep (·.path.dwell) (by simp), keep (·.path.refallTimer) (by simp), keep (·.path.refallOpen) (by simp),
    keep (·.path.releaseTimer) (by simp), keep (·.path.txReleased) (by simp), keep (·.path.rxReleased) (by simp),
    keep (·.path.drainTimer) (by simp), keep (·.path.radioWanted) (by simp), keep (·.path.returnPause) (by simp),
    keep (·.path.recorded) (by simp), keep (·.hold.cells) (by simp), keep (·.hold.uqE) (by simp), keep (·.hold.uqV) (by simp),
    keep (·.hold.uqD) (by simp), keep (·.hold.dqV) (by simp), keep (·.hold.dqD) (by simp), keep (·.hold.sweep10) (by simp),
    keep (·.hold.sweep1s) (by simp), keep (·.radio.failures) (by simp), keep (·.radio.lastCause) (by simp),
    keep (·.radio.cycleTimer) (by simp), keep (·.radio.silenceTimer) (by simp), keep (·.radio.grantUp) (by simp),
    keep (·.radio.grantDown) (by simp), keep (·.radio.grantQuality) (by simp), keep (·.radio.slotA) (by simp),
    keep (·.radio.slotB) (by simp), keep (·.radio.unsent) (by simp), keep (·.radio.pauseTold) (by simp), keep (·.radio.capTold) (by simp),
    keep (·.radio.lowPowerTold) (by simp), keep (·.radio.ldo) (by simp), keep (·.radio.ldoLast) (by simp),
    keep (·.radio.receiver) (by simp), keep (·.events.evp) (by simp), keep (·.events.slotKinds) (by simp),
    keep (·.events.refreshCount) (by simp), keep (·.events.refreshTimer) (by simp), keep (·.events.pageWriting) (by simp),
    keep (·.events.pageWanted) (by simp), keep (·.events.ledMs) (by simp)⟩

@[simp] theorem softDiscardAll_frame (rs : List FrameRecord) (s : State) :
    (softDiscardAll rs s).pending = s.pending ∧ (softDiscardAll rs s).clock = s.clock ∧ (softDiscardAll rs s).draws = s.draws
    ∧ (softDiscardAll rs s).sram = s.sram ∧ (softDiscardAll rs s).pins = s.pins ∧ (softDiscardAll rs s).health = s.health
    ∧ (softDiscardAll rs s).pacer = s.pacer ∧ (softDiscardAll rs s).power = s.power ∧ (softDiscardAll rs s).loader.phase = s.loader.phase
    ∧ (softDiscardAll rs s).loader.flashCode = s.loader.flashCode ∧ (softDiscardAll rs s).loader.map = s.loader.map
    ∧ (softDiscardAll rs s).loader.linkClock = s.loader.linkClock ∧ (softDiscardAll rs s).loader.defaultPolicy = s.loader.defaultPolicy
    ∧ (softDiscardAll rs s).loader.policy = s.loader.policy ∧ (softDiscardAll rs s).loader.readState = s.loader.readState
    ∧ (softDiscardAll rs s).loader.readKind = s.loader.readKind ∧ (softDiscardAll rs s).loader.dueAfterRestart = s.loader.dueAfterRestart
    ∧ (softDiscardAll rs s).loader.firstHalf = s.loader.firstHalf ∧ (softDiscardAll rs s).loader.pgenAtIssue = s.loader.pgenAtIssue
    ∧ (softDiscardAll rs s).loader.softResetInForce = s.loader.softResetInForce
    ∧ (softDiscardAll rs s).loader.counterClearInForce = s.loader.counterClearInForce
    ∧ (softDiscardAll rs s).loader.shadowsLoaded = s.loader.shadowsLoaded ∧ (softDiscardAll rs s).loader.softReset = s.loader.softReset
    ∧ (softDiscardAll rs s).loader.softWait = s.loader.softWait ∧ (softDiscardAll rs s).loader.softPositions = s.loader.softPositions
    ∧ (softDiscardAll rs s).bus.shadows = s.bus.shadows ∧ (softDiscardAll rs s).bus.txHorizon = s.bus.txHorizon
    ∧ (softDiscardAll rs s).bus.rxHorizon = s.bus.rxHorizon ∧ (softDiscardAll rs s).bus.fixedH = s.bus.fixedH
    ∧ (softDiscardAll rs s).bus.fixedG = s.bus.fixedG ∧ (softDiscardAll rs s).bus.uplinkView = s.bus.uplinkView
    ∧ (softDiscardAll rs s).bus.receiveView = s.bus.receiveView ∧ (softDiscardAll rs s).bus.uplinkViewValue = s.bus.uplinkViewValue
    ∧ (softDiscardAll rs s).bus.receiveViewValue = s.bus.receiveViewValue ∧ (softDiscardAll rs s).bus.txGuard = s.bus.txGuard
    ∧ (softDiscardAll rs s).bus.rxGuard = s.bus.rxGuard ∧ (softDiscardAll rs s).bus.queue = s.bus.queue
    ∧ (softDiscardAll rs s).bus.waitCount = s.bus.waitCount ∧ (softDiscardAll rs s).bus.gatewayData = s.bus.gatewayData
    ∧ (softDiscardAll rs s).ring.base = s.ring.base ∧ (softDiscardAll rs s).ring.partTxc = s.ring.partTxc
    ∧ (softDiscardAll rs s).ring.readMark = s.ring.readMark ∧ (softDiscardAll rs s).ring.descriptorRead = s.ring.descriptorRead
    ∧ (softDiscardAll rs s).ring.fence = s.ring.fence ∧ (softDiscardAll rs s).ring.overrun = s.ring.overrun
    ∧ (softDiscardAll rs s).ring.txCheckDue = s.ring.txCheckDue ∧ (softDiscardAll rs s).ring.scanRunning = s.ring.scanRunning
    ∧ (softDiscardAll rs s).ring.scanMark = s.ring.scanMark ∧ (softDiscardAll rs s).ring.scanRead = s.ring.scanRead
    ∧ (softDiscardAll rs s).ring.txForcing = s.ring.txForcing ∧ (softDiscardAll rs s).ring.rxForcing = s.ring.rxForcing
    ∧ (softDiscardAll rs s).ring.handBackAsked = s.ring.handBackAsked ∧ (softDiscardAll rs s).ring.fillCursor = s.ring.fillCursor
    ∧ (softDiscardAll rs s).ring.partRxf = s.ring.partRxf ∧ (softDiscardAll rs s).ring.delivery = s.ring.delivery
    ∧ (softDiscardAll rs s).ring.descriptorHeld = s.ring.descriptorHeld ∧ (softDiscardAll rs s).ring.rxOverrun = s.ring.rxOverrun
    ∧ (softDiscardAll rs s).ring.rxCheckDue = s.ring.rxCheckDue ∧ (softDiscardAll rs s).path.path = s.path.path
    ∧ (softDiscardAll rs s).path.phase = s.path.phase ∧ (softDiscardAll rs s).path.dwellD = s.path.dwellD
    ∧ (softDiscardAll rs s).path.dwell = s.path.dwell ∧ (softDiscardAll rs s).path.refallTimer = s.path.refallTimer
    ∧ (softDiscardAll rs s).path.refallOpen = s.path.refallOpen ∧ (softDiscardAll rs s).path.releaseTimer = s.path.releaseTimer
    ∧ (softDiscardAll rs s).path.txReleased = s.path.txReleased ∧ (softDiscardAll rs s).path.rxReleased = s.path.rxReleased
    ∧ (softDiscardAll rs s).path.drainTimer = s.path.drainTimer ∧ (softDiscardAll rs s).path.radioWanted = s.path.radioWanted
    ∧ (softDiscardAll rs s).path.returnPause = s.path.returnPause ∧ (softDiscardAll rs s).path.recorded = s.path.recorded
    ∧ (softDiscardAll rs s).hold.cells = s.hold.cells ∧ (softDiscardAll rs s).hold.uqE = s.hold.uqE ∧ (softDiscardAll rs s).hold.uqV = s.hold.uqV
    ∧ (softDiscardAll rs s).hold.uqD = s.hold.uqD ∧ (softDiscardAll rs s).hold.dqV = s.hold.dqV ∧ (softDiscardAll rs s).hold.dqD = s.hold.dqD
    ∧ (softDiscardAll rs s).hold.sweep10 = s.hold.sweep10 ∧ (softDiscardAll rs s).hold.sweep1s = s.hold.sweep1s
    ∧ (softDiscardAll rs s).radio.failures = s.radio.failures ∧ (softDiscardAll rs s).radio.lastCause = s.radio.lastCause
    ∧ (softDiscardAll rs s).radio.cycleTimer = s.radio.cycleTimer ∧ (softDiscardAll rs s).radio.silenceTimer = s.radio.silenceTimer
    ∧ (softDiscardAll rs s).radio.grantUp = s.radio.grantUp ∧ (softDiscardAll rs s).radio.grantDown = s.radio.grantDown
    ∧ (softDiscardAll rs s).radio.grantQuality = s.radio.grantQuality ∧ (softDiscardAll rs s).radio.slotA = s.radio.slotA
    ∧ (softDiscardAll rs s).radio.slotB = s.radio.slotB ∧ (softDiscardAll rs s).radio.unsent = s.radio.unsent
    ∧ (softDiscardAll rs s).radio.pauseTold = s.radio.pauseTold ∧ (softDiscardAll rs s).radio.capTold = s.radio.capTold
    ∧ (softDiscardAll rs s).radio.lowPowerTold = s.radio.lowPowerTold ∧ (softDiscardAll rs s).radio.ldo = s.radio.ldo
    ∧ (softDiscardAll rs s).radio.ldoLast = s.radio.ldoLast ∧ (softDiscardAll rs s).radio.receiver = s.radio.receiver
    ∧ (softDiscardAll rs s).events.entries = s.events.entries ∧ (softDiscardAll rs s).events.evp = s.events.evp
    ∧ (softDiscardAll rs s).events.slotKinds = s.events.slotKinds ∧ (softDiscardAll rs s).events.refreshCount = s.events.refreshCount
    ∧ (softDiscardAll rs s).events.refreshTimer = s.events.refreshTimer ∧ (softDiscardAll rs s).events.pageWriting = s.events.pageWriting
    ∧ (softDiscardAll rs s).events.pageWanted = s.events.pageWanted ∧ (softDiscardAll rs s).events.ledMs = s.events.ledMs := by
  have keep {γ : Type} (p : State → γ) (h : ∀ s a, p (softDiscardRecord a s) = p s) : p (softDiscardAll rs s) = p s := foldl_keeps p _ _ _ h
  exact ⟨keep (·.pending) (by simp), keep (·.clock) (by simp), keep (·.draws) (by simp), keep (·.sram) (by simp), keep (·.pins) (by simp),
    keep (·.health) (by simp), keep (·.pacer) (by simp), keep (·.power) (by simp), keep (·.loader.phase) (by simp),
    keep (·.loader.flashCode) (by simp), keep (·.loader.map) (by simp), keep (·.loader.linkClock) (by simp),
    keep (·.loader.defaultPolicy) (by simp), keep (·.loader.policy) (by simp), keep (·.loader.readState) (by simp),
    keep (·.loader.readKind) (by simp), keep (·.loader.dueAfterRestart) (by simp), keep (·.loader.firstHalf) (by simp),
    keep (·.loader.pgenAtIssue) (by simp), keep (·.loader.softResetInForce) (by simp), keep (·.loader.counterClearInForce) (by simp),
    keep (·.loader.shadowsLoaded) (by simp), keep (·.loader.softReset) (by simp), keep (·.loader.softWait) (by simp),
    keep (·.loader.softPositions) (by simp), keep (·.bus.shadows) (by simp), keep (·.bus.txHorizon) (by simp),
    keep (·.bus.rxHorizon) (by simp), keep (·.bus.fixedH) (by simp), keep (·.bus.fixedG) (by simp), keep (·.bus.uplinkView) (by simp),
    keep (·.bus.receiveView) (by simp), keep (·.bus.uplinkViewValue) (by simp), keep (·.bus.receiveViewValue) (by simp),
    keep (·.bus.txGuard) (by simp), keep (·.bus.rxGuard) (by simp), keep (·.bus.queue) (by simp), keep (·.bus.waitCount) (by simp),
    keep (·.bus.gatewayData) (by simp), keep (·.ring.base) (by simp), keep (·.ring.partTxc) (by simp), keep (·.ring.readMark) (by simp),
    keep (·.ring.descriptorRead) (by simp), keep (·.ring.fence) (by simp), keep (·.ring.overrun) (by simp),
    keep (·.ring.txCheckDue) (by simp), keep (·.ring.scanRunning) (by simp), keep (·.ring.scanMark) (by simp),
    keep (·.ring.scanRead) (by simp), keep (·.ring.txForcing) (by simp), keep (·.ring.rxForcing) (by simp),
    keep (·.ring.handBackAsked) (by simp), keep (·.ring.fillCursor) (by simp), keep (·.ring.partRxf) (by simp),
    keep (·.ring.delivery) (by simp), keep (·.ring.descriptorHeld) (by simp), keep (·.ring.rxOverrun) (by simp),
    keep (·.ring.rxCheckDue) (by simp), keep (·.path.path) (by simp), keep (·.path.phase) (by simp), keep (·.path.dwellD) (by simp),
    keep (·.path.dwell) (by simp), keep (·.path.refallTimer) (by simp), keep (·.path.refallOpen) (by simp),
    keep (·.path.releaseTimer) (by simp), keep (·.path.txReleased) (by simp), keep (·.path.rxReleased) (by simp),
    keep (·.path.drainTimer) (by simp), keep (·.path.radioWanted) (by simp), keep (·.path.returnPause) (by simp),
    keep (·.path.recorded) (by simp), keep (·.hold.cells) (by simp), keep (·.hold.uqE) (by simp), keep (·.hold.uqV) (by simp),
    keep (·.hold.uqD) (by simp), keep (·.hold.dqV) (by simp), keep (·.hold.dqD) (by simp), keep (·.hold.sweep10) (by simp),
    keep (·.hold.sweep1s) (by simp), keep (·.radio.failures) (by simp), keep (·.radio.lastCause) (by simp),
    keep (·.radio.cycleTimer) (by simp), keep (·.radio.silenceTimer) (by simp), keep (·.radio.grantUp) (by simp),
    keep (·.radio.grantDown) (by simp), keep (·.radio.grantQuality) (by simp), keep (·.radio.slotA) (by simp),
    keep (·.radio.slotB) (by simp), keep (·.radio.unsent) (by simp), keep (·.radio.pauseTold) (by simp), keep (·.radio.capTold) (by simp),
    keep (·.radio.lowPowerTold) (by simp), keep (·.radio.ldo) (by simp), keep (·.radio.ldoLast) (by simp),
    keep (·.radio.receiver) (by simp), keep (·.events.entries) (by simp), keep (·.events.evp) (by simp),
    keep (·.events.slotKinds) (by simp), keep (·.events.refreshCount) (by simp), keep (·.events.refreshTimer) (by simp),
    keep (·.events.pageWriting) (by simp), keep (·.events.pageWanted) (by simp), keep (·.events.ledMs) (by simp)⟩

@[simp] theorem expireUqD_frame (r : FrameRecord) (s : State) :
    (expireUqD r s).pending = s.pending ∧ (expireUqD r s).clock = s.clock ∧ (expireUqD r s).draws = s.draws ∧ (expireUqD r s).sram = s.sram
    ∧ (expireUqD r s).pins = s.pins ∧ (expireUqD r s).loader = s.loader ∧ (expireUqD r s).health = s.health ∧ (expireUqD r s).pacer = s.pacer
    ∧ (expireUqD r s).power = s.power ∧ (expireUqD r s).bus.shadows = s.bus.shadows ∧ (expireUqD r s).bus.txHorizon = s.bus.txHorizon
    ∧ (expireUqD r s).bus.rxHorizon = s.bus.rxHorizon ∧ (expireUqD r s).bus.fixedH = s.bus.fixedH ∧ (expireUqD r s).bus.fixedG = s.bus.fixedG
    ∧ (expireUqD r s).bus.uplinkView = s.bus.uplinkView ∧ (expireUqD r s).bus.receiveView = s.bus.receiveView
    ∧ (expireUqD r s).bus.uplinkViewValue = s.bus.uplinkViewValue ∧ (expireUqD r s).bus.receiveViewValue = s.bus.receiveViewValue
    ∧ (expireUqD r s).bus.txGuard = s.bus.txGuard ∧ (expireUqD r s).bus.rxGuard = s.bus.rxGuard ∧ (expireUqD r s).bus.queue = s.bus.queue
    ∧ (expireUqD r s).bus.waitCount = s.bus.waitCount ∧ (expireUqD r s).bus.gatewayData = s.bus.gatewayData
    ∧ (expireUqD r s).ring.base = s.ring.base ∧ (expireUqD r s).ring.partTxc = s.ring.partTxc ∧ (expireUqD r s).ring.readMark = s.ring.readMark
    ∧ (expireUqD r s).ring.descriptorRead = s.ring.descriptorRead ∧ (expireUqD r s).ring.fence = s.ring.fence
    ∧ (expireUqD r s).ring.overrun = s.ring.overrun ∧ (expireUqD r s).ring.txCheckDue = s.ring.txCheckDue
    ∧ (expireUqD r s).ring.scanRunning = s.ring.scanRunning ∧ (expireUqD r s).ring.scanMark = s.ring.scanMark
    ∧ (expireUqD r s).ring.scanRead = s.ring.scanRead ∧ (expireUqD r s).ring.txForcing = s.ring.txForcing
    ∧ (expireUqD r s).ring.rxForcing = s.ring.rxForcing ∧ (expireUqD r s).ring.handBackAsked = s.ring.handBackAsked
    ∧ (expireUqD r s).ring.fillCursor = s.ring.fillCursor ∧ (expireUqD r s).ring.partRxf = s.ring.partRxf
    ∧ (expireUqD r s).ring.delivery = s.ring.delivery ∧ (expireUqD r s).ring.descriptorHeld = s.ring.descriptorHeld
    ∧ (expireUqD r s).ring.rxOverrun = s.ring.rxOverrun ∧ (expireUqD r s).ring.rxCheckDue = s.ring.rxCheckDue
    ∧ (expireUqD r s).path.path = s.path.path ∧ (expireUqD r s).path.phase = s.path.phase ∧ (expireUqD r s).path.dwellD = s.path.dwellD
    ∧ (expireUqD r s).path.dwell = s.path.dwell ∧ (expireUqD r s).path.refallTimer = s.path.refallTimer
    ∧ (expireUqD r s).path.refallOpen = s.path.refallOpen ∧ (expireUqD r s).path.releaseTimer = s.path.releaseTimer
    ∧ (expireUqD r s).path.txReleased = s.path.txReleased ∧ (expireUqD r s).path.rxReleased = s.path.rxReleased
    ∧ (expireUqD r s).path.drainTimer = s.path.drainTimer ∧ (expireUqD r s).path.radioWanted = s.path.radioWanted
    ∧ (expireUqD r s).path.returnPause = s.path.returnPause ∧ (expireUqD r s).path.recorded = s.path.recorded
    ∧ (expireUqD r s).hold.cells = s.hold.cells ∧ (expireUqD r s).hold.uqE = s.hold.uqE ∧ (expireUqD r s).hold.uqV = s.hold.uqV
    ∧ (expireUqD r s).hold.dqV = s.hold.dqV ∧ (expireUqD r s).hold.dqD = s.hold.dqD ∧ (expireUqD r s).hold.sweep10 = s.hold.sweep10
    ∧ (expireUqD r s).hold.sweep1s = s.hold.sweep1s ∧ (expireUqD r s).radio.failures = s.radio.failures
    ∧ (expireUqD r s).radio.lastCause = s.radio.lastCause ∧ (expireUqD r s).radio.cycleTimer = s.radio.cycleTimer
    ∧ (expireUqD r s).radio.silenceTimer = s.radio.silenceTimer ∧ (expireUqD r s).radio.grantUp = s.radio.grantUp
    ∧ (expireUqD r s).radio.grantDown = s.radio.grantDown ∧ (expireUqD r s).radio.grantQuality = s.radio.grantQuality
    ∧ (expireUqD r s).radio.slotA = s.radio.slotA ∧ (expireUqD r s).radio.slotB = s.radio.slotB ∧ (expireUqD r s).radio.unsent = s.radio.unsent
    ∧ (expireUqD r s).radio.pauseTold = s.radio.pauseTold ∧ (expireUqD r s).radio.capTold = s.radio.capTold
    ∧ (expireUqD r s).radio.lowPowerTold = s.radio.lowPowerTold ∧ (expireUqD r s).radio.ldo = s.radio.ldo
    ∧ (expireUqD r s).radio.ldoLast = s.radio.ldoLast ∧ (expireUqD r s).radio.receiver = s.radio.receiver
    ∧ (expireUqD r s).events.evp = s.events.evp ∧ (expireUqD r s).events.slotKinds = s.events.slotKinds
    ∧ (expireUqD r s).events.refreshCount = s.events.refreshCount ∧ (expireUqD r s).events.refreshTimer = s.events.refreshTimer
    ∧ (expireUqD r s).events.pageWriting = s.events.pageWriting ∧ (expireUqD r s).events.pageWanted = s.events.pageWanted
    ∧ (expireUqD r s).events.ledMs = s.events.ledMs := by simp [expireUqD]

@[simp] theorem abandonPayload_frame (s : State) :
    (abandonPayload s).pending = s.pending ∧ (abandonPayload s).clock = s.clock ∧ (abandonPayload s).draws = s.draws
    ∧ (abandonPayload s).sram = s.sram ∧ (abandonPayload s).pins = s.pins ∧ (abandonPayload s).health = s.health
    ∧ (abandonPayload s).pacer = s.pacer ∧ (abandonPayload s).power = s.power ∧ (abandonPayload s).loader.phase = s.loader.phase
    ∧ (abandonPayload s).loader.flashCode = s.loader.flashCode ∧ (abandonPayload s).loader.map = s.loader.map
    ∧ (abandonPayload s).loader.linkClock = s.loader.linkClock ∧ (abandonPayload s).loader.defaultPolicy = s.loader.defaultPolicy
    ∧ (abandonPayload s).loader.policy = s.loader.policy ∧ (abandonPayload s).loader.readState = s.loader.readState
    ∧ (abandonPayload s).loader.readKind = s.loader.readKind ∧ (abandonPayload s).loader.dueAfterRestart = s.loader.dueAfterRestart
    ∧ (abandonPayload s).loader.firstHalf = s.loader.firstHalf ∧ (abandonPayload s).loader.pgenAtIssue = s.loader.pgenAtIssue
    ∧ (abandonPayload s).loader.softResetInForce = s.loader.softResetInForce
    ∧ (abandonPayload s).loader.counterClearInForce = s.loader.counterClearInForce
    ∧ (abandonPayload s).loader.shadowsLoaded = s.loader.shadowsLoaded ∧ (abandonPayload s).loader.softReset = s.loader.softReset
    ∧ (abandonPayload s).loader.softWait = s.loader.softWait ∧ (abandonPayload s).loader.softPositions = s.loader.softPositions
    ∧ (abandonPayload s).bus.shadows = s.bus.shadows ∧ (abandonPayload s).bus.txHorizon = s.bus.txHorizon
    ∧ (abandonPayload s).bus.rxHorizon = s.bus.rxHorizon ∧ (abandonPayload s).bus.fixedH = s.bus.fixedH
    ∧ (abandonPayload s).bus.fixedG = s.bus.fixedG ∧ (abandonPayload s).bus.uplinkView = s.bus.uplinkView
    ∧ (abandonPayload s).bus.receiveView = s.bus.receiveView ∧ (abandonPayload s).bus.uplinkViewValue = s.bus.uplinkViewValue
    ∧ (abandonPayload s).bus.receiveViewValue = s.bus.receiveViewValue ∧ (abandonPayload s).bus.txGuard = s.bus.txGuard
    ∧ (abandonPayload s).bus.rxGuard = s.bus.rxGuard ∧ (abandonPayload s).bus.queue = s.bus.queue
    ∧ (abandonPayload s).bus.waitCount = s.bus.waitCount ∧ (abandonPayload s).bus.gatewayData = s.bus.gatewayData
    ∧ (abandonPayload s).ring.base = s.ring.base ∧ (abandonPayload s).ring.partTxc = s.ring.partTxc
    ∧ (abandonPayload s).ring.readMark = s.ring.readMark ∧ (abandonPayload s).ring.descriptorRead = s.ring.descriptorRead
    ∧ (abandonPayload s).ring.fence = s.ring.fence ∧ (abandonPayload s).ring.overrun = s.ring.overrun
    ∧ (abandonPayload s).ring.txCheckDue = s.ring.txCheckDue ∧ (abandonPayload s).ring.scanRunning = s.ring.scanRunning
    ∧ (abandonPayload s).ring.scanMark = s.ring.scanMark ∧ (abandonPayload s).ring.scanRead = s.ring.scanRead
    ∧ (abandonPayload s).ring.txForcing = s.ring.txForcing ∧ (abandonPayload s).ring.rxForcing = s.ring.rxForcing
    ∧ (abandonPayload s).ring.handBackAsked = s.ring.handBackAsked ∧ (abandonPayload s).ring.fillCursor = s.ring.fillCursor
    ∧ (abandonPayload s).ring.partRxf = s.ring.partRxf ∧ (abandonPayload s).ring.delivery = s.ring.delivery
    ∧ (abandonPayload s).ring.descriptorHeld = s.ring.descriptorHeld ∧ (abandonPayload s).ring.rxOverrun = s.ring.rxOverrun
    ∧ (abandonPayload s).ring.rxCheckDue = s.ring.rxCheckDue ∧ (abandonPayload s).path.path = s.path.path
    ∧ (abandonPayload s).path.phase = s.path.phase ∧ (abandonPayload s).path.dwellD = s.path.dwellD
    ∧ (abandonPayload s).path.dwell = s.path.dwell ∧ (abandonPayload s).path.refallTimer = s.path.refallTimer
    ∧ (abandonPayload s).path.refallOpen = s.path.refallOpen ∧ (abandonPayload s).path.releaseTimer = s.path.releaseTimer
    ∧ (abandonPayload s).path.txReleased = s.path.txReleased ∧ (abandonPayload s).path.rxReleased = s.path.rxReleased
    ∧ (abandonPayload s).path.drainTimer = s.path.drainTimer ∧ (abandonPayload s).path.radioWanted = s.path.radioWanted
    ∧ (abandonPayload s).path.returnPause = s.path.returnPause ∧ (abandonPayload s).path.recorded = s.path.recorded
    ∧ (abandonPayload s).hold.cells = s.hold.cells ∧ (abandonPayload s).hold.uqE = s.hold.uqE ∧ (abandonPayload s).hold.uqV = s.hold.uqV
    ∧ (abandonPayload s).hold.uqD = s.hold.uqD ∧ (abandonPayload s).hold.dqV = s.hold.dqV ∧ (abandonPayload s).hold.dqD = s.hold.dqD
    ∧ (abandonPayload s).hold.sweep10 = s.hold.sweep10 ∧ (abandonPayload s).hold.sweep1s = s.hold.sweep1s
    ∧ (abandonPayload s).radio.failures = s.radio.failures ∧ (abandonPayload s).radio.lastCause = s.radio.lastCause
    ∧ (abandonPayload s).radio.cycleTimer = s.radio.cycleTimer ∧ (abandonPayload s).radio.silenceTimer = s.radio.silenceTimer
    ∧ (abandonPayload s).radio.grantUp = s.radio.grantUp ∧ (abandonPayload s).radio.grantDown = s.radio.grantDown
    ∧ (abandonPayload s).radio.grantQuality = s.radio.grantQuality ∧ (abandonPayload s).radio.slotA = s.radio.slotA
    ∧ (abandonPayload s).radio.slotB = s.radio.slotB ∧ (abandonPayload s).radio.unsent = s.radio.unsent
    ∧ (abandonPayload s).radio.pauseTold = s.radio.pauseTold ∧ (abandonPayload s).radio.capTold = s.radio.capTold
    ∧ (abandonPayload s).radio.lowPowerTold = s.radio.lowPowerTold ∧ (abandonPayload s).radio.ldo = s.radio.ldo
    ∧ (abandonPayload s).radio.ldoLast = s.radio.ldoLast ∧ (abandonPayload s).events.evp = s.events.evp
    ∧ (abandonPayload s).events.slotKinds = s.events.slotKinds ∧ (abandonPayload s).events.refreshCount = s.events.refreshCount
    ∧ (abandonPayload s).events.refreshTimer = s.events.refreshTimer ∧ (abandonPayload s).events.pageWriting = s.events.pageWriting
    ∧ (abandonPayload s).events.pageWanted = s.events.pageWanted ∧ (abandonPayload s).events.ledMs = s.events.ledMs := by unfold abandonPayload; (repeat' split) <;> simp

@[simp] theorem radioReport_frame (s : State) :
    (radioReport s).pending = s.pending ∧ (radioReport s).clock = s.clock ∧ (radioReport s).draws = s.draws ∧ (radioReport s).sram = s.sram
    ∧ (radioReport s).pins = s.pins ∧ (radioReport s).loader = s.loader ∧ (radioReport s).health = s.health ∧ (radioReport s).pacer = s.pacer
    ∧ (radioReport s).power = s.power ∧ (radioReport s).bus.shadows = s.bus.shadows ∧ (radioReport s).bus.txHorizon = s.bus.txHorizon
    ∧ (radioReport s).bus.rxHorizon = s.bus.rxHorizon ∧ (radioReport s).bus.fixedH = s.bus.fixedH ∧ (radioReport s).bus.fixedG = s.bus.fixedG
    ∧ (radioReport s).bus.uplinkView = s.bus.uplinkView ∧ (radioReport s).bus.receiveView = s.bus.receiveView
    ∧ (radioReport s).bus.uplinkViewValue = s.bus.uplinkViewValue ∧ (radioReport s).bus.receiveViewValue = s.bus.receiveViewValue
    ∧ (radioReport s).bus.txGuard = s.bus.txGuard ∧ (radioReport s).bus.rxGuard = s.bus.rxGuard ∧ (radioReport s).bus.queue = s.bus.queue
    ∧ (radioReport s).bus.waitCount = s.bus.waitCount ∧ (radioReport s).bus.gatewayData = s.bus.gatewayData
    ∧ (radioReport s).ring.base = s.ring.base ∧ (radioReport s).ring.partTxc = s.ring.partTxc ∧ (radioReport s).ring.overrun = s.ring.overrun
    ∧ (radioReport s).ring.txCheckDue = s.ring.txCheckDue ∧ (radioReport s).ring.scanRunning = s.ring.scanRunning
    ∧ (radioReport s).ring.scanMark = s.ring.scanMark ∧ (radioReport s).ring.scanRead = s.ring.scanRead
    ∧ (radioReport s).ring.txForcing = s.ring.txForcing ∧ (radioReport s).ring.rxForcing = s.ring.rxForcing
    ∧ (radioReport s).ring.handBackAsked = s.ring.handBackAsked ∧ (radioReport s).ring.fillCursor = s.ring.fillCursor
    ∧ (radioReport s).ring.partRxf = s.ring.partRxf ∧ (radioReport s).ring.delivery = s.ring.delivery
    ∧ (radioReport s).ring.descriptorHeld = s.ring.descriptorHeld ∧ (radioReport s).ring.rxOverrun = s.ring.rxOverrun
    ∧ (radioReport s).ring.rxCheckDue = s.ring.rxCheckDue ∧ (radioReport s).path.dwellD = s.path.dwellD
    ∧ (radioReport s).path.dwell = s.path.dwell ∧ (radioReport s).path.refallTimer = s.path.refallTimer
    ∧ (radioReport s).path.refallOpen = s.path.refallOpen ∧ (radioReport s).path.releaseTimer = s.path.releaseTimer
    ∧ (radioReport s).path.txReleased = s.path.txReleased ∧ (radioReport s).path.rxReleased = s.path.rxReleased
    ∧ (radioReport s).path.radioWanted = s.path.radioWanted ∧ (radioReport s).path.recorded = s.path.recorded
    ∧ (radioReport s).hold.cells = s.hold.cells ∧ (radioReport s).hold.uqE = s.hold.uqE ∧ (radioReport s).hold.uqV = s.hold.uqV
    ∧ (radioReport s).hold.uqD = s.hold.uqD ∧ (radioReport s).hold.dqV = s.hold.dqV ∧ (radioReport s).hold.dqD = s.hold.dqD
    ∧ (radioReport s).hold.onLdo = s.hold.onLdo ∧ (radioReport s).hold.sweep10 = s.hold.sweep10 ∧ (radioReport s).hold.sweep1s = s.hold.sweep1s
    ∧ (radioReport s).radio.failures = s.radio.failures ∧ (radioReport s).radio.lastCause = s.radio.lastCause
    ∧ (radioReport s).radio.cycleTimer = s.radio.cycleTimer ∧ (radioReport s).radio.silenceTimer = s.radio.silenceTimer
    ∧ (radioReport s).radio.grantUp = s.radio.grantUp ∧ (radioReport s).radio.grantDown = s.radio.grantDown
    ∧ (radioReport s).radio.grantQuality = s.radio.grantQuality ∧ (radioReport s).radio.slotA = s.radio.slotA
    ∧ (radioReport s).radio.slotB = s.radio.slotB ∧ (radioReport s).radio.unsent = s.radio.unsent
    ∧ (radioReport s).radio.pauseTold = s.radio.pauseTold ∧ (radioReport s).radio.capTold = s.radio.capTold
    ∧ (radioReport s).radio.lowPowerTold = s.radio.lowPowerTold ∧ (radioReport s).radio.ldo = s.radio.ldo
    ∧ (radioReport s).radio.ldoLast = s.radio.ldoLast ∧ (radioReport s).radio.receiver = s.radio.receiver
    ∧ (radioReport s).events.evp = s.events.evp ∧ (radioReport s).events.slotKinds = s.events.slotKinds
    ∧ (radioReport s).events.refreshCount = s.events.refreshCount ∧ (radioReport s).events.refreshTimer = s.events.refreshTimer
    ∧ (radioReport s).events.pageWriting = s.events.pageWriting ∧ (radioReport s).events.counters = s.events.counters
    ∧ (radioReport s).events.ledMs = s.events.ledMs := by unfold radioReport; (repeat' split) <;> simp

@[simp] theorem statusIssued_frame (s : State) :
    (statusIssued s).pending = s.pending ∧ (statusIssued s).clock = s.clock ∧ (statusIssued s).draws = s.draws ∧ (statusIssued s).sram = s.sram
    ∧ (statusIssued s).pins = s.pins ∧ (statusIssued s).loader.phase = s.loader.phase
    ∧ (statusIssued s).loader.flashCode = s.loader.flashCode ∧ (statusIssued s).loader.map = s.loader.map
    ∧ (statusIssued s).loader.linkClock = s.loader.linkClock ∧ (statusIssued s).loader.defaultPolicy = s.loader.defaultPolicy
    ∧ (statusIssued s).loader.policy = s.loader.policy ∧ (statusIssued s).loader.readState = s.loader.readState
    ∧ (statusIssued s).loader.readKind = s.loader.readKind ∧ (statusIssued s).loader.dueAfterRestart = s.loader.dueAfterRestart
    ∧ (statusIssued s).loader.firstHalf = s.loader.firstHalf ∧ (statusIssued s).loader.pgenAtIssue = s.loader.pgenAtIssue
    ∧ (statusIssued s).loader.softResetInForce = s.loader.softResetInForce
    ∧ (statusIssued s).loader.counterClearInForce = s.loader.counterClearInForce
    ∧ (statusIssued s).loader.shadowsLoaded = s.loader.shadowsLoaded ∧ (statusIssued s).loader.softReset = s.loader.softReset
    ∧ (statusIssued s).loader.softWait = s.loader.softWait ∧ (statusIssued s).loader.softPositions = s.loader.softPositions
    ∧ (statusIssued s).health = s.health ∧ (statusIssued s).pacer = s.pacer
    ∧ (statusIssued s).power = s.power ∧ (statusIssued s).bus.shadows = s.bus.shadows ∧ (statusIssued s).bus.txHorizon = s.bus.txHorizon
    ∧ (statusIssued s).bus.rxHorizon = s.bus.rxHorizon ∧ (statusIssued s).bus.fixedH = s.bus.fixedH ∧ (statusIssued s).bus.fixedG = s.bus.fixedG
    ∧ (statusIssued s).bus.uplinkView = s.bus.uplinkView ∧ (statusIssued s).bus.receiveView = s.bus.receiveView
    ∧ (statusIssued s).bus.uplinkViewValue = s.bus.uplinkViewValue ∧ (statusIssued s).bus.receiveViewValue = s.bus.receiveViewValue
    ∧ (statusIssued s).bus.txGuard = s.bus.txGuard ∧ (statusIssued s).bus.rxGuard = s.bus.rxGuard ∧ (statusIssued s).bus.queue = s.bus.queue
    ∧ (statusIssued s).bus.waitCount = s.bus.waitCount ∧ (statusIssued s).bus.gatewayData = s.bus.gatewayData
    ∧ (statusIssued s).ring.base = s.ring.base ∧ (statusIssued s).ring.partTxc = s.ring.partTxc
    ∧ (statusIssued s).ring.readMark = s.ring.readMark ∧ (statusIssued s).ring.descriptorRead = s.ring.descriptorRead
    ∧ (statusIssued s).ring.fence = s.ring.fence ∧ (statusIssued s).ring.overrun = s.ring.overrun
    ∧ (statusIssued s).ring.txCheckDue = s.ring.txCheckDue ∧ (statusIssued s).ring.scanRunning = s.ring.scanRunning
    ∧ (statusIssued s).ring.scanMark = s.ring.scanMark ∧ (statusIssued s).ring.scanRead = s.ring.scanRead
    ∧ (statusIssued s).ring.txForcing = s.ring.txForcing ∧ (statusIssued s).ring.rxForcing = s.ring.rxForcing
    ∧ (statusIssued s).ring.handBackAsked = s.ring.handBackAsked ∧ (statusIssued s).ring.partRxf = s.ring.partRxf
    ∧ (statusIssued s).ring.descriptorHeld = s.ring.descriptorHeld ∧ (statusIssued s).ring.rxOverrun = s.ring.rxOverrun
    ∧ (statusIssued s).ring.rxCheckDue = s.ring.rxCheckDue ∧ (statusIssued s).path.path = s.path.path
    ∧ (statusIssued s).path.phase = s.path.phase ∧ (statusIssued s).path.dwellD = s.path.dwellD ∧ (statusIssued s).path.dwell = s.path.dwell
    ∧ (statusIssued s).path.refallTimer = s.path.refallTimer ∧ (statusIssued s).path.refallOpen = s.path.refallOpen
    ∧ (statusIssued s).path.releaseTimer = s.path.releaseTimer ∧ (statusIssued s).path.txReleased = s.path.txReleased
    ∧ (statusIssued s).path.rxReleased = s.path.rxReleased ∧ (statusIssued s).path.drainTimer = s.path.drainTimer
    ∧ (statusIssued s).path.radioWanted = s.path.radioWanted ∧ (statusIssued s).path.returnPause = s.path.returnPause
    ∧ (statusIssued s).path.recorded = s.path.recorded ∧ (statusIssued s).hold.cells = s.hold.cells ∧ (statusIssued s).hold.uqE = s.hold.uqE
    ∧ (statusIssued s).hold.uqV = s.hold.uqV ∧ (statusIssued s).hold.uqD = s.hold.uqD ∧ (statusIssued s).hold.dqV = s.hold.dqV
    ∧ (statusIssued s).hold.dqD = s.hold.dqD ∧ (statusIssued s).hold.sweep10 = s.hold.sweep10 ∧ (statusIssued s).hold.sweep1s = s.hold.sweep1s
    ∧ (statusIssued s).radio.failures = s.radio.failures ∧ (statusIssued s).radio.lastCause = s.radio.lastCause
    ∧ (statusIssued s).radio.cycleTimer = s.radio.cycleTimer ∧ (statusIssued s).radio.silenceTimer = s.radio.silenceTimer
    ∧ (statusIssued s).radio.grantUp = s.radio.grantUp ∧ (statusIssued s).radio.grantDown = s.radio.grantDown
    ∧ (statusIssued s).radio.grantQuality = s.radio.grantQuality ∧ (statusIssued s).radio.slotA = s.radio.slotA
    ∧ (statusIssued s).radio.slotB = s.radio.slotB ∧ (statusIssued s).radio.unsent = s.radio.unsent
    ∧ (statusIssued s).radio.pauseTold = s.radio.pauseTold ∧ (statusIssued s).radio.capTold = s.radio.capTold
    ∧ (statusIssued s).radio.lowPowerTold = s.radio.lowPowerTold ∧ (statusIssued s).radio.ldo = s.radio.ldo
    ∧ (statusIssued s).radio.ldoLast = s.radio.ldoLast ∧ (statusIssued s).radio.receiver = s.radio.receiver
    ∧ (statusIssued s).events.entries = s.events.entries ∧ (statusIssued s).events.evp = s.events.evp
    ∧ (statusIssued s).events.slotKinds = s.events.slotKinds ∧ (statusIssued s).events.refreshCount = s.events.refreshCount
    ∧ (statusIssued s).events.refreshTimer = s.events.refreshTimer ∧ (statusIssued s).events.pageWriting = s.events.pageWriting
    ∧ (statusIssued s).events.pageWanted = s.events.pageWanted ∧ (statusIssued s).events.ledMs = s.events.ledMs := by simp only [statusIssued]; (repeat' split) <;> simp

@[simp] theorem payloadEnds_frame (r : FrameRecord) (fate : ReceiveFate) (s : State) :
    (payloadEnds r fate s).pending = s.pending ∧ (payloadEnds r fate s).clock = s.clock ∧ (payloadEnds r fate s).draws = s.draws
    ∧ (payloadEnds r fate s).sram = s.sram ∧ (payloadEnds r fate s).pins = s.pins ∧ (payloadEnds r fate s).health = s.health
    ∧ (payloadEnds r fate s).loader.phase = s.loader.phase ∧ (payloadEnds r fate s).loader.flashCode = s.loader.flashCode
    ∧ (payloadEnds r fate s).loader.map = s.loader.map ∧ (payloadEnds r fate s).loader.linkClock = s.loader.linkClock
    ∧ (payloadEnds r fate s).loader.defaultPolicy = s.loader.defaultPolicy ∧ (payloadEnds r fate s).loader.policy = s.loader.policy
    ∧ (payloadEnds r fate s).loader.readState = s.loader.readState ∧ (payloadEnds r fate s).loader.readKind = s.loader.readKind
    ∧ (payloadEnds r fate s).loader.dueAfterRestart = s.loader.dueAfterRestart ∧ (payloadEnds r fate s).loader.firstHalf = s.loader.firstHalf
    ∧ (payloadEnds r fate s).loader.pgenAtIssue = s.loader.pgenAtIssue
    ∧ (payloadEnds r fate s).loader.softResetInForce = s.loader.softResetInForce
    ∧ (payloadEnds r fate s).loader.counterClearInForce = s.loader.counterClearInForce
    ∧ (payloadEnds r fate s).loader.shadowsLoaded = s.loader.shadowsLoaded ∧ (payloadEnds r fate s).loader.softReset = s.loader.softReset
    ∧ (payloadEnds r fate s).loader.softWait = s.loader.softWait ∧ (payloadEnds r fate s).loader.softPositions = s.loader.softPositions
    ∧ (payloadEnds r fate s).bus.shadows = s.bus.shadows ∧ (payloadEnds r fate s).bus.txHorizon = s.bus.txHorizon
    ∧ (payloadEnds r fate s).bus.rxHorizon = s.bus.rxHorizon ∧ (payloadEnds r fate s).bus.fixedH = s.bus.fixedH
    ∧ (payloadEnds r fate s).bus.fixedG = s.bus.fixedG ∧ (payloadEnds r fate s).bus.uplinkView = s.bus.uplinkView
    ∧ (payloadEnds r fate s).bus.receiveView = s.bus.receiveView ∧ (payloadEnds r fate s).bus.uplinkViewValue = s.bus.uplinkViewValue
    ∧ (payloadEnds r fate s).bus.receiveViewValue = s.bus.receiveViewValue ∧ (payloadEnds r fate s).bus.txGuard = s.bus.txGuard
    ∧ (payloadEnds r fate s).bus.rxGuard = s.bus.rxGuard ∧ (payloadEnds r fate s).bus.queue = s.bus.queue
    ∧ (payloadEnds r fate s).bus.waitCount = s.bus.waitCount ∧ (payloadEnds r fate s).bus.gatewayData = s.bus.gatewayData
    ∧ (payloadEnds r fate s).ring.base = s.ring.base ∧ (payloadEnds r fate s).ring.partTxc = s.ring.partTxc
    ∧ (payloadEnds r fate s).ring.readMark = s.ring.readMark ∧ (payloadEnds r fate s).ring.descriptorRead = s.ring.descriptorRead
    ∧ (payloadEnds r fate s).ring.fence = s.ring.fence ∧ (payloadEnds r fate s).ring.overrun = s.ring.overrun
    ∧ (payloadEnds r fate s).ring.txCheckDue = s.ring.txCheckDue ∧ (payloadEnds r fate s).ring.scanRunning = s.ring.scanRunning
    ∧ (payloadEnds r fate s).ring.scanMark = s.ring.scanMark ∧ (payloadEnds r fate s).ring.scanRead = s.ring.scanRead
    ∧ (payloadEnds r fate s).ring.txForcing = s.ring.txForcing ∧ (payloadEnds r fate s).ring.rxForcing = s.ring.rxForcing
    ∧ (payloadEnds r fate s).ring.handBackAsked = s.ring.handBackAsked ∧ (payloadEnds r fate s).ring.fillCursor = s.ring.fillCursor
    ∧ (payloadEnds r fate s).ring.partRxf = s.ring.partRxf ∧ (payloadEnds r fate s).ring.delivery = s.ring.delivery
    ∧ (payloadEnds r fate s).ring.descriptorHeld = s.ring.descriptorHeld ∧ (payloadEnds r fate s).ring.rxOverrun = s.ring.rxOverrun
    ∧ (payloadEnds r fate s).ring.rxCheckDue = s.ring.rxCheckDue ∧ (payloadEnds r fate s).path.path = s.path.path
    ∧ (payloadEnds r fate s).path.phase = s.path.phase ∧ (payloadEnds r fate s).path.dwellD = s.path.dwellD
    ∧ (payloadEnds r fate s).path.dwell = s.path.dwell ∧ (payloadEnds r fate s).path.refallTimer = s.path.refallTimer
    ∧ (payloadEnds r fate s).path.refallOpen = s.path.refallOpen ∧ (payloadEnds r fate s).path.releaseTimer = s.path.releaseTimer
    ∧ (payloadEnds r fate s).path.txReleased = s.path.txReleased ∧ (payloadEnds r fate s).path.rxReleased = s.path.rxReleased
    ∧ (payloadEnds r fate s).path.drainTimer = s.path.drainTimer ∧ (payloadEnds r fate s).path.radioWanted = s.path.radioWanted
    ∧ (payloadEnds r fate s).path.returnPause = s.path.returnPause ∧ (payloadEnds r fate s).path.recorded = s.path.recorded
    ∧ (payloadEnds r fate s).hold.cells = s.hold.cells ∧ (payloadEnds r fate s).hold.sweep10 = s.hold.sweep10
    ∧ (payloadEnds r fate s).hold.sweep1s = s.hold.sweep1s ∧ (payloadEnds r fate s).pacer.credit = s.pacer.credit
    ∧ (payloadEnds r fate s).pacer.pacing = s.pacer.pacing ∧ (payloadEnds r fate s).pacer.refusalPause = s.pacer.refusalPause
    ∧ (payloadEnds r fate s).pacer.chargeA = s.pacer.chargeA ∧ (payloadEnds r fate s).pacer.chargeB = s.pacer.chargeB
    ∧ (payloadEnds r fate s).pacer.grantSeen = s.pacer.grantSeen ∧ (payloadEnds r fate s).pacer.usageBase = s.pacer.usageBase
    ∧ (payloadEnds r fate s).radio.failures = s.radio.failures ∧ (payloadEnds r fate s).radio.lastCause = s.radio.lastCause
    ∧ (payloadEnds r fate s).radio.cycleTimer = s.radio.cycleTimer ∧ (payloadEnds r fate s).radio.silenceTimer = s.radio.silenceTimer
    ∧ (payloadEnds r fate s).radio.grantUp = s.radio.grantUp ∧ (payloadEnds r fate s).radio.grantDown = s.radio.grantDown
    ∧ (payloadEnds r fate s).radio.grantQuality = s.radio.grantQuality ∧ (payloadEnds r fate s).radio.slotA = s.radio.slotA
    ∧ (payloadEnds r fate s).radio.slotB = s.radio.slotB ∧ (payloadEnds r fate s).radio.unsent = s.radio.unsent
    ∧ (payloadEnds r fate s).radio.pauseTold = s.radio.pauseTold ∧ (payloadEnds r fate s).radio.capTold = s.radio.capTold
    ∧ (payloadEnds r fate s).radio.lowPowerTold = s.radio.lowPowerTold ∧ (payloadEnds r fate s).radio.ldoLast = s.radio.ldoLast
    ∧ (payloadEnds r fate s).radio.receiver = s.radio.receiver ∧ (payloadEnds r fate s).power.mode = s.power.mode
    ∧ (payloadEnds r fate s).power.mainsReturn = s.power.mainsReturn ∧ (payloadEnds r fate s).power.quiet = s.power.quiet
    ∧ (payloadEnds r fate s).power.dozeTimer = s.power.dozeTimer ∧ (payloadEnds r fate s).power.restart = s.power.restart
    ∧ (payloadEnds r fate s).power.latch = s.power.latch ∧ (payloadEnds r fate s).events.evp = s.events.evp
    ∧ (payloadEnds r fate s).events.slotKinds = s.events.slotKinds ∧ (payloadEnds r fate s).events.refreshCount = s.events.refreshCount
    ∧ (payloadEnds r fate s).events.refreshTimer = s.events.refreshTimer ∧ (payloadEnds r fate s).events.pageWriting = s.events.pageWriting
    ∧ (payloadEnds r fate s).events.pageWanted = s.events.pageWanted ∧ (payloadEnds r fate s).events.ledMs = s.events.ledMs := by unfold payloadEnds; (repeat' split) <;> simp

@[simp] theorem dropOldUqE_frame (s : State) :
    (dropOldUqE s).pending = s.pending ∧ (dropOldUqE s).clock = s.clock ∧ (dropOldUqE s).draws = s.draws ∧ (dropOldUqE s).sram = s.sram
    ∧ (dropOldUqE s).pins = s.pins ∧ (dropOldUqE s).loader = s.loader ∧ (dropOldUqE s).health = s.health ∧ (dropOldUqE s).pacer = s.pacer
    ∧ (dropOldUqE s).power = s.power ∧ (dropOldUqE s).bus.shadows = s.bus.shadows ∧ (dropOldUqE s).bus.txHorizon = s.bus.txHorizon
    ∧ (dropOldUqE s).bus.rxHorizon = s.bus.rxHorizon ∧ (dropOldUqE s).bus.fixedH = s.bus.fixedH ∧ (dropOldUqE s).bus.fixedG = s.bus.fixedG
    ∧ (dropOldUqE s).bus.uplinkView = s.bus.uplinkView ∧ (dropOldUqE s).bus.receiveView = s.bus.receiveView
    ∧ (dropOldUqE s).bus.uplinkViewValue = s.bus.uplinkViewValue ∧ (dropOldUqE s).bus.receiveViewValue = s.bus.receiveViewValue
    ∧ (dropOldUqE s).bus.txGuard = s.bus.txGuard ∧ (dropOldUqE s).bus.rxGuard = s.bus.rxGuard ∧ (dropOldUqE s).bus.queue = s.bus.queue
    ∧ (dropOldUqE s).bus.waitCount = s.bus.waitCount ∧ (dropOldUqE s).bus.gatewayData = s.bus.gatewayData
    ∧ (dropOldUqE s).ring.base = s.ring.base ∧ (dropOldUqE s).ring.partTxc = s.ring.partTxc ∧ (dropOldUqE s).ring.readMark = s.ring.readMark
    ∧ (dropOldUqE s).ring.descriptorRead = s.ring.descriptorRead ∧ (dropOldUqE s).ring.fence = s.ring.fence
    ∧ (dropOldUqE s).ring.overrun = s.ring.overrun ∧ (dropOldUqE s).ring.txCheckDue = s.ring.txCheckDue
    ∧ (dropOldUqE s).ring.scanRunning = s.ring.scanRunning ∧ (dropOldUqE s).ring.scanMark = s.ring.scanMark
    ∧ (dropOldUqE s).ring.scanRead = s.ring.scanRead ∧ (dropOldUqE s).ring.txForcing = s.ring.txForcing
    ∧ (dropOldUqE s).ring.rxForcing = s.ring.rxForcing ∧ (dropOldUqE s).ring.handBackAsked = s.ring.handBackAsked
    ∧ (dropOldUqE s).ring.fillCursor = s.ring.fillCursor ∧ (dropOldUqE s).ring.partRxf = s.ring.partRxf
    ∧ (dropOldUqE s).ring.delivery = s.ring.delivery ∧ (dropOldUqE s).ring.descriptorHeld = s.ring.descriptorHeld
    ∧ (dropOldUqE s).ring.rxOverrun = s.ring.rxOverrun ∧ (dropOldUqE s).ring.rxCheckDue = s.ring.rxCheckDue
    ∧ (dropOldUqE s).path.path = s.path.path ∧ (dropOldUqE s).path.phase = s.path.phase ∧ (dropOldUqE s).path.dwellD = s.path.dwellD
    ∧ (dropOldUqE s).path.dwell = s.path.dwell ∧ (dropOldUqE s).path.refallTimer = s.path.refallTimer
    ∧ (dropOldUqE s).path.refallOpen = s.path.refallOpen ∧ (dropOldUqE s).path.releaseTimer = s.path.releaseTimer
    ∧ (dropOldUqE s).path.txReleased = s.path.txReleased ∧ (dropOldUqE s).path.rxReleased = s.path.rxReleased
    ∧ (dropOldUqE s).path.drainTimer = s.path.drainTimer ∧ (dropOldUqE s).path.radioWanted = s.path.radioWanted
    ∧ (dropOldUqE s).path.returnPause = s.path.returnPause ∧ (dropOldUqE s).path.recorded = s.path.recorded
    ∧ (dropOldUqE s).hold.cells = s.hold.cells ∧ (dropOldUqE s).hold.uqV = s.hold.uqV ∧ (dropOldUqE s).hold.uqD = s.hold.uqD
    ∧ (dropOldUqE s).hold.dqV = s.hold.dqV ∧ (dropOldUqE s).hold.dqD = s.hold.dqD ∧ (dropOldUqE s).hold.sweep10 = s.hold.sweep10
    ∧ (dropOldUqE s).hold.sweep1s = s.hold.sweep1s ∧ (dropOldUqE s).radio.failures = s.radio.failures
    ∧ (dropOldUqE s).radio.lastCause = s.radio.lastCause ∧ (dropOldUqE s).radio.cycleTimer = s.radio.cycleTimer
    ∧ (dropOldUqE s).radio.silenceTimer = s.radio.silenceTimer ∧ (dropOldUqE s).radio.grantUp = s.radio.grantUp
    ∧ (dropOldUqE s).radio.grantDown = s.radio.grantDown ∧ (dropOldUqE s).radio.grantQuality = s.radio.grantQuality
    ∧ (dropOldUqE s).radio.slotA = s.radio.slotA ∧ (dropOldUqE s).radio.slotB = s.radio.slotB ∧ (dropOldUqE s).radio.unsent = s.radio.unsent
    ∧ (dropOldUqE s).radio.pauseTold = s.radio.pauseTold ∧ (dropOldUqE s).radio.capTold = s.radio.capTold
    ∧ (dropOldUqE s).radio.lowPowerTold = s.radio.lowPowerTold ∧ (dropOldUqE s).radio.ldo = s.radio.ldo
    ∧ (dropOldUqE s).radio.ldoLast = s.radio.ldoLast ∧ (dropOldUqE s).radio.receiver = s.radio.receiver
    ∧ (dropOldUqE s).events.evp = s.events.evp ∧ (dropOldUqE s).events.slotKinds = s.events.slotKinds
    ∧ (dropOldUqE s).events.refreshCount = s.events.refreshCount ∧ (dropOldUqE s).events.refreshTimer = s.events.refreshTimer
    ∧ (dropOldUqE s).events.pageWriting = s.events.pageWriting ∧ (dropOldUqE s).events.pageWanted = s.events.pageWanted
    ∧ (dropOldUqE s).events.ledMs = s.events.ledMs := by simp [dropOldUqE]

@[simp] theorem dropOldUqV_frame (s : State) :
    (dropOldUqV s).pending = s.pending ∧ (dropOldUqV s).clock = s.clock ∧ (dropOldUqV s).draws = s.draws ∧ (dropOldUqV s).sram = s.sram
    ∧ (dropOldUqV s).pins = s.pins ∧ (dropOldUqV s).loader = s.loader ∧ (dropOldUqV s).health = s.health ∧ (dropOldUqV s).pacer = s.pacer
    ∧ (dropOldUqV s).power = s.power ∧ (dropOldUqV s).bus.shadows = s.bus.shadows ∧ (dropOldUqV s).bus.txHorizon = s.bus.txHorizon
    ∧ (dropOldUqV s).bus.rxHorizon = s.bus.rxHorizon ∧ (dropOldUqV s).bus.fixedH = s.bus.fixedH ∧ (dropOldUqV s).bus.fixedG = s.bus.fixedG
    ∧ (dropOldUqV s).bus.uplinkView = s.bus.uplinkView ∧ (dropOldUqV s).bus.receiveView = s.bus.receiveView
    ∧ (dropOldUqV s).bus.uplinkViewValue = s.bus.uplinkViewValue ∧ (dropOldUqV s).bus.receiveViewValue = s.bus.receiveViewValue
    ∧ (dropOldUqV s).bus.txGuard = s.bus.txGuard ∧ (dropOldUqV s).bus.rxGuard = s.bus.rxGuard ∧ (dropOldUqV s).bus.queue = s.bus.queue
    ∧ (dropOldUqV s).bus.waitCount = s.bus.waitCount ∧ (dropOldUqV s).bus.gatewayData = s.bus.gatewayData
    ∧ (dropOldUqV s).ring.base = s.ring.base ∧ (dropOldUqV s).ring.partTxc = s.ring.partTxc ∧ (dropOldUqV s).ring.readMark = s.ring.readMark
    ∧ (dropOldUqV s).ring.descriptorRead = s.ring.descriptorRead ∧ (dropOldUqV s).ring.fence = s.ring.fence
    ∧ (dropOldUqV s).ring.overrun = s.ring.overrun ∧ (dropOldUqV s).ring.txCheckDue = s.ring.txCheckDue
    ∧ (dropOldUqV s).ring.scanRunning = s.ring.scanRunning ∧ (dropOldUqV s).ring.scanMark = s.ring.scanMark
    ∧ (dropOldUqV s).ring.scanRead = s.ring.scanRead ∧ (dropOldUqV s).ring.txForcing = s.ring.txForcing
    ∧ (dropOldUqV s).ring.rxForcing = s.ring.rxForcing ∧ (dropOldUqV s).ring.handBackAsked = s.ring.handBackAsked
    ∧ (dropOldUqV s).ring.fillCursor = s.ring.fillCursor ∧ (dropOldUqV s).ring.partRxf = s.ring.partRxf
    ∧ (dropOldUqV s).ring.delivery = s.ring.delivery ∧ (dropOldUqV s).ring.descriptorHeld = s.ring.descriptorHeld
    ∧ (dropOldUqV s).ring.rxOverrun = s.ring.rxOverrun ∧ (dropOldUqV s).ring.rxCheckDue = s.ring.rxCheckDue
    ∧ (dropOldUqV s).path.path = s.path.path ∧ (dropOldUqV s).path.phase = s.path.phase ∧ (dropOldUqV s).path.dwellD = s.path.dwellD
    ∧ (dropOldUqV s).path.dwell = s.path.dwell ∧ (dropOldUqV s).path.refallTimer = s.path.refallTimer
    ∧ (dropOldUqV s).path.refallOpen = s.path.refallOpen ∧ (dropOldUqV s).path.releaseTimer = s.path.releaseTimer
    ∧ (dropOldUqV s).path.txReleased = s.path.txReleased ∧ (dropOldUqV s).path.rxReleased = s.path.rxReleased
    ∧ (dropOldUqV s).path.drainTimer = s.path.drainTimer ∧ (dropOldUqV s).path.radioWanted = s.path.radioWanted
    ∧ (dropOldUqV s).path.returnPause = s.path.returnPause ∧ (dropOldUqV s).path.recorded = s.path.recorded
    ∧ (dropOldUqV s).hold.cells = s.hold.cells ∧ (dropOldUqV s).hold.uqE = s.hold.uqE ∧ (dropOldUqV s).hold.uqD = s.hold.uqD
    ∧ (dropOldUqV s).hold.dqV = s.hold.dqV ∧ (dropOldUqV s).hold.dqD = s.hold.dqD ∧ (dropOldUqV s).hold.sweep10 = s.hold.sweep10
    ∧ (dropOldUqV s).hold.sweep1s = s.hold.sweep1s ∧ (dropOldUqV s).radio.failures = s.radio.failures
    ∧ (dropOldUqV s).radio.lastCause = s.radio.lastCause ∧ (dropOldUqV s).radio.cycleTimer = s.radio.cycleTimer
    ∧ (dropOldUqV s).radio.silenceTimer = s.radio.silenceTimer ∧ (dropOldUqV s).radio.grantUp = s.radio.grantUp
    ∧ (dropOldUqV s).radio.grantDown = s.radio.grantDown ∧ (dropOldUqV s).radio.grantQuality = s.radio.grantQuality
    ∧ (dropOldUqV s).radio.slotA = s.radio.slotA ∧ (dropOldUqV s).radio.slotB = s.radio.slotB ∧ (dropOldUqV s).radio.unsent = s.radio.unsent
    ∧ (dropOldUqV s).radio.pauseTold = s.radio.pauseTold ∧ (dropOldUqV s).radio.capTold = s.radio.capTold
    ∧ (dropOldUqV s).radio.lowPowerTold = s.radio.lowPowerTold ∧ (dropOldUqV s).radio.ldo = s.radio.ldo
    ∧ (dropOldUqV s).radio.ldoLast = s.radio.ldoLast ∧ (dropOldUqV s).radio.receiver = s.radio.receiver
    ∧ (dropOldUqV s).events.evp = s.events.evp ∧ (dropOldUqV s).events.slotKinds = s.events.slotKinds
    ∧ (dropOldUqV s).events.refreshCount = s.events.refreshCount ∧ (dropOldUqV s).events.refreshTimer = s.events.refreshTimer
    ∧ (dropOldUqV s).events.pageWriting = s.events.pageWriting ∧ (dropOldUqV s).events.pageWanted = s.events.pageWanted
    ∧ (dropOldUqV s).events.ledMs = s.events.ledMs := by simp [dropOldUqV]

@[simp] theorem dropOldDqV_frame (s : State) :
    (dropOldDqV s).pending = s.pending ∧ (dropOldDqV s).clock = s.clock ∧ (dropOldDqV s).draws = s.draws ∧ (dropOldDqV s).sram = s.sram
    ∧ (dropOldDqV s).pins = s.pins ∧ (dropOldDqV s).loader = s.loader ∧ (dropOldDqV s).health = s.health ∧ (dropOldDqV s).pacer = s.pacer
    ∧ (dropOldDqV s).power = s.power ∧ (dropOldDqV s).bus.shadows = s.bus.shadows ∧ (dropOldDqV s).bus.txHorizon = s.bus.txHorizon
    ∧ (dropOldDqV s).bus.rxHorizon = s.bus.rxHorizon ∧ (dropOldDqV s).bus.fixedH = s.bus.fixedH ∧ (dropOldDqV s).bus.fixedG = s.bus.fixedG
    ∧ (dropOldDqV s).bus.uplinkView = s.bus.uplinkView ∧ (dropOldDqV s).bus.receiveView = s.bus.receiveView
    ∧ (dropOldDqV s).bus.uplinkViewValue = s.bus.uplinkViewValue ∧ (dropOldDqV s).bus.receiveViewValue = s.bus.receiveViewValue
    ∧ (dropOldDqV s).bus.txGuard = s.bus.txGuard ∧ (dropOldDqV s).bus.rxGuard = s.bus.rxGuard ∧ (dropOldDqV s).bus.queue = s.bus.queue
    ∧ (dropOldDqV s).bus.waitCount = s.bus.waitCount ∧ (dropOldDqV s).bus.gatewayData = s.bus.gatewayData
    ∧ (dropOldDqV s).ring.base = s.ring.base ∧ (dropOldDqV s).ring.partTxc = s.ring.partTxc ∧ (dropOldDqV s).ring.readMark = s.ring.readMark
    ∧ (dropOldDqV s).ring.descriptorRead = s.ring.descriptorRead ∧ (dropOldDqV s).ring.fence = s.ring.fence
    ∧ (dropOldDqV s).ring.overrun = s.ring.overrun ∧ (dropOldDqV s).ring.txCheckDue = s.ring.txCheckDue
    ∧ (dropOldDqV s).ring.scanRunning = s.ring.scanRunning ∧ (dropOldDqV s).ring.scanMark = s.ring.scanMark
    ∧ (dropOldDqV s).ring.scanRead = s.ring.scanRead ∧ (dropOldDqV s).ring.txForcing = s.ring.txForcing
    ∧ (dropOldDqV s).ring.rxForcing = s.ring.rxForcing ∧ (dropOldDqV s).ring.handBackAsked = s.ring.handBackAsked
    ∧ (dropOldDqV s).ring.fillCursor = s.ring.fillCursor ∧ (dropOldDqV s).ring.partRxf = s.ring.partRxf
    ∧ (dropOldDqV s).ring.delivery = s.ring.delivery ∧ (dropOldDqV s).ring.descriptorHeld = s.ring.descriptorHeld
    ∧ (dropOldDqV s).ring.rxOverrun = s.ring.rxOverrun ∧ (dropOldDqV s).ring.rxCheckDue = s.ring.rxCheckDue
    ∧ (dropOldDqV s).path.path = s.path.path ∧ (dropOldDqV s).path.phase = s.path.phase ∧ (dropOldDqV s).path.dwellD = s.path.dwellD
    ∧ (dropOldDqV s).path.dwell = s.path.dwell ∧ (dropOldDqV s).path.refallTimer = s.path.refallTimer
    ∧ (dropOldDqV s).path.refallOpen = s.path.refallOpen ∧ (dropOldDqV s).path.releaseTimer = s.path.releaseTimer
    ∧ (dropOldDqV s).path.txReleased = s.path.txReleased ∧ (dropOldDqV s).path.rxReleased = s.path.rxReleased
    ∧ (dropOldDqV s).path.drainTimer = s.path.drainTimer ∧ (dropOldDqV s).path.radioWanted = s.path.radioWanted
    ∧ (dropOldDqV s).path.returnPause = s.path.returnPause ∧ (dropOldDqV s).path.recorded = s.path.recorded
    ∧ (dropOldDqV s).hold.cells = s.hold.cells ∧ (dropOldDqV s).hold.uqE = s.hold.uqE ∧ (dropOldDqV s).hold.uqV = s.hold.uqV
    ∧ (dropOldDqV s).hold.uqD = s.hold.uqD ∧ (dropOldDqV s).hold.dqD = s.hold.dqD ∧ (dropOldDqV s).hold.sweep10 = s.hold.sweep10
    ∧ (dropOldDqV s).hold.sweep1s = s.hold.sweep1s ∧ (dropOldDqV s).radio.failures = s.radio.failures
    ∧ (dropOldDqV s).radio.lastCause = s.radio.lastCause ∧ (dropOldDqV s).radio.cycleTimer = s.radio.cycleTimer
    ∧ (dropOldDqV s).radio.silenceTimer = s.radio.silenceTimer ∧ (dropOldDqV s).radio.grantUp = s.radio.grantUp
    ∧ (dropOldDqV s).radio.grantDown = s.radio.grantDown ∧ (dropOldDqV s).radio.grantQuality = s.radio.grantQuality
    ∧ (dropOldDqV s).radio.slotA = s.radio.slotA ∧ (dropOldDqV s).radio.slotB = s.radio.slotB ∧ (dropOldDqV s).radio.unsent = s.radio.unsent
    ∧ (dropOldDqV s).radio.pauseTold = s.radio.pauseTold ∧ (dropOldDqV s).radio.capTold = s.radio.capTold
    ∧ (dropOldDqV s).radio.lowPowerTold = s.radio.lowPowerTold ∧ (dropOldDqV s).radio.ldo = s.radio.ldo
    ∧ (dropOldDqV s).radio.ldoLast = s.radio.ldoLast ∧ (dropOldDqV s).radio.receiver = s.radio.receiver
    ∧ (dropOldDqV s).events.evp = s.events.evp ∧ (dropOldDqV s).events.slotKinds = s.events.slotKinds
    ∧ (dropOldDqV s).events.refreshCount = s.events.refreshCount ∧ (dropOldDqV s).events.refreshTimer = s.events.refreshTimer
    ∧ (dropOldDqV s).events.pageWriting = s.events.pageWriting ∧ (dropOldDqV s).events.pageWanted = s.events.pageWanted
    ∧ (dropOldDqV s).events.ledMs = s.events.ledMs := by simp [dropOldDqV]

@[simp] theorem sweepVoice_frame (s : State) :
    (sweepVoice s).pending = s.pending ∧ (sweepVoice s).clock = s.clock ∧ (sweepVoice s).draws = s.draws ∧ (sweepVoice s).sram = s.sram
    ∧ (sweepVoice s).pins = s.pins ∧ (sweepVoice s).loader = s.loader ∧ (sweepVoice s).health = s.health ∧ (sweepVoice s).pacer = s.pacer
    ∧ (sweepVoice s).power = s.power ∧ (sweepVoice s).bus.shadows = s.bus.shadows ∧ (sweepVoice s).bus.txHorizon = s.bus.txHorizon
    ∧ (sweepVoice s).bus.rxHorizon = s.bus.rxHorizon ∧ (sweepVoice s).bus.fixedH = s.bus.fixedH ∧ (sweepVoice s).bus.fixedG = s.bus.fixedG
    ∧ (sweepVoice s).bus.uplinkView = s.bus.uplinkView ∧ (sweepVoice s).bus.receiveView = s.bus.receiveView
    ∧ (sweepVoice s).bus.uplinkViewValue = s.bus.uplinkViewValue ∧ (sweepVoice s).bus.receiveViewValue = s.bus.receiveViewValue
    ∧ (sweepVoice s).bus.txGuard = s.bus.txGuard ∧ (sweepVoice s).bus.rxGuard = s.bus.rxGuard ∧ (sweepVoice s).bus.queue = s.bus.queue
    ∧ (sweepVoice s).bus.waitCount = s.bus.waitCount ∧ (sweepVoice s).bus.gatewayData = s.bus.gatewayData
    ∧ (sweepVoice s).ring.base = s.ring.base ∧ (sweepVoice s).ring.partTxc = s.ring.partTxc ∧ (sweepVoice s).ring.readMark = s.ring.readMark
    ∧ (sweepVoice s).ring.descriptorRead = s.ring.descriptorRead ∧ (sweepVoice s).ring.fence = s.ring.fence
    ∧ (sweepVoice s).ring.overrun = s.ring.overrun ∧ (sweepVoice s).ring.txCheckDue = s.ring.txCheckDue
    ∧ (sweepVoice s).ring.scanRunning = s.ring.scanRunning ∧ (sweepVoice s).ring.scanMark = s.ring.scanMark
    ∧ (sweepVoice s).ring.scanRead = s.ring.scanRead ∧ (sweepVoice s).ring.txForcing = s.ring.txForcing
    ∧ (sweepVoice s).ring.rxForcing = s.ring.rxForcing ∧ (sweepVoice s).ring.handBackAsked = s.ring.handBackAsked
    ∧ (sweepVoice s).ring.fillCursor = s.ring.fillCursor ∧ (sweepVoice s).ring.partRxf = s.ring.partRxf
    ∧ (sweepVoice s).ring.delivery = s.ring.delivery ∧ (sweepVoice s).ring.descriptorHeld = s.ring.descriptorHeld
    ∧ (sweepVoice s).ring.rxOverrun = s.ring.rxOverrun ∧ (sweepVoice s).ring.rxCheckDue = s.ring.rxCheckDue
    ∧ (sweepVoice s).path.path = s.path.path ∧ (sweepVoice s).path.phase = s.path.phase ∧ (sweepVoice s).path.dwellD = s.path.dwellD
    ∧ (sweepVoice s).path.dwell = s.path.dwell ∧ (sweepVoice s).path.refallTimer = s.path.refallTimer
    ∧ (sweepVoice s).path.refallOpen = s.path.refallOpen ∧ (sweepVoice s).path.releaseTimer = s.path.releaseTimer
    ∧ (sweepVoice s).path.txReleased = s.path.txReleased ∧ (sweepVoice s).path.rxReleased = s.path.rxReleased
    ∧ (sweepVoice s).path.drainTimer = s.path.drainTimer ∧ (sweepVoice s).path.radioWanted = s.path.radioWanted
    ∧ (sweepVoice s).path.returnPause = s.path.returnPause ∧ (sweepVoice s).path.recorded = s.path.recorded
    ∧ (sweepVoice s).hold.cells = s.hold.cells ∧ (sweepVoice s).hold.uqD = s.hold.uqD ∧ (sweepVoice s).hold.dqD = s.hold.dqD
    ∧ (sweepVoice s).hold.sweep10 = s.hold.sweep10 ∧ (sweepVoice s).hold.sweep1s = s.hold.sweep1s
    ∧ (sweepVoice s).radio.failures = s.radio.failures ∧ (sweepVoice s).radio.lastCause = s.radio.lastCause
    ∧ (sweepVoice s).radio.cycleTimer = s.radio.cycleTimer ∧ (sweepVoice s).radio.silenceTimer = s.radio.silenceTimer
    ∧ (sweepVoice s).radio.grantUp = s.radio.grantUp ∧ (sweepVoice s).radio.grantDown = s.radio.grantDown
    ∧ (sweepVoice s).radio.grantQuality = s.radio.grantQuality ∧ (sweepVoice s).radio.slotA = s.radio.slotA
    ∧ (sweepVoice s).radio.slotB = s.radio.slotB ∧ (sweepVoice s).radio.unsent = s.radio.unsent
    ∧ (sweepVoice s).radio.pauseTold = s.radio.pauseTold ∧ (sweepVoice s).radio.capTold = s.radio.capTold
    ∧ (sweepVoice s).radio.lowPowerTold = s.radio.lowPowerTold ∧ (sweepVoice s).radio.ldo = s.radio.ldo
    ∧ (sweepVoice s).radio.ldoLast = s.radio.ldoLast ∧ (sweepVoice s).radio.receiver = s.radio.receiver
    ∧ (sweepVoice s).events.evp = s.events.evp ∧ (sweepVoice s).events.slotKinds = s.events.slotKinds
    ∧ (sweepVoice s).events.refreshCount = s.events.refreshCount ∧ (sweepVoice s).events.refreshTimer = s.events.refreshTimer
    ∧ (sweepVoice s).events.pageWriting = s.events.pageWriting ∧ (sweepVoice s).events.pageWanted = s.events.pageWanted
    ∧ (sweepVoice s).events.ledMs = s.events.ledMs := by simp [sweepVoice]

@[simp] theorem discardAtReturn_frame (s : State) :
    (discardAtReturn s).pending = s.pending ∧ (discardAtReturn s).clock = s.clock ∧ (discardAtReturn s).draws = s.draws
    ∧ (discardAtReturn s).sram = s.sram ∧ (discardAtReturn s).pins = s.pins ∧ (discardAtReturn s).loader = s.loader
    ∧ (discardAtReturn s).health = s.health ∧ (discardAtReturn s).power = s.power ∧ (discardAtReturn s).bus.shadows = s.bus.shadows
    ∧ (discardAtReturn s).bus.txHorizon = s.bus.txHorizon ∧ (discardAtReturn s).bus.rxHorizon = s.bus.rxHorizon
    ∧ (discardAtReturn s).bus.fixedH = s.bus.fixedH ∧ (discardAtReturn s).bus.fixedG = s.bus.fixedG
    ∧ (discardAtReturn s).bus.uplinkView = s.bus.uplinkView ∧ (discardAtReturn s).bus.receiveView = s.bus.receiveView
    ∧ (discardAtReturn s).bus.uplinkViewValue = s.bus.uplinkViewValue ∧ (discardAtReturn s).bus.receiveViewValue = s.bus.receiveViewValue
    ∧ (discardAtReturn s).bus.txGuard = s.bus.txGuard ∧ (discardAtReturn s).bus.rxGuard = s.bus.rxGuard
    ∧ (discardAtReturn s).bus.queue = s.bus.queue ∧ (discardAtReturn s).bus.waitCount = s.bus.waitCount
    ∧ (discardAtReturn s).bus.gatewayData = s.bus.gatewayData ∧ (discardAtReturn s).ring.base = s.ring.base
    ∧ (discardAtReturn s).ring.partTxc = s.ring.partTxc ∧ (discardAtReturn s).ring.readMark = s.ring.readMark
    ∧ (discardAtReturn s).ring.descriptorRead = s.ring.descriptorRead ∧ (discardAtReturn s).ring.fence = s.ring.fence
    ∧ (discardAtReturn s).ring.overrun = s.ring.overrun ∧ (discardAtReturn s).ring.txCheckDue = s.ring.txCheckDue
    ∧ (discardAtReturn s).ring.scanRunning = s.ring.scanRunning ∧ (discardAtReturn s).ring.scanMark = s.ring.scanMark
    ∧ (discardAtReturn s).ring.scanRead = s.ring.scanRead ∧ (discardAtReturn s).ring.txForcing = s.ring.txForcing
    ∧ (discardAtReturn s).ring.rxForcing = s.ring.rxForcing ∧ (discardAtReturn s).ring.handBackAsked = s.ring.handBackAsked
    ∧ (discardAtReturn s).ring.fillCursor = s.ring.fillCursor ∧ (discardAtReturn s).ring.partRxf = s.ring.partRxf
    ∧ (discardAtReturn s).ring.delivery = s.ring.delivery ∧ (discardAtReturn s).ring.descriptorHeld = s.ring.descriptorHeld
    ∧ (discardAtReturn s).ring.rxOverrun = s.ring.rxOverrun ∧ (discardAtReturn s).ring.rxCheckDue = s.ring.rxCheckDue
    ∧ (discardAtReturn s).path.path = s.path.path ∧ (discardAtReturn s).path.phase = s.path.phase
    ∧ (discardAtReturn s).path.dwellD = s.path.dwellD ∧ (discardAtReturn s).path.dwell = s.path.dwell
    ∧ (discardAtReturn s).path.refallTimer = s.path.refallTimer ∧ (discardAtReturn s).path.refallOpen = s.path.refallOpen
    ∧ (discardAtReturn s).path.releaseTimer = s.path.releaseTimer ∧ (discardAtReturn s).path.txReleased = s.path.txReleased
    ∧ (discardAtReturn s).path.rxReleased = s.path.rxReleased ∧ (discardAtReturn s).path.drainTimer = s.path.drainTimer
    ∧ (discardAtReturn s).path.radioWanted = s.path.radioWanted ∧ (discardAtReturn s).path.returnPause = s.path.returnPause
    ∧ (discardAtReturn s).path.recorded = s.path.recorded ∧ (discardAtReturn s).hold.cells = s.hold.cells
    ∧ (discardAtReturn s).hold.sweep10 = s.hold.sweep10 ∧ (discardAtReturn s).hold.sweep1s = s.hold.sweep1s
    ∧ (discardAtReturn s).pacer.credit = s.pacer.credit ∧ (discardAtReturn s).pacer.pacing = s.pacer.pacing
    ∧ (discardAtReturn s).pacer.refusalPause = s.pacer.refusalPause ∧ (discardAtReturn s).pacer.grantSeen = s.pacer.grantSeen
    ∧ (discardAtReturn s).pacer.usageBase = s.pacer.usageBase ∧ (discardAtReturn s).pacer.carried = s.pacer.carried
    ∧ (discardAtReturn s).pacer.allowance = s.pacer.allowance ∧ (discardAtReturn s).pacer.downlinkCap = s.pacer.downlinkCap
    ∧ (discardAtReturn s).radio.failures = s.radio.failures ∧ (discardAtReturn s).radio.lastCause = s.radio.lastCause
    ∧ (discardAtReturn s).radio.cycleTimer = s.radio.cycleTimer ∧ (discardAtReturn s).radio.silenceTimer = s.radio.silenceTimer
    ∧ (discardAtReturn s).radio.grantUp = s.radio.grantUp ∧ (discardAtReturn s).radio.grantDown = s.radio.grantDown
    ∧ (discardAtReturn s).radio.grantQuality = s.radio.grantQuality ∧ (discardAtReturn s).radio.pauseTold = s.radio.pauseTold
    ∧ (discardAtReturn s).radio.capTold = s.radio.capTold ∧ (discardAtReturn s).radio.lowPowerTold = s.radio.lowPowerTold
    ∧ (discardAtReturn s).radio.ldoLast = s.radio.ldoLast ∧ (discardAtReturn s).events.evp = s.events.evp
    ∧ (discardAtReturn s).events.slotKinds = s.events.slotKinds ∧ (discardAtReturn s).events.refreshCount = s.events.refreshCount
    ∧ (discardAtReturn s).events.refreshTimer = s.events.refreshTimer ∧ (discardAtReturn s).events.pageWriting = s.events.pageWriting
    ∧ (discardAtReturn s).events.pageWanted = s.events.pageWanted ∧ (discardAtReturn s).events.ledMs = s.events.ledMs := by simp [discardAtReturn]

@[simp] theorem discardAtSoftReset_frame (s : State) :
    (discardAtSoftReset s).pending = s.pending ∧ (discardAtSoftReset s).clock = s.clock ∧ (discardAtSoftReset s).draws = s.draws
    ∧ (discardAtSoftReset s).sram = s.sram ∧ (discardAtSoftReset s).pins = s.pins ∧ (discardAtSoftReset s).health = s.health
    ∧ (discardAtSoftReset s).power = s.power ∧ (discardAtSoftReset s).loader.phase = s.loader.phase
    ∧ (discardAtSoftReset s).loader.flashCode = s.loader.flashCode ∧ (discardAtSoftReset s).loader.map = s.loader.map
    ∧ (discardAtSoftReset s).loader.linkClock = s.loader.linkClock ∧ (discardAtSoftReset s).loader.defaultPolicy = s.loader.defaultPolicy
    ∧ (discardAtSoftReset s).loader.policy = s.loader.policy ∧ (discardAtSoftReset s).loader.readState = s.loader.readState
    ∧ (discardAtSoftReset s).loader.readKind = s.loader.readKind ∧ (discardAtSoftReset s).loader.dueAfterRestart = s.loader.dueAfterRestart
    ∧ (discardAtSoftReset s).loader.firstHalf = s.loader.firstHalf ∧ (discardAtSoftReset s).loader.pgenAtIssue = s.loader.pgenAtIssue
    ∧ (discardAtSoftReset s).loader.softResetInForce = s.loader.softResetInForce
    ∧ (discardAtSoftReset s).loader.counterClearInForce = s.loader.counterClearInForce
    ∧ (discardAtSoftReset s).loader.shadowsLoaded = s.loader.shadowsLoaded ∧ (discardAtSoftReset s).loader.softReset = s.loader.softReset
    ∧ (discardAtSoftReset s).loader.softWait = s.loader.softWait ∧ (discardAtSoftReset s).loader.softPositions = s.loader.softPositions
    ∧ (discardAtSoftReset s).bus.shadows = s.bus.shadows ∧ (discardAtSoftReset s).bus.txHorizon = s.bus.txHorizon
    ∧ (discardAtSoftReset s).bus.rxHorizon = s.bus.rxHorizon ∧ (discardAtSoftReset s).bus.fixedH = s.bus.fixedH
    ∧ (discardAtSoftReset s).bus.fixedG = s.bus.fixedG ∧ (discardAtSoftReset s).bus.uplinkView = s.bus.uplinkView
    ∧ (discardAtSoftReset s).bus.receiveView = s.bus.receiveView ∧ (discardAtSoftReset s).bus.uplinkViewValue = s.bus.uplinkViewValue
    ∧ (discardAtSoftReset s).bus.receiveViewValue = s.bus.receiveViewValue ∧ (discardAtSoftReset s).bus.txGuard = s.bus.txGuard
    ∧ (discardAtSoftReset s).bus.rxGuard = s.bus.rxGuard ∧ (discardAtSoftReset s).bus.queue = s.bus.queue
    ∧ (discardAtSoftReset s).bus.waitCount = s.bus.waitCount ∧ (discardAtSoftReset s).bus.gatewayData = s.bus.gatewayData
    ∧ (discardAtSoftReset s).ring.base = s.ring.base ∧ (discardAtSoftReset s).ring.partTxc = s.ring.partTxc
    ∧ (discardAtSoftReset s).ring.readMark = s.ring.readMark ∧ (discardAtSoftReset s).ring.descriptorRead = s.ring.descriptorRead
    ∧ (discardAtSoftReset s).ring.fence = s.ring.fence ∧ (discardAtSoftReset s).ring.overrun = s.ring.overrun
    ∧ (discardAtSoftReset s).ring.txCheckDue = s.ring.txCheckDue ∧ (discardAtSoftReset s).ring.scanRunning = s.ring.scanRunning
    ∧ (discardAtSoftReset s).ring.scanMark = s.ring.scanMark ∧ (discardAtSoftReset s).ring.scanRead = s.ring.scanRead
    ∧ (discardAtSoftReset s).ring.txForcing = s.ring.txForcing ∧ (discardAtSoftReset s).ring.rxForcing = s.ring.rxForcing
    ∧ (discardAtSoftReset s).ring.handBackAsked = s.ring.handBackAsked ∧ (discardAtSoftReset s).ring.fillCursor = s.ring.fillCursor
    ∧ (discardAtSoftReset s).ring.partRxf = s.ring.partRxf ∧ (discardAtSoftReset s).ring.delivery = s.ring.delivery
    ∧ (discardAtSoftReset s).ring.descriptorHeld = s.ring.descriptorHeld ∧ (discardAtSoftReset s).ring.rxOverrun = s.ring.rxOverrun
    ∧ (discardAtSoftReset s).ring.rxCheckDue = s.ring.rxCheckDue ∧ (discardAtSoftReset s).path.path = s.path.path
    ∧ (discardAtSoftReset s).path.phase = s.path.phase ∧ (discardAtSoftReset s).path.dwellD = s.path.dwellD
    ∧ (discardAtSoftReset s).path.dwell = s.path.dwell ∧ (discardAtSoftReset s).path.refallTimer = s.path.refallTimer
    ∧ (discardAtSoftReset s).path.refallOpen = s.path.refallOpen ∧ (discardAtSoftReset s).path.releaseTimer = s.path.releaseTimer
    ∧ (discardAtSoftReset s).path.txReleased = s.path.txReleased ∧ (discardAtSoftReset s).path.rxReleased = s.path.rxReleased
    ∧ (discardAtSoftReset s).path.drainTimer = s.path.drainTimer ∧ (discardAtSoftReset s).path.radioWanted = s.path.radioWanted
    ∧ (discardAtSoftReset s).path.returnPause = s.path.returnPause ∧ (discardAtSoftReset s).path.recorded = s.path.recorded
    ∧ (discardAtSoftReset s).hold.cells = s.hold.cells ∧ (discardAtSoftReset s).hold.sweep10 = s.hold.sweep10
    ∧ (discardAtSoftReset s).hold.sweep1s = s.hold.sweep1s ∧ (discardAtSoftReset s).pacer.credit = s.pacer.credit
    ∧ (discardAtSoftReset s).pacer.pacing = s.pacer.pacing ∧ (discardAtSoftReset s).pacer.refusalPause = s.pacer.refusalPause
    ∧ (discardAtSoftReset s).pacer.grantSeen = s.pacer.grantSeen ∧ (discardAtSoftReset s).pacer.usageBase = s.pacer.usageBase
    ∧ (discardAtSoftReset s).pacer.carried = s.pacer.carried ∧ (discardAtSoftReset s).pacer.allowance = s.pacer.allowance
    ∧ (discardAtSoftReset s).pacer.downlinkCap = s.pacer.downlinkCap ∧ (discardAtSoftReset s).radio.failures = s.radio.failures
    ∧ (discardAtSoftReset s).radio.lastCause = s.radio.lastCause ∧ (discardAtSoftReset s).radio.cycleTimer = s.radio.cycleTimer
    ∧ (discardAtSoftReset s).radio.silenceTimer = s.radio.silenceTimer ∧ (discardAtSoftReset s).radio.grantUp = s.radio.grantUp
    ∧ (discardAtSoftReset s).radio.grantDown = s.radio.grantDown ∧ (discardAtSoftReset s).radio.grantQuality = s.radio.grantQuality
    ∧ (discardAtSoftReset s).radio.pauseTold = s.radio.pauseTold ∧ (discardAtSoftReset s).radio.capTold = s.radio.capTold
    ∧ (discardAtSoftReset s).radio.lowPowerTold = s.radio.lowPowerTold ∧ (discardAtSoftReset s).radio.ldoLast = s.radio.ldoLast
    ∧ (discardAtSoftReset s).events.entries = s.events.entries ∧ (discardAtSoftReset s).events.evp = s.events.evp
    ∧ (discardAtSoftReset s).events.slotKinds = s.events.slotKinds ∧ (discardAtSoftReset s).events.refreshCount = s.events.refreshCount
    ∧ (discardAtSoftReset s).events.refreshTimer = s.events.refreshTimer ∧ (discardAtSoftReset s).events.pageWriting = s.events.pageWriting
    ∧ (discardAtSoftReset s).events.pageWanted = s.events.pageWanted ∧ (discardAtSoftReset s).events.ledMs = s.events.ledMs := by simp [discardAtSoftReset]

@[simp] theorem cutLink_frame (s : State) :
    (cutLink s).pending = s.pending ∧ (cutLink s).clock = s.clock ∧ (cutLink s).draws = s.draws ∧ (cutLink s).sram = s.sram
    ∧ (cutLink s).pins = s.pins ∧ (cutLink s).health = s.health ∧ (cutLink s).pacer = s.pacer ∧ (cutLink s).power = s.power
    ∧ (cutLink s).loader.phase = s.loader.phase ∧ (cutLink s).loader.flashCode = s.loader.flashCode ∧ (cutLink s).loader.map = s.loader.map
    ∧ (cutLink s).loader.linkClock = s.loader.linkClock ∧ (cutLink s).loader.defaultPolicy = s.loader.defaultPolicy
    ∧ (cutLink s).loader.policy = s.loader.policy ∧ (cutLink s).loader.readState = s.loader.readState
    ∧ (cutLink s).loader.readKind = s.loader.readKind ∧ (cutLink s).loader.dueAfterRestart = s.loader.dueAfterRestart
    ∧ (cutLink s).loader.firstHalf = s.loader.firstHalf ∧ (cutLink s).loader.pgenAtIssue = s.loader.pgenAtIssue
    ∧ (cutLink s).loader.softResetInForce = s.loader.softResetInForce ∧ (cutLink s).loader.counterClearInForce = s.loader.counterClearInForce
    ∧ (cutLink s).loader.shadowsLoaded = s.loader.shadowsLoaded ∧ (cutLink s).loader.softReset = s.loader.softReset
    ∧ (cutLink s).loader.softWait = s.loader.softWait ∧ (cutLink s).loader.softPositions = s.loader.softPositions
    ∧ (cutLink s).bus.shadows = s.bus.shadows ∧ (cutLink s).bus.txHorizon = s.bus.txHorizon ∧ (cutLink s).bus.rxHorizon = s.bus.rxHorizon
    ∧ (cutLink s).bus.fixedH = s.bus.fixedH ∧ (cutLink s).bus.fixedG = s.bus.fixedG ∧ (cutLink s).bus.uplinkView = s.bus.uplinkView
    ∧ (cutLink s).bus.receiveView = s.bus.receiveView ∧ (cutLink s).bus.uplinkViewValue = s.bus.uplinkViewValue
    ∧ (cutLink s).bus.receiveViewValue = s.bus.receiveViewValue ∧ (cutLink s).bus.txGuard = s.bus.txGuard
    ∧ (cutLink s).bus.rxGuard = s.bus.rxGuard ∧ (cutLink s).bus.queue = s.bus.queue ∧ (cutLink s).bus.waitCount = s.bus.waitCount
    ∧ (cutLink s).bus.gatewayData = s.bus.gatewayData ∧ (cutLink s).ring.base = s.ring.base ∧ (cutLink s).ring.partTxc = s.ring.partTxc
    ∧ (cutLink s).ring.readMark = s.ring.readMark ∧ (cutLink s).ring.descriptorRead = s.ring.descriptorRead
    ∧ (cutLink s).ring.fence = s.ring.fence ∧ (cutLink s).ring.overrun = s.ring.overrun ∧ (cutLink s).ring.txCheckDue = s.ring.txCheckDue
    ∧ (cutLink s).ring.scanRunning = s.ring.scanRunning ∧ (cutLink s).ring.scanMark = s.ring.scanMark
    ∧ (cutLink s).ring.scanRead = s.ring.scanRead ∧ (cutLink s).ring.txForcing = s.ring.txForcing ∧ (cutLink s).ring.rxForcing = s.ring.rxForcing
    ∧ (cutLink s).ring.handBackAsked = s.ring.handBackAsked ∧ (cutLink s).ring.fillCursor = s.ring.fillCursor
    ∧ (cutLink s).ring.partRxf = s.ring.partRxf ∧ (cutLink s).ring.delivery = s.ring.delivery
    ∧ (cutLink s).ring.descriptorHeld = s.ring.descriptorHeld ∧ (cutLink s).ring.rxOverrun = s.ring.rxOverrun
    ∧ (cutLink s).ring.rxCheckDue = s.ring.rxCheckDue ∧ (cutLink s).path.path = s.path.path ∧ (cutLink s).path.phase = s.path.phase
    ∧ (cutLink s).path.dwellD = s.path.dwellD ∧ (cutLink s).path.dwell = s.path.dwell ∧ (cutLink s).path.refallTimer = s.path.refallTimer
    ∧ (cutLink s).path.refallOpen = s.path.refallOpen ∧ (cutLink s).path.releaseTimer = s.path.releaseTimer
    ∧ (cutLink s).path.txReleased = s.path.txReleased ∧ (cutLink s).path.rxReleased = s.path.rxReleased
    ∧ (cutLink s).path.drainTimer = s.path.drainTimer ∧ (cutLink s).path.radioWanted = s.path.radioWanted
    ∧ (cutLink s).path.returnPause = s.path.returnPause ∧ (cutLink s).path.recorded = s.path.recorded ∧ (cutLink s).hold.cells = s.hold.cells
    ∧ (cutLink s).hold.uqE = s.hold.uqE ∧ (cutLink s).hold.uqV = s.hold.uqV ∧ (cutLink s).hold.uqD = s.hold.uqD
    ∧ (cutLink s).hold.dqV = s.hold.dqV ∧ (cutLink s).hold.dqD = s.hold.dqD ∧ (cutLink s).hold.sweep10 = s.hold.sweep10
    ∧ (cutLink s).hold.sweep1s = s.hold.sweep1s ∧ (cutLink s).radio.failures = s.radio.failures ∧ (cutLink s).radio.lastCause = s.radio.lastCause
    ∧ (cutLink s).radio.cycleTimer = s.radio.cycleTimer ∧ (cutLink s).radio.silenceTimer = s.radio.silenceTimer
    ∧ (cutLink s).radio.grantUp = s.radio.grantUp ∧ (cutLink s).radio.grantDown = s.radio.grantDown
    ∧ (cutLink s).radio.grantQuality = s.radio.grantQuality ∧ (cutLink s).radio.slotA = s.radio.slotA ∧ (cutLink s).radio.slotB = s.radio.slotB
    ∧ (cutLink s).radio.unsent = s.radio.unsent ∧ (cutLink s).radio.pauseTold = s.radio.pauseTold ∧ (cutLink s).radio.capTold = s.radio.capTold
    ∧ (cutLink s).radio.lowPowerTold = s.radio.lowPowerTold ∧ (cutLink s).radio.ldoLast = s.radio.ldoLast ∧ (cutLink s).events.evp = s.events.evp
    ∧ (cutLink s).events.slotKinds = s.events.slotKinds ∧ (cutLink s).events.refreshCount = s.events.refreshCount
    ∧ (cutLink s).events.refreshTimer = s.events.refreshTimer ∧ (cutLink s).events.pageWriting = s.events.pageWriting
    ∧ (cutLink s).events.pageWanted = s.events.pageWanted ∧ (cutLink s).events.ledMs = s.events.ledMs := by simp [cutLink]

@[simp] theorem examine_frame (s : State) :
    (examine s).pending = s.pending ∧ (examine s).clock = s.clock ∧ (examine s).draws = s.draws ∧ (examine s).sram = s.sram
    ∧ (examine s).pins = s.pins ∧ (examine s).loader = s.loader ∧ (examine s).health = s.health ∧ (examine s).pacer = s.pacer
    ∧ (examine s).power = s.power ∧ (examine s).bus.shadows = s.bus.shadows ∧ (examine s).bus.txHorizon = s.bus.txHorizon
    ∧ (examine s).bus.rxHorizon = s.bus.rxHorizon ∧ (examine s).bus.fixedH = s.bus.fixedH ∧ (examine s).bus.fixedG = s.bus.fixedG
    ∧ (examine s).bus.uplinkView = s.bus.uplinkView ∧ (examine s).bus.receiveView = s.bus.receiveView
    ∧ (examine s).bus.uplinkViewValue = s.bus.uplinkViewValue ∧ (examine s).bus.receiveViewValue = s.bus.receiveViewValue
    ∧ (examine s).bus.txGuard = s.bus.txGuard ∧ (examine s).bus.rxGuard = s.bus.rxGuard ∧ (examine s).bus.queue = s.bus.queue
    ∧ (examine s).bus.waitCount = s.bus.waitCount ∧ (examine s).bus.gatewayData = s.bus.gatewayData ∧ (examine s).ring.base = s.ring.base
    ∧ (examine s).ring.partTxc = s.ring.partTxc ∧ (examine s).ring.readMark = s.ring.readMark
    ∧ (examine s).ring.descriptorRead = s.ring.descriptorRead ∧ (examine s).ring.fence = s.ring.fence ∧ (examine s).ring.overrun = s.ring.overrun
    ∧ (examine s).ring.txCheckDue = s.ring.txCheckDue ∧ (examine s).ring.scanRunning = s.ring.scanRunning
    ∧ (examine s).ring.scanMark = s.ring.scanMark ∧ (examine s).ring.scanRead = s.ring.scanRead ∧ (examine s).ring.txForcing = s.ring.txForcing
    ∧ (examine s).ring.rxForcing = s.ring.rxForcing ∧ (examine s).ring.handBackAsked = s.ring.handBackAsked
    ∧ (examine s).ring.fillCursor = s.ring.fillCursor ∧ (examine s).ring.partRxf = s.ring.partRxf ∧ (examine s).ring.delivery = s.ring.delivery
    ∧ (examine s).ring.descriptorHeld = s.ring.descriptorHeld ∧ (examine s).ring.rxOverrun = s.ring.rxOverrun
    ∧ (examine s).ring.rxCheckDue = s.ring.rxCheckDue ∧ (examine s).path.path = s.path.path ∧ (examine s).path.phase = s.path.phase
    ∧ (examine s).path.dwellD = s.path.dwellD ∧ (examine s).path.dwell = s.path.dwell ∧ (examine s).path.refallTimer = s.path.refallTimer
    ∧ (examine s).path.refallOpen = s.path.refallOpen ∧ (examine s).path.releaseTimer = s.path.releaseTimer
    ∧ (examine s).path.txReleased = s.path.txReleased ∧ (examine s).path.rxReleased = s.path.rxReleased
    ∧ (examine s).path.drainTimer = s.path.drainTimer ∧ (examine s).path.radioWanted = s.path.radioWanted
    ∧ (examine s).path.returnPause = s.path.returnPause ∧ (examine s).path.recorded = s.path.recorded ∧ (examine s).hold.cells = s.hold.cells
    ∧ (examine s).hold.uqD = s.hold.uqD ∧ (examine s).hold.dqV = s.hold.dqV ∧ (examine s).hold.dqD = s.hold.dqD
    ∧ (examine s).hold.sweep10 = s.hold.sweep10 ∧ (examine s).hold.sweep1s = s.hold.sweep1s ∧ (examine s).radio.failures = s.radio.failures
    ∧ (examine s).radio.lastCause = s.radio.lastCause ∧ (examine s).radio.cycleTimer = s.radio.cycleTimer
    ∧ (examine s).radio.silenceTimer = s.radio.silenceTimer ∧ (examine s).radio.grantUp = s.radio.grantUp
    ∧ (examine s).radio.grantDown = s.radio.grantDown ∧ (examine s).radio.grantQuality = s.radio.grantQuality
    ∧ (examine s).radio.slotA = s.radio.slotA ∧ (examine s).radio.slotB = s.radio.slotB ∧ (examine s).radio.unsent = s.radio.unsent
    ∧ (examine s).radio.pauseTold = s.radio.pauseTold ∧ (examine s).radio.capTold = s.radio.capTold
    ∧ (examine s).radio.lowPowerTold = s.radio.lowPowerTold ∧ (examine s).radio.ldo = s.radio.ldo ∧ (examine s).radio.ldoLast = s.radio.ldoLast
    ∧ (examine s).radio.receiver = s.radio.receiver ∧ (examine s).events.evp = s.events.evp ∧ (examine s).events.slotKinds = s.events.slotKinds
    ∧ (examine s).events.refreshCount = s.events.refreshCount ∧ (examine s).events.refreshTimer = s.events.refreshTimer
    ∧ (examine s).events.pageWriting = s.events.pageWriting ∧ (examine s).events.pageWanted = s.events.pageWanted
    ∧ (examine s).events.ledMs = s.events.ledMs := by simp only [examine]; (repeat' split) <;> simp

@[simp] theorem enterOff_frame (s : State) :
    (enterOff s).pending = s.pending ∧ (enterOff s).clock = s.clock ∧ (enterOff s).draws = s.draws ∧ (enterOff s).sram = s.sram
    ∧ (enterOff s).pins = s.pins ∧ (enterOff s).health = s.health ∧ (enterOff s).pacer = s.pacer ∧ (enterOff s).power = s.power
    ∧ (enterOff s).loader.phase = s.loader.phase ∧ (enterOff s).loader.flashCode = s.loader.flashCode ∧ (enterOff s).loader.map = s.loader.map
    ∧ (enterOff s).loader.linkClock = s.loader.linkClock ∧ (enterOff s).loader.defaultPolicy = s.loader.defaultPolicy
    ∧ (enterOff s).loader.policy = s.loader.policy ∧ (enterOff s).loader.readState = s.loader.readState
    ∧ (enterOff s).loader.readKind = s.loader.readKind ∧ (enterOff s).loader.dueAfterRestart = s.loader.dueAfterRestart
    ∧ (enterOff s).loader.firstHalf = s.loader.firstHalf ∧ (enterOff s).loader.pgenAtIssue = s.loader.pgenAtIssue
    ∧ (enterOff s).loader.softResetInForce = s.loader.softResetInForce ∧ (enterOff s).loader.counterClearInForce = s.loader.counterClearInForce
    ∧ (enterOff s).loader.shadowsLoaded = s.loader.shadowsLoaded ∧ (enterOff s).loader.softReset = s.loader.softReset
    ∧ (enterOff s).loader.softWait = s.loader.softWait ∧ (enterOff s).loader.softPositions = s.loader.softPositions
    ∧ (enterOff s).bus.shadows = s.bus.shadows ∧ (enterOff s).bus.txHorizon = s.bus.txHorizon ∧ (enterOff s).bus.rxHorizon = s.bus.rxHorizon
    ∧ (enterOff s).bus.fixedH = s.bus.fixedH ∧ (enterOff s).bus.fixedG = s.bus.fixedG ∧ (enterOff s).bus.uplinkView = s.bus.uplinkView
    ∧ (enterOff s).bus.receiveView = s.bus.receiveView ∧ (enterOff s).bus.uplinkViewValue = s.bus.uplinkViewValue
    ∧ (enterOff s).bus.receiveViewValue = s.bus.receiveViewValue ∧ (enterOff s).bus.txGuard = s.bus.txGuard
    ∧ (enterOff s).bus.rxGuard = s.bus.rxGuard ∧ (enterOff s).bus.queue = s.bus.queue ∧ (enterOff s).bus.waitCount = s.bus.waitCount
    ∧ (enterOff s).bus.gatewayData = s.bus.gatewayData ∧ (enterOff s).ring.base = s.ring.base ∧ (enterOff s).ring.partTxc = s.ring.partTxc
    ∧ (enterOff s).ring.readMark = s.ring.readMark ∧ (enterOff s).ring.descriptorRead = s.ring.descriptorRead
    ∧ (enterOff s).ring.fence = s.ring.fence ∧ (enterOff s).ring.overrun = s.ring.overrun ∧ (enterOff s).ring.txCheckDue = s.ring.txCheckDue
    ∧ (enterOff s).ring.scanRunning = s.ring.scanRunning ∧ (enterOff s).ring.scanMark = s.ring.scanMark
    ∧ (enterOff s).ring.scanRead = s.ring.scanRead ∧ (enterOff s).ring.txForcing = s.ring.txForcing
    ∧ (enterOff s).ring.rxForcing = s.ring.rxForcing ∧ (enterOff s).ring.handBackAsked = s.ring.handBackAsked
    ∧ (enterOff s).ring.fillCursor = s.ring.fillCursor ∧ (enterOff s).ring.partRxf = s.ring.partRxf
    ∧ (enterOff s).ring.delivery = s.ring.delivery ∧ (enterOff s).ring.descriptorHeld = s.ring.descriptorHeld
    ∧ (enterOff s).ring.rxOverrun = s.ring.rxOverrun ∧ (enterOff s).ring.rxCheckDue = s.ring.rxCheckDue ∧ (enterOff s).path.path = s.path.path
    ∧ (enterOff s).path.phase = s.path.phase ∧ (enterOff s).path.dwellD = s.path.dwellD ∧ (enterOff s).path.dwell = s.path.dwell
    ∧ (enterOff s).path.refallTimer = s.path.refallTimer ∧ (enterOff s).path.refallOpen = s.path.refallOpen
    ∧ (enterOff s).path.releaseTimer = s.path.releaseTimer ∧ (enterOff s).path.txReleased = s.path.txReleased
    ∧ (enterOff s).path.rxReleased = s.path.rxReleased ∧ (enterOff s).path.drainTimer = s.path.drainTimer
    ∧ (enterOff s).path.radioWanted = s.path.radioWanted ∧ (enterOff s).path.returnPause = s.path.returnPause
    ∧ (enterOff s).path.recorded = s.path.recorded ∧ (enterOff s).hold.cells = s.hold.cells ∧ (enterOff s).hold.uqE = s.hold.uqE
    ∧ (enterOff s).hold.uqV = s.hold.uqV ∧ (enterOff s).hold.uqD = s.hold.uqD ∧ (enterOff s).hold.dqV = s.hold.dqV
    ∧ (enterOff s).hold.dqD = s.hold.dqD ∧ (enterOff s).hold.sweep10 = s.hold.sweep10 ∧ (enterOff s).hold.sweep1s = s.hold.sweep1s
    ∧ (enterOff s).radio.failures = s.radio.failures ∧ (enterOff s).radio.lastCause = s.radio.lastCause
    ∧ (enterOff s).radio.silenceTimer = s.radio.silenceTimer ∧ (enterOff s).radio.grantUp = s.radio.grantUp
    ∧ (enterOff s).radio.grantDown = s.radio.grantDown ∧ (enterOff s).radio.grantQuality = s.radio.grantQuality
    ∧ (enterOff s).radio.slotA = s.radio.slotA ∧ (enterOff s).radio.slotB = s.radio.slotB ∧ (enterOff s).radio.unsent = s.radio.unsent
    ∧ (enterOff s).radio.pauseTold = s.radio.pauseTold ∧ (enterOff s).radio.capTold = s.radio.capTold
    ∧ (enterOff s).radio.lowPowerTold = s.radio.lowPowerTold ∧ (enterOff s).radio.ldoLast = s.radio.ldoLast
    ∧ (enterOff s).events.evp = s.events.evp ∧ (enterOff s).events.slotKinds = s.events.slotKinds
    ∧ (enterOff s).events.refreshCount = s.events.refreshCount ∧ (enterOff s).events.refreshTimer = s.events.refreshTimer
    ∧ (enterOff s).events.pageWriting = s.events.pageWriting ∧ (enterOff s).events.pageWanted = s.events.pageWanted
    ∧ (enterOff s).events.ledMs = s.events.ledMs := by simp [enterOff]

@[simp] theorem judgeDelivery_frame (s : State) :
    (judgeDelivery s).pending = s.pending ∧ (judgeDelivery s).clock = s.clock ∧ (judgeDelivery s).draws = s.draws
    ∧ (judgeDelivery s).sram = s.sram ∧ (judgeDelivery s).pins = s.pins ∧ (judgeDelivery s).loader = s.loader
    ∧ (judgeDelivery s).health = s.health ∧ (judgeDelivery s).pacer = s.pacer ∧ (judgeDelivery s).power = s.power
    ∧ (judgeDelivery s).bus.shadows = s.bus.shadows ∧ (judgeDelivery s).bus.txHorizon = s.bus.txHorizon
    ∧ (judgeDelivery s).bus.rxHorizon = s.bus.rxHorizon ∧ (judgeDelivery s).bus.fixedH = s.bus.fixedH
    ∧ (judgeDelivery s).bus.fixedG = s.bus.fixedG ∧ (judgeDelivery s).bus.uplinkView = s.bus.uplinkView
    ∧ (judgeDelivery s).bus.receiveView = s.bus.receiveView ∧ (judgeDelivery s).bus.uplinkViewValue = s.bus.uplinkViewValue
    ∧ (judgeDelivery s).bus.receiveViewValue = s.bus.receiveViewValue ∧ (judgeDelivery s).bus.txGuard = s.bus.txGuard
    ∧ (judgeDelivery s).bus.rxGuard = s.bus.rxGuard ∧ (judgeDelivery s).bus.queue = s.bus.queue
    ∧ (judgeDelivery s).bus.waitCount = s.bus.waitCount ∧ (judgeDelivery s).bus.gatewayData = s.bus.gatewayData
    ∧ (judgeDelivery s).ring.base = s.ring.base ∧ (judgeDelivery s).ring.partTxc = s.ring.partTxc
    ∧ (judgeDelivery s).ring.readMark = s.ring.readMark ∧ (judgeDelivery s).ring.descriptorRead = s.ring.descriptorRead
    ∧ (judgeDelivery s).ring.fence = s.ring.fence ∧ (judgeDelivery s).ring.overrun = s.ring.overrun
    ∧ (judgeDelivery s).ring.txCheckDue = s.ring.txCheckDue ∧ (judgeDelivery s).ring.scanRunning = s.ring.scanRunning
    ∧ (judgeDelivery s).ring.scanMark = s.ring.scanMark ∧ (judgeDelivery s).ring.scanRead = s.ring.scanRead
    ∧ (judgeDelivery s).ring.txForcing = s.ring.txForcing ∧ (judgeDelivery s).ring.rxForcing = s.ring.rxForcing
    ∧ (judgeDelivery s).ring.handBackAsked = s.ring.handBackAsked ∧ (judgeDelivery s).ring.fillCursor = s.ring.fillCursor
    ∧ (judgeDelivery s).ring.partRxf = s.ring.partRxf ∧ (judgeDelivery s).ring.descriptorHeld = s.ring.descriptorHeld
    ∧ (judgeDelivery s).ring.rxOverrun = s.ring.rxOverrun ∧ (judgeDelivery s).ring.rxCheckDue = s.ring.rxCheckDue
    ∧ (judgeDelivery s).path.path = s.path.path ∧ (judgeDelivery s).path.phase = s.path.phase ∧ (judgeDelivery s).path.dwellD = s.path.dwellD
    ∧ (judgeDelivery s).path.dwell = s.path.dwell ∧ (judgeDelivery s).path.refallTimer = s.path.refallTimer
    ∧ (judgeDelivery s).path.refallOpen = s.path.refallOpen ∧ (judgeDelivery s).path.releaseTimer = s.path.releaseTimer
    ∧ (judgeDelivery s).path.txReleased = s.path.txReleased ∧ (judgeDelivery s).path.rxReleased = s.path.rxReleased
    ∧ (judgeDelivery s).path.drainTimer = s.path.drainTimer ∧ (judgeDelivery s).path.radioWanted = s.path.radioWanted
    ∧ (judgeDelivery s).path.returnPause = s.path.returnPause ∧ (judgeDelivery s).path.recorded = s.path.recorded
    ∧ (judgeDelivery s).hold.cells = s.hold.cells ∧ (judgeDelivery s).hold.uqE = s.hold.uqE ∧ (judgeDelivery s).hold.uqV = s.hold.uqV
    ∧ (judgeDelivery s).hold.uqD = s.hold.uqD ∧ (judgeDelivery s).hold.sweep10 = s.hold.sweep10 ∧ (judgeDelivery s).hold.sweep1s = s.hold.sweep1s
    ∧ (judgeDelivery s).radio.failures = s.radio.failures ∧ (judgeDelivery s).radio.lastCause = s.radio.lastCause
    ∧ (judgeDelivery s).radio.cycleTimer = s.radio.cycleTimer ∧ (judgeDelivery s).radio.silenceTimer = s.radio.silenceTimer
    ∧ (judgeDelivery s).radio.grantUp = s.radio.grantUp ∧ (judgeDelivery s).radio.grantDown = s.radio.grantDown
    ∧ (judgeDelivery s).radio.grantQuality = s.radio.grantQuality ∧ (judgeDelivery s).radio.slotA = s.radio.slotA
    ∧ (judgeDelivery s).radio.slotB = s.radio.slotB ∧ (judgeDelivery s).radio.unsent = s.radio.unsent
    ∧ (judgeDelivery s).radio.pauseTold = s.radio.pauseTold ∧ (judgeDelivery s).radio.capTold = s.radio.capTold
    ∧ (judgeDelivery s).radio.lowPowerTold = s.radio.lowPowerTold ∧ (judgeDelivery s).radio.ldo = s.radio.ldo
    ∧ (judgeDelivery s).radio.ldoLast = s.radio.ldoLast ∧ (judgeDelivery s).radio.receiver = s.radio.receiver
    ∧ (judgeDelivery s).events.evp = s.events.evp ∧ (judgeDelivery s).events.slotKinds = s.events.slotKinds
    ∧ (judgeDelivery s).events.refreshCount = s.events.refreshCount ∧ (judgeDelivery s).events.refreshTimer = s.events.refreshTimer
    ∧ (judgeDelivery s).events.pageWriting = s.events.pageWriting ∧ (judgeDelivery s).events.pageWanted = s.events.pageWanted
    ∧ (judgeDelivery s).events.ledMs = s.events.ledMs := by simp only [judgeDelivery]; (repeat' split) <;> simp

@[simp] theorem softDiscard_frame (s : State) :
    (softDiscard s).pending = s.pending ∧ (softDiscard s).clock = s.clock ∧ (softDiscard s).draws = s.draws ∧ (softDiscard s).sram = s.sram
    ∧ (softDiscard s).pins = s.pins ∧ (softDiscard s).health = s.health ∧ (softDiscard s).power = s.power
    ∧ (softDiscard s).loader.phase = s.loader.phase ∧ (softDiscard s).loader.flashCode = s.loader.flashCode
    ∧ (softDiscard s).loader.map = s.loader.map ∧ (softDiscard s).loader.linkClock = s.loader.linkClock
    ∧ (softDiscard s).loader.defaultPolicy = s.loader.defaultPolicy ∧ (softDiscard s).loader.policy = s.loader.policy
    ∧ (softDiscard s).loader.readState = s.loader.readState ∧ (softDiscard s).loader.readKind = s.loader.readKind
    ∧ (softDiscard s).loader.dueAfterRestart = s.loader.dueAfterRestart ∧ (softDiscard s).loader.firstHalf = s.loader.firstHalf
    ∧ (softDiscard s).loader.pgenAtIssue = s.loader.pgenAtIssue ∧ (softDiscard s).loader.softResetInForce = s.loader.softResetInForce
    ∧ (softDiscard s).loader.counterClearInForce = s.loader.counterClearInForce ∧ (softDiscard s).loader.shadowsLoaded = s.loader.shadowsLoaded
    ∧ (softDiscard s).bus.shadows = s.bus.shadows ∧ (softDiscard s).bus.txHorizon = s.bus.txHorizon
    ∧ (softDiscard s).bus.rxHorizon = s.bus.rxHorizon ∧ (softDiscard s).bus.fixedH = s.bus.fixedH ∧ (softDiscard s).bus.fixedG = s.bus.fixedG
    ∧ (softDiscard s).bus.queue = s.bus.queue ∧ (softDiscard s).bus.waitCount = s.bus.waitCount
    ∧ (softDiscard s).bus.gatewayData = s.bus.gatewayData ∧ (softDiscard s).ring.readMark = s.ring.readMark
    ∧ (softDiscard s).ring.fence = s.ring.fence ∧ (softDiscard s).ring.scanRunning = s.ring.scanRunning
    ∧ (softDiscard s).ring.scanMark = s.ring.scanMark ∧ (softDiscard s).ring.scanRead = s.ring.scanRead
    ∧ (softDiscard s).ring.handBackAsked = s.ring.handBackAsked ∧ (softDiscard s).ring.fillCursor = s.ring.fillCursor
    ∧ (softDiscard s).ring.delivery = s.ring.delivery ∧ (softDiscard s).ring.descriptorHeld = s.ring.descriptorHeld
    ∧ (softDiscard s).path.path = s.path.path ∧ (softDiscard s).path.phase = s.path.phase ∧ (softDiscard s).path.dwellD = s.path.dwellD
    ∧ (softDiscard s).path.dwell = s.path.dwell ∧ (softDiscard s).path.refallTimer = s.path.refallTimer
    ∧ (softDiscard s).path.refallOpen = s.path.refallOpen ∧ (softDiscard s).path.drainTimer = s.path.drainTimer
    ∧ (softDiscard s).path.radioWanted = s.path.radioWanted ∧ (softDiscard s).path.returnPause = s.path.returnPause
    ∧ (softDiscard s).path.recorded = s.path.recorded ∧ (softDiscard s).hold.cells = s.hold.cells ∧ (softDiscard s).hold.sweep10 = s.hold.sweep10
    ∧ (softDiscard s).hold.sweep1s = s.hold.sweep1s ∧ (softDiscard s).pacer.credit = s.pacer.credit
    ∧ (softDiscard s).pacer.pacing = s.pacer.pacing ∧ (softDiscard s).pacer.refusalPause = s.pacer.refusalPause
    ∧ (softDiscard s).pacer.grantSeen = s.pacer.grantSeen ∧ (softDiscard s).pacer.usageBase = s.pacer.usageBase
    ∧ (softDiscard s).pacer.carried = s.pacer.carried ∧ (softDiscard s).pacer.allowance = s.pacer.allowance
    ∧ (softDiscard s).pacer.downlinkCap = s.pacer.downlinkCap ∧ (softDiscard s).radio.failures = s.radio.failures
    ∧ (softDiscard s).radio.lastCause = s.radio.lastCause ∧ (softDiscard s).radio.cycleTimer = s.radio.cycleTimer
    ∧ (softDiscard s).radio.silenceTimer = s.radio.silenceTimer ∧ (softDiscard s).radio.grantUp = s.radio.grantUp
    ∧ (softDiscard s).radio.grantDown = s.radio.grantDown ∧ (softDiscard s).radio.grantQuality = s.radio.grantQuality
    ∧ (softDiscard s).radio.pauseTold = s.radio.pauseTold ∧ (softDiscard s).radio.capTold = s.radio.capTold
    ∧ (softDiscard s).radio.lowPowerTold = s.radio.lowPowerTold ∧ (softDiscard s).radio.ldoLast = s.radio.ldoLast
    ∧ (softDiscard s).events.evp = s.events.evp ∧ (softDiscard s).events.slotKinds = s.events.slotKinds
    ∧ (softDiscard s).events.refreshCount = s.events.refreshCount ∧ (softDiscard s).events.refreshTimer = s.events.refreshTimer
    ∧ (softDiscard s).events.pageWriting = s.events.pageWriting ∧ (softDiscard s).events.pageWanted = s.events.pageWanted
    ∧ (softDiscard s).events.ledMs = s.events.ledMs := by simp [softDiscard]

@[simp] theorem startFails_frame (s : State) :
    (startFails s).pending = s.pending ∧ (startFails s).clock = s.clock ∧ (startFails s).draws = s.draws ∧ (startFails s).sram = s.sram
    ∧ (startFails s).pins = s.pins ∧ (startFails s).health = s.health ∧ (startFails s).pacer = s.pacer ∧ (startFails s).power = s.power
    ∧ (startFails s).loader.phase = s.loader.phase ∧ (startFails s).loader.flashCode = s.loader.flashCode
    ∧ (startFails s).loader.map = s.loader.map ∧ (startFails s).loader.linkClock = s.loader.linkClock
    ∧ (startFails s).loader.defaultPolicy = s.loader.defaultPolicy ∧ (startFails s).loader.policy = s.loader.policy
    ∧ (startFails s).loader.readState = s.loader.readState ∧ (startFails s).loader.readKind = s.loader.readKind
    ∧ (startFails s).loader.dueAfterRestart = s.loader.dueAfterRestart ∧ (startFails s).loader.firstHalf = s.loader.firstHalf
    ∧ (startFails s).loader.pgenAtIssue = s.loader.pgenAtIssue ∧ (startFails s).loader.softResetInForce = s.loader.softResetInForce
    ∧ (startFails s).loader.counterClearInForce = s.loader.counterClearInForce ∧ (startFails s).loader.shadowsLoaded = s.loader.shadowsLoaded
    ∧ (startFails s).loader.softReset = s.loader.softReset ∧ (startFails s).loader.softWait = s.loader.softWait
    ∧ (startFails s).loader.softPositions = s.loader.softPositions ∧ (startFails s).bus.shadows = s.bus.shadows
    ∧ (startFails s).bus.txHorizon = s.bus.txHorizon ∧ (startFails s).bus.rxHorizon = s.bus.rxHorizon ∧ (startFails s).bus.fixedH = s.bus.fixedH
    ∧ (startFails s).bus.fixedG = s.bus.fixedG ∧ (startFails s).bus.uplinkView = s.bus.uplinkView
    ∧ (startFails s).bus.receiveView = s.bus.receiveView ∧ (startFails s).bus.uplinkViewValue = s.bus.uplinkViewValue
    ∧ (startFails s).bus.receiveViewValue = s.bus.receiveViewValue ∧ (startFails s).bus.txGuard = s.bus.txGuard
    ∧ (startFails s).bus.rxGuard = s.bus.rxGuard ∧ (startFails s).bus.queue = s.bus.queue ∧ (startFails s).bus.waitCount = s.bus.waitCount
    ∧ (startFails s).bus.gatewayData = s.bus.gatewayData ∧ (startFails s).ring.base = s.ring.base ∧ (startFails s).ring.partTxc = s.ring.partTxc
    ∧ (startFails s).ring.overrun = s.ring.overrun ∧ (startFails s).ring.txCheckDue = s.ring.txCheckDue
    ∧ (startFails s).ring.scanRunning = s.ring.scanRunning ∧ (startFails s).ring.scanMark = s.ring.scanMark
    ∧ (startFails s).ring.scanRead = s.ring.scanRead ∧ (startFails s).ring.txForcing = s.ring.txForcing
    ∧ (startFails s).ring.rxForcing = s.ring.rxForcing ∧ (startFails s).ring.handBackAsked = s.ring.handBackAsked
    ∧ (startFails s).ring.fillCursor = s.ring.fillCursor ∧ (startFails s).ring.partRxf = s.ring.partRxf
    ∧ (startFails s).ring.delivery = s.ring.delivery ∧ (startFails s).ring.descriptorHeld = s.ring.descriptorHeld
    ∧ (startFails s).ring.rxOverrun = s.ring.rxOverrun ∧ (startFails s).ring.rxCheckDue = s.ring.rxCheckDue
    ∧ (startFails s).path.dwellD = s.path.dwellD ∧ (startFails s).path.dwell = s.path.dwell
    ∧ (startFails s).path.refallTimer = s.path.refallTimer ∧ (startFails s).path.refallOpen = s.path.refallOpen
    ∧ (startFails s).path.releaseTimer = s.path.releaseTimer ∧ (startFails s).path.txReleased = s.path.txReleased
    ∧ (startFails s).path.rxReleased = s.path.rxReleased ∧ (startFails s).path.radioWanted = s.path.radioWanted
    ∧ (startFails s).path.recorded = s.path.recorded ∧ (startFails s).hold.cells = s.hold.cells ∧ (startFails s).hold.uqE = s.hold.uqE
    ∧ (startFails s).hold.uqV = s.hold.uqV ∧ (startFails s).hold.uqD = s.hold.uqD ∧ (startFails s).hold.dqV = s.hold.dqV
    ∧ (startFails s).hold.dqD = s.hold.dqD ∧ (startFails s).hold.sweep10 = s.hold.sweep10 ∧ (startFails s).hold.sweep1s = s.hold.sweep1s
    ∧ (startFails s).radio.silenceTimer = s.radio.silenceTimer ∧ (startFails s).radio.grantUp = s.radio.grantUp
    ∧ (startFails s).radio.grantDown = s.radio.grantDown ∧ (startFails s).radio.grantQuality = s.radio.grantQuality
    ∧ (startFails s).radio.slotA = s.radio.slotA ∧ (startFails s).radio.slotB = s.radio.slotB ∧ (startFails s).radio.unsent = s.radio.unsent
    ∧ (startFails s).radio.pauseTold = s.radio.pauseTold ∧ (startFails s).radio.capTold = s.radio.capTold
    ∧ (startFails s).radio.lowPowerTold = s.radio.lowPowerTold ∧ (startFails s).radio.ldoLast = s.radio.ldoLast
    ∧ (startFails s).events.evp = s.events.evp ∧ (startFails s).events.slotKinds = s.events.slotKinds
    ∧ (startFails s).events.refreshCount = s.events.refreshCount ∧ (startFails s).events.refreshTimer = s.events.refreshTimer
    ∧ (startFails s).events.pageWriting = s.events.pageWriting ∧ (startFails s).events.ledMs = s.events.ledMs := by simp [startFails]

@[simp] theorem placeOnce_frame (s : State) :
    (placeOnce s).pending = s.pending ∧ (placeOnce s).clock = s.clock ∧ (placeOnce s).draws = s.draws ∧ (placeOnce s).sram = s.sram
    ∧ (placeOnce s).pins = s.pins ∧ (placeOnce s).loader = s.loader ∧ (placeOnce s).health = s.health ∧ (placeOnce s).power = s.power
    ∧ (placeOnce s).bus.shadows = s.bus.shadows ∧ (placeOnce s).bus.txHorizon = s.bus.txHorizon ∧ (placeOnce s).bus.rxHorizon = s.bus.rxHorizon
    ∧ (placeOnce s).bus.fixedH = s.bus.fixedH ∧ (placeOnce s).bus.fixedG = s.bus.fixedG ∧ (placeOnce s).bus.uplinkView = s.bus.uplinkView
    ∧ (placeOnce s).bus.receiveView = s.bus.receiveView ∧ (placeOnce s).bus.uplinkViewValue = s.bus.uplinkViewValue
    ∧ (placeOnce s).bus.receiveViewValue = s.bus.receiveViewValue ∧ (placeOnce s).bus.txGuard = s.bus.txGuard
    ∧ (placeOnce s).bus.rxGuard = s.bus.rxGuard ∧ (placeOnce s).bus.queue = s.bus.queue ∧ (placeOnce s).bus.waitCount = s.bus.waitCount
    ∧ (placeOnce s).bus.gatewayData = s.bus.gatewayData ∧ (placeOnce s).ring.base = s.ring.base ∧ (placeOnce s).ring.partTxc = s.ring.partTxc
    ∧ (placeOnce s).ring.readMark = s.ring.readMark ∧ (placeOnce s).ring.descriptorRead = s.ring.descriptorRead
    ∧ (placeOnce s).ring.fence = s.ring.fence ∧ (placeOnce s).ring.overrun = s.ring.overrun ∧ (placeOnce s).ring.txCheckDue = s.ring.txCheckDue
    ∧ (placeOnce s).ring.scanRunning = s.ring.scanRunning ∧ (placeOnce s).ring.scanMark = s.ring.scanMark
    ∧ (placeOnce s).ring.scanRead = s.ring.scanRead ∧ (placeOnce s).ring.txForcing = s.ring.txForcing
    ∧ (placeOnce s).ring.rxForcing = s.ring.rxForcing ∧ (placeOnce s).ring.handBackAsked = s.ring.handBackAsked
    ∧ (placeOnce s).ring.fillCursor = s.ring.fillCursor ∧ (placeOnce s).ring.partRxf = s.ring.partRxf
    ∧ (placeOnce s).ring.delivery = s.ring.delivery ∧ (placeOnce s).ring.descriptorHeld = s.ring.descriptorHeld
    ∧ (placeOnce s).ring.rxOverrun = s.ring.rxOverrun ∧ (placeOnce s).ring.rxCheckDue = s.ring.rxCheckDue ∧ (placeOnce s).path.path = s.path.path
    ∧ (placeOnce s).path.phase = s.path.phase ∧ (placeOnce s).path.dwellD = s.path.dwellD ∧ (placeOnce s).path.dwell = s.path.dwell
    ∧ (placeOnce s).path.refallTimer = s.path.refallTimer ∧ (placeOnce s).path.refallOpen = s.path.refallOpen
    ∧ (placeOnce s).path.releaseTimer = s.path.releaseTimer ∧ (placeOnce s).path.txReleased = s.path.txReleased
    ∧ (placeOnce s).path.rxReleased = s.path.rxReleased ∧ (placeOnce s).path.drainTimer = s.path.drainTimer
    ∧ (placeOnce s).path.radioWanted = s.path.radioWanted ∧ (placeOnce s).path.returnPause = s.path.returnPause
    ∧ (placeOnce s).path.recorded = s.path.recorded ∧ (placeOnce s).hold.cells = s.hold.cells ∧ (placeOnce s).hold.dqV = s.hold.dqV
    ∧ (placeOnce s).hold.dqD = s.hold.dqD ∧ (placeOnce s).hold.sweep10 = s.hold.sweep10 ∧ (placeOnce s).hold.sweep1s = s.hold.sweep1s
    ∧ (placeOnce s).pacer.pacing = s.pacer.pacing ∧ (placeOnce s).pacer.refusalPause = s.pacer.refusalPause
    ∧ (placeOnce s).pacer.grantSeen = s.pacer.grantSeen ∧ (placeOnce s).pacer.usageBase = s.pacer.usageBase
    ∧ (placeOnce s).pacer.carried = s.pacer.carried ∧ (placeOnce s).pacer.allowance = s.pacer.allowance
    ∧ (placeOnce s).pacer.downlinkCap = s.pacer.downlinkCap ∧ (placeOnce s).radio.failures = s.radio.failures
    ∧ (placeOnce s).radio.lastCause = s.radio.lastCause ∧ (placeOnce s).radio.cycleTimer = s.radio.cycleTimer
    ∧ (placeOnce s).radio.silenceTimer = s.radio.silenceTimer ∧ (placeOnce s).radio.grantUp = s.radio.grantUp
    ∧ (placeOnce s).radio.grantDown = s.radio.grantDown ∧ (placeOnce s).radio.grantQuality = s.radio.grantQuality
    ∧ (placeOnce s).radio.pauseTold = s.radio.pauseTold ∧ (placeOnce s).radio.capTold = s.radio.capTold
    ∧ (placeOnce s).radio.lowPowerTold = s.radio.lowPowerTold ∧ (placeOnce s).radio.ldo = s.radio.ldo
    ∧ (placeOnce s).radio.ldoLast = s.radio.ldoLast ∧ (placeOnce s).radio.receiver = s.radio.receiver ∧ (placeOnce s).events.evp = s.events.evp
    ∧ (placeOnce s).events.slotKinds = s.events.slotKinds ∧ (placeOnce s).events.refreshCount = s.events.refreshCount
    ∧ (placeOnce s).events.refreshTimer = s.events.refreshTimer ∧ (placeOnce s).events.pageWriting = s.events.pageWriting
    ∧ (placeOnce s).events.pageWanted = s.events.pageWanted ∧ (placeOnce s).events.ledMs = s.events.ledMs := by simp only [placeOnce]; (repeat' split) <;> simp

@[simp] theorem powerRule_frame (s : State) :
    (powerRule s).pending = s.pending ∧ (powerRule s).clock = s.clock ∧ (powerRule s).draws = s.draws ∧ (powerRule s).sram = s.sram
    ∧ (powerRule s).pins = s.pins ∧ (powerRule s).health = s.health ∧ (powerRule s).pacer = s.pacer ∧ (powerRule s).power = s.power
    ∧ (powerRule s).loader.phase = s.loader.phase ∧ (powerRule s).loader.flashCode = s.loader.flashCode ∧ (powerRule s).loader.map = s.loader.map
    ∧ (powerRule s).loader.linkClock = s.loader.linkClock ∧ (powerRule s).loader.defaultPolicy = s.loader.defaultPolicy
    ∧ (powerRule s).loader.policy = s.loader.policy ∧ (powerRule s).loader.readState = s.loader.readState
    ∧ (powerRule s).loader.readKind = s.loader.readKind ∧ (powerRule s).loader.dueAfterRestart = s.loader.dueAfterRestart
    ∧ (powerRule s).loader.firstHalf = s.loader.firstHalf ∧ (powerRule s).loader.pgenAtIssue = s.loader.pgenAtIssue
    ∧ (powerRule s).loader.softResetInForce = s.loader.softResetInForce ∧ (powerRule s).loader.counterClearInForce = s.loader.counterClearInForce
    ∧ (powerRule s).loader.shadowsLoaded = s.loader.shadowsLoaded ∧ (powerRule s).loader.softReset = s.loader.softReset
    ∧ (powerRule s).loader.softWait = s.loader.softWait ∧ (powerRule s).loader.softPositions = s.loader.softPositions
    ∧ (powerRule s).bus.shadows = s.bus.shadows ∧ (powerRule s).bus.txHorizon = s.bus.txHorizon ∧ (powerRule s).bus.rxHorizon = s.bus.rxHorizon
    ∧ (powerRule s).bus.fixedH = s.bus.fixedH ∧ (powerRule s).bus.fixedG = s.bus.fixedG ∧ (powerRule s).bus.uplinkView = s.bus.uplinkView
    ∧ (powerRule s).bus.receiveView = s.bus.receiveView ∧ (powerRule s).bus.uplinkViewValue = s.bus.uplinkViewValue
    ∧ (powerRule s).bus.receiveViewValue = s.bus.receiveViewValue ∧ (powerRule s).bus.txGuard = s.bus.txGuard
    ∧ (powerRule s).bus.rxGuard = s.bus.rxGuard ∧ (powerRule s).bus.queue = s.bus.queue ∧ (powerRule s).bus.waitCount = s.bus.waitCount
    ∧ (powerRule s).bus.gatewayData = s.bus.gatewayData ∧ (powerRule s).ring.base = s.ring.base ∧ (powerRule s).ring.partTxc = s.ring.partTxc
    ∧ (powerRule s).ring.readMark = s.ring.readMark ∧ (powerRule s).ring.descriptorRead = s.ring.descriptorRead
    ∧ (powerRule s).ring.fence = s.ring.fence ∧ (powerRule s).ring.overrun = s.ring.overrun ∧ (powerRule s).ring.txCheckDue = s.ring.txCheckDue
    ∧ (powerRule s).ring.scanRunning = s.ring.scanRunning ∧ (powerRule s).ring.scanMark = s.ring.scanMark
    ∧ (powerRule s).ring.scanRead = s.ring.scanRead ∧ (powerRule s).ring.txForcing = s.ring.txForcing
    ∧ (powerRule s).ring.rxForcing = s.ring.rxForcing ∧ (powerRule s).ring.handBackAsked = s.ring.handBackAsked
    ∧ (powerRule s).ring.fillCursor = s.ring.fillCursor ∧ (powerRule s).ring.partRxf = s.ring.partRxf
    ∧ (powerRule s).ring.delivery = s.ring.delivery ∧ (powerRule s).ring.descriptorHeld = s.ring.descriptorHeld
    ∧ (powerRule s).ring.rxOverrun = s.ring.rxOverrun ∧ (powerRule s).ring.rxCheckDue = s.ring.rxCheckDue ∧ (powerRule s).path.path = s.path.path
    ∧ (powerRule s).path.phase = s.path.phase ∧ (powerRule s).path.dwellD = s.path.dwellD ∧ (powerRule s).path.dwell = s.path.dwell
    ∧ (powerRule s).path.refallTimer = s.path.refallTimer ∧ (powerRule s).path.refallOpen = s.path.refallOpen
    ∧ (powerRule s).path.releaseTimer = s.path.releaseTimer ∧ (powerRule s).path.txReleased = s.path.txReleased
    ∧ (powerRule s).path.rxReleased = s.path.rxReleased ∧ (powerRule s).path.drainTimer = s.path.drainTimer
    ∧ (powerRule s).path.radioWanted = s.path.radioWanted ∧ (powerRule s).path.returnPause = s.path.returnPause
    ∧ (powerRule s).path.recorded = s.path.recorded ∧ (powerRule s).hold.cells = s.hold.cells ∧ (powerRule s).hold.uqE = s.hold.uqE
    ∧ (powerRule s).hold.uqV = s.hold.uqV ∧ (powerRule s).hold.uqD = s.hold.uqD ∧ (powerRule s).hold.dqV = s.hold.dqV
    ∧ (powerRule s).hold.dqD = s.hold.dqD ∧ (powerRule s).hold.sweep10 = s.hold.sweep10 ∧ (powerRule s).hold.sweep1s = s.hold.sweep1s
    ∧ (powerRule s).radio.failures = s.radio.failures ∧ (powerRule s).radio.lastCause = s.radio.lastCause
    ∧ (powerRule s).radio.silenceTimer = s.radio.silenceTimer ∧ (powerRule s).radio.grantUp = s.radio.grantUp
    ∧ (powerRule s).radio.grantDown = s.radio.grantDown ∧ (powerRule s).radio.grantQuality = s.radio.grantQuality
    ∧ (powerRule s).radio.slotA = s.radio.slotA ∧ (powerRule s).radio.slotB = s.radio.slotB ∧ (powerRule s).radio.unsent = s.radio.unsent
    ∧ (powerRule s).radio.pauseTold = s.radio.pauseTold ∧ (powerRule s).radio.capTold = s.radio.capTold
    ∧ (powerRule s).radio.lowPowerTold = s.radio.lowPowerTold ∧ (powerRule s).radio.ldoLast = s.radio.ldoLast
    ∧ (powerRule s).events.evp = s.events.evp ∧ (powerRule s).events.slotKinds = s.events.slotKinds
    ∧ (powerRule s).events.refreshCount = s.events.refreshCount ∧ (powerRule s).events.refreshTimer = s.events.refreshTimer
    ∧ (powerRule s).events.pageWriting = s.events.pageWriting ∧ (powerRule s).events.pageWanted = s.events.pageWanted
    ∧ (powerRule s).events.ledMs = s.events.ledMs := by unfold powerRule; (repeat' split) <;> simp

@[simp] theorem startExpires_frame (s : State) :
    (startExpires s).pending = s.pending ∧ (startExpires s).clock = s.clock ∧ (startExpires s).draws = s.draws ∧ (startExpires s).sram = s.sram
    ∧ (startExpires s).pins = s.pins ∧ (startExpires s).health = s.health ∧ (startExpires s).pacer = s.pacer ∧ (startExpires s).power = s.power
    ∧ (startExpires s).loader.phase = s.loader.phase ∧ (startExpires s).loader.flashCode = s.loader.flashCode
    ∧ (startExpires s).loader.map = s.loader.map ∧ (startExpires s).loader.linkClock = s.loader.linkClock
    ∧ (startExpires s).loader.defaultPolicy = s.loader.defaultPolicy ∧ (startExpires s).loader.policy = s.loader.policy
    ∧ (startExpires s).loader.readState = s.loader.readState ∧ (startExpires s).loader.readKind = s.loader.readKind
    ∧ (startExpires s).loader.dueAfterRestart = s.loader.dueAfterRestart ∧ (startExpires s).loader.firstHalf = s.loader.firstHalf
    ∧ (startExpires s).loader.pgenAtIssue = s.loader.pgenAtIssue ∧ (startExpires s).loader.softResetInForce = s.loader.softResetInForce
    ∧ (startExpires s).loader.counterClearInForce = s.loader.counterClearInForce ∧ (startExpires s).loader.shadowsLoaded = s.loader.shadowsLoaded
    ∧ (startExpires s).loader.softReset = s.loader.softReset ∧ (startExpires s).loader.softWait = s.loader.softWait
    ∧ (startExpires s).loader.softPositions = s.loader.softPositions ∧ (startExpires s).bus.shadows = s.bus.shadows
    ∧ (startExpires s).bus.txHorizon = s.bus.txHorizon ∧ (startExpires s).bus.rxHorizon = s.bus.rxHorizon
    ∧ (startExpires s).bus.fixedH = s.bus.fixedH ∧ (startExpires s).bus.fixedG = s.bus.fixedG
    ∧ (startExpires s).bus.uplinkView = s.bus.uplinkView ∧ (startExpires s).bus.receiveView = s.bus.receiveView
    ∧ (startExpires s).bus.uplinkViewValue = s.bus.uplinkViewValue ∧ (startExpires s).bus.receiveViewValue = s.bus.receiveViewValue
    ∧ (startExpires s).bus.txGuard = s.bus.txGuard ∧ (startExpires s).bus.rxGuard = s.bus.rxGuard ∧ (startExpires s).bus.queue = s.bus.queue
    ∧ (startExpires s).bus.waitCount = s.bus.waitCount ∧ (startExpires s).bus.gatewayData = s.bus.gatewayData
    ∧ (startExpires s).ring.base = s.ring.base ∧ (startExpires s).ring.partTxc = s.ring.partTxc ∧ (startExpires s).ring.overrun = s.ring.overrun
    ∧ (startExpires s).ring.txCheckDue = s.ring.txCheckDue ∧ (startExpires s).ring.scanRunning = s.ring.scanRunning
    ∧ (startExpires s).ring.scanMark = s.ring.scanMark ∧ (startExpires s).ring.scanRead = s.ring.scanRead
    ∧ (startExpires s).ring.txForcing = s.ring.txForcing ∧ (startExpires s).ring.rxForcing = s.ring.rxForcing
    ∧ (startExpires s).ring.handBackAsked = s.ring.handBackAsked ∧ (startExpires s).ring.fillCursor = s.ring.fillCursor
    ∧ (startExpires s).ring.partRxf = s.ring.partRxf ∧ (startExpires s).ring.delivery = s.ring.delivery
    ∧ (startExpires s).ring.descriptorHeld = s.ring.descriptorHeld ∧ (startExpires s).ring.rxOverrun = s.ring.rxOverrun
    ∧ (startExpires s).ring.rxCheckDue = s.ring.rxCheckDue ∧ (startExpires s).path.dwellD = s.path.dwellD
    ∧ (startExpires s).path.dwell = s.path.dwell ∧ (startExpires s).path.refallTimer = s.path.refallTimer
    ∧ (startExpires s).path.refallOpen = s.path.refallOpen ∧ (startExpires s).path.releaseTimer = s.path.releaseTimer
    ∧ (startExpires s).path.txReleased = s.path.txReleased ∧ (startExpires s).path.rxReleased = s.path.rxReleased
    ∧ (startExpires s).path.radioWanted = s.path.radioWanted ∧ (startExpires s).path.recorded = s.path.recorded
    ∧ (startExpires s).hold.cells = s.hold.cells ∧ (startExpires s).hold.uqE = s.hold.uqE ∧ (startExpires s).hold.uqV = s.hold.uqV
    ∧ (startExpires s).hold.uqD = s.hold.uqD ∧ (startExpires s).hold.dqV = s.hold.dqV ∧ (startExpires s).hold.dqD = s.hold.dqD
    ∧ (startExpires s).hold.sweep10 = s.hold.sweep10 ∧ (startExpires s).hold.sweep1s = s.hold.sweep1s
    ∧ (startExpires s).radio.silenceTimer = s.radio.silenceTimer ∧ (startExpires s).radio.grantUp = s.radio.grantUp
    ∧ (startExpires s).radio.grantDown = s.radio.grantDown ∧ (startExpires s).radio.grantQuality = s.radio.grantQuality
    ∧ (startExpires s).radio.slotA = s.radio.slotA ∧ (startExpires s).radio.slotB = s.radio.slotB
    ∧ (startExpires s).radio.unsent = s.radio.unsent ∧ (startExpires s).radio.pauseTold = s.radio.pauseTold
    ∧ (startExpires s).radio.capTold = s.radio.capTold ∧ (startExpires s).radio.lowPowerTold = s.radio.lowPowerTold
    ∧ (startExpires s).radio.ldoLast = s.radio.ldoLast ∧ (startExpires s).events.evp = s.events.evp
    ∧ (startExpires s).events.slotKinds = s.events.slotKinds ∧ (startExpires s).events.refreshCount = s.events.refreshCount
    ∧ (startExpires s).events.refreshTimer = s.events.refreshTimer ∧ (startExpires s).events.pageWriting = s.events.pageWriting
    ∧ (startExpires s).events.ledMs = s.events.ledMs := by unfold startExpires; (repeat' split) <;> simp

@[simp] theorem placementAttempt_frame (s : State) :
    (placementAttempt s).pending = s.pending ∧ (placementAttempt s).clock = s.clock ∧ (placementAttempt s).draws = s.draws
    ∧ (placementAttempt s).sram = s.sram ∧ (placementAttempt s).pins = s.pins ∧ (placementAttempt s).loader = s.loader
    ∧ (placementAttempt s).health = s.health ∧ (placementAttempt s).power = s.power ∧ (placementAttempt s).bus.shadows = s.bus.shadows
    ∧ (placementAttempt s).bus.txHorizon = s.bus.txHorizon ∧ (placementAttempt s).bus.rxHorizon = s.bus.rxHorizon
    ∧ (placementAttempt s).bus.fixedH = s.bus.fixedH ∧ (placementAttempt s).bus.fixedG = s.bus.fixedG
    ∧ (placementAttempt s).bus.uplinkView = s.bus.uplinkView ∧ (placementAttempt s).bus.receiveView = s.bus.receiveView
    ∧ (placementAttempt s).bus.uplinkViewValue = s.bus.uplinkViewValue ∧ (placementAttempt s).bus.receiveViewValue = s.bus.receiveViewValue
    ∧ (placementAttempt s).bus.txGuard = s.bus.txGuard ∧ (placementAttempt s).bus.rxGuard = s.bus.rxGuard
    ∧ (placementAttempt s).bus.queue = s.bus.queue ∧ (placementAttempt s).bus.waitCount = s.bus.waitCount
    ∧ (placementAttempt s).bus.gatewayData = s.bus.gatewayData ∧ (placementAttempt s).ring.base = s.ring.base
    ∧ (placementAttempt s).ring.partTxc = s.ring.partTxc ∧ (placementAttempt s).ring.readMark = s.ring.readMark
    ∧ (placementAttempt s).ring.descriptorRead = s.ring.descriptorRead ∧ (placementAttempt s).ring.fence = s.ring.fence
    ∧ (placementAttempt s).ring.overrun = s.ring.overrun ∧ (placementAttempt s).ring.txCheckDue = s.ring.txCheckDue
    ∧ (placementAttempt s).ring.scanRunning = s.ring.scanRunning ∧ (placementAttempt s).ring.scanMark = s.ring.scanMark
    ∧ (placementAttempt s).ring.scanRead = s.ring.scanRead ∧ (placementAttempt s).ring.txForcing = s.ring.txForcing
    ∧ (placementAttempt s).ring.rxForcing = s.ring.rxForcing ∧ (placementAttempt s).ring.handBackAsked = s.ring.handBackAsked
    ∧ (placementAttempt s).ring.fillCursor = s.ring.fillCursor ∧ (placementAttempt s).ring.partRxf = s.ring.partRxf
    ∧ (placementAttempt s).ring.delivery = s.ring.delivery ∧ (placementAttempt s).ring.descriptorHeld = s.ring.descriptorHeld
    ∧ (placementAttempt s).ring.rxOverrun = s.ring.rxOverrun ∧ (placementAttempt s).ring.rxCheckDue = s.ring.rxCheckDue
    ∧ (placementAttempt s).path.path = s.path.path ∧ (placementAttempt s).path.phase = s.path.phase
    ∧ (placementAttempt s).path.dwellD = s.path.dwellD ∧ (placementAttempt s).path.dwell = s.path.dwell
    ∧ (placementAttempt s).path.refallTimer = s.path.refallTimer ∧ (placementAttempt s).path.refallOpen = s.path.refallOpen
    ∧ (placementAttempt s).path.releaseTimer = s.path.releaseTimer ∧ (placementAttempt s).path.txReleased = s.path.txReleased
    ∧ (placementAttempt s).path.rxReleased = s.path.rxReleased ∧ (placementAttempt s).path.drainTimer = s.path.drainTimer
    ∧ (placementAttempt s).path.radioWanted = s.path.radioWanted ∧ (placementAttempt s).path.returnPause = s.path.returnPause
    ∧ (placementAttempt s).path.recorded = s.path.recorded ∧ (placementAttempt s).hold.cells = s.hold.cells
    ∧ (placementAttempt s).hold.dqV = s.hold.dqV ∧ (placementAttempt s).hold.dqD = s.hold.dqD
    ∧ (placementAttempt s).hold.sweep10 = s.hold.sweep10 ∧ (placementAttempt s).hold.sweep1s = s.hold.sweep1s
    ∧ (placementAttempt s).pacer.pacing = s.pacer.pacing ∧ (placementAttempt s).pacer.refusalPause = s.pacer.refusalPause
    ∧ (placementAttempt s).pacer.grantSeen = s.pacer.grantSeen ∧ (placementAttempt s).pacer.usageBase = s.pacer.usageBase
    ∧ (placementAttempt s).pacer.carried = s.pacer.carried ∧ (placementAttempt s).pacer.allowance = s.pacer.allowance
    ∧ (placementAttempt s).pacer.downlinkCap = s.pacer.downlinkCap ∧ (placementAttempt s).radio.failures = s.radio.failures
    ∧ (placementAttempt s).radio.lastCause = s.radio.lastCause ∧ (placementAttempt s).radio.cycleTimer = s.radio.cycleTimer
    ∧ (placementAttempt s).radio.silenceTimer = s.radio.silenceTimer ∧ (placementAttempt s).radio.grantUp = s.radio.grantUp
    ∧ (placementAttempt s).radio.grantDown = s.radio.grantDown ∧ (placementAttempt s).radio.grantQuality = s.radio.grantQuality
    ∧ (placementAttempt s).radio.pauseTold = s.radio.pauseTold ∧ (placementAttempt s).radio.capTold = s.radio.capTold
    ∧ (placementAttempt s).radio.lowPowerTold = s.radio.lowPowerTold ∧ (placementAttempt s).radio.ldo = s.radio.ldo
    ∧ (placementAttempt s).radio.ldoLast = s.radio.ldoLast ∧ (placementAttempt s).radio.receiver = s.radio.receiver
    ∧ (placementAttempt s).events.evp = s.events.evp ∧ (placementAttempt s).events.slotKinds = s.events.slotKinds
    ∧ (placementAttempt s).events.refreshCount = s.events.refreshCount ∧ (placementAttempt s).events.refreshTimer = s.events.refreshTimer
    ∧ (placementAttempt s).events.pageWriting = s.events.pageWriting ∧ (placementAttempt s).events.pageWanted = s.events.pageWanted
    ∧ (placementAttempt s).events.ledMs = s.events.ledMs := by simp only [placementAttempt]; (repeat' split) <;> simp

@[simp] theorem detachedNext_frame (s : State) :
    (detachedNext s).pending = s.pending ∧ (detachedNext s).clock = s.clock ∧ (detachedNext s).draws = s.draws ∧ (detachedNext s).sram = s.sram
    ∧ (detachedNext s).pins = s.pins ∧ (detachedNext s).health = s.health ∧ (detachedNext s).pacer = s.pacer ∧ (detachedNext s).power = s.power
    ∧ (detachedNext s).loader.phase = s.loader.phase ∧ (detachedNext s).loader.flashCode = s.loader.flashCode
    ∧ (detachedNext s).loader.map = s.loader.map ∧ (detachedNext s).loader.linkClock = s.loader.linkClock
    ∧ (detachedNext s).loader.defaultPolicy = s.loader.defaultPolicy ∧ (detachedNext s).loader.policy = s.loader.policy
    ∧ (detachedNext s).loader.readState = s.loader.readState ∧ (detachedNext s).loader.readKind = s.loader.readKind
    ∧ (detachedNext s).loader.dueAfterRestart = s.loader.dueAfterRestart ∧ (detachedNext s).loader.firstHalf = s.loader.firstHalf
    ∧ (detachedNext s).loader.pgenAtIssue = s.loader.pgenAtIssue ∧ (detachedNext s).loader.softResetInForce = s.loader.softResetInForce
    ∧ (detachedNext s).loader.counterClearInForce = s.loader.counterClearInForce ∧ (detachedNext s).loader.shadowsLoaded = s.loader.shadowsLoaded
    ∧ (detachedNext s).loader.softReset = s.loader.softReset ∧ (detachedNext s).loader.softWait = s.loader.softWait
    ∧ (detachedNext s).loader.softPositions = s.loader.softPositions ∧ (detachedNext s).bus.shadows = s.bus.shadows
    ∧ (detachedNext s).bus.txHorizon = s.bus.txHorizon ∧ (detachedNext s).bus.rxHorizon = s.bus.rxHorizon
    ∧ (detachedNext s).bus.fixedH = s.bus.fixedH ∧ (detachedNext s).bus.fixedG = s.bus.fixedG
    ∧ (detachedNext s).bus.uplinkView = s.bus.uplinkView ∧ (detachedNext s).bus.receiveView = s.bus.receiveView
    ∧ (detachedNext s).bus.uplinkViewValue = s.bus.uplinkViewValue ∧ (detachedNext s).bus.receiveViewValue = s.bus.receiveViewValue
    ∧ (detachedNext s).bus.txGuard = s.bus.txGuard ∧ (detachedNext s).bus.rxGuard = s.bus.rxGuard ∧ (detachedNext s).bus.queue = s.bus.queue
    ∧ (detachedNext s).bus.waitCount = s.bus.waitCount ∧ (detachedNext s).bus.gatewayData = s.bus.gatewayData
    ∧ (detachedNext s).ring.base = s.ring.base ∧ (detachedNext s).ring.partTxc = s.ring.partTxc
    ∧ (detachedNext s).ring.readMark = s.ring.readMark ∧ (detachedNext s).ring.descriptorRead = s.ring.descriptorRead
    ∧ (detachedNext s).ring.fence = s.ring.fence ∧ (detachedNext s).ring.overrun = s.ring.overrun
    ∧ (detachedNext s).ring.txCheckDue = s.ring.txCheckDue ∧ (detachedNext s).ring.scanRunning = s.ring.scanRunning
    ∧ (detachedNext s).ring.scanMark = s.ring.scanMark ∧ (detachedNext s).ring.scanRead = s.ring.scanRead
    ∧ (detachedNext s).ring.txForcing = s.ring.txForcing ∧ (detachedNext s).ring.rxForcing = s.ring.rxForcing
    ∧ (detachedNext s).ring.handBackAsked = s.ring.handBackAsked ∧ (detachedNext s).ring.fillCursor = s.ring.fillCursor
    ∧ (detachedNext s).ring.partRxf = s.ring.partRxf ∧ (detachedNext s).ring.delivery = s.ring.delivery
    ∧ (detachedNext s).ring.descriptorHeld = s.ring.descriptorHeld ∧ (detachedNext s).ring.rxOverrun = s.ring.rxOverrun
    ∧ (detachedNext s).ring.rxCheckDue = s.ring.rxCheckDue ∧ (detachedNext s).path.path = s.path.path
    ∧ (detachedNext s).path.phase = s.path.phase ∧ (detachedNext s).path.dwellD = s.path.dwellD ∧ (detachedNext s).path.dwell = s.path.dwell
    ∧ (detachedNext s).path.refallTimer = s.path.refallTimer ∧ (detachedNext s).path.refallOpen = s.path.refallOpen
    ∧ (detachedNext s).path.releaseTimer = s.path.releaseTimer ∧ (detachedNext s).path.txReleased = s.path.txReleased
    ∧ (detachedNext s).path.rxReleased = s.path.rxReleased ∧ (detachedNext s).path.drainTimer = s.path.drainTimer
    ∧ (detachedNext s).path.radioWanted = s.path.radioWanted ∧ (detachedNext s).path.returnPause = s.path.returnPause
    ∧ (detachedNext s).path.recorded = s.path.recorded ∧ (detachedNext s).hold.cells = s.hold.cells ∧ (detachedNext s).hold.uqE = s.hold.uqE
    ∧ (detachedNext s).hold.uqV = s.hold.uqV ∧ (detachedNext s).hold.uqD = s.hold.uqD ∧ (detachedNext s).hold.dqV = s.hold.dqV
    ∧ (detachedNext s).hold.dqD = s.hold.dqD ∧ (detachedNext s).hold.sweep10 = s.hold.sweep10 ∧ (detachedNext s).hold.sweep1s = s.hold.sweep1s
    ∧ (detachedNext s).radio.failures = s.radio.failures ∧ (detachedNext s).radio.lastCause = s.radio.lastCause
    ∧ (detachedNext s).radio.silenceTimer = s.radio.silenceTimer ∧ (detachedNext s).radio.grantUp = s.radio.grantUp
    ∧ (detachedNext s).radio.grantDown = s.radio.grantDown ∧ (detachedNext s).radio.grantQuality = s.radio.grantQuality
    ∧ (detachedNext s).radio.slotA = s.radio.slotA ∧ (detachedNext s).radio.slotB = s.radio.slotB
    ∧ (detachedNext s).radio.unsent = s.radio.unsent ∧ (detachedNext s).radio.pauseTold = s.radio.pauseTold
    ∧ (detachedNext s).radio.capTold = s.radio.capTold ∧ (detachedNext s).radio.lowPowerTold = s.radio.lowPowerTold
    ∧ (detachedNext s).radio.ldoLast = s.radio.ldoLast ∧ (detachedNext s).events.evp = s.events.evp
    ∧ (detachedNext s).events.slotKinds = s.events.slotKinds ∧ (detachedNext s).events.refreshCount = s.events.refreshCount
    ∧ (detachedNext s).events.refreshTimer = s.events.refreshTimer ∧ (detachedNext s).events.pageWriting = s.events.pageWriting
    ∧ (detachedNext s).events.pageWanted = s.events.pageWanted ∧ (detachedNext s).events.ledMs = s.events.ledMs := by unfold detachedNext; (repeat' split) <;> simp

@[simp] theorem afterFailure_frame (s : State) :
    (afterFailure s).pending = s.pending ∧ (afterFailure s).clock = s.clock ∧ (afterFailure s).draws = s.draws ∧ (afterFailure s).sram = s.sram
    ∧ (afterFailure s).pins = s.pins ∧ (afterFailure s).health = s.health ∧ (afterFailure s).pacer = s.pacer ∧ (afterFailure s).power = s.power
    ∧ (afterFailure s).loader.phase = s.loader.phase ∧ (afterFailure s).loader.flashCode = s.loader.flashCode
    ∧ (afterFailure s).loader.map = s.loader.map ∧ (afterFailure s).loader.linkClock = s.loader.linkClock
    ∧ (afterFailure s).loader.defaultPolicy = s.loader.defaultPolicy ∧ (afterFailure s).loader.policy = s.loader.policy
    ∧ (afterFailure s).loader.readState = s.loader.readState ∧ (afterFailure s).loader.readKind = s.loader.readKind
    ∧ (afterFailure s).loader.dueAfterRestart = s.loader.dueAfterRestart ∧ (afterFailure s).loader.firstHalf = s.loader.firstHalf
    ∧ (afterFailure s).loader.pgenAtIssue = s.loader.pgenAtIssue ∧ (afterFailure s).loader.softResetInForce = s.loader.softResetInForce
    ∧ (afterFailure s).loader.counterClearInForce = s.loader.counterClearInForce ∧ (afterFailure s).loader.shadowsLoaded = s.loader.shadowsLoaded
    ∧ (afterFailure s).loader.softReset = s.loader.softReset ∧ (afterFailure s).loader.softWait = s.loader.softWait
    ∧ (afterFailure s).loader.softPositions = s.loader.softPositions ∧ (afterFailure s).bus.shadows = s.bus.shadows
    ∧ (afterFailure s).bus.txHorizon = s.bus.txHorizon ∧ (afterFailure s).bus.rxHorizon = s.bus.rxHorizon
    ∧ (afterFailure s).bus.fixedH = s.bus.fixedH ∧ (afterFailure s).bus.fixedG = s.bus.fixedG
    ∧ (afterFailure s).bus.uplinkView = s.bus.uplinkView ∧ (afterFailure s).bus.receiveView = s.bus.receiveView
    ∧ (afterFailure s).bus.uplinkViewValue = s.bus.uplinkViewValue ∧ (afterFailure s).bus.receiveViewValue = s.bus.receiveViewValue
    ∧ (afterFailure s).bus.txGuard = s.bus.txGuard ∧ (afterFailure s).bus.rxGuard = s.bus.rxGuard ∧ (afterFailure s).bus.queue = s.bus.queue
    ∧ (afterFailure s).bus.waitCount = s.bus.waitCount ∧ (afterFailure s).bus.gatewayData = s.bus.gatewayData
    ∧ (afterFailure s).ring.base = s.ring.base ∧ (afterFailure s).ring.partTxc = s.ring.partTxc
    ∧ (afterFailure s).ring.readMark = s.ring.readMark ∧ (afterFailure s).ring.descriptorRead = s.ring.descriptorRead
    ∧ (afterFailure s).ring.fence = s.ring.fence ∧ (afterFailure s).ring.overrun = s.ring.overrun
    ∧ (afterFailure s).ring.txCheckDue = s.ring.txCheckDue ∧ (afterFailure s).ring.scanRunning = s.ring.scanRunning
    ∧ (afterFailure s).ring.scanMark = s.ring.scanMark ∧ (afterFailure s).ring.scanRead = s.ring.scanRead
    ∧ (afterFailure s).ring.txForcing = s.ring.txForcing ∧ (afterFailure s).ring.rxForcing = s.ring.rxForcing
    ∧ (afterFailure s).ring.handBackAsked = s.ring.handBackAsked ∧ (afterFailure s).ring.fillCursor = s.ring.fillCursor
    ∧ (afterFailure s).ring.partRxf = s.ring.partRxf ∧ (afterFailure s).ring.delivery = s.ring.delivery
    ∧ (afterFailure s).ring.descriptorHeld = s.ring.descriptorHeld ∧ (afterFailure s).ring.rxOverrun = s.ring.rxOverrun
    ∧ (afterFailure s).ring.rxCheckDue = s.ring.rxCheckDue ∧ (afterFailure s).path.path = s.path.path
    ∧ (afterFailure s).path.phase = s.path.phase ∧ (afterFailure s).path.dwellD = s.path.dwellD ∧ (afterFailure s).path.dwell = s.path.dwell
    ∧ (afterFailure s).path.refallTimer = s.path.refallTimer ∧ (afterFailure s).path.refallOpen = s.path.refallOpen
    ∧ (afterFailure s).path.releaseTimer = s.path.releaseTimer ∧ (afterFailure s).path.txReleased = s.path.txReleased
    ∧ (afterFailure s).path.rxReleased = s.path.rxReleased ∧ (afterFailure s).path.drainTimer = s.path.drainTimer
    ∧ (afterFailure s).path.radioWanted = s.path.radioWanted ∧ (afterFailure s).path.returnPause = s.path.returnPause
    ∧ (afterFailure s).path.recorded = s.path.recorded ∧ (afterFailure s).hold.cells = s.hold.cells ∧ (afterFailure s).hold.uqE = s.hold.uqE
    ∧ (afterFailure s).hold.uqV = s.hold.uqV ∧ (afterFailure s).hold.uqD = s.hold.uqD ∧ (afterFailure s).hold.dqV = s.hold.dqV
    ∧ (afterFailure s).hold.dqD = s.hold.dqD ∧ (afterFailure s).hold.sweep10 = s.hold.sweep10 ∧ (afterFailure s).hold.sweep1s = s.hold.sweep1s
    ∧ (afterFailure s).radio.failures = s.radio.failures ∧ (afterFailure s).radio.lastCause = s.radio.lastCause
    ∧ (afterFailure s).radio.silenceTimer = s.radio.silenceTimer ∧ (afterFailure s).radio.grantUp = s.radio.grantUp
    ∧ (afterFailure s).radio.grantDown = s.radio.grantDown ∧ (afterFailure s).radio.grantQuality = s.radio.grantQuality
    ∧ (afterFailure s).radio.slotA = s.radio.slotA ∧ (afterFailure s).radio.slotB = s.radio.slotB
    ∧ (afterFailure s).radio.unsent = s.radio.unsent ∧ (afterFailure s).radio.pauseTold = s.radio.pauseTold
    ∧ (afterFailure s).radio.capTold = s.radio.capTold ∧ (afterFailure s).radio.lowPowerTold = s.radio.lowPowerTold
    ∧ (afterFailure s).radio.ldoLast = s.radio.ldoLast ∧ (afterFailure s).events.evp = s.events.evp
    ∧ (afterFailure s).events.slotKinds = s.events.slotKinds ∧ (afterFailure s).events.refreshCount = s.events.refreshCount
    ∧ (afterFailure s).events.refreshTimer = s.events.refreshTimer ∧ (afterFailure s).events.pageWriting = s.events.pageWriting
    ∧ (afterFailure s).events.pageWanted = s.events.pageWanted ∧ (afterFailure s).events.ledMs = s.events.ledMs := by unfold afterFailure; (repeat' split) <;> simp

@[simp] theorem wantRadio_frame (s : State) :
    (wantRadio s).pending = s.pending ∧ (wantRadio s).clock = s.clock ∧ (wantRadio s).draws = s.draws ∧ (wantRadio s).sram = s.sram
    ∧ (wantRadio s).pins = s.pins ∧ (wantRadio s).health = s.health ∧ (wantRadio s).pacer = s.pacer ∧ (wantRadio s).power = s.power
    ∧ (wantRadio s).loader.phase = s.loader.phase ∧ (wantRadio s).loader.flashCode = s.loader.flashCode ∧ (wantRadio s).loader.map = s.loader.map
    ∧ (wantRadio s).loader.linkClock = s.loader.linkClock ∧ (wantRadio s).loader.defaultPolicy = s.loader.defaultPolicy
    ∧ (wantRadio s).loader.policy = s.loader.policy ∧ (wantRadio s).loader.readState = s.loader.readState
    ∧ (wantRadio s).loader.readKind = s.loader.readKind ∧ (wantRadio s).loader.dueAfterRestart = s.loader.dueAfterRestart
    ∧ (wantRadio s).loader.firstHalf = s.loader.firstHalf ∧ (wantRadio s).loader.pgenAtIssue = s.loader.pgenAtIssue
    ∧ (wantRadio s).loader.softResetInForce = s.loader.softResetInForce ∧ (wantRadio s).loader.counterClearInForce = s.loader.counterClearInForce
    ∧ (wantRadio s).loader.shadowsLoaded = s.loader.shadowsLoaded ∧ (wantRadio s).loader.softReset = s.loader.softReset
    ∧ (wantRadio s).loader.softWait = s.loader.softWait ∧ (wantRadio s).loader.softPositions = s.loader.softPositions
    ∧ (wantRadio s).bus.shadows = s.bus.shadows ∧ (wantRadio s).bus.txHorizon = s.bus.txHorizon ∧ (wantRadio s).bus.rxHorizon = s.bus.rxHorizon
    ∧ (wantRadio s).bus.fixedH = s.bus.fixedH ∧ (wantRadio s).bus.fixedG = s.bus.fixedG ∧ (wantRadio s).bus.uplinkView = s.bus.uplinkView
    ∧ (wantRadio s).bus.receiveView = s.bus.receiveView ∧ (wantRadio s).bus.uplinkViewValue = s.bus.uplinkViewValue
    ∧ (wantRadio s).bus.receiveViewValue = s.bus.receiveViewValue ∧ (wantRadio s).bus.txGuard = s.bus.txGuard
    ∧ (wantRadio s).bus.rxGuard = s.bus.rxGuard ∧ (wantRadio s).bus.queue = s.bus.queue ∧ (wantRadio s).bus.waitCount = s.bus.waitCount
    ∧ (wantRadio s).bus.gatewayData = s.bus.gatewayData ∧ (wantRadio s).ring.base = s.ring.base ∧ (wantRadio s).ring.partTxc = s.ring.partTxc
    ∧ (wantRadio s).ring.readMark = s.ring.readMark ∧ (wantRadio s).ring.descriptorRead = s.ring.descriptorRead
    ∧ (wantRadio s).ring.fence = s.ring.fence ∧ (wantRadio s).ring.overrun = s.ring.overrun ∧ (wantRadio s).ring.txCheckDue = s.ring.txCheckDue
    ∧ (wantRadio s).ring.scanRunning = s.ring.scanRunning ∧ (wantRadio s).ring.scanMark = s.ring.scanMark
    ∧ (wantRadio s).ring.scanRead = s.ring.scanRead ∧ (wantRadio s).ring.txForcing = s.ring.txForcing
    ∧ (wantRadio s).ring.rxForcing = s.ring.rxForcing ∧ (wantRadio s).ring.handBackAsked = s.ring.handBackAsked
    ∧ (wantRadio s).ring.fillCursor = s.ring.fillCursor ∧ (wantRadio s).ring.partRxf = s.ring.partRxf
    ∧ (wantRadio s).ring.delivery = s.ring.delivery ∧ (wantRadio s).ring.descriptorHeld = s.ring.descriptorHeld
    ∧ (wantRadio s).ring.rxOverrun = s.ring.rxOverrun ∧ (wantRadio s).ring.rxCheckDue = s.ring.rxCheckDue ∧ (wantRadio s).path.path = s.path.path
    ∧ (wantRadio s).path.phase = s.path.phase ∧ (wantRadio s).path.dwellD = s.path.dwellD ∧ (wantRadio s).path.dwell = s.path.dwell
    ∧ (wantRadio s).path.refallTimer = s.path.refallTimer ∧ (wantRadio s).path.refallOpen = s.path.refallOpen
    ∧ (wantRadio s).path.releaseTimer = s.path.releaseTimer ∧ (wantRadio s).path.txReleased = s.path.txReleased
    ∧ (wantRadio s).path.rxReleased = s.path.rxReleased ∧ (wantRadio s).path.drainTimer = s.path.drainTimer
    ∧ (wantRadio s).path.returnPause = s.path.returnPause ∧ (wantRadio s).path.recorded = s.path.recorded
    ∧ (wantRadio s).hold.cells = s.hold.cells ∧ (wantRadio s).hold.uqE = s.hold.uqE ∧ (wantRadio s).hold.uqV = s.hold.uqV
    ∧ (wantRadio s).hold.uqD = s.hold.uqD ∧ (wantRadio s).hold.dqV = s.hold.dqV ∧ (wantRadio s).hold.dqD = s.hold.dqD
    ∧ (wantRadio s).hold.sweep10 = s.hold.sweep10 ∧ (wantRadio s).hold.sweep1s = s.hold.sweep1s ∧ (wantRadio s).radio.failures = s.radio.failures
    ∧ (wantRadio s).radio.lastCause = s.radio.lastCause ∧ (wantRadio s).radio.silenceTimer = s.radio.silenceTimer
    ∧ (wantRadio s).radio.grantUp = s.radio.grantUp ∧ (wantRadio s).radio.grantDown = s.radio.grantDown
    ∧ (wantRadio s).radio.grantQuality = s.radio.grantQuality ∧ (wantRadio s).radio.slotA = s.radio.slotA
    ∧ (wantRadio s).radio.slotB = s.radio.slotB ∧ (wantRadio s).radio.unsent = s.radio.unsent ∧ (wantRadio s).radio.pauseTold = s.radio.pauseTold
    ∧ (wantRadio s).radio.capTold = s.radio.capTold ∧ (wantRadio s).radio.lowPowerTold = s.radio.lowPowerTold
    ∧ (wantRadio s).radio.ldoLast = s.radio.ldoLast ∧ (wantRadio s).events.evp = s.events.evp
    ∧ (wantRadio s).events.slotKinds = s.events.slotKinds ∧ (wantRadio s).events.refreshCount = s.events.refreshCount
    ∧ (wantRadio s).events.refreshTimer = s.events.refreshTimer ∧ (wantRadio s).events.pageWriting = s.events.pageWriting
    ∧ (wantRadio s).events.pageWanted = s.events.pageWanted ∧ (wantRadio s).events.ledMs = s.events.ledMs := by simp only [wantRadio]; (repeat' split) <;> simp

@[simp] theorem unwantRadio_frame (s : State) :
    (unwantRadio s).pending = s.pending ∧ (unwantRadio s).clock = s.clock ∧ (unwantRadio s).draws = s.draws ∧ (unwantRadio s).sram = s.sram
    ∧ (unwantRadio s).pins = s.pins ∧ (unwantRadio s).health = s.health ∧ (unwantRadio s).pacer = s.pacer ∧ (unwantRadio s).power = s.power
    ∧ (unwantRadio s).loader.phase = s.loader.phase ∧ (unwantRadio s).loader.flashCode = s.loader.flashCode
    ∧ (unwantRadio s).loader.map = s.loader.map ∧ (unwantRadio s).loader.linkClock = s.loader.linkClock
    ∧ (unwantRadio s).loader.defaultPolicy = s.loader.defaultPolicy ∧ (unwantRadio s).loader.policy = s.loader.policy
    ∧ (unwantRadio s).loader.readState = s.loader.readState ∧ (unwantRadio s).loader.readKind = s.loader.readKind
    ∧ (unwantRadio s).loader.dueAfterRestart = s.loader.dueAfterRestart ∧ (unwantRadio s).loader.firstHalf = s.loader.firstHalf
    ∧ (unwantRadio s).loader.pgenAtIssue = s.loader.pgenAtIssue ∧ (unwantRadio s).loader.softResetInForce = s.loader.softResetInForce
    ∧ (unwantRadio s).loader.counterClearInForce = s.loader.counterClearInForce ∧ (unwantRadio s).loader.shadowsLoaded = s.loader.shadowsLoaded
    ∧ (unwantRadio s).loader.softReset = s.loader.softReset ∧ (unwantRadio s).loader.softWait = s.loader.softWait
    ∧ (unwantRadio s).loader.softPositions = s.loader.softPositions ∧ (unwantRadio s).bus.shadows = s.bus.shadows
    ∧ (unwantRadio s).bus.txHorizon = s.bus.txHorizon ∧ (unwantRadio s).bus.rxHorizon = s.bus.rxHorizon
    ∧ (unwantRadio s).bus.fixedH = s.bus.fixedH ∧ (unwantRadio s).bus.fixedG = s.bus.fixedG ∧ (unwantRadio s).bus.uplinkView = s.bus.uplinkView
    ∧ (unwantRadio s).bus.receiveView = s.bus.receiveView ∧ (unwantRadio s).bus.uplinkViewValue = s.bus.uplinkViewValue
    ∧ (unwantRadio s).bus.receiveViewValue = s.bus.receiveViewValue ∧ (unwantRadio s).bus.txGuard = s.bus.txGuard
    ∧ (unwantRadio s).bus.rxGuard = s.bus.rxGuard ∧ (unwantRadio s).bus.queue = s.bus.queue ∧ (unwantRadio s).bus.waitCount = s.bus.waitCount
    ∧ (unwantRadio s).bus.gatewayData = s.bus.gatewayData ∧ (unwantRadio s).ring.base = s.ring.base
    ∧ (unwantRadio s).ring.partTxc = s.ring.partTxc ∧ (unwantRadio s).ring.readMark = s.ring.readMark
    ∧ (unwantRadio s).ring.descriptorRead = s.ring.descriptorRead ∧ (unwantRadio s).ring.fence = s.ring.fence
    ∧ (unwantRadio s).ring.overrun = s.ring.overrun ∧ (unwantRadio s).ring.txCheckDue = s.ring.txCheckDue
    ∧ (unwantRadio s).ring.scanRunning = s.ring.scanRunning ∧ (unwantRadio s).ring.scanMark = s.ring.scanMark
    ∧ (unwantRadio s).ring.scanRead = s.ring.scanRead ∧ (unwantRadio s).ring.txForcing = s.ring.txForcing
    ∧ (unwantRadio s).ring.rxForcing = s.ring.rxForcing ∧ (unwantRadio s).ring.handBackAsked = s.ring.handBackAsked
    ∧ (unwantRadio s).ring.fillCursor = s.ring.fillCursor ∧ (unwantRadio s).ring.partRxf = s.ring.partRxf
    ∧ (unwantRadio s).ring.delivery = s.ring.delivery ∧ (unwantRadio s).ring.descriptorHeld = s.ring.descriptorHeld
    ∧ (unwantRadio s).ring.rxOverrun = s.ring.rxOverrun ∧ (unwantRadio s).ring.rxCheckDue = s.ring.rxCheckDue
    ∧ (unwantRadio s).path.path = s.path.path ∧ (unwantRadio s).path.phase = s.path.phase ∧ (unwantRadio s).path.dwellD = s.path.dwellD
    ∧ (unwantRadio s).path.dwell = s.path.dwell ∧ (unwantRadio s).path.refallTimer = s.path.refallTimer
    ∧ (unwantRadio s).path.refallOpen = s.path.refallOpen ∧ (unwantRadio s).path.releaseTimer = s.path.releaseTimer
    ∧ (unwantRadio s).path.txReleased = s.path.txReleased ∧ (unwantRadio s).path.rxReleased = s.path.rxReleased
    ∧ (unwantRadio s).path.drainTimer = s.path.drainTimer ∧ (unwantRadio s).path.returnPause = s.path.returnPause
    ∧ (unwantRadio s).path.recorded = s.path.recorded ∧ (unwantRadio s).hold.cells = s.hold.cells ∧ (unwantRadio s).hold.uqE = s.hold.uqE
    ∧ (unwantRadio s).hold.uqV = s.hold.uqV ∧ (unwantRadio s).hold.uqD = s.hold.uqD ∧ (unwantRadio s).hold.dqV = s.hold.dqV
    ∧ (unwantRadio s).hold.dqD = s.hold.dqD ∧ (unwantRadio s).hold.sweep10 = s.hold.sweep10 ∧ (unwantRadio s).hold.sweep1s = s.hold.sweep1s
    ∧ (unwantRadio s).radio.failures = s.radio.failures ∧ (unwantRadio s).radio.lastCause = s.radio.lastCause
    ∧ (unwantRadio s).radio.silenceTimer = s.radio.silenceTimer ∧ (unwantRadio s).radio.grantUp = s.radio.grantUp
    ∧ (unwantRadio s).radio.grantDown = s.radio.grantDown ∧ (unwantRadio s).radio.grantQuality = s.radio.grantQuality
    ∧ (unwantRadio s).radio.slotA = s.radio.slotA ∧ (unwantRadio s).radio.slotB = s.radio.slotB ∧ (unwantRadio s).radio.unsent = s.radio.unsent
    ∧ (unwantRadio s).radio.pauseTold = s.radio.pauseTold ∧ (unwantRadio s).radio.capTold = s.radio.capTold
    ∧ (unwantRadio s).radio.lowPowerTold = s.radio.lowPowerTold ∧ (unwantRadio s).radio.ldoLast = s.radio.ldoLast
    ∧ (unwantRadio s).events.evp = s.events.evp ∧ (unwantRadio s).events.slotKinds = s.events.slotKinds
    ∧ (unwantRadio s).events.refreshCount = s.events.refreshCount ∧ (unwantRadio s).events.refreshTimer = s.events.refreshTimer
    ∧ (unwantRadio s).events.pageWriting = s.events.pageWriting ∧ (unwantRadio s).events.pageWanted = s.events.pageWanted
    ∧ (unwantRadio s).events.ledMs = s.events.ledMs := by simp [unwantRadio]

@[simp] theorem clearEmergency_frame (s : State) :
    (clearEmergency s).pending = s.pending ∧ (clearEmergency s).clock = s.clock ∧ (clearEmergency s).draws = s.draws
    ∧ (clearEmergency s).sram = s.sram ∧ (clearEmergency s).pins = s.pins ∧ (clearEmergency s).health = s.health
    ∧ (clearEmergency s).pacer = s.pacer ∧ (clearEmergency s).power = s.power ∧ (clearEmergency s).loader.phase = s.loader.phase
    ∧ (clearEmergency s).loader.flashCode = s.loader.flashCode ∧ (clearEmergency s).loader.map = s.loader.map
    ∧ (clearEmergency s).loader.linkClock = s.loader.linkClock ∧ (clearEmergency s).loader.defaultPolicy = s.loader.defaultPolicy
    ∧ (clearEmergency s).loader.policy = s.loader.policy ∧ (clearEmergency s).loader.readState = s.loader.readState
    ∧ (clearEmergency s).loader.readKind = s.loader.readKind ∧ (clearEmergency s).loader.dueAfterRestart = s.loader.dueAfterRestart
    ∧ (clearEmergency s).loader.firstHalf = s.loader.firstHalf ∧ (clearEmergency s).loader.pgenAtIssue = s.loader.pgenAtIssue
    ∧ (clearEmergency s).loader.softResetInForce = s.loader.softResetInForce
    ∧ (clearEmergency s).loader.counterClearInForce = s.loader.counterClearInForce
    ∧ (clearEmergency s).loader.shadowsLoaded = s.loader.shadowsLoaded ∧ (clearEmergency s).loader.softReset = s.loader.softReset
    ∧ (clearEmergency s).loader.softWait = s.loader.softWait ∧ (clearEmergency s).loader.softPositions = s.loader.softPositions
    ∧ (clearEmergency s).bus.shadows = s.bus.shadows ∧ (clearEmergency s).bus.txHorizon = s.bus.txHorizon
    ∧ (clearEmergency s).bus.rxHorizon = s.bus.rxHorizon ∧ (clearEmergency s).bus.fixedH = s.bus.fixedH
    ∧ (clearEmergency s).bus.fixedG = s.bus.fixedG ∧ (clearEmergency s).bus.uplinkView = s.bus.uplinkView
    ∧ (clearEmergency s).bus.receiveView = s.bus.receiveView ∧ (clearEmergency s).bus.uplinkViewValue = s.bus.uplinkViewValue
    ∧ (clearEmergency s).bus.receiveViewValue = s.bus.receiveViewValue ∧ (clearEmergency s).bus.txGuard = s.bus.txGuard
    ∧ (clearEmergency s).bus.rxGuard = s.bus.rxGuard ∧ (clearEmergency s).bus.queue = s.bus.queue
    ∧ (clearEmergency s).bus.waitCount = s.bus.waitCount ∧ (clearEmergency s).bus.gatewayData = s.bus.gatewayData
    ∧ (clearEmergency s).ring.base = s.ring.base ∧ (clearEmergency s).ring.partTxc = s.ring.partTxc
    ∧ (clearEmergency s).ring.readMark = s.ring.readMark ∧ (clearEmergency s).ring.descriptorRead = s.ring.descriptorRead
    ∧ (clearEmergency s).ring.fence = s.ring.fence ∧ (clearEmergency s).ring.overrun = s.ring.overrun
    ∧ (clearEmergency s).ring.txCheckDue = s.ring.txCheckDue ∧ (clearEmergency s).ring.scanRunning = s.ring.scanRunning
    ∧ (clearEmergency s).ring.scanMark = s.ring.scanMark ∧ (clearEmergency s).ring.scanRead = s.ring.scanRead
    ∧ (clearEmergency s).ring.txForcing = s.ring.txForcing ∧ (clearEmergency s).ring.rxForcing = s.ring.rxForcing
    ∧ (clearEmergency s).ring.handBackAsked = s.ring.handBackAsked ∧ (clearEmergency s).ring.fillCursor = s.ring.fillCursor
    ∧ (clearEmergency s).ring.partRxf = s.ring.partRxf ∧ (clearEmergency s).ring.delivery = s.ring.delivery
    ∧ (clearEmergency s).ring.descriptorHeld = s.ring.descriptorHeld ∧ (clearEmergency s).ring.rxOverrun = s.ring.rxOverrun
    ∧ (clearEmergency s).ring.rxCheckDue = s.ring.rxCheckDue ∧ (clearEmergency s).path.path = s.path.path
    ∧ (clearEmergency s).path.phase = s.path.phase ∧ (clearEmergency s).path.dwellD = s.path.dwellD
    ∧ (clearEmergency s).path.dwell = s.path.dwell ∧ (clearEmergency s).path.refallTimer = s.path.refallTimer
    ∧ (clearEmergency s).path.refallOpen = s.path.refallOpen ∧ (clearEmergency s).path.releaseTimer = s.path.releaseTimer
    ∧ (clearEmergency s).path.txReleased = s.path.txReleased ∧ (clearEmergency s).path.rxReleased = s.path.rxReleased
    ∧ (clearEmergency s).path.drainTimer = s.path.drainTimer ∧ (clearEmergency s).path.radioWanted = s.path.radioWanted
    ∧ (clearEmergency s).path.returnPause = s.path.returnPause ∧ (clearEmergency s).path.recorded = s.path.recorded
    ∧ (clearEmergency s).hold.cells = s.hold.cells ∧ (clearEmergency s).hold.uqE = s.hold.uqE ∧ (clearEmergency s).hold.uqV = s.hold.uqV
    ∧ (clearEmergency s).hold.uqD = s.hold.uqD ∧ (clearEmergency s).hold.dqV = s.hold.dqV ∧ (clearEmergency s).hold.dqD = s.hold.dqD
    ∧ (clearEmergency s).hold.sweep10 = s.hold.sweep10 ∧ (clearEmergency s).hold.sweep1s = s.hold.sweep1s
    ∧ (clearEmergency s).radio.failures = s.radio.failures ∧ (clearEmergency s).radio.lastCause = s.radio.lastCause
    ∧ (clearEmergency s).radio.silenceTimer = s.radio.silenceTimer ∧ (clearEmergency s).radio.grantUp = s.radio.grantUp
    ∧ (clearEmergency s).radio.grantDown = s.radio.grantDown ∧ (clearEmergency s).radio.grantQuality = s.radio.grantQuality
    ∧ (clearEmergency s).radio.slotA = s.radio.slotA ∧ (clearEmergency s).radio.slotB = s.radio.slotB
    ∧ (clearEmergency s).radio.unsent = s.radio.unsent ∧ (clearEmergency s).radio.pauseTold = s.radio.pauseTold
    ∧ (clearEmergency s).radio.capTold = s.radio.capTold ∧ (clearEmergency s).radio.lowPowerTold = s.radio.lowPowerTold
    ∧ (clearEmergency s).radio.ldoLast = s.radio.ldoLast ∧ (clearEmergency s).events.evp = s.events.evp
    ∧ (clearEmergency s).events.slotKinds = s.events.slotKinds ∧ (clearEmergency s).events.refreshCount = s.events.refreshCount
    ∧ (clearEmergency s).events.refreshTimer = s.events.refreshTimer ∧ (clearEmergency s).events.pageWriting = s.events.pageWriting
    ∧ (clearEmergency s).events.pageWanted = s.events.pageWanted ∧ (clearEmergency s).events.ledMs = s.events.ledMs := by simp [clearEmergency]

@[simp] theorem reinitialise_frame (s : State) :
    (reinitialise s).pending = s.pending ∧ (reinitialise s).clock = s.clock ∧ (reinitialise s).draws = s.draws ∧ (reinitialise s).sram = s.sram
    ∧ (reinitialise s).pins = s.pins ∧ (reinitialise s).loader.phase = s.loader.phase ∧ (reinitialise s).loader.flashCode = s.loader.flashCode
    ∧ (reinitialise s).loader.map = s.loader.map ∧ (reinitialise s).loader.linkClock = s.loader.linkClock
    ∧ (reinitialise s).loader.defaultPolicy = s.loader.defaultPolicy ∧ (reinitialise s).loader.policy = s.loader.policy
    ∧ (reinitialise s).loader.firstHalf = s.loader.firstHalf ∧ (reinitialise s).loader.pgenAtIssue = s.loader.pgenAtIssue
    ∧ (reinitialise s).loader.softResetInForce = s.loader.softResetInForce
    ∧ (reinitialise s).loader.counterClearInForce = s.loader.counterClearInForce ∧ (reinitialise s).loader.shadowsLoaded = s.loader.shadowsLoaded
    ∧ (reinitialise s).loader.softPositions = s.loader.softPositions ∧ (reinitialise s).bus.shadows = s.bus.shadows
    ∧ (reinitialise s).bus.txHorizon = s.bus.txHorizon ∧ (reinitialise s).bus.rxHorizon = s.bus.rxHorizon
    ∧ (reinitialise s).bus.fixedH = s.bus.fixedH ∧ (reinitialise s).bus.fixedG = s.bus.fixedG
    ∧ (reinitialise s).bus.uplinkView = s.bus.uplinkView ∧ (reinitialise s).bus.receiveView = s.bus.receiveView
    ∧ (reinitialise s).bus.uplinkViewValue = s.bus.uplinkViewValue ∧ (reinitialise s).bus.receiveViewValue = s.bus.receiveViewValue
    ∧ (reinitialise s).bus.txGuard = s.bus.txGuard ∧ (reinitialise s).bus.rxGuard = s.bus.rxGuard ∧ (reinitialise s).bus.queue = s.bus.queue
    ∧ (reinitialise s).bus.waitCount = s.bus.waitCount ∧ (reinitialise s).bus.gatewayData = s.bus.gatewayData
    ∧ (reinitialise s).ring.partTxc = s.ring.partTxc ∧ (reinitialise s).ring.txCheckDue = s.ring.txCheckDue
    ∧ (reinitialise s).ring.txForcing = s.ring.txForcing ∧ (reinitialise s).ring.rxForcing = s.ring.rxForcing
    ∧ (reinitialise s).ring.fillCursor = s.ring.fillCursor ∧ (reinitialise s).ring.partRxf = s.ring.partRxf
    ∧ (reinitialise s).ring.rxCheckDue = s.ring.rxCheckDue ∧ (reinitialise s).path.path = s.path.path
    ∧ (reinitialise s).path.phase = s.path.phase ∧ (reinitialise s).path.dwellD = s.path.dwellD ∧ (reinitialise s).path.dwell = s.path.dwell
    ∧ (reinitialise s).path.refallTimer = s.path.refallTimer ∧ (reinitialise s).path.refallOpen = s.path.refallOpen
    ∧ (reinitialise s).path.releaseTimer = s.path.releaseTimer ∧ (reinitialise s).path.txReleased = s.path.txReleased
    ∧ (reinitialise s).path.rxReleased = s.path.rxReleased ∧ (reinitialise s).path.drainTimer = s.path.drainTimer
    ∧ (reinitialise s).path.radioWanted = s.path.radioWanted ∧ (reinitialise s).path.returnPause = s.path.returnPause
    ∧ (reinitialise s).path.recorded = s.path.recorded ∧ (reinitialise s).hold.cells = s.hold.cells
    ∧ (reinitialise s).pacer.usageBase = s.pacer.usageBase ∧ (reinitialise s).pacer.carried = s.pacer.carried
    ∧ (reinitialise s).pacer.allowance = s.pacer.allowance ∧ (reinitialise s).pacer.downlinkCap = s.pacer.downlinkCap
    ∧ (reinitialise s).radio.pauseTold = s.radio.pauseTold ∧ (reinitialise s).radio.capTold = s.radio.capTold
    ∧ (reinitialise s).radio.lowPowerTold = s.radio.lowPowerTold ∧ (reinitialise s).radio.ldoLast = s.radio.ldoLast
    ∧ (reinitialise s).power.mode = s.power.mode ∧ (reinitialise s).power.step = s.power.step
    ∧ (reinitialise s).power.mainsReturn = s.power.mainsReturn ∧ (reinitialise s).power.dozeTimer = s.power.dozeTimer
    ∧ (reinitialise s).power.restart = s.power.restart ∧ (reinitialise s).events.evp = s.events.evp
    ∧ (reinitialise s).events.slotKinds = s.events.slotKinds ∧ (reinitialise s).events.refreshCount = s.events.refreshCount
    ∧ (reinitialise s).events.refreshTimer = s.events.refreshTimer ∧ (reinitialise s).events.pageWriting = s.events.pageWriting
    ∧ (reinitialise s).events.pageWanted = s.events.pageWanted ∧ (reinitialise s).events.ledMs = s.events.ledMs := by simp [reinitialise]

@[simp] theorem changeMode_frame (mode : PowerMode) (cause : PowerCause) (s : State) :
    (changeMode mode cause s).pending = s.pending ∧ (changeMode mode cause s).clock = s.clock ∧ (changeMode mode cause s).draws = s.draws
    ∧ (changeMode mode cause s).sram = s.sram ∧ (changeMode mode cause s).pins = s.pins ∧ (changeMode mode cause s).health = s.health
    ∧ (changeMode mode cause s).pacer = s.pacer ∧ (changeMode mode cause s).loader.phase = s.loader.phase
    ∧ (changeMode mode cause s).loader.flashCode = s.loader.flashCode ∧ (changeMode mode cause s).loader.map = s.loader.map
    ∧ (changeMode mode cause s).loader.linkClock = s.loader.linkClock ∧ (changeMode mode cause s).loader.defaultPolicy = s.loader.defaultPolicy
    ∧ (changeMode mode cause s).loader.policy = s.loader.policy ∧ (changeMode mode cause s).loader.readState = s.loader.readState
    ∧ (changeMode mode cause s).loader.readKind = s.loader.readKind ∧ (changeMode mode cause s).loader.dueAfterRestart = s.loader.dueAfterRestart
    ∧ (changeMode mode cause s).loader.firstHalf = s.loader.firstHalf ∧ (changeMode mode cause s).loader.pgenAtIssue = s.loader.pgenAtIssue
    ∧ (changeMode mode cause s).loader.softResetInForce = s.loader.softResetInForce
    ∧ (changeMode mode cause s).loader.counterClearInForce = s.loader.counterClearInForce
    ∧ (changeMode mode cause s).loader.shadowsLoaded = s.loader.shadowsLoaded ∧ (changeMode mode cause s).loader.softReset = s.loader.softReset
    ∧ (changeMode mode cause s).loader.softWait = s.loader.softWait ∧ (changeMode mode cause s).loader.softPositions = s.loader.softPositions
    ∧ (changeMode mode cause s).bus.shadows = s.bus.shadows ∧ (changeMode mode cause s).bus.txHorizon = s.bus.txHorizon
    ∧ (changeMode mode cause s).bus.rxHorizon = s.bus.rxHorizon ∧ (changeMode mode cause s).bus.fixedH = s.bus.fixedH
    ∧ (changeMode mode cause s).bus.fixedG = s.bus.fixedG ∧ (changeMode mode cause s).bus.uplinkView = s.bus.uplinkView
    ∧ (changeMode mode cause s).bus.receiveView = s.bus.receiveView ∧ (changeMode mode cause s).bus.uplinkViewValue = s.bus.uplinkViewValue
    ∧ (changeMode mode cause s).bus.receiveViewValue = s.bus.receiveViewValue ∧ (changeMode mode cause s).bus.txGuard = s.bus.txGuard
    ∧ (changeMode mode cause s).bus.rxGuard = s.bus.rxGuard ∧ (changeMode mode cause s).bus.queue = s.bus.queue
    ∧ (changeMode mode cause s).bus.waitCount = s.bus.waitCount ∧ (changeMode mode cause s).bus.gatewayData = s.bus.gatewayData
    ∧ (changeMode mode cause s).ring.base = s.ring.base ∧ (changeMode mode cause s).ring.partTxc = s.ring.partTxc
    ∧ (changeMode mode cause s).ring.readMark = s.ring.readMark ∧ (changeMode mode cause s).ring.descriptorRead = s.ring.descriptorRead
    ∧ (changeMode mode cause s).ring.fence = s.ring.fence ∧ (changeMode mode cause s).ring.overrun = s.ring.overrun
    ∧ (changeMode mode cause s).ring.txCheckDue = s.ring.txCheckDue ∧ (changeMode mode cause s).ring.scanRunning = s.ring.scanRunning
    ∧ (changeMode mode cause s).ring.scanMark = s.ring.scanMark ∧ (changeMode mode cause s).ring.scanRead = s.ring.scanRead
    ∧ (changeMode mode cause s).ring.txForcing = s.ring.txForcing ∧ (changeMode mode cause s).ring.rxForcing = s.ring.rxForcing
    ∧ (changeMode mode cause s).ring.handBackAsked = s.ring.handBackAsked ∧ (changeMode mode cause s).ring.fillCursor = s.ring.fillCursor
    ∧ (changeMode mode cause s).ring.partRxf = s.ring.partRxf ∧ (changeMode mode cause s).ring.delivery = s.ring.delivery
    ∧ (changeMode mode cause s).ring.descriptorHeld = s.ring.descriptorHeld ∧ (changeMode mode cause s).ring.rxOverrun = s.ring.rxOverrun
    ∧ (changeMode mode cause s).ring.rxCheckDue = s.ring.rxCheckDue ∧ (changeMode mode cause s).path.path = s.path.path
    ∧ (changeMode mode cause s).path.phase = s.path.phase ∧ (changeMode mode cause s).path.dwellD = s.path.dwellD
    ∧ (changeMode mode cause s).path.dwell = s.path.dwell ∧ (changeMode mode cause s).path.refallTimer = s.path.refallTimer
    ∧ (changeMode mode cause s).path.refallOpen = s.path.refallOpen ∧ (changeMode mode cause s).path.releaseTimer = s.path.releaseTimer
    ∧ (changeMode mode cause s).path.txReleased = s.path.txReleased ∧ (changeMode mode cause s).path.rxReleased = s.path.rxReleased
    ∧ (changeMode mode cause s).path.drainTimer = s.path.drainTimer ∧ (changeMode mode cause s).path.radioWanted = s.path.radioWanted
    ∧ (changeMode mode cause s).path.returnPause = s.path.returnPause ∧ (changeMode mode cause s).path.recorded = s.path.recorded
    ∧ (changeMode mode cause s).hold.cells = s.hold.cells ∧ (changeMode mode cause s).hold.uqE = s.hold.uqE
    ∧ (changeMode mode cause s).hold.uqV = s.hold.uqV ∧ (changeMode mode cause s).hold.uqD = s.hold.uqD
    ∧ (changeMode mode cause s).hold.dqV = s.hold.dqV ∧ (changeMode mode cause s).hold.dqD = s.hold.dqD
    ∧ (changeMode mode cause s).hold.sweep10 = s.hold.sweep10 ∧ (changeMode mode cause s).hold.sweep1s = s.hold.sweep1s
    ∧ (changeMode mode cause s).radio.failures = s.radio.failures ∧ (changeMode mode cause s).radio.lastCause = s.radio.lastCause
    ∧ (changeMode mode cause s).radio.silenceTimer = s.radio.silenceTimer ∧ (changeMode mode cause s).radio.grantUp = s.radio.grantUp
    ∧ (changeMode mode cause s).radio.grantDown = s.radio.grantDown ∧ (changeMode mode cause s).radio.grantQuality = s.radio.grantQuality
    ∧ (changeMode mode cause s).radio.slotA = s.radio.slotA ∧ (changeMode mode cause s).radio.slotB = s.radio.slotB
    ∧ (changeMode mode cause s).radio.unsent = s.radio.unsent ∧ (changeMode mode cause s).radio.pauseTold = s.radio.pauseTold
    ∧ (changeMode mode cause s).radio.capTold = s.radio.capTold ∧ (changeMode mode cause s).radio.lowPowerTold = s.radio.lowPowerTold
    ∧ (changeMode mode cause s).radio.ldoLast = s.radio.ldoLast ∧ (changeMode mode cause s).power.step = s.power.step
    ∧ (changeMode mode cause s).power.mainsReturn = s.power.mainsReturn ∧ (changeMode mode cause s).power.quiet = s.power.quiet
    ∧ (changeMode mode cause s).power.dozeTimer = s.power.dozeTimer ∧ (changeMode mode cause s).power.restart = s.power.restart
    ∧ (changeMode mode cause s).power.latch = s.power.latch ∧ (changeMode mode cause s).events.evp = s.events.evp
    ∧ (changeMode mode cause s).events.slotKinds = s.events.slotKinds ∧ (changeMode mode cause s).events.refreshCount = s.events.refreshCount
    ∧ (changeMode mode cause s).events.refreshTimer = s.events.refreshTimer ∧ (changeMode mode cause s).events.pageWriting = s.events.pageWriting
    ∧ (changeMode mode cause s).events.pageWanted = s.events.pageWanted ∧ (changeMode mode cause s).events.ledMs = s.events.ledMs := by simp [changeMode]

@[simp] theorem settleAccepted_frame (slot : Slot) (b : BusySlot) (s : State) :
    (settleAccepted slot b s).pending = s.pending ∧ (settleAccepted slot b s).clock = s.clock ∧ (settleAccepted slot b s).draws = s.draws
    ∧ (settleAccepted slot b s).sram = s.sram ∧ (settleAccepted slot b s).pins = s.pins ∧ (settleAccepted slot b s).loader = s.loader
    ∧ (settleAccepted slot b s).health = s.health ∧ (settleAccepted slot b s).power = s.power
    ∧ (settleAccepted slot b s).bus.shadows = s.bus.shadows ∧ (settleAccepted slot b s).bus.txHorizon = s.bus.txHorizon
    ∧ (settleAccepted slot b s).bus.rxHorizon = s.bus.rxHorizon ∧ (settleAccepted slot b s).bus.fixedH = s.bus.fixedH
    ∧ (settleAccepted slot b s).bus.fixedG = s.bus.fixedG ∧ (settleAccepted slot b s).bus.uplinkView = s.bus.uplinkView
    ∧ (settleAccepted slot b s).bus.receiveView = s.bus.receiveView ∧ (settleAccepted slot b s).bus.uplinkViewValue = s.bus.uplinkViewValue
    ∧ (settleAccepted slot b s).bus.receiveViewValue = s.bus.receiveViewValue ∧ (settleAccepted slot b s).bus.txGuard = s.bus.txGuard
    ∧ (settleAccepted slot b s).bus.rxGuard = s.bus.rxGuard ∧ (settleAccepted slot b s).bus.queue = s.bus.queue
    ∧ (settleAccepted slot b s).bus.waitCount = s.bus.waitCount ∧ (settleAccepted slot b s).bus.gatewayData = s.bus.gatewayData
    ∧ (settleAccepted slot b s).ring.base = s.ring.base ∧ (settleAccepted slot b s).ring.partTxc = s.ring.partTxc
    ∧ (settleAccepted slot b s).ring.readMark = s.ring.readMark ∧ (settleAccepted slot b s).ring.descriptorRead = s.ring.descriptorRead
    ∧ (settleAccepted slot b s).ring.fence = s.ring.fence ∧ (settleAccepted slot b s).ring.overrun = s.ring.overrun
    ∧ (settleAccepted slot b s).ring.txCheckDue = s.ring.txCheckDue ∧ (settleAccepted slot b s).ring.scanRunning = s.ring.scanRunning
    ∧ (settleAccepted slot b s).ring.scanMark = s.ring.scanMark ∧ (settleAccepted slot b s).ring.scanRead = s.ring.scanRead
    ∧ (settleAccepted slot b s).ring.txForcing = s.ring.txForcing ∧ (settleAccepted slot b s).ring.rxForcing = s.ring.rxForcing
    ∧ (settleAccepted slot b s).ring.handBackAsked = s.ring.handBackAsked ∧ (settleAccepted slot b s).ring.fillCursor = s.ring.fillCursor
    ∧ (settleAccepted slot b s).ring.partRxf = s.ring.partRxf ∧ (settleAccepted slot b s).ring.delivery = s.ring.delivery
    ∧ (settleAccepted slot b s).ring.descriptorHeld = s.ring.descriptorHeld ∧ (settleAccepted slot b s).ring.rxOverrun = s.ring.rxOverrun
    ∧ (settleAccepted slot b s).ring.rxCheckDue = s.ring.rxCheckDue ∧ (settleAccepted slot b s).path.path = s.path.path
    ∧ (settleAccepted slot b s).path.phase = s.path.phase ∧ (settleAccepted slot b s).path.dwellD = s.path.dwellD
    ∧ (settleAccepted slot b s).path.dwell = s.path.dwell ∧ (settleAccepted slot b s).path.refallTimer = s.path.refallTimer
    ∧ (settleAccepted slot b s).path.refallOpen = s.path.refallOpen ∧ (settleAccepted slot b s).path.releaseTimer = s.path.releaseTimer
    ∧ (settleAccepted slot b s).path.txReleased = s.path.txReleased ∧ (settleAccepted slot b s).path.rxReleased = s.path.rxReleased
    ∧ (settleAccepted slot b s).path.drainTimer = s.path.drainTimer ∧ (settleAccepted slot b s).path.radioWanted = s.path.radioWanted
    ∧ (settleAccepted slot b s).path.returnPause = s.path.returnPause ∧ (settleAccepted slot b s).path.recorded = s.path.recorded
    ∧ (settleAccepted slot b s).hold.cells = s.hold.cells ∧ (settleAccepted slot b s).hold.dqV = s.hold.dqV
    ∧ (settleAccepted slot b s).hold.dqD = s.hold.dqD ∧ (settleAccepted slot b s).hold.sweep10 = s.hold.sweep10
    ∧ (settleAccepted slot b s).hold.sweep1s = s.hold.sweep1s ∧ (settleAccepted slot b s).pacer.pacing = s.pacer.pacing
    ∧ (settleAccepted slot b s).pacer.refusalPause = s.pacer.refusalPause ∧ (settleAccepted slot b s).pacer.grantSeen = s.pacer.grantSeen
    ∧ (settleAccepted slot b s).pacer.usageBase = s.pacer.usageBase ∧ (settleAccepted slot b s).radio.failures = s.radio.failures
    ∧ (settleAccepted slot b s).radio.lastCause = s.radio.lastCause ∧ (settleAccepted slot b s).radio.cycleTimer = s.radio.cycleTimer
    ∧ (settleAccepted slot b s).radio.silenceTimer = s.radio.silenceTimer ∧ (settleAccepted slot b s).radio.grantUp = s.radio.grantUp
    ∧ (settleAccepted slot b s).radio.grantDown = s.radio.grantDown ∧ (settleAccepted slot b s).radio.grantQuality = s.radio.grantQuality
    ∧ (settleAccepted slot b s).radio.pauseTold = s.radio.pauseTold ∧ (settleAccepted slot b s).radio.capTold = s.radio.capTold
    ∧ (settleAccepted slot b s).radio.lowPowerTold = s.radio.lowPowerTold ∧ (settleAccepted slot b s).radio.ldoLast = s.radio.ldoLast
    ∧ (settleAccepted slot b s).radio.receiver = s.radio.receiver ∧ (settleAccepted slot b s).events.evp = s.events.evp
    ∧ (settleAccepted slot b s).events.slotKinds = s.events.slotKinds ∧ (settleAccepted slot b s).events.refreshCount = s.events.refreshCount
    ∧ (settleAccepted slot b s).events.refreshTimer = s.events.refreshTimer ∧ (settleAccepted slot b s).events.pageWriting = s.events.pageWriting
    ∧ (settleAccepted slot b s).events.pageWanted = s.events.pageWanted ∧ (settleAccepted slot b s).events.ledMs = s.events.ledMs := by unfold settleAccepted; (repeat' split) <;> simp

@[simp] theorem settleRefused_frame (slot : Slot) (b : BusySlot) (s : State) :
    (settleRefused slot b s).pending = s.pending ∧ (settleRefused slot b s).clock = s.clock ∧ (settleRefused slot b s).draws = s.draws
    ∧ (settleRefused slot b s).sram = s.sram ∧ (settleRefused slot b s).pins = s.pins ∧ (settleRefused slot b s).loader = s.loader
    ∧ (settleRefused slot b s).health = s.health ∧ (settleRefused slot b s).power = s.power
    ∧ (settleRefused slot b s).bus.shadows = s.bus.shadows ∧ (settleRefused slot b s).bus.txHorizon = s.bus.txHorizon
    ∧ (settleRefused slot b s).bus.rxHorizon = s.bus.rxHorizon ∧ (settleRefused slot b s).bus.fixedH = s.bus.fixedH
    ∧ (settleRefused slot b s).bus.fixedG = s.bus.fixedG ∧ (settleRefused slot b s).bus.uplinkView = s.bus.uplinkView
    ∧ (settleRefused slot b s).bus.receiveView = s.bus.receiveView ∧ (settleRefused slot b s).bus.uplinkViewValue = s.bus.uplinkViewValue
    ∧ (settleRefused slot b s).bus.receiveViewValue = s.bus.receiveViewValue ∧ (settleRefused slot b s).bus.txGuard = s.bus.txGuard
    ∧ (settleRefused slot b s).bus.rxGuard = s.bus.rxGuard ∧ (settleRefused slot b s).bus.queue = s.bus.queue
    ∧ (settleRefused slot b s).bus.waitCount = s.bus.waitCount ∧ (settleRefused slot b s).bus.gatewayData = s.bus.gatewayData
    ∧ (settleRefused slot b s).ring.base = s.ring.base ∧ (settleRefused slot b s).ring.partTxc = s.ring.partTxc
    ∧ (settleRefused slot b s).ring.readMark = s.ring.readMark ∧ (settleRefused slot b s).ring.descriptorRead = s.ring.descriptorRead
    ∧ (settleRefused slot b s).ring.fence = s.ring.fence ∧ (settleRefused slot b s).ring.overrun = s.ring.overrun
    ∧ (settleRefused slot b s).ring.txCheckDue = s.ring.txCheckDue ∧ (settleRefused slot b s).ring.scanRunning = s.ring.scanRunning
    ∧ (settleRefused slot b s).ring.scanMark = s.ring.scanMark ∧ (settleRefused slot b s).ring.scanRead = s.ring.scanRead
    ∧ (settleRefused slot b s).ring.txForcing = s.ring.txForcing ∧ (settleRefused slot b s).ring.rxForcing = s.ring.rxForcing
    ∧ (settleRefused slot b s).ring.handBackAsked = s.ring.handBackAsked ∧ (settleRefused slot b s).ring.fillCursor = s.ring.fillCursor
    ∧ (settleRefused slot b s).ring.partRxf = s.ring.partRxf ∧ (settleRefused slot b s).ring.delivery = s.ring.delivery
    ∧ (settleRefused slot b s).ring.descriptorHeld = s.ring.descriptorHeld ∧ (settleRefused slot b s).ring.rxOverrun = s.ring.rxOverrun
    ∧ (settleRefused slot b s).ring.rxCheckDue = s.ring.rxCheckDue ∧ (settleRefused slot b s).path.path = s.path.path
    ∧ (settleRefused slot b s).path.phase = s.path.phase ∧ (settleRefused slot b s).path.dwellD = s.path.dwellD
    ∧ (settleRefused slot b s).path.dwell = s.path.dwell ∧ (settleRefused slot b s).path.refallTimer = s.path.refallTimer
    ∧ (settleRefused slot b s).path.refallOpen = s.path.refallOpen ∧ (settleRefused slot b s).path.releaseTimer = s.path.releaseTimer
    ∧ (settleRefused slot b s).path.txReleased = s.path.txReleased ∧ (settleRefused slot b s).path.rxReleased = s.path.rxReleased
    ∧ (settleRefused slot b s).path.drainTimer = s.path.drainTimer ∧ (settleRefused slot b s).path.radioWanted = s.path.radioWanted
    ∧ (settleRefused slot b s).path.returnPause = s.path.returnPause ∧ (settleRefused slot b s).path.recorded = s.path.recorded
    ∧ (settleRefused slot b s).hold.cells = s.hold.cells ∧ (settleRefused slot b s).hold.dqV = s.hold.dqV
    ∧ (settleRefused slot b s).hold.dqD = s.hold.dqD ∧ (settleRefused slot b s).hold.sweep10 = s.hold.sweep10
    ∧ (settleRefused slot b s).hold.sweep1s = s.hold.sweep1s ∧ (settleRefused slot b s).pacer.pacing = s.pacer.pacing
    ∧ (settleRefused slot b s).pacer.grantSeen = s.pacer.grantSeen ∧ (settleRefused slot b s).pacer.usageBase = s.pacer.usageBase
    ∧ (settleRefused slot b s).pacer.carried = s.pacer.carried ∧ (settleRefused slot b s).pacer.allowance = s.pacer.allowance
    ∧ (settleRefused slot b s).pacer.downlinkCap = s.pacer.downlinkCap ∧ (settleRefused slot b s).radio.failures = s.radio.failures
    ∧ (settleRefused slot b s).radio.lastCause = s.radio.lastCause ∧ (settleRefused slot b s).radio.cycleTimer = s.radio.cycleTimer
    ∧ (settleRefused slot b s).radio.silenceTimer = s.radio.silenceTimer ∧ (settleRefused slot b s).radio.grantUp = s.radio.grantUp
    ∧ (settleRefused slot b s).radio.grantDown = s.radio.grantDown ∧ (settleRefused slot b s).radio.grantQuality = s.radio.grantQuality
    ∧ (settleRefused slot b s).radio.pauseTold = s.radio.pauseTold ∧ (settleRefused slot b s).radio.capTold = s.radio.capTold
    ∧ (settleRefused slot b s).radio.lowPowerTold = s.radio.lowPowerTold ∧ (settleRefused slot b s).radio.ldoLast = s.radio.ldoLast
    ∧ (settleRefused slot b s).radio.receiver = s.radio.receiver ∧ (settleRefused slot b s).events.evp = s.events.evp
    ∧ (settleRefused slot b s).events.slotKinds = s.events.slotKinds ∧ (settleRefused slot b s).events.refreshCount = s.events.refreshCount
    ∧ (settleRefused slot b s).events.refreshTimer = s.events.refreshTimer ∧ (settleRefused slot b s).events.pageWriting = s.events.pageWriting
    ∧ (settleRefused slot b s).events.pageWanted = s.events.pageWanted ∧ (settleRefused slot b s).events.ledMs = s.events.ledMs := by simp [settleRefused]

@[simp] theorem endBackoff_frame (s : State) :
    (endBackoff s).pending = s.pending ∧ (endBackoff s).clock = s.clock ∧ (endBackoff s).draws = s.draws ∧ (endBackoff s).sram = s.sram
    ∧ (endBackoff s).pins = s.pins ∧ (endBackoff s).health = s.health ∧ (endBackoff s).pacer = s.pacer ∧ (endBackoff s).power = s.power
    ∧ (endBackoff s).loader.phase = s.loader.phase ∧ (endBackoff s).loader.flashCode = s.loader.flashCode
    ∧ (endBackoff s).loader.map = s.loader.map ∧ (endBackoff s).loader.linkClock = s.loader.linkClock
    ∧ (endBackoff s).loader.defaultPolicy = s.loader.defaultPolicy ∧ (endBackoff s).loader.policy = s.loader.policy
    ∧ (endBackoff s).loader.readState = s.loader.readState ∧ (endBackoff s).loader.readKind = s.loader.readKind
    ∧ (endBackoff s).loader.dueAfterRestart = s.loader.dueAfterRestart ∧ (endBackoff s).loader.firstHalf = s.loader.firstHalf
    ∧ (endBackoff s).loader.pgenAtIssue = s.loader.pgenAtIssue ∧ (endBackoff s).loader.softResetInForce = s.loader.softResetInForce
    ∧ (endBackoff s).loader.counterClearInForce = s.loader.counterClearInForce ∧ (endBackoff s).loader.shadowsLoaded = s.loader.shadowsLoaded
    ∧ (endBackoff s).loader.softReset = s.loader.softReset ∧ (endBackoff s).loader.softWait = s.loader.softWait
    ∧ (endBackoff s).loader.softPositions = s.loader.softPositions ∧ (endBackoff s).bus.shadows = s.bus.shadows
    ∧ (endBackoff s).bus.txHorizon = s.bus.txHorizon ∧ (endBackoff s).bus.rxHorizon = s.bus.rxHorizon ∧ (endBackoff s).bus.fixedH = s.bus.fixedH
    ∧ (endBackoff s).bus.fixedG = s.bus.fixedG ∧ (endBackoff s).bus.uplinkView = s.bus.uplinkView
    ∧ (endBackoff s).bus.receiveView = s.bus.receiveView ∧ (endBackoff s).bus.uplinkViewValue = s.bus.uplinkViewValue
    ∧ (endBackoff s).bus.receiveViewValue = s.bus.receiveViewValue ∧ (endBackoff s).bus.txGuard = s.bus.txGuard
    ∧ (endBackoff s).bus.rxGuard = s.bus.rxGuard ∧ (endBackoff s).bus.queue = s.bus.queue ∧ (endBackoff s).bus.waitCount = s.bus.waitCount
    ∧ (endBackoff s).bus.gatewayData = s.bus.gatewayData ∧ (endBackoff s).ring.base = s.ring.base ∧ (endBackoff s).ring.partTxc = s.ring.partTxc
    ∧ (endBackoff s).ring.readMark = s.ring.readMark ∧ (endBackoff s).ring.descriptorRead = s.ring.descriptorRead
    ∧ (endBackoff s).ring.fence = s.ring.fence ∧ (endBackoff s).ring.overrun = s.ring.overrun
    ∧ (endBackoff s).ring.txCheckDue = s.ring.txCheckDue ∧ (endBackoff s).ring.scanRunning = s.ring.scanRunning
    ∧ (endBackoff s).ring.scanMark = s.ring.scanMark ∧ (endBackoff s).ring.scanRead = s.ring.scanRead
    ∧ (endBackoff s).ring.txForcing = s.ring.txForcing ∧ (endBackoff s).ring.rxForcing = s.ring.rxForcing
    ∧ (endBackoff s).ring.handBackAsked = s.ring.handBackAsked ∧ (endBackoff s).ring.fillCursor = s.ring.fillCursor
    ∧ (endBackoff s).ring.partRxf = s.ring.partRxf ∧ (endBackoff s).ring.delivery = s.ring.delivery
    ∧ (endBackoff s).ring.descriptorHeld = s.ring.descriptorHeld ∧ (endBackoff s).ring.rxOverrun = s.ring.rxOverrun
    ∧ (endBackoff s).ring.rxCheckDue = s.ring.rxCheckDue ∧ (endBackoff s).path.path = s.path.path ∧ (endBackoff s).path.phase = s.path.phase
    ∧ (endBackoff s).path.dwellD = s.path.dwellD ∧ (endBackoff s).path.dwell = s.path.dwell
    ∧ (endBackoff s).path.refallTimer = s.path.refallTimer ∧ (endBackoff s).path.refallOpen = s.path.refallOpen
    ∧ (endBackoff s).path.releaseTimer = s.path.releaseTimer ∧ (endBackoff s).path.txReleased = s.path.txReleased
    ∧ (endBackoff s).path.rxReleased = s.path.rxReleased ∧ (endBackoff s).path.drainTimer = s.path.drainTimer
    ∧ (endBackoff s).path.radioWanted = s.path.radioWanted ∧ (endBackoff s).path.returnPause = s.path.returnPause
    ∧ (endBackoff s).path.recorded = s.path.recorded ∧ (endBackoff s).hold.cells = s.hold.cells ∧ (endBackoff s).hold.uqE = s.hold.uqE
    ∧ (endBackoff s).hold.uqV = s.hold.uqV ∧ (endBackoff s).hold.uqD = s.hold.uqD ∧ (endBackoff s).hold.dqV = s.hold.dqV
    ∧ (endBackoff s).hold.dqD = s.hold.dqD ∧ (endBackoff s).hold.sweep10 = s.hold.sweep10 ∧ (endBackoff s).hold.sweep1s = s.hold.sweep1s
    ∧ (endBackoff s).radio.failures = s.radio.failures ∧ (endBackoff s).radio.lastCause = s.radio.lastCause
    ∧ (endBackoff s).radio.silenceTimer = s.radio.silenceTimer ∧ (endBackoff s).radio.grantUp = s.radio.grantUp
    ∧ (endBackoff s).radio.grantDown = s.radio.grantDown ∧ (endBackoff s).radio.grantQuality = s.radio.grantQuality
    ∧ (endBackoff s).radio.slotA = s.radio.slotA ∧ (endBackoff s).radio.slotB = s.radio.slotB ∧ (endBackoff s).radio.unsent = s.radio.unsent
    ∧ (endBackoff s).radio.pauseTold = s.radio.pauseTold ∧ (endBackoff s).radio.capTold = s.radio.capTold
    ∧ (endBackoff s).radio.lowPowerTold = s.radio.lowPowerTold ∧ (endBackoff s).radio.ldoLast = s.radio.ldoLast
    ∧ (endBackoff s).events.evp = s.events.evp ∧ (endBackoff s).events.slotKinds = s.events.slotKinds
    ∧ (endBackoff s).events.refreshCount = s.events.refreshCount ∧ (endBackoff s).events.refreshTimer = s.events.refreshTimer
    ∧ (endBackoff s).events.pageWriting = s.events.pageWriting ∧ (endBackoff s).events.pageWanted = s.events.pageWanted
    ∧ (endBackoff s).events.ledMs = s.events.ledMs := by simp only [endBackoff]; (repeat' split) <;> simp

@[simp] theorem enterTakeover_frame (cause : PathCause) (s : State) :
    (enterTakeover cause s).pending = s.pending ∧ (enterTakeover cause s).clock = s.clock ∧ (enterTakeover cause s).draws = s.draws
    ∧ (enterTakeover cause s).sram = s.sram ∧ (enterTakeover cause s).pins = s.pins ∧ (enterTakeover cause s).pacer = s.pacer
    ∧ (enterTakeover cause s).loader.phase = s.loader.phase ∧ (enterTakeover cause s).loader.flashCode = s.loader.flashCode
    ∧ (enterTakeover cause s).loader.map = s.loader.map ∧ (enterTakeover cause s).loader.linkClock = s.loader.linkClock
    ∧ (enterTakeover cause s).loader.defaultPolicy = s.loader.defaultPolicy ∧ (enterTakeover cause s).loader.policy = s.loader.policy
    ∧ (enterTakeover cause s).loader.readState = s.loader.readState ∧ (enterTakeover cause s).loader.readKind = s.loader.readKind
    ∧ (enterTakeover cause s).loader.dueAfterRestart = s.loader.dueAfterRestart ∧ (enterTakeover cause s).loader.firstHalf = s.loader.firstHalf
    ∧ (enterTakeover cause s).loader.pgenAtIssue = s.loader.pgenAtIssue
    ∧ (enterTakeover cause s).loader.softResetInForce = s.loader.softResetInForce
    ∧ (enterTakeover cause s).loader.counterClearInForce = s.loader.counterClearInForce
    ∧ (enterTakeover cause s).loader.shadowsLoaded = s.loader.shadowsLoaded ∧ (enterTakeover cause s).loader.softReset = s.loader.softReset
    ∧ (enterTakeover cause s).loader.softWait = s.loader.softWait ∧ (enterTakeover cause s).loader.softPositions = s.loader.softPositions
    ∧ (enterTakeover cause s).bus.shadows = s.bus.shadows ∧ (enterTakeover cause s).bus.txHorizon = s.bus.txHorizon
    ∧ (enterTakeover cause s).bus.rxHorizon = s.bus.rxHorizon ∧ (enterTakeover cause s).bus.queue = s.bus.queue
    ∧ (enterTakeover cause s).bus.waitCount = s.bus.waitCount ∧ (enterTakeover cause s).bus.gatewayData = s.bus.gatewayData
    ∧ (enterTakeover cause s).ring.delivery = s.ring.delivery ∧ (enterTakeover cause s).ring.descriptorHeld = s.ring.descriptorHeld
    ∧ (enterTakeover cause s).health.sig = s.health.sig ∧ (enterTakeover cause s).health.txp = s.health.txp
    ∧ (enterTakeover cause s).health.rxa = s.health.rxa ∧ (enterTakeover cause s).health.txe = s.health.txe
    ∧ (enterTakeover cause s).health.verdict = s.health.verdict ∧ (enterTakeover cause s).health.txReference = s.health.txReference
    ∧ (enterTakeover cause s).health.activityMark = s.health.activityMark ∧ (enterTakeover cause s).health.timer100 = s.health.timer100
    ∧ (enterTakeover cause s).path.refallTimer = s.path.refallTimer ∧ (enterTakeover cause s).path.refallOpen = s.path.refallOpen
    ∧ (enterTakeover cause s).path.recorded = s.path.recorded ∧ (enterTakeover cause s).hold.cells = s.hold.cells
    ∧ (enterTakeover cause s).hold.uqE = s.hold.uqE ∧ (enterTakeover cause s).hold.uqV = s.hold.uqV
    ∧ (enterTakeover cause s).hold.uqD = s.hold.uqD ∧ (enterTakeover cause s).hold.dqV = s.hold.dqV
    ∧ (enterTakeover cause s).hold.dqD = s.hold.dqD ∧ (enterTakeover cause s).hold.sweep10 = s.hold.sweep10
    ∧ (enterTakeover cause s).hold.sweep1s = s.hold.sweep1s ∧ (enterTakeover cause s).radio.failures = s.radio.failures
    ∧ (enterTakeover cause s).radio.lastCause = s.radio.lastCause ∧ (enterTakeover cause s).radio.silenceTimer = s.radio.silenceTimer
    ∧ (enterTakeover cause s).radio.grantUp = s.radio.grantUp ∧ (enterTakeover cause s).radio.grantDown = s.radio.grantDown
    ∧ (enterTakeover cause s).radio.grantQuality = s.radio.grantQuality ∧ (enterTakeover cause s).radio.slotA = s.radio.slotA
    ∧ (enterTakeover cause s).radio.slotB = s.radio.slotB ∧ (enterTakeover cause s).radio.unsent = s.radio.unsent
    ∧ (enterTakeover cause s).radio.pauseTold = s.radio.pauseTold ∧ (enterTakeover cause s).radio.capTold = s.radio.capTold
    ∧ (enterTakeover cause s).radio.lowPowerTold = s.radio.lowPowerTold ∧ (enterTakeover cause s).radio.ldoLast = s.radio.ldoLast
    ∧ (enterTakeover cause s).power.mode = s.power.mode ∧ (enterTakeover cause s).power.mainsReturn = s.power.mainsReturn
    ∧ (enterTakeover cause s).power.quiet = s.power.quiet ∧ (enterTakeover cause s).power.dozeTimer = s.power.dozeTimer
    ∧ (enterTakeover cause s).power.restart = s.power.restart ∧ (enterTakeover cause s).power.latch = s.power.latch
    ∧ (enterTakeover cause s).events.evp = s.events.evp ∧ (enterTakeover cause s).events.slotKinds = s.events.slotKinds
    ∧ (enterTakeover cause s).events.refreshCount = s.events.refreshCount ∧ (enterTakeover cause s).events.refreshTimer = s.events.refreshTimer
    ∧ (enterTakeover cause s).events.pageWriting = s.events.pageWriting ∧ (enterTakeover cause s).events.ledMs = s.events.ledMs := by simp only [enterTakeover]; (repeat' split) <;> simp

@[simp] theorem handBackWith_frame (cause : PathCause) (s : State) :
    (handBackWith cause s).pending = s.pending ∧ (handBackWith cause s).clock = s.clock ∧ (handBackWith cause s).draws = s.draws
    ∧ (handBackWith cause s).sram = s.sram ∧ (handBackWith cause s).pins = s.pins ∧ (handBackWith cause s).pacer = s.pacer
    ∧ (handBackWith cause s).power = s.power ∧ (handBackWith cause s).loader.phase = s.loader.phase
    ∧ (handBackWith cause s).loader.flashCode = s.loader.flashCode ∧ (handBackWith cause s).loader.map = s.loader.map
    ∧ (handBackWith cause s).loader.linkClock = s.loader.linkClock ∧ (handBackWith cause s).loader.defaultPolicy = s.loader.defaultPolicy
    ∧ (handBackWith cause s).loader.policy = s.loader.policy ∧ (handBackWith cause s).loader.readState = s.loader.readState
    ∧ (handBackWith cause s).loader.readKind = s.loader.readKind ∧ (handBackWith cause s).loader.dueAfterRestart = s.loader.dueAfterRestart
    ∧ (handBackWith cause s).loader.firstHalf = s.loader.firstHalf ∧ (handBackWith cause s).loader.pgenAtIssue = s.loader.pgenAtIssue
    ∧ (handBackWith cause s).loader.softResetInForce = s.loader.softResetInForce
    ∧ (handBackWith cause s).loader.counterClearInForce = s.loader.counterClearInForce
    ∧ (handBackWith cause s).loader.shadowsLoaded = s.loader.shadowsLoaded ∧ (handBackWith cause s).loader.softReset = s.loader.softReset
    ∧ (handBackWith cause s).loader.softWait = s.loader.softWait ∧ (handBackWith cause s).loader.softPositions = s.loader.softPositions
    ∧ (handBackWith cause s).bus.shadows = s.bus.shadows ∧ (handBackWith cause s).bus.fixedH = s.bus.fixedH
    ∧ (handBackWith cause s).bus.fixedG = s.bus.fixedG ∧ (handBackWith cause s).bus.queue = s.bus.queue
    ∧ (handBackWith cause s).bus.waitCount = s.bus.waitCount ∧ (handBackWith cause s).bus.gatewayData = s.bus.gatewayData
    ∧ (handBackWith cause s).ring.partTxc = s.ring.partTxc ∧ (handBackWith cause s).ring.readMark = s.ring.readMark
    ∧ (handBackWith cause s).ring.descriptorRead = s.ring.descriptorRead ∧ (handBackWith cause s).ring.txCheckDue = s.ring.txCheckDue
    ∧ (handBackWith cause s).ring.scanRunning = s.ring.scanRunning ∧ (handBackWith cause s).ring.scanMark = s.ring.scanMark
    ∧ (handBackWith cause s).ring.scanRead = s.ring.scanRead ∧ (handBackWith cause s).ring.txForcing = s.ring.txForcing
    ∧ (handBackWith cause s).ring.rxForcing = s.ring.rxForcing ∧ (handBackWith cause s).ring.fillCursor = s.ring.fillCursor
    ∧ (handBackWith cause s).ring.partRxf = s.ring.partRxf ∧ (handBackWith cause s).ring.delivery = s.ring.delivery
    ∧ (handBackWith cause s).ring.rxCheckDue = s.ring.rxCheckDue ∧ (handBackWith cause s).health.sig = s.health.sig
    ∧ (handBackWith cause s).health.verdict = s.health.verdict ∧ (handBackWith cause s).health.timer100 = s.health.timer100
    ∧ (handBackWith cause s).path.dwellD = s.path.dwellD ∧ (handBackWith cause s).path.refallTimer = s.path.refallTimer
    ∧ (handBackWith cause s).path.refallOpen = s.path.refallOpen ∧ (handBackWith cause s).path.txReleased = s.path.txReleased
    ∧ (handBackWith cause s).path.rxReleased = s.path.rxReleased ∧ (handBackWith cause s).path.recorded = s.path.recorded
    ∧ (handBackWith cause s).hold.cells = s.hold.cells ∧ (handBackWith cause s).hold.uqE = s.hold.uqE
    ∧ (handBackWith cause s).hold.uqV = s.hold.uqV ∧ (handBackWith cause s).hold.uqD = s.hold.uqD ∧ (handBackWith cause s).hold.dqV = s.hold.dqV
    ∧ (handBackWith cause s).hold.dqD = s.hold.dqD ∧ (handBackWith cause s).hold.sweep10 = s.hold.sweep10
    ∧ (handBackWith cause s).hold.sweep1s = s.hold.sweep1s ∧ (handBackWith cause s).radio.failures = s.radio.failures
    ∧ (handBackWith cause s).radio.lastCause = s.radio.lastCause ∧ (handBackWith cause s).radio.silenceTimer = s.radio.silenceTimer
    ∧ (handBackWith cause s).radio.grantUp = s.radio.grantUp ∧ (handBackWith cause s).radio.grantDown = s.radio.grantDown
    ∧ (handBackWith cause s).radio.grantQuality = s.radio.grantQuality ∧ (handBackWith cause s).radio.slotA = s.radio.slotA
    ∧ (handBackWith cause s).radio.slotB = s.radio.slotB ∧ (handBackWith cause s).radio.unsent = s.radio.unsent
    ∧ (handBackWith cause s).radio.pauseTold = s.radio.pauseTold ∧ (handBackWith cause s).radio.capTold = s.radio.capTold
    ∧ (handBackWith cause s).radio.lowPowerTold = s.radio.lowPowerTold ∧ (handBackWith cause s).radio.ldoLast = s.radio.ldoLast
    ∧ (handBackWith cause s).events.evp = s.events.evp ∧ (handBackWith cause s).events.slotKinds = s.events.slotKinds
    ∧ (handBackWith cause s).events.refreshCount = s.events.refreshCount ∧ (handBackWith cause s).events.refreshTimer = s.events.refreshTimer
    ∧ (handBackWith cause s).events.pageWriting = s.events.pageWriting ∧ (handBackWith cause s).events.ledMs = s.events.ledMs := by simp only [handBackWith, withPauseTarget]; (repeat' split) <;> simp

@[simp] theorem takeEnds_frame (pos : Count) (s : State) :
    (takeEnds pos s).pending = s.pending ∧ (takeEnds pos s).clock = s.clock ∧ (takeEnds pos s).draws = s.draws ∧ (takeEnds pos s).sram = s.sram
    ∧ (takeEnds pos s).pins = s.pins ∧ (takeEnds pos s).health = s.health ∧ (takeEnds pos s).loader.phase = s.loader.phase
    ∧ (takeEnds pos s).loader.flashCode = s.loader.flashCode ∧ (takeEnds pos s).loader.map = s.loader.map
    ∧ (takeEnds pos s).loader.linkClock = s.loader.linkClock ∧ (takeEnds pos s).loader.defaultPolicy = s.loader.defaultPolicy
    ∧ (takeEnds pos s).loader.policy = s.loader.policy ∧ (takeEnds pos s).loader.readState = s.loader.readState
    ∧ (takeEnds pos s).loader.readKind = s.loader.readKind ∧ (takeEnds pos s).loader.dueAfterRestart = s.loader.dueAfterRestart
    ∧ (takeEnds pos s).loader.firstHalf = s.loader.firstHalf ∧ (takeEnds pos s).loader.pgenAtIssue = s.loader.pgenAtIssue
    ∧ (takeEnds pos s).loader.softResetInForce = s.loader.softResetInForce
    ∧ (takeEnds pos s).loader.counterClearInForce = s.loader.counterClearInForce ∧ (takeEnds pos s).loader.shadowsLoaded = s.loader.shadowsLoaded
    ∧ (takeEnds pos s).loader.softReset = s.loader.softReset ∧ (takeEnds pos s).loader.softWait = s.loader.softWait
    ∧ (takeEnds pos s).loader.softPositions = s.loader.softPositions ∧ (takeEnds pos s).bus.shadows = s.bus.shadows
    ∧ (takeEnds pos s).bus.txHorizon = s.bus.txHorizon ∧ (takeEnds pos s).bus.rxHorizon = s.bus.rxHorizon
    ∧ (takeEnds pos s).bus.fixedH = s.bus.fixedH ∧ (takeEnds pos s).bus.fixedG = s.bus.fixedG
    ∧ (takeEnds pos s).bus.uplinkView = s.bus.uplinkView ∧ (takeEnds pos s).bus.receiveView = s.bus.receiveView
    ∧ (takeEnds pos s).bus.uplinkViewValue = s.bus.uplinkViewValue ∧ (takeEnds pos s).bus.receiveViewValue = s.bus.receiveViewValue
    ∧ (takeEnds pos s).bus.txGuard = s.bus.txGuard ∧ (takeEnds pos s).bus.rxGuard = s.bus.rxGuard ∧ (takeEnds pos s).bus.queue = s.bus.queue
    ∧ (takeEnds pos s).bus.waitCount = s.bus.waitCount ∧ (takeEnds pos s).bus.gatewayData = s.bus.gatewayData
    ∧ (takeEnds pos s).ring.base = s.ring.base ∧ (takeEnds pos s).ring.partTxc = s.ring.partTxc
    ∧ (takeEnds pos s).ring.readMark = s.ring.readMark ∧ (takeEnds pos s).ring.descriptorRead = s.ring.descriptorRead
    ∧ (takeEnds pos s).ring.fence = s.ring.fence ∧ (takeEnds pos s).ring.overrun = s.ring.overrun
    ∧ (takeEnds pos s).ring.txCheckDue = s.ring.txCheckDue ∧ (takeEnds pos s).ring.scanRunning = s.ring.scanRunning
    ∧ (takeEnds pos s).ring.scanMark = s.ring.scanMark ∧ (takeEnds pos s).ring.scanRead = s.ring.scanRead
    ∧ (takeEnds pos s).ring.txForcing = s.ring.txForcing ∧ (takeEnds pos s).ring.rxForcing = s.ring.rxForcing
    ∧ (takeEnds pos s).ring.handBackAsked = s.ring.handBackAsked ∧ (takeEnds pos s).ring.fillCursor = s.ring.fillCursor
    ∧ (takeEnds pos s).ring.partRxf = s.ring.partRxf ∧ (takeEnds pos s).ring.delivery = s.ring.delivery
    ∧ (takeEnds pos s).ring.descriptorHeld = s.ring.descriptorHeld ∧ (takeEnds pos s).ring.rxOverrun = s.ring.rxOverrun
    ∧ (takeEnds pos s).ring.rxCheckDue = s.ring.rxCheckDue ∧ (takeEnds pos s).path.path = s.path.path
    ∧ (takeEnds pos s).path.phase = s.path.phase ∧ (takeEnds pos s).path.dwellD = s.path.dwellD ∧ (takeEnds pos s).path.dwell = s.path.dwell
    ∧ (takeEnds pos s).path.refallTimer = s.path.refallTimer ∧ (takeEnds pos s).path.refallOpen = s.path.refallOpen
    ∧ (takeEnds pos s).path.releaseTimer = s.path.releaseTimer ∧ (takeEnds pos s).path.txReleased = s.path.txReleased
    ∧ (takeEnds pos s).path.rxReleased = s.path.rxReleased ∧ (takeEnds pos s).path.drainTimer = s.path.drainTimer
    ∧ (takeEnds pos s).path.radioWanted = s.path.radioWanted ∧ (takeEnds pos s).path.returnPause = s.path.returnPause
    ∧ (takeEnds pos s).path.recorded = s.path.recorded ∧ (takeEnds pos s).hold.cells = s.hold.cells
    ∧ (takeEnds pos s).hold.sweep10 = s.hold.sweep10 ∧ (takeEnds pos s).hold.sweep1s = s.hold.sweep1s
    ∧ (takeEnds pos s).pacer.pacing = s.pacer.pacing ∧ (takeEnds pos s).pacer.refusalPause = s.pacer.refusalPause
    ∧ (takeEnds pos s).pacer.grantSeen = s.pacer.grantSeen ∧ (takeEnds pos s).pacer.usageBase = s.pacer.usageBase
    ∧ (takeEnds pos s).pacer.carried = s.pacer.carried ∧ (takeEnds pos s).pacer.allowance = s.pacer.allowance
    ∧ (takeEnds pos s).pacer.downlinkCap = s.pacer.downlinkCap ∧ (takeEnds pos s).radio.failures = s.radio.failures
    ∧ (takeEnds pos s).radio.lastCause = s.radio.lastCause ∧ (takeEnds pos s).radio.cycleTimer = s.radio.cycleTimer
    ∧ (takeEnds pos s).radio.silenceTimer = s.radio.silenceTimer ∧ (takeEnds pos s).radio.grantUp = s.radio.grantUp
    ∧ (takeEnds pos s).radio.grantDown = s.radio.grantDown ∧ (takeEnds pos s).radio.grantQuality = s.radio.grantQuality
    ∧ (takeEnds pos s).radio.pauseTold = s.radio.pauseTold ∧ (takeEnds pos s).radio.capTold = s.radio.capTold
    ∧ (takeEnds pos s).radio.lowPowerTold = s.radio.lowPowerTold ∧ (takeEnds pos s).radio.ldoLast = s.radio.ldoLast
    ∧ (takeEnds pos s).radio.receiver = s.radio.receiver ∧ (takeEnds pos s).power.mode = s.power.mode
    ∧ (takeEnds pos s).power.mainsReturn = s.power.mainsReturn ∧ (takeEnds pos s).power.quiet = s.power.quiet
    ∧ (takeEnds pos s).power.dozeTimer = s.power.dozeTimer ∧ (takeEnds pos s).power.restart = s.power.restart
    ∧ (takeEnds pos s).power.latch = s.power.latch ∧ (takeEnds pos s).events.evp = s.events.evp
    ∧ (takeEnds pos s).events.slotKinds = s.events.slotKinds ∧ (takeEnds pos s).events.refreshCount = s.events.refreshCount
    ∧ (takeEnds pos s).events.refreshTimer = s.events.refreshTimer ∧ (takeEnds pos s).events.pageWriting = s.events.pageWriting
    ∧ (takeEnds pos s).events.pageWanted = s.events.pageWanted ∧ (takeEnds pos s).events.ledMs = s.events.ledMs := by simp only [takeEnds]; (repeat' split) <;> simp

@[simp] theorem beginSoftReset_frame (s : State) :
    (beginSoftReset s).pending = s.pending ∧ (beginSoftReset s).clock = s.clock ∧ (beginSoftReset s).draws = s.draws
    ∧ (beginSoftReset s).sram = s.sram ∧ (beginSoftReset s).pins = s.pins ∧ (beginSoftReset s).loader.phase = s.loader.phase
    ∧ (beginSoftReset s).loader.flashCode = s.loader.flashCode ∧ (beginSoftReset s).loader.map = s.loader.map
    ∧ (beginSoftReset s).loader.linkClock = s.loader.linkClock ∧ (beginSoftReset s).loader.defaultPolicy = s.loader.defaultPolicy
    ∧ (beginSoftReset s).loader.policy = s.loader.policy ∧ (beginSoftReset s).loader.firstHalf = s.loader.firstHalf
    ∧ (beginSoftReset s).loader.pgenAtIssue = s.loader.pgenAtIssue ∧ (beginSoftReset s).loader.softResetInForce = s.loader.softResetInForce
    ∧ (beginSoftReset s).loader.counterClearInForce = s.loader.counterClearInForce
    ∧ (beginSoftReset s).loader.shadowsLoaded = s.loader.shadowsLoaded ∧ (beginSoftReset s).bus.shadows = s.bus.shadows
    ∧ (beginSoftReset s).bus.txHorizon = s.bus.txHorizon ∧ (beginSoftReset s).bus.rxHorizon = s.bus.rxHorizon
    ∧ (beginSoftReset s).bus.fixedH = s.bus.fixedH ∧ (beginSoftReset s).bus.fixedG = s.bus.fixedG
    ∧ (beginSoftReset s).bus.uplinkView = s.bus.uplinkView ∧ (beginSoftReset s).bus.receiveView = s.bus.receiveView
    ∧ (beginSoftReset s).bus.uplinkViewValue = s.bus.uplinkViewValue ∧ (beginSoftReset s).bus.receiveViewValue = s.bus.receiveViewValue
    ∧ (beginSoftReset s).bus.txGuard = s.bus.txGuard ∧ (beginSoftReset s).bus.rxGuard = s.bus.rxGuard
    ∧ (beginSoftReset s).bus.queue = s.bus.queue ∧ (beginSoftReset s).bus.waitCount = s.bus.waitCount
    ∧ (beginSoftReset s).bus.gatewayData = s.bus.gatewayData ∧ (beginSoftReset s).ring.partTxc = s.ring.partTxc
    ∧ (beginSoftReset s).ring.txCheckDue = s.ring.txCheckDue ∧ (beginSoftReset s).ring.txForcing = s.ring.txForcing
    ∧ (beginSoftReset s).ring.rxForcing = s.ring.rxForcing ∧ (beginSoftReset s).ring.fillCursor = s.ring.fillCursor
    ∧ (beginSoftReset s).ring.partRxf = s.ring.partRxf ∧ (beginSoftReset s).ring.rxCheckDue = s.ring.rxCheckDue
    ∧ (beginSoftReset s).path.path = s.path.path ∧ (beginSoftReset s).path.phase = s.path.phase ∧ (beginSoftReset s).path.dwellD = s.path.dwellD
    ∧ (beginSoftReset s).path.dwell = s.path.dwell ∧ (beginSoftReset s).path.refallTimer = s.path.refallTimer
    ∧ (beginSoftReset s).path.refallOpen = s.path.refallOpen ∧ (beginSoftReset s).path.releaseTimer = s.path.releaseTimer
    ∧ (beginSoftReset s).path.txReleased = s.path.txReleased ∧ (beginSoftReset s).path.rxReleased = s.path.rxReleased
    ∧ (beginSoftReset s).path.drainTimer = s.path.drainTimer ∧ (beginSoftReset s).path.radioWanted = s.path.radioWanted
    ∧ (beginSoftReset s).path.returnPause = s.path.returnPause ∧ (beginSoftReset s).path.recorded = s.path.recorded
    ∧ (beginSoftReset s).hold.cells = s.hold.cells ∧ (beginSoftReset s).pacer.usageBase = s.pacer.usageBase
    ∧ (beginSoftReset s).pacer.carried = s.pacer.carried ∧ (beginSoftReset s).pacer.allowance = s.pacer.allowance
    ∧ (beginSoftReset s).pacer.downlinkCap = s.pacer.downlinkCap ∧ (beginSoftReset s).radio.pauseTold = s.radio.pauseTold
    ∧ (beginSoftReset s).radio.capTold = s.radio.capTold ∧ (beginSoftReset s).radio.lowPowerTold = s.radio.lowPowerTold
    ∧ (beginSoftReset s).radio.ldoLast = s.radio.ldoLast ∧ (beginSoftReset s).power.mode = s.power.mode
    ∧ (beginSoftReset s).power.step = s.power.step ∧ (beginSoftReset s).power.mainsReturn = s.power.mainsReturn
    ∧ (beginSoftReset s).power.dozeTimer = s.power.dozeTimer ∧ (beginSoftReset s).power.restart = s.power.restart
    ∧ (beginSoftReset s).events.evp = s.events.evp ∧ (beginSoftReset s).events.slotKinds = s.events.slotKinds
    ∧ (beginSoftReset s).events.refreshCount = s.events.refreshCount ∧ (beginSoftReset s).events.refreshTimer = s.events.refreshTimer
    ∧ (beginSoftReset s).events.pageWriting = s.events.pageWriting ∧ (beginSoftReset s).events.pageWanted = s.events.pageWanted
    ∧ (beginSoftReset s).events.ledMs = s.events.ledMs := by simp only [beginSoftReset]; (repeat' split) <;> simp

@[simp] theorem attachedLost_frame (s : State) :
    (attachedLost s).pending = s.pending ∧ (attachedLost s).clock = s.clock ∧ (attachedLost s).draws = s.draws ∧ (attachedLost s).sram = s.sram
    ∧ (attachedLost s).pins = s.pins ∧ (attachedLost s).health = s.health ∧ (attachedLost s).pacer = s.pacer ∧ (attachedLost s).power = s.power
    ∧ (attachedLost s).loader.phase = s.loader.phase ∧ (attachedLost s).loader.flashCode = s.loader.flashCode
    ∧ (attachedLost s).loader.map = s.loader.map ∧ (attachedLost s).loader.linkClock = s.loader.linkClock
    ∧ (attachedLost s).loader.defaultPolicy = s.loader.defaultPolicy ∧ (attachedLost s).loader.policy = s.loader.policy
    ∧ (attachedLost s).loader.readState = s.loader.readState ∧ (attachedLost s).loader.readKind = s.loader.readKind
    ∧ (attachedLost s).loader.dueAfterRestart = s.loader.dueAfterRestart ∧ (attachedLost s).loader.firstHalf = s.loader.firstHalf
    ∧ (attachedLost s).loader.pgenAtIssue = s.loader.pgenAtIssue ∧ (attachedLost s).loader.softResetInForce = s.loader.softResetInForce
    ∧ (attachedLost s).loader.counterClearInForce = s.loader.counterClearInForce ∧ (attachedLost s).loader.shadowsLoaded = s.loader.shadowsLoaded
    ∧ (attachedLost s).loader.softReset = s.loader.softReset ∧ (attachedLost s).loader.softWait = s.loader.softWait
    ∧ (attachedLost s).loader.softPositions = s.loader.softPositions ∧ (attachedLost s).bus.shadows = s.bus.shadows
    ∧ (attachedLost s).bus.txHorizon = s.bus.txHorizon ∧ (attachedLost s).bus.rxHorizon = s.bus.rxHorizon
    ∧ (attachedLost s).bus.fixedH = s.bus.fixedH ∧ (attachedLost s).bus.fixedG = s.bus.fixedG
    ∧ (attachedLost s).bus.uplinkView = s.bus.uplinkView ∧ (attachedLost s).bus.receiveView = s.bus.receiveView
    ∧ (attachedLost s).bus.uplinkViewValue = s.bus.uplinkViewValue ∧ (attachedLost s).bus.receiveViewValue = s.bus.receiveViewValue
    ∧ (attachedLost s).bus.txGuard = s.bus.txGuard ∧ (attachedLost s).bus.rxGuard = s.bus.rxGuard ∧ (attachedLost s).bus.queue = s.bus.queue
    ∧ (attachedLost s).bus.waitCount = s.bus.waitCount ∧ (attachedLost s).bus.gatewayData = s.bus.gatewayData
    ∧ (attachedLost s).ring.base = s.ring.base ∧ (attachedLost s).ring.partTxc = s.ring.partTxc ∧ (attachedLost s).ring.overrun = s.ring.overrun
    ∧ (attachedLost s).ring.txCheckDue = s.ring.txCheckDue ∧ (attachedLost s).ring.scanRunning = s.ring.scanRunning
    ∧ (attachedLost s).ring.scanMark = s.ring.scanMark ∧ (attachedLost s).ring.scanRead = s.ring.scanRead
    ∧ (attachedLost s).ring.txForcing = s.ring.txForcing ∧ (attachedLost s).ring.rxForcing = s.ring.rxForcing
    ∧ (attachedLost s).ring.handBackAsked = s.ring.handBackAsked ∧ (attachedLost s).ring.fillCursor = s.ring.fillCursor
    ∧ (attachedLost s).ring.partRxf = s.ring.partRxf ∧ (attachedLost s).ring.delivery = s.ring.delivery
    ∧ (attachedLost s).ring.descriptorHeld = s.ring.descriptorHeld ∧ (attachedLost s).ring.rxOverrun = s.ring.rxOverrun
    ∧ (attachedLost s).ring.rxCheckDue = s.ring.rxCheckDue ∧ (attachedLost s).path.dwellD = s.path.dwellD
    ∧ (attachedLost s).path.dwell = s.path.dwell ∧ (attachedLost s).path.refallTimer = s.path.refallTimer
    ∧ (attachedLost s).path.refallOpen = s.path.refallOpen ∧ (attachedLost s).path.releaseTimer = s.path.releaseTimer
    ∧ (attachedLost s).path.txReleased = s.path.txReleased ∧ (attachedLost s).path.rxReleased = s.path.rxReleased
    ∧ (attachedLost s).path.radioWanted = s.path.radioWanted ∧ (attachedLost s).path.recorded = s.path.recorded
    ∧ (attachedLost s).hold.cells = s.hold.cells ∧ (attachedLost s).hold.uqE = s.hold.uqE ∧ (attachedLost s).hold.uqV = s.hold.uqV
    ∧ (attachedLost s).hold.uqD = s.hold.uqD ∧ (attachedLost s).hold.dqV = s.hold.dqV ∧ (attachedLost s).hold.dqD = s.hold.dqD
    ∧ (attachedLost s).hold.sweep10 = s.hold.sweep10 ∧ (attachedLost s).hold.sweep1s = s.hold.sweep1s
    ∧ (attachedLost s).radio.failures = s.radio.failures ∧ (attachedLost s).radio.lastCause = s.radio.lastCause
    ∧ (attachedLost s).radio.grantUp = s.radio.grantUp ∧ (attachedLost s).radio.grantDown = s.radio.grantDown
    ∧ (attachedLost s).radio.grantQuality = s.radio.grantQuality ∧ (attachedLost s).radio.slotA = s.radio.slotA
    ∧ (attachedLost s).radio.slotB = s.radio.slotB ∧ (attachedLost s).radio.unsent = s.radio.unsent
    ∧ (attachedLost s).radio.pauseTold = s.radio.pauseTold ∧ (attachedLost s).radio.capTold = s.radio.capTold
    ∧ (attachedLost s).radio.lowPowerTold = s.radio.lowPowerTold ∧ (attachedLost s).radio.ldoLast = s.radio.ldoLast
    ∧ (attachedLost s).events.evp = s.events.evp ∧ (attachedLost s).events.slotKinds = s.events.slotKinds
    ∧ (attachedLost s).events.refreshCount = s.events.refreshCount ∧ (attachedLost s).events.refreshTimer = s.events.refreshTimer
    ∧ (attachedLost s).events.pageWriting = s.events.pageWriting ∧ (attachedLost s).events.ledMs = s.events.ledMs := by simp [attachedLost]

@[simp] theorem attachSucceeds_frame (s : State) :
    (attachSucceeds s).pending = s.pending ∧ (attachSucceeds s).clock = s.clock ∧ (attachSucceeds s).draws = s.draws
    ∧ (attachSucceeds s).sram = s.sram ∧ (attachSucceeds s).pins = s.pins ∧ (attachSucceeds s).loader = s.loader
    ∧ (attachSucceeds s).health = s.health ∧ (attachSucceeds s).power = s.power ∧ (attachSucceeds s).bus.shadows = s.bus.shadows
    ∧ (attachSucceeds s).bus.txHorizon = s.bus.txHorizon ∧ (attachSucceeds s).bus.rxHorizon = s.bus.rxHorizon
    ∧ (attachSucceeds s).bus.fixedH = s.bus.fixedH ∧ (attachSucceeds s).bus.fixedG = s.bus.fixedG
    ∧ (attachSucceeds s).bus.uplinkView = s.bus.uplinkView ∧ (attachSucceeds s).bus.receiveView = s.bus.receiveView
    ∧ (attachSucceeds s).bus.uplinkViewValue = s.bus.uplinkViewValue ∧ (attachSucceeds s).bus.receiveViewValue = s.bus.receiveViewValue
    ∧ (attachSucceeds s).bus.txGuard = s.bus.txGuard ∧ (attachSucceeds s).bus.rxGuard = s.bus.rxGuard
    ∧ (attachSucceeds s).bus.queue = s.bus.queue ∧ (attachSucceeds s).bus.waitCount = s.bus.waitCount
    ∧ (attachSucceeds s).bus.gatewayData = s.bus.gatewayData ∧ (attachSucceeds s).ring.base = s.ring.base
    ∧ (attachSucceeds s).ring.partTxc = s.ring.partTxc ∧ (attachSucceeds s).ring.overrun = s.ring.overrun
    ∧ (attachSucceeds s).ring.txCheckDue = s.ring.txCheckDue ∧ (attachSucceeds s).ring.scanRunning = s.ring.scanRunning
    ∧ (attachSucceeds s).ring.scanMark = s.ring.scanMark ∧ (attachSucceeds s).ring.scanRead = s.ring.scanRead
    ∧ (attachSucceeds s).ring.txForcing = s.ring.txForcing ∧ (attachSucceeds s).ring.rxForcing = s.ring.rxForcing
    ∧ (attachSucceeds s).ring.handBackAsked = s.ring.handBackAsked ∧ (attachSucceeds s).ring.fillCursor = s.ring.fillCursor
    ∧ (attachSucceeds s).ring.partRxf = s.ring.partRxf ∧ (attachSucceeds s).ring.delivery = s.ring.delivery
    ∧ (attachSucceeds s).ring.descriptorHeld = s.ring.descriptorHeld ∧ (attachSucceeds s).ring.rxOverrun = s.ring.rxOverrun
    ∧ (attachSucceeds s).ring.rxCheckDue = s.ring.rxCheckDue ∧ (attachSucceeds s).path.dwellD = s.path.dwellD
    ∧ (attachSucceeds s).path.dwell = s.path.dwell ∧ (attachSucceeds s).path.refallTimer = s.path.refallTimer
    ∧ (attachSucceeds s).path.refallOpen = s.path.refallOpen ∧ (attachSucceeds s).path.releaseTimer = s.path.releaseTimer
    ∧ (attachSucceeds s).path.txReleased = s.path.txReleased ∧ (attachSucceeds s).path.rxReleased = s.path.rxReleased
    ∧ (attachSucceeds s).path.radioWanted = s.path.radioWanted ∧ (attachSucceeds s).path.recorded = s.path.recorded
    ∧ (attachSucceeds s).hold.cells = s.hold.cells ∧ (attachSucceeds s).hold.dqV = s.hold.dqV ∧ (attachSucceeds s).hold.dqD = s.hold.dqD
    ∧ (attachSucceeds s).hold.sweep10 = s.hold.sweep10 ∧ (attachSucceeds s).hold.sweep1s = s.hold.sweep1s
    ∧ (attachSucceeds s).pacer.pacing = s.pacer.pacing ∧ (attachSucceeds s).pacer.refusalPause = s.pacer.refusalPause
    ∧ (attachSucceeds s).pacer.usageBase = s.pacer.usageBase ∧ (attachSucceeds s).pacer.carried = s.pacer.carried
    ∧ (attachSucceeds s).pacer.allowance = s.pacer.allowance ∧ (attachSucceeds s).pacer.downlinkCap = s.pacer.downlinkCap
    ∧ (attachSucceeds s).radio.cycleTimer = s.radio.cycleTimer ∧ (attachSucceeds s).radio.grantUp = s.radio.grantUp
    ∧ (attachSucceeds s).radio.grantDown = s.radio.grantDown ∧ (attachSucceeds s).radio.grantQuality = s.radio.grantQuality
    ∧ (attachSucceeds s).radio.pauseTold = s.radio.pauseTold ∧ (attachSucceeds s).radio.capTold = s.radio.capTold
    ∧ (attachSucceeds s).radio.lowPowerTold = s.radio.lowPowerTold ∧ (attachSucceeds s).radio.ldo = s.radio.ldo
    ∧ (attachSucceeds s).radio.ldoLast = s.radio.ldoLast ∧ (attachSucceeds s).radio.receiver = s.radio.receiver
    ∧ (attachSucceeds s).events.evp = s.events.evp ∧ (attachSucceeds s).events.slotKinds = s.events.slotKinds
    ∧ (attachSucceeds s).events.refreshCount = s.events.refreshCount ∧ (attachSucceeds s).events.refreshTimer = s.events.refreshTimer
    ∧ (attachSucceeds s).events.pageWriting = s.events.pageWriting ∧ (attachSucceeds s).events.ledMs = s.events.ledMs := by simp [attachSucceeds]

@[simp] theorem attachExpires_frame (s : State) :
    (attachExpires s).pending = s.pending ∧ (attachExpires s).clock = s.clock ∧ (attachExpires s).draws = s.draws
    ∧ (attachExpires s).sram = s.sram ∧ (attachExpires s).pins = s.pins ∧ (attachExpires s).health = s.health ∧ (attachExpires s).pacer = s.pacer
    ∧ (attachExpires s).power = s.power ∧ (attachExpires s).loader.phase = s.loader.phase
    ∧ (attachExpires s).loader.flashCode = s.loader.flashCode ∧ (attachExpires s).loader.map = s.loader.map
    ∧ (attachExpires s).loader.linkClock = s.loader.linkClock ∧ (attachExpires s).loader.defaultPolicy = s.loader.defaultPolicy
    ∧ (attachExpires s).loader.policy = s.loader.policy ∧ (attachExpires s).loader.readState = s.loader.readState
    ∧ (attachExpires s).loader.readKind = s.loader.readKind ∧ (attachExpires s).loader.dueAfterRestart = s.loader.dueAfterRestart
    ∧ (attachExpires s).loader.firstHalf = s.loader.firstHalf ∧ (attachExpires s).loader.pgenAtIssue = s.loader.pgenAtIssue
    ∧ (attachExpires s).loader.softResetInForce = s.loader.softResetInForce
    ∧ (attachExpires s).loader.counterClearInForce = s.loader.counterClearInForce
    ∧ (attachExpires s).loader.shadowsLoaded = s.loader.shadowsLoaded ∧ (attachExpires s).loader.softReset = s.loader.softReset
    ∧ (attachExpires s).loader.softWait = s.loader.softWait ∧ (attachExpires s).loader.softPositions = s.loader.softPositions
    ∧ (attachExpires s).bus.shadows = s.bus.shadows ∧ (attachExpires s).bus.txHorizon = s.bus.txHorizon
    ∧ (attachExpires s).bus.rxHorizon = s.bus.rxHorizon ∧ (attachExpires s).bus.fixedH = s.bus.fixedH
    ∧ (attachExpires s).bus.fixedG = s.bus.fixedG ∧ (attachExpires s).bus.uplinkView = s.bus.uplinkView
    ∧ (attachExpires s).bus.receiveView = s.bus.receiveView ∧ (attachExpires s).bus.uplinkViewValue = s.bus.uplinkViewValue
    ∧ (attachExpires s).bus.receiveViewValue = s.bus.receiveViewValue ∧ (attachExpires s).bus.txGuard = s.bus.txGuard
    ∧ (attachExpires s).bus.rxGuard = s.bus.rxGuard ∧ (attachExpires s).bus.queue = s.bus.queue
    ∧ (attachExpires s).bus.waitCount = s.bus.waitCount ∧ (attachExpires s).bus.gatewayData = s.bus.gatewayData
    ∧ (attachExpires s).ring.base = s.ring.base ∧ (attachExpires s).ring.partTxc = s.ring.partTxc
    ∧ (attachExpires s).ring.overrun = s.ring.overrun ∧ (attachExpires s).ring.txCheckDue = s.ring.txCheckDue
    ∧ (attachExpires s).ring.scanRunning = s.ring.scanRunning ∧ (attachExpires s).ring.scanMark = s.ring.scanMark
    ∧ (attachExpires s).ring.scanRead = s.ring.scanRead ∧ (attachExpires s).ring.txForcing = s.ring.txForcing
    ∧ (attachExpires s).ring.rxForcing = s.ring.rxForcing ∧ (attachExpires s).ring.handBackAsked = s.ring.handBackAsked
    ∧ (attachExpires s).ring.fillCursor = s.ring.fillCursor ∧ (attachExpires s).ring.partRxf = s.ring.partRxf
    ∧ (attachExpires s).ring.delivery = s.ring.delivery ∧ (attachExpires s).ring.descriptorHeld = s.ring.descriptorHeld
    ∧ (attachExpires s).ring.rxOverrun = s.ring.rxOverrun ∧ (attachExpires s).ring.rxCheckDue = s.ring.rxCheckDue
    ∧ (attachExpires s).path.dwellD = s.path.dwellD ∧ (attachExpires s).path.dwell = s.path.dwell
    ∧ (attachExpires s).path.refallTimer = s.path.refallTimer ∧ (attachExpires s).path.refallOpen = s.path.refallOpen
    ∧ (attachExpires s).path.releaseTimer = s.path.releaseTimer ∧ (attachExpires s).path.txReleased = s.path.txReleased
    ∧ (attachExpires s).path.rxReleased = s.path.rxReleased ∧ (attachExpires s).path.radioWanted = s.path.radioWanted
    ∧ (attachExpires s).path.recorded = s.path.recorded ∧ (attachExpires s).hold.cells = s.hold.cells ∧ (attachExpires s).hold.uqE = s.hold.uqE
    ∧ (attachExpires s).hold.uqV = s.hold.uqV ∧ (attachExpires s).hold.uqD = s.hold.uqD ∧ (attachExpires s).hold.dqV = s.hold.dqV
    ∧ (attachExpires s).hold.dqD = s.hold.dqD ∧ (attachExpires s).hold.sweep10 = s.hold.sweep10 ∧ (attachExpires s).hold.sweep1s = s.hold.sweep1s
    ∧ (attachExpires s).radio.silenceTimer = s.radio.silenceTimer ∧ (attachExpires s).radio.grantUp = s.radio.grantUp
    ∧ (attachExpires s).radio.grantDown = s.radio.grantDown ∧ (attachExpires s).radio.grantQuality = s.radio.grantQuality
    ∧ (attachExpires s).radio.slotA = s.radio.slotA ∧ (attachExpires s).radio.slotB = s.radio.slotB
    ∧ (attachExpires s).radio.unsent = s.radio.unsent ∧ (attachExpires s).radio.pauseTold = s.radio.pauseTold
    ∧ (attachExpires s).radio.capTold = s.radio.capTold ∧ (attachExpires s).radio.lowPowerTold = s.radio.lowPowerTold
    ∧ (attachExpires s).radio.ldoLast = s.radio.ldoLast ∧ (attachExpires s).events.evp = s.events.evp
    ∧ (attachExpires s).events.slotKinds = s.events.slotKinds ∧ (attachExpires s).events.refreshCount = s.events.refreshCount
    ∧ (attachExpires s).events.refreshTimer = s.events.refreshTimer ∧ (attachExpires s).events.pageWriting = s.events.pageWriting
    ∧ (attachExpires s).events.ledMs = s.events.ledMs := by simp only [attachExpires]; (repeat' split) <;> simp

@[simp] theorem priorityExpires_frame (s : State) :
    (priorityExpires s).pending = s.pending ∧ (priorityExpires s).clock = s.clock ∧ (priorityExpires s).draws = s.draws
    ∧ (priorityExpires s).sram = s.sram ∧ (priorityExpires s).pins = s.pins ∧ (priorityExpires s).health = s.health
    ∧ (priorityExpires s).pacer = s.pacer ∧ (priorityExpires s).power = s.power ∧ (priorityExpires s).loader.phase = s.loader.phase
    ∧ (priorityExpires s).loader.flashCode = s.loader.flashCode ∧ (priorityExpires s).loader.map = s.loader.map
    ∧ (priorityExpires s).loader.linkClock = s.loader.linkClock ∧ (priorityExpires s).loader.defaultPolicy = s.loader.defaultPolicy
    ∧ (priorityExpires s).loader.policy = s.loader.policy ∧ (priorityExpires s).loader.readState = s.loader.readState
    ∧ (priorityExpires s).loader.readKind = s.loader.readKind ∧ (priorityExpires s).loader.dueAfterRestart = s.loader.dueAfterRestart
    ∧ (priorityExpires s).loader.firstHalf = s.loader.firstHalf ∧ (priorityExpires s).loader.pgenAtIssue = s.loader.pgenAtIssue
    ∧ (priorityExpires s).loader.softResetInForce = s.loader.softResetInForce
    ∧ (priorityExpires s).loader.counterClearInForce = s.loader.counterClearInForce
    ∧ (priorityExpires s).loader.shadowsLoaded = s.loader.shadowsLoaded ∧ (priorityExpires s).loader.softReset = s.loader.softReset
    ∧ (priorityExpires s).loader.softWait = s.loader.softWait ∧ (priorityExpires s).loader.softPositions = s.loader.softPositions
    ∧ (priorityExpires s).bus.shadows = s.bus.shadows ∧ (priorityExpires s).bus.txHorizon = s.bus.txHorizon
    ∧ (priorityExpires s).bus.rxHorizon = s.bus.rxHorizon ∧ (priorityExpires s).bus.fixedH = s.bus.fixedH
    ∧ (priorityExpires s).bus.fixedG = s.bus.fixedG ∧ (priorityExpires s).bus.uplinkView = s.bus.uplinkView
    ∧ (priorityExpires s).bus.receiveView = s.bus.receiveView ∧ (priorityExpires s).bus.uplinkViewValue = s.bus.uplinkViewValue
    ∧ (priorityExpires s).bus.receiveViewValue = s.bus.receiveViewValue ∧ (priorityExpires s).bus.txGuard = s.bus.txGuard
    ∧ (priorityExpires s).bus.rxGuard = s.bus.rxGuard ∧ (priorityExpires s).bus.queue = s.bus.queue
    ∧ (priorityExpires s).bus.waitCount = s.bus.waitCount ∧ (priorityExpires s).bus.gatewayData = s.bus.gatewayData
    ∧ (priorityExpires s).ring.base = s.ring.base ∧ (priorityExpires s).ring.partTxc = s.ring.partTxc
    ∧ (priorityExpires s).ring.overrun = s.ring.overrun ∧ (priorityExpires s).ring.txCheckDue = s.ring.txCheckDue
    ∧ (priorityExpires s).ring.scanRunning = s.ring.scanRunning ∧ (priorityExpires s).ring.scanMark = s.ring.scanMark
    ∧ (priorityExpires s).ring.scanRead = s.ring.scanRead ∧ (priorityExpires s).ring.txForcing = s.ring.txForcing
    ∧ (priorityExpires s).ring.rxForcing = s.ring.rxForcing ∧ (priorityExpires s).ring.handBackAsked = s.ring.handBackAsked
    ∧ (priorityExpires s).ring.fillCursor = s.ring.fillCursor ∧ (priorityExpires s).ring.partRxf = s.ring.partRxf
    ∧ (priorityExpires s).ring.delivery = s.ring.delivery ∧ (priorityExpires s).ring.descriptorHeld = s.ring.descriptorHeld
    ∧ (priorityExpires s).ring.rxOverrun = s.ring.rxOverrun ∧ (priorityExpires s).ring.rxCheckDue = s.ring.rxCheckDue
    ∧ (priorityExpires s).path.dwellD = s.path.dwellD ∧ (priorityExpires s).path.dwell = s.path.dwell
    ∧ (priorityExpires s).path.refallTimer = s.path.refallTimer ∧ (priorityExpires s).path.refallOpen = s.path.refallOpen
    ∧ (priorityExpires s).path.releaseTimer = s.path.releaseTimer ∧ (priorityExpires s).path.txReleased = s.path.txReleased
    ∧ (priorityExpires s).path.rxReleased = s.path.rxReleased ∧ (priorityExpires s).path.radioWanted = s.path.radioWanted
    ∧ (priorityExpires s).path.recorded = s.path.recorded ∧ (priorityExpires s).hold.cells = s.hold.cells
    ∧ (priorityExpires s).hold.uqE = s.hold.uqE ∧ (priorityExpires s).hold.uqV = s.hold.uqV ∧ (priorityExpires s).hold.uqD = s.hold.uqD
    ∧ (priorityExpires s).hold.dqV = s.hold.dqV ∧ (priorityExpires s).hold.dqD = s.hold.dqD ∧ (priorityExpires s).hold.sweep10 = s.hold.sweep10
    ∧ (priorityExpires s).hold.sweep1s = s.hold.sweep1s ∧ (priorityExpires s).radio.failures = s.radio.failures
    ∧ (priorityExpires s).radio.lastCause = s.radio.lastCause ∧ (priorityExpires s).radio.silenceTimer = s.radio.silenceTimer
    ∧ (priorityExpires s).radio.grantUp = s.radio.grantUp ∧ (priorityExpires s).radio.grantDown = s.radio.grantDown
    ∧ (priorityExpires s).radio.grantQuality = s.radio.grantQuality ∧ (priorityExpires s).radio.slotA = s.radio.slotA
    ∧ (priorityExpires s).radio.slotB = s.radio.slotB ∧ (priorityExpires s).radio.unsent = s.radio.unsent
    ∧ (priorityExpires s).radio.pauseTold = s.radio.pauseTold ∧ (priorityExpires s).radio.capTold = s.radio.capTold
    ∧ (priorityExpires s).radio.lowPowerTold = s.radio.lowPowerTold ∧ (priorityExpires s).radio.ldoLast = s.radio.ldoLast
    ∧ (priorityExpires s).events.evp = s.events.evp ∧ (priorityExpires s).events.slotKinds = s.events.slotKinds
    ∧ (priorityExpires s).events.refreshCount = s.events.refreshCount ∧ (priorityExpires s).events.refreshTimer = s.events.refreshTimer
    ∧ (priorityExpires s).events.pageWriting = s.events.pageWriting ∧ (priorityExpires s).events.ledMs = s.events.ledMs := by simp [priorityExpires]

@[simp] theorem timeOutSlot_frame (slot : Slot) (s : State) :
    (timeOutSlot slot s).pending = s.pending ∧ (timeOutSlot slot s).clock = s.clock ∧ (timeOutSlot slot s).draws = s.draws
    ∧ (timeOutSlot slot s).sram = s.sram ∧ (timeOutSlot slot s).pins = s.pins ∧ (timeOutSlot slot s).loader = s.loader
    ∧ (timeOutSlot slot s).health = s.health ∧ (timeOutSlot slot s).power = s.power ∧ (timeOutSlot slot s).bus.shadows = s.bus.shadows
    ∧ (timeOutSlot slot s).bus.txHorizon = s.bus.txHorizon ∧ (timeOutSlot slot s).bus.rxHorizon = s.bus.rxHorizon
    ∧ (timeOutSlot slot s).bus.fixedH = s.bus.fixedH ∧ (timeOutSlot slot s).bus.fixedG = s.bus.fixedG
    ∧ (timeOutSlot slot s).bus.uplinkView = s.bus.uplinkView ∧ (timeOutSlot slot s).bus.receiveView = s.bus.receiveView
    ∧ (timeOutSlot slot s).bus.uplinkViewValue = s.bus.uplinkViewValue ∧ (timeOutSlot slot s).bus.receiveViewValue = s.bus.receiveViewValue
    ∧ (timeOutSlot slot s).bus.txGuard = s.bus.txGuard ∧ (timeOutSlot slot s).bus.rxGuard = s.bus.rxGuard
    ∧ (timeOutSlot slot s).bus.queue = s.bus.queue ∧ (timeOutSlot slot s).bus.waitCount = s.bus.waitCount
    ∧ (timeOutSlot slot s).bus.gatewayData = s.bus.gatewayData ∧ (timeOutSlot slot s).ring.base = s.ring.base
    ∧ (timeOutSlot slot s).ring.partTxc = s.ring.partTxc ∧ (timeOutSlot slot s).ring.readMark = s.ring.readMark
    ∧ (timeOutSlot slot s).ring.descriptorRead = s.ring.descriptorRead ∧ (timeOutSlot slot s).ring.fence = s.ring.fence
    ∧ (timeOutSlot slot s).ring.overrun = s.ring.overrun ∧ (timeOutSlot slot s).ring.txCheckDue = s.ring.txCheckDue
    ∧ (timeOutSlot slot s).ring.scanRunning = s.ring.scanRunning ∧ (timeOutSlot slot s).ring.scanMark = s.ring.scanMark
    ∧ (timeOutSlot slot s).ring.scanRead = s.ring.scanRead ∧ (timeOutSlot slot s).ring.txForcing = s.ring.txForcing
    ∧ (timeOutSlot slot s).ring.rxForcing = s.ring.rxForcing ∧ (timeOutSlot slot s).ring.handBackAsked = s.ring.handBackAsked
    ∧ (timeOutSlot slot s).ring.fillCursor = s.ring.fillCursor ∧ (timeOutSlot slot s).ring.partRxf = s.ring.partRxf
    ∧ (timeOutSlot slot s).ring.delivery = s.ring.delivery ∧ (timeOutSlot slot s).ring.descriptorHeld = s.ring.descriptorHeld
    ∧ (timeOutSlot slot s).ring.rxOverrun = s.ring.rxOverrun ∧ (timeOutSlot slot s).ring.rxCheckDue = s.ring.rxCheckDue
    ∧ (timeOutSlot slot s).path.path = s.path.path ∧ (timeOutSlot slot s).path.phase = s.path.phase
    ∧ (timeOutSlot slot s).path.dwellD = s.path.dwellD ∧ (timeOutSlot slot s).path.dwell = s.path.dwell
    ∧ (timeOutSlot slot s).path.refallTimer = s.path.refallTimer ∧ (timeOutSlot slot s).path.refallOpen = s.path.refallOpen
    ∧ (timeOutSlot slot s).path.releaseTimer = s.path.releaseTimer ∧ (timeOutSlot slot s).path.txReleased = s.path.txReleased
    ∧ (timeOutSlot slot s).path.rxReleased = s.path.rxReleased ∧ (timeOutSlot slot s).path.drainTimer = s.path.drainTimer
    ∧ (timeOutSlot slot s).path.radioWanted = s.path.radioWanted ∧ (timeOutSlot slot s).path.returnPause = s.path.returnPause
    ∧ (timeOutSlot slot s).path.recorded = s.path.recorded ∧ (timeOutSlot slot s).hold.cells = s.hold.cells
    ∧ (timeOutSlot slot s).hold.dqV = s.hold.dqV ∧ (timeOutSlot slot s).hold.dqD = s.hold.dqD
    ∧ (timeOutSlot slot s).hold.sweep10 = s.hold.sweep10 ∧ (timeOutSlot slot s).hold.sweep1s = s.hold.sweep1s
    ∧ (timeOutSlot slot s).pacer.pacing = s.pacer.pacing ∧ (timeOutSlot slot s).pacer.grantSeen = s.pacer.grantSeen
    ∧ (timeOutSlot slot s).pacer.usageBase = s.pacer.usageBase ∧ (timeOutSlot slot s).pacer.carried = s.pacer.carried
    ∧ (timeOutSlot slot s).pacer.allowance = s.pacer.allowance ∧ (timeOutSlot slot s).pacer.downlinkCap = s.pacer.downlinkCap
    ∧ (timeOutSlot slot s).radio.failures = s.radio.failures ∧ (timeOutSlot slot s).radio.lastCause = s.radio.lastCause
    ∧ (timeOutSlot slot s).radio.cycleTimer = s.radio.cycleTimer ∧ (timeOutSlot slot s).radio.silenceTimer = s.radio.silenceTimer
    ∧ (timeOutSlot slot s).radio.grantUp = s.radio.grantUp ∧ (timeOutSlot slot s).radio.grantDown = s.radio.grantDown
    ∧ (timeOutSlot slot s).radio.grantQuality = s.radio.grantQuality ∧ (timeOutSlot slot s).radio.pauseTold = s.radio.pauseTold
    ∧ (timeOutSlot slot s).radio.capTold = s.radio.capTold ∧ (timeOutSlot slot s).radio.lowPowerTold = s.radio.lowPowerTold
    ∧ (timeOutSlot slot s).radio.ldoLast = s.radio.ldoLast ∧ (timeOutSlot slot s).radio.receiver = s.radio.receiver
    ∧ (timeOutSlot slot s).events.evp = s.events.evp ∧ (timeOutSlot slot s).events.slotKinds = s.events.slotKinds
    ∧ (timeOutSlot slot s).events.refreshCount = s.events.refreshCount ∧ (timeOutSlot slot s).events.refreshTimer = s.events.refreshTimer
    ∧ (timeOutSlot slot s).events.pageWriting = s.events.pageWriting ∧ (timeOutSlot slot s).events.pageWanted = s.events.pageWanted
    ∧ (timeOutSlot slot s).events.ledMs = s.events.ledMs := by unfold timeOutSlot; (repeat' split) <;> simp

@[simp] theorem evalTakeover_frame (s : State) :
    (evalTakeover s).pending = s.pending ∧ (evalTakeover s).clock = s.clock ∧ (evalTakeover s).draws = s.draws ∧ (evalTakeover s).sram = s.sram
    ∧ (evalTakeover s).pins = s.pins ∧ (evalTakeover s).pacer = s.pacer ∧ (evalTakeover s).loader.phase = s.loader.phase
    ∧ (evalTakeover s).loader.flashCode = s.loader.flashCode ∧ (evalTakeover s).loader.map = s.loader.map
    ∧ (evalTakeover s).loader.linkClock = s.loader.linkClock ∧ (evalTakeover s).loader.defaultPolicy = s.loader.defaultPolicy
    ∧ (evalTakeover s).loader.policy = s.loader.policy ∧ (evalTakeover s).loader.readState = s.loader.readState
    ∧ (evalTakeover s).loader.readKind = s.loader.readKind ∧ (evalTakeover s).loader.dueAfterRestart = s.loader.dueAfterRestart
    ∧ (evalTakeover s).loader.firstHalf = s.loader.firstHalf ∧ (evalTakeover s).loader.pgenAtIssue = s.loader.pgenAtIssue
    ∧ (evalTakeover s).loader.softResetInForce = s.loader.softResetInForce
    ∧ (evalTakeover s).loader.counterClearInForce = s.loader.counterClearInForce ∧ (evalTakeover s).loader.shadowsLoaded = s.loader.shadowsLoaded
    ∧ (evalTakeover s).loader.softReset = s.loader.softReset ∧ (evalTakeover s).loader.softWait = s.loader.softWait
    ∧ (evalTakeover s).loader.softPositions = s.loader.softPositions ∧ (evalTakeover s).bus.shadows = s.bus.shadows
    ∧ (evalTakeover s).bus.txHorizon = s.bus.txHorizon ∧ (evalTakeover s).bus.rxHorizon = s.bus.rxHorizon
    ∧ (evalTakeover s).bus.queue = s.bus.queue ∧ (evalTakeover s).bus.waitCount = s.bus.waitCount
    ∧ (evalTakeover s).bus.gatewayData = s.bus.gatewayData ∧ (evalTakeover s).ring.delivery = s.ring.delivery
    ∧ (evalTakeover s).ring.descriptorHeld = s.ring.descriptorHeld ∧ (evalTakeover s).health.sig = s.health.sig
    ∧ (evalTakeover s).health.txp = s.health.txp ∧ (evalTakeover s).health.rxa = s.health.rxa ∧ (evalTakeover s).health.txe = s.health.txe
    ∧ (evalTakeover s).health.verdict = s.health.verdict ∧ (evalTakeover s).health.txReference = s.health.txReference
    ∧ (evalTakeover s).health.activityMark = s.health.activityMark ∧ (evalTakeover s).health.timer100 = s.health.timer100
    ∧ (evalTakeover s).path.refallTimer = s.path.refallTimer ∧ (evalTakeover s).path.refallOpen = s.path.refallOpen
    ∧ (evalTakeover s).path.recorded = s.path.recorded ∧ (evalTakeover s).hold.cells = s.hold.cells ∧ (evalTakeover s).hold.uqE = s.hold.uqE
    ∧ (evalTakeover s).hold.uqV = s.hold.uqV ∧ (evalTakeover s).hold.uqD = s.hold.uqD ∧ (evalTakeover s).hold.dqV = s.hold.dqV
    ∧ (evalTakeover s).hold.dqD = s.hold.dqD ∧ (evalTakeover s).hold.sweep10 = s.hold.sweep10 ∧ (evalTakeover s).hold.sweep1s = s.hold.sweep1s
    ∧ (evalTakeover s).radio.failures = s.radio.failures ∧ (evalTakeover s).radio.lastCause = s.radio.lastCause
    ∧ (evalTakeover s).radio.silenceTimer = s.radio.silenceTimer ∧ (evalTakeover s).radio.grantUp = s.radio.grantUp
    ∧ (evalTakeover s).radio.grantDown = s.radio.grantDown ∧ (evalTakeover s).radio.grantQuality = s.radio.grantQuality
    ∧ (evalTakeover s).radio.slotA = s.radio.slotA ∧ (evalTakeover s).radio.slotB = s.radio.slotB
    ∧ (evalTakeover s).radio.unsent = s.radio.unsent ∧ (evalTakeover s).radio.pauseTold = s.radio.pauseTold
    ∧ (evalTakeover s).radio.capTold = s.radio.capTold ∧ (evalTakeover s).radio.lowPowerTold = s.radio.lowPowerTold
    ∧ (evalTakeover s).radio.ldoLast = s.radio.ldoLast ∧ (evalTakeover s).power.mode = s.power.mode
    ∧ (evalTakeover s).power.mainsReturn = s.power.mainsReturn ∧ (evalTakeover s).power.quiet = s.power.quiet
    ∧ (evalTakeover s).power.dozeTimer = s.power.dozeTimer ∧ (evalTakeover s).power.restart = s.power.restart
    ∧ (evalTakeover s).power.latch = s.power.latch ∧ (evalTakeover s).events.evp = s.events.evp
    ∧ (evalTakeover s).events.slotKinds = s.events.slotKinds ∧ (evalTakeover s).events.refreshCount = s.events.refreshCount
    ∧ (evalTakeover s).events.refreshTimer = s.events.refreshTimer ∧ (evalTakeover s).events.pageWriting = s.events.pageWriting
    ∧ (evalTakeover s).events.ledMs = s.events.ledMs := by unfold evalTakeover; (repeat' split) <;> simp

@[simp] theorem scanReports_frame (s : State) :
    (scanReports s).pending = s.pending ∧ (scanReports s).clock = s.clock ∧ (scanReports s).draws = s.draws ∧ (scanReports s).sram = s.sram
    ∧ (scanReports s).pins = s.pins ∧ (scanReports s).pacer = s.pacer ∧ (scanReports s).loader.phase = s.loader.phase
    ∧ (scanReports s).loader.flashCode = s.loader.flashCode ∧ (scanReports s).loader.map = s.loader.map
    ∧ (scanReports s).loader.linkClock = s.loader.linkClock ∧ (scanReports s).loader.defaultPolicy = s.loader.defaultPolicy
    ∧ (scanReports s).loader.policy = s.loader.policy ∧ (scanReports s).loader.readState = s.loader.readState
    ∧ (scanReports s).loader.readKind = s.loader.readKind ∧ (scanReports s).loader.dueAfterRestart = s.loader.dueAfterRestart
    ∧ (scanReports s).loader.firstHalf = s.loader.firstHalf ∧ (scanReports s).loader.pgenAtIssue = s.loader.pgenAtIssue
    ∧ (scanReports s).loader.softResetInForce = s.loader.softResetInForce
    ∧ (scanReports s).loader.counterClearInForce = s.loader.counterClearInForce ∧ (scanReports s).loader.shadowsLoaded = s.loader.shadowsLoaded
    ∧ (scanReports s).loader.softReset = s.loader.softReset ∧ (scanReports s).loader.softWait = s.loader.softWait
    ∧ (scanReports s).loader.softPositions = s.loader.softPositions ∧ (scanReports s).bus.shadows = s.bus.shadows
    ∧ (scanReports s).bus.txHorizon = s.bus.txHorizon ∧ (scanReports s).bus.rxHorizon = s.bus.rxHorizon ∧ (scanReports s).bus.queue = s.bus.queue
    ∧ (scanReports s).bus.waitCount = s.bus.waitCount ∧ (scanReports s).bus.gatewayData = s.bus.gatewayData
    ∧ (scanReports s).ring.delivery = s.ring.delivery ∧ (scanReports s).ring.descriptorHeld = s.ring.descriptorHeld
    ∧ (scanReports s).health.sig = s.health.sig ∧ (scanReports s).health.txp = s.health.txp ∧ (scanReports s).health.rxa = s.health.rxa
    ∧ (scanReports s).health.txe = s.health.txe ∧ (scanReports s).health.verdict = s.health.verdict
    ∧ (scanReports s).health.txReference = s.health.txReference ∧ (scanReports s).health.activityMark = s.health.activityMark
    ∧ (scanReports s).health.timer100 = s.health.timer100 ∧ (scanReports s).path.refallTimer = s.path.refallTimer
    ∧ (scanReports s).path.refallOpen = s.path.refallOpen ∧ (scanReports s).path.recorded = s.path.recorded
    ∧ (scanReports s).hold.cells = s.hold.cells ∧ (scanReports s).hold.uqE = s.hold.uqE ∧ (scanReports s).hold.uqV = s.hold.uqV
    ∧ (scanReports s).hold.uqD = s.hold.uqD ∧ (scanReports s).hold.dqV = s.hold.dqV ∧ (scanReports s).hold.dqD = s.hold.dqD
    ∧ (scanReports s).hold.sweep10 = s.hold.sweep10 ∧ (scanReports s).hold.sweep1s = s.hold.sweep1s
    ∧ (scanReports s).radio.failures = s.radio.failures ∧ (scanReports s).radio.lastCause = s.radio.lastCause
    ∧ (scanReports s).radio.silenceTimer = s.radio.silenceTimer ∧ (scanReports s).radio.grantUp = s.radio.grantUp
    ∧ (scanReports s).radio.grantDown = s.radio.grantDown ∧ (scanReports s).radio.grantQuality = s.radio.grantQuality
    ∧ (scanReports s).radio.slotA = s.radio.slotA ∧ (scanReports s).radio.slotB = s.radio.slotB ∧ (scanReports s).radio.unsent = s.radio.unsent
    ∧ (scanReports s).radio.pauseTold = s.radio.pauseTold ∧ (scanReports s).radio.capTold = s.radio.capTold
    ∧ (scanReports s).radio.lowPowerTold = s.radio.lowPowerTold ∧ (scanReports s).radio.ldoLast = s.radio.ldoLast
    ∧ (scanReports s).power.mode = s.power.mode ∧ (scanReports s).power.mainsReturn = s.power.mainsReturn
    ∧ (scanReports s).power.quiet = s.power.quiet ∧ (scanReports s).power.dozeTimer = s.power.dozeTimer
    ∧ (scanReports s).power.restart = s.power.restart ∧ (scanReports s).power.latch = s.power.latch ∧ (scanReports s).events.evp = s.events.evp
    ∧ (scanReports s).events.slotKinds = s.events.slotKinds ∧ (scanReports s).events.refreshCount = s.events.refreshCount
    ∧ (scanReports s).events.refreshTimer = s.events.refreshTimer ∧ (scanReports s).events.pageWriting = s.events.pageWriting
    ∧ (scanReports s).events.ledMs = s.events.ledMs := by unfold scanReports; (repeat' split) <;> simp

@[simp] theorem completionIssued_frame (pos : Count) (v : Completion) (s : State) :
    (completionIssued pos v s).pending = s.pending ∧ (completionIssued pos v s).clock = s.clock ∧ (completionIssued pos v s).draws = s.draws
    ∧ (completionIssued pos v s).sram = s.sram ∧ (completionIssued pos v s).pins = s.pins ∧ (completionIssued pos v s).health = s.health
    ∧ (completionIssued pos v s).loader.phase = s.loader.phase ∧ (completionIssued pos v s).loader.flashCode = s.loader.flashCode
    ∧ (completionIssued pos v s).loader.map = s.loader.map ∧ (completionIssued pos v s).loader.linkClock = s.loader.linkClock
    ∧ (completionIssued pos v s).loader.defaultPolicy = s.loader.defaultPolicy ∧ (completionIssued pos v s).loader.policy = s.loader.policy
    ∧ (completionIssued pos v s).loader.readState = s.loader.readState ∧ (completionIssued pos v s).loader.readKind = s.loader.readKind
    ∧ (completionIssued pos v s).loader.dueAfterRestart = s.loader.dueAfterRestart
    ∧ (completionIssued pos v s).loader.firstHalf = s.loader.firstHalf ∧ (completionIssued pos v s).loader.pgenAtIssue = s.loader.pgenAtIssue
    ∧ (completionIssued pos v s).loader.softResetInForce = s.loader.softResetInForce
    ∧ (completionIssued pos v s).loader.counterClearInForce = s.loader.counterClearInForce
    ∧ (completionIssued pos v s).loader.shadowsLoaded = s.loader.shadowsLoaded ∧ (completionIssued pos v s).loader.softReset = s.loader.softReset
    ∧ (completionIssued pos v s).loader.softWait = s.loader.softWait ∧ (completionIssued pos v s).loader.softPositions = s.loader.softPositions
    ∧ (completionIssued pos v s).bus.shadows = s.bus.shadows ∧ (completionIssued pos v s).bus.txHorizon = s.bus.txHorizon
    ∧ (completionIssued pos v s).bus.rxHorizon = s.bus.rxHorizon ∧ (completionIssued pos v s).bus.fixedH = s.bus.fixedH
    ∧ (completionIssued pos v s).bus.fixedG = s.bus.fixedG ∧ (completionIssued pos v s).bus.uplinkView = s.bus.uplinkView
    ∧ (completionIssued pos v s).bus.receiveView = s.bus.receiveView ∧ (completionIssued pos v s).bus.uplinkViewValue = s.bus.uplinkViewValue
    ∧ (completionIssued pos v s).bus.receiveViewValue = s.bus.receiveViewValue ∧ (completionIssued pos v s).bus.txGuard = s.bus.txGuard
    ∧ (completionIssued pos v s).bus.rxGuard = s.bus.rxGuard ∧ (completionIssued pos v s).bus.queue = s.bus.queue
    ∧ (completionIssued pos v s).bus.waitCount = s.bus.waitCount ∧ (completionIssued pos v s).bus.gatewayData = s.bus.gatewayData
    ∧ (completionIssued pos v s).ring.base = s.ring.base ∧ (completionIssued pos v s).ring.partTxc = s.ring.partTxc
    ∧ (completionIssued pos v s).ring.readMark = s.ring.readMark ∧ (completionIssued pos v s).ring.descriptorRead = s.ring.descriptorRead
    ∧ (completionIssued pos v s).ring.fence = s.ring.fence ∧ (completionIssued pos v s).ring.overrun = s.ring.overrun
    ∧ (completionIssued pos v s).ring.txCheckDue = s.ring.txCheckDue ∧ (completionIssued pos v s).ring.scanRunning = s.ring.scanRunning
    ∧ (completionIssued pos v s).ring.scanMark = s.ring.scanMark ∧ (completionIssued pos v s).ring.scanRead = s.ring.scanRead
    ∧ (completionIssued pos v s).ring.txForcing = s.ring.txForcing ∧ (completionIssued pos v s).ring.rxForcing = s.ring.rxForcing
    ∧ (completionIssued pos v s).ring.handBackAsked = s.ring.handBackAsked ∧ (completionIssued pos v s).ring.fillCursor = s.ring.fillCursor
    ∧ (completionIssued pos v s).ring.partRxf = s.ring.partRxf ∧ (completionIssued pos v s).ring.delivery = s.ring.delivery
    ∧ (completionIssued pos v s).ring.descriptorHeld = s.ring.descriptorHeld ∧ (completionIssued pos v s).ring.rxOverrun = s.ring.rxOverrun
    ∧ (completionIssued pos v s).ring.rxCheckDue = s.ring.rxCheckDue ∧ (completionIssued pos v s).path.path = s.path.path
    ∧ (completionIssued pos v s).path.phase = s.path.phase ∧ (completionIssued pos v s).path.dwellD = s.path.dwellD
    ∧ (completionIssued pos v s).path.dwell = s.path.dwell ∧ (completionIssued pos v s).path.refallTimer = s.path.refallTimer
    ∧ (completionIssued pos v s).path.refallOpen = s.path.refallOpen ∧ (completionIssued pos v s).path.releaseTimer = s.path.releaseTimer
    ∧ (completionIssued pos v s).path.txReleased = s.path.txReleased ∧ (completionIssued pos v s).path.rxReleased = s.path.rxReleased
    ∧ (completionIssued pos v s).path.drainTimer = s.path.drainTimer ∧ (completionIssued pos v s).path.radioWanted = s.path.radioWanted
    ∧ (completionIssued pos v s).path.returnPause = s.path.returnPause ∧ (completionIssued pos v s).path.recorded = s.path.recorded
    ∧ (completionIssued pos v s).hold.cells = s.hold.cells ∧ (completionIssued pos v s).hold.sweep10 = s.hold.sweep10
    ∧ (completionIssued pos v s).hold.sweep1s = s.hold.sweep1s ∧ (completionIssued pos v s).pacer.pacing = s.pacer.pacing
    ∧ (completionIssued pos v s).pacer.refusalPause = s.pacer.refusalPause ∧ (completionIssued pos v s).pacer.grantSeen = s.pacer.grantSeen
    ∧ (completionIssued pos v s).pacer.usageBase = s.pacer.usageBase ∧ (completionIssued pos v s).pacer.carried = s.pacer.carried
    ∧ (completionIssued pos v s).pacer.allowance = s.pacer.allowance ∧ (completionIssued pos v s).pacer.downlinkCap = s.pacer.downlinkCap
    ∧ (completionIssued pos v s).radio.failures = s.radio.failures ∧ (completionIssued pos v s).radio.lastCause = s.radio.lastCause
    ∧ (completionIssued pos v s).radio.cycleTimer = s.radio.cycleTimer ∧ (completionIssued pos v s).radio.silenceTimer = s.radio.silenceTimer
    ∧ (completionIssued pos v s).radio.grantUp = s.radio.grantUp ∧ (completionIssued pos v s).radio.grantDown = s.radio.grantDown
    ∧ (completionIssued pos v s).radio.grantQuality = s.radio.grantQuality ∧ (completionIssued pos v s).radio.pauseTold = s.radio.pauseTold
    ∧ (completionIssued pos v s).radio.capTold = s.radio.capTold ∧ (completionIssued pos v s).radio.lowPowerTold = s.radio.lowPowerTold
    ∧ (completionIssued pos v s).radio.ldoLast = s.radio.ldoLast ∧ (completionIssued pos v s).radio.receiver = s.radio.receiver
    ∧ (completionIssued pos v s).power.mode = s.power.mode ∧ (completionIssued pos v s).power.mainsReturn = s.power.mainsReturn
    ∧ (completionIssued pos v s).power.quiet = s.power.quiet ∧ (completionIssued pos v s).power.dozeTimer = s.power.dozeTimer
    ∧ (completionIssued pos v s).power.restart = s.power.restart ∧ (completionIssued pos v s).power.latch = s.power.latch
    ∧ (completionIssued pos v s).events.evp = s.events.evp ∧ (completionIssued pos v s).events.slotKinds = s.events.slotKinds
    ∧ (completionIssued pos v s).events.refreshCount = s.events.refreshCount
    ∧ (completionIssued pos v s).events.refreshTimer = s.events.refreshTimer
    ∧ (completionIssued pos v s).events.pageWriting = s.events.pageWriting ∧ (completionIssued pos v s).events.pageWanted = s.events.pageWanted
    ∧ (completionIssued pos v s).events.ledMs = s.events.ledMs := by unfold completionIssued; (repeat' split) <;> simp

@[simp] theorem handBackSoft_frame (s : State) :
    (handBackSoft s).pending = s.pending ∧ (handBackSoft s).clock = s.clock ∧ (handBackSoft s).draws = s.draws ∧ (handBackSoft s).sram = s.sram
    ∧ (handBackSoft s).pins = s.pins ∧ (handBackSoft s).loader.phase = s.loader.phase ∧ (handBackSoft s).loader.flashCode = s.loader.flashCode
    ∧ (handBackSoft s).loader.map = s.loader.map ∧ (handBackSoft s).loader.linkClock = s.loader.linkClock
    ∧ (handBackSoft s).loader.defaultPolicy = s.loader.defaultPolicy ∧ (handBackSoft s).loader.policy = s.loader.policy
    ∧ (handBackSoft s).loader.firstHalf = s.loader.firstHalf ∧ (handBackSoft s).loader.pgenAtIssue = s.loader.pgenAtIssue
    ∧ (handBackSoft s).loader.softResetInForce = s.loader.softResetInForce
    ∧ (handBackSoft s).loader.counterClearInForce = s.loader.counterClearInForce ∧ (handBackSoft s).loader.shadowsLoaded = s.loader.shadowsLoaded
    ∧ (handBackSoft s).bus.shadows = s.bus.shadows ∧ (handBackSoft s).bus.fixedH = s.bus.fixedH ∧ (handBackSoft s).bus.fixedG = s.bus.fixedG
    ∧ (handBackSoft s).bus.queue = s.bus.queue ∧ (handBackSoft s).bus.waitCount = s.bus.waitCount
    ∧ (handBackSoft s).bus.gatewayData = s.bus.gatewayData ∧ (handBackSoft s).ring.fillCursor = s.ring.fillCursor
    ∧ (handBackSoft s).path.dwellD = s.path.dwellD ∧ (handBackSoft s).path.refallTimer = s.path.refallTimer
    ∧ (handBackSoft s).path.refallOpen = s.path.refallOpen ∧ (handBackSoft s).path.recorded = s.path.recorded
    ∧ (handBackSoft s).hold.cells = s.hold.cells ∧ (handBackSoft s).pacer.usageBase = s.pacer.usageBase
    ∧ (handBackSoft s).pacer.carried = s.pacer.carried ∧ (handBackSoft s).pacer.allowance = s.pacer.allowance
    ∧ (handBackSoft s).pacer.downlinkCap = s.pacer.downlinkCap ∧ (handBackSoft s).radio.pauseTold = s.radio.pauseTold
    ∧ (handBackSoft s).radio.capTold = s.radio.capTold ∧ (handBackSoft s).radio.lowPowerTold = s.radio.lowPowerTold
    ∧ (handBackSoft s).radio.ldoLast = s.radio.ldoLast ∧ (handBackSoft s).power.mode = s.power.mode ∧ (handBackSoft s).power.step = s.power.step
    ∧ (handBackSoft s).power.mainsReturn = s.power.mainsReturn ∧ (handBackSoft s).power.dozeTimer = s.power.dozeTimer
    ∧ (handBackSoft s).power.restart = s.power.restart ∧ (handBackSoft s).events.evp = s.events.evp
    ∧ (handBackSoft s).events.slotKinds = s.events.slotKinds ∧ (handBackSoft s).events.refreshCount = s.events.refreshCount
    ∧ (handBackSoft s).events.refreshTimer = s.events.refreshTimer ∧ (handBackSoft s).events.pageWriting = s.events.pageWriting
    ∧ (handBackSoft s).events.ledMs = s.events.ledMs := by unfold handBackSoft; (repeat' split) <;> simp

@[simp] theorem backoffExpires_frame (s : State) :
    (backoffExpires s).pending = s.pending ∧ (backoffExpires s).clock = s.clock ∧ (backoffExpires s).draws = s.draws
    ∧ (backoffExpires s).sram = s.sram ∧ (backoffExpires s).pins = s.pins ∧ (backoffExpires s).health = s.health
    ∧ (backoffExpires s).pacer = s.pacer ∧ (backoffExpires s).power = s.power ∧ (backoffExpires s).loader.phase = s.loader.phase
    ∧ (backoffExpires s).loader.flashCode = s.loader.flashCode ∧ (backoffExpires s).loader.map = s.loader.map
    ∧ (backoffExpires s).loader.linkClock = s.loader.linkClock ∧ (backoffExpires s).loader.defaultPolicy = s.loader.defaultPolicy
    ∧ (backoffExpires s).loader.policy = s.loader.policy ∧ (backoffExpires s).loader.readState = s.loader.readState
    ∧ (backoffExpires s).loader.readKind = s.loader.readKind ∧ (backoffExpires s).loader.dueAfterRestart = s.loader.dueAfterRestart
    ∧ (backoffExpires s).loader.firstHalf = s.loader.firstHalf ∧ (backoffExpires s).loader.pgenAtIssue = s.loader.pgenAtIssue
    ∧ (backoffExpires s).loader.softResetInForce = s.loader.softResetInForce
    ∧ (backoffExpires s).loader.counterClearInForce = s.loader.counterClearInForce
    ∧ (backoffExpires s).loader.shadowsLoaded = s.loader.shadowsLoaded ∧ (backoffExpires s).loader.softReset = s.loader.softReset
    ∧ (backoffExpires s).loader.softWait = s.loader.softWait ∧ (backoffExpires s).loader.softPositions = s.loader.softPositions
    ∧ (backoffExpires s).bus.shadows = s.bus.shadows ∧ (backoffExpires s).bus.txHorizon = s.bus.txHorizon
    ∧ (backoffExpires s).bus.rxHorizon = s.bus.rxHorizon ∧ (backoffExpires s).bus.fixedH = s.bus.fixedH
    ∧ (backoffExpires s).bus.fixedG = s.bus.fixedG ∧ (backoffExpires s).bus.uplinkView = s.bus.uplinkView
    ∧ (backoffExpires s).bus.receiveView = s.bus.receiveView ∧ (backoffExpires s).bus.uplinkViewValue = s.bus.uplinkViewValue
    ∧ (backoffExpires s).bus.receiveViewValue = s.bus.receiveViewValue ∧ (backoffExpires s).bus.txGuard = s.bus.txGuard
    ∧ (backoffExpires s).bus.rxGuard = s.bus.rxGuard ∧ (backoffExpires s).bus.queue = s.bus.queue
    ∧ (backoffExpires s).bus.waitCount = s.bus.waitCount ∧ (backoffExpires s).bus.gatewayData = s.bus.gatewayData
    ∧ (backoffExpires s).ring.base = s.ring.base ∧ (backoffExpires s).ring.partTxc = s.ring.partTxc
    ∧ (backoffExpires s).ring.readMark = s.ring.readMark ∧ (backoffExpires s).ring.descriptorRead = s.ring.descriptorRead
    ∧ (backoffExpires s).ring.fence = s.ring.fence ∧ (backoffExpires s).ring.overrun = s.ring.overrun
    ∧ (backoffExpires s).ring.txCheckDue = s.ring.txCheckDue ∧ (backoffExpires s).ring.scanRunning = s.ring.scanRunning
    ∧ (backoffExpires s).ring.scanMark = s.ring.scanMark ∧ (backoffExpires s).ring.scanRead = s.ring.scanRead
    ∧ (backoffExpires s).ring.txForcing = s.ring.txForcing ∧ (backoffExpires s).ring.rxForcing = s.ring.rxForcing
    ∧ (backoffExpires s).ring.handBackAsked = s.ring.handBackAsked ∧ (backoffExpires s).ring.fillCursor = s.ring.fillCursor
    ∧ (backoffExpires s).ring.partRxf = s.ring.partRxf ∧ (backoffExpires s).ring.delivery = s.ring.delivery
    ∧ (backoffExpires s).ring.descriptorHeld = s.ring.descriptorHeld ∧ (backoffExpires s).ring.rxOverrun = s.ring.rxOverrun
    ∧ (backoffExpires s).ring.rxCheckDue = s.ring.rxCheckDue ∧ (backoffExpires s).path.path = s.path.path
    ∧ (backoffExpires s).path.phase = s.path.phase ∧ (backoffExpires s).path.dwellD = s.path.dwellD
    ∧ (backoffExpires s).path.dwell = s.path.dwell ∧ (backoffExpires s).path.refallTimer = s.path.refallTimer
    ∧ (backoffExpires s).path.refallOpen = s.path.refallOpen ∧ (backoffExpires s).path.releaseTimer = s.path.releaseTimer
    ∧ (backoffExpires s).path.txReleased = s.path.txReleased ∧ (backoffExpires s).path.rxReleased = s.path.rxReleased
    ∧ (backoffExpires s).path.drainTimer = s.path.drainTimer ∧ (backoffExpires s).path.radioWanted = s.path.radioWanted
    ∧ (backoffExpires s).path.returnPause = s.path.returnPause ∧ (backoffExpires s).path.recorded = s.path.recorded
    ∧ (backoffExpires s).hold.cells = s.hold.cells ∧ (backoffExpires s).hold.uqE = s.hold.uqE ∧ (backoffExpires s).hold.uqV = s.hold.uqV
    ∧ (backoffExpires s).hold.uqD = s.hold.uqD ∧ (backoffExpires s).hold.dqV = s.hold.dqV ∧ (backoffExpires s).hold.dqD = s.hold.dqD
    ∧ (backoffExpires s).hold.sweep10 = s.hold.sweep10 ∧ (backoffExpires s).hold.sweep1s = s.hold.sweep1s
    ∧ (backoffExpires s).radio.failures = s.radio.failures ∧ (backoffExpires s).radio.lastCause = s.radio.lastCause
    ∧ (backoffExpires s).radio.silenceTimer = s.radio.silenceTimer ∧ (backoffExpires s).radio.grantUp = s.radio.grantUp
    ∧ (backoffExpires s).radio.grantDown = s.radio.grantDown ∧ (backoffExpires s).radio.grantQuality = s.radio.grantQuality
    ∧ (backoffExpires s).radio.slotA = s.radio.slotA ∧ (backoffExpires s).radio.slotB = s.radio.slotB
    ∧ (backoffExpires s).radio.unsent = s.radio.unsent ∧ (backoffExpires s).radio.pauseTold = s.radio.pauseTold
    ∧ (backoffExpires s).radio.capTold = s.radio.capTold ∧ (backoffExpires s).radio.lowPowerTold = s.radio.lowPowerTold
    ∧ (backoffExpires s).radio.ldoLast = s.radio.ldoLast ∧ (backoffExpires s).events.evp = s.events.evp
    ∧ (backoffExpires s).events.slotKinds = s.events.slotKinds ∧ (backoffExpires s).events.refreshCount = s.events.refreshCount
    ∧ (backoffExpires s).events.refreshTimer = s.events.refreshTimer ∧ (backoffExpires s).events.pageWriting = s.events.pageWriting
    ∧ (backoffExpires s).events.pageWanted = s.events.pageWanted ∧ (backoffExpires s).events.ledMs = s.events.ledMs := by unfold backoffExpires; (repeat' split) <;> simp

@[simp] theorem verdictReport_frame (s : State) :
    (verdictReport s).pending = s.pending ∧ (verdictReport s).clock = s.clock ∧ (verdictReport s).draws = s.draws
    ∧ (verdictReport s).sram = s.sram ∧ (verdictReport s).pins = s.pins ∧ (verdictReport s).pacer = s.pacer
    ∧ (verdictReport s).loader.phase = s.loader.phase ∧ (verdictReport s).loader.flashCode = s.loader.flashCode
    ∧ (verdictReport s).loader.map = s.loader.map ∧ (verdictReport s).loader.linkClock = s.loader.linkClock
    ∧ (verdictReport s).loader.defaultPolicy = s.loader.defaultPolicy ∧ (verdictReport s).loader.policy = s.loader.policy
    ∧ (verdictReport s).loader.readState = s.loader.readState ∧ (verdictReport s).loader.readKind = s.loader.readKind
    ∧ (verdictReport s).loader.dueAfterRestart = s.loader.dueAfterRestart ∧ (verdictReport s).loader.firstHalf = s.loader.firstHalf
    ∧ (verdictReport s).loader.pgenAtIssue = s.loader.pgenAtIssue ∧ (verdictReport s).loader.softResetInForce = s.loader.softResetInForce
    ∧ (verdictReport s).loader.counterClearInForce = s.loader.counterClearInForce
    ∧ (verdictReport s).loader.shadowsLoaded = s.loader.shadowsLoaded ∧ (verdictReport s).loader.softReset = s.loader.softReset
    ∧ (verdictReport s).loader.softWait = s.loader.softWait ∧ (verdictReport s).loader.softPositions = s.loader.softPositions
    ∧ (verdictReport s).bus.shadows = s.bus.shadows ∧ (verdictReport s).bus.txHorizon = s.bus.txHorizon
    ∧ (verdictReport s).bus.rxHorizon = s.bus.rxHorizon ∧ (verdictReport s).bus.queue = s.bus.queue
    ∧ (verdictReport s).bus.waitCount = s.bus.waitCount ∧ (verdictReport s).bus.gatewayData = s.bus.gatewayData
    ∧ (verdictReport s).ring.delivery = s.ring.delivery ∧ (verdictReport s).ring.descriptorHeld = s.ring.descriptorHeld
    ∧ (verdictReport s).health.sig = s.health.sig ∧ (verdictReport s).health.txp = s.health.txp ∧ (verdictReport s).health.rxa = s.health.rxa
    ∧ (verdictReport s).health.txe = s.health.txe ∧ (verdictReport s).health.verdict = s.health.verdict
    ∧ (verdictReport s).health.txReference = s.health.txReference ∧ (verdictReport s).health.activityMark = s.health.activityMark
    ∧ (verdictReport s).health.timer100 = s.health.timer100 ∧ (verdictReport s).path.refallTimer = s.path.refallTimer
    ∧ (verdictReport s).path.refallOpen = s.path.refallOpen ∧ (verdictReport s).path.recorded = s.path.recorded
    ∧ (verdictReport s).hold.cells = s.hold.cells ∧ (verdictReport s).hold.uqE = s.hold.uqE ∧ (verdictReport s).hold.uqV = s.hold.uqV
    ∧ (verdictReport s).hold.uqD = s.hold.uqD ∧ (verdictReport s).hold.dqV = s.hold.dqV ∧ (verdictReport s).hold.dqD = s.hold.dqD
    ∧ (verdictReport s).hold.sweep10 = s.hold.sweep10 ∧ (verdictReport s).hold.sweep1s = s.hold.sweep1s
    ∧ (verdictReport s).radio.failures = s.radio.failures ∧ (verdictReport s).radio.lastCause = s.radio.lastCause
    ∧ (verdictReport s).radio.silenceTimer = s.radio.silenceTimer ∧ (verdictReport s).radio.grantUp = s.radio.grantUp
    ∧ (verdictReport s).radio.grantDown = s.radio.grantDown ∧ (verdictReport s).radio.grantQuality = s.radio.grantQuality
    ∧ (verdictReport s).radio.slotA = s.radio.slotA ∧ (verdictReport s).radio.slotB = s.radio.slotB
    ∧ (verdictReport s).radio.unsent = s.radio.unsent ∧ (verdictReport s).radio.pauseTold = s.radio.pauseTold
    ∧ (verdictReport s).radio.capTold = s.radio.capTold ∧ (verdictReport s).radio.lowPowerTold = s.radio.lowPowerTold
    ∧ (verdictReport s).radio.ldoLast = s.radio.ldoLast ∧ (verdictReport s).power.mode = s.power.mode
    ∧ (verdictReport s).power.mainsReturn = s.power.mainsReturn ∧ (verdictReport s).power.quiet = s.power.quiet
    ∧ (verdictReport s).power.dozeTimer = s.power.dozeTimer ∧ (verdictReport s).power.restart = s.power.restart
    ∧ (verdictReport s).power.latch = s.power.latch ∧ (verdictReport s).events.evp = s.events.evp
    ∧ (verdictReport s).events.slotKinds = s.events.slotKinds ∧ (verdictReport s).events.refreshCount = s.events.refreshCount
    ∧ (verdictReport s).events.refreshTimer = s.events.refreshTimer ∧ (verdictReport s).events.pageWriting = s.events.pageWriting
    ∧ (verdictReport s).events.ledMs = s.events.ledMs := by simp only [verdictReport]; (repeat' split) <;> simp

@[simp] theorem overrideChanged_frame (s : State) :
    (overrideChanged s).pending = s.pending ∧ (overrideChanged s).clock = s.clock ∧ (overrideChanged s).draws = s.draws
    ∧ (overrideChanged s).sram = s.sram ∧ (overrideChanged s).pins = s.pins ∧ (overrideChanged s).pacer = s.pacer
    ∧ (overrideChanged s).loader.phase = s.loader.phase ∧ (overrideChanged s).loader.flashCode = s.loader.flashCode
    ∧ (overrideChanged s).loader.map = s.loader.map ∧ (overrideChanged s).loader.linkClock = s.loader.linkClock
    ∧ (overrideChanged s).loader.defaultPolicy = s.loader.defaultPolicy ∧ (overrideChanged s).loader.policy = s.loader.policy
    ∧ (overrideChanged s).loader.readState = s.loader.readState ∧ (overrideChanged s).loader.readKind = s.loader.readKind
    ∧ (overrideChanged s).loader.dueAfterRestart = s.loader.dueAfterRestart ∧ (overrideChanged s).loader.firstHalf = s.loader.firstHalf
    ∧ (overrideChanged s).loader.pgenAtIssue = s.loader.pgenAtIssue ∧ (overrideChanged s).loader.softResetInForce = s.loader.softResetInForce
    ∧ (overrideChanged s).loader.counterClearInForce = s.loader.counterClearInForce
    ∧ (overrideChanged s).loader.shadowsLoaded = s.loader.shadowsLoaded ∧ (overrideChanged s).loader.softReset = s.loader.softReset
    ∧ (overrideChanged s).loader.softWait = s.loader.softWait ∧ (overrideChanged s).loader.softPositions = s.loader.softPositions
    ∧ (overrideChanged s).bus.shadows = s.bus.shadows ∧ (overrideChanged s).bus.txHorizon = s.bus.txHorizon
    ∧ (overrideChanged s).bus.rxHorizon = s.bus.rxHorizon ∧ (overrideChanged s).bus.queue = s.bus.queue
    ∧ (overrideChanged s).bus.waitCount = s.bus.waitCount ∧ (overrideChanged s).bus.gatewayData = s.bus.gatewayData
    ∧ (overrideChanged s).ring.delivery = s.ring.delivery ∧ (overrideChanged s).ring.descriptorHeld = s.ring.descriptorHeld
    ∧ (overrideChanged s).health.sig = s.health.sig ∧ (overrideChanged s).health.txp = s.health.txp
    ∧ (overrideChanged s).health.rxa = s.health.rxa ∧ (overrideChanged s).health.txe = s.health.txe
    ∧ (overrideChanged s).health.verdict = s.health.verdict ∧ (overrideChanged s).health.txReference = s.health.txReference
    ∧ (overrideChanged s).health.activityMark = s.health.activityMark ∧ (overrideChanged s).health.timer100 = s.health.timer100
    ∧ (overrideChanged s).path.refallTimer = s.path.refallTimer ∧ (overrideChanged s).path.refallOpen = s.path.refallOpen
    ∧ (overrideChanged s).path.recorded = s.path.recorded ∧ (overrideChanged s).hold.cells = s.hold.cells
    ∧ (overrideChanged s).hold.uqE = s.hold.uqE ∧ (overrideChanged s).hold.uqV = s.hold.uqV ∧ (overrideChanged s).hold.uqD = s.hold.uqD
    ∧ (overrideChanged s).hold.dqV = s.hold.dqV ∧ (overrideChanged s).hold.dqD = s.hold.dqD ∧ (overrideChanged s).hold.sweep10 = s.hold.sweep10
    ∧ (overrideChanged s).hold.sweep1s = s.hold.sweep1s ∧ (overrideChanged s).radio.failures = s.radio.failures
    ∧ (overrideChanged s).radio.lastCause = s.radio.lastCause ∧ (overrideChanged s).radio.silenceTimer = s.radio.silenceTimer
    ∧ (overrideChanged s).radio.grantUp = s.radio.grantUp ∧ (overrideChanged s).radio.grantDown = s.radio.grantDown
    ∧ (overrideChanged s).radio.grantQuality = s.radio.grantQuality ∧ (overrideChanged s).radio.slotA = s.radio.slotA
    ∧ (overrideChanged s).radio.slotB = s.radio.slotB ∧ (overrideChanged s).radio.unsent = s.radio.unsent
    ∧ (overrideChanged s).radio.pauseTold = s.radio.pauseTold ∧ (overrideChanged s).radio.capTold = s.radio.capTold
    ∧ (overrideChanged s).radio.lowPowerTold = s.radio.lowPowerTold ∧ (overrideChanged s).radio.ldoLast = s.radio.ldoLast
    ∧ (overrideChanged s).power.mode = s.power.mode ∧ (overrideChanged s).power.mainsReturn = s.power.mainsReturn
    ∧ (overrideChanged s).power.quiet = s.power.quiet ∧ (overrideChanged s).power.dozeTimer = s.power.dozeTimer
    ∧ (overrideChanged s).power.restart = s.power.restart ∧ (overrideChanged s).power.latch = s.power.latch
    ∧ (overrideChanged s).events.evp = s.events.evp ∧ (overrideChanged s).events.slotKinds = s.events.slotKinds
    ∧ (overrideChanged s).events.refreshCount = s.events.refreshCount ∧ (overrideChanged s).events.refreshTimer = s.events.refreshTimer
    ∧ (overrideChanged s).events.pageWriting = s.events.pageWriting ∧ (overrideChanged s).events.ledMs = s.events.ledMs := by unfold overrideChanged; (repeat' split) <;> simp

@[simp] theorem handBackReturn_frame (s : State) :
    (handBackReturn s).pending = s.pending ∧ (handBackReturn s).clock = s.clock ∧ (handBackReturn s).draws = s.draws
    ∧ (handBackReturn s).sram = s.sram ∧ (handBackReturn s).pins = s.pins ∧ (handBackReturn s).pacer = s.pacer
    ∧ (handBackReturn s).loader.phase = s.loader.phase ∧ (handBackReturn s).loader.flashCode = s.loader.flashCode
    ∧ (handBackReturn s).loader.map = s.loader.map ∧ (handBackReturn s).loader.linkClock = s.loader.linkClock
    ∧ (handBackReturn s).loader.defaultPolicy = s.loader.defaultPolicy ∧ (handBackReturn s).loader.policy = s.loader.policy
    ∧ (handBackReturn s).loader.readState = s.loader.readState ∧ (handBackReturn s).loader.readKind = s.loader.readKind
    ∧ (handBackReturn s).loader.dueAfterRestart = s.loader.dueAfterRestart ∧ (handBackReturn s).loader.firstHalf = s.loader.firstHalf
    ∧ (handBackReturn s).loader.pgenAtIssue = s.loader.pgenAtIssue ∧ (handBackReturn s).loader.softResetInForce = s.loader.softResetInForce
    ∧ (handBackReturn s).loader.counterClearInForce = s.loader.counterClearInForce
    ∧ (handBackReturn s).loader.shadowsLoaded = s.loader.shadowsLoaded ∧ (handBackReturn s).loader.softReset = s.loader.softReset
    ∧ (handBackReturn s).loader.softWait = s.loader.softWait ∧ (handBackReturn s).loader.softPositions = s.loader.softPositions
    ∧ (handBackReturn s).bus.shadows = s.bus.shadows ∧ (handBackReturn s).bus.queue = s.bus.queue
    ∧ (handBackReturn s).bus.waitCount = s.bus.waitCount ∧ (handBackReturn s).bus.gatewayData = s.bus.gatewayData
    ∧ (handBackReturn s).ring.delivery = s.ring.delivery ∧ (handBackReturn s).health.sig = s.health.sig
    ∧ (handBackReturn s).health.verdict = s.health.verdict ∧ (handBackReturn s).health.timer100 = s.health.timer100
    ∧ (handBackReturn s).path.recorded = s.path.recorded ∧ (handBackReturn s).hold.cells = s.hold.cells
    ∧ (handBackReturn s).hold.uqE = s.hold.uqE ∧ (handBackReturn s).hold.uqV = s.hold.uqV ∧ (handBackReturn s).hold.uqD = s.hold.uqD
    ∧ (handBackReturn s).hold.dqV = s.hold.dqV ∧ (handBackReturn s).hold.dqD = s.hold.dqD ∧ (handBackReturn s).hold.sweep10 = s.hold.sweep10
    ∧ (handBackReturn s).hold.sweep1s = s.hold.sweep1s ∧ (handBackReturn s).radio.failures = s.radio.failures
    ∧ (handBackReturn s).radio.lastCause = s.radio.lastCause ∧ (handBackReturn s).radio.silenceTimer = s.radio.silenceTimer
    ∧ (handBackReturn s).radio.grantUp = s.radio.grantUp ∧ (handBackReturn s).radio.grantDown = s.radio.grantDown
    ∧ (handBackReturn s).radio.grantQuality = s.radio.grantQuality ∧ (handBackReturn s).radio.slotA = s.radio.slotA
    ∧ (handBackReturn s).radio.slotB = s.radio.slotB ∧ (handBackReturn s).radio.unsent = s.radio.unsent
    ∧ (handBackReturn s).radio.pauseTold = s.radio.pauseTold ∧ (handBackReturn s).radio.capTold = s.radio.capTold
    ∧ (handBackReturn s).radio.lowPowerTold = s.radio.lowPowerTold ∧ (handBackReturn s).radio.ldoLast = s.radio.ldoLast
    ∧ (handBackReturn s).power.mode = s.power.mode ∧ (handBackReturn s).power.mainsReturn = s.power.mainsReturn
    ∧ (handBackReturn s).power.quiet = s.power.quiet ∧ (handBackReturn s).power.dozeTimer = s.power.dozeTimer
    ∧ (handBackReturn s).power.restart = s.power.restart ∧ (handBackReturn s).power.latch = s.power.latch
    ∧ (handBackReturn s).events.evp = s.events.evp ∧ (handBackReturn s).events.slotKinds = s.events.slotKinds
    ∧ (handBackReturn s).events.refreshCount = s.events.refreshCount ∧ (handBackReturn s).events.refreshTimer = s.events.refreshTimer
    ∧ (handBackReturn s).events.pageWriting = s.events.pageWriting ∧ (handBackReturn s).events.ledMs = s.events.ledMs := by simp [handBackReturn]

@[simp] theorem onIssue_frame (p : Purpose) (s : State) :
    (onIssue p s).pending = s.pending ∧ (onIssue p s).clock = s.clock ∧ (onIssue p s).draws = s.draws ∧ (onIssue p s).sram = s.sram
    ∧ (onIssue p s).pins = s.pins ∧ (onIssue p s).health = s.health ∧ (onIssue p s).loader.phase = s.loader.phase
    ∧ (onIssue p s).loader.flashCode = s.loader.flashCode ∧ (onIssue p s).loader.map = s.loader.map
    ∧ (onIssue p s).loader.linkClock = s.loader.linkClock ∧ (onIssue p s).loader.defaultPolicy = s.loader.defaultPolicy
    ∧ (onIssue p s).loader.policy = s.loader.policy ∧ (onIssue p s).loader.readState = s.loader.readState
    ∧ (onIssue p s).loader.readKind = s.loader.readKind ∧ (onIssue p s).loader.dueAfterRestart = s.loader.dueAfterRestart
    ∧ (onIssue p s).loader.firstHalf = s.loader.firstHalf ∧ (onIssue p s).loader.softResetInForce = s.loader.softResetInForce
    ∧ (onIssue p s).loader.counterClearInForce = s.loader.counterClearInForce ∧ (onIssue p s).loader.shadowsLoaded = s.loader.shadowsLoaded
    ∧ (onIssue p s).loader.softReset = s.loader.softReset ∧ (onIssue p s).loader.softWait = s.loader.softWait
    ∧ (onIssue p s).loader.softPositions = s.loader.softPositions ∧ (onIssue p s).bus.shadows = s.bus.shadows
    ∧ (onIssue p s).bus.txHorizon = s.bus.txHorizon ∧ (onIssue p s).bus.rxHorizon = s.bus.rxHorizon ∧ (onIssue p s).bus.fixedH = s.bus.fixedH
    ∧ (onIssue p s).bus.fixedG = s.bus.fixedG ∧ (onIssue p s).bus.txGuard = s.bus.txGuard ∧ (onIssue p s).bus.rxGuard = s.bus.rxGuard
    ∧ (onIssue p s).bus.queue = s.bus.queue ∧ (onIssue p s).bus.waitCount = s.bus.waitCount ∧ (onIssue p s).bus.gatewayData = s.bus.gatewayData
    ∧ (onIssue p s).ring.readMark = s.ring.readMark ∧ (onIssue p s).ring.fence = s.ring.fence
    ∧ (onIssue p s).ring.scanRunning = s.ring.scanRunning ∧ (onIssue p s).ring.scanMark = s.ring.scanMark
    ∧ (onIssue p s).ring.scanRead = s.ring.scanRead ∧ (onIssue p s).ring.handBackAsked = s.ring.handBackAsked
    ∧ (onIssue p s).ring.descriptorHeld = s.ring.descriptorHeld ∧ (onIssue p s).path.path = s.path.path ∧ (onIssue p s).path.phase = s.path.phase
    ∧ (onIssue p s).path.dwellD = s.path.dwellD ∧ (onIssue p s).path.dwell = s.path.dwell ∧ (onIssue p s).path.refallTimer = s.path.refallTimer
    ∧ (onIssue p s).path.refallOpen = s.path.refallOpen ∧ (onIssue p s).path.drainTimer = s.path.drainTimer
    ∧ (onIssue p s).path.radioWanted = s.path.radioWanted ∧ (onIssue p s).path.returnPause = s.path.returnPause
    ∧ (onIssue p s).path.recorded = s.path.recorded ∧ (onIssue p s).hold.cells = s.hold.cells ∧ (onIssue p s).hold.sweep10 = s.hold.sweep10
    ∧ (onIssue p s).hold.sweep1s = s.hold.sweep1s ∧ (onIssue p s).pacer.pacing = s.pacer.pacing
    ∧ (onIssue p s).pacer.refusalPause = s.pacer.refusalPause ∧ (onIssue p s).pacer.grantSeen = s.pacer.grantSeen
    ∧ (onIssue p s).pacer.usageBase = s.pacer.usageBase ∧ (onIssue p s).pacer.carried = s.pacer.carried
    ∧ (onIssue p s).pacer.allowance = s.pacer.allowance ∧ (onIssue p s).pacer.downlinkCap = s.pacer.downlinkCap
    ∧ (onIssue p s).radio.failures = s.radio.failures ∧ (onIssue p s).radio.lastCause = s.radio.lastCause
    ∧ (onIssue p s).radio.cycleTimer = s.radio.cycleTimer ∧ (onIssue p s).radio.silenceTimer = s.radio.silenceTimer
    ∧ (onIssue p s).radio.grantUp = s.radio.grantUp ∧ (onIssue p s).radio.grantDown = s.radio.grantDown
    ∧ (onIssue p s).radio.grantQuality = s.radio.grantQuality ∧ (onIssue p s).radio.pauseTold = s.radio.pauseTold
    ∧ (onIssue p s).radio.capTold = s.radio.capTold ∧ (onIssue p s).radio.lowPowerTold = s.radio.lowPowerTold
    ∧ (onIssue p s).radio.ldoLast = s.radio.ldoLast ∧ (onIssue p s).radio.receiver = s.radio.receiver ∧ (onIssue p s).power.mode = s.power.mode
    ∧ (onIssue p s).power.mainsReturn = s.power.mainsReturn ∧ (onIssue p s).power.quiet = s.power.quiet
    ∧ (onIssue p s).power.dozeTimer = s.power.dozeTimer ∧ (onIssue p s).power.restart = s.power.restart
    ∧ (onIssue p s).power.latch = s.power.latch ∧ (onIssue p s).events.refreshCount = s.events.refreshCount
    ∧ (onIssue p s).events.refreshTimer = s.events.refreshTimer ∧ (onIssue p s).events.pageWriting = s.events.pageWriting
    ∧ (onIssue p s).events.pageWanted = s.events.pageWanted ∧ (onIssue p s).events.ledMs = s.events.ledMs := by unfold onIssue; (repeat' split) <;> simp

@[simp] theorem afterApplication_frame (kind : ReadKind) (soft : Bool) (s : State) :
    (afterApplication kind soft s).pending = s.pending ∧ (afterApplication kind soft s).clock = s.clock
    ∧ (afterApplication kind soft s).draws = s.draws ∧ (afterApplication kind soft s).sram = s.sram
    ∧ (afterApplication kind soft s).pins = s.pins ∧ (afterApplication kind soft s).loader.phase = s.loader.phase
    ∧ (afterApplication kind soft s).loader.flashCode = s.loader.flashCode ∧ (afterApplication kind soft s).loader.map = s.loader.map
    ∧ (afterApplication kind soft s).loader.linkClock = s.loader.linkClock
    ∧ (afterApplication kind soft s).loader.defaultPolicy = s.loader.defaultPolicy
    ∧ (afterApplication kind soft s).loader.policy = s.loader.policy ∧ (afterApplication kind soft s).loader.firstHalf = s.loader.firstHalf
    ∧ (afterApplication kind soft s).loader.pgenAtIssue = s.loader.pgenAtIssue
    ∧ (afterApplication kind soft s).loader.softResetInForce = s.loader.softResetInForce
    ∧ (afterApplication kind soft s).loader.counterClearInForce = s.loader.counterClearInForce
    ∧ (afterApplication kind soft s).loader.shadowsLoaded = s.loader.shadowsLoaded ∧ (afterApplication kind soft s).bus.shadows = s.bus.shadows
    ∧ (afterApplication kind soft s).bus.txHorizon = s.bus.txHorizon ∧ (afterApplication kind soft s).bus.rxHorizon = s.bus.rxHorizon
    ∧ (afterApplication kind soft s).bus.queue = s.bus.queue ∧ (afterApplication kind soft s).bus.waitCount = s.bus.waitCount
    ∧ (afterApplication kind soft s).bus.gatewayData = s.bus.gatewayData ∧ (afterApplication kind soft s).path.refallTimer = s.path.refallTimer
    ∧ (afterApplication kind soft s).path.refallOpen = s.path.refallOpen ∧ (afterApplication kind soft s).path.recorded = s.path.recorded
    ∧ (afterApplication kind soft s).hold.cells = s.hold.cells ∧ (afterApplication kind soft s).radio.pauseTold = s.radio.pauseTold
    ∧ (afterApplication kind soft s).radio.capTold = s.radio.capTold ∧ (afterApplication kind soft s).radio.lowPowerTold = s.radio.lowPowerTold
    ∧ (afterApplication kind soft s).radio.ldoLast = s.radio.ldoLast ∧ (afterApplication kind soft s).power.mode = s.power.mode
    ∧ (afterApplication kind soft s).power.mainsReturn = s.power.mainsReturn ∧ (afterApplication kind soft s).power.dozeTimer = s.power.dozeTimer
    ∧ (afterApplication kind soft s).power.restart = s.power.restart ∧ (afterApplication kind soft s).events.evp = s.events.evp
    ∧ (afterApplication kind soft s).events.slotKinds = s.events.slotKinds
    ∧ (afterApplication kind soft s).events.refreshCount = s.events.refreshCount
    ∧ (afterApplication kind soft s).events.refreshTimer = s.events.refreshTimer
    ∧ (afterApplication kind soft s).events.pageWriting = s.events.pageWriting ∧ (afterApplication kind soft s).events.ledMs = s.events.ledMs := by simp only [afterApplication]; (repeat' split) <;> simp

@[simp] theorem shadowsCarried_frame (s : State) :
    (shadowsCarried s).pending = s.pending ∧ (shadowsCarried s).clock = s.clock ∧ (shadowsCarried s).draws = s.draws
    ∧ (shadowsCarried s).sram = s.sram ∧ (shadowsCarried s).pins = s.pins ∧ (shadowsCarried s).loader.phase = s.loader.phase
    ∧ (shadowsCarried s).loader.flashCode = s.loader.flashCode ∧ (shadowsCarried s).loader.map = s.loader.map
    ∧ (shadowsCarried s).loader.linkClock = s.loader.linkClock ∧ (shadowsCarried s).loader.defaultPolicy = s.loader.defaultPolicy
    ∧ (shadowsCarried s).loader.policy = s.loader.policy ∧ (shadowsCarried s).loader.firstHalf = s.loader.firstHalf
    ∧ (shadowsCarried s).loader.pgenAtIssue = s.loader.pgenAtIssue ∧ (shadowsCarried s).loader.softResetInForce = s.loader.softResetInForce
    ∧ (shadowsCarried s).loader.counterClearInForce = s.loader.counterClearInForce ∧ (shadowsCarried s).loader.softReset = s.loader.softReset
    ∧ (shadowsCarried s).loader.softWait = s.loader.softWait ∧ (shadowsCarried s).loader.softPositions = s.loader.softPositions
    ∧ (shadowsCarried s).bus.shadows = s.bus.shadows ∧ (shadowsCarried s).bus.txHorizon = s.bus.txHorizon
    ∧ (shadowsCarried s).bus.rxHorizon = s.bus.rxHorizon ∧ (shadowsCarried s).bus.queue = s.bus.queue
    ∧ (shadowsCarried s).bus.waitCount = s.bus.waitCount ∧ (shadowsCarried s).bus.gatewayData = s.bus.gatewayData
    ∧ (shadowsCarried s).ring.delivery = s.ring.delivery ∧ (shadowsCarried s).ring.descriptorHeld = s.ring.descriptorHeld
    ∧ (shadowsCarried s).health.sig = s.health.sig ∧ (shadowsCarried s).health.txp = s.health.txp ∧ (shadowsCarried s).health.rxa = s.health.rxa
    ∧ (shadowsCarried s).health.txe = s.health.txe ∧ (shadowsCarried s).health.verdict = s.health.verdict
    ∧ (shadowsCarried s).health.activityMark = s.health.activityMark ∧ (shadowsCarried s).health.timer100 = s.health.timer100
    ∧ (shadowsCarried s).path.refallTimer = s.path.refallTimer ∧ (shadowsCarried s).path.refallOpen = s.path.refallOpen
    ∧ (shadowsCarried s).path.recorded = s.path.recorded ∧ (shadowsCarried s).hold.cells = s.hold.cells
    ∧ (shadowsCarried s).hold.uqE = s.hold.uqE ∧ (shadowsCarried s).hold.uqV = s.hold.uqV ∧ (shadowsCarried s).hold.uqD = s.hold.uqD
    ∧ (shadowsCarried s).hold.dqV = s.hold.dqV ∧ (shadowsCarried s).hold.dqD = s.hold.dqD ∧ (shadowsCarried s).hold.sweep10 = s.hold.sweep10
    ∧ (shadowsCarried s).hold.sweep1s = s.hold.sweep1s ∧ (shadowsCarried s).pacer.credit = s.pacer.credit
    ∧ (shadowsCarried s).pacer.pacing = s.pacer.pacing ∧ (shadowsCarried s).pacer.refusalPause = s.pacer.refusalPause
    ∧ (shadowsCarried s).pacer.chargeA = s.pacer.chargeA ∧ (shadowsCarried s).pacer.chargeB = s.pacer.chargeB
    ∧ (shadowsCarried s).pacer.grantSeen = s.pacer.grantSeen ∧ (shadowsCarried s).radio.failures = s.radio.failures
    ∧ (shadowsCarried s).radio.lastCause = s.radio.lastCause ∧ (shadowsCarried s).radio.silenceTimer = s.radio.silenceTimer
    ∧ (shadowsCarried s).radio.grantUp = s.radio.grantUp ∧ (shadowsCarried s).radio.grantDown = s.radio.grantDown
    ∧ (shadowsCarried s).radio.grantQuality = s.radio.grantQuality ∧ (shadowsCarried s).radio.slotA = s.radio.slotA
    ∧ (shadowsCarried s).radio.slotB = s.radio.slotB ∧ (shadowsCarried s).radio.unsent = s.radio.unsent
    ∧ (shadowsCarried s).radio.pauseTold = s.radio.pauseTold ∧ (shadowsCarried s).radio.capTold = s.radio.capTold
    ∧ (shadowsCarried s).radio.lowPowerTold = s.radio.lowPowerTold ∧ (shadowsCarried s).radio.ldoLast = s.radio.ldoLast
    ∧ (shadowsCarried s).power.mode = s.power.mode ∧ (shadowsCarried s).power.mainsReturn = s.power.mainsReturn
    ∧ (shadowsCarried s).power.quiet = s.power.quiet ∧ (shadowsCarried s).power.dozeTimer = s.power.dozeTimer
    ∧ (shadowsCarried s).power.restart = s.power.restart ∧ (shadowsCarried s).power.latch = s.power.latch
    ∧ (shadowsCarried s).events.ledMs = s.events.ledMs := by simp only [shadowsCarried]; (repeat' split) <;> simp

@[simp] theorem scanReturns_frame (pos : Count) (v : Word) (s : State) :
    (scanReturns pos v s).pending = s.pending ∧ (scanReturns pos v s).clock = s.clock ∧ (scanReturns pos v s).draws = s.draws
    ∧ (scanReturns pos v s).sram = s.sram ∧ (scanReturns pos v s).pins = s.pins ∧ (scanReturns pos v s).pacer = s.pacer
    ∧ (scanReturns pos v s).loader.phase = s.loader.phase ∧ (scanReturns pos v s).loader.flashCode = s.loader.flashCode
    ∧ (scanReturns pos v s).loader.map = s.loader.map ∧ (scanReturns pos v s).loader.linkClock = s.loader.linkClock
    ∧ (scanReturns pos v s).loader.defaultPolicy = s.loader.defaultPolicy ∧ (scanReturns pos v s).loader.policy = s.loader.policy
    ∧ (scanReturns pos v s).loader.readState = s.loader.readState ∧ (scanReturns pos v s).loader.readKind = s.loader.readKind
    ∧ (scanReturns pos v s).loader.dueAfterRestart = s.loader.dueAfterRestart ∧ (scanReturns pos v s).loader.firstHalf = s.loader.firstHalf
    ∧ (scanReturns pos v s).loader.pgenAtIssue = s.loader.pgenAtIssue ∧ (scanReturns pos v s).loader.softResetInForce = s.loader.softResetInForce
    ∧ (scanReturns pos v s).loader.counterClearInForce = s.loader.counterClearInForce
    ∧ (scanReturns pos v s).loader.shadowsLoaded = s.loader.shadowsLoaded ∧ (scanReturns pos v s).loader.softReset = s.loader.softReset
    ∧ (scanReturns pos v s).loader.softWait = s.loader.softWait ∧ (scanReturns pos v s).loader.softPositions = s.loader.softPositions
    ∧ (scanReturns pos v s).bus.shadows = s.bus.shadows ∧ (scanReturns pos v s).bus.txHorizon = s.bus.txHorizon
    ∧ (scanReturns pos v s).bus.rxHorizon = s.bus.rxHorizon ∧ (scanReturns pos v s).bus.queue = s.bus.queue
    ∧ (scanReturns pos v s).bus.waitCount = s.bus.waitCount ∧ (scanReturns pos v s).bus.gatewayData = s.bus.gatewayData
    ∧ (scanReturns pos v s).ring.delivery = s.ring.delivery ∧ (scanReturns pos v s).ring.descriptorHeld = s.ring.descriptorHeld
    ∧ (scanReturns pos v s).health.sig = s.health.sig ∧ (scanReturns pos v s).health.txp = s.health.txp
    ∧ (scanReturns pos v s).health.rxa = s.health.rxa ∧ (scanReturns pos v s).health.txe = s.health.txe
    ∧ (scanReturns pos v s).health.verdict = s.health.verdict ∧ (scanReturns pos v s).health.txReference = s.health.txReference
    ∧ (scanReturns pos v s).health.activityMark = s.health.activityMark ∧ (scanReturns pos v s).health.timer100 = s.health.timer100
    ∧ (scanReturns pos v s).path.refallTimer = s.path.refallTimer ∧ (scanReturns pos v s).path.refallOpen = s.path.refallOpen
    ∧ (scanReturns pos v s).path.recorded = s.path.recorded ∧ (scanReturns pos v s).hold.cells = s.hold.cells
    ∧ (scanReturns pos v s).hold.uqE = s.hold.uqE ∧ (scanReturns pos v s).hold.uqV = s.hold.uqV ∧ (scanReturns pos v s).hold.uqD = s.hold.uqD
    ∧ (scanReturns pos v s).hold.dqV = s.hold.dqV ∧ (scanReturns pos v s).hold.dqD = s.hold.dqD
    ∧ (scanReturns pos v s).hold.sweep10 = s.hold.sweep10 ∧ (scanReturns pos v s).hold.sweep1s = s.hold.sweep1s
    ∧ (scanReturns pos v s).radio.failures = s.radio.failures ∧ (scanReturns pos v s).radio.lastCause = s.radio.lastCause
    ∧ (scanReturns pos v s).radio.silenceTimer = s.radio.silenceTimer ∧ (scanReturns pos v s).radio.grantUp = s.radio.grantUp
    ∧ (scanReturns pos v s).radio.grantDown = s.radio.grantDown ∧ (scanReturns pos v s).radio.grantQuality = s.radio.grantQuality
    ∧ (scanReturns pos v s).radio.slotA = s.radio.slotA ∧ (scanReturns pos v s).radio.slotB = s.radio.slotB
    ∧ (scanReturns pos v s).radio.unsent = s.radio.unsent ∧ (scanReturns pos v s).radio.pauseTold = s.radio.pauseTold
    ∧ (scanReturns pos v s).radio.capTold = s.radio.capTold ∧ (scanReturns pos v s).radio.lowPowerTold = s.radio.lowPowerTold
    ∧ (scanReturns pos v s).radio.ldoLast = s.radio.ldoLast ∧ (scanReturns pos v s).power.mode = s.power.mode
    ∧ (scanReturns pos v s).power.mainsReturn = s.power.mainsReturn ∧ (scanReturns pos v s).power.quiet = s.power.quiet
    ∧ (scanReturns pos v s).power.dozeTimer = s.power.dozeTimer ∧ (scanReturns pos v s).power.restart = s.power.restart
    ∧ (scanReturns pos v s).power.latch = s.power.latch ∧ (scanReturns pos v s).events.evp = s.events.evp
    ∧ (scanReturns pos v s).events.slotKinds = s.events.slotKinds ∧ (scanReturns pos v s).events.refreshCount = s.events.refreshCount
    ∧ (scanReturns pos v s).events.refreshTimer = s.events.refreshTimer ∧ (scanReturns pos v s).events.pageWriting = s.events.pageWriting
    ∧ (scanReturns pos v s).events.ledMs = s.events.ledMs := by simp only [scanReturns]; (repeat' split) <;> simp

@[simp] theorem readyInAttached_frame (s : State) :
    (readyInAttached s).pending = s.pending ∧ (readyInAttached s).clock = s.clock ∧ (readyInAttached s).draws = s.draws
    ∧ (readyInAttached s).sram = s.sram ∧ (readyInAttached s).pins = s.pins ∧ (readyInAttached s).health = s.health
    ∧ (readyInAttached s).power = s.power ∧ (readyInAttached s).loader.phase = s.loader.phase
    ∧ (readyInAttached s).loader.flashCode = s.loader.flashCode ∧ (readyInAttached s).loader.map = s.loader.map
    ∧ (readyInAttached s).loader.linkClock = s.loader.linkClock ∧ (readyInAttached s).loader.defaultPolicy = s.loader.defaultPolicy
    ∧ (readyInAttached s).loader.policy = s.loader.policy ∧ (readyInAttached s).loader.readState = s.loader.readState
    ∧ (readyInAttached s).loader.readKind = s.loader.readKind ∧ (readyInAttached s).loader.dueAfterRestart = s.loader.dueAfterRestart
    ∧ (readyInAttached s).loader.firstHalf = s.loader.firstHalf ∧ (readyInAttached s).loader.pgenAtIssue = s.loader.pgenAtIssue
    ∧ (readyInAttached s).loader.softResetInForce = s.loader.softResetInForce
    ∧ (readyInAttached s).loader.counterClearInForce = s.loader.counterClearInForce
    ∧ (readyInAttached s).loader.shadowsLoaded = s.loader.shadowsLoaded ∧ (readyInAttached s).loader.softReset = s.loader.softReset
    ∧ (readyInAttached s).loader.softWait = s.loader.softWait ∧ (readyInAttached s).loader.softPositions = s.loader.softPositions
    ∧ (readyInAttached s).bus.shadows = s.bus.shadows ∧ (readyInAttached s).bus.txHorizon = s.bus.txHorizon
    ∧ (readyInAttached s).bus.rxHorizon = s.bus.rxHorizon ∧ (readyInAttached s).bus.fixedH = s.bus.fixedH
    ∧ (readyInAttached s).bus.fixedG = s.bus.fixedG ∧ (readyInAttached s).bus.uplinkView = s.bus.uplinkView
    ∧ (readyInAttached s).bus.receiveView = s.bus.receiveView ∧ (readyInAttached s).bus.uplinkViewValue = s.bus.uplinkViewValue
    ∧ (readyInAttached s).bus.receiveViewValue = s.bus.receiveViewValue ∧ (readyInAttached s).bus.txGuard = s.bus.txGuard
    ∧ (readyInAttached s).bus.rxGuard = s.bus.rxGuard ∧ (readyInAttached s).bus.queue = s.bus.queue
    ∧ (readyInAttached s).bus.waitCount = s.bus.waitCount ∧ (readyInAttached s).bus.gatewayData = s.bus.gatewayData
    ∧ (readyInAttached s).ring.base = s.ring.base ∧ (readyInAttached s).ring.partTxc = s.ring.partTxc
    ∧ (readyInAttached s).ring.overrun = s.ring.overrun ∧ (readyInAttached s).ring.txCheckDue = s.ring.txCheckDue
    ∧ (readyInAttached s).ring.scanRunning = s.ring.scanRunning ∧ (readyInAttached s).ring.scanMark = s.ring.scanMark
    ∧ (readyInAttached s).ring.scanRead = s.ring.scanRead ∧ (readyInAttached s).ring.txForcing = s.ring.txForcing
    ∧ (readyInAttached s).ring.rxForcing = s.ring.rxForcing ∧ (readyInAttached s).ring.handBackAsked = s.ring.handBackAsked
    ∧ (readyInAttached s).ring.fillCursor = s.ring.fillCursor ∧ (readyInAttached s).ring.partRxf = s.ring.partRxf
    ∧ (readyInAttached s).ring.delivery = s.ring.delivery ∧ (readyInAttached s).ring.descriptorHeld = s.ring.descriptorHeld
    ∧ (readyInAttached s).ring.rxOverrun = s.ring.rxOverrun ∧ (readyInAttached s).ring.rxCheckDue = s.ring.rxCheckDue
    ∧ (readyInAttached s).path.dwellD = s.path.dwellD ∧ (readyInAttached s).path.dwell = s.path.dwell
    ∧ (readyInAttached s).path.refallTimer = s.path.refallTimer ∧ (readyInAttached s).path.refallOpen = s.path.refallOpen
    ∧ (readyInAttached s).path.releaseTimer = s.path.releaseTimer ∧ (readyInAttached s).path.txReleased = s.path.txReleased
    ∧ (readyInAttached s).path.rxReleased = s.path.rxReleased ∧ (readyInAttached s).path.radioWanted = s.path.radioWanted
    ∧ (readyInAttached s).path.recorded = s.path.recorded ∧ (readyInAttached s).hold.cells = s.hold.cells
    ∧ (readyInAttached s).hold.dqV = s.hold.dqV ∧ (readyInAttached s).hold.dqD = s.hold.dqD ∧ (readyInAttached s).hold.sweep10 = s.hold.sweep10
    ∧ (readyInAttached s).hold.sweep1s = s.hold.sweep1s ∧ (readyInAttached s).pacer.pacing = s.pacer.pacing
    ∧ (readyInAttached s).pacer.grantSeen = s.pacer.grantSeen ∧ (readyInAttached s).pacer.usageBase = s.pacer.usageBase
    ∧ (readyInAttached s).pacer.carried = s.pacer.carried ∧ (readyInAttached s).pacer.allowance = s.pacer.allowance
    ∧ (readyInAttached s).pacer.downlinkCap = s.pacer.downlinkCap ∧ (readyInAttached s).radio.failures = s.radio.failures
    ∧ (readyInAttached s).radio.lastCause = s.radio.lastCause ∧ (readyInAttached s).radio.grantUp = s.radio.grantUp
    ∧ (readyInAttached s).radio.grantDown = s.radio.grantDown ∧ (readyInAttached s).radio.grantQuality = s.radio.grantQuality
    ∧ (readyInAttached s).radio.lowPowerTold = s.radio.lowPowerTold ∧ (readyInAttached s).radio.ldoLast = s.radio.ldoLast
    ∧ (readyInAttached s).events.evp = s.events.evp ∧ (readyInAttached s).events.slotKinds = s.events.slotKinds
    ∧ (readyInAttached s).events.refreshCount = s.events.refreshCount ∧ (readyInAttached s).events.refreshTimer = s.events.refreshTimer
    ∧ (readyInAttached s).events.pageWriting = s.events.pageWriting ∧ (readyInAttached s).events.ledMs = s.events.ledMs := by simp [readyInAttached]

@[simp] theorem actRecorded_frame (r : Recorded) (s : State) :
    (actRecorded r s).pending = s.pending ∧ (actRecorded r s).clock = s.clock ∧ (actRecorded r s).draws = s.draws
    ∧ (actRecorded r s).sram = s.sram ∧ (actRecorded r s).pins = s.pins ∧ (actRecorded r s).health = s.health ∧ (actRecorded r s).pacer = s.pacer
    ∧ (actRecorded r s).power = s.power ∧ (actRecorded r s).loader.phase = s.loader.phase
    ∧ (actRecorded r s).loader.flashCode = s.loader.flashCode ∧ (actRecorded r s).loader.map = s.loader.map
    ∧ (actRecorded r s).loader.linkClock = s.loader.linkClock ∧ (actRecorded r s).loader.defaultPolicy = s.loader.defaultPolicy
    ∧ (actRecorded r s).loader.policy = s.loader.policy ∧ (actRecorded r s).loader.readState = s.loader.readState
    ∧ (actRecorded r s).loader.readKind = s.loader.readKind ∧ (actRecorded r s).loader.dueAfterRestart = s.loader.dueAfterRestart
    ∧ (actRecorded r s).loader.firstHalf = s.loader.firstHalf ∧ (actRecorded r s).loader.pgenAtIssue = s.loader.pgenAtIssue
    ∧ (actRecorded r s).loader.softResetInForce = s.loader.softResetInForce
    ∧ (actRecorded r s).loader.counterClearInForce = s.loader.counterClearInForce
    ∧ (actRecorded r s).loader.shadowsLoaded = s.loader.shadowsLoaded ∧ (actRecorded r s).loader.softReset = s.loader.softReset
    ∧ (actRecorded r s).loader.softWait = s.loader.softWait ∧ (actRecorded r s).loader.softPositions = s.loader.softPositions
    ∧ (actRecorded r s).bus.shadows = s.bus.shadows ∧ (actRecorded r s).bus.txHorizon = s.bus.txHorizon
    ∧ (actRecorded r s).bus.rxHorizon = s.bus.rxHorizon ∧ (actRecorded r s).bus.fixedH = s.bus.fixedH
    ∧ (actRecorded r s).bus.fixedG = s.bus.fixedG ∧ (actRecorded r s).bus.queue = s.bus.queue ∧ (actRecorded r s).bus.waitCount = s.bus.waitCount
    ∧ (actRecorded r s).bus.gatewayData = s.bus.gatewayData ∧ (actRecorded r s).ring.scanRunning = s.ring.scanRunning
    ∧ (actRecorded r s).ring.scanMark = s.ring.scanMark ∧ (actRecorded r s).ring.scanRead = s.ring.scanRead
    ∧ (actRecorded r s).ring.handBackAsked = s.ring.handBackAsked ∧ (actRecorded r s).ring.fillCursor = s.ring.fillCursor
    ∧ (actRecorded r s).ring.delivery = s.ring.delivery ∧ (actRecorded r s).ring.descriptorHeld = s.ring.descriptorHeld
    ∧ (actRecorded r s).path.dwellD = s.path.dwellD ∧ (actRecorded r s).path.radioWanted = s.path.radioWanted
    ∧ (actRecorded r s).path.recorded = s.path.recorded ∧ (actRecorded r s).hold.cells = s.hold.cells ∧ (actRecorded r s).hold.uqE = s.hold.uqE
    ∧ (actRecorded r s).hold.uqV = s.hold.uqV ∧ (actRecorded r s).hold.uqD = s.hold.uqD ∧ (actRecorded r s).hold.dqV = s.hold.dqV
    ∧ (actRecorded r s).hold.dqD = s.hold.dqD ∧ (actRecorded r s).hold.sweep10 = s.hold.sweep10 ∧ (actRecorded r s).hold.sweep1s = s.hold.sweep1s
    ∧ (actRecorded r s).radio.silenceTimer = s.radio.silenceTimer ∧ (actRecorded r s).radio.grantUp = s.radio.grantUp
    ∧ (actRecorded r s).radio.grantDown = s.radio.grantDown ∧ (actRecorded r s).radio.grantQuality = s.radio.grantQuality
    ∧ (actRecorded r s).radio.slotA = s.radio.slotA ∧ (actRecorded r s).radio.slotB = s.radio.slotB
    ∧ (actRecorded r s).radio.unsent = s.radio.unsent ∧ (actRecorded r s).radio.pauseTold = s.radio.pauseTold
    ∧ (actRecorded r s).radio.capTold = s.radio.capTold ∧ (actRecorded r s).radio.lowPowerTold = s.radio.lowPowerTold
    ∧ (actRecorded r s).radio.ldoLast = s.radio.ldoLast ∧ (actRecorded r s).events.evp = s.events.evp
    ∧ (actRecorded r s).events.slotKinds = s.events.slotKinds ∧ (actRecorded r s).events.refreshCount = s.events.refreshCount
    ∧ (actRecorded r s).events.refreshTimer = s.events.refreshTimer ∧ (actRecorded r s).events.pageWriting = s.events.pageWriting
    ∧ (actRecorded r s).events.ledMs = s.events.ledMs := by unfold actRecorded; (repeat' split) <;> simp

@[simp] theorem evaluate_frame (s : State) :
    (evaluate s).pending = s.pending ∧ (evaluate s).clock = s.clock ∧ (evaluate s).draws = s.draws ∧ (evaluate s).sram = s.sram
    ∧ (evaluate s).pins = s.pins ∧ (evaluate s).pacer = s.pacer ∧ (evaluate s).loader.phase = s.loader.phase
    ∧ (evaluate s).loader.flashCode = s.loader.flashCode ∧ (evaluate s).loader.map = s.loader.map
    ∧ (evaluate s).loader.linkClock = s.loader.linkClock ∧ (evaluate s).loader.defaultPolicy = s.loader.defaultPolicy
    ∧ (evaluate s).loader.policy = s.loader.policy ∧ (evaluate s).loader.readState = s.loader.readState
    ∧ (evaluate s).loader.readKind = s.loader.readKind ∧ (evaluate s).loader.dueAfterRestart = s.loader.dueAfterRestart
    ∧ (evaluate s).loader.firstHalf = s.loader.firstHalf ∧ (evaluate s).loader.pgenAtIssue = s.loader.pgenAtIssue
    ∧ (evaluate s).loader.softResetInForce = s.loader.softResetInForce ∧ (evaluate s).loader.counterClearInForce = s.loader.counterClearInForce
    ∧ (evaluate s).loader.shadowsLoaded = s.loader.shadowsLoaded ∧ (evaluate s).loader.softReset = s.loader.softReset
    ∧ (evaluate s).loader.softWait = s.loader.softWait ∧ (evaluate s).loader.softPositions = s.loader.softPositions
    ∧ (evaluate s).bus.shadows = s.bus.shadows ∧ (evaluate s).bus.txHorizon = s.bus.txHorizon ∧ (evaluate s).bus.rxHorizon = s.bus.rxHorizon
    ∧ (evaluate s).bus.queue = s.bus.queue ∧ (evaluate s).bus.waitCount = s.bus.waitCount ∧ (evaluate s).bus.gatewayData = s.bus.gatewayData
    ∧ (evaluate s).ring.delivery = s.ring.delivery ∧ (evaluate s).ring.descriptorHeld = s.ring.descriptorHeld
    ∧ (evaluate s).health.sig = s.health.sig ∧ (evaluate s).health.txp = s.health.txp ∧ (evaluate s).health.rxa = s.health.rxa
    ∧ (evaluate s).health.txe = s.health.txe ∧ (evaluate s).health.txReference = s.health.txReference
    ∧ (evaluate s).health.activityMark = s.health.activityMark ∧ (evaluate s).health.timer100 = s.health.timer100
    ∧ (evaluate s).path.refallTimer = s.path.refallTimer ∧ (evaluate s).path.refallOpen = s.path.refallOpen
    ∧ (evaluate s).path.recorded = s.path.recorded ∧ (evaluate s).hold.cells = s.hold.cells ∧ (evaluate s).hold.uqE = s.hold.uqE
    ∧ (evaluate s).hold.uqV = s.hold.uqV ∧ (evaluate s).hold.uqD = s.hold.uqD ∧ (evaluate s).hold.dqV = s.hold.dqV
    ∧ (evaluate s).hold.dqD = s.hold.dqD ∧ (evaluate s).hold.sweep10 = s.hold.sweep10 ∧ (evaluate s).hold.sweep1s = s.hold.sweep1s
    ∧ (evaluate s).radio.failures = s.radio.failures ∧ (evaluate s).radio.lastCause = s.radio.lastCause
    ∧ (evaluate s).radio.silenceTimer = s.radio.silenceTimer ∧ (evaluate s).radio.grantUp = s.radio.grantUp
    ∧ (evaluate s).radio.grantDown = s.radio.grantDown ∧ (evaluate s).radio.grantQuality = s.radio.grantQuality
    ∧ (evaluate s).radio.slotA = s.radio.slotA ∧ (evaluate s).radio.slotB = s.radio.slotB ∧ (evaluate s).radio.unsent = s.radio.unsent
    ∧ (evaluate s).radio.pauseTold = s.radio.pauseTold ∧ (evaluate s).radio.capTold = s.radio.capTold
    ∧ (evaluate s).radio.lowPowerTold = s.radio.lowPowerTold ∧ (evaluate s).radio.ldoLast = s.radio.ldoLast
    ∧ (evaluate s).power.mode = s.power.mode ∧ (evaluate s).power.mainsReturn = s.power.mainsReturn ∧ (evaluate s).power.quiet = s.power.quiet
    ∧ (evaluate s).power.dozeTimer = s.power.dozeTimer ∧ (evaluate s).power.restart = s.power.restart ∧ (evaluate s).power.latch = s.power.latch
    ∧ (evaluate s).events.evp = s.events.evp ∧ (evaluate s).events.slotKinds = s.events.slotKinds
    ∧ (evaluate s).events.refreshCount = s.events.refreshCount ∧ (evaluate s).events.refreshTimer = s.events.refreshTimer
    ∧ (evaluate s).events.pageWriting = s.events.pageWriting ∧ (evaluate s).events.ledMs = s.events.ledMs := by simp only [evaluate]; (repeat' split) <;> simp

@[simp] theorem issueOne_frame (p : Purpose) (rest : List Purpose) (s : State) :
    (issueOne p rest s).pending = s.pending ∧ (issueOne p rest s).clock = s.clock ∧ (issueOne p rest s).draws = s.draws
    ∧ (issueOne p rest s).sram = s.sram ∧ (issueOne p rest s).pins = s.pins ∧ (issueOne p rest s).health = s.health
    ∧ (issueOne p rest s).loader.phase = s.loader.phase ∧ (issueOne p rest s).loader.flashCode = s.loader.flashCode
    ∧ (issueOne p rest s).loader.map = s.loader.map ∧ (issueOne p rest s).loader.linkClock = s.loader.linkClock
    ∧ (issueOne p rest s).loader.defaultPolicy = s.loader.defaultPolicy ∧ (issueOne p rest s).loader.policy = s.loader.policy
    ∧ (issueOne p rest s).loader.readState = s.loader.readState ∧ (issueOne p rest s).loader.readKind = s.loader.readKind
    ∧ (issueOne p rest s).loader.dueAfterRestart = s.loader.dueAfterRestart ∧ (issueOne p rest s).loader.firstHalf = s.loader.firstHalf
    ∧ (issueOne p rest s).loader.softResetInForce = s.loader.softResetInForce
    ∧ (issueOne p rest s).loader.counterClearInForce = s.loader.counterClearInForce
    ∧ (issueOne p rest s).loader.shadowsLoaded = s.loader.shadowsLoaded ∧ (issueOne p rest s).loader.softReset = s.loader.softReset
    ∧ (issueOne p rest s).loader.softWait = s.loader.softWait ∧ (issueOne p rest s).loader.softPositions = s.loader.softPositions
    ∧ (issueOne p rest s).bus.shadows = s.bus.shadows ∧ (issueOne p rest s).bus.txHorizon = s.bus.txHorizon
    ∧ (issueOne p rest s).bus.rxHorizon = s.bus.rxHorizon ∧ (issueOne p rest s).bus.fixedH = s.bus.fixedH
    ∧ (issueOne p rest s).bus.fixedG = s.bus.fixedG ∧ (issueOne p rest s).bus.txGuard = s.bus.txGuard
    ∧ (issueOne p rest s).bus.rxGuard = s.bus.rxGuard ∧ (issueOne p rest s).bus.waitCount = s.bus.waitCount
    ∧ (issueOne p rest s).bus.gatewayData = s.bus.gatewayData ∧ (issueOne p rest s).ring.readMark = s.ring.readMark
    ∧ (issueOne p rest s).ring.fence = s.ring.fence ∧ (issueOne p rest s).ring.scanRunning = s.ring.scanRunning
    ∧ (issueOne p rest s).ring.scanMark = s.ring.scanMark ∧ (issueOne p rest s).ring.scanRead = s.ring.scanRead
    ∧ (issueOne p rest s).ring.handBackAsked = s.ring.handBackAsked ∧ (issueOne p rest s).ring.descriptorHeld = s.ring.descriptorHeld
    ∧ (issueOne p rest s).path.path = s.path.path ∧ (issueOne p rest s).path.phase = s.path.phase
    ∧ (issueOne p rest s).path.dwellD = s.path.dwellD ∧ (issueOne p rest s).path.dwell = s.path.dwell
    ∧ (issueOne p rest s).path.refallTimer = s.path.refallTimer ∧ (issueOne p rest s).path.refallOpen = s.path.refallOpen
    ∧ (issueOne p rest s).path.drainTimer = s.path.drainTimer ∧ (issueOne p rest s).path.radioWanted = s.path.radioWanted
    ∧ (issueOne p rest s).path.returnPause = s.path.returnPause ∧ (issueOne p rest s).path.recorded = s.path.recorded
    ∧ (issueOne p rest s).hold.cells = s.hold.cells ∧ (issueOne p rest s).hold.sweep10 = s.hold.sweep10
    ∧ (issueOne p rest s).hold.sweep1s = s.hold.sweep1s ∧ (issueOne p rest s).pacer.pacing = s.pacer.pacing
    ∧ (issueOne p rest s).pacer.refusalPause = s.pacer.refusalPause ∧ (issueOne p rest s).pacer.grantSeen = s.pacer.grantSeen
    ∧ (issueOne p rest s).pacer.usageBase = s.pacer.usageBase ∧ (issueOne p rest s).pacer.carried = s.pacer.carried
    ∧ (issueOne p rest s).pacer.allowance = s.pacer.allowance ∧ (issueOne p rest s).pacer.downlinkCap = s.pacer.downlinkCap
    ∧ (issueOne p rest s).radio.failures = s.radio.failures ∧ (issueOne p rest s).radio.lastCause = s.radio.lastCause
    ∧ (issueOne p rest s).radio.cycleTimer = s.radio.cycleTimer ∧ (issueOne p rest s).radio.silenceTimer = s.radio.silenceTimer
    ∧ (issueOne p rest s).radio.grantUp = s.radio.grantUp ∧ (issueOne p rest s).radio.grantDown = s.radio.grantDown
    ∧ (issueOne p rest s).radio.grantQuality = s.radio.grantQuality ∧ (issueOne p rest s).radio.pauseTold = s.radio.pauseTold
    ∧ (issueOne p rest s).radio.capTold = s.radio.capTold ∧ (issueOne p rest s).radio.lowPowerTold = s.radio.lowPowerTold
    ∧ (issueOne p rest s).radio.ldoLast = s.radio.ldoLast ∧ (issueOne p rest s).radio.receiver = s.radio.receiver
    ∧ (issueOne p rest s).power.mode = s.power.mode ∧ (issueOne p rest s).power.mainsReturn = s.power.mainsReturn
    ∧ (issueOne p rest s).power.quiet = s.power.quiet ∧ (issueOne p rest s).power.dozeTimer = s.power.dozeTimer
    ∧ (issueOne p rest s).power.restart = s.power.restart ∧ (issueOne p rest s).power.latch = s.power.latch
    ∧ (issueOne p rest s).events.refreshCount = s.events.refreshCount ∧ (issueOne p rest s).events.refreshTimer = s.events.refreshTimer
    ∧ (issueOne p rest s).events.pageWriting = s.events.pageWriting ∧ (issueOne p rest s).events.pageWanted = s.events.pageWanted
    ∧ (issueOne p rest s).events.ledMs = s.events.ledMs := by simp only [issueOne]; (repeat' split) <;> simp

@[simp] theorem handBack_frame (s : State) :
    (handBack s).pending = s.pending ∧ (handBack s).clock = s.clock ∧ (handBack s).draws = s.draws ∧ (handBack s).sram = s.sram
    ∧ (handBack s).pins = s.pins ∧ (handBack s).loader.phase = s.loader.phase ∧ (handBack s).loader.flashCode = s.loader.flashCode
    ∧ (handBack s).loader.map = s.loader.map ∧ (handBack s).loader.linkClock = s.loader.linkClock
    ∧ (handBack s).loader.defaultPolicy = s.loader.defaultPolicy ∧ (handBack s).loader.policy = s.loader.policy
    ∧ (handBack s).loader.firstHalf = s.loader.firstHalf ∧ (handBack s).loader.pgenAtIssue = s.loader.pgenAtIssue
    ∧ (handBack s).loader.softResetInForce = s.loader.softResetInForce ∧ (handBack s).loader.counterClearInForce = s.loader.counterClearInForce
    ∧ (handBack s).loader.shadowsLoaded = s.loader.shadowsLoaded ∧ (handBack s).bus.shadows = s.bus.shadows
    ∧ (handBack s).bus.queue = s.bus.queue ∧ (handBack s).bus.waitCount = s.bus.waitCount ∧ (handBack s).bus.gatewayData = s.bus.gatewayData
    ∧ (handBack s).path.recorded = s.path.recorded ∧ (handBack s).hold.cells = s.hold.cells ∧ (handBack s).pacer.usageBase = s.pacer.usageBase
    ∧ (handBack s).pacer.carried = s.pacer.carried ∧ (handBack s).pacer.allowance = s.pacer.allowance
    ∧ (handBack s).pacer.downlinkCap = s.pacer.downlinkCap ∧ (handBack s).radio.pauseTold = s.radio.pauseTold
    ∧ (handBack s).radio.capTold = s.radio.capTold ∧ (handBack s).radio.lowPowerTold = s.radio.lowPowerTold
    ∧ (handBack s).radio.ldoLast = s.radio.ldoLast ∧ (handBack s).power.mode = s.power.mode
    ∧ (handBack s).power.mainsReturn = s.power.mainsReturn ∧ (handBack s).power.dozeTimer = s.power.dozeTimer
    ∧ (handBack s).power.restart = s.power.restart ∧ (handBack s).events.evp = s.events.evp ∧ (handBack s).events.slotKinds = s.events.slotKinds
    ∧ (handBack s).events.refreshCount = s.events.refreshCount ∧ (handBack s).events.refreshTimer = s.events.refreshTimer
    ∧ (handBack s).events.pageWriting = s.events.pageWriting ∧ (handBack s).events.ledMs = s.events.ledMs := by unfold handBack; (repeat' split) <;> simp

@[simp] theorem ownersTake_frame (p : Policy) (startUp : Bool) (s : State) :
    (ownersTake p startUp s).pending = s.pending ∧ (ownersTake p startUp s).clock = s.clock ∧ (ownersTake p startUp s).draws = s.draws
    ∧ (ownersTake p startUp s).sram = s.sram ∧ (ownersTake p startUp s).pins = s.pins ∧ (ownersTake p startUp s).loader.phase = s.loader.phase
    ∧ (ownersTake p startUp s).loader.flashCode = s.loader.flashCode ∧ (ownersTake p startUp s).loader.map = s.loader.map
    ∧ (ownersTake p startUp s).loader.linkClock = s.loader.linkClock ∧ (ownersTake p startUp s).loader.defaultPolicy = s.loader.defaultPolicy
    ∧ (ownersTake p startUp s).loader.readState = s.loader.readState ∧ (ownersTake p startUp s).loader.readKind = s.loader.readKind
    ∧ (ownersTake p startUp s).loader.dueAfterRestart = s.loader.dueAfterRestart ∧ (ownersTake p startUp s).loader.firstHalf = s.loader.firstHalf
    ∧ (ownersTake p startUp s).loader.pgenAtIssue = s.loader.pgenAtIssue
    ∧ (ownersTake p startUp s).loader.softResetInForce = s.loader.softResetInForce
    ∧ (ownersTake p startUp s).loader.counterClearInForce = s.loader.counterClearInForce
    ∧ (ownersTake p startUp s).loader.shadowsLoaded = s.loader.shadowsLoaded ∧ (ownersTake p startUp s).loader.softReset = s.loader.softReset
    ∧ (ownersTake p startUp s).loader.softWait = s.loader.softWait ∧ (ownersTake p startUp s).loader.softPositions = s.loader.softPositions
    ∧ (ownersTake p startUp s).bus.shadows = s.bus.shadows ∧ (ownersTake p startUp s).bus.txHorizon = s.bus.txHorizon
    ∧ (ownersTake p startUp s).bus.rxHorizon = s.bus.rxHorizon ∧ (ownersTake p startUp s).bus.queue = s.bus.queue
    ∧ (ownersTake p startUp s).bus.waitCount = s.bus.waitCount ∧ (ownersTake p startUp s).bus.gatewayData = s.bus.gatewayData
    ∧ (ownersTake p startUp s).ring.delivery = s.ring.delivery ∧ (ownersTake p startUp s).ring.descriptorHeld = s.ring.descriptorHeld
    ∧ (ownersTake p startUp s).health.sig = s.health.sig ∧ (ownersTake p startUp s).health.txp = s.health.txp
    ∧ (ownersTake p startUp s).health.rxa = s.health.rxa ∧ (ownersTake p startUp s).health.txe = s.health.txe
    ∧ (ownersTake p startUp s).health.verdict = s.health.verdict ∧ (ownersTake p startUp s).health.txReference = s.health.txReference
    ∧ (ownersTake p startUp s).health.activityMark = s.health.activityMark ∧ (ownersTake p startUp s).health.timer100 = s.health.timer100
    ∧ (ownersTake p startUp s).path.refallTimer = s.path.refallTimer ∧ (ownersTake p startUp s).path.refallOpen = s.path.refallOpen
    ∧ (ownersTake p startUp s).path.recorded = s.path.recorded ∧ (ownersTake p startUp s).hold.cells = s.hold.cells
    ∧ (ownersTake p startUp s).hold.dqV = s.hold.dqV ∧ (ownersTake p startUp s).hold.dqD = s.hold.dqD
    ∧ (ownersTake p startUp s).hold.sweep10 = s.hold.sweep10 ∧ (ownersTake p startUp s).hold.sweep1s = s.hold.sweep1s
    ∧ (ownersTake p startUp s).pacer.pacing = s.pacer.pacing ∧ (ownersTake p startUp s).pacer.refusalPause = s.pacer.refusalPause
    ∧ (ownersTake p startUp s).pacer.grantSeen = s.pacer.grantSeen ∧ (ownersTake p startUp s).radio.failures = s.radio.failures
    ∧ (ownersTake p startUp s).radio.lastCause = s.radio.lastCause ∧ (ownersTake p startUp s).radio.silenceTimer = s.radio.silenceTimer
    ∧ (ownersTake p startUp s).radio.grantUp = s.radio.grantUp ∧ (ownersTake p startUp s).radio.grantDown = s.radio.grantDown
    ∧ (ownersTake p startUp s).radio.grantQuality = s.radio.grantQuality ∧ (ownersTake p startUp s).radio.pauseTold = s.radio.pauseTold
    ∧ (ownersTake p startUp s).radio.capTold = s.radio.capTold ∧ (ownersTake p startUp s).radio.lowPowerTold = s.radio.lowPowerTold
    ∧ (ownersTake p startUp s).radio.ldoLast = s.radio.ldoLast ∧ (ownersTake p startUp s).power.mode = s.power.mode
    ∧ (ownersTake p startUp s).power.mainsReturn = s.power.mainsReturn ∧ (ownersTake p startUp s).power.quiet = s.power.quiet
    ∧ (ownersTake p startUp s).power.dozeTimer = s.power.dozeTimer ∧ (ownersTake p startUp s).power.restart = s.power.restart
    ∧ (ownersTake p startUp s).power.latch = s.power.latch ∧ (ownersTake p startUp s).events.evp = s.events.evp
    ∧ (ownersTake p startUp s).events.slotKinds = s.events.slotKinds ∧ (ownersTake p startUp s).events.refreshCount = s.events.refreshCount
    ∧ (ownersTake p startUp s).events.refreshTimer = s.events.refreshTimer ∧ (ownersTake p startUp s).events.pageWriting = s.events.pageWriting
    ∧ (ownersTake p startUp s).events.ledMs = s.events.ledMs := by simp only [ownersTake]; (repeat' split) <;> simp

@[simp] theorem shadowReturns_frame (w : Watched) (v : Word) (s : State) :
    (shadowReturns w v s).pending = s.pending ∧ (shadowReturns w v s).clock = s.clock ∧ (shadowReturns w v s).draws = s.draws
    ∧ (shadowReturns w v s).sram = s.sram ∧ (shadowReturns w v s).pins = s.pins ∧ (shadowReturns w v s).loader.phase = s.loader.phase
    ∧ (shadowReturns w v s).loader.flashCode = s.loader.flashCode ∧ (shadowReturns w v s).loader.map = s.loader.map
    ∧ (shadowReturns w v s).loader.linkClock = s.loader.linkClock ∧ (shadowReturns w v s).loader.defaultPolicy = s.loader.defaultPolicy
    ∧ (shadowReturns w v s).loader.policy = s.loader.policy ∧ (shadowReturns w v s).loader.firstHalf = s.loader.firstHalf
    ∧ (shadowReturns w v s).loader.pgenAtIssue = s.loader.pgenAtIssue ∧ (shadowReturns w v s).loader.softResetInForce = s.loader.softResetInForce
    ∧ (shadowReturns w v s).loader.counterClearInForce = s.loader.counterClearInForce
    ∧ (shadowReturns w v s).loader.softReset = s.loader.softReset ∧ (shadowReturns w v s).loader.softWait = s.loader.softWait
    ∧ (shadowReturns w v s).loader.softPositions = s.loader.softPositions ∧ (shadowReturns w v s).bus.queue = s.bus.queue
    ∧ (shadowReturns w v s).bus.waitCount = s.bus.waitCount ∧ (shadowReturns w v s).bus.gatewayData = s.bus.gatewayData
    ∧ (shadowReturns w v s).ring.delivery = s.ring.delivery ∧ (shadowReturns w v s).ring.descriptorHeld = s.ring.descriptorHeld
    ∧ (shadowReturns w v s).health.sig = s.health.sig ∧ (shadowReturns w v s).health.txp = s.health.txp
    ∧ (shadowReturns w v s).health.rxa = s.health.rxa ∧ (shadowReturns w v s).health.txe = s.health.txe
    ∧ (shadowReturns w v s).health.verdict = s.health.verdict ∧ (shadowReturns w v s).health.activityMark = s.health.activityMark
    ∧ (shadowReturns w v s).health.timer100 = s.health.timer100 ∧ (shadowReturns w v s).path.refallTimer = s.path.refallTimer
    ∧ (shadowReturns w v s).path.refallOpen = s.path.refallOpen ∧ (shadowReturns w v s).path.recorded = s.path.recorded
    ∧ (shadowReturns w v s).hold.cells = s.hold.cells ∧ (shadowReturns w v s).hold.uqE = s.hold.uqE ∧ (shadowReturns w v s).hold.uqV = s.hold.uqV
    ∧ (shadowReturns w v s).hold.uqD = s.hold.uqD ∧ (shadowReturns w v s).hold.dqV = s.hold.dqV ∧ (shadowReturns w v s).hold.dqD = s.hold.dqD
    ∧ (shadowReturns w v s).hold.sweep10 = s.hold.sweep10 ∧ (shadowReturns w v s).hold.sweep1s = s.hold.sweep1s
    ∧ (shadowReturns w v s).pacer.credit = s.pacer.credit ∧ (shadowReturns w v s).pacer.pacing = s.pacer.pacing
    ∧ (shadowReturns w v s).pacer.refusalPause = s.pacer.refusalPause ∧ (shadowReturns w v s).pacer.chargeA = s.pacer.chargeA
    ∧ (shadowReturns w v s).pacer.chargeB = s.pacer.chargeB ∧ (shadowReturns w v s).pacer.grantSeen = s.pacer.grantSeen
    ∧ (shadowReturns w v s).radio.failures = s.radio.failures ∧ (shadowReturns w v s).radio.lastCause = s.radio.lastCause
    ∧ (shadowReturns w v s).radio.silenceTimer = s.radio.silenceTimer ∧ (shadowReturns w v s).radio.grantUp = s.radio.grantUp
    ∧ (shadowReturns w v s).radio.grantDown = s.radio.grantDown ∧ (shadowReturns w v s).radio.grantQuality = s.radio.grantQuality
    ∧ (shadowReturns w v s).radio.slotA = s.radio.slotA ∧ (shadowReturns w v s).radio.slotB = s.radio.slotB
    ∧ (shadowReturns w v s).radio.unsent = s.radio.unsent ∧ (shadowReturns w v s).radio.pauseTold = s.radio.pauseTold
    ∧ (shadowReturns w v s).radio.capTold = s.radio.capTold ∧ (shadowReturns w v s).radio.lowPowerTold = s.radio.lowPowerTold
    ∧ (shadowReturns w v s).radio.ldoLast = s.radio.ldoLast ∧ (shadowReturns w v s).power.mode = s.power.mode
    ∧ (shadowReturns w v s).power.mainsReturn = s.power.mainsReturn ∧ (shadowReturns w v s).power.quiet = s.power.quiet
    ∧ (shadowReturns w v s).power.dozeTimer = s.power.dozeTimer ∧ (shadowReturns w v s).power.restart = s.power.restart
    ∧ (shadowReturns w v s).power.latch = s.power.latch ∧ (shadowReturns w v s).events.ledMs = s.events.ledMs := by simp only [shadowReturns]; (repeat' split) <;> simp

@[simp] theorem moduleIsReady_frame (s : State) :
    (moduleIsReady s).pending = s.pending ∧ (moduleIsReady s).clock = s.clock ∧ (moduleIsReady s).draws = s.draws
    ∧ (moduleIsReady s).sram = s.sram ∧ (moduleIsReady s).pins = s.pins ∧ (moduleIsReady s).health = s.health ∧ (moduleIsReady s).power = s.power
    ∧ (moduleIsReady s).loader.phase = s.loader.phase ∧ (moduleIsReady s).loader.flashCode = s.loader.flashCode
    ∧ (moduleIsReady s).loader.map = s.loader.map ∧ (moduleIsReady s).loader.linkClock = s.loader.linkClock
    ∧ (moduleIsReady s).loader.defaultPolicy = s.loader.defaultPolicy ∧ (moduleIsReady s).loader.policy = s.loader.policy
    ∧ (moduleIsReady s).loader.readState = s.loader.readState ∧ (moduleIsReady s).loader.readKind = s.loader.readKind
    ∧ (moduleIsReady s).loader.dueAfterRestart = s.loader.dueAfterRestart ∧ (moduleIsReady s).loader.firstHalf = s.loader.firstHalf
    ∧ (moduleIsReady s).loader.pgenAtIssue = s.loader.pgenAtIssue ∧ (moduleIsReady s).loader.softResetInForce = s.loader.softResetInForce
    ∧ (moduleIsReady s).loader.counterClearInForce = s.loader.counterClearInForce
    ∧ (moduleIsReady s).loader.shadowsLoaded = s.loader.shadowsLoaded ∧ (moduleIsReady s).loader.softReset = s.loader.softReset
    ∧ (moduleIsReady s).loader.softWait = s.loader.softWait ∧ (moduleIsReady s).loader.softPositions = s.loader.softPositions
    ∧ (moduleIsReady s).bus.shadows = s.bus.shadows ∧ (moduleIsReady s).bus.txHorizon = s.bus.txHorizon
    ∧ (moduleIsReady s).bus.rxHorizon = s.bus.rxHorizon ∧ (moduleIsReady s).bus.fixedH = s.bus.fixedH
    ∧ (moduleIsReady s).bus.fixedG = s.bus.fixedG ∧ (moduleIsReady s).bus.uplinkView = s.bus.uplinkView
    ∧ (moduleIsReady s).bus.receiveView = s.bus.receiveView ∧ (moduleIsReady s).bus.uplinkViewValue = s.bus.uplinkViewValue
    ∧ (moduleIsReady s).bus.receiveViewValue = s.bus.receiveViewValue ∧ (moduleIsReady s).bus.txGuard = s.bus.txGuard
    ∧ (moduleIsReady s).bus.rxGuard = s.bus.rxGuard ∧ (moduleIsReady s).bus.queue = s.bus.queue
    ∧ (moduleIsReady s).bus.waitCount = s.bus.waitCount ∧ (moduleIsReady s).bus.gatewayData = s.bus.gatewayData
    ∧ (moduleIsReady s).ring.base = s.ring.base ∧ (moduleIsReady s).ring.partTxc = s.ring.partTxc
    ∧ (moduleIsReady s).ring.overrun = s.ring.overrun ∧ (moduleIsReady s).ring.txCheckDue = s.ring.txCheckDue
    ∧ (moduleIsReady s).ring.scanRunning = s.ring.scanRunning ∧ (moduleIsReady s).ring.scanMark = s.ring.scanMark
    ∧ (moduleIsReady s).ring.scanRead = s.ring.scanRead ∧ (moduleIsReady s).ring.txForcing = s.ring.txForcing
    ∧ (moduleIsReady s).ring.rxForcing = s.ring.rxForcing ∧ (moduleIsReady s).ring.handBackAsked = s.ring.handBackAsked
    ∧ (moduleIsReady s).ring.fillCursor = s.ring.fillCursor ∧ (moduleIsReady s).ring.partRxf = s.ring.partRxf
    ∧ (moduleIsReady s).ring.delivery = s.ring.delivery ∧ (moduleIsReady s).ring.descriptorHeld = s.ring.descriptorHeld
    ∧ (moduleIsReady s).ring.rxOverrun = s.ring.rxOverrun ∧ (moduleIsReady s).ring.rxCheckDue = s.ring.rxCheckDue
    ∧ (moduleIsReady s).path.dwellD = s.path.dwellD ∧ (moduleIsReady s).path.dwell = s.path.dwell
    ∧ (moduleIsReady s).path.refallTimer = s.path.refallTimer ∧ (moduleIsReady s).path.refallOpen = s.path.refallOpen
    ∧ (moduleIsReady s).path.releaseTimer = s.path.releaseTimer ∧ (moduleIsReady s).path.txReleased = s.path.txReleased
    ∧ (moduleIsReady s).path.rxReleased = s.path.rxReleased ∧ (moduleIsReady s).path.radioWanted = s.path.radioWanted
    ∧ (moduleIsReady s).path.recorded = s.path.recorded ∧ (moduleIsReady s).hold.cells = s.hold.cells ∧ (moduleIsReady s).hold.dqV = s.hold.dqV
    ∧ (moduleIsReady s).hold.dqD = s.hold.dqD ∧ (moduleIsReady s).hold.sweep10 = s.hold.sweep10 ∧ (moduleIsReady s).hold.sweep1s = s.hold.sweep1s
    ∧ (moduleIsReady s).pacer.pacing = s.pacer.pacing ∧ (moduleIsReady s).pacer.grantSeen = s.pacer.grantSeen
    ∧ (moduleIsReady s).pacer.usageBase = s.pacer.usageBase ∧ (moduleIsReady s).pacer.carried = s.pacer.carried
    ∧ (moduleIsReady s).pacer.allowance = s.pacer.allowance ∧ (moduleIsReady s).pacer.downlinkCap = s.pacer.downlinkCap
    ∧ (moduleIsReady s).radio.grantUp = s.radio.grantUp ∧ (moduleIsReady s).radio.grantDown = s.radio.grantDown
    ∧ (moduleIsReady s).radio.grantQuality = s.radio.grantQuality ∧ (moduleIsReady s).radio.lowPowerTold = s.radio.lowPowerTold
    ∧ (moduleIsReady s).radio.ldoLast = s.radio.ldoLast ∧ (moduleIsReady s).events.evp = s.events.evp
    ∧ (moduleIsReady s).events.slotKinds = s.events.slotKinds ∧ (moduleIsReady s).events.refreshCount = s.events.refreshCount
    ∧ (moduleIsReady s).events.refreshTimer = s.events.refreshTimer ∧ (moduleIsReady s).events.pageWriting = s.events.pageWriting
    ∧ (moduleIsReady s).events.ledMs = s.events.ledMs := by unfold moduleIsReady; (repeat' split) <;> simp

@[simp] theorem actAllRecorded_frame (s : State) :
    (actAllRecorded s).pending = s.pending ∧ (actAllRecorded s).clock = s.clock ∧ (actAllRecorded s).draws = s.draws
    ∧ (actAllRecorded s).sram = s.sram ∧ (actAllRecorded s).pins = s.pins ∧ (actAllRecorded s).health = s.health
    ∧ (actAllRecorded s).pacer = s.pacer ∧ (actAllRecorded s).power = s.power ∧ (actAllRecorded s).loader.phase = s.loader.phase
    ∧ (actAllRecorded s).loader.flashCode = s.loader.flashCode ∧ (actAllRecorded s).loader.map = s.loader.map
    ∧ (actAllRecorded s).loader.linkClock = s.loader.linkClock ∧ (actAllRecorded s).loader.defaultPolicy = s.loader.defaultPolicy
    ∧ (actAllRecorded s).loader.policy = s.loader.policy ∧ (actAllRecorded s).loader.readState = s.loader.readState
    ∧ (actAllRecorded s).loader.readKind = s.loader.readKind ∧ (actAllRecorded s).loader.dueAfterRestart = s.loader.dueAfterRestart
    ∧ (actAllRecorded s).loader.firstHalf = s.loader.firstHalf ∧ (actAllRecorded s).loader.pgenAtIssue = s.loader.pgenAtIssue
    ∧ (actAllRecorded s).loader.softResetInForce = s.loader.softResetInForce
    ∧ (actAllRecorded s).loader.counterClearInForce = s.loader.counterClearInForce
    ∧ (actAllRecorded s).loader.shadowsLoaded = s.loader.shadowsLoaded ∧ (actAllRecorded s).loader.softReset = s.loader.softReset
    ∧ (actAllRecorded s).loader.softWait = s.loader.softWait ∧ (actAllRecorded s).loader.softPositions = s.loader.softPositions
    ∧ (actAllRecorded s).bus.shadows = s.bus.shadows ∧ (actAllRecorded s).bus.txHorizon = s.bus.txHorizon
    ∧ (actAllRecorded s).bus.rxHorizon = s.bus.rxHorizon ∧ (actAllRecorded s).bus.fixedH = s.bus.fixedH
    ∧ (actAllRecorded s).bus.fixedG = s.bus.fixedG ∧ (actAllRecorded s).bus.queue = s.bus.queue
    ∧ (actAllRecorded s).bus.waitCount = s.bus.waitCount ∧ (actAllRecorded s).bus.gatewayData = s.bus.gatewayData
    ∧ (actAllRecorded s).ring.scanRunning = s.ring.scanRunning ∧ (actAllRecorded s).ring.scanMark = s.ring.scanMark
    ∧ (actAllRecorded s).ring.scanRead = s.ring.scanRead ∧ (actAllRecorded s).ring.handBackAsked = s.ring.handBackAsked
    ∧ (actAllRecorded s).ring.fillCursor = s.ring.fillCursor ∧ (actAllRecorded s).ring.delivery = s.ring.delivery
    ∧ (actAllRecorded s).ring.descriptorHeld = s.ring.descriptorHeld ∧ (actAllRecorded s).path.dwellD = s.path.dwellD
    ∧ (actAllRecorded s).path.radioWanted = s.path.radioWanted ∧ (actAllRecorded s).hold.cells = s.hold.cells
    ∧ (actAllRecorded s).hold.uqE = s.hold.uqE ∧ (actAllRecorded s).hold.uqV = s.hold.uqV ∧ (actAllRecorded s).hold.uqD = s.hold.uqD
    ∧ (actAllRecorded s).hold.dqV = s.hold.dqV ∧ (actAllRecorded s).hold.dqD = s.hold.dqD ∧ (actAllRecorded s).hold.sweep10 = s.hold.sweep10
    ∧ (actAllRecorded s).hold.sweep1s = s.hold.sweep1s ∧ (actAllRecorded s).radio.silenceTimer = s.radio.silenceTimer
    ∧ (actAllRecorded s).radio.grantUp = s.radio.grantUp ∧ (actAllRecorded s).radio.grantDown = s.radio.grantDown
    ∧ (actAllRecorded s).radio.grantQuality = s.radio.grantQuality ∧ (actAllRecorded s).radio.slotA = s.radio.slotA
    ∧ (actAllRecorded s).radio.slotB = s.radio.slotB ∧ (actAllRecorded s).radio.unsent = s.radio.unsent
    ∧ (actAllRecorded s).radio.pauseTold = s.radio.pauseTold ∧ (actAllRecorded s).radio.capTold = s.radio.capTold
    ∧ (actAllRecorded s).radio.lowPowerTold = s.radio.lowPowerTold ∧ (actAllRecorded s).radio.ldoLast = s.radio.ldoLast
    ∧ (actAllRecorded s).events.evp = s.events.evp ∧ (actAllRecorded s).events.slotKinds = s.events.slotKinds
    ∧ (actAllRecorded s).events.refreshCount = s.events.refreshCount ∧ (actAllRecorded s).events.refreshTimer = s.events.refreshTimer
    ∧ (actAllRecorded s).events.pageWriting = s.events.pageWriting ∧ (actAllRecorded s).events.ledMs = s.events.ledMs := by
  have keep {γ : Type} (p : State → γ) (h : ∀ s a, p (actRecorded a s) = p s)
      (h0 : p { s with path.recorded := [] } = p s) : p (actAllRecorded s) = p s := (foldl_keeps p _ _ _ h).trans h0
  exact ⟨keep (·.pending) (by simp) rfl, keep (·.clock) (by simp) rfl, keep (·.draws) (by simp) rfl, keep (·.sram) (by simp) rfl, keep (·.pins) (by simp) rfl,
    keep (·.health) (by simp) rfl, keep (·.pacer) (by simp) rfl, keep (·.power) (by simp) rfl, keep (·.loader.phase) (by simp) rfl,
    keep (·.loader.flashCode) (by simp) rfl, keep (·.loader.map) (by simp) rfl, keep (·.loader.linkClock) (by simp) rfl,
    keep (·.loader.defaultPolicy) (by simp) rfl, keep (·.loader.policy) (by simp) rfl, keep (·.loader.readState) (by simp) rfl,
    keep (·.loader.readKind) (by simp) rfl, keep (·.loader.dueAfterRestart) (by simp) rfl, keep (·.loader.firstHalf) (by simp) rfl,
    keep (·.loader.pgenAtIssue) (by simp) rfl, keep (·.loader.softResetInForce) (by simp) rfl, keep (·.loader.counterClearInForce) (by simp) rfl,
    keep (·.loader.shadowsLoaded) (by simp) rfl, keep (·.loader.softReset) (by simp) rfl, keep (·.loader.softWait) (by simp) rfl,
    keep (·.loader.softPositions) (by simp) rfl, keep (·.bus.shadows) (by simp) rfl, keep (·.bus.txHorizon) (by simp) rfl,
    keep (·.bus.rxHorizon) (by simp) rfl, keep (·.bus.fixedH) (by simp) rfl, keep (·.bus.fixedG) (by simp) rfl, keep (·.bus.queue) (by simp) rfl,
    keep (·.bus.waitCount) (by simp) rfl, keep (·.bus.gatewayData) (by simp) rfl, keep (·.ring.scanRunning) (by simp) rfl,
    keep (·.ring.scanMark) (by simp) rfl, keep (·.ring.scanRead) (by simp) rfl, keep (·.ring.handBackAsked) (by simp) rfl,
    keep (·.ring.fillCursor) (by simp) rfl, keep (·.ring.delivery) (by simp) rfl, keep (·.ring.descriptorHeld) (by simp) rfl,
    keep (·.path.dwellD) (by simp) rfl, keep (·.path.radioWanted) (by simp) rfl, keep (·.hold.cells) (by simp) rfl, keep (·.hold.uqE) (by simp) rfl,
    keep (·.hold.uqV) (by simp) rfl, keep (·.hold.uqD) (by simp) rfl, keep (·.hold.dqV) (by simp) rfl, keep (·.hold.dqD) (by simp) rfl,
    keep (·.hold.sweep10) (by simp) rfl, keep (·.hold.sweep1s) (by simp) rfl, keep (·.radio.silenceTimer) (by simp) rfl,
    keep (·.radio.grantUp) (by simp) rfl, keep (·.radio.grantDown) (by simp) rfl, keep (·.radio.grantQuality) (by simp) rfl,
    keep (·.radio.slotA) (by simp) rfl, keep (·.radio.slotB) (by simp) rfl, keep (·.radio.unsent) (by simp) rfl, keep (·.radio.pauseTold) (by simp) rfl,
    keep (·.radio.capTold) (by simp) rfl, keep (·.radio.lowPowerTold) (by simp) rfl, keep (·.radio.ldoLast) (by simp) rfl,
    keep (·.events.evp) (by simp) rfl, keep (·.events.slotKinds) (by simp) rfl, keep (·.events.refreshCount) (by simp) rfl,
    keep (·.events.refreshTimer) (by simp) rfl, keep (·.events.pageWriting) (by simp) rfl, keep (·.events.ledMs) (by simp) rfl⟩

@[simp] theorem sampleTxe_frame (v : Byte) (s : State) :
    (sampleTxe v s).pending = s.pending ∧ (sampleTxe v s).clock = s.clock ∧ (sampleTxe v s).draws = s.draws ∧ (sampleTxe v s).sram = s.sram
    ∧ (sampleTxe v s).pins = s.pins ∧ (sampleTxe v s).pacer = s.pacer ∧ (sampleTxe v s).loader.phase = s.loader.phase
    ∧ (sampleTxe v s).loader.flashCode = s.loader.flashCode ∧ (sampleTxe v s).loader.map = s.loader.map
    ∧ (sampleTxe v s).loader.linkClock = s.loader.linkClock ∧ (sampleTxe v s).loader.defaultPolicy = s.loader.defaultPolicy
    ∧ (sampleTxe v s).loader.policy = s.loader.policy ∧ (sampleTxe v s).loader.readState = s.loader.readState
    ∧ (sampleTxe v s).loader.readKind = s.loader.readKind ∧ (sampleTxe v s).loader.dueAfterRestart = s.loader.dueAfterRestart
    ∧ (sampleTxe v s).loader.firstHalf = s.loader.firstHalf ∧ (sampleTxe v s).loader.pgenAtIssue = s.loader.pgenAtIssue
    ∧ (sampleTxe v s).loader.softResetInForce = s.loader.softResetInForce
    ∧ (sampleTxe v s).loader.counterClearInForce = s.loader.counterClearInForce ∧ (sampleTxe v s).loader.shadowsLoaded = s.loader.shadowsLoaded
    ∧ (sampleTxe v s).loader.softReset = s.loader.softReset ∧ (sampleTxe v s).loader.softWait = s.loader.softWait
    ∧ (sampleTxe v s).loader.softPositions = s.loader.softPositions ∧ (sampleTxe v s).bus.shadows = s.bus.shadows
    ∧ (sampleTxe v s).bus.txHorizon = s.bus.txHorizon ∧ (sampleTxe v s).bus.rxHorizon = s.bus.rxHorizon ∧ (sampleTxe v s).bus.queue = s.bus.queue
    ∧ (sampleTxe v s).bus.waitCount = s.bus.waitCount ∧ (sampleTxe v s).bus.gatewayData = s.bus.gatewayData
    ∧ (sampleTxe v s).ring.delivery = s.ring.delivery ∧ (sampleTxe v s).ring.descriptorHeld = s.ring.descriptorHeld
    ∧ (sampleTxe v s).health.txReference = s.health.txReference ∧ (sampleTxe v s).health.activityMark = s.health.activityMark
    ∧ (sampleTxe v s).health.timer100 = s.health.timer100 ∧ (sampleTxe v s).path.refallTimer = s.path.refallTimer
    ∧ (sampleTxe v s).path.refallOpen = s.path.refallOpen ∧ (sampleTxe v s).path.recorded = s.path.recorded
    ∧ (sampleTxe v s).hold.cells = s.hold.cells ∧ (sampleTxe v s).hold.uqE = s.hold.uqE ∧ (sampleTxe v s).hold.uqV = s.hold.uqV
    ∧ (sampleTxe v s).hold.uqD = s.hold.uqD ∧ (sampleTxe v s).hold.dqV = s.hold.dqV ∧ (sampleTxe v s).hold.dqD = s.hold.dqD
    ∧ (sampleTxe v s).hold.sweep10 = s.hold.sweep10 ∧ (sampleTxe v s).hold.sweep1s = s.hold.sweep1s
    ∧ (sampleTxe v s).radio.failures = s.radio.failures ∧ (sampleTxe v s).radio.lastCause = s.radio.lastCause
    ∧ (sampleTxe v s).radio.silenceTimer = s.radio.silenceTimer ∧ (sampleTxe v s).radio.grantUp = s.radio.grantUp
    ∧ (sampleTxe v s).radio.grantDown = s.radio.grantDown ∧ (sampleTxe v s).radio.grantQuality = s.radio.grantQuality
    ∧ (sampleTxe v s).radio.slotA = s.radio.slotA ∧ (sampleTxe v s).radio.slotB = s.radio.slotB ∧ (sampleTxe v s).radio.unsent = s.radio.unsent
    ∧ (sampleTxe v s).radio.pauseTold = s.radio.pauseTold ∧ (sampleTxe v s).radio.capTold = s.radio.capTold
    ∧ (sampleTxe v s).radio.lowPowerTold = s.radio.lowPowerTold ∧ (sampleTxe v s).radio.ldoLast = s.radio.ldoLast
    ∧ (sampleTxe v s).power.mode = s.power.mode ∧ (sampleTxe v s).power.mainsReturn = s.power.mainsReturn
    ∧ (sampleTxe v s).power.quiet = s.power.quiet ∧ (sampleTxe v s).power.dozeTimer = s.power.dozeTimer
    ∧ (sampleTxe v s).power.restart = s.power.restart ∧ (sampleTxe v s).power.latch = s.power.latch ∧ (sampleTxe v s).events.evp = s.events.evp
    ∧ (sampleTxe v s).events.slotKinds = s.events.slotKinds ∧ (sampleTxe v s).events.refreshCount = s.events.refreshCount
    ∧ (sampleTxe v s).events.refreshTimer = s.events.refreshTimer ∧ (sampleTxe v s).events.pageWriting = s.events.pageWriting
    ∧ (sampleTxe v s).events.ledMs = s.events.ledMs := by unfold sampleTxe; (repeat' split) <;> simp

@[simp] theorem pump_frame (n : Nat) (s : State) :
    (pump n s).pending = s.pending ∧ (pump n s).clock = s.clock ∧ (pump n s).draws = s.draws ∧ (pump n s).sram = s.sram
    ∧ (pump n s).pins = s.pins ∧ (pump n s).health = s.health ∧ (pump n s).loader.phase = s.loader.phase
    ∧ (pump n s).loader.flashCode = s.loader.flashCode ∧ (pump n s).loader.map = s.loader.map ∧ (pump n s).loader.linkClock = s.loader.linkClock
    ∧ (pump n s).loader.defaultPolicy = s.loader.defaultPolicy ∧ (pump n s).loader.policy = s.loader.policy
    ∧ (pump n s).loader.readState = s.loader.readState ∧ (pump n s).loader.readKind = s.loader.readKind
    ∧ (pump n s).loader.dueAfterRestart = s.loader.dueAfterRestart ∧ (pump n s).loader.firstHalf = s.loader.firstHalf
    ∧ (pump n s).loader.softResetInForce = s.loader.softResetInForce ∧ (pump n s).loader.counterClearInForce = s.loader.counterClearInForce
    ∧ (pump n s).loader.shadowsLoaded = s.loader.shadowsLoaded ∧ (pump n s).loader.softReset = s.loader.softReset
    ∧ (pump n s).loader.softWait = s.loader.softWait ∧ (pump n s).loader.softPositions = s.loader.softPositions
    ∧ (pump n s).bus.shadows = s.bus.shadows ∧ (pump n s).bus.txHorizon = s.bus.txHorizon ∧ (pump n s).bus.rxHorizon = s.bus.rxHorizon
    ∧ (pump n s).bus.fixedH = s.bus.fixedH ∧ (pump n s).bus.fixedG = s.bus.fixedG ∧ (pump n s).bus.txGuard = s.bus.txGuard
    ∧ (pump n s).bus.rxGuard = s.bus.rxGuard ∧ (pump n s).bus.waitCount = s.bus.waitCount ∧ (pump n s).bus.gatewayData = s.bus.gatewayData
    ∧ (pump n s).ring.readMark = s.ring.readMark ∧ (pump n s).ring.fence = s.ring.fence ∧ (pump n s).ring.scanRunning = s.ring.scanRunning
    ∧ (pump n s).ring.scanMark = s.ring.scanMark ∧ (pump n s).ring.scanRead = s.ring.scanRead
    ∧ (pump n s).ring.handBackAsked = s.ring.handBackAsked ∧ (pump n s).ring.descriptorHeld = s.ring.descriptorHeld
    ∧ (pump n s).path.path = s.path.path ∧ (pump n s).path.phase = s.path.phase ∧ (pump n s).path.dwellD = s.path.dwellD
    ∧ (pump n s).path.dwell = s.path.dwell ∧ (pump n s).path.refallTimer = s.path.refallTimer ∧ (pump n s).path.refallOpen = s.path.refallOpen
    ∧ (pump n s).path.drainTimer = s.path.drainTimer ∧ (pump n s).path.radioWanted = s.path.radioWanted
    ∧ (pump n s).path.returnPause = s.path.returnPause ∧ (pump n s).path.recorded = s.path.recorded ∧ (pump n s).hold.cells = s.hold.cells
    ∧ (pump n s).hold.sweep10 = s.hold.sweep10 ∧ (pump n s).hold.sweep1s = s.hold.sweep1s ∧ (pump n s).pacer.pacing = s.pacer.pacing
    ∧ (pump n s).pacer.refusalPause = s.pacer.refusalPause ∧ (pump n s).pacer.grantSeen = s.pacer.grantSeen
    ∧ (pump n s).pacer.usageBase = s.pacer.usageBase ∧ (pump n s).pacer.carried = s.pacer.carried
    ∧ (pump n s).pacer.allowance = s.pacer.allowance ∧ (pump n s).pacer.downlinkCap = s.pacer.downlinkCap
    ∧ (pump n s).radio.failures = s.radio.failures ∧ (pump n s).radio.lastCause = s.radio.lastCause
    ∧ (pump n s).radio.cycleTimer = s.radio.cycleTimer ∧ (pump n s).radio.silenceTimer = s.radio.silenceTimer
    ∧ (pump n s).radio.grantUp = s.radio.grantUp ∧ (pump n s).radio.grantDown = s.radio.grantDown
    ∧ (pump n s).radio.grantQuality = s.radio.grantQuality ∧ (pump n s).radio.pauseTold = s.radio.pauseTold
    ∧ (pump n s).radio.capTold = s.radio.capTold ∧ (pump n s).radio.lowPowerTold = s.radio.lowPowerTold
    ∧ (pump n s).radio.ldoLast = s.radio.ldoLast ∧ (pump n s).radio.receiver = s.radio.receiver ∧ (pump n s).power.mode = s.power.mode
    ∧ (pump n s).power.mainsReturn = s.power.mainsReturn ∧ (pump n s).power.quiet = s.power.quiet
    ∧ (pump n s).power.dozeTimer = s.power.dozeTimer ∧ (pump n s).power.restart = s.power.restart ∧ (pump n s).power.latch = s.power.latch
    ∧ (pump n s).events.refreshCount = s.events.refreshCount ∧ (pump n s).events.refreshTimer = s.events.refreshTimer
    ∧ (pump n s).events.pageWriting = s.events.pageWriting ∧ (pump n s).events.pageWanted = s.events.pageWanted
    ∧ (pump n s).events.ledMs = s.events.ledMs := by
  induction n generalizing s with
  | zero => simp [pump]
  | succ n ih => unfold pump; (repeat' split) <;> simp [ih]

@[simp] theorem applyBlock_frame (bs : List Byte) (s : State) :
    (applyBlock bs s).pending = s.pending ∧ (applyBlock bs s).clock = s.clock ∧ (applyBlock bs s).draws = s.draws
    ∧ (applyBlock bs s).sram = s.sram ∧ (applyBlock bs s).pins = s.pins ∧ (applyBlock bs s).loader.phase = s.loader.phase
    ∧ (applyBlock bs s).loader.flashCode = s.loader.flashCode ∧ (applyBlock bs s).loader.map = s.loader.map
    ∧ (applyBlock bs s).loader.linkClock = s.loader.linkClock ∧ (applyBlock bs s).loader.defaultPolicy = s.loader.defaultPolicy
    ∧ (applyBlock bs s).loader.firstHalf = s.loader.firstHalf ∧ (applyBlock bs s).loader.pgenAtIssue = s.loader.pgenAtIssue
    ∧ (applyBlock bs s).loader.shadowsLoaded = s.loader.shadowsLoaded ∧ (applyBlock bs s).bus.shadows = s.bus.shadows
    ∧ (applyBlock bs s).bus.txHorizon = s.bus.txHorizon ∧ (applyBlock bs s).bus.rxHorizon = s.bus.rxHorizon
    ∧ (applyBlock bs s).bus.queue = s.bus.queue ∧ (applyBlock bs s).bus.waitCount = s.bus.waitCount
    ∧ (applyBlock bs s).bus.gatewayData = s.bus.gatewayData ∧ (applyBlock bs s).path.refallTimer = s.path.refallTimer
    ∧ (applyBlock bs s).path.refallOpen = s.path.refallOpen ∧ (applyBlock bs s).path.recorded = s.path.recorded
    ∧ (applyBlock bs s).hold.cells = s.hold.cells ∧ (applyBlock bs s).radio.pauseTold = s.radio.pauseTold
    ∧ (applyBlock bs s).radio.capTold = s.radio.capTold ∧ (applyBlock bs s).radio.lowPowerTold = s.radio.lowPowerTold
    ∧ (applyBlock bs s).radio.ldoLast = s.radio.ldoLast ∧ (applyBlock bs s).power.mode = s.power.mode
    ∧ (applyBlock bs s).power.mainsReturn = s.power.mainsReturn ∧ (applyBlock bs s).power.dozeTimer = s.power.dozeTimer
    ∧ (applyBlock bs s).power.restart = s.power.restart ∧ (applyBlock bs s).events.evp = s.events.evp
    ∧ (applyBlock bs s).events.slotKinds = s.events.slotKinds ∧ (applyBlock bs s).events.refreshCount = s.events.refreshCount
    ∧ (applyBlock bs s).events.refreshTimer = s.events.refreshTimer ∧ (applyBlock bs s).events.pageWriting = s.events.pageWriting
    ∧ (applyBlock bs s).events.ledMs = s.events.ledMs := by simp [applyBlock]

@[simp] theorem writeCarried_frame (p : Purpose) (s : State) :
    (writeCarried p s).pending = s.pending ∧ (writeCarried p s).clock = s.clock ∧ (writeCarried p s).draws = s.draws
    ∧ (writeCarried p s).sram = s.sram ∧ (writeCarried p s).pins = s.pins ∧ (writeCarried p s).loader.phase = s.loader.phase
    ∧ (writeCarried p s).loader.flashCode = s.loader.flashCode ∧ (writeCarried p s).loader.map = s.loader.map
    ∧ (writeCarried p s).loader.linkClock = s.loader.linkClock ∧ (writeCarried p s).loader.defaultPolicy = s.loader.defaultPolicy
    ∧ (writeCarried p s).loader.policy = s.loader.policy ∧ (writeCarried p s).loader.firstHalf = s.loader.firstHalf
    ∧ (writeCarried p s).loader.pgenAtIssue = s.loader.pgenAtIssue ∧ (writeCarried p s).loader.softResetInForce = s.loader.softResetInForce
    ∧ (writeCarried p s).loader.counterClearInForce = s.loader.counterClearInForce
    ∧ (writeCarried p s).loader.shadowsLoaded = s.loader.shadowsLoaded ∧ (writeCarried p s).bus.shadows = s.bus.shadows
    ∧ (writeCarried p s).bus.queue = s.bus.queue ∧ (writeCarried p s).bus.waitCount = s.bus.waitCount
    ∧ (writeCarried p s).bus.gatewayData = s.bus.gatewayData ∧ (writeCarried p s).path.recorded = s.path.recorded
    ∧ (writeCarried p s).hold.cells = s.hold.cells ∧ (writeCarried p s).pacer.usageBase = s.pacer.usageBase
    ∧ (writeCarried p s).pacer.carried = s.pacer.carried ∧ (writeCarried p s).pacer.allowance = s.pacer.allowance
    ∧ (writeCarried p s).pacer.downlinkCap = s.pacer.downlinkCap ∧ (writeCarried p s).radio.pauseTold = s.radio.pauseTold
    ∧ (writeCarried p s).radio.capTold = s.radio.capTold ∧ (writeCarried p s).radio.lowPowerTold = s.radio.lowPowerTold
    ∧ (writeCarried p s).radio.ldoLast = s.radio.ldoLast ∧ (writeCarried p s).power.mode = s.power.mode
    ∧ (writeCarried p s).power.mainsReturn = s.power.mainsReturn ∧ (writeCarried p s).power.dozeTimer = s.power.dozeTimer
    ∧ (writeCarried p s).power.restart = s.power.restart ∧ (writeCarried p s).events.evp = s.events.evp
    ∧ (writeCarried p s).events.slotKinds = s.events.slotKinds ∧ (writeCarried p s).events.refreshCount = s.events.refreshCount
    ∧ (writeCarried p s).events.refreshTimer = s.events.refreshTimer ∧ (writeCarried p s).events.ledMs = s.events.ledMs := by unfold writeCarried; (repeat' split) <;> simp

@[simp] theorem useLatch_frame (s : State) :
    (useLatch s).pending = s.pending ∧ (useLatch s).clock = s.clock ∧ (useLatch s).draws = s.draws ∧ (useLatch s).sram = s.sram
    ∧ (useLatch s).pins = s.pins ∧ (useLatch s).pacer = s.pacer ∧ (useLatch s).loader.phase = s.loader.phase
    ∧ (useLatch s).loader.flashCode = s.loader.flashCode ∧ (useLatch s).loader.map = s.loader.map
    ∧ (useLatch s).loader.linkClock = s.loader.linkClock ∧ (useLatch s).loader.defaultPolicy = s.loader.defaultPolicy
    ∧ (useLatch s).loader.policy = s.loader.policy ∧ (useLatch s).loader.readState = s.loader.readState
    ∧ (useLatch s).loader.readKind = s.loader.readKind ∧ (useLatch s).loader.dueAfterRestart = s.loader.dueAfterRestart
    ∧ (useLatch s).loader.firstHalf = s.loader.firstHalf ∧ (useLatch s).loader.pgenAtIssue = s.loader.pgenAtIssue
    ∧ (useLatch s).loader.softResetInForce = s.loader.softResetInForce ∧ (useLatch s).loader.counterClearInForce = s.loader.counterClearInForce
    ∧ (useLatch s).loader.shadowsLoaded = s.loader.shadowsLoaded ∧ (useLatch s).loader.softReset = s.loader.softReset
    ∧ (useLatch s).loader.softWait = s.loader.softWait ∧ (useLatch s).loader.softPositions = s.loader.softPositions
    ∧ (useLatch s).bus.shadows = s.bus.shadows ∧ (useLatch s).bus.txHorizon = s.bus.txHorizon ∧ (useLatch s).bus.rxHorizon = s.bus.rxHorizon
    ∧ (useLatch s).bus.queue = s.bus.queue ∧ (useLatch s).bus.waitCount = s.bus.waitCount ∧ (useLatch s).bus.gatewayData = s.bus.gatewayData
    ∧ (useLatch s).ring.delivery = s.ring.delivery ∧ (useLatch s).ring.descriptorHeld = s.ring.descriptorHeld
    ∧ (useLatch s).health.txReference = s.health.txReference ∧ (useLatch s).health.activityMark = s.health.activityMark
    ∧ (useLatch s).health.timer100 = s.health.timer100 ∧ (useLatch s).path.refallTimer = s.path.refallTimer
    ∧ (useLatch s).path.refallOpen = s.path.refallOpen ∧ (useLatch s).path.recorded = s.path.recorded ∧ (useLatch s).hold.cells = s.hold.cells
    ∧ (useLatch s).hold.uqE = s.hold.uqE ∧ (useLatch s).hold.uqV = s.hold.uqV ∧ (useLatch s).hold.uqD = s.hold.uqD
    ∧ (useLatch s).hold.dqV = s.hold.dqV ∧ (useLatch s).hold.dqD = s.hold.dqD ∧ (useLatch s).hold.sweep10 = s.hold.sweep10
    ∧ (useLatch s).hold.sweep1s = s.hold.sweep1s ∧ (useLatch s).radio.failures = s.radio.failures
    ∧ (useLatch s).radio.lastCause = s.radio.lastCause ∧ (useLatch s).radio.silenceTimer = s.radio.silenceTimer
    ∧ (useLatch s).radio.grantUp = s.radio.grantUp ∧ (useLatch s).radio.grantDown = s.radio.grantDown
    ∧ (useLatch s).radio.grantQuality = s.radio.grantQuality ∧ (useLatch s).radio.slotA = s.radio.slotA
    ∧ (useLatch s).radio.slotB = s.radio.slotB ∧ (useLatch s).radio.unsent = s.radio.unsent ∧ (useLatch s).radio.pauseTold = s.radio.pauseTold
    ∧ (useLatch s).radio.capTold = s.radio.capTold ∧ (useLatch s).radio.lowPowerTold = s.radio.lowPowerTold
    ∧ (useLatch s).radio.ldoLast = s.radio.ldoLast ∧ (useLatch s).power.mode = s.power.mode ∧ (useLatch s).power.dozeTimer = s.power.dozeTimer
    ∧ (useLatch s).power.restart = s.power.restart ∧ (useLatch s).events.evp = s.events.evp ∧ (useLatch s).events.slotKinds = s.events.slotKinds
    ∧ (useLatch s).events.refreshCount = s.events.refreshCount ∧ (useLatch s).events.refreshTimer = s.events.refreshTimer
    ∧ (useLatch s).events.pageWriting = s.events.pageWriting ∧ (useLatch s).events.ledMs = s.events.ledMs := by simp only [useLatch]; (repeat' split) <;> simp

@[simp] theorem issueAll_frame (s : State) :
    (issueAll s).pending = s.pending ∧ (issueAll s).clock = s.clock ∧ (issueAll s).draws = s.draws ∧ (issueAll s).sram = s.sram
    ∧ (issueAll s).pins = s.pins ∧ (issueAll s).health = s.health ∧ (issueAll s).loader.phase = s.loader.phase
    ∧ (issueAll s).loader.flashCode = s.loader.flashCode ∧ (issueAll s).loader.map = s.loader.map
    ∧ (issueAll s).loader.linkClock = s.loader.linkClock ∧ (issueAll s).loader.defaultPolicy = s.loader.defaultPolicy
    ∧ (issueAll s).loader.policy = s.loader.policy ∧ (issueAll s).loader.readState = s.loader.readState
    ∧ (issueAll s).loader.readKind = s.loader.readKind ∧ (issueAll s).loader.dueAfterRestart = s.loader.dueAfterRestart
    ∧ (issueAll s).loader.firstHalf = s.loader.firstHalf ∧ (issueAll s).loader.softResetInForce = s.loader.softResetInForce
    ∧ (issueAll s).loader.counterClearInForce = s.loader.counterClearInForce ∧ (issueAll s).loader.shadowsLoaded = s.loader.shadowsLoaded
    ∧ (issueAll s).loader.softReset = s.loader.softReset ∧ (issueAll s).loader.softWait = s.loader.softWait
    ∧ (issueAll s).loader.softPositions = s.loader.softPositions ∧ (issueAll s).bus.shadows = s.bus.shadows
    ∧ (issueAll s).bus.txHorizon = s.bus.txHorizon ∧ (issueAll s).bus.rxHorizon = s.bus.rxHorizon ∧ (issueAll s).bus.fixedH = s.bus.fixedH
    ∧ (issueAll s).bus.fixedG = s.bus.fixedG ∧ (issueAll s).bus.txGuard = s.bus.txGuard ∧ (issueAll s).bus.rxGuard = s.bus.rxGuard
    ∧ (issueAll s).bus.waitCount = s.bus.waitCount ∧ (issueAll s).bus.gatewayData = s.bus.gatewayData
    ∧ (issueAll s).ring.readMark = s.ring.readMark ∧ (issueAll s).ring.fence = s.ring.fence ∧ (issueAll s).ring.scanRunning = s.ring.scanRunning
    ∧ (issueAll s).ring.scanMark = s.ring.scanMark ∧ (issueAll s).ring.scanRead = s.ring.scanRead
    ∧ (issueAll s).ring.handBackAsked = s.ring.handBackAsked ∧ (issueAll s).ring.descriptorHeld = s.ring.descriptorHeld
    ∧ (issueAll s).path.path = s.path.path ∧ (issueAll s).path.phase = s.path.phase ∧ (issueAll s).path.dwellD = s.path.dwellD
    ∧ (issueAll s).path.dwell = s.path.dwell ∧ (issueAll s).path.refallTimer = s.path.refallTimer
    ∧ (issueAll s).path.refallOpen = s.path.refallOpen ∧ (issueAll s).path.drainTimer = s.path.drainTimer
    ∧ (issueAll s).path.radioWanted = s.path.radioWanted ∧ (issueAll s).path.returnPause = s.path.returnPause
    ∧ (issueAll s).path.recorded = s.path.recorded ∧ (issueAll s).hold.cells = s.hold.cells ∧ (issueAll s).hold.sweep10 = s.hold.sweep10
    ∧ (issueAll s).hold.sweep1s = s.hold.sweep1s ∧ (issueAll s).pacer.pacing = s.pacer.pacing
    ∧ (issueAll s).pacer.refusalPause = s.pacer.refusalPause ∧ (issueAll s).pacer.grantSeen = s.pacer.grantSeen
    ∧ (issueAll s).pacer.usageBase = s.pacer.usageBase ∧ (issueAll s).pacer.carried = s.pacer.carried
    ∧ (issueAll s).pacer.allowance = s.pacer.allowance ∧ (issueAll s).pacer.downlinkCap = s.pacer.downlinkCap
    ∧ (issueAll s).radio.failures = s.radio.failures ∧ (issueAll s).radio.lastCause = s.radio.lastCause
    ∧ (issueAll s).radio.cycleTimer = s.radio.cycleTimer ∧ (issueAll s).radio.silenceTimer = s.radio.silenceTimer
    ∧ (issueAll s).radio.grantUp = s.radio.grantUp ∧ (issueAll s).radio.grantDown = s.radio.grantDown
    ∧ (issueAll s).radio.grantQuality = s.radio.grantQuality ∧ (issueAll s).radio.pauseTold = s.radio.pauseTold
    ∧ (issueAll s).radio.capTold = s.radio.capTold ∧ (issueAll s).radio.lowPowerTold = s.radio.lowPowerTold
    ∧ (issueAll s).radio.ldoLast = s.radio.ldoLast ∧ (issueAll s).radio.receiver = s.radio.receiver ∧ (issueAll s).power.mode = s.power.mode
    ∧ (issueAll s).power.mainsReturn = s.power.mainsReturn ∧ (issueAll s).power.quiet = s.power.quiet
    ∧ (issueAll s).power.dozeTimer = s.power.dozeTimer ∧ (issueAll s).power.restart = s.power.restart ∧ (issueAll s).power.latch = s.power.latch
    ∧ (issueAll s).events.refreshCount = s.events.refreshCount ∧ (issueAll s).events.refreshTimer = s.events.refreshTimer
    ∧ (issueAll s).events.pageWriting = s.events.pageWriting ∧ (issueAll s).events.pageWanted = s.events.pageWanted
    ∧ (issueAll s).events.ledMs = s.events.ledMs := by simp [issueAll]

@[simp] theorem settle_frame (s : State) :
    (settle s).pending = s.pending ∧ (settle s).clock = s.clock ∧ (settle s).draws = s.draws ∧ (settle s).sram = s.sram
    ∧ (settle s).pins = s.pins ∧ (settle s).health = s.health ∧ (settle s).loader.phase = s.loader.phase
    ∧ (settle s).loader.flashCode = s.loader.flashCode ∧ (settle s).loader.map = s.loader.map ∧ (settle s).loader.linkClock = s.loader.linkClock
    ∧ (settle s).loader.defaultPolicy = s.loader.defaultPolicy ∧ (settle s).loader.policy = s.loader.policy
    ∧ (settle s).loader.readState = s.loader.readState ∧ (settle s).loader.readKind = s.loader.readKind
    ∧ (settle s).loader.dueAfterRestart = s.loader.dueAfterRestart ∧ (settle s).loader.firstHalf = s.loader.firstHalf
    ∧ (settle s).loader.softResetInForce = s.loader.softResetInForce ∧ (settle s).loader.counterClearInForce = s.loader.counterClearInForce
    ∧ (settle s).loader.shadowsLoaded = s.loader.shadowsLoaded ∧ (settle s).loader.softReset = s.loader.softReset
    ∧ (settle s).loader.softWait = s.loader.softWait ∧ (settle s).loader.softPositions = s.loader.softPositions
    ∧ (settle s).bus.shadows = s.bus.shadows ∧ (settle s).bus.txHorizon = s.bus.txHorizon ∧ (settle s).bus.rxHorizon = s.bus.rxHorizon
    ∧ (settle s).bus.fixedH = s.bus.fixedH ∧ (settle s).bus.fixedG = s.bus.fixedG ∧ (settle s).bus.txGuard = s.bus.txGuard
    ∧ (settle s).bus.rxGuard = s.bus.rxGuard ∧ (settle s).bus.waitCount = s.bus.waitCount ∧ (settle s).bus.gatewayData = s.bus.gatewayData
    ∧ (settle s).ring.readMark = s.ring.readMark ∧ (settle s).ring.fence = s.ring.fence ∧ (settle s).ring.descriptorHeld = s.ring.descriptorHeld
    ∧ (settle s).path.path = s.path.path ∧ (settle s).path.phase = s.path.phase ∧ (settle s).path.dwellD = s.path.dwellD
    ∧ (settle s).path.dwell = s.path.dwell ∧ (settle s).path.refallTimer = s.path.refallTimer ∧ (settle s).path.refallOpen = s.path.refallOpen
    ∧ (settle s).path.drainTimer = s.path.drainTimer ∧ (settle s).path.radioWanted = s.path.radioWanted
    ∧ (settle s).path.returnPause = s.path.returnPause ∧ (settle s).path.recorded = s.path.recorded ∧ (settle s).hold.cells = s.hold.cells
    ∧ (settle s).hold.sweep10 = s.hold.sweep10 ∧ (settle s).hold.sweep1s = s.hold.sweep1s ∧ (settle s).pacer.pacing = s.pacer.pacing
    ∧ (settle s).pacer.refusalPause = s.pacer.refusalPause ∧ (settle s).pacer.grantSeen = s.pacer.grantSeen
    ∧ (settle s).pacer.usageBase = s.pacer.usageBase ∧ (settle s).pacer.carried = s.pacer.carried
    ∧ (settle s).pacer.allowance = s.pacer.allowance ∧ (settle s).pacer.downlinkCap = s.pacer.downlinkCap
    ∧ (settle s).radio.failures = s.radio.failures ∧ (settle s).radio.lastCause = s.radio.lastCause
    ∧ (settle s).radio.cycleTimer = s.radio.cycleTimer ∧ (settle s).radio.silenceTimer = s.radio.silenceTimer
    ∧ (settle s).radio.grantUp = s.radio.grantUp ∧ (settle s).radio.grantDown = s.radio.grantDown
    ∧ (settle s).radio.grantQuality = s.radio.grantQuality ∧ (settle s).radio.pauseTold = s.radio.pauseTold
    ∧ (settle s).radio.capTold = s.radio.capTold ∧ (settle s).radio.lowPowerTold = s.radio.lowPowerTold
    ∧ (settle s).radio.ldoLast = s.radio.ldoLast ∧ (settle s).radio.receiver = s.radio.receiver ∧ (settle s).power.mode = s.power.mode
    ∧ (settle s).power.mainsReturn = s.power.mainsReturn ∧ (settle s).power.quiet = s.power.quiet
    ∧ (settle s).power.dozeTimer = s.power.dozeTimer ∧ (settle s).power.restart = s.power.restart ∧ (settle s).power.latch = s.power.latch
    ∧ (settle s).events.refreshCount = s.events.refreshCount ∧ (settle s).events.refreshTimer = s.events.refreshTimer
    ∧ (settle s).events.pageWriting = s.events.pageWriting ∧ (settle s).events.pageWanted = s.events.pageWanted
    ∧ (settle s).events.ledMs = s.events.ledMs := by simp [settle]

@[simp] theorem sweepData_frame (s : State) :
    (sweepData s).pending = s.pending ∧ (sweepData s).clock = s.clock ∧ (sweepData s).draws = s.draws ∧ (sweepData s).sram = s.sram
    ∧ (sweepData s).pins = s.pins ∧ (sweepData s).loader = s.loader ∧ (sweepData s).bus.shadows = s.bus.shadows
    ∧ (sweepData s).bus.txHorizon = s.bus.txHorizon ∧ (sweepData s).bus.rxHorizon = s.bus.rxHorizon
    ∧ (sweepData s).bus.fixedH = s.bus.fixedH ∧ (sweepData s).bus.fixedG = s.bus.fixedG ∧ (sweepData s).bus.uplinkView = s.bus.uplinkView
    ∧ (sweepData s).bus.receiveView = s.bus.receiveView ∧ (sweepData s).bus.uplinkViewValue = s.bus.uplinkViewValue
    ∧ (sweepData s).bus.receiveViewValue = s.bus.receiveViewValue ∧ (sweepData s).bus.txGuard = s.bus.txGuard
    ∧ (sweepData s).bus.rxGuard = s.bus.rxGuard ∧ (sweepData s).bus.queue = s.bus.queue ∧ (sweepData s).bus.waitCount = s.bus.waitCount
    ∧ (sweepData s).bus.gatewayData = s.bus.gatewayData ∧ (sweepData s).ring.base = s.ring.base
    ∧ (sweepData s).ring.partTxc = s.ring.partTxc ∧ (sweepData s).ring.readMark = s.ring.readMark
    ∧ (sweepData s).ring.descriptorRead = s.ring.descriptorRead ∧ (sweepData s).ring.fence = s.ring.fence
    ∧ (sweepData s).ring.overrun = s.ring.overrun ∧ (sweepData s).ring.txCheckDue = s.ring.txCheckDue
    ∧ (sweepData s).ring.scanRunning = s.ring.scanRunning ∧ (sweepData s).ring.scanMark = s.ring.scanMark
    ∧ (sweepData s).ring.scanRead = s.ring.scanRead ∧ (sweepData s).ring.txForcing = s.ring.txForcing
    ∧ (sweepData s).ring.rxForcing = s.ring.rxForcing ∧ (sweepData s).ring.handBackAsked = s.ring.handBackAsked
    ∧ (sweepData s).ring.fillCursor = s.ring.fillCursor ∧ (sweepData s).ring.partRxf = s.ring.partRxf
    ∧ (sweepData s).ring.delivery = s.ring.delivery ∧ (sweepData s).ring.descriptorHeld = s.ring.descriptorHeld
    ∧ (sweepData s).ring.rxOverrun = s.ring.rxOverrun ∧ (sweepData s).ring.rxCheckDue = s.ring.rxCheckDue ∧ (sweepData s).health = s.health
    ∧ (sweepData s).path.path = s.path.path ∧ (sweepData s).path.phase = s.path.phase ∧ (sweepData s).path.dwellD = s.path.dwellD
    ∧ (sweepData s).path.dwell = s.path.dwell ∧ (sweepData s).path.refallTimer = s.path.refallTimer
    ∧ (sweepData s).path.refallOpen = s.path.refallOpen ∧ (sweepData s).path.releaseTimer = s.path.releaseTimer
    ∧ (sweepData s).path.txReleased = s.path.txReleased ∧ (sweepData s).path.rxReleased = s.path.rxReleased
    ∧ (sweepData s).path.drainTimer = s.path.drainTimer ∧ (sweepData s).path.radioWanted = s.path.radioWanted
    ∧ (sweepData s).path.returnPause = s.path.returnPause ∧ (sweepData s).path.recorded = s.path.recorded
    ∧ (sweepData s).hold.cells = s.hold.cells ∧ (sweepData s).hold.uqE = s.hold.uqE ∧ (sweepData s).hold.uqV = s.hold.uqV
    ∧ (sweepData s).hold.dqV = s.hold.dqV ∧ (sweepData s).hold.sweep10 = s.hold.sweep10 ∧ (sweepData s).hold.sweep1s = s.hold.sweep1s
    ∧ (sweepData s).pacer = s.pacer ∧ (sweepData s).radio.failures = s.radio.failures ∧ (sweepData s).radio.lastCause = s.radio.lastCause
    ∧ (sweepData s).radio.cycleTimer = s.radio.cycleTimer ∧ (sweepData s).radio.silenceTimer = s.radio.silenceTimer
    ∧ (sweepData s).radio.grantUp = s.radio.grantUp ∧ (sweepData s).radio.grantDown = s.radio.grantDown
    ∧ (sweepData s).radio.grantQuality = s.radio.grantQuality ∧ (sweepData s).radio.slotA = s.radio.slotA
    ∧ (sweepData s).radio.slotB = s.radio.slotB ∧ (sweepData s).radio.unsent = s.radio.unsent
    ∧ (sweepData s).radio.pauseTold = s.radio.pauseTold ∧ (sweepData s).radio.capTold = s.radio.capTold
    ∧ (sweepData s).radio.lowPowerTold = s.radio.lowPowerTold ∧ (sweepData s).radio.ldo = s.radio.ldo
    ∧ (sweepData s).radio.ldoLast = s.radio.ldoLast ∧ (sweepData s).radio.receiver = s.radio.receiver ∧ (sweepData s).power = s.power
    ∧ (sweepData s).events.evp = s.events.evp ∧ (sweepData s).events.slotKinds = s.events.slotKinds
    ∧ (sweepData s).events.refreshCount = s.events.refreshCount ∧ (sweepData s).events.refreshTimer = s.events.refreshTimer
    ∧ (sweepData s).events.pageWriting = s.events.pageWriting ∧ (sweepData s).events.pageWanted = s.events.pageWanted
    ∧ (sweepData s).events.ledMs = s.events.ledMs := by
  simp only [sweepData, loseAll_frame]
  exact ⟨foldl_keeps (fun s => s.pending) _ _ _ (by simp),
    foldl_keeps (fun s => s.clock) _ _ _ (by simp),
    foldl_keeps (fun s => s.draws) _ _ _ (by simp),
    foldl_keeps (fun s => s.sram) _ _ _ (by simp),
    foldl_keeps (fun s => s.pins) _ _ _ (by simp),
    foldl_keeps (fun s => s.loader) _ _ _ (by simp),
    foldl_keeps (fun s => s.bus.shadows) _ _ _ (by simp),
    foldl_keeps (fun s => s.bus.txHorizon) _ _ _ (by simp),
    foldl_keeps (fun s => s.bus.rxHorizon) _ _ _ (by simp),
    foldl_keeps (fun s => s.bus.fixedH) _ _ _ (by simp),
    foldl_keeps (fun s => s.bus.fixedG) _ _ _ (by simp),
    foldl_keeps (fun s => s.bus.uplinkView) _ _ _ (by simp),
    foldl_keeps (fun s => s.bus.receiveView) _ _ _ (by simp),
    foldl_keeps (fun s => s.bus.uplinkViewValue) _ _ _ (by simp),
    foldl_keeps (fun s => s.bus.receiveViewValue) _ _ _ (by simp),
    foldl_keeps (fun s => s.bus.txGuard) _ _ _ (by simp),
    foldl_keeps (fun s => s.bus.rxGuard) _ _ _ (by simp),
    foldl_keeps (fun s => s.bus.queue) _ _ _ (by simp),
    foldl_keeps (fun s => s.bus.waitCount) _ _ _ (by simp),
    foldl_keeps (fun s => s.bus.gatewayData) _ _ _ (by simp),
    foldl_keeps (fun s => s.ring.base) _ _ _ (by simp),
    foldl_keeps (fun s => s.ring.partTxc) _ _ _ (by simp),
    foldl_keeps (fun s => s.ring.readMark) _ _ _ (by simp),
    foldl_keeps (fun s => s.ring.descriptorRead) _ _ _ (by simp),
    foldl_keeps (fun s => s.ring.fence) _ _ _ (by simp),
    foldl_keeps (fun s => s.ring.overrun) _ _ _ (by simp),
    foldl_keeps (fun s => s.ring.txCheckDue) _ _ _ (by simp),
    foldl_keeps (fun s => s.ring.scanRunning) _ _ _ (by simp),
    foldl_keeps (fun s => s.ring.scanMark) _ _ _ (by simp),
    foldl_keeps (fun s => s.ring.scanRead) _ _ _ (by simp),
    foldl_keeps (fun s => s.ring.txForcing) _ _ _ (by simp),
    foldl_keeps (fun s => s.ring.rxForcing) _ _ _ (by simp),
    foldl_keeps (fun s => s.ring.handBackAsked) _ _ _ (by simp),
    foldl_keeps (fun s => s.ring.fillCursor) _ _ _ (by simp),
    foldl_keeps (fun s => s.ring.partRxf) _ _ _ (by simp),
    foldl_keeps (fun s => s.ring.delivery) _ _ _ (by simp),
    foldl_keeps (fun s => s.ring.descriptorHeld) _ _ _ (by simp),
    foldl_keeps (fun s => s.ring.rxOverrun) _ _ _ (by simp),
    foldl_keeps (fun s => s.ring.rxCheckDue) _ _ _ (by simp),
    foldl_keeps (fun s => s.health) _ _ _ (by simp),
    foldl_keeps (fun s => s.path.path) _ _ _ (by simp),
    foldl_keeps (fun s => s.path.phase) _ _ _ (by simp),
    foldl_keeps (fun s => s.path.dwellD) _ _ _ (by simp),
    foldl_keeps (fun s => s.path.dwell) _ _ _ (by simp),
    foldl_keeps (fun s => s.path.refallTimer) _ _ _ (by simp),
    foldl_keeps (fun s => s.path.refallOpen) _ _ _ (by simp),
    foldl_keeps (fun s => s.path.releaseTimer) _ _ _ (by simp),
    foldl_keeps (fun s => s.path.txReleased) _ _ _ (by simp),
    foldl_keeps (fun s => s.path.rxReleased) _ _ _ (by simp),
    foldl_keeps (fun s => s.path.drainTimer) _ _ _ (by simp),
    foldl_keeps (fun s => s.path.radioWanted) _ _ _ (by simp),
    foldl_keeps (fun s => s.path.returnPause) _ _ _ (by simp),
    foldl_keeps (fun s => s.path.recorded) _ _ _ (by simp),
    foldl_keeps (fun s => s.hold.cells) _ _ _ (by simp),
    foldl_keeps (fun s => s.hold.uqE) _ _ _ (by simp),
    foldl_keeps (fun s => s.hold.uqV) _ _ _ (by simp),
    foldl_keeps (fun s => s.hold.dqV) _ _ _ (by simp),
    foldl_keeps (fun s => s.hold.sweep10) _ _ _ (by simp),
    foldl_keeps (fun s => s.hold.sweep1s) _ _ _ (by simp),
    foldl_keeps (fun s => s.pacer) _ _ _ (by simp),
    foldl_keeps (fun s => s.radio.failures) _ _ _ (by simp),
    foldl_keeps (fun s => s.radio.lastCause) _ _ _ (by simp),
    foldl_keeps (fun s => s.radio.cycleTimer) _ _ _ (by simp),
    foldl_keeps (fun s => s.radio.silenceTimer) _ _ _ (by simp),
    foldl_keeps (fun s => s.radio.grantUp) _ _ _ (by simp),
    foldl_keeps (fun s => s.radio.grantDown) _ _ _ (by simp),
    foldl_keeps (fun s => s.radio.grantQuality) _ _ _ (by simp),
    foldl_keeps (fun s => s.radio.slotA) _ _ _ (by simp),
    foldl_keeps (fun s => s.radio.slotB) _ _ _ (by simp),
    foldl_keeps (fun s => s.radio.unsent) _ _ _ (by simp),
    foldl_keeps (fun s => s.radio.pauseTold) _ _ _ (by simp),
    foldl_keeps (fun s => s.radio.capTold) _ _ _ (by simp),
    foldl_keeps (fun s => s.radio.lowPowerTold) _ _ _ (by simp),
    foldl_keeps (fun s => s.radio.ldo) _ _ _ (by simp),
    foldl_keeps (fun s => s.radio.ldoLast) _ _ _ (by simp),
    foldl_keeps (fun s => s.radio.receiver) _ _ _ (by simp),
    foldl_keeps (fun s => s.power) _ _ _ (by simp),
    foldl_keeps (fun s => s.events.evp) _ _ _ (by simp),
    foldl_keeps (fun s => s.events.slotKinds) _ _ _ (by simp),
    foldl_keeps (fun s => s.events.refreshCount) _ _ _ (by simp),
    foldl_keeps (fun s => s.events.refreshTimer) _ _ _ (by simp),
    foldl_keeps (fun s => s.events.pageWriting) _ _ _ (by simp),
    foldl_keeps (fun s => s.events.pageWanted) _ _ _ (by simp),
    foldl_keeps (fun s => s.events.ledMs) _ _ _ (by simp)⟩

end Sys2Proof.Machine
end

