-- ==== Sys2Proof/Laws/BusFrames.lean ====
section
/-! SUPPORT. What carrying a transfer keeps, for the gateway's transfers and the memory master's. -/

-- One theorem at a time: the threads of many at once would not fit the memory a check has.
set_option Elab.async false

namespace Sys2Proof.Machine

@[simp] theorem descriptorsReturn_frame (ws : List Word) (s : State) :
    (descriptorsReturn ws s).pending = s.pending ∧ (descriptorsReturn ws s).clock = s.clock ∧ (descriptorsReturn ws s).draws = s.draws
    ∧ (descriptorsReturn ws s).sram = s.sram ∧ (descriptorsReturn ws s).pins = s.pins ∧ (descriptorsReturn ws s).loader = s.loader
    ∧ (descriptorsReturn ws s).bus.shadows = s.bus.shadows ∧ (descriptorsReturn ws s).bus.txHorizon = s.bus.txHorizon
    ∧ (descriptorsReturn ws s).bus.rxHorizon = s.bus.rxHorizon ∧ (descriptorsReturn ws s).bus.fixedH = s.bus.fixedH
    ∧ (descriptorsReturn ws s).bus.fixedG = s.bus.fixedG ∧ (descriptorsReturn ws s).bus.uplinkView = s.bus.uplinkView
    ∧ (descriptorsReturn ws s).bus.receiveView = s.bus.receiveView ∧ (descriptorsReturn ws s).bus.uplinkViewValue = s.bus.uplinkViewValue
    ∧ (descriptorsReturn ws s).bus.receiveViewValue = s.bus.receiveViewValue ∧ (descriptorsReturn ws s).bus.txGuard = s.bus.txGuard
    ∧ (descriptorsReturn ws s).bus.rxGuard = s.bus.rxGuard ∧ (descriptorsReturn ws s).bus.queue = s.bus.queue
    ∧ (descriptorsReturn ws s).bus.waitCount = s.bus.waitCount ∧ (descriptorsReturn ws s).bus.gatewayData = s.bus.gatewayData
    ∧ (descriptorsReturn ws s).ring.base = s.ring.base ∧ (descriptorsReturn ws s).ring.partTxc = s.ring.partTxc
    ∧ (descriptorsReturn ws s).ring.fence = s.ring.fence ∧ (descriptorsReturn ws s).ring.overrun = s.ring.overrun
    ∧ (descriptorsReturn ws s).ring.txCheckDue = s.ring.txCheckDue ∧ (descriptorsReturn ws s).ring.scanRunning = s.ring.scanRunning
    ∧ (descriptorsReturn ws s).ring.scanMark = s.ring.scanMark ∧ (descriptorsReturn ws s).ring.scanRead = s.ring.scanRead
    ∧ (descriptorsReturn ws s).ring.txForcing = s.ring.txForcing ∧ (descriptorsReturn ws s).ring.rxForcing = s.ring.rxForcing
    ∧ (descriptorsReturn ws s).ring.handBackAsked = s.ring.handBackAsked ∧ (descriptorsReturn ws s).ring.fillCursor = s.ring.fillCursor
    ∧ (descriptorsReturn ws s).ring.partRxf = s.ring.partRxf ∧ (descriptorsReturn ws s).ring.delivery = s.ring.delivery
    ∧ (descriptorsReturn ws s).ring.descriptorHeld = s.ring.descriptorHeld ∧ (descriptorsReturn ws s).ring.rxOverrun = s.ring.rxOverrun
    ∧ (descriptorsReturn ws s).ring.rxCheckDue = s.ring.rxCheckDue ∧ (descriptorsReturn ws s).health = s.health
    ∧ (descriptorsReturn ws s).path.path = s.path.path ∧ (descriptorsReturn ws s).path.phase = s.path.phase
    ∧ (descriptorsReturn ws s).path.dwellD = s.path.dwellD ∧ (descriptorsReturn ws s).path.dwell = s.path.dwell
    ∧ (descriptorsReturn ws s).path.refallTimer = s.path.refallTimer ∧ (descriptorsReturn ws s).path.refallOpen = s.path.refallOpen
    ∧ (descriptorsReturn ws s).path.releaseTimer = s.path.releaseTimer ∧ (descriptorsReturn ws s).path.txReleased = s.path.txReleased
    ∧ (descriptorsReturn ws s).path.rxReleased = s.path.rxReleased ∧ (descriptorsReturn ws s).path.drainTimer = s.path.drainTimer
    ∧ (descriptorsReturn ws s).path.radioWanted = s.path.radioWanted ∧ (descriptorsReturn ws s).path.returnPause = s.path.returnPause
    ∧ (descriptorsReturn ws s).path.recorded = s.path.recorded ∧ (descriptorsReturn ws s).hold.cells = s.hold.cells
    ∧ (descriptorsReturn ws s).hold.uqE = s.hold.uqE ∧ (descriptorsReturn ws s).hold.uqV = s.hold.uqV
    ∧ (descriptorsReturn ws s).hold.uqD = s.hold.uqD ∧ (descriptorsReturn ws s).hold.dqV = s.hold.dqV
    ∧ (descriptorsReturn ws s).hold.dqD = s.hold.dqD ∧ (descriptorsReturn ws s).hold.onLdo = s.hold.onLdo
    ∧ (descriptorsReturn ws s).hold.sweep10 = s.hold.sweep10 ∧ (descriptorsReturn ws s).hold.sweep1s = s.hold.sweep1s
    ∧ (descriptorsReturn ws s).pacer = s.pacer ∧ (descriptorsReturn ws s).radio.failures = s.radio.failures
    ∧ (descriptorsReturn ws s).radio.lastCause = s.radio.lastCause ∧ (descriptorsReturn ws s).radio.cycleTimer = s.radio.cycleTimer
    ∧ (descriptorsReturn ws s).radio.silenceTimer = s.radio.silenceTimer ∧ (descriptorsReturn ws s).radio.grantUp = s.radio.grantUp
    ∧ (descriptorsReturn ws s).radio.grantDown = s.radio.grantDown ∧ (descriptorsReturn ws s).radio.grantQuality = s.radio.grantQuality
    ∧ (descriptorsReturn ws s).radio.slotA = s.radio.slotA ∧ (descriptorsReturn ws s).radio.slotB = s.radio.slotB
    ∧ (descriptorsReturn ws s).radio.unsent = s.radio.unsent ∧ (descriptorsReturn ws s).radio.pauseTold = s.radio.pauseTold
    ∧ (descriptorsReturn ws s).radio.capTold = s.radio.capTold ∧ (descriptorsReturn ws s).radio.lowPowerTold = s.radio.lowPowerTold
    ∧ (descriptorsReturn ws s).radio.ldo = s.radio.ldo ∧ (descriptorsReturn ws s).radio.ldoLast = s.radio.ldoLast
    ∧ (descriptorsReturn ws s).radio.receiver = s.radio.receiver ∧ (descriptorsReturn ws s).power = s.power
    ∧ (descriptorsReturn ws s).events = s.events := by
  have fold (d : DescriptorRead) {γ : Type} (p : State → γ) (h : ∀ s a, p (appendEntry a s) = p s) (s : State) :
      p ((readEntries d.first d.n ws).foldl (fun s e => appendEntry e s) s) = p s := foldl_keeps p _ _ _ h
  cases h : s.ring.descriptorRead with
  | none => simp [descriptorsReturn, h]
  | some d =>
    by_cases hd : d.discard = true
    · simp [descriptorsReturn, h, hd]
    · simp only [descriptorsReturn, h, hd, if_false, Bool.false_eq_true, readAhead_frame]
      exact ⟨fold d (fun s => s.pending) (by simp) _,
        fold d (fun s => s.clock) (by simp) _,
        fold d (fun s => s.draws) (by simp) _,
        fold d (fun s => s.sram) (by simp) _,
        fold d (fun s => s.pins) (by simp) _,
        fold d (fun s => s.loader) (by simp) _,
        fold d (fun s => s.bus.shadows) (by simp) _,
        fold d (fun s => s.bus.txHorizon) (by simp) _,
        fold d (fun s => s.bus.rxHorizon) (by simp) _,
        fold d (fun s => s.bus.fixedH) (by simp) _,
        fold d (fun s => s.bus.fixedG) (by simp) _,
        fold d (fun s => s.bus.uplinkView) (by simp) _,
        fold d (fun s => s.bus.receiveView) (by simp) _,
        fold d (fun s => s.bus.uplinkViewValue) (by simp) _,
        fold d (fun s => s.bus.receiveViewValue) (by simp) _,
        fold d (fun s => s.bus.txGuard) (by simp) _,
        fold d (fun s => s.bus.rxGuard) (by simp) _,
        fold d (fun s => s.bus.queue) (by simp) _,
        fold d (fun s => s.bus.waitCount) (by simp) _,
        fold d (fun s => s.bus.gatewayData) (by simp) _,
        fold d (fun s => s.ring.base) (by simp) _,
        fold d (fun s => s.ring.partTxc) (by simp) _,
        fold d (fun s => s.ring.fence) (by simp) _,
        fold d (fun s => s.ring.overrun) (by simp) _,
        fold d (fun s => s.ring.txCheckDue) (by simp) _,
        fold d (fun s => s.ring.scanRunning) (by simp) _,
        fold d (fun s => s.ring.scanMark) (by simp) _,
        fold d (fun s => s.ring.scanRead) (by simp) _,
        fold d (fun s => s.ring.txForcing) (by simp) _,
        fold d (fun s => s.ring.rxForcing) (by simp) _,
        fold d (fun s => s.ring.handBackAsked) (by simp) _,
        fold d (fun s => s.ring.fillCursor) (by simp) _,
        fold d (fun s => s.ring.partRxf) (by simp) _,
        fold d (fun s => s.ring.delivery) (by simp) _,
        fold d (fun s => s.ring.descriptorHeld) (by simp) _,
        fold d (fun s => s.ring.rxOverrun) (by simp) _,
        fold d (fun s => s.ring.rxCheckDue) (by simp) _,
        fold d (fun s => s.health) (by simp) _,
        fold d (fun s => s.path.path) (by simp) _,
        fold d (fun s => s.path.phase) (by simp) _,
        fold d (fun s => s.path.dwellD) (by simp) _,
        fold d (fun s => s.path.dwell) (by simp) _,
        fold d (fun s => s.path.refallTimer) (by simp) _,
        fold d (fun s => s.path.refallOpen) (by simp) _,
        fold d (fun s => s.path.releaseTimer) (by simp) _,
        fold d (fun s => s.path.txReleased) (by simp) _,
        fold d (fun s => s.path.rxReleased) (by simp) _,
        fold d (fun s => s.path.drainTimer) (by simp) _,
        fold d (fun s => s.path.radioWanted) (by simp) _,
        fold d (fun s => s.path.returnPause) (by simp) _,
        fold d (fun s => s.path.recorded) (by simp) _,
        fold d (fun s => s.hold.cells) (by simp) _,
        fold d (fun s => s.hold.uqE) (by simp) _,
        fold d (fun s => s.hold.uqV) (by simp) _,
        fold d (fun s => s.hold.uqD) (by simp) _,
        fold d (fun s => s.hold.dqV) (by simp) _,
        fold d (fun s => s.hold.dqD) (by simp) _,
        fold d (fun s => s.hold.onLdo) (by simp) _,
        fold d (fun s => s.hold.sweep10) (by simp) _,
        fold d (fun s => s.hold.sweep1s) (by simp) _,
        fold d (fun s => s.pacer) (by simp) _,
        fold d (fun s => s.radio.failures) (by simp) _,
        fold d (fun s => s.radio.lastCause) (by simp) _,
        fold d (fun s => s.radio.cycleTimer) (by simp) _,
        fold d (fun s => s.radio.silenceTimer) (by simp) _,
        fold d (fun s => s.radio.grantUp) (by simp) _,
        fold d (fun s => s.radio.grantDown) (by simp) _,
        fold d (fun s => s.radio.grantQuality) (by simp) _,
        fold d (fun s => s.radio.slotA) (by simp) _,
        fold d (fun s => s.radio.slotB) (by simp) _,
        fold d (fun s => s.radio.unsent) (by simp) _,
        fold d (fun s => s.radio.pauseTold) (by simp) _,
        fold d (fun s => s.radio.capTold) (by simp) _,
        fold d (fun s => s.radio.lowPowerTold) (by simp) _,
        fold d (fun s => s.radio.ldo) (by simp) _,
        fold d (fun s => s.radio.ldoLast) (by simp) _,
        fold d (fun s => s.radio.receiver) (by simp) _,
        fold d (fun s => s.power) (by simp) _,
        fold d (fun s => s.events) (by simp) _⟩

@[simp] theorem readReturns_frame (p : Purpose) (ws : List Word) (s : State) :
    (readReturns p ws s).pending = s.pending ∧ (readReturns p ws s).clock = s.clock ∧ (readReturns p ws s).draws = s.draws
    ∧ (readReturns p ws s).sram = s.sram ∧ (readReturns p ws s).pins = s.pins ∧ (readReturns p ws s).loader.phase = s.loader.phase
    ∧ (readReturns p ws s).loader.flashCode = s.loader.flashCode ∧ (readReturns p ws s).loader.map = s.loader.map
    ∧ (readReturns p ws s).loader.linkClock = s.loader.linkClock ∧ (readReturns p ws s).loader.defaultPolicy = s.loader.defaultPolicy
    ∧ (readReturns p ws s).loader.pgenAtIssue = s.loader.pgenAtIssue ∧ (readReturns p ws s).bus.queue = s.bus.queue
    ∧ (readReturns p ws s).bus.waitCount = s.bus.waitCount ∧ (readReturns p ws s).bus.gatewayData = s.bus.gatewayData
    ∧ (readReturns p ws s).path.refallTimer = s.path.refallTimer ∧ (readReturns p ws s).path.refallOpen = s.path.refallOpen
    ∧ (readReturns p ws s).path.recorded = s.path.recorded ∧ (readReturns p ws s).radio.pauseTold = s.radio.pauseTold
    ∧ (readReturns p ws s).radio.capTold = s.radio.capTold ∧ (readReturns p ws s).radio.lowPowerTold = s.radio.lowPowerTold
    ∧ (readReturns p ws s).radio.ldoLast = s.radio.ldoLast ∧ (readReturns p ws s).power.mode = s.power.mode
    ∧ (readReturns p ws s).power.mainsReturn = s.power.mainsReturn ∧ (readReturns p ws s).power.dozeTimer = s.power.dozeTimer
    ∧ (readReturns p ws s).power.restart = s.power.restart ∧ (readReturns p ws s).events.ledMs = s.events.ledMs := by cases p <;> simp only [readReturns] <;> (repeat' split) <;> simp

@[simp] theorem reportRequester_frame (req : Requester) (ws : List (Nat × LaneWord)) (b s : State) :
    (reportRequester req ws b s).pending = s.pending ∧ (reportRequester req ws b s).clock = s.clock
    ∧ (reportRequester req ws b s).draws = s.draws ∧ (reportRequester req ws b s).sram = s.sram ∧ (reportRequester req ws b s).pins = s.pins
    ∧ (reportRequester req ws b s).loader.phase = s.loader.phase ∧ (reportRequester req ws b s).loader.flashCode = s.loader.flashCode
    ∧ (reportRequester req ws b s).loader.map = s.loader.map ∧ (reportRequester req ws b s).loader.linkClock = s.loader.linkClock
    ∧ (reportRequester req ws b s).loader.defaultPolicy = s.loader.defaultPolicy
    ∧ (reportRequester req ws b s).loader.policy = s.loader.policy ∧ (reportRequester req ws b s).loader.firstHalf = s.loader.firstHalf
    ∧ (reportRequester req ws b s).loader.pgenAtIssue = s.loader.pgenAtIssue
    ∧ (reportRequester req ws b s).loader.softResetInForce = s.loader.softResetInForce
    ∧ (reportRequester req ws b s).loader.counterClearInForce = s.loader.counterClearInForce
    ∧ (reportRequester req ws b s).loader.shadowsLoaded = s.loader.shadowsLoaded
    ∧ (reportRequester req ws b s).loader.softReset = s.loader.softReset ∧ (reportRequester req ws b s).loader.softWait = s.loader.softWait
    ∧ (reportRequester req ws b s).loader.softPositions = s.loader.softPositions ∧ (reportRequester req ws b s).bus.shadows = s.bus.shadows
    ∧ (reportRequester req ws b s).bus.txHorizon = s.bus.txHorizon ∧ (reportRequester req ws b s).bus.rxHorizon = s.bus.rxHorizon
    ∧ (reportRequester req ws b s).bus.queue = s.bus.queue ∧ (reportRequester req ws b s).bus.waitCount = s.bus.waitCount
    ∧ (reportRequester req ws b s).bus.gatewayData = s.bus.gatewayData ∧ (reportRequester req ws b s).ring.delivery = s.ring.delivery
    ∧ (reportRequester req ws b s).ring.descriptorHeld = s.ring.descriptorHeld
    ∧ (reportRequester req ws b s).health.txReference = s.health.txReference
    ∧ (reportRequester req ws b s).health.timer100 = s.health.timer100 ∧ (reportRequester req ws b s).path.refallTimer = s.path.refallTimer
    ∧ (reportRequester req ws b s).path.refallOpen = s.path.refallOpen ∧ (reportRequester req ws b s).path.recorded = s.path.recorded
    ∧ (reportRequester req ws b s).hold.cells = s.hold.cells ∧ (reportRequester req ws b s).hold.uqE = s.hold.uqE
    ∧ (reportRequester req ws b s).hold.uqV = s.hold.uqV ∧ (reportRequester req ws b s).hold.uqD = s.hold.uqD
    ∧ (reportRequester req ws b s).hold.dqV = s.hold.dqV ∧ (reportRequester req ws b s).hold.dqD = s.hold.dqD
    ∧ (reportRequester req ws b s).hold.sweep10 = s.hold.sweep10 ∧ (reportRequester req ws b s).hold.sweep1s = s.hold.sweep1s
    ∧ (reportRequester req ws b s).pacer = s.pacer ∧ (reportRequester req ws b s).radio.failures = s.radio.failures
    ∧ (reportRequester req ws b s).radio.lastCause = s.radio.lastCause
    ∧ (reportRequester req ws b s).radio.silenceTimer = s.radio.silenceTimer ∧ (reportRequester req ws b s).radio.grantUp = s.radio.grantUp
    ∧ (reportRequester req ws b s).radio.grantDown = s.radio.grantDown
    ∧ (reportRequester req ws b s).radio.grantQuality = s.radio.grantQuality ∧ (reportRequester req ws b s).radio.slotA = s.radio.slotA
    ∧ (reportRequester req ws b s).radio.slotB = s.radio.slotB ∧ (reportRequester req ws b s).radio.unsent = s.radio.unsent
    ∧ (reportRequester req ws b s).radio.pauseTold = s.radio.pauseTold ∧ (reportRequester req ws b s).radio.capTold = s.radio.capTold
    ∧ (reportRequester req ws b s).radio.lowPowerTold = s.radio.lowPowerTold ∧ (reportRequester req ws b s).radio.ldoLast = s.radio.ldoLast
    ∧ (reportRequester req ws b s).power.mode = s.power.mode ∧ (reportRequester req ws b s).power.mainsReturn = s.power.mainsReturn
    ∧ (reportRequester req ws b s).events.evp = s.events.evp ∧ (reportRequester req ws b s).events.slotKinds = s.events.slotKinds
    ∧ (reportRequester req ws b s).events.refreshCount = s.events.refreshCount
    ∧ (reportRequester req ws b s).events.refreshTimer = s.events.refreshTimer
    ∧ (reportRequester req ws b s).events.pageWriting = s.events.pageWriting ∧ (reportRequester req ws b s).events.ledMs = s.events.ledMs := by
  have fold {γ : Type} (q : State → γ) (h : ∀ v s, q (sampleTxe v s) = q s) (s : State) (l : List Byte) :
      q (l.foldl (fun s v => sampleTxe v s) s) = q s := foldl_keeps q _ _ _ (fun s v => h v s)
  cases req with
  | o => simp [reportRequester]
  | p => simp only [reportRequester]; (repeat' split) <;> simp
  | u =>
    simp only [reportRequester]
    refine ⟨(fold (fun s => s.pending) (by simp) _ _).trans ?_,
      (fold (fun s => s.clock) (by simp) _ _).trans ?_,
      (fold (fun s => s.draws) (by simp) _ _).trans ?_,
      (fold (fun s => s.sram) (by simp) _ _).trans ?_,
      (fold (fun s => s.pins) (by simp) _ _).trans ?_,
      (fold (fun s => s.loader.phase) (by simp) _ _).trans ?_,
      (fold (fun s => s.loader.flashCode) (by simp) _ _).trans ?_,
      (fold (fun s => s.loader.map) (by simp) _ _).trans ?_,
      (fold (fun s => s.loader.linkClock) (by simp) _ _).trans ?_,
      (fold (fun s => s.loader.defaultPolicy) (by simp) _ _).trans ?_,
      (fold (fun s => s.loader.policy) (by simp) _ _).trans ?_,
      (fold (fun s => s.loader.firstHalf) (by simp) _ _).trans ?_,
      (fold (fun s => s.loader.pgenAtIssue) (by simp) _ _).trans ?_,
      (fold (fun s => s.loader.softResetInForce) (by simp) _ _).trans ?_,
      (fold (fun s => s.loader.counterClearInForce) (by simp) _ _).trans ?_,
      (fold (fun s => s.loader.shadowsLoaded) (by simp) _ _).trans ?_,
      (fold (fun s => s.loader.softReset) (by simp) _ _).trans ?_,
      (fold (fun s => s.loader.softWait) (by simp) _ _).trans ?_,
      (fold (fun s => s.loader.softPositions) (by simp) _ _).trans ?_,
      (fold (fun s => s.bus.shadows) (by simp) _ _).trans ?_,
      (fold (fun s => s.bus.txHorizon) (by simp) _ _).trans ?_,
      (fold (fun s => s.bus.rxHorizon) (by simp) _ _).trans ?_,
      (fold (fun s => s.bus.queue) (by simp) _ _).trans ?_,
      (fold (fun s => s.bus.waitCount) (by simp) _ _).trans ?_,
      (fold (fun s => s.bus.gatewayData) (by simp) _ _).trans ?_,
      (fold (fun s => s.ring.delivery) (by simp) _ _).trans ?_,
      (fold (fun s => s.ring.descriptorHeld) (by simp) _ _).trans ?_,
      (fold (fun s => s.health.txReference) (by simp) _ _).trans ?_,
      (fold (fun s => s.health.timer100) (by simp) _ _).trans ?_,
      (fold (fun s => s.path.refallTimer) (by simp) _ _).trans ?_,
      (fold (fun s => s.path.refallOpen) (by simp) _ _).trans ?_,
      (fold (fun s => s.path.recorded) (by simp) _ _).trans ?_,
      (fold (fun s => s.hold.cells) (by simp) _ _).trans ?_,
      (fold (fun s => s.hold.uqE) (by simp) _ _).trans ?_,
      (fold (fun s => s.hold.uqV) (by simp) _ _).trans ?_,
      (fold (fun s => s.hold.uqD) (by simp) _ _).trans ?_,
      (fold (fun s => s.hold.dqV) (by simp) _ _).trans ?_,
      (fold (fun s => s.hold.dqD) (by simp) _ _).trans ?_,
      (fold (fun s => s.hold.sweep10) (by simp) _ _).trans ?_,
      (fold (fun s => s.hold.sweep1s) (by simp) _ _).trans ?_,
      (fold (fun s => s.pacer) (by simp) _ _).trans ?_,
      (fold (fun s => s.radio.failures) (by simp) _ _).trans ?_,
      (fold (fun s => s.radio.lastCause) (by simp) _ _).trans ?_,
      (fold (fun s => s.radio.silenceTimer) (by simp) _ _).trans ?_,
      (fold (fun s => s.radio.grantUp) (by simp) _ _).trans ?_,
      (fold (fun s => s.radio.grantDown) (by simp) _ _).trans ?_,
      (fold (fun s => s.radio.grantQuality) (by simp) _ _).trans ?_,
      (fold (fun s => s.radio.slotA) (by simp) _ _).trans ?_,
      (fold (fun s => s.radio.slotB) (by simp) _ _).trans ?_,
      (fold (fun s => s.radio.unsent) (by simp) _ _).trans ?_,
      (fold (fun s => s.radio.pauseTold) (by simp) _ _).trans ?_,
      (fold (fun s => s.radio.capTold) (by simp) _ _).trans ?_,
      (fold (fun s => s.radio.lowPowerTold) (by simp) _ _).trans ?_,
      (fold (fun s => s.radio.ldoLast) (by simp) _ _).trans ?_,
      (fold (fun s => s.power.mode) (by simp) _ _).trans ?_,
      (fold (fun s => s.power.mainsReturn) (by simp) _ _).trans ?_,
      (fold (fun s => s.events.evp) (by simp) _ _).trans ?_,
      (fold (fun s => s.events.slotKinds) (by simp) _ _).trans ?_,
      (fold (fun s => s.events.refreshCount) (by simp) _ _).trans ?_,
      (fold (fun s => s.events.refreshTimer) (by simp) _ _).trans ?_,
      (fold (fun s => s.events.pageWriting) (by simp) _ _).trans ?_,
      (fold (fun s => s.events.ledMs) (by simp) _ _).trans ?_⟩ <;> split <;> simp

@[simp] theorem carryWrite_frame (req : Requester) (a : Addr) (words : List LaneWord) (s : State) :
    (carryWrite req a words s).pending = s.pending ∧ (carryWrite req a words s).clock = s.clock ∧ (carryWrite req a words s).draws = s.draws
    ∧ (carryWrite req a words s).pins = s.pins ∧ (carryWrite req a words s).loader.phase = s.loader.phase
    ∧ (carryWrite req a words s).loader.flashCode = s.loader.flashCode ∧ (carryWrite req a words s).loader.map = s.loader.map
    ∧ (carryWrite req a words s).loader.linkClock = s.loader.linkClock
    ∧ (carryWrite req a words s).loader.defaultPolicy = s.loader.defaultPolicy ∧ (carryWrite req a words s).loader.policy = s.loader.policy
    ∧ (carryWrite req a words s).loader.firstHalf = s.loader.firstHalf
    ∧ (carryWrite req a words s).loader.pgenAtIssue = s.loader.pgenAtIssue
    ∧ (carryWrite req a words s).loader.softResetInForce = s.loader.softResetInForce
    ∧ (carryWrite req a words s).loader.counterClearInForce = s.loader.counterClearInForce
    ∧ (carryWrite req a words s).loader.shadowsLoaded = s.loader.shadowsLoaded
    ∧ (carryWrite req a words s).loader.softReset = s.loader.softReset ∧ (carryWrite req a words s).loader.softWait = s.loader.softWait
    ∧ (carryWrite req a words s).loader.softPositions = s.loader.softPositions ∧ (carryWrite req a words s).bus.txHorizon = s.bus.txHorizon
    ∧ (carryWrite req a words s).bus.rxHorizon = s.bus.rxHorizon ∧ (carryWrite req a words s).bus.queue = s.bus.queue
    ∧ (carryWrite req a words s).bus.waitCount = s.bus.waitCount ∧ (carryWrite req a words s).bus.gatewayData = s.bus.gatewayData
    ∧ (carryWrite req a words s).ring.delivery = s.ring.delivery ∧ (carryWrite req a words s).ring.descriptorHeld = s.ring.descriptorHeld
    ∧ (carryWrite req a words s).health.txReference = s.health.txReference ∧ (carryWrite req a words s).health.timer100 = s.health.timer100
    ∧ (carryWrite req a words s).path.refallTimer = s.path.refallTimer ∧ (carryWrite req a words s).path.refallOpen = s.path.refallOpen
    ∧ (carryWrite req a words s).path.recorded = s.path.recorded ∧ (carryWrite req a words s).hold.cells = s.hold.cells
    ∧ (carryWrite req a words s).hold.uqE = s.hold.uqE ∧ (carryWrite req a words s).hold.uqV = s.hold.uqV
    ∧ (carryWrite req a words s).hold.uqD = s.hold.uqD ∧ (carryWrite req a words s).hold.dqV = s.hold.dqV
    ∧ (carryWrite req a words s).hold.dqD = s.hold.dqD ∧ (carryWrite req a words s).hold.sweep10 = s.hold.sweep10
    ∧ (carryWrite req a words s).hold.sweep1s = s.hold.sweep1s ∧ (carryWrite req a words s).pacer = s.pacer
    ∧ (carryWrite req a words s).radio.failures = s.radio.failures ∧ (carryWrite req a words s).radio.lastCause = s.radio.lastCause
    ∧ (carryWrite req a words s).radio.silenceTimer = s.radio.silenceTimer ∧ (carryWrite req a words s).radio.grantUp = s.radio.grantUp
    ∧ (carryWrite req a words s).radio.grantDown = s.radio.grantDown ∧ (carryWrite req a words s).radio.grantQuality = s.radio.grantQuality
    ∧ (carryWrite req a words s).radio.slotA = s.radio.slotA ∧ (carryWrite req a words s).radio.slotB = s.radio.slotB
    ∧ (carryWrite req a words s).radio.unsent = s.radio.unsent ∧ (carryWrite req a words s).radio.pauseTold = s.radio.pauseTold
    ∧ (carryWrite req a words s).radio.capTold = s.radio.capTold ∧ (carryWrite req a words s).radio.lowPowerTold = s.radio.lowPowerTold
    ∧ (carryWrite req a words s).radio.ldoLast = s.radio.ldoLast ∧ (carryWrite req a words s).power.mode = s.power.mode
    ∧ (carryWrite req a words s).power.mainsReturn = s.power.mainsReturn ∧ (carryWrite req a words s).events.evp = s.events.evp
    ∧ (carryWrite req a words s).events.slotKinds = s.events.slotKinds
    ∧ (carryWrite req a words s).events.refreshCount = s.events.refreshCount
    ∧ (carryWrite req a words s).events.refreshTimer = s.events.refreshTimer
    ∧ (carryWrite req a words s).events.pageWriting = s.events.pageWriting ∧ (carryWrite req a words s).events.ledMs = s.events.ledMs := by simp [carryWrite]

@[simp] theorem carryMaster_frame (t : MasterTransfer) (s : State) :
    (carryMaster t s).pending = s.pending ∧ (carryMaster t s).clock = s.clock ∧ (carryMaster t s).draws = s.draws
    ∧ (carryMaster t s).pins = s.pins ∧ (carryMaster t s).loader.phase = s.loader.phase
    ∧ (carryMaster t s).loader.flashCode = s.loader.flashCode ∧ (carryMaster t s).loader.map = s.loader.map
    ∧ (carryMaster t s).loader.linkClock = s.loader.linkClock ∧ (carryMaster t s).loader.defaultPolicy = s.loader.defaultPolicy
    ∧ (carryMaster t s).loader.pgenAtIssue = s.loader.pgenAtIssue ∧ (carryMaster t s).bus.queue = s.bus.queue
    ∧ (carryMaster t s).bus.waitCount = s.bus.waitCount ∧ (carryMaster t s).bus.gatewayData = s.bus.gatewayData
    ∧ (carryMaster t s).path.recorded = s.path.recorded ∧ (carryMaster t s).radio.pauseTold = s.radio.pauseTold
    ∧ (carryMaster t s).radio.capTold = s.radio.capTold ∧ (carryMaster t s).radio.lowPowerTold = s.radio.lowPowerTold
    ∧ (carryMaster t s).radio.ldoLast = s.radio.ldoLast ∧ (carryMaster t s).power.mode = s.power.mode
    ∧ (carryMaster t s).power.mainsReturn = s.power.mainsReturn ∧ (carryMaster t s).power.dozeTimer = s.power.dozeTimer
    ∧ (carryMaster t s).power.restart = s.power.restart ∧ (carryMaster t s).events.ledMs = s.events.ledMs := by unfold carryMaster; split <;> simp

@[simp] theorem carryHead_frame (s : State) :
    (carryHead s).pending = s.pending ∧ (carryHead s).clock = s.clock ∧ (carryHead s).draws = s.draws ∧ (carryHead s).pins = s.pins
    ∧ (carryHead s).loader.phase = s.loader.phase ∧ (carryHead s).loader.flashCode = s.loader.flashCode
    ∧ (carryHead s).loader.map = s.loader.map ∧ (carryHead s).loader.linkClock = s.loader.linkClock
    ∧ (carryHead s).loader.defaultPolicy = s.loader.defaultPolicy ∧ (carryHead s).bus.gatewayData = s.bus.gatewayData
    ∧ (carryHead s).path.recorded = s.path.recorded ∧ (carryHead s).radio.pauseTold = s.radio.pauseTold
    ∧ (carryHead s).radio.capTold = s.radio.capTold ∧ (carryHead s).radio.lowPowerTold = s.radio.lowPowerTold
    ∧ (carryHead s).radio.ldoLast = s.radio.ldoLast ∧ (carryHead s).power.mode = s.power.mode
    ∧ (carryHead s).power.mainsReturn = s.power.mainsReturn ∧ (carryHead s).power.dozeTimer = s.power.dozeTimer
    ∧ (carryHead s).power.restart = s.power.restart ∧ (carryHead s).events.ledMs = s.events.ledMs := by unfold carryHead; split <;> simp

@[simp] theorem masterFirst_frame (s : State) :
    (masterFirst s).pending = s.pending ∧ (masterFirst s).clock = s.clock ∧ (masterFirst s).draws = s.draws ∧ (masterFirst s).pins = s.pins
    ∧ (masterFirst s).loader.phase = s.loader.phase ∧ (masterFirst s).loader.flashCode = s.loader.flashCode
    ∧ (masterFirst s).loader.map = s.loader.map ∧ (masterFirst s).loader.linkClock = s.loader.linkClock
    ∧ (masterFirst s).loader.defaultPolicy = s.loader.defaultPolicy ∧ (masterFirst s).bus.gatewayData = s.bus.gatewayData
    ∧ (masterFirst s).path.recorded = s.path.recorded ∧ (masterFirst s).radio.pauseTold = s.radio.pauseTold
    ∧ (masterFirst s).radio.capTold = s.radio.capTold ∧ (masterFirst s).radio.lowPowerTold = s.radio.lowPowerTold
    ∧ (masterFirst s).radio.ldoLast = s.radio.ldoLast ∧ (masterFirst s).power.mode = s.power.mode
    ∧ (masterFirst s).power.mainsReturn = s.power.mainsReturn ∧ (masterFirst s).power.dozeTimer = s.power.dozeTimer
    ∧ (masterFirst s).power.restart = s.power.restart ∧ (masterFirst s).events.ledMs = s.events.ledMs := by unfold masterFirst; split <;> simp

@[simp] theorem gatewayTransfer_frame (req : Requester) (x : Transfer) (s : State) :
    (gatewayTransfer req x s).pending = s.pending ∧ (gatewayTransfer req x s).clock = s.clock ∧ (gatewayTransfer req x s).draws = s.draws
    ∧ (gatewayTransfer req x s).pins = s.pins ∧ (gatewayTransfer req x s).loader.phase = s.loader.phase
    ∧ (gatewayTransfer req x s).loader.flashCode = s.loader.flashCode ∧ (gatewayTransfer req x s).loader.map = s.loader.map
    ∧ (gatewayTransfer req x s).loader.linkClock = s.loader.linkClock
    ∧ (gatewayTransfer req x s).loader.defaultPolicy = s.loader.defaultPolicy ∧ (gatewayTransfer req x s).path.recorded = s.path.recorded
    ∧ (gatewayTransfer req x s).radio.pauseTold = s.radio.pauseTold ∧ (gatewayTransfer req x s).radio.capTold = s.radio.capTold
    ∧ (gatewayTransfer req x s).radio.lowPowerTold = s.radio.lowPowerTold ∧ (gatewayTransfer req x s).radio.ldoLast = s.radio.ldoLast
    ∧ (gatewayTransfer req x s).power.mode = s.power.mode ∧ (gatewayTransfer req x s).power.mainsReturn = s.power.mainsReturn
    ∧ (gatewayTransfer req x s).events.ledMs = s.events.ledMs := by cases x <;> simp [gatewayTransfer]

end Sys2Proof.Machine
end

