-- ==== Sys2Proof/Laws/Layouts.lean ====
section
/-! SUPPORT. The readers and writers of 11.4's layouts agree with the tables as Safety.lean writes them out: one lemma for each of
the image, the policy block, the event record and the transmit descriptor, which later proofs cite in place of unfolding them. -/

-- One theorem at a time: the threads of many at once would not fit the memory a check has.
set_option Elab.async false

namespace Sys2Proof.Machine

/-! ### Bytes -/

theorem slice_getD (bs : List Byte) (off n i : Nat) : (slice bs off n).getD i 0 = if i < n then bs.getD (off + i) 0 else 0 := by
  unfold slice
  split <;> rename_i h <;> simp [List.getD, h]

theorem slice_zero (bs : List Byte) (off n : Nat) : slice bs off (n + 1) = bs.getD off 0 :: slice bs (off + 1) n := by
  simp [slice, List.range_succ_eq_map, Nat.add_comm, Nat.add_left_comm]

theorem field_zero (bs : List Byte) (off : Nat) : field bs off 0 = 0 := rfl

theorem field_succ (bs : List Byte) (off n : Nat) : field bs off (n + 1) = byteIn bs off + 256 * field bs (off + 1) n := by
  simp [field, slice_zero, ofLe, byteIn]

theorem field_one (bs : List Byte) (off : Nat) : field bs off 1 = byteIn bs off := by
  simp [field_succ, field_zero]

theorem field_two (bs : List Byte) (off : Nat) : field bs off 2 = pairIn bs off := by
  simp [field_succ, field_zero, pairIn]

theorem field_three (bs : List Byte) (off : Nat) : field bs off 3 = pairIn bs off + 65536 * byteIn bs (off + 2) := by
  simp only [field_succ, field_zero, pairIn, Nat.add_assoc, Nat.reduceAdd]
  omega

theorem field_four (bs : List Byte) (off : Nat) : field bs off 4 = quadIn bs off := by
  simp only [field_succ, field_zero, quadIn, pairIn, Nat.add_assoc, Nat.reduceAdd]
  omega

theorem byteIn_lt (bs : List Byte) (i : Nat) : byteIn bs i < 256 := (bs.getD i 0).isLt

theorem byteIn_slice (bs : List Byte) (off n i : Nat) : byteIn (slice bs off n) i = if i < n then byteIn bs (off + i) else 0 := by
  unfold byteIn
  rw [slice_getD]
  split <;> rfl

theorem pairIn_lt (bs : List Byte) (i : Nat) : pairIn bs i < 65536 := by
  have := byteIn_lt bs i
  have := byteIn_lt bs (i + 1)
  unfold pairIn
  omega

theorem quadIn_lt (bs : List Byte) (i : Nat) : quadIn bs i < 4294967296 := by
  have := pairIn_lt bs i
  have := pairIn_lt bs (i + 2)
  unfold quadIn
  omega

/-! ### The policy block -/

theorem clampTo_eq_limited {lo hi : Nat} (h : lo ≤ hi) (v : Nat) : clampTo lo hi v = limited lo hi v := by
  unfold clampTo limited
  split <;> (try split) <;> omega

/-- The value of a field of the block, by its row of the ranges. -/
theorem policyValue_of {off : Nat} {r : FieldRange} (h : policyRanges.find? (fun r => r.off == off) = some r) (hl : r.lo ≤ r.hi)
    (bs : List Byte) : policyValue bs off = limited r.lo r.hi (field bs r.off r.len) := by
  simp only [policyValue, h, fieldValue, clampTo_eq_limited hl]

/-- The parameters of an attribute are the four bytes of its place, limited (R28). -/
theorem paramsAt_eq (bs : List Byte) {off : Nat} (h : off ∈ [8, 12, 16, 20]) : paramsAt bs off = blockParams bs off := by
  fin_cases h <;>
    (unfold paramsAt
     rw [policyValue_of rfl (by decide), policyValue_of rfl (by decide), policyValue_of rfl (by decide), policyValue_of rfl (by decide)]
     simp only [field_one, blockParams])

theorem limited_free {hi v : Nat} (h : v ≤ hi) : limited 0 hi v = v := by unfold limited; omega

/-- A block read is the policy that the tables of 11.4 and R163 give it. -/
theorem policyOf_eq (bs : List Byte) : policyOf bs = blockPolicy bs 0 := by
  have code (v : Nat) : overrideOf (limited 0 2 v) = if v = 0 then .automatic else if v = 1 then .fibreOnly else .radioNow := by
    unfold overrideOf limited
    split <;> split <;> (try split) <;> (try split) <;> first | rfl | omega
  have warm (v : Nat) : (limited 0 1 v != 0) = (v != 0) := by
    unfold limited
    rw [Bool.eq_iff_iff, bne_iff_ne, bne_iff_ne]
    omega
  have h34 := byteIn_lt bs 34
  have h40 := pairIn_lt bs 40
  have h44 := quadIn_lt bs 44
  unfold policyOf
  rw [paramsAt_eq bs (by decide), paramsAt_eq bs (by decide), paramsAt_eq bs (by decide), paramsAt_eq bs (by decide)]
  simp only [policyValue_of (off := 0) rfl (by decide),
    policyValue_of (off := 2) rfl (by decide),
    policyValue_of (off := 3) rfl (by decide),
    policyValue_of (off := 4) rfl (by decide),
    policyValue_of (off := 24) rfl (by decide),
    policyValue_of (off := 26) rfl (by decide),
    policyValue_of (off := 27) rfl (by decide),
    policyValue_of (off := 28) rfl (by decide),
    policyValue_of (off := 29) rfl (by decide),
    policyValue_of (off := 30) rfl (by decide),
    policyValue_of (off := 31) rfl (by decide),
    policyValue_of (off := 32) rfl (by decide),
    policyValue_of (off := 34) rfl (by decide),
    policyValue_of (off := 35) rfl (by decide),
    policyValue_of (off := 36) rfl (by decide),
    policyValue_of (off := 38) rfl (by decide),
    policyValue_of (off := 40) rfl (by decide),
    policyValue_of (off := 42) rfl (by decide),
    policyValue_of (off := 44) rfl (by decide),
    policyValue_of (off := 48) rfl (by decide),
    policyValue_of (off := 50) rfl (by decide),
    policyValue_of (off := 51) rfl (by decide),
    field_one, field_two, field_four, code, warm, limited_free (Nat.le_of_lt_succ h34), limited_free (Nat.le_of_lt_succ h40),
    limited_free (Nat.le_of_lt_succ h44)]
  rfl

/-- The count of clamped fields is that of the tables (R163, R79). -/
theorem clampedCount_eq (bs : List Byte) : clampedCount bs = clampedFields bs := by
  have h34 : decide (255 < byteIn bs 34) = false := by have := byteIn_lt bs 34; simp; omega
  have h40 : decide (65535 < pairIn bs 40) = false := by have := pairIn_lt bs 40; simp; omega
  have h44 : decide (4294967295 < quadIn bs 44) = false := by have := quadIn_lt bs 44; simp; omega
  unfold clampedCount clampedFields
  rw [← List.countP_eq_length_filter, ← List.countP_eq_length_filter, policyValue_of (off := 30) rfl (by decide),
    policyValue_of (off := 31) rfl (by decide), field_one, field_one]
  simp only [policyRanges, rangedFields, List.flatMap_cons, List.flatMap_nil, List.cons_append, List.nil_append, List.append_nil,
    List.countP_cons, List.countP_nil, fieldOutside, field_one, field_two, field_four, Nat.not_lt_zero, decide_false, Bool.false_or, h34, h40,
    h44, Bool.false_eq_true, if_false, Nat.add_zero, Nat.reduceAdd]

/-- The two control requests are bits 0 and 1 of byte 5 (11.4). -/
theorem asksSoftReset_eq (bs : List Byte) : asksSoftReset bs = softResetAsked bs := by
  simp [asksSoftReset, softResetAsked, byteIn, BitVec.getLsbD, Nat.testBit_eq_decide_div_mod_eq]
  rfl

theorem asksCounterClear_eq (bs : List Byte) : asksCounterClear bs = counterClearAsked bs := by
  simp [asksCounterClear, counterClearAsked, byteIn, BitVec.getLsbD, Nat.testBit_eq_decide_div_mod_eq]
  rfl

/-! ### The configuration image -/

/-- The map of an image (11.4). -/
theorem mapOf_eq (img : List Byte) : mapOf img = imageMap img := by
  simp only [mapOf, imageMap, field_one, field_two, field_four]

/-- The default policy of an image is the block at byte 128 (11.4). -/
theorem imagePolicy_eq (img : List Byte) : policyOf (imagePolicy img) = blockPolicy img 128 := by
  rw [policyOf_eq]
  simp [blockPolicy, blockParams, imagePolicy, quadIn, pairIn, byteIn_slice]

theorem check1_iff (k : Bool) (img : List Byte) : check1Fails k img = true ↔ ImageFails k img 1 := by
  simp [check1Fails, ImageFails, field_two, or_assoc]

theorem check2_iff (k : Bool) (img : List Byte) : check2Fails (mapOf img) = true ↔ ImageFails k img 2 := by
  have mem (l : List Nat) (n : Nat) : (!l.any fun k => k == n) = true ↔ n ∉ l := by
    rw [Bool.not_eq_true', List.any_eq_false]
    exact ⟨fun h hn => h n hn (beq_self_eq_true n), fun h x hx e => h (eq_of_beq e ▸ hx)⟩
  simp only [check2Fails, ringSizeOk, eventSizeOk, Bool.or_eq_true, mem, mapOf_eq, imageMap, ImageFails, or_assoc]

theorem check3_iff (k : Bool) (img : List Byte) : check3Fails (mapOf img) = true ↔ ImageFails k img 3 := by
  have wrap (a : Nat) : wrapAddr a % 4 = a % 4 := by unfold wrapAddr Config.memoryBytes; omega
  simp [check3Fails, watchedAddrs, mapOf_eq, imageMap, ImageFails, wrap]

theorem check6_iff (k : Bool) (img : List Byte) : check6Fails img = true ↔ ImageFails k img 6 := by
  simp [check6Fails, ImageFails, field_one]

theorem regionsOf_eq (img : List Byte) : regionsOf (mapOf img) = imageRegions img := by
  simp only [regionsOf, mapOf_eq, imageMap, imageRegions]

theorem watchedAddrs_eq (img : List Byte) : watchedAddrs (mapOf img) = imageWords img := by
  simp only [watchedAddrs, mapOf_eq, imageMap, imageWords, List.map_cons, List.map_nil, wrapAddr, Config.memoryBytes]

/-- Two regions that are not empty meet when they share a byte. -/
theorem regionsMeet_iff {a b : Nat × Nat} (ha : 0 < a.2) (hb : 0 < b.2) :
    regionsMeet a b = true ↔ ∃ x, inRegion x a ∧ inRegion x b := by
  simp only [regionsMeet, inRegion, Bool.and_eq_true, decide_eq_true_eq]
  constructor
  · intro h
    exact ⟨max a.1 b.1, by omega⟩
  · rintro ⟨x, h⟩
    omega

theorem anyMeet_iff {rs : List (Nat × Nat)} (h : ∀ r ∈ rs, 0 < r.2) :
    anyMeet rs = true ↔ ¬ rs.Pairwise fun a b => ∀ x, ¬ (inRegion x a ∧ inRegion x b) := by
  induction rs with
  | nil => simp [anyMeet]
  | cons r rs ih =>
    have hr := h r (List.mem_cons_self ..)
    have hs := fun q hq => h q (List.mem_cons_of_mem _ hq)
    have one : rs.any (regionsMeet r) = true ↔ ∃ q ∈ rs, ∃ x, inRegion x r ∧ inRegion x q := by
      rw [List.any_eq_true]
      exact exists_congr fun q => and_congr_right fun hq => regionsMeet_iff hr (hs q hq)
    rw [anyMeet, Bool.or_eq_true, one, ih hs, List.pairwise_cons]
    simp only [not_and_or (a := ∀ _ ∈ rs, _), not_forall, not_not, exists_prop]

theorem anyEqual_iff (l : List Nat) : anyEqual l = true ↔ ¬ l.Nodup := by
  induction l with
  | nil => simp [anyEqual]
  | cons a l ih =>
    rw [anyEqual, Bool.or_eq_true, ih, List.nodup_cons]
    simp only [List.any_eq_true, beq_iff_eq, exists_eq_right]
    tauto

theorem check4_iff {k : Bool} {img : List Byte} (h : ¬ ImageFails k img 2) : check4Fails (mapOf img) = true ↔ ImageFails k img 4 := by
  have pos : ∀ r ∈ imageRegions img, 0 < r.2 := by
    simp only [ImageFails, not_or, not_not] at h
    obtain ⟨ht, hr, he⟩ := h
    have small : ∀ n : Nat, n ∈ [16, 32, 64, 128, 256, 512, 1024] ∨ n ∈ [8, 16, 32, 64] → 0 < 16 * n := by
      intro n hn
      simp at hn
      omega
    simp only [imageRegions, List.forall_mem_cons]
    exact ⟨small _ (.inl ht), small _ (.inl hr), small _ (.inr he), by decide, by decide, nofun⟩
  rw [check4Fails, Bool.or_eq_true, regionsOf_eq, anyMeet_iff pos]
  simp only [ImageFails, List.any_eq_true, decide_eq_true_eq]
  exact Iff.rfl

theorem check5_iff (k : Bool) (img : List Byte) : check5Fails (mapOf img) = true ↔ ImageFails k img 5 := by
  rw [check5Fails, Bool.or_eq_true, watchedAddrs_eq, regionsOf_eq, anyEqual_iff]
  simp [ImageFails, inRegion]

/-- The number of the first check that fails is the flash code (R173). -/
theorem judgeImage_of_first {k : Bool} {img : List Byte} {n : Nat} (h : ImageFails k img n) (first : ∀ i < n, ¬ ImageFails k img i) :
    judgeImage k false img = n := by
  have off {c : Bool} {i : Nat} (e : c = true ↔ ImageFails k img i) (hi : i < n) : c = false :=
    Bool.eq_false_iff.mpr fun t => first i hi (e.1 t)
  match n with
  | 0 => exact h.elim
  | 1 => simp [judgeImage, (check1_iff k img).2 h]
  | 2 => simp [judgeImage, off (check1_iff k img) (by omega), (check2_iff k img).2 h]
  | 3 => simp [judgeImage, off (check1_iff k img) (by omega), off (check2_iff k img) (by omega), (check3_iff k img).2 h]
  | 4 =>
    simp [judgeImage, off (check1_iff k img) (by omega), off (check2_iff k img) (by omega), off (check3_iff k img) (by omega),
      (check4_iff (first 2 (by omega))).2 h]
  | 5 =>
    simp [judgeImage, off (check1_iff k img) (by omega), off (check2_iff k img) (by omega), off (check3_iff k img) (by omega),
      off (check4_iff (first 2 (by omega))) (by omega), (check5_iff k img).2 h]
  | 6 =>
    simp [judgeImage, off (check1_iff k img) (by omega), off (check2_iff k img) (by omega), off (check3_iff k img) (by omega),
      off (check4_iff (first 2 (by omega))) (by omega), off (check5_iff k img) (by omega), (check6_iff k img).2 h]
  | n + 7 => exact h.elim

/-- An image that fails no check is valid (R173). -/
theorem judgeImage_of_valid {k : Bool} {img : List Byte} (h : ∀ n, ¬ ImageFails k img n) : judgeImage k false img = 0 := by
  have off {c : Bool} {i : Nat} (e : c = true ↔ ImageFails k img i) : c = false := Bool.eq_false_iff.mpr fun t => h i (e.1 t)
  simp [judgeImage, off (check1_iff k img), off (check2_iff k img), off (check3_iff k img), off (check4_iff (h 2)), off (check5_iff k img),
    off (check6_iff k img)]

/-- A flash code other than 0 names the first check that fails; code 0 says that none does (R173). -/
theorem imageFails_of_judgeImage {k : Bool} {img : List Byte} {n : Nat} (h : judgeImage k false img = n) :
    (n ≠ 0 → ImageFails k img n ∧ ∀ i < n, ¬ ImageFails k img i) ∧ (n = 0 → ∀ i, ¬ ImageFails k img i) := by
  classical
  by_cases some : ∃ i, ImageFails k img i
  · have code := judgeImage_of_first (Nat.find_spec some) fun i hi => Nat.find_min some hi
    have e : n = Nat.find some := h.symm.trans code
    subst e
    exact ⟨fun _ => ⟨Nat.find_spec some, fun i hi => Nat.find_min some hi⟩, fun z => ((z ▸ Nat.find_spec some : ImageFails k img 0)).elim⟩
  · have none : ∀ i, ¬ ImageFails k img i := fun i hi => some ⟨i, hi⟩
    exact ⟨fun hn => absurd (h.symm.trans (judgeImage_of_valid none)) hn, fun _ => none⟩

/-! ### The event record -/

/-- The number of a kind is its priority (R167). -/
theorem kindPriority_eq (d : EventDetail) : kindPriority (detailKind d) = eventNumber d := by
  cases d <;> rfl

theorem pathCode_eq (p : PathState) : pathCode p = BitVec.ofNat 8 (pathNumber p) := by cases p <;> rfl

theorem pathCauseCode_eq (c : PathCause) : pathCauseCode c = BitVec.ofNat 8 (pathCauseNumber c) := by cases c <;> rfl

theorem radioCode_eq (r : RadioState) : radioCode r = BitVec.ofNat 8 (radioNumber r) := by cases r <;> rfl

theorem powerCode_eq (m : PowerMode) : powerCode m = BitVec.ofNat 8 (powerNumber m) := by cases m <;> rfl

theorem allowanceCode_eq (a : Allowance) : allowanceCode a = BitVec.ofNat 8 (allowanceNumber a) := by cases a <;> rfl

theorem leBytes_two (v : Nat) : leBytes 2 v = [BitVec.ofNat 8 v, BitVec.ofNat 8 (v / 256)] := by
  simp [leBytes, List.range_succ]

theorem leBytes_four (v : Nat) :
    leBytes 4 v = [BitVec.ofNat 8 v, BitVec.ofNat 8 (v / 256), BitVec.ofNat 8 (v / 65536), BitVec.ofNat 8 (v / 16777216)] := by
  simp [leBytes, List.range_succ]

/-- Eight detail bytes from the numbers listed, zero where none is. -/
def octetBytes (ns : List Nat) : List Byte := (List.range 8).map fun i => BitVec.ofNat 8 (ns.getD i 0)

theorem lossBytes_eq (l : LossDetail) : lossBytes l = octetBytes (lossOctets l) := by
  obtain ⟨r, d, c, p, a⟩ := l
  simp only [lossBytes, leBytes_two]
  cases r <;> cases d <;> cases c <;> rfl

/-- The detail bytes of each kind (11.4, Event record). -/
theorem detailBytes_eq (d : EventDetail) : detailBytes d = octetBytes (detailOctets d) := by
  cases d with
  | emergencyAttach n c => rfl
  | pathChange l e c => simp only [detailBytes, pathCode_eq, pathCauseCode_eq]; rfl
  | radioUnavailable c n => rfl
  | fibreVerdict v a sig txp rxa txe =>
    rcases v with _ | _ <;> rcases a with _ | (_ | _ | _ | _) <;> rfl
  | allowance l e c u => simp only [detailBytes, allowanceCode_eq, leBytes_four]; cases c <;> rfl
  | voiceLoss l => exact lossBytes_eq l
  | dataLoss l => exact lossBytes_eq l
  | staleUplinkWrite r a =>
    have top : BitVec.ofNat 8 (a.toNat / 16777216) = 0 := by rw [Nat.div_eq_of_lt a.isLt]; rfl
    simp only [detailBytes, leBytes_four, top]
    cases r <;> rfl
  | producerOverrun r c =>
    have high (n : Nat) (h : 65536 ≤ n) : BitVec.ofNat 8 (c.toNat / n) = 0 := by
      rw [Nat.div_eq_of_lt (Nat.lt_of_lt_of_le c.isLt h)]; rfl
    simp only [detailBytes, leBytes_four, high 65536 (by decide), high 16777216 (by decide)]
    cases r <;> rfl
  | powerMode l e c =>
    have left : BitVec.ofNat 8 l.toNat = l := by simp
    simp only [detailBytes, powerCode_eq]
    cases c <;> exact congrArg (· :: _) left.symm
  | policyApplied n p => simp only [detailBytes, leBytes_four]; rfl
  | softResetDone u d p => simp only [detailBytes, leBytes_two]; rfl

theorem fourBytes_eq (n0 n1 n2 n3 : Nat) :
    fourBytes n0 n1 n2 n3 = ⟨wordOf [BitVec.ofNat 8 n0, BitVec.ofNat 8 n1, BitVec.ofNat 8 n2, BitVec.ofNat 8 n3], 15⟩ := by
  have value : field [BitVec.ofNat 8 n0, BitVec.ofNat 8 n1, BitVec.ofNat 8 n2, BitVec.ofNat 8 n3] 0 4
      = n0 % 256 + 256 * (n1 % 256) + 65536 * (n2 % 256) + 16777216 * (n3 % 256) := by
    simp [field_four, quadIn, pairIn, byteIn]
    omega
  rw [fourBytes, wordOf, value]

theorem wordOf_leBytes (w : Word) : wordOf (leBytes 4 w.toNat) = w := by
  have := w.isLt
  apply BitVec.eq_of_toNat_eq
  rw [leBytes_four]
  simp [wordOf, field_four, quadIn, pairIn, byteIn]
  omega

/-- The words of an event record (11.4). -/
theorem recordBytes_eq (e : EventEntry) : wordsOf (recordBytes e) = eventRecord e := by
  have words (b0 b1 b2 b3 b4 b5 b6 b7 b8 b9 b10 b11 b12 b13 b14 b15 : Byte) :
      wordsOf [b0, b1, b2, b3, b4, b5, b6, b7, b8, b9, b10, b11, b12, b13, b14, b15]
        = [⟨wordOf [b0, b1, b2, b3], 15⟩, ⟨wordOf [b4, b5, b6, b7], 15⟩, ⟨wordOf [b8, b9, b10, b11], 15⟩,
          ⟨wordOf [b12, b13, b14, b15], 15⟩] := by
    have four : [b0, b1, b2, b3, b4, b5, b6, b7, b8, b9, b10, b11, b12, b13, b14, b15].length / 4 = 4 := by
      simp only [List.length_cons, List.length_nil, Nat.reduceAdd, Nat.reduceDiv]
    rw [wordsOf, four]
    rfl
  have stamp : (⟨e.stamp, 15⟩ : LaneWord) = ⟨wordOf (leBytes 4 e.stamp.toNat), 15⟩ := by rw [wordOf_leBytes]
  simp only [eventRecord, fourBytes_eq, recordBytes, detailBytes_eq, kindPriority_eq, stamp, leBytes_four]
  exact words ..

/-! ### Reads of packet memory -/

/-- The four bytes of a word of packet memory. -/
theorem memWord_bytes (m : Memory) (x : Nat) :
    [wordByte (memWord m x) 0, wordByte (memWord m x) 1, wordByte (memWord m x) 2, wordByte (memWord m x) 3]
      = [memRead m x, memRead m (x + 1), memRead m (x + 2), memRead m (x + 3)] := by
  have word : memWord m x = wordOf [memRead m x, memRead m (x + 1), memRead m (x + 2), memRead m (x + 3)] := by
    simp [memWord, List.range_succ]
  rw [word]
  generalize memRead m x = b0
  generalize memRead m (x + 1) = b1
  generalize memRead m (x + 2) = b2
  generalize memRead m (x + 3) = b3
  have := b0.isLt
  have := b1.isLt
  have := b2.isLt
  have := b3.isLt
  simp only [List.cons.injEq, and_true]
  refine ⟨?_, ?_, ?_, ?_⟩ <;>
    (apply BitVec.eq_of_toNat_eq
     simp [wordByte, wordOf, field_four, quadIn, pairIn, byteIn]
     omega)

/-- The bytes of a master read are those of packet memory from the aligned word on (log 9, log 22). -/
theorem bytesOf_memReadWords (m : Memory) (a : Addr) (n : Nat) : bytesOf (memReadWords m a n) = bytesRead m a (4 * n) := by
  induction n with
  | zero => rfl
  | succ n ih =>
    have place (j : Nat) (h : j < 4) :
        wrapAddr (a.toNat / 4 * 4 + 4 * n) + j = (a.toNat / 4 * 4 + (4 * n + j)) % 16777216 := by
      simp only [wrapAddr, Config.memoryBytes]
      omega
    have last := memWord_bytes m (wrapAddr (a.toNat / 4 * 4 + 4 * n))
    rw [place 1 (by omega), place 2 (by omega), place 3 (by omega), show wrapAddr _ = _ from place 0 (by omega)] at last
    have words : memReadWords m a (n + 1) = memReadWords m a n ++ [memWord m (wrapAddr (a.toNat / 4 * 4 + 4 * n))] := by
      simp [memReadWords, wordAddrs, List.range_succ]
    have bytes : bytesRead m a (4 * (n + 1)) = bytesRead m a (4 * n) ++ (List.range 4).map fun j =>
        memRead m ((a.toNat / 4 * 4 + (4 * n + j)) % 16777216) := by
      simp [bytesRead, Nat.mul_succ, List.range_add, Function.comp_def]
    rw [words, bytes, bytesOf, List.flatMap_append, ← bytesOf, ih]
    exact congrArg (bytesRead m a (4 * n) ++ ·) last

/-- The window entry of a transmit descriptor that stands at byte `k` (11.4, Transmit descriptor). -/
theorem entryOf_layout (pos : Count) (bs : List Byte) (k : Nat) :
    (entryOf pos (slice bs k 16)).cls = bs.getD (k + 6) 0 ∧ (entryOf pos (slice bs k 16)).length = pairIn bs (k + 4)
      ∧ (entryOf pos (slice bs k 16)).addr = BitVec.ofNat 24 (quadIn bs k) := by
  refine ⟨slice_getD bs k 16 6, by simp [entryOf, field_two, pairIn, byteIn_slice, Nat.add_assoc], ?_⟩
  apply BitVec.eq_of_toNat_eq
  simp [entryOf, addrOf, field_three, quadIn, pairIn, byteIn_slice]
  omega

/-- The entries of a read of whole descriptors hold the fields that stand in packet memory (R44, R51). -/
theorem readEntries_layout (m : Memory) (a : Addr) (len : BurstLen) (first : Count) {n i : Nat} (hn : burstWords len = 4 * n) (hi : i < n) :
    ∃ e ∈ readEntries first n (memReadWords m a (burstWords len)), e.pos = advance first i
      ∧ e.cls = (bytesRead m a (16 * n)).getD (16 * i + 6) 0 ∧ e.length = pairIn (bytesRead m a (16 * n)) (16 * i + 4)
      ∧ e.addr = BitVec.ofNat 24 (quadIn (bytesRead m a (16 * n)) (16 * i)) := by
  have bytes : bytesOf (memReadWords m a (burstWords len)) = bytesRead m a (16 * n) := by
    rw [hn, bytesOf_memReadWords, ← Nat.mul_assoc]
  refine ⟨entryOf (advance first i) (slice (bytesRead m a (16 * n)) (16 * i) 16), ?_, rfl, entryOf_layout ..⟩
  rw [readEntries, bytes]
  exact List.mem_map.2 ⟨i, List.mem_range.2 hi, rfl⟩

/-- The bus address of a watched word is its address of the map, wrapped (R141, log 22). -/
theorem addrOf_wrapAddr (x : Nat) : addrOf (wrapAddr x) = BitVec.ofNat 24 x := by
  apply BitVec.eq_of_toNat_eq
  simp [addrOf, wrapAddr, Config.memoryBytes]

end Sys2Proof.Machine
end

