-- ==== Sys2Proof/Laws/Memory.lean ====
section
/-! SUPPORT. The laws of the two memories: reading after writing, and the canonical form every memory operation keeps. -/

-- One theorem at a time: the threads of many at once would not fit the memory a check has.
set_option Elab.async false

namespace Sys2Proof.Machine

/-! ### The canonical form -/

@[simp] theorem memRising_nil (lo : Nat) : memRising lo [] = true := rfl

theorem memRising_cons (lo k : Nat) (c : Byte) (m : Memory) :
    memRising lo ((k, c) :: m) = true ↔ lo ≤ k ∧ c ≠ Config.unlistedByte ∧ memRising (k + 1) m = true := by
  simp [memRising, and_assoc]

/-- A lower bound may be lowered. -/
theorem memRising_mono {lo lo' : Nat} {m : Memory} (h : memRising lo m = true) (hl : lo' ≤ lo) : memRising lo' m = true := by
  cases m with
  | nil => rfl
  | cons p m =>
    obtain ⟨k, c⟩ := p
    rw [memRising_cons] at h ⊢
    exact ⟨by omega, h.2⟩

theorem memRising_consCell {lo a : Nat} {b : Byte} {m : Memory} (hl : lo ≤ a) (h : memRising (a + 1) m = true) :
    memRising lo (consCell a b m) = true := by
  unfold consCell
  split
  · exact memRising_mono h (by omega)
  · rename_i hb
    exact (memRising_cons _ _ _ _).2 ⟨hl, hb, h⟩

theorem memRising_memWrite {lo a : Nat} {b : Byte} {m : Memory} (hl : lo ≤ a) (h : memRising lo m = true) :
    memRising lo (memWrite m a b) = true := by
  induction m generalizing lo with
  | nil => exact memRising_consCell hl rfl
  | cons p m ih =>
    obtain ⟨k, c⟩ := p
    have h' := (memRising_cons _ _ _ _).1 h
    unfold memWrite
    split
    · exact memRising_consCell hl ((memRising_cons _ _ _ _).2 ⟨by omega, h'.2⟩)
    · split
      · rename_i he
        exact memRising_consCell hl (he ▸ h'.2.2)
      · exact (memRising_cons _ _ _ _).2 ⟨h'.1, h'.2.1, ih (by omega) h'.2.2⟩

/-- Writing a byte keeps the canonical form. -/
theorem memWrite_wf {m : Memory} (a : Nat) (b : Byte) (h : Memory.wf m = true) : Memory.wf (memWrite m a b) = true :=
  memRising_memWrite (Nat.zero_le a) h

/-- Writing bytes keeps the canonical form. -/
theorem memWriteAll_wf {m : Memory} (l : List (Nat × Byte)) (h : Memory.wf m = true) : Memory.wf (memWriteAll m l) = true := by
  induction l generalizing m with
  | nil => exact h
  | cons p l ih => exact ih (memWrite_wf p.1 p.2 h)

/-- Writing words keeps the canonical form. -/
theorem memWriteWords_wf {m : Memory} (ws : List (Nat × LaneWord)) (h : Memory.wf m = true) :
    Memory.wf (memWriteWords m ws) = true := memWriteAll_wf _ h

/-- Both memories of the state right after reset are canonical: nothing is listed. -/
theorem reset_memories_wf : Memory.wf State.reset.sram = true ∧ Memory.wf State.reset.hold.cells = true := ⟨rfl, rfl⟩

/-! ### Reading after writing -/

theorem memRead_of_rising {lo a : Nat} {m : Memory} (h : memRising lo m = true) (ha : a < lo) :
    memRead m a = Config.unlistedByte := by
  induction m generalizing lo with
  | nil => rfl
  | cons p m ih =>
    obtain ⟨k, c⟩ := p
    have h' := (memRising_cons _ _ _ _).1 h
    simp only [memRead]
    rw [if_neg (by omega), ih h'.2.2 (by omega)]

theorem memRead_consCell {a x : Nat} {b : Byte} {m : Memory} (h : memRising (a + 1) m = true) :
    memRead (consCell a b m) x = if x = a then b else memRead m x := by
  unfold consCell
  split
  · split
    · rename_i hb hx
      rw [hx, memRead_of_rising h (by omega), hb]
    · rfl
  · simp only [memRead, eq_comm]

/-- A read after a write: the byte written at its address, every other byte as before. -/
theorem memRead_memWrite {m : Memory} (h : Memory.wf m = true) (a x : Nat) (b : Byte) :
    memRead (memWrite m a b) x = if x = a then b else memRead m x := by
  suffices ∀ lo, memRising lo m = true → memRead (memWrite m a b) x = if x = a then b else memRead m x from this 0 h
  clear h
  induction m with
  | nil => intro lo _; exact memRead_consCell rfl
  | cons p m ih =>
    obtain ⟨k, c⟩ := p
    intro lo h
    have h' := (memRising_cons _ _ _ _).1 h
    unfold memWrite
    split
    · rw [memRead_consCell ((memRising_cons _ _ _ _).2 ⟨by omega, h'.2⟩)]
    · split
      · rename_i he
        subst he
        rw [memRead_consCell h'.2.2]
        split
        · rfl
        · rename_i hx
          simp only [memRead]
          rw [if_neg (Ne.symm hx)]
      · rename_i hlt hne
        simp only [memRead]
        rw [ih _ h'.2.2]
        split
        · rename_i hk
          rw [if_neg (by omega)]
        · rfl

/-- Bytes at addresses a list of writes does not name read as before. -/
theorem memRead_memWriteAll_of_notMem {m : Memory} (h : Memory.wf m = true) (l : List (Nat × Byte)) (x : Nat)
    (hx : ∀ p ∈ l, p.1 ≠ x) : memRead (memWriteAll m l) x = memRead m x := by
  induction l generalizing m with
  | nil => rfl
  | cons p l ih =>
    simp only [memWriteAll]
    rw [ih (memWrite_wf _ _ h) (fun q hq => hx q (List.mem_cons_of_mem _ hq)), memRead_memWrite h,
      if_neg (Ne.symm (hx p List.mem_cons_self))]

/-- A byte that the last write to its address puts there, with no later write to it, reads as written. -/
theorem memRead_memWriteAll_append {m : Memory} (h : Memory.wf m = true) (l l' : List (Nat × Byte)) (a : Nat) (b : Byte)
    (hx : ∀ p ∈ l', p.1 ≠ a) : memRead (memWriteAll m (l ++ (a, b) :: l')) a = b := by
  induction l generalizing m with
  | nil =>
    simp only [List.nil_append, memWriteAll]
    rw [memRead_memWriteAll_of_notMem (memWrite_wf _ _ h) _ _ hx, memRead_memWrite h, if_pos rfl]
  | cons p l ih =>
    simp only [List.cons_append, memWriteAll]
    exact ih (memWrite_wf _ _ h)

/-- With pairwise different addresses every byte of a list of writes reads as written. -/
theorem memRead_memWriteAll_of_mem {m : Memory} (h : Memory.wf m = true) {l : List (Nat × Byte)}
    (hd : (l.map (·.1)).Nodup) {a : Nat} {b : Byte} (hm : (a, b) ∈ l) : memRead (memWriteAll m l) a = b := by
  obtain ⟨l₁, l₂, rfl⟩ := List.append_of_mem hm
  refine memRead_memWriteAll_append h l₁ l₂ a b fun p hp hpa => ?_
  rw [List.map_append, List.map_cons, List.nodup_append] at hd
  have hmem : p.1 ∈ l₂.map (·.1) := List.mem_map_of_mem hp
  exact (List.nodup_cons.1 hd.2.1).1 (hpa ▸ hmem)

/-- A byte that lies in no enabled lane of the words written reads as before. -/
theorem memRead_memWriteWords_of_notMem {m : Memory} (h : Memory.wf m = true) (ws : List (Nat × LaneWord)) (x : Nat)
    (hx : ∀ p ∈ ws, ∀ j < 4, laneOn p.2 j = true → p.1 + j ≠ x) : memRead (memWriteWords m ws) x = memRead m x := by
  refine memRead_memWriteAll_of_notMem h _ _ fun q hq => ?_
  obtain ⟨p, hp, hq⟩ := List.mem_flatMap.1 hq
  simp only [laneBytes, List.mem_filterMap, List.mem_range] at hq
  obtain ⟨j, hj, hq⟩ := hq
  split at hq
  · rename_i hl
    cases hq
    exact hx p hp j hj hl
  · cases hq

end Sys2Proof.Machine
end

