-- ==== Sys2Proof/Laws/PerInstr.lean ====
section
/-! SUPPORT. Facts about the commands as syntax, one lemma per command: a well-formed command's gateway write names a legal
number of words (R141), and a Deliver Down header or payload a legal number of bytes (R105, R106). -/

-- One theorem at a time: the threads of many at once would not fit the memory a check has.
set_option Elab.async false

namespace Sys2Proof.Laws.WritesAreLegal

/-- The gateway write a well-formed command brings names 1, 2, 4, 8 or 16 words; the payload it brings holds 1 to 2047 bytes. -/
def Statement (i : Instr) : Prop :=
  i.wellFormed = true →
    (∀ q a ws, Machine.writeOf i = some (q, a, ws) → wordsWellFormed ws = true)
      ∧ (∀ p, i = .deliverDownEnd p → 1 ≤ p.length ∧ p.length ≤ 2047)

theorem powerOnReset (intPolarity : Bool) : Statement (.powerOnReset intPolarity) := by
  simp [Statement, Machine.writeOf]

theorem configurationLoadEnd (acknowledged bypass : Bool) (image : List Byte) : Statement (.configurationLoadEnd acknowledged bypass image) := by
  simp [Statement, Machine.writeOf]

theorem shadowReadsCarried : Statement .shadowReadsCarried := by
  simp [Statement, Machine.writeOf]

theorem gatewayTransfer (req : Requester) (x : Transfer) : Statement (.gatewayTransfer req x) := by
  cases x <;> simp_all [Statement, Instr.wellFormed, transferWellFormed, Machine.writeOf]

theorem uReadTxpWord (addr : Addr) (len : BurstLen) : Statement (.uReadTxpWord addr len) := by
  simp [Statement, Machine.writeOf]

theorem uReadRxpWord (addr : Addr) (len : BurstLen) : Statement (.uReadRxpWord addr len) := by
  simp [Statement, Machine.writeOf]

theorem txpWordWrite (req : Requester) (addr : Addr) (words : List LaneWord) : Statement (.txpWordWrite req addr words) := by
  simp_all [Statement, Instr.wellFormed, Machine.writeOf]

theorem txcWordWrite (req : Requester) (addr : Addr) (words : List LaneWord) : Statement (.txcWordWrite req addr words) := by
  simp_all [Statement, Instr.wellFormed, Machine.writeOf]

theorem rxpWordWrite (req : Requester) (addr : Addr) (words : List LaneWord) : Statement (.rxpWordWrite req addr words) := by
  simp_all [Statement, Instr.wellFormed, Machine.writeOf]

theorem rxfWordWrite (req : Requester) (addr : Addr) (words : List LaneWord) : Statement (.rxfWordWrite req addr words) := by
  simp_all [Statement, Instr.wellFormed, Machine.writeOf]

theorem evcWordWrite (req : Requester) (addr : Addr) (words : List LaneWord) : Statement (.evcWordWrite req addr words) := by
  simp_all [Statement, Instr.wellFormed, Machine.writeOf]

theorem pgenWordWrite (req : Requester) (addr : Addr) (words : List LaneWord) : Statement (.pgenWordWrite req addr words) := by
  simp_all [Statement, Instr.wellFormed, Machine.writeOf]

theorem txRingCompletionWrite (addr : Addr) (words : List LaneWord) : Statement (.txRingCompletionWrite addr words) := by
  simp_all [Statement, Instr.wellFormed, Machine.writeOf]

theorem staleUplinkWrite (addr : Addr) (words : List LaneWord) : Statement (.staleUplinkWrite addr words) := by
  simp_all [Statement, Instr.wellFormed, Machine.writeOf]

theorem masterTransferCarried : Statement .masterTransferCarried := by
  simp [Statement, Machine.writeOf]

theorem losLinkChange (los link : Bool) : Statement (.losLinkChange los link) := by
  simp [Statement, Machine.writeOf]

theorem offhookAssert : Statement .offhookAssert := by
  simp [Statement, Machine.writeOf]

theorem offhookDeassert : Statement .offhookDeassert := by
  simp [Statement, Machine.writeOf]

theorem mainsLostAssert : Statement .mainsLostAssert := by
  simp [Statement, Machine.writeOf]

theorem mainsLostDeassert : Statement .mainsLostDeassert := by
  simp [Statement, Machine.writeOf]

theorem riAssert : Statement .riAssert := by
  simp [Statement, Machine.writeOf]

theorem moduleReady : Statement .moduleReady := by
  simp [Statement, Machine.writeOf]

theorem attachResult (tag : Byte) : Statement (.attachResult tag) := by
  simp [Statement, Machine.writeOf]

theorem grantReport (uplink downlink : BitVec 16) (quality : Byte) : Statement (.grantReport uplink downlink quality) := by
  simp [Statement, Machine.writeOf]

theorem sendResult (tag : Byte) : Statement (.sendResult tag) := by
  simp [Statement, Machine.writeOf]

theorem coverageLost : Statement .coverageLost := by
  simp [Statement, Machine.writeOf]

theorem deliverDownHeader (tag : Byte) (length : BitVec 16) : Statement (.deliverDownHeader tag length) := by
  simp [Statement, Machine.writeOf]

theorem deliverDownEnd (payload : List Byte) : Statement (.deliverDownEnd payload) := by
  simp_all [Statement, Instr.wellFormed, Machine.writeOf]

theorem badCarrierHeader (type tag : Byte) (length : BitVec 16) : Statement (.badCarrierHeader type tag length) := by
  simp [Statement, Machine.writeOf]

theorem linkFramingError : Statement .linkFramingError := by
  simp [Statement, Machine.writeOf]

theorem attachRequest (mrdy : Bool) : Statement (.attachRequest mrdy) := by
  simp [Statement, Machine.writeOf]

theorem detachRequest (mrdy : Bool) : Statement (.detachRequest mrdy) := by
  simp [Statement, Machine.writeOf]

theorem detachRequestSent : Statement .detachRequestSent := by
  simp [Statement, Machine.writeOf]

theorem sendUp (mrdy : Bool) : Statement (.sendUp mrdy) := by
  simp [Statement, Machine.writeOf]

theorem sendUpEnd : Statement .sendUpEnd := by
  simp [Statement, Machine.writeOf]

theorem pauseDown (mrdy : Bool) : Statement (.pauseDown mrdy) := by
  simp [Statement, Machine.writeOf]

theorem resumeDown (mrdy : Bool) : Statement (.resumeDown mrdy) := by
  simp [Statement, Machine.writeOf]

theorem downCap (mrdy : Bool) : Statement (.downCap mrdy) := by
  simp [Statement, Machine.writeOf]

theorem lowPower (mrdy : Bool) : Statement (.lowPower mrdy) := by
  simp [Statement, Machine.writeOf]

theorem lowPowerSent : Statement .lowPowerSent := by
  simp [Statement, Machine.writeOf]

theorem moduleResetRelease : Statement .moduleResetRelease := by
  simp [Statement, Machine.writeOf]

theorem startTimerExpiry : Statement .startTimerExpiry := by
  simp [Statement, Machine.writeOf]

theorem cycleTimerExpiry : Statement .cycleTimerExpiry := by
  simp [Statement, Machine.writeOf]

theorem attachTimerExpiry : Statement .attachTimerExpiry := by
  simp [Statement, Machine.writeOf]

theorem backoffTimerExpiry : Statement .backoffTimerExpiry := by
  simp [Statement, Machine.writeOf]

theorem grantSilenceExpiry : Statement .grantSilenceExpiry := by
  simp [Statement, Machine.writeOf]

theorem lingerTimerExpiry : Statement .lingerTimerExpiry := by
  simp [Statement, Machine.writeOf]

theorem sendResultTimeout (slot : Slot) : Statement (.sendResultTimeout slot) := by
  simp [Statement, Machine.writeOf]

theorem health100msExpiry : Statement .health100msExpiry := by
  simp [Statement, Machine.writeOf]

theorem health1sExpiry : Statement .health1sExpiry := by
  simp [Statement, Machine.writeOf]

theorem priorityScanReadReturn : Statement .priorityScanReadReturn := by
  simp [Statement, Machine.writeOf]

theorem releaseTimerExpiry : Statement .releaseTimerExpiry := by
  simp [Statement, Machine.writeOf]

theorem dwellTimerExpiry : Statement .dwellTimerExpiry := by
  simp [Statement, Machine.writeOf]

theorem drainComplete : Statement .drainComplete := by
  simp [Statement, Machine.writeOf]

theorem drainTimerExpiry : Statement .drainTimerExpiry := by
  simp [Statement, Machine.writeOf]

theorem handBack : Statement .handBack := by
  simp [Statement, Machine.writeOf]

theorem refallTimerExpiry : Statement .refallTimerExpiry := by
  simp [Statement, Machine.writeOf]

theorem priorityTimerExpiry : Statement .priorityTimerExpiry := by
  simp [Statement, Machine.writeOf]

theorem descriptorReadReturn : Statement .descriptorReadReturn := by
  simp [Statement, Machine.writeOf]

theorem takeEnd : Statement .takeEnd := by
  simp [Statement, Machine.writeOf]

theorem pacingTimerExpiry : Statement .pacingTimerExpiry := by
  simp [Statement, Machine.writeOf]

theorem refusalPauseEnd : Statement .refusalPauseEnd := by
  simp [Statement, Machine.writeOf]

theorem sweep10ms : Statement .sweep10ms := by
  simp [Statement, Machine.writeOf]

theorem sweep1s : Statement .sweep1s := by
  simp [Statement, Machine.writeOf]

theorem deliveryDescriptorRead : Statement .deliveryDescriptorRead := by
  simp [Statement, Machine.writeOf]

theorem deliveryEnd : Statement .deliveryEnd := by
  simp [Statement, Machine.writeOf]

theorem eventPost : Statement .eventPost := by
  simp [Statement, Machine.writeOf]

theorem statusRefreshExpiry : Statement .statusRefreshExpiry := by
  simp [Statement, Machine.writeOf]

theorem statusPageWrite : Statement .statusPageWrite := by
  simp [Statement, Machine.writeOf]

theorem policyApplied : Statement .policyApplied := by
  simp [Statement, Machine.writeOf]

theorem softResetDiscard : Statement .softResetDiscard := by
  simp [Statement, Machine.writeOf]

theorem mainsReturnExpiry : Statement .mainsReturnExpiry := by
  simp [Statement, Machine.writeOf]

theorem quietTimerExpiry : Statement .quietTimerExpiry := by
  simp [Statement, Machine.writeOf]

theorem dozeEntrySettled : Statement .dozeEntrySettled := by
  simp [Statement, Machine.writeOf]

theorem dozeReached : Statement .dozeReached := by
  simp [Statement, Machine.writeOf]

theorem dozeTimerExpiry : Statement .dozeTimerExpiry := by
  simp [Statement, Machine.writeOf]

theorem restartEnd : Statement .restartEnd := by
  simp [Statement, Machine.writeOf]

theorem linkReceiverResync : Statement .linkReceiverResync := by
  simp [Statement, Machine.writeOf]

theorem resetAsserted : Statement .resetAsserted := by
  simp [Statement, Machine.writeOf]

end Sys2Proof.Laws.WritesAreLegal
end

