-- ==== Sys2Proof/Laws/Settle.lean ====
section
/-! SUPPORT. What the standing work of a command's end comes to when no engine has work of its own, and that every command answers
a next state. -/

-- One theorem at a time: the threads of many at once would not fit the memory a check has.
set_option Elab.async false

namespace Sys2Proof.Machine

/-- With no request waiting nothing is issued. -/
theorem issueAll_idle {s : State} (h : s.bus.waiting = []) : issueAll s = s := by
  simp [issueAll, pump, h]

/-- With no downlink frame in hold no delivery begins. -/
theorem judgeDelivery_idle {s : State} (hv : s.hold.dqV = []) (hd : s.hold.dqD = []) : judgeDelivery s = s := by
  simp [judgeDelivery, mayDeliver, downlinkEmpty, hv, hd]

/-- With no posted buffer available no delivery begins. -/
theorem judgeDelivery_noBuffer {s : State} (h : bufferAvailable s = false) : judgeDelivery s = s := by
  simp [judgeDelivery, mayDeliver, h]

/-- An entry that is not PENDING begins no take. -/
theorem judgeEntry_idle {s : State} {e : Entry} (h : e.st ≠ .pending) : judgeEntry s e = s := by
  have no : eligible s e = false := by
    unfold eligible
    split
    · rfl
    · simp [h]
  simp [judgeEntry, no]

/-- With no PENDING entry no take begins. -/
theorem judgePending_idle {s : State} (h : ∀ e ∈ s.ring.window, e.st ≠ .pending) : judgePending s = s := by
  have none (l : List Entry) (hl : ∀ e ∈ l, e.st ≠ .pending) : l.foldl judgeEntry s = s := by
    induction l with
    | nil => rfl
    | cons e l ih =>
      rw [List.foldl_cons, judgeEntry_idle (hl e (List.mem_cons_self ..)), ih fun e he => hl e (List.mem_cons_of_mem _ he)]
  exact none _ h

/-- With no PENDING entry freed cells only join the free list, and the pause is evaluated (R67, R80). -/
theorem freeCells_idle {s : State} {cells : List Nat} (h : ∀ e ∈ s.ring.window, e.st ≠ .pending) :
    freeCells cells s = if cells = [] then s else evalPause { s with hold.freeList := s.hold.freeList ++ cells } := by
  unfold freeCells
  split
  · rfl
  · refine judgePending_idle ?_
    simpa [evalPause, withPauseTarget, apply_ite] using h

/-- With no class read waiting for room the scan withdraws nothing (R63). -/
theorem withdrawScanRead_idle {s : State} (h : ∀ p ∈ s.bus.waiting, isScanRead p = false) : withdrawScanRead s = s := by
  have no : s.bus.waiting.any isScanRead = false := by simpa [List.any_eq_false] using h
  simp [withdrawScanRead, no]

/-- With no entry to DOZE under way nothing is abandoned. -/
theorem ceaseEntry_idle {s : State} (h : ∀ e, s.power.step ≠ .entering e) : ceaseEntry s = s := by
  unfold ceaseEntry
  split
  · exact absurd ‹_› (h _)
  · rfl

/-- An abandoned entry leaves the doze step AWAKE (R157). -/
@[simp] theorem abandonEntry_step (s : State) : (abandonEntry s).power.step = .awake := by
  unfold abandonEntry
  dsimp only
  split <;> simp

/-- The doze step after an entry under way, if any, has been abandoned: AWAKE in place of ENTERING (R157). -/
theorem ceaseEntry_step (s : State) (e : EntryStage) : (ceaseEntry s).power.step ≠ .entering e := by
  unfold ceaseEntry
  split
  · simp
  · exact fun h => absurd h (by simp_all)

/-- A takeover leaves no entry to DOZE under way, whether the path stays in TAKEOVER or goes on (R157). -/
theorem enterTakeover_step (c : PathCause) (s : State) (e : EntryStage) : (enterTakeover c s).power.step ≠ .entering e := by
  have kept (b : State) (h : b = ceaseEntry { s with
      path.dwellD := takeoverDwell s, path.path := .takeover, path.phase := none, health.timer1s := none }) :
      (enterTakeover c s).power = b.power := by
    unfold enterTakeover
    dsimp only
    rw [← h]
    (repeat' split) <;> simp
  rw [kept _ rfl]
  exact ceaseEntry_step _ _

/-- No class read waits for room once the scan has withdrawn it (R63). -/
theorem withdrawScanRead_waiting {s : State} {p : Purpose} (h : p ∈ (withdrawScanRead s).bus.waiting) : isScanRead p = false := by
  unfold withdrawScanRead at h
  split at h <;> rename_i c
  · simpa using (List.mem_filter.mp h).2
  · exact (by simpa [List.any_eq_false] using c : ∀ x ∈ s.bus.waiting, isScanRead x = false) p h

/-- A scan that stops runs no more, and holds no mark (R63). -/
@[simp] theorem stopScan_scanRunning (s : State) : (stopScan s).ring.scanRunning = false := rfl
@[simp] theorem stopScan_scanMark (s : State) : (stopScan s).ring.scanMark = none := rfl

/-- With no Send Up on LDO a record freed gives its cells back at once (R67). -/
theorem freeRecord_atOnce {s : State} {r : FrameRecord} (h : ∀ q live x, s.radio.ldo ≠ some (.sendUp q live x)) :
    freeRecord r s = freeCells r.cells s := by
  have off : onLdoNow s r = false := by
    unfold onLdoNow
    split
    · rename_i q live x hx
      exact absurd hx (h q live (some x))
    · rfl
  simp [freeRecord, off]

/-- A scan that neither runs nor is wanted stays as it is. -/
theorem evalScan_idle {s : State} (hr : s.ring.scanRunning = false) (hw : scanWanted s = false) : evalScan s = s := by
  simp [evalScan, hr, hw]

/-- Outside CLOSING and the completing step of a soft reset no hand-back is asked for. -/
theorem tryHandBack_idle {s : State} (hp : s.path.phase ≠ some .closing) (hs : s.loader.softReset ≠ .completing) : tryHandBack s = s := by
  simp [tryHandBack, hp, hs]

/-- With no engine having work of its own, the end of a command only evaluates the doze conditions. -/
theorem settle_atRest {s : State} (h : atRest s) : settle s = evalDoze s := by
  obtain ⟨⟨hw, _⟩, hv, hd, hr, hsw, hp, hs⟩ := h
  simp [settle, issueAll_idle hw, judgeDelivery_idle hv hd, evalScan_idle hr hsw, tryHandBack_idle hp hs]

/-- A state with the fields of `s` but for the doze step, a pending Low Power item and, where `s` sends a Low Power on, the message
on LDO is `s` with those set aside. -/
theorem dozeAside_of (s : State) (x : DozeStep) (y : Option Bool) (k : Option Sending)
    (hk : k = s.radio.ldo ∨ ∃ live, s.radio.ldo = some (.lowPower true live)) :
    ({ s with power.step := x, radio.items.lowPower := y, radio.ldo := k } : State)
      = dozeAside s { s with power.step := x, radio.items.lowPower := y, radio.ldo := k } := by
  have same : ldoAside s { s with power.step := x, radio.items.lowPower := y, radio.ldo := k } = k := by
    unfold ldoAside
    obtain rfl | ⟨live, h⟩ := hk
    · split <;> rfl
    · rw [h]
  simp only [dozeAside, same]

/-- Abandoning an entry to DOZE moves those three things at most (R157). -/
theorem abandonEntry_moves (s : State) : abandonEntry s = dozeAside s (abandonEntry s) := by
  have awake := dozeAside_of s .awake s.radio.items.lowPower s.radio.ldo (.inl rfl)
  by_cases hst : s.power.step = .entering .link
  · simp only [abandonEntry, hst, if_true, answerLowPower]
    split
    · rename_i live h
      exact dozeAside_of s .awake s.radio.items.lowPower (some (.lowPower true false)) (.inr ⟨live, h⟩)
    · exact awake
    · split
      · exact dozeAside_of s .awake (some false) s.radio.ldo (.inl rfl)
      · exact awake
  · simp only [abandonEntry, hst, if_false]
    exact awake

/-- The evaluation of the doze conditions moves those three things at most. -/
theorem evalDoze_moves (s : State) : evalDoze s = dozeAside s (evalDoze s) := by
  have stays := dozeAside_of s s.power.step s.radio.items.lowPower s.radio.ldo (.inl rfl)
  unfold evalDoze
  split
  · split
    · exact dozeAside_of s (.entering .settling) s.radio.items.lowPower s.radio.ldo (.inl rfl)
    · exact stays
  · split
    · exact stays
    · exact abandonEntry_moves s
  · exact stays
  · exact stays

/-- `settle_atRest` and `evalDoze_moves` together. -/
theorem settle_moves {s : State} (h : atRest s) : settle s = dozeAside s (settle s) := by
  rw [settle_atRest h]
  exact evalDoze_moves s

/-- Every command answers a next state. -/
theorem exec_next (c : Instr) (s : State) : ∃ t, exec c s = .next t := by
  cases c <;> exact ⟨_, rfl⟩

/-- Every step answers a next state. -/
theorem step_next (s : State) : ∃ t, step s = .next t := by
  unfold step
  split
  · exact ⟨_, rfl⟩
  · exact exec_next _ _

end Sys2Proof.Machine
end

