-- ==== Sys2Proof/Laws/Phase.lean ====
section
/-! SUPPORT. A return phase stands only in RETURNING (R1): the state after reset has it and every step keeps it, by one lemma for
each operation that moves the path or the phase. -/

-- One theorem at a time: the threads of many at once would not fit the memory a check has.
set_option Elab.async false

namespace Sys2Proof.Machine

/-- What leaves the path and the phase as they stand keeps the invariant. -/
theorem PhaseInReturning.of_eq {s t : State} (h : PhaseInReturning s) (hp : t.path.path = s.path.path) (hf : t.path.phase = s.path.phase) :
    PhaseInReturning t := by
  simpa [PhaseInReturning, hp, hf] using h

/-- Outside RETURNING no phase stands. -/
theorem PhaseInReturning.phase_none {s : State} (h : PhaseInReturning s) (hp : s.path.path ≠ .returning) : s.path.phase = none :=
  Classical.byContradiction fun hf => hp (h hf)

/-- A state without a phase meets the invariant. -/
theorem phaseInReturning_of_none {s : State} (h : s.path.phase = none) : PhaseInReturning s := fun hf => absurd h hf

/-- A state in RETURNING meets the invariant. -/
theorem phaseInReturning_of_returning {s : State} (h : s.path.path = .returning) : PhaseInReturning s := fun _ => h

/-! ### The Path Controller -/

@[simp] theorem changePath_path (p : PathState) (c : PathCause) (s : State) : (changePath p c s).path.path = p := by simp [changePath]

@[simp] theorem changePath_phase (p : PathState) (c : PathCause) (s : State) : (changePath p c s).path.phase = s.path.phase := by
  simp [changePath]

/-- A return that begins is RETURNING (R16). -/
@[simp] theorem enterReturning_path (c : PathCause) (s : State) : (enterReturning c s).path.path = .returning := by
  simp [enterReturning]

theorem evalReturn_phaseInReturning {s : State} (h : PhaseInReturning s) : PhaseInReturning (evalReturn s) := by
  unfold evalReturn
  (repeat' split) <;> first | exact h | exact phaseInReturning_of_returning (by simp)

theorem moveAndEval_phaseInReturning (p : PathState) (c : PathCause) {s : State} (h : s.path.phase = none) :
    PhaseInReturning (moveAndEval p c s) :=
  evalReturn_phaseInReturning (phaseInReturning_of_none (by simp [h]))

theorem radioReport_phaseInReturning {s : State} (h : PhaseInReturning s) : PhaseInReturning (radioReport s) := by
  unfold radioReport
  (repeat' split) <;> first | exact h | exact moveAndEval_phaseInReturning _ _ (h.phase_none (by simp_all))

theorem interruptReturn_phaseInReturning (c : PathCause) {s : State} (h : PhaseInReturning s) : PhaseInReturning (interruptReturn c s) := by
  unfold interruptReturn
  split
  · exact evalReturn_phaseInReturning (phaseInReturning_of_none (by simp [withPauseTarget, apply_ite]))
  · exact h

theorem enterTakeover_phaseInReturning (c : PathCause) (s : State) : PhaseInReturning (enterTakeover c s) := by
  have base (t : State) (ht : t.path.phase = none) :
      PhaseInReturning (if (radioReport t).path.path = .takeover then evalReturn (radioReport t) else radioReport t) := by
    have hr := radioReport_phaseInReturning (phaseInReturning_of_none ht)
    split
    · exact evalReturn_phaseInReturning hr
    · exact hr
  simp only [enterTakeover]
  exact base _ (by simp)

theorem evalTakeover_phaseInReturning {s : State} (h : PhaseInReturning s) : PhaseInReturning (evalTakeover s) := by
  unfold evalTakeover
  split
  · split
    · exact enterTakeover_phaseInReturning _ _
    · exact h
  · exact h

theorem verdictReport_phaseInReturning {s : State} (h : PhaseInReturning s) : PhaseInReturning (verdictReport s) := by
  unfold verdictReport
  dsimp only
  (repeat' split) <;>
    first
    | exact evalTakeover_phaseInReturning h
    | exact interruptReturn_phaseInReturning _ (h.of_eq rfl rfl)
    | exact h.of_eq rfl rfl

theorem overrideChanged_phaseInReturning {s : State} (h : PhaseInReturning s) : PhaseInReturning (overrideChanged s) := by
  unfold overrideChanged
  (repeat' split) <;>
    first
    | exact h
    | exact evalTakeover_phaseInReturning h
    | exact interruptReturn_phaseInReturning _ h
    | exact evalReturn_phaseInReturning h

theorem scanReports_phaseInReturning {s : State} (h : PhaseInReturning s) : PhaseInReturning (scanReports s) := by
  unfold scanReports
  split
  · exact enterTakeover_phaseInReturning _ _
  · exact h

/-- A hand-back ends the phase (R19). -/
@[simp] theorem handBackWith_phase (c : PathCause) (s : State) : (handBackWith c s).path.phase = none := by
  simp [handBackWith, withPauseTarget, apply_ite]

theorem handBackReturn_phaseInReturning (s : State) : PhaseInReturning (handBackReturn s) :=
  evalTakeover_phaseInReturning (phaseInReturning_of_none (by simp))

/-! ### The health monitor -/

theorem evaluate_phaseInReturning {s : State} (h : PhaseInReturning s) : PhaseInReturning (evaluate s) := by
  simp only [evaluate]
  split
  · exact h
  · exact verdictReport_phaseInReturning (h.of_eq (by simp) (by simp))

theorem sampleTxe_phaseInReturning (v : Byte) {s : State} (h : PhaseInReturning s) : PhaseInReturning (sampleTxe v s) := by
  unfold sampleTxe
  split
  · split
    · exact evaluate_phaseInReturning (h.of_eq (by simp) (by simp))
    · split
      · exact evaluate_phaseInReturning (h.of_eq (by simp) (by simp))
      · exact h
  · exact h

/-! ### The policy block, the hand-back's carriage and the start-up -/

theorem handBack_phaseInReturning (s : State) : PhaseInReturning (handBack s) := by
  unfold handBack
  split
  · simp only [handBackSoft]
    exact phaseInReturning_of_none (by simp)
  · exact handBackReturn_phaseInReturning s

theorem ownersTake_phaseInReturning (p : Policy) (b : Bool) {s : State} (h : PhaseInReturning s) : PhaseInReturning (ownersTake p b s) := by
  have base (t : State) (ht : PhaseInReturning t) (q : Bool) : PhaseInReturning (if q then overrideChanged t else t) := by
    split
    · exact overrideChanged_phaseInReturning ht
    · exact ht
  have h' := base (clampCredit { s with loader.policy := p }) (h.of_eq (by simp) (by simp)) (p.pathOverride != s.loader.policy.pathOverride)
  unfold ownersTake
  dsimp only
  split <;> exact h'.of_eq (by simp) (by simp)

theorem afterApplication_phaseInReturning (k : ReadKind) (soft : Bool) {s : State} (h : PhaseInReturning s) :
    PhaseInReturning (afterApplication k soft s) := by
  unfold afterApplication
  split
  · split <;> exact h.of_eq (by simp) (by simp)
  · dsimp only
    split <;> exact h.of_eq (by simp) (by simp)
  · exact (evalTakeover_phaseInReturning (s := { s with loader.softReset := .none }) (h.of_eq rfl rfl)).of_eq (by simp) (by simp)

theorem applyBlock_phaseInReturning (bs : List Byte) {s : State} (h : PhaseInReturning s) : PhaseInReturning (applyBlock bs s) := by
  have h' := ownersTake_phaseInReturning (policyOf bs) (s.loader.readKind == .startUp)
    (h.of_eq (t := takeRequests bs (s.loader.readKind == .startUp) s) (by simp) (by simp))
  exact afterApplication_phaseInReturning _ _ (h'.of_eq (by simp) (by simp))

theorem shadowsCarried_phaseInReturning {s : State} (h : PhaseInReturning s) : PhaseInReturning (shadowsCarried s) := by
  simp only [shadowsCarried]
  split <;> simp only [PhaseInReturning, beginRead_frame, startUpAllowance_frame, beginPage_frame] <;>
    exact evalTakeover_phaseInReturning (h.of_eq rfl rfl)

theorem startUp_phaseInReturning (bs : List Byte) {s : State} (h : s.path.phase = none) : PhaseInReturning (startUp bs s) := by
  apply phaseInReturning_of_none
  simp only [startUp, settle_frame]
  split <;> simp [h]

theorem loadEnds_phaseInReturning (a b : Bool) (bs : List Byte) {s : State} (h : s.path.phase = none) :
    PhaseInReturning (loadEnds a b bs s) := by
  simp only [loadEnds]
  split
  · exact startUp_phaseInReturning _ h
  · exact phaseInReturning_of_none h

/-! ### The Packet Bus -/

theorem reportRequester_phaseInReturning (req : Requester) (ws : List (Nat × LaneWord)) (b : State) {s : State} (h : PhaseInReturning s) :
    PhaseInReturning (reportRequester req ws b s) := by
  have fold (vs : List Byte) : ∀ {t : State}, PhaseInReturning t → PhaseInReturning (vs.foldl (fun s v => sampleTxe v s) t) := by
    induction vs with
    | nil => exact id
    | cons v vs ih => exact fun ht => ih (sampleTxe_phaseInReturning v ht)
  unfold reportRequester
  split
  · dsimp only
    (repeat' split) <;> exact h.of_eq (by simp) (by simp)
  · dsimp only
    split
    · exact fold _ (h.of_eq (by simp) (by simp))
    · exact fold _ h
  · exact h

theorem carryWrite_phaseInReturning (req : Requester) (a : Addr) (ws : List LaneWord) {s : State} (h : PhaseInReturning s) :
    PhaseInReturning (carryWrite req a ws s) := by
  simp only [carryWrite, PhaseInReturning, reportStale_frame]
  exact reportRequester_phaseInReturning req _ s (h.of_eq (by simp) (by simp))

theorem shadowReturns_phaseInReturning (w : Watched) (v : Word) {s : State} (h : PhaseInReturning s) : PhaseInReturning (shadowReturns w v s) := by
  simp only [shadowReturns]
  cases w <;> dsimp only <;> split <;> first | exact shadowsCarried_phaseInReturning (h.of_eq rfl rfl) | exact h.of_eq rfl rfl

theorem scanReturns_phaseInReturning (pos : Count) (v : Word) {s : State} (h : PhaseInReturning s) : PhaseInReturning (scanReturns pos v s) := by
  simp only [scanReturns]
  (repeat' split) <;> first | exact scanReports_phaseInReturning (h.of_eq rfl rfl) | exact h.of_eq rfl rfl

theorem readReturns_phaseInReturning (p : Purpose) (ws : List Word) {s : State} (h : PhaseInReturning s) : PhaseInReturning (readReturns p ws s) := by
  unfold readReturns
  (repeat' split) <;>
    first
    | exact shadowReturns_phaseInReturning _ _ h
    | exact scanReturns_phaseInReturning _ _ h
    | exact applyBlock_phaseInReturning _ h
    | exact h.of_eq (by simp) (by simp)

theorem writeCarried_phaseInReturning (p : Purpose) {s : State} (h : PhaseInReturning s) : PhaseInReturning (writeCarried p s) := by
  unfold writeCarried
  dsimp only
  (repeat' split) <;> first | exact handBack_phaseInReturning s | exact h.of_eq (by simp) (by simp)

theorem carryMaster_phaseInReturning (m : MasterTransfer) {s : State} (h : PhaseInReturning s) : PhaseInReturning (carryMaster m s) := by
  unfold carryMaster
  split
  · exact readReturns_phaseInReturning _ _ h
  · exact writeCarried_phaseInReturning _ (h.of_eq (by simp) (by simp))

theorem carryHead_phaseInReturning {s : State} (h : PhaseInReturning s) : PhaseInReturning (carryHead s) := by
  unfold carryHead
  split
  · exact h
  · simp only [PhaseInReturning, settle_frame]
    exact carryMaster_phaseInReturning _ (h.of_eq rfl rfl)

theorem carryWhen_phaseInReturning (p : Purpose → Bool) {s : State} (h : PhaseInReturning s) : PhaseInReturning (carryWhen p s) := by
  unfold carryWhen
  (repeat' split) <;> first | exact carryHead_phaseInReturning h | exact h

theorem gatewayTransfer_phaseInReturning (req : Requester) (x : Transfer) {s : State} (h : PhaseInReturning s) :
    PhaseInReturning (gatewayTransfer req x s) := by
  have h' : PhaseInReturning (grantGateway (masterFirst s)) := by
    unfold masterFirst
    split
    · exact (carryHead_phaseInReturning h).of_eq rfl rfl
    · exact h.of_eq rfl rfl
  unfold gatewayTransfer
  cases x with
  | read a len => exact h'.of_eq (by simp) (by simp)
  | write a ws => exact (carryWrite_phaseInReturning req a ws h').of_eq (by simp) (by simp)

/-! ### The Radio Link Manager -/

theorem attachedLost_phaseInReturning {s : State} (h : PhaseInReturning s) : PhaseInReturning (attachedLost s) :=
  radioReport_phaseInReturning (h.of_eq (by simp) (by simp))

theorem moduleIsReady_phaseInReturning {s : State} (h : PhaseInReturning s) : PhaseInReturning (moduleIsReady s) := by
  unfold moduleIsReady
  split
  · exact h
  · exact h.of_eq (by simp) (by simp)
  · exact h.of_eq (by simp) (by simp)
  · exact (radioReport_phaseInReturning (h.of_eq (t := attachFails 18 (readyItems (readyTold s))) (by simp) (by simp))).of_eq (by simp) (by simp)
  · simp only [readyInAttached]
    exact radioReport_phaseInReturning (h.of_eq (by simp) (by simp))
  · exact h.of_eq (by simp) (by simp)

theorem attachSucceeds_phaseInReturning {s : State} (h : PhaseInReturning s) : PhaseInReturning (attachSucceeds s) := by
  simp only [attachSucceeds, PhaseInReturning, startLinger_frame, placementAttempt_frame]
  exact radioReport_phaseInReturning (h.of_eq (by simp) (by simp))

theorem startExpires_phaseInReturning {s : State} (h : PhaseInReturning s) : PhaseInReturning (startExpires s) := by
  unfold startExpires
  split
  · simp only [startFails]
    exact radioReport_phaseInReturning (h.of_eq (by simp) (by simp))
  · exact h.of_eq rfl rfl

theorem attachExpires_phaseInReturning {s : State} (h : PhaseInReturning s) : PhaseInReturning (attachExpires s) := by
  simp only [attachExpires]
  split
  · simp only [PhaseInReturning, afterFailure_frame]
    exact radioReport_phaseInReturning (h.of_eq (by simp) (by simp))
  · exact h.of_eq rfl rfl

/-! ### The restart -/

theorem dwellExpires_phaseInReturning {s : State} (h : PhaseInReturning s) : PhaseInReturning (dwellExpires s) := by
  unfold dwellExpires
  split
  · exact evalReturn_phaseInReturning (h.of_eq rfl rfl)
  · exact h

theorem priorityExpires_phaseInReturning {s : State} (h : PhaseInReturning s) : PhaseInReturning (priorityExpires s) :=
  evalReturn_phaseInReturning (h.of_eq (by simp) (by simp))

theorem actRecorded_phaseInReturning (r : Recorded) {s : State} (h : PhaseInReturning s) : PhaseInReturning (actRecorded r s) := by
  cases r with
  | release => exact h.of_eq (by simp [actRecorded]) (by simp [actRecorded])
  | dwell => exact dwellExpires_phaseInReturning h
  | refall => exact h.of_eq rfl rfl
  | priority => exact priorityExpires_phaseInReturning h
  | start => exact startExpires_phaseInReturning h
  | attach => exact attachExpires_phaseInReturning h
  | backoff => exact h.of_eq (by simp [actRecorded]) (by simp [actRecorded])
  | linger => exact h.of_eq (by simp [actRecorded]) (by simp [actRecorded])

theorem actAllRecorded_phaseInReturning {s : State} (h : PhaseInReturning s) : PhaseInReturning (actAllRecorded s) := by
  have fold (rs : List Recorded) : ∀ {t : State}, PhaseInReturning t → PhaseInReturning (rs.foldl (fun s r => actRecorded r s) t) := by
    induction rs with
    | nil => exact id
    | cons r rs ih => exact fun ht => ih (actRecorded_phaseInReturning r ht)
  exact fold _ (h.of_eq rfl rfl)

theorem useLatch_phaseInReturning {s : State} (h : PhaseInReturning s) : PhaseInReturning (useLatch s) := by
  unfold useLatch
  dsimp only
  (repeat' split) <;> first | exact evaluate_phaseInReturning (h.of_eq (by simp) (by simp)) | exact h.of_eq (by simp) (by simp)

/-! ### Every step -/

theorem settle_phaseInReturning {s : State} (h : PhaseInReturning s) : PhaseInReturning (settle s) := h.of_eq (by simp) (by simp)

theorem nowOrRecorded_phaseInReturning (r : Recorded) (f : State → State) {s : State} (h : PhaseInReturning s) (hf : PhaseInReturning (f s)) :
    PhaseInReturning (nowOrRecorded r f s) := by
  unfold nowOrRecorded
  (repeat' split) <;> first | exact hf | exact h.of_eq rfl rfl

theorem arbiterTakes_phaseInReturning (b : Bool) (m : NextMessage) (act : State → State) {s : State} (h : PhaseInReturning s)
    (ha : ∀ t, (act t).path.path = t.path.path ∧ (act t).path.phase = t.path.phase) : PhaseInReturning (arbiterTakes b m act s) := by
  unfold arbiterTakes
  dsimp only
  (repeat' split) <;> exact h.of_eq (by simp [ha]) (by simp [ha])

theorem doConfigurationLoadEnd_phaseInReturning (acknowledged bypass : Bool) (image : List Byte) {s : State} (hb : LoadBlank s) (h : PhaseInReturning s) :
    PhaseInReturning (doConfigurationLoadEnd acknowledged bypass image s) := by
  unfold doConfigurationLoadEnd
  split
  · have hs := (hb (by simp_all)).2.2.2.2.1
    exact loadEnds_phaseInReturning _ _ _ (by rw [hs]; rfl)
  · exact h

theorem doShadowReadsCarried_phaseInReturning {s : State} (h : PhaseInReturning s) :
    PhaseInReturning (doShadowReadsCarried s) := by
  unfold doShadowReadsCarried
  split
  · exact carryHead_phaseInReturning h
  · exact h

theorem doLosLinkChange_phaseInReturning (los link : Bool) {s : State} (h : PhaseInReturning s) :
    PhaseInReturning (doLosLinkChange los link s) := by
  unfold doLosLinkChange
  dsimp only
  (repeat' split) <;> exact h.of_eq (by simp) (by simp)

theorem doOffhookAssert_phaseInReturning {s : State} (h : PhaseInReturning s) :
    PhaseInReturning (doOffhookAssert s) := by
  unfold doOffhookAssert
  dsimp only
  (repeat' split) <;> exact h.of_eq (by simp) (by simp)

theorem doOffhookDeassert_phaseInReturning {s : State} (h : PhaseInReturning s) :
    PhaseInReturning (doOffhookDeassert s) := by
  unfold doOffhookDeassert
  split
  · exact settle_phaseInReturning (evalReturn_phaseInReturning (h.of_eq (by simp) (by simp)))
  · exact h

theorem doMainsLostAssert_phaseInReturning {s : State} (h : PhaseInReturning s) :
    PhaseInReturning (doMainsLostAssert s) := by
  unfold doMainsLostAssert
  dsimp only
  (repeat' split) <;> exact h.of_eq (by simp) (by simp)

theorem doMainsLostDeassert_phaseInReturning {s : State} (h : PhaseInReturning s) :
    PhaseInReturning (doMainsLostDeassert s) := by
  unfold doMainsLostDeassert
  dsimp only
  (repeat' split) <;> exact h.of_eq (by simp) (by simp)

theorem doRiAssert_phaseInReturning {s : State} (h : PhaseInReturning s) :
    PhaseInReturning (doRiAssert s) := by
  unfold doRiAssert
  dsimp only
  exact h.of_eq (by simp) (by simp)

theorem doModuleReady_phaseInReturning {s : State} (h : PhaseInReturning s) :
    PhaseInReturning (doModuleReady s) := by
  unfold doModuleReady
  split
  · exact settle_phaseInReturning (moduleIsReady_phaseInReturning h)
  · exact h

theorem doAttachResult_phaseInReturning (tag : Byte) {s : State} (h : PhaseInReturning s) :
    PhaseInReturning (doAttachResult tag s) := by
  unfold doAttachResult
  split
  · split
    · exact settle_phaseInReturning (attachSucceeds_phaseInReturning h)
    · simp only [PhaseInReturning, settle_frame, afterFailure_frame]
      exact radioReport_phaseInReturning (h.of_eq (by simp) (by simp))
  · exact h

theorem doGrantReport_phaseInReturning (uplink downlink : BitVec 16) (quality : Byte) {s : State} (h : PhaseInReturning s) :
    PhaseInReturning (doGrantReport uplink downlink quality s) := by
  unfold doGrantReport
  dsimp only
  (repeat' split) <;> exact h.of_eq (by simp) (by simp)

theorem doSendResult_phaseInReturning (tag : Byte) {s : State} (h : PhaseInReturning s) :
    PhaseInReturning (doSendResult tag s) := by
  unfold doSendResult
  (repeat' split) <;> exact h.of_eq (by simp) (by simp)

theorem doCoverageLost_phaseInReturning {s : State} (h : PhaseInReturning s) :
    PhaseInReturning (doCoverageLost s) := by
  unfold doCoverageLost
  split
  · exact settle_phaseInReturning (attachedLost_phaseInReturning h)
  · exact h

theorem doDeliverDownHeader_phaseInReturning (tag : Byte) (length : BitVec 16) {s : State} (h : PhaseInReturning s) :
    PhaseInReturning (doDeliverDownHeader tag length s) := by
  unfold doDeliverDownHeader
  dsimp only
  (repeat' split) <;> exact h.of_eq (by simp) (by simp)

theorem doDeliverDownEnd_phaseInReturning (payload : List Byte) {s : State} (h : PhaseInReturning s) :
    PhaseInReturning (doDeliverDownEnd payload s) := by
  unfold doDeliverDownEnd
  dsimp only
  (repeat' split) <;> exact h.of_eq (by simp) (by simp)

theorem doBadCarrierHeader_phaseInReturning (type tag : Byte) (length : BitVec 16) {s : State} (h : PhaseInReturning s) :
    PhaseInReturning (doBadCarrierHeader type tag length s) := by
  unfold doBadCarrierHeader
  dsimp only
  (repeat' split) <;> exact h.of_eq (by simp) (by simp)

theorem doLinkFramingError_phaseInReturning {s : State} (h : PhaseInReturning s) :
    PhaseInReturning (doLinkFramingError s) := by
  unfold doLinkFramingError
  dsimp only
  (repeat' split) <;> exact h.of_eq (by simp) (by simp)

theorem doAttachRequest_phaseInReturning (mrdy : Bool) {s : State} (h : PhaseInReturning s) :
    PhaseInReturning (doAttachRequest mrdy s) := by
  exact arbiterTakes_phaseInReturning _ _ _ h fun t => by simp

theorem doDetachRequest_phaseInReturning (mrdy : Bool) {s : State} (h : PhaseInReturning s) :
    PhaseInReturning (doDetachRequest mrdy s) := by
  exact arbiterTakes_phaseInReturning _ _ _ h fun t => by simp

theorem doDetachRequestSent_phaseInReturning {s : State} (h : PhaseInReturning s) :
    PhaseInReturning (doDetachRequestSent s) := by
  unfold doDetachRequestSent
  split
  · dsimp only
    split
    · exact settle_phaseInReturning (attachedLost_phaseInReturning (h.of_eq rfl rfl))
    · exact settle_phaseInReturning (h.of_eq rfl rfl)
  · exact h

theorem doSendUp_phaseInReturning (mrdy : Bool) {s : State} (h : PhaseInReturning s) :
    PhaseInReturning (doSendUp mrdy s) := by
  unfold doSendUp
  split
  · exact arbiterTakes_phaseInReturning _ _ _ h fun t => by simp
  · exact h.of_eq rfl rfl

theorem doSendUpEnd_phaseInReturning {s : State} (h : PhaseInReturning s) :
    PhaseInReturning (doSendUpEnd s) := by
  unfold doSendUpEnd
  dsimp only
  (repeat' split) <;> exact h.of_eq (by simp) (by simp)

theorem doPauseDown_phaseInReturning (mrdy : Bool) {s : State} (h : PhaseInReturning s) :
    PhaseInReturning (doPauseDown mrdy s) := by
  exact arbiterTakes_phaseInReturning _ _ _ h fun t => by simp

theorem doResumeDown_phaseInReturning (mrdy : Bool) {s : State} (h : PhaseInReturning s) :
    PhaseInReturning (doResumeDown mrdy s) := by
  exact arbiterTakes_phaseInReturning _ _ _ h fun t => by simp

theorem doDownCap_phaseInReturning (mrdy : Bool) {s : State} (h : PhaseInReturning s) :
    PhaseInReturning (doDownCap mrdy s) := by
  exact arbiterTakes_phaseInReturning _ _ _ h fun t => by simp

theorem doLowPower_phaseInReturning (mrdy : Bool) {s : State} (h : PhaseInReturning s) :
    PhaseInReturning (doLowPower mrdy s) := by
  unfold doLowPower
  split
  · exact arbiterTakes_phaseInReturning _ _ _ h fun t => by simp
  · exact h.of_eq rfl rfl

theorem doLowPowerSent_phaseInReturning {s : State} (h : PhaseInReturning s) :
    PhaseInReturning (doLowPowerSent s) := by
  unfold doLowPowerSent
  dsimp only
  (repeat' split) <;> exact h.of_eq (by simp) (by simp)

theorem doModuleResetRelease_phaseInReturning {s : State} (h : PhaseInReturning s) :
    PhaseInReturning (doModuleResetRelease s) := by
  unfold doModuleResetRelease
  dsimp only
  (repeat' split) <;> exact h.of_eq (by simp) (by simp)

theorem doStartTimerExpiry_phaseInReturning {s : State} (h : PhaseInReturning s) :
    PhaseInReturning (doStartTimerExpiry s) := by
  unfold doStartTimerExpiry
  split
  · exact settle_phaseInReturning (nowOrRecorded_phaseInReturning _ _ h (startExpires_phaseInReturning h))
  · exact h

theorem doCycleTimerExpiry_phaseInReturning {s : State} (h : PhaseInReturning s) :
    PhaseInReturning (doCycleTimerExpiry s) := by
  unfold doCycleTimerExpiry
  dsimp only
  (repeat' split) <;> exact h.of_eq (by simp) (by simp)

theorem doAttachTimerExpiry_phaseInReturning {s : State} (h : PhaseInReturning s) :
    PhaseInReturning (doAttachTimerExpiry s) := by
  unfold doAttachTimerExpiry
  split
  · exact settle_phaseInReturning (nowOrRecorded_phaseInReturning _ _ h (attachExpires_phaseInReturning h))
  · exact h

theorem doBackoffTimerExpiry_phaseInReturning {s : State} (h : PhaseInReturning s) :
    PhaseInReturning (doBackoffTimerExpiry s) := by
  unfold doBackoffTimerExpiry
  split
  · exact settle_phaseInReturning (nowOrRecorded_phaseInReturning _ _ h (actRecorded_phaseInReturning .backoff h))
  · exact h

theorem doGrantSilenceExpiry_phaseInReturning {s : State} (h : PhaseInReturning s) :
    PhaseInReturning (doGrantSilenceExpiry s) := by
  unfold doGrantSilenceExpiry
  split
  · exact settle_phaseInReturning (attachedLost_phaseInReturning h)
  · exact h

theorem doLingerTimerExpiry_phaseInReturning {s : State} (h : PhaseInReturning s) :
    PhaseInReturning (doLingerTimerExpiry s) := by
  unfold doLingerTimerExpiry
  split
  · exact settle_phaseInReturning (nowOrRecorded_phaseInReturning _ _ h (actRecorded_phaseInReturning .linger h))
  · exact h

theorem doSendResultTimeout_phaseInReturning (slot : Slot) {s : State} (h : PhaseInReturning s) :
    PhaseInReturning (doSendResultTimeout slot s) := by
  unfold doSendResultTimeout
  (repeat' split) <;> exact h.of_eq (by simp) (by simp)

theorem doHealth100msExpiry_phaseInReturning {s : State} (h : PhaseInReturning s) :
    PhaseInReturning (doHealth100msExpiry s) := by
  unfold doHealth100msExpiry
  split
  · dsimp only
    split <;> exact settle_phaseInReturning (evaluate_phaseInReturning (h.of_eq (by simp) (by simp)))
  · exact h

theorem doHealth1sExpiry_phaseInReturning {s : State} (h : PhaseInReturning s) :
    PhaseInReturning (doHealth1sExpiry s) := by
  unfold doHealth1sExpiry
  split
  · exact settle_phaseInReturning (evaluate_phaseInReturning (h.of_eq (by simp) (by simp)))
  · exact h

theorem doReleaseTimerExpiry_phaseInReturning {s : State} (h : PhaseInReturning s) :
    PhaseInReturning (doReleaseTimerExpiry s) := by
  unfold doReleaseTimerExpiry
  split
  · exact settle_phaseInReturning (nowOrRecorded_phaseInReturning _ _ h (actRecorded_phaseInReturning .release h))
  · exact h

theorem doDwellTimerExpiry_phaseInReturning {s : State} (h : PhaseInReturning s) :
    PhaseInReturning (doDwellTimerExpiry s) := by
  unfold doDwellTimerExpiry
  split
  · exact settle_phaseInReturning (nowOrRecorded_phaseInReturning _ _ h (dwellExpires_phaseInReturning h))
  · exact h

theorem doDrainComplete_phaseInReturning {s : State} (h : PhaseInReturning s) :
    PhaseInReturning (doDrainComplete s) := by
  unfold doDrainComplete
  split
  · exact settle_phaseInReturning (phaseInReturning_of_returning (by simp_all [draining]))
  · exact h

theorem doDrainTimerExpiry_phaseInReturning {s : State} (h : PhaseInReturning s) :
    PhaseInReturning (doDrainTimerExpiry s) := by
  unfold doDrainTimerExpiry
  split
  · exact settle_phaseInReturning (phaseInReturning_of_returning (by simp_all [draining]))
  · exact h

theorem doRefallTimerExpiry_phaseInReturning {s : State} (h : PhaseInReturning s) :
    PhaseInReturning (doRefallTimerExpiry s) := by
  unfold doRefallTimerExpiry
  split
  · exact nowOrRecorded_phaseInReturning _ _ h (h.of_eq rfl rfl)
  · exact h

theorem doPriorityTimerExpiry_phaseInReturning {s : State} (h : PhaseInReturning s) :
    PhaseInReturning (doPriorityTimerExpiry s) := by
  unfold doPriorityTimerExpiry
  split
  · exact settle_phaseInReturning (nowOrRecorded_phaseInReturning _ _ h (priorityExpires_phaseInReturning h))
  · exact h

theorem doPacingTimerExpiry_phaseInReturning {s : State} (h : PhaseInReturning s) :
    PhaseInReturning (doPacingTimerExpiry s) := by
  unfold doPacingTimerExpiry
  dsimp only
  (repeat' split) <;> exact h.of_eq (by simp) (by simp)

theorem doRefusalPauseEnd_phaseInReturning {s : State} (h : PhaseInReturning s) :
    PhaseInReturning (doRefusalPauseEnd s) := by
  unfold doRefusalPauseEnd
  dsimp only
  (repeat' split) <;> exact h.of_eq (by simp) (by simp)

theorem doSweep10ms_phaseInReturning {s : State} (h : PhaseInReturning s) :
    PhaseInReturning (doSweep10ms s) := by
  unfold doSweep10ms
  dsimp only
  (repeat' split) <;> exact h.of_eq (by simp) (by simp)

theorem doSweep1s_phaseInReturning {s : State} (h : PhaseInReturning s) :
    PhaseInReturning (doSweep1s s) := by
  unfold doSweep1s
  dsimp only
  (repeat' split) <;> exact h.of_eq (by simp) (by simp)

theorem doDeliveryEnd_phaseInReturning {s : State} (h : PhaseInReturning s) :
    PhaseInReturning (doDeliveryEnd s) := by
  unfold doDeliveryEnd
  dsimp only
  (repeat' split) <;> exact h.of_eq (by simp) (by simp)

theorem doEventPost_phaseInReturning {s : State} (h : PhaseInReturning s) :
    PhaseInReturning (doEventPost s) := by
  unfold doEventPost
  (repeat' split) <;> exact h.of_eq (by simp) (by simp)

theorem doStatusRefreshExpiry_phaseInReturning {s : State} (h : PhaseInReturning s) :
    PhaseInReturning (doStatusRefreshExpiry s) := by
  unfold doStatusRefreshExpiry
  dsimp only
  (repeat' split) <;> exact h.of_eq (by simp) (by simp)

theorem doStatusPageWrite_phaseInReturning {s : State} (h : PhaseInReturning s) :
    PhaseInReturning (doStatusPageWrite s) := by
  unfold doStatusPageWrite
  (repeat' split) <;> exact h.of_eq (by simp) (by simp)

theorem doSoftResetDiscard_phaseInReturning {s : State} (h : PhaseInReturning s) :
    PhaseInReturning (doSoftResetDiscard s) := by
  unfold doSoftResetDiscard
  (repeat' split) <;> exact h.of_eq (by simp) (by simp)

theorem doMainsReturnExpiry_phaseInReturning {s : State} (h : PhaseInReturning s) :
    PhaseInReturning (doMainsReturnExpiry s) := by
  unfold doMainsReturnExpiry
  dsimp only
  (repeat' split) <;> exact h.of_eq (by simp) (by simp)

theorem doQuietTimerExpiry_phaseInReturning {s : State} (h : PhaseInReturning s) :
    PhaseInReturning (doQuietTimerExpiry s) := by
  unfold doQuietTimerExpiry
  dsimp only
  (repeat' split) <;> exact h.of_eq (by simp) (by simp)

theorem doDozeEntrySettled_phaseInReturning {s : State} (h : PhaseInReturning s) :
    PhaseInReturning (doDozeEntrySettled s) := by
  unfold doDozeEntrySettled
  dsimp only
  (repeat' split) <;> exact h.of_eq (by simp) (by simp)

theorem doDozeReached_phaseInReturning {s : State} (h : PhaseInReturning s) :
    PhaseInReturning (doDozeReached s) := by
  unfold doDozeReached
  (repeat' split) <;> exact h.of_eq (by simp) (by simp)

theorem doDozeTimerExpiry_phaseInReturning {s : State} (h : PhaseInReturning s) :
    PhaseInReturning (doDozeTimerExpiry s) := by
  unfold doDozeTimerExpiry
  dsimp only
  (repeat' split) <;> exact h.of_eq (by simp) (by simp)

theorem doRestartEnd_phaseInReturning {s : State} (h : PhaseInReturning s) :
    PhaseInReturning (doRestartEnd s) := by
  unfold doRestartEnd
  split
  · refine settle_phaseInReturning (evalReturn_phaseInReturning (useLatch_phaseInReturning ?_))
    exact (actAllRecorded_phaseInReturning (h.of_eq (t := startBlocks s) (by simp) (by simp))).of_eq (by simp) (by simp)
  · exact h

theorem doLinkReceiverResync_phaseInReturning {s : State} (h : PhaseInReturning s) :
    PhaseInReturning (doLinkReceiverResync s) := by
  unfold doLinkReceiverResync
  dsimp only
  (repeat' split) <;> exact h.of_eq (by simp) (by simp)

/-- What a command does to the state keeps the invariant; the end of the load begins from a blank part (R1, R175). -/
theorem exec_phaseInReturning (c : Instr) {s t : State} (hb : LoadBlank s) (h : PhaseInReturning s) (e : exec c s = .next t) :
    PhaseInReturning t := by
  cases c <;> cases e
  · exact phaseInReturning_of_none rfl
  · exact doConfigurationLoadEnd_phaseInReturning _ _ _ hb h
  · exact doShadowReadsCarried_phaseInReturning h
  · exact gatewayTransfer_phaseInReturning _ _ h
  · exact gatewayTransfer_phaseInReturning _ _ h
  · exact gatewayTransfer_phaseInReturning _ _ h
  · exact gatewayTransfer_phaseInReturning _ _ h
  · exact gatewayTransfer_phaseInReturning _ _ h
  · exact gatewayTransfer_phaseInReturning _ _ h
  · exact gatewayTransfer_phaseInReturning _ _ h
  · exact gatewayTransfer_phaseInReturning _ _ h
  · exact gatewayTransfer_phaseInReturning _ _ h
  · exact gatewayTransfer_phaseInReturning _ _ h
  · exact gatewayTransfer_phaseInReturning _ _ h
  · exact carryHead_phaseInReturning h
  · exact doLosLinkChange_phaseInReturning _ _ h
  · exact doOffhookAssert_phaseInReturning h
  · exact doOffhookDeassert_phaseInReturning h
  · exact doMainsLostAssert_phaseInReturning h
  · exact doMainsLostDeassert_phaseInReturning h
  · exact doRiAssert_phaseInReturning h
  · exact doModuleReady_phaseInReturning h
  · exact doAttachResult_phaseInReturning _ h
  · exact doGrantReport_phaseInReturning _ _ _ h
  · exact doSendResult_phaseInReturning _ h
  · exact doCoverageLost_phaseInReturning h
  · exact doDeliverDownHeader_phaseInReturning _ _ h
  · exact doDeliverDownEnd_phaseInReturning _ h
  · exact doBadCarrierHeader_phaseInReturning _ _ _ h
  · exact doLinkFramingError_phaseInReturning h
  · exact doAttachRequest_phaseInReturning _ h
  · exact doDetachRequest_phaseInReturning _ h
  · exact doDetachRequestSent_phaseInReturning h
  · exact doSendUp_phaseInReturning _ h
  · exact doSendUpEnd_phaseInReturning h
  · exact doPauseDown_phaseInReturning _ h
  · exact doResumeDown_phaseInReturning _ h
  · exact doDownCap_phaseInReturning _ h
  · exact doLowPower_phaseInReturning _ h
  · exact doLowPowerSent_phaseInReturning h
  · exact doModuleResetRelease_phaseInReturning h
  · exact doStartTimerExpiry_phaseInReturning h
  · exact doCycleTimerExpiry_phaseInReturning h
  · exact doAttachTimerExpiry_phaseInReturning h
  · exact doBackoffTimerExpiry_phaseInReturning h
  · exact doGrantSilenceExpiry_phaseInReturning h
  · exact doLingerTimerExpiry_phaseInReturning h
  · exact doSendResultTimeout_phaseInReturning _ h
  · exact doHealth100msExpiry_phaseInReturning h
  · exact doHealth1sExpiry_phaseInReturning h
  · exact carryWhen_phaseInReturning _ h
  · exact doReleaseTimerExpiry_phaseInReturning h
  · exact doDwellTimerExpiry_phaseInReturning h
  · exact doDrainComplete_phaseInReturning h
  · exact doDrainTimerExpiry_phaseInReturning h
  · exact carryWhen_phaseInReturning _ h
  · exact doRefallTimerExpiry_phaseInReturning h
  · exact doPriorityTimerExpiry_phaseInReturning h
  · exact carryWhen_phaseInReturning _ h
  · exact carryWhen_phaseInReturning _ h
  · exact doPacingTimerExpiry_phaseInReturning h
  · exact doRefusalPauseEnd_phaseInReturning h
  · exact doSweep10ms_phaseInReturning h
  · exact doSweep1s_phaseInReturning h
  · exact carryWhen_phaseInReturning _ h
  · exact doDeliveryEnd_phaseInReturning h
  · exact doEventPost_phaseInReturning h
  · exact doStatusRefreshExpiry_phaseInReturning h
  · exact doStatusPageWrite_phaseInReturning h
  · exact carryWhen_phaseInReturning _ h
  · exact doSoftResetDiscard_phaseInReturning h
  · exact doMainsReturnExpiry_phaseInReturning h
  · exact doQuietTimerExpiry_phaseInReturning h
  · exact doDozeEntrySettled_phaseInReturning h
  · exact doDozeReached_phaseInReturning h
  · exact doDozeTimerExpiry_phaseInReturning h
  · exact doRestartEnd_phaseInReturning h
  · exact doLinkReceiverResync_phaseInReturning h
  · exact phaseInReturning_of_none rfl

/-- Every step keeps a return phase within RETURNING (R1, R16, R19, R20, R24). -/
theorem step_phaseInReturning {s t : State} (hb : LoadBlank s) (h : PhaseInReturning s) (e : step s = .next t) : PhaseInReturning t := by
  unfold step at e
  split at e
  · cases e
    unfold tick
    split <;> exact h.of_eq rfl rfl
  · rename_i c rest _
    exact exec_phaseInReturning c (s := { s with pending := rest }) hb (h.of_eq rfl rfl) e

/-- The state right after reset has no return phase. -/
theorem reset_phaseInReturning : PhaseInReturning State.reset := phaseInReturning_of_none rfl

end Sys2Proof.Machine
end

