-- ==== Sys2Proof/Tests/Slice0.lean ====
section
/-! SUPPORT. Tests: operands no sender can bring, one command each against the worked figures of the chapters, and for every
statement a state and operands that meet its hypotheses. -/

-- One theorem at a time: the threads of many at once would not fit the memory a check has.
set_option Elab.async false

namespace Sys2Proof.Tests
open Sys2Proof.Machine

/-- A small map: rings of 16, an event ring of 8, the watched words from 8000₁₆. -/
def map0 : MemoryMap := ⟨0x1000, 16, 0x2000, 16, 0x3000, 8, 0x4000, 0x5000, 0x8000, 0x8004, 0x8008, 0x800c, 0x8010, 0x8014⟩

/-- The image of that map: signature, link clock 13 MHz, the map's fields, a policy block of zeros. -/
def goodImage : List Byte :=
  leBytes 2 0x3140 ++ [13, 0] ++ leBytes 4 0x1000 ++ leBytes 2 16 ++ leBytes 2 16 ++ leBytes 4 0x2000 ++ leBytes 4 0x3000 ++ [8, 0, 0, 0]
    ++ ([0x4000, 0x5000, 0x8000, 0x8004, 0x8008, 0x800c, 0x8010, 0x8014].flatMap (leBytes 4)) ++ List.replicate 1992 0

/-- A part that works: the load ended in FIBRE with that map and shadows of 0, no timer running, the radio OFF. -/
def works : State :=
  { State.reset with
    loader.phase := .ended, loader.map := some map0, loader.shadowsLoaded := true, path.path := .fibre,
    bus.shadows := ⟨some 0, some 0, some 0, some 0, some 0, some 0⟩ }

/-- The module powered, its reset released. -/
def powered : State := { works with radio.mpwr := true, radio.mrst := false }

/-- The radio ATTACHING with an ordinary Attach Request sent. -/
def attaching : State := { powered with radio.state := .attaching, radio.ready := true, radio.attachTag := some false }

/-- The radio ATTACHED. -/
def attached : State := { powered with radio.state := .attached, radio.ready := true }

/-- The part in DOZE. -/
def dozing : State := { works with power.mode := .doze, power.step := .dozing }

/-- The path in RETURNING, draining. -/
def draining0 : State := { works with path.path := .returning, path.phase := some .draining }

/-- The command answers a next state of which `p` holds. -/
def after (c : Instr) (s : State) (p : State → Bool) : Bool :=
  match exec c s with
  | .next t => p t
  | _ => false

/-! ### One command each, against the worked figures and rules of the chapters -/

theorem test_refuses_write_of_no_words : Instr.wellFormed (.gatewayTransfer .p (.write 0 [])) = false := by decide +kernel

theorem test_refuses_write_of_three_words : Instr.wellFormed (.txpWordWrite .p 0 [⟨0, 15⟩, ⟨0, 15⟩, ⟨0, 15⟩]) = false := by decide +kernel

theorem test_refuses_txc_write_of_no_words : Instr.wellFormed (.txcWordWrite .u 0 []) = false := by decide +kernel

theorem test_refuses_rxp_write_of_no_words : Instr.wellFormed (.rxpWordWrite .p 0 []) = false := by decide +kernel

theorem test_refuses_rxf_write_of_no_words : Instr.wellFormed (.rxfWordWrite .u 0 []) = false := by decide +kernel

theorem test_refuses_evc_write_of_no_words : Instr.wellFormed (.evcWordWrite .p 0 []) = false := by decide +kernel

theorem test_refuses_pgen_write_of_no_words : Instr.wellFormed (.pgenWordWrite .p 0 []) = false := by decide +kernel

theorem test_refuses_completion_write_of_no_words : Instr.wellFormed (.txRingCompletionWrite 0 []) = false := by decide +kernel

theorem test_refuses_stale_write_of_no_words : Instr.wellFormed (.staleUplinkWrite 0 []) = false := by decide +kernel

theorem test_refuses_short_image : Instr.wellFormed (.configurationLoadEnd true false []) = false := by decide +kernel

theorem test_refuses_long_deliver_down : Instr.wellFormed (.deliverDownHeader 0 2048) = false := by decide +kernel

theorem test_refuses_empty_payload : Instr.wellFormed (.deliverDownEnd []) = false := by decide +kernel

theorem test_refuses_long_payload : Instr.wellFormed (.deliverDownEnd (List.replicate 2048 0)) = false := by decide +kernel

theorem test_accepts_longest_payload : Instr.wellFormed (.deliverDownEnd (List.replicate 2047 0)) = true := by decide +kernel

/-- No row of the table has bits, so no word spells a command. -/
theorem test_no_word_spells_a_command : decodeTableWord 32 0x12345678 = none ∧ State.reset.withFetchWord 32 0x12345678 = State.reset := by decide +kernel

/-- R172: nothing runs while RESET# is held. -/
theorem test_reset_held :
    after (.resetAsserted) (works) fun t => decide (t.loader.phase = .heldInReset) && decide (t.path.path = .disabled) && decide (t.bus.queue = []) := by
  decide +kernel

/-- R176: the polarity strap is sampled at power-on. -/
theorem test_power_on_samples_strap :
    after (.powerOnReset true) (works) fun t => decide (t.pins.intPolarity = true) && decide (t.loader.phase = .loading) := by
  decide +kernel

/-- The block of a vendor image, its bytes written from the defaults of R163 and R28 at the places of 11.4. -/
def vendorBlock : List Byte :=
  [60, 0, 20, 5, 0, 0, 0, 0, 60, 10, 60, 120, 20, 20, 40, 100, 40, 40, 50, 100, 16, 4, 30, 100, 0xea, 5, 24, 60, 15, 20, 48, 128,
    0, 0x20, 28, 1, 0, 1, 64, 0, 0, 0, 120, 0, 0, 0, 0, 0, 30, 0, 30, 10]

/-- R173, R175, R163: a valid image starts the part in FIBRE with six shadow reads, TXP first; a vendor image's default policy holds the
defaults, none of its fields clamped. -/
theorem test_load_of_valid_image :
    after (.configurationLoadEnd true false (goodImage.take 128 ++ vendorBlock ++ List.replicate 1868 0))
      ({ State.reset with loader.policy.d0 := 3600 }) fun t =>
    decide (t.path.path = .fibre) && decide (t.loader.map = some map0) && decide ((t.bus.queue.map (·.transfer)).take 1 = [.read 0x8000 .one])
    && decide (t.loader.policy = Policy.default) && decide (clampedCount vendorBlock = 0) := by
  decide +kernel

/-- R173: BYPASS gives flash code 7. -/
theorem test_bypass_gives_code_7 :
    after (.configurationLoadEnd true true goodImage) (State.reset) fun t => decide (t.loader.flashCode = 7) && decide (pathLed t = .flashCode 7) := by
  decide +kernel

/-- R173 check 5, R142: TXP given past the top of packet memory stands on a descriptor of the transmit ring. -/
theorem test_watched_word_wraps_into_ring :
    after (.configurationLoadEnd true false ((goodImage.set 33 0x10).set 35 1)) (State.reset) fun t => decide (t.loader.flashCode = 5) && decide (t.path.path = .disabled) := by
  decide +kernel

/-- R145: the last shadow read ends the load of the shadows; EVP becomes the EVC count. -/
theorem test_last_shadow_read_starts_up :
    after (.shadowReadsCarried) ({ works with
      loader.shadowsLoaded := false, bus.shadows := ⟨some 0, some 3, some 0, some 0, some 7, none⟩,
      bus.queue := [⟨.shadowRead .pgen, .read 0x8014 .one⟩] }) fun t => decide (t.loader.shadowsLoaded = true) && decide (t.events.evp = 7) &&
    decide (t.health.txReference = some 3) := by
  decide +kernel

/-- R141, R143: only the enabled bytes change. -/
theorem test_byte_lanes :
    after (.txcWordWrite .u 0x8004 [⟨0x04030201, 5⟩]) ({ works with sram := [⟨0x8005, 9⟩] }) fun t => decide (memWord t.sram 0x8004 = 0x00030901)
    && decide (t.bus.shadows.txc = some 0x00030001) := by
  decide +kernel

/-- 8.8 step 4: a U read of the TXP word returns the view 104. -/
theorem test_u_read_of_txp_sees_view :
    after (.uReadTxpWord 0x8000 .one) ({ works with
      sram := [⟨0x8000, 108⟩], path.path := .radio, bus.uplinkView := .fixed, bus.uplinkViewValue := some 104 }) fun t => decide
    (t.bus.gatewayData = [104]) && decide (t.bus.txHorizon = some 104) := by
  decide +kernel

/-- R146: with no view the horizon is the count read. -/
theorem test_u_read_of_rxp_sets_horizon :
    after (.uReadRxpWord 0x8008 .one) ({ works with sram := [⟨0x8008, 532 % 256⟩, ⟨0x8009, 2⟩] }) fun t => decide (t.bus.gatewayData = [532]) &&
    decide (t.bus.rxHorizon = some 532) := by
  decide +kernel

/-- 8.8 step 1: a U write of TXC = 102 is carried while H is 104. -/
theorem test_own_pass_moves_txc :
    after (.txcWordWrite .u 0x8004 [⟨102, 15⟩]) ({ works with
      path.path := .radio, path.txReleased := false, bus.fixedH := some 104, bus.shadows.txc := some 101, bus.uplinkView := .fixed,
      bus.uplinkViewValue := some 104 }) fun t => decide (t.bus.shadows.txc = some 102) && decide (t.path.txReleased = false) && decide
    (t.bus.uplinkViewValue = some 104) := by
  decide +kernel

/-- 8.8 step 2: Abandoned 102, Abandoned 103, TXC = 104, and behind it TXC = 106 over the DONE prefix. -/
theorem test_forced_release_queue :
    after (.releaseTimerExpiry) ({ works with
      path.path := .radio, path.releaseTimer := some 0, path.txReleased := false, bus.fixedH := some 104, bus.shadows.txc := some 102,
      bus.uplinkView := .fixed, bus.uplinkViewValue := some 104, bus.shadows.txp := some 106, ring.base := some 104, ring.readMark := some 106,
      ring.window := [⟨104, .done, 1, 180, 0, 1, false⟩, ⟨105, .done, 0, 1514, 0, 6, false⟩] }) fun t => decide ((t.bus.queue.map (·.purpose)) =
    [.completion 102 .abandoned, .completion 103 .abandoned, .txcForced, .txcAdvance]) && decide (t.ring.partTxc = some 106) && decide
    (t.path.txReleased = true) && decide (t.bus.txGuard = true) := by
  decide +kernel

/-- 8.8 step 5: a U completion under the guard is dropped and counted. -/
theorem test_stale_completion_dropped :
    after (.staleUplinkWrite 0x1064 [⟨0x03000000, 8⟩]) ({ works with path.path := .radio, bus.txGuard := true }) fun t => decide (t.sram = []) &&
    decide ((counterOf t .staleUplinkWrites).value = 1) := by
  decide +kernel

/-- 8.8 step 10: TXC = 104 is carried; shadow and view are 104, the advance to 106 stays behind it. -/
theorem test_master_carries_forced_txc :
    after (.masterTransferCarried) ({ works with
      path.path := .radio, bus.txGuard := true, bus.uplinkView := .following, bus.uplinkViewValue := some 104, bus.shadows.txc := some 102,
      bus.shadows.txp := some 106, ring.base := some 106, ring.partTxc := some 106, ring.readMark := some 106,
      bus.queue := [⟨.txcForced, .write 0x8004 [⟨104, 15⟩]⟩, ⟨.txcAdvance, .write 0x8004 [⟨106, 15⟩]⟩] }) fun t => decide (t.bus.shadows.txc =
    some 104) && decide (t.bus.uplinkViewValue = some 104) && decide (t.bus.queue.map (·.purpose) = [.txcAdvance]) := by
  decide +kernel

/-- 3.12: twenty descriptors in a ring of sixteen: overrun raised with TXP 220, the first read covers slots 8 to 11. -/
theorem test_overrun_of_sixteen :
    after (.txpWordWrite .p 0x8000 [⟨220, 15⟩]) ({ works with
      path.path := .radio, bus.shadows.txp := some 200, bus.shadows.txc := some 200, ring.base := some 200, ring.partTxc := some 200,
      ring.readMark := some 200 }) fun t => decide (t.ring.overrun = true) && decide (detailOfKind t .busAnomaly = some (.producerOverrun
    .transmit 220)) && decide (t.bus.queue = [⟨.descriptorRead 200 4, .read 0x1080 .sixteen⟩]) := by
  decide +kernel

/-- R129: sixteen posted buffers are no overrun. -/
theorem test_rxp_overrun_boundary :
    after (.rxpWordWrite .p 0x8008 [⟨16, 15⟩]) ({ works with path.path := .held }) fun t => decide (t.ring.rxOverrun = false) := by
  decide +kernel

/-- R42: a U write of RXF in FIBRE sets the activity mark. -/
theorem test_rxf_by_mac_marks_activity :
    after (.rxfWordWrite .u 0x800c [⟨1, 15⟩]) (works) fun t => decide (t.health.activityMark = true) := by
  decide +kernel

/-- R33: completion 1 is a recovery, stopped at 253. -/
theorem test_mac_completion_carried :
    after (.txRingCompletionWrite 0x1004 [⟨0x01000000, 8⟩]) ({ works with health.txe := 250 }) fun t => decide (t.health.txe = 253) && decide
    (memRead t.sram 0x1007 = 1) := by
  decide +kernel

/-- R162: a changed generation word starts the two policy reads. -/
theorem test_pgen_by_p_reads_policy :
    after (.pgenWordWrite .p 0x8014 [⟨5, 15⟩]) (works) fun t => decide (t.loader.readState = .reading) && decide ((t.bus.queue.map (·.transfer)) = [.read 0x4000 .sixteen, .read 0x4040 .sixteen]) := by
  decide +kernel

/-- 10.7 last row: EVC = 50 leaves Policy Applied posted and INT deasserted. -/
theorem test_masked_kind_leaves_int_low :
    after (.evcWordWrite .p 0x8010 [⟨50, 15⟩]) ({ works with
      loader.policy.eventMask := 0x200, events.evp := 51, bus.shadows.evc := some 49,
      events.slotKinds := ((List.replicate 64 none).set 1 (some .dataLoss)).set 2 (some .policyApplied) }) fun t => decide (postedKinds t =
    [.policyApplied]) && decide (intAsserted t = false) := by
  decide +kernel

/-- 10.7: with EVC = 49 the Data Loss holds INT. -/
theorem test_unmasked_kind_holds_int :
    after (.evcWordWrite .p 0x8010 [⟨49, 15⟩]) ({ works with
      loader.policy.eventMask := 0x200, events.evp := 51, bus.shadows.evc := some 49,
      events.slotKinds := ((List.replicate 64 none).set 1 (some .dataLoss)).set 2 (some .policyApplied) }) fun t => decide (postedKinds t =
    [.dataLoss, .policyApplied]) && decide (intAsserted t = true) := by
  decide +kernel

/-- 10.7: Path Change is posted before Data Loss, at position 48. -/
theorem test_path_change_posts_before_data_loss :
    after (.eventPost) ({ works with
      events.evp := 48, bus.shadows.evc := some 42,
      events.entries := ((List.replicate 11 none).set 1 (some ⟨1, 7, .pathChange .fibre .takeover .verdict⟩)).set 6 (some ⟨3, 9, .dataLoss ⟨.expired, .uplink, .data, none, 15001⟩⟩) })
    fun t => decide (t.events.evp = 49) && decide ((t.bus.queue.map (·.transfer)).head? = some (.write 0x3000 [⟨0x00000102, 15⟩, ⟨7, 15⟩,
    ⟨0x00010201, 15⟩, ⟨0, 15⟩])) := by
  decide +kernel

/-- 2.7: the first sample of a loss of light. -/
theorem test_sig_falls_to_193 :
    after (.health100msExpiry) ({ works with health.timer100 := some 0, health.sig := 253, pins.los := true }) fun t => decide (t.health.sig =
    193) && decide (t.health.verdict = .healthy) := by
  decide +kernel

/-- 2.7: the fourth sample; 1.10: TAKEOVER with D = 60 s. -/
theorem test_sig_at_13_turns_the_verdict :
    after (.health100msExpiry) ({ works with
      health.timer100 := some 0, health.sig := 73, pins.los := true, bus.txHorizon := some 104, bus.rxHorizon := some 532 }) fun t => decide
    (t.health.sig = 13) && decide (t.health.verdict = .unhealthy) && decide (t.path.path = .takeover) && decide (t.path.dwellD = 60) && decide
    (t.path.releaseTimer = some 2000) && decide (t.bus.uplinkViewValue = some 104) && decide (t.bus.receiveViewValue = some 532) := by
  decide +kernel

/-- 2.7: sample eighteen of the climb; outside FIBRE the dwell timer starts. -/
theorem test_sig_181_is_healthy_again :
    after (.health100msExpiry) ({ works with
      health.timer100 := some 0, health.sig := 171, pins.link := true, path.path := .held, path.dwellD := 60, health.verdict := .unhealthy }) fun
    t => decide (t.health.sig = 181) && decide (t.health.verdict = .healthy) && decide (t.path.dwell = .running 60000) := by
  decide +kernel

/-- R32: a second without activity is a penalty. -/
theorem test_second_expiry_samples_rxa :
    after (.health1sExpiry) ({ works with health.timer1s := some 0 }) fun t => decide (t.health.rxa = 213) && decide (t.health.timer1s = some
    1000) := by
  decide +kernel

/-- 5.9: 12 000 + 2000 − 12 368 = 1 632. -/
theorem test_seventh_expiry_places_d1 :
    after (.pacingTimerExpiry) ({ attached with
      path.path := .radio, path.radioWanted := true, pacer.grantSeen := true, radio.grantUp := 2000, pacer.pacing := some 0,
      pacer.credit := 12000, hold.uqD := [⟨.data, .uplink, 1514, [0, 1, 2, 3, 4, 5], 0, 0, none⟩] }) fun t => decide (t.pacer.credit = 1632) &&
    decide (t.pacer.chargeA = some 12368) && decide (t.hold.uqD = []) := by
  decide +kernel

/-- 5.9: 12 000 < 12 368: D1 waits. -/
theorem test_sixth_expiry_waits :
    after (.pacingTimerExpiry) ({ attached with
      path.path := .radio, path.radioWanted := true, pacer.grantSeen := true, radio.grantUp := 2000, pacer.pacing := some 0,
      pacer.credit := 10000, hold.uqD := [⟨.data, .uplink, 1514, [0, 1, 2, 3, 4, 5], 0, 0, none⟩] }) fun t => decide (t.pacer.credit = 12000) &&
    decide (t.radio.slotA = none) := by
  decide +kernel

/-- 5.9: the thirteenth expiry stops at 65 536. -/
theorem test_credit_stops_at_cap :
    after (.pacingTimerExpiry) ({ attached with
      path.path := .radio, path.radioWanted := true, pacer.grantSeen := true, radio.grantUp := 2000, pacer.pacing := some 0,
      pacer.credit := 65408 }) fun t => decide (t.pacer.credit = 65536) := by
  decide +kernel

/-- 5.9: 53 776 − 12 368 = 41 408. -/
theorem test_pause_end_places_again :
    after (.refusalPauseEnd) ({ attached with
      path.path := .radio, path.radioWanted := true, pacer.grantSeen := true, radio.grantUp := 2000, pacer.refusalPause := some 0,
      pacer.credit := 53776, hold.uqD := [⟨.data, .uplink, 1514, [0, 1, 2, 3, 4, 5], 0, 0, none⟩] }) fun t => decide (t.pacer.credit = 41408) &&
    decide (t.radio.unsent = [.a]) := by
  decide +kernel

/-- 5.9: D1 Refused: 1 408 + 12 368, the pause of 20 ms, refusal count 1. -/
theorem test_refusal_refunds :
    after (.sendResult 0x10) ({ attached with
      path.path := .radio, path.radioWanted := true, pacer.grantSeen := true, radio.grantUp := 2000, pacer.credit := 1408,
      pacer.chargeA := some 12368, radio.slotA := some ⟨⟨.data, .uplink, 1514, [0, 1, 2, 3, 4, 5], 0, 0, none⟩, true, some 100⟩ }) fun t =>
    decide (t.pacer.credit = 13776) && decide (t.pacer.refusalPause = some 20) && decide (t.hold.uqD.map (·.refusals) = [1]) := by
  decide +kernel

/-- 5.10: frame 13 goes at −6 336 and leaves −8 192. -/
theorem test_voice_goes_at_the_floor :
    after (.pacingTimerExpiry) ({ attached with
      path.path := .radio, path.radioWanted := true, power.mode := .reserve, pacer.allowance := .exhausted, pacer.grantSeen := true,
      radio.grantUp := 2000, loader.policy.burst := 1024, pacer.pacing := some 0, hold.uqV := [⟨.voice, .uplink, 200, [9], 0, 0, none⟩],
      pacer.credit := -6400 }) fun t => decide (t.pacer.credit = -8192) && decide (t.hold.uqV = []) := by
  decide +kernel

/-- 5.10: one bit less and it waits. -/
theorem test_voice_waits_past_the_floor :
    after (.pacingTimerExpiry) ({ attached with
      path.path := .radio, path.radioWanted := true, power.mode := .reserve, pacer.allowance := .exhausted, pacer.grantSeen := true,
      radio.grantUp := 2000, loader.policy.burst := 1024, pacer.pacing := some 0, hold.uqV := [⟨.voice, .uplink, 200, [9], 0, 0, none⟩],
      pacer.credit := -6401 }) fun t => decide (t.pacer.credit = -6337) && decide (t.radio.slotA = none) := by
  decide +kernel

/-- 5.11: the WARNED mark of 2048 MiB and the two counts beside it. -/
theorem test_allowance_marks :
    allowanceOf 2048 1879047988 = .normal ∧ allowanceOf 2048 1879049488 = .warned ∧ allowanceOf 2048 2147484988 = .exhausted := by decide +kernel

/-- 6.12: a result for a free slot is stray. -/
theorem test_stray_result_counted :
    after (.sendResult 0) (attached) fun t => decide ((counterOf t .straySendResults).value = 1) := by
  decide +kernel

/-- 6.12: the slot timer returns D to the head of UQ-D. -/
theorem test_slot_timer_settles :
    after (.sendResultTimeout .a) ({ attached with
      path.path := .radio, path.radioWanted := true, pacer.grantSeen := true, radio.grantUp := 2000,
      radio.slotA := some ⟨⟨.data, .uplink, 1514, [0, 1, 2, 3, 4, 5], 0, 0, none⟩, true, some 0⟩ }) fun t => decide (t.radio.slotA = none) &&
    decide (t.hold.uqD.map (·.refusals) = [1]) && decide (t.pacer.refusalPause = some 20) := by
  decide +kernel

/-- R119: Send Up of a voice frame in slot B carries tag 11₁₆ and the frame. -/
theorem test_send_up_begins :
    after (.sendUp true) ({ attached with
      radio.unsent := [.b], hold.cells := [⟨256 * 9, 7⟩], radio.slotB := some ⟨⟨.voice, .uplink, 2, [9], 0, 0, none⟩, false, some 500⟩ }) fun t
    => decide (t.radio.ldoLast = some ⟨3, 0x11, [7, 0]⟩) := by
  decide +kernel

/-- R119: the sent mark is set at the end. -/
theorem test_send_up_ends :
    after (.sendUpEnd) ({ attached with
      radio.ldo := some (.sendUp .a true (some ⟨.voice, .uplink, 200, [9], 0, 0, none⟩)),
      radio.slotA := some ⟨⟨.voice, .uplink, 200, [9], 0, 0, none⟩, false, some 400⟩ }) fun t => decide (t.radio.slotA.map (·.sent) = some true)
    && decide (t.radio.ldo = none) := by
  decide +kernel

/-- R174: code 7: the seventh flash is lit for its 100 ms. -/
theorem test_flash_code_is_dark_between :
    after (.offhookAssert) ({ State.reset with loader.phase := .ended, loader.flashCode := 7, events.ledMs := 1899 }) fun t => decide (pathLedLit
    t = true) && decide (pathLedLit { t with events.ledMs := 1900 } = false) := by
  decide +kernel

/-- 6.11: Attach Result failure, cause 7: BACKOFF for 4 s, path HELD. -/
theorem test_first_failure_backs_off_4_s :
    after (.attachResult 7) ({ attaching with path.path := .takeover, path.radioWanted := true }) fun t => decide (t.radio.state = .backoff) &&
    decide (t.radio.backoffTimer = some 4000) && decide (t.path.path = .held) := by
  decide +kernel

/-- 6.11: the attach timer, cause 16, 8 s. -/
theorem test_second_failure_backs_off_8_s :
    after (.attachTimerExpiry) ({ attaching with
      radio.attachTimer := some 0, path.path := .held, path.radioWanted := true, radio.failures := 1 }) fun t => decide (t.radio.backoffTimer =
    some 8000) && decide (t.radio.lastCause = some 16) := by
  decide +kernel

/-- 6.11: Radio Unavailable with n = 5 and cause 16; the next backoff is 64 s. -/
theorem test_fifth_failure_is_unavailable :
    after (.attachTimerExpiry) ({ attaching with
      radio.attachTimer := some 0, path.path := .held, path.radioWanted := true, radio.failures := 4 }) fun t => decide (t.radio.backoffTimer =
    some 64000) && decide (detailOfKind t .radioUnavailable = some (.radioUnavailable 16 5)) := by
  decide +kernel

/-- 6.11: ATTACHED, n = 0, silence due in 10 s, path RADIO, the emergency flag clear. -/
theorem test_attach_success_gives_radio :
    after (.attachResult 0) ({ attaching with path.path := .held, path.radioWanted := true, path.emergency := true, radio.failures := 3 }) fun t
    => decide (t.radio.silenceTimer = some 10000) && decide (t.radio.failures = 0) && decide (t.path.path = .radio) && decide (t.path.emergency =
    false) := by
  decide +kernel

/-- 6.11: the first Grant Report restarts the silence timer. -/
theorem test_grant_restarts_silence :
    after (.grantReport 2000 4000 40) ({ attached with radio.silenceTimer := some 9600 }) fun t => decide (t.radio.silenceTimer = some 10000) &&
    decide (t.pacer.grantSeen = true) && decide (t.radio.grantQuality = 31) := by
  decide +kernel

/-- 6.11: the backoff ends in ATTACHING with an attach timer of 30 s. -/
theorem test_backoff_end_attaches :
    after (.backoffTimerExpiry) ({ powered with
      radio.state := .backoff, radio.ready := true, radio.backoffTimer := some 0, path.path := .held, path.radioWanted := true }) fun t => decide
    (t.radio.state = .attaching) && decide (t.radio.attachTimer = some 30000) := by
  decide +kernel

/-- 6.11: the emergency request carries tag 1 and raises Emergency Attach with n = 3. -/
theorem test_emergency_request_tag :
    after (.attachRequest true) ({ attaching with
      radio.items.attach := true, path.emergency := true, radio.failures := 3, radio.lastCause := some 3 }) fun t => decide (t.radio.ldoLast =
    some ⟨1, 1, []⟩) && decide (detailOfKind t .emergencyAttach = some (.emergencyAttach 3 3)) := by
  decide +kernel

/-- R118: ten seconds without a grant. -/
theorem test_silence_leaves_attached :
    after (.grantSilenceExpiry) ({ attached with path.path := .radio, path.radioWanted := true, radio.silenceTimer := some 0 }) fun t => decide
    (t.radio.state = .attaching) && decide (t.path.path = .held) := by
  decide +kernel

/-- R111. -/
theorem test_module_ready_with_radio_wanted :
    after (.moduleReady) ({ powered with radio.state := .starting, path.path := .takeover, path.radioWanted := true }) fun t => decide
    (t.radio.state = .attaching) && decide (t.radio.items.attach = true) := by
  decide +kernel

/-- 4.12: D2: 34 − 6 = 28 ≥ 24: granted. -/
theorem test_header_granted_to_the_reserve :
    after (.deliverDownHeader 0 1400) ({ attached with hold.freeList := List.range 34 }) fun t => decide (freeCount t = 28) && decide ((counterOf
    t .downlinkDropped).value = 0) := by
  decide +kernel

/-- 4.12: D3: 28 − 6 = 22 < 24: refused. -/
theorem test_header_refused_below_the_reserve :
    after (.deliverDownHeader 0 1400) ({ attached with hold.freeList := List.range 28 }) fun t => decide (freeCount t = 28) && decide ((counterOf
    t .downlinkDropped).value = 1) := by
  decide +kernel

/-- R70: the payload is stored in the cells and the record joins DQ-V. -/
theorem test_deliver_down_joins :
    after (.deliverDownEnd [1, 2]) ({ attached with
      path.path := .radio, radio.receiver := .payload ⟨some ⟨.voice, .downlink, 2, [5], 0, 0, none⟩, 2, .ordinary⟩ }) fun t => decide
    (t.hold.cells = [⟨1280, 1⟩, ⟨1281, 2⟩]) && decide (t.hold.dqV.length = 1) := by
  decide +kernel

/-- R105: type 84₁₆ takes no payload. -/
theorem test_bad_header_counted :
    after (.badCarrierHeader 0x84 0 1) (attached) fun t => decide ((counterOf t .linkFramingErrors).value = 1) := by
  decide +kernel

/-- R105. -/
theorem test_framing_error_resyncs :
    after (.linkFramingError) (attached) fun t => decide (t.radio.receiver = .resync) := by
  decide +kernel

/-- 7.8: D3 of 1500 bytes into a buffer of 512: Truncated, received length 1500, fill cursor 708. -/
theorem test_delivery_truncated :
    after (.deliveryEnd) ({ works with
      path.path := .radio, path.rxReleased := false, ring.fillCursor := some 707, ring.descriptorHeld := some (0x10000, 512),
      ring.delivery := some ⟨⟨.data, .downlink, 1500, [0], 0, 0, none⟩, .status, 128, false, false⟩ }) fun t => decide (t.ring.fillCursor = some
    708) && decide (t.bus.queue = [⟨.receiveStatus, .write 0x2038 [⟨0x05dc0209, 15⟩]⟩]) && decide ((counterOf t .downlinkTruncated).value = 1) :=
    by
  decide +kernel

/-- R82, R137: a delivery that ends after a soft reset's discard step is counted for Soft Reset Done and as downlink dropped. -/
theorem test_delivery_end_after_soft_discard_counts :
    after (.deliveryEnd) ({ works with
      path.path := .held, loader.softReset := .completing, loader.softDown := 2, path.rxReleased := false, ring.fillCursor := some 7,
      ring.descriptorHeld := some (0x10000, 512), hold.freeList := [],
      ring.delivery := some ⟨⟨.voice, .downlink, 60, [9], 0, 0, none⟩, .status, 15, false, false⟩ }) fun t => decide (t.loader.softDown = 3) &&
    decide ((counterOf t .downlinkDropped).value = 1) && decide (t.events.entries = List.replicate 11 none) && decide (t.hold.freeList = [9]) := by
  decide +kernel

/-- 9.8: RESERVE; the warm module is not needed: OFF. -/
theorem test_mains_lost_turns_module_off :
    after (.mainsLostAssert) ({ powered with radio.state := .detached, radio.ready := true }) fun t => decide (t.power.mode = .reserve) && decide
    (t.radio.state = .off) && decide (detailOfKind t .powerMode = some (.powerMode 0 .reserve .mainsLost)) := by
  decide +kernel

/-- 9.8 at 42.000: the quiet timer runs out and the entry begins. -/
theorem test_quiet_timer_begins_entry :
    after (.quietTimerExpiry) ({ works with pins.mainsLost := true, power.mode := .reserve, power.quiet := .running 0 }) fun t => decide
    (t.power.step = .entering .settling) && decide (t.power.quiet = .runOut) := by
  decide +kernel

/-- 9.8 at 42.001: DOZE, the doze timer due in 10 s. -/
theorem test_doze_reached :
    after (.dozeReached) ({ works with pins.mainsLost := true, power.mode := .reserve, power.quiet := .runOut, power.step := .entering .link })
    fun t => decide (t.power.mode = .doze) && decide (t.power.dozeTimer = some 10000) := by
  decide +kernel

/-- 9.8 at 52.001: the restart of 2 ms. -/
theorem test_doze_timer_begins_restart :
    after (.dozeTimerExpiry) ({ dozing with power.dozeTimer := some 0, pins.mainsLost := true }) fun t => decide (t.power.step = .restarting) &&
    decide (t.power.restart = some 2) := by
  decide +kernel

/-- 9.8 at 52.003: one SIG sample, RESERVE, and a new entry. -/
theorem test_restart_end_samples_and_enters :
    after (.restartEnd) ({ works with
      pins.mainsLost := true, pins.link := true, power.mode := .doze, power.step := .restarting, power.restart := some 0, power.quiet := .runOut,
      power.latch.dozeTimer := true, health.sig := 243 }) fun t => decide (t.power.mode = .reserve) && decide (t.power.step = .entering
    .settling) && decide (t.health.sig = 253) := by
  decide +kernel

/-- R159: OFFHOOK in DOZE begins the restart. -/
theorem test_offhook_wakes :
    after (.offhookAssert) (dozing) fun t => decide (t.power.step = .restarting) && decide (t.power.latch.offhook = true) := by
  decide +kernel

/-- R14, R16: the dwell met begins the return, drain limit 5 s. -/
theorem test_dwell_met_returns :
    after (.dwellTimerExpiry) ({ works with path.path := .held, path.dwell := .running 0 }) fun t => decide (t.path.path = .returning) && decide
    (t.path.drainTimer = some 5000) && decide (t.path.returnPause = true) := by
  decide +kernel

/-- R14: a call pins the return. -/
theorem test_offhook_pins_the_return :
    after (.dwellTimerExpiry) ({ works with path.path := .held, path.dwell := .running 0, pins.offhook := true }) fun t => decide (t.path.path =
    .held) && decide (t.path.dwell = .met) := by
  decide +kernel

/-- R19: TXC = F is written. -/
theorem test_drain_complete_asks_hand_back :
    after (.drainComplete) ({ draining0 with ring.fence := some 120, ring.partTxc := some 120 }) fun t => decide (t.path.phase = some .closing)
    && decide (t.bus.queue = [⟨.txcHandBack, .write 0x8004 [⟨120, 15⟩]⟩]) := by
  decide +kernel

/-- R19, R38: FIBRE, the refall window open for 600 s. -/
theorem test_hand_back_gives_fibre :
    after (.handBack) ({ works with
      path.path := .returning, path.phase := some .closing, ring.fence := some 9, ring.partTxc := some 9, ring.handBackAsked := true,
      health.txe := 100, bus.queue := [⟨.txcHandBack, .write 0x8004 [⟨9, 15⟩]⟩] }) fun t => decide (t.path.path = .fibre) && decide
    (t.path.refallTimer = some 600000) && decide (t.health.txe = 253) && decide (t.bus.shadows.txc = some 9) := by
  decide +kernel

/-- 4.12, R77: a voice frame of 61 ms is freed and counted late, one of 60 ms stays. -/
theorem test_sweep_frees_late_voice :
    after (.sweep10ms) ({ works with
      hold.sweep10 := some 0, clock := 61, path.path := .radio,
      hold.uqV := [⟨.voice, .uplink, 200, [9], 0, 0, none⟩, ⟨.voice, .uplink, 200, [8], 1, 0, none⟩], hold.freeList := [] }) fun t => decide
    (t.hold.uqV.map (·.cells) = [[8]]) && decide (t.hold.freeList = [9]) && decide ((counterOf t .voiceLate).value = 1) := by
  decide +kernel

/-- R53, R76: the expired record leaves UQ-D while its Send Up is on LDO; the data entry it held back is taken at once. -/
theorem test_expiry_on_ldo_frees_the_judgement :
    after (.sweep1s) ({ attached with
      hold.sweep1s := some 0, clock := 15001, loader.policy.dataHold := 15, path.path := .held,
      ring.window := [⟨4, .pending, 0, 60, 0, 1, false⟩], hold.freeList := (List.range 256).drop 8,
      hold.uqD := [⟨.data, .uplink, 60, [7], 0, 0, none⟩], radio.ldo := some (.sendUp .a true (some ⟨.data, .uplink, 60, [7], 0, 0, none⟩)) })
    fun t => decide (t.ring.takes.map (·.pos) = [4]) && decide (t.hold.onLdo.length = 1) && decide (t.hold.uqD = []) := by
  decide +kernel

/-- R166: the first word of the page is the new refresh count. -/
theorem test_page_first_word_counts :
    after (.statusPageWrite) ({ works with events.pageWanted := true, events.refreshCount := 41 }) fun t => decide (t.events.refreshCount = 42)
    && decide ((t.bus.queue.map (·.purpose)) = [.pageHalf false false, .pageHalf true false]) := by
  decide +kernel

/-- R163: a drain limit of 0 is applied as 1. -/
theorem test_policy_clamped_and_applied :
    after (.policyApplied) ({ works with
      loader.readState := .reading, loader.firstHalf := List.replicate 64 0, bus.queue := [⟨.policyRead true, .read 0x4040 .sixteen⟩] }) fun t =>
    decide (t.loader.policy.drainLimit = 1) && decide (t.loader.readState = .idle) := by
  decide +kernel

/-- R163, R79: of a block of zeros 31 fields are below their ranges; L_d becomes 32 and is not paired, H_d being 16. -/
theorem test_block_of_zeros_clamps_31 :
    after (.policyApplied) ({ works with
      loader.readState := .reading, loader.firstHalf := List.replicate 64 0, bus.queue := [⟨.policyRead true, .read 0x4040 .sixteen⟩] }) fun t =>
    decide (detailOfKind t .policyApplied = some (.policyApplied 31 0)) && decide (t.loader.policy.lowWater = 32) := by
  decide +kernel

/-! ### States and operands that meet the hypotheses of each statement -/

theorem test_meets_EmptyQueuePassesMillisecond_held : ∃ s : State, s.pending = [] ∧ s.loader.phase = .heldInReset :=
  ⟨{ State.reset with loader.phase := .heldInReset }, by decide +kernel⟩

theorem test_meets_EmptyQueuePassesMillisecond_loading : ∃ s : State, s.pending = [] ∧ s.loader.phase = .loading :=
  ⟨State.reset, by decide +kernel⟩

theorem test_meets_EmptyQueuePassesMillisecond_ended : ∃ (n : Nat) (s : State), s.pending = [] ∧ s.loader.phase = .ended ∧ s.health.timer100 = some (n + 2) ∧ s.pacer.pacing = some 1 :=
  ⟨0, { works with health.timer100 := some 2, pacer.pacing := some 1 }, by decide +kernel⟩

theorem test_meets_EmptyQueuePassesMillisecond_expiry : ∃ s : State, s.pending = [] ∧ s.loader.phase = .ended ∧ s.health.timer100 = some 1 :=
  ⟨{ works with health.timer100 := some 1 }, by decide +kernel⟩

theorem test_meets_EmptyQueuePassesMillisecond_doze : ∃ s : State, s.pending = [] ∧ s.loader.phase = .ended ∧ s.power.mode = .doze ∧ s.radio.silenceTimer = some 1 :=
  ⟨{ dozing with radio.silenceTimer := some 1 }, by decide +kernel⟩

theorem test_meets_EmptyQueuePassesMillisecond_disabled : ∃ s : State, s.pending = [] ∧ s.loader.phase = .ended ∧ s.path.path = .disabled ∧ s.loader.flashCode = 7 :=
  ⟨{ State.reset with loader.phase := .ended, loader.flashCode := 7 }, by decide +kernel⟩

theorem test_meets_EmptyQueuePassesMillisecond_pair : ∃ (n : Nat) (s : State), s.pending = [] ∧ s.loader.phase = .ended ∧ s.path.dwell = .running (n + 2) ∧ s.power.quiet = .running 1
    ∧ s.power.mode ≠ .doze ∧ s.radio.silenceTimer = some 1 :=
  ⟨0, { attached with path.dwell := .running 2, power.quiet := .running 1, radio.silenceTimer := some 1 }, by decide +kernel⟩

theorem test_meets_EmptyQueuePassesMillisecond_silence : ∃ (n : Nat) (s : State), s.pending = [] ∧ s.loader.phase = .ended ∧ s.power.mode ≠ .doze
    ∧ s.radio.silenceTimer = some (n + 2) ∧ s.path.dwell = .met ∧ s.power.quiet = .runOut :=
  ⟨0, { attached with path.dwell := .met, power.quiet := .runOut, radio.silenceTimer := some 2 }, by decide +kernel⟩

theorem test_meets_EmptyQueuePassesMillisecond_silent : ∃ s : State, s.pending = [] ∧ s.loader.phase = .ended ∧ s.radio.silenceTimer = none
    ∧ s.path.dwell = .stopped ∧ s.power.quiet = .stopped :=
  ⟨works, by decide +kernel⟩

theorem test_meets_DisabledLasts : ∃ s : State, Bypassed s ∧ (∀ c ∈ s.pending.head?, isReset c = false) :=
  ⟨{ State.reset with loader.phase := .ended, loader.flashCode := 7, pending := [.offhookAssert] },
    by unfold Bypassed Blank; decide +kernel⟩

theorem test_meets_DozeIssuesNothing : ∃ (c : Instr) (s t : State), s.power.mode = .doze ∧ exec c s = .next t ∧ t.power.mode = .doze :=
  ⟨.resumeDown false, dozing, { dozing with pins.mrdy := false }, rfl, rfl, rfl⟩

theorem test_meets_ResetsGivePowerOnValues : ∃ (c : Instr) (p : Purpose) (a : Addr) (ws : List LaneWord) (s : State), isReset c = true ∧ s.bus.queue.head? = some ⟨p, .write a ws⟩ ∧ Memory.wf s.sram = true :=
  ⟨.resetAsserted, .evpWrite, 0x5014, [⟨1, 15⟩], { works with bus.queue := [⟨.evpWrite, .write 0x5014 [⟨1, 15⟩]⟩] },
    by decide +kernel⟩

theorem test_meets_LoadStaysBlank : ∃ s t : State, step s = .next t ∧ LoadBlank s ∧ s.loader.phase ≠ .ended :=
  ⟨{ State.reset with pending := [.riAssert] }, _, rfl, by unfold LoadBlank Blank; decide +kernel, by decide +kernel⟩

theorem test_meets_LedsShowPathAndRadio_dark : ∃ s : State, s.loader.phase ≠ .ended ∨ s.power.mode = .doze :=
  ⟨dozing, by decide +kernel⟩

theorem test_meets_LedsShowPathAndRadio_lit : ∃ s : State, s.loader.phase = .ended ∧ s.power.mode ≠ .doze ∧ s.path.path = .radio ∧ s.radio.state = .attached :=
  ⟨{ attached with path.path := .radio }, by decide +kernel⟩

/-- A working part with one frame in hold, the credit at its lower bound, and a command in front. -/
def sound : State :=
  { attached with
    sram := [⟨4, 1⟩], hold.uqD := [⟨.data, .uplink, 60, [0], 0, 0, none⟩], hold.freeList := (List.range 256).drop 1,
    pacer.credit := -65536, pending := [.resumeDown false] }

theorem test_meets_MemoriesStayCanonical : ∃ s t : State, step s = .next t ∧ MemoriesCanonical s :=
  ⟨sound, _, rfl, by unfold MemoriesCanonical; decide +kernel⟩

theorem test_meets_CountsStayInRange : ∃ s t : State, step s = .next t ∧ CountsInRange s :=
  ⟨sound, _, rfl, by
    unfold CountsInRange
    repeat' apply And.intro
    all_goals decide +kernel⟩

theorem test_meets_CreditStaysWithinBurst : ∃ s t : State, step s = .next t ∧ CreditInRange s :=
  ⟨sound, _, rfl, by unfold CreditInRange; decide +kernel⟩

theorem test_meets_CellsStayAccounted : ∃ s t : State, step s = .next t ∧ CellsAccounted s :=
  ⟨sound, _, rfl, by unfold CellsAccounted; decide +kernel⟩

theorem test_meets_FibreHoldsNothingStays : ∃ s t : State, step s = .next t ∧ (LoadBlank s ∧ FibreHoldsNothing s) ∧ s.path.path = .fibre :=
  ⟨sound, _, rfl, ⟨fun h => absurd rfl h, by unfold FibreHoldsNothing; decide +kernel⟩, rfl⟩

theorem test_meets_PolicyStaysInLimits : ∃ s t : State, step s = .next t ∧ PolicyInLimits s.loader.policy :=
  ⟨sound, _, rfl, by
    unfold PolicyInLimits ParamsInLimits
    repeat' apply And.intro
    all_goals decide +kernel⟩

theorem test_meets_DozeModeAgreesWithStep : ∃ s t : State, step s = .next t ∧ LoadBlank s ∧ DozeAgrees s :=
  ⟨sound, _, rfl, fun h => absurd rfl h, by unfold DozeAgrees; decide +kernel⟩

theorem test_meets_ConfigurationLoadEndJudges_1 : ∃ (_ : Bool) (_ : List Byte) (s : State),
    s.loader.phase = .loading :=
  ⟨true, goodImage, State.reset, by decide +kernel⟩

/-- An image judged `n`, other than 0, meets the hypotheses of the second clause for that check. -/
theorem meets_check (k : Bool) (img : List Byte) (n : Nat) (h : judgeImage k false img = n) (hn : n ≠ 0) :
    ∃ (k : Bool) (img : List Byte) (m : Nat) (s : State),
      s.loader.phase = .loading ∧ ImageFails k img m ∧ (∀ i < m, ¬ ImageFails k img i) ∧ m = n :=
  ⟨k, img, n, State.reset, rfl, ((imageFails_of_judgeImage h).1 hn).1, ((imageFails_of_judgeImage h).1 hn).2, rfl⟩

/-- Unacknowledged: check 1. -/
theorem test_meets_ConfigurationLoadEndJudges_2a : ∃ (k : Bool) (img : List Byte) (n : Nat) (s : State),
    s.loader.phase = .loading ∧ ImageFails k img n ∧ (∀ i < n, ¬ ImageFails k img i) ∧ n = 1 :=
  meets_check false goodImage 1 (by decide +kernel) (by decide)

/-- The signature one off: check 1. -/
theorem test_meets_ConfigurationLoadEndJudges_2b : ∃ (k : Bool) (img : List Byte) (n : Nat) (s : State),
    s.loader.phase = .loading ∧ ImageFails k img n ∧ (∀ i < n, ¬ ImageFails k img i) ∧ n = 1 :=
  meets_check true (goodImage.set 0 0x41) 1 (by decide +kernel) (by decide)

/-- A transmit ring of 2048: check 2. -/
theorem test_meets_ConfigurationLoadEndJudges_2c : ∃ (k : Bool) (img : List Byte) (n : Nat) (s : State),
    s.loader.phase = .loading ∧ ImageFails k img n ∧ (∀ i < n, ¬ ImageFails k img i) ∧ n = 2 :=
  meets_check true ((goodImage.set 8 0).set 9 8) 2 (by decide +kernel) (by decide)

/-- A receive ring of 8: check 2. -/
theorem test_meets_ConfigurationLoadEndJudges_2d : ∃ (k : Bool) (img : List Byte) (n : Nat) (s : State),
    s.loader.phase = .loading ∧ ImageFails k img n ∧ (∀ i < n, ¬ ImageFails k img i) ∧ n = 2 :=
  meets_check true (goodImage.set 10 8) 2 (by decide +kernel) (by decide)

/-- A transmit ring base of 1008₁₆: check 3. -/
theorem test_meets_ConfigurationLoadEndJudges_2e : ∃ (k : Bool) (img : List Byte) (n : Nat) (s : State),
    s.loader.phase = .loading ∧ ImageFails k img n ∧ (∀ i < n, ¬ ImageFails k img i) ∧ n = 3 :=
  meets_check true (goodImage.set 4 8) 3 (by decide +kernel) (by decide)

/-- The PGEN word at 8016₁₆: check 3. -/
theorem test_meets_ConfigurationLoadEndJudges_2f : ∃ (k : Bool) (img : List Byte) (n : Nat) (s : State),
    s.loader.phase = .loading ∧ ImageFails k img n ∧ (∀ i < n, ¬ ImageFails k img i) ∧ n = 3 :=
  meets_check true (goodImage.set 52 0x16) 3 (by decide +kernel) (by decide)

/-- A status page that runs four bytes past the top: check 4. -/
theorem test_meets_ConfigurationLoadEndJudges_2g : ∃ (k : Bool) (img : List Byte) (n : Nat) (s : State),
    s.loader.phase = .loading ∧ ImageFails k img n ∧ (∀ i < n, ¬ ImageFails k img i) ∧ n = 4 :=
  meets_check true (((goodImage.set 28 0x84).set 29 0xff).set 30 0xff) 4 (by decide +kernel) (by decide)

/-- A policy block that shares four bytes with the status page: check 4. -/
theorem test_meets_ConfigurationLoadEndJudges_2h : ∃ (k : Bool) (img : List Byte) (n : Nat) (s : State),
    s.loader.phase = .loading ∧ ImageFails k img n ∧ (∀ i < n, ¬ ImageFails k img i) ∧ n = 4 :=
  meets_check true ((goodImage.set 24 0x84).set 25 0x4f) 4 (by decide +kernel) (by decide)

/-- TXC on TXP: check 5. -/
theorem test_meets_ConfigurationLoadEndJudges_2i : ∃ (k : Bool) (img : List Byte) (n : Nat) (s : State),
    s.loader.phase = .loading ∧ ImageFails k img n ∧ (∀ i < n, ¬ ImageFails k img i) ∧ n = 5 :=
  meets_check true (goodImage.set 36 0) 5 (by decide +kernel) (by decide)

/-- TXP on the last word of the status page: check 5. -/
theorem test_meets_ConfigurationLoadEndJudges_2j : ∃ (k : Bool) (img : List Byte) (n : Nat) (s : State),
    s.loader.phase = .loading ∧ ImageFails k img n ∧ (∀ i < n, ¬ ImageFails k img i) ∧ n = 5 :=
  meets_check true ((goodImage.set 32 0x7c).set 33 0x50) 5 (by decide +kernel) (by decide)

/-- A link clock of 27 MHz: check 6. -/
theorem test_meets_ConfigurationLoadEndJudges_2k : ∃ (k : Bool) (img : List Byte) (n : Nat) (s : State),
    s.loader.phase = .loading ∧ ImageFails k img n ∧ (∀ i < n, ¬ ImageFails k img i) ∧ n = 6 :=
  meets_check true (goodImage.set 2 27) 6 (by decide +kernel) (by decide)

/-- A link clock of 0: check 6. -/
theorem test_meets_ConfigurationLoadEndJudges_2l : ∃ (k : Bool) (img : List Byte) (n : Nat) (s : State),
    s.loader.phase = .loading ∧ ImageFails k img n ∧ (∀ i < n, ¬ ImageFails k img i) ∧ n = 6 :=
  meets_check true (goodImage.set 2 0) 6 (by decide +kernel) (by decide)

/-- A link clock of 26 MHz, and a status page that ends at the top, are valid. -/
theorem test_meets_ConfigurationLoadEndJudges_3 : ∃ (k : Bool) (img : List Byte) (s : State),
    s.loader.phase = .loading ∧ Blank s ∧ (∀ n, ¬ ImageFails k img n) ∧ byteIn img 2 = 26 :=
  ⟨true, (((goodImage.set 2 26).set 28 0x80).set 29 0xff).set 30 0xff, State.reset, by decide +kernel, by unfold Blank; decide +kernel,
    (imageFails_of_judgeImage (by decide +kernel)).2 rfl, by decide +kernel⟩

theorem test_meets_ShadowReadsCarriedStartsUp_1a : ∃ (a : Addr) (c : Word) (e : Word) (m : MemoryMap) (s : State),
    s.bus.queue = [⟨.shadowRead .pgen, .read a .one⟩] ∧ s.bus.waiting = [] ∧ s.loader.map = some m ∧ s.bus.shadows.pgen = none ∧
    s.bus.shadows.txp ≠ none ∧ s.bus.shadows.rxp ≠ none ∧ s.bus.shadows.rxf ≠ none ∧ s.bus.shadows.txc = some c ∧ s.bus.shadows.evc = some e ∧
    s.loader.shadowsLoaded = false ∧ s.path.path = .fibre ∧ s.health.verdict = .healthy ∧ s.loader.policy.pathOverride = .automatic ∧
    s.power.mode ≠ .doze ∧ s.loader.softReset = .none ∧ memWord s.sram (a.toNat / 4 * 4) = 0 :=
  ⟨0x8014, 3, 7, map0, { works with
      sram := [], loader.shadowsLoaded := false, bus.shadows := ⟨some 0, some 3, some 0, some 0, some 7, none⟩,
      bus.queue := [⟨.shadowRead .pgen, .read 0x8014 .one⟩] }, by decide +kernel⟩

theorem test_meets_ShadowReadsCarriedStartsUp_1b : ∃ (a : Addr) (c : Word) (e : Word) (m : MemoryMap) (s : State),
    s.bus.queue = [⟨.shadowRead .pgen, .read a .one⟩] ∧ s.bus.waiting = [] ∧ s.loader.map = some m ∧ s.bus.shadows.pgen = none ∧
    s.bus.shadows.txp ≠ none ∧ s.bus.shadows.rxp ≠ none ∧ s.bus.shadows.rxf ≠ none ∧ s.bus.shadows.txc = some c ∧ s.bus.shadows.evc = some e ∧
    s.loader.shadowsLoaded = false ∧ s.path.path = .fibre ∧ s.health.verdict = .healthy ∧ s.loader.policy.pathOverride = .automatic ∧
    s.power.mode ≠ .doze ∧ s.loader.softReset = .none ∧ memWord s.sram (a.toNat / 4 * 4) ≠ 0 :=
  ⟨0x8014, 3, 7, map0, { works with
      sram := [⟨0x8014, 1⟩], loader.shadowsLoaded := false, bus.shadows := ⟨some 0, some 3, some 0, some 0, some 7, none⟩,
      bus.queue := [⟨.shadowRead .pgen, .read 0x8014 .one⟩] }, by decide +kernel⟩

theorem test_meets_ShadowReadsCarriedStartsUp_2a : ∃ (a : Addr) (rest : List MasterTransfer) (bs : List Byte) (s : State),
    s.bus.queue = ⟨.policyRead true, .read a .sixteen⟩ :: rest ∧ bs = s.loader.firstHalf ++ bytesOf (memReadWords s.sram a 16) ∧
    s.loader.readKind = .startUp ∧ s.path.path = .fibre ∧ s.loader.readState = .reading ∧ s.loader.softReset = .none ∧ (s.health.verdict =
    .healthy ∨ (policyOf bs).pathOverride = .fibreOnly) ∧ (policyOf bs).pathOverride ≠ .radioNow ∧ atRest s ∧ uplinkEmpty s = true ∧
    s.radio.receiver = .idle ∧ s.events.entries.length = 11 ∧ s.health.verdict = .healthy :=
  ⟨0x4040, [], List.replicate 128 0, { works with
      bus.queue := [⟨.policyRead true, .read 0x4040 .sixteen⟩], loader.readState := .reading, loader.readKind := .startUp,
      loader.firstHalf := List.replicate 64 0 }, by decide +kernel⟩

theorem test_meets_ShadowReadsCarriedStartsUp_2b : ∃ (a : Addr) (rest : List MasterTransfer) (bs : List Byte) (s : State),
    s.bus.queue = ⟨.policyRead true, .read a .sixteen⟩ :: rest ∧ bs = s.loader.firstHalf ++ bytesOf (memReadWords s.sram a 16) ∧
    s.loader.readKind = .startUp ∧ s.path.path = .fibre ∧ s.loader.readState = .reading ∧ s.loader.softReset = .none ∧ (s.health.verdict =
    .healthy ∨ (policyOf bs).pathOverride = .fibreOnly) ∧ (policyOf bs).pathOverride ≠ .radioNow ∧ atRest s ∧ uplinkEmpty s = true ∧
    s.radio.receiver = .idle ∧ s.events.entries.length = 11 ∧ (policyOf bs).pathOverride = .fibreOnly :=
  ⟨0x4040, [], (List.replicate 128 0).set 4 1, { works with
      bus.queue := [⟨.policyRead true, .read 0x4040 .sixteen⟩], loader.readState := .reading, loader.readKind := .startUp,
      loader.firstHalf := (List.replicate 64 0).set 4 1, health.verdict := .unhealthy }, by decide +kernel⟩

theorem test_meets_GatewayWriteStoresCarriedBytes_1a : ∃ (c : Instr) (q : Requester) (a : Addr) (ws : List LaneWord) (s : State),
    writeOf c = some (q, a, ws) ∧ wordsWellFormed ws = true ∧ masterTurn s = false ∧ Memory.wf s.sram = true :=
  ⟨.gatewayTransfer .p (.write 0x100 [⟨0x01020304, 5⟩]), .p, 0x100, [⟨0x01020304, 5⟩], works, by decide +kernel⟩

theorem test_meets_GatewayWriteStoresCarriedBytes_1b : ∃ (c : Instr) (q : Requester) (a : Addr) (ws : List LaneWord) (s : State),
    writeOf c = some (q, a, ws) ∧ wordsWellFormed ws = true ∧ masterTurn s = false ∧ Memory.wf s.sram = true ∧ carriedWords s q (placeWords a ws)
    ≠ placeWords a ws :=
  ⟨.staleUplinkWrite 0x10fc [⟨1, 15⟩, ⟨2, 15⟩], .u, 0x10fc, [⟨1, 15⟩, ⟨2, 15⟩], { works with bus.txGuard := true }, by decide +kernel⟩

/-- U's four words from TXP on with both guards raised: TXP and RXP are carried, TXC and RXF are dropped. -/
theorem test_meets_GatewayWriteStoresCarriedBytes_1c : ∃ (c : Instr) (a : Addr) (ws : List LaneWord) (m : MemoryMap) (s : State),
    writeOf c = some (.u, a, ws) ∧ wordsWellFormed ws = true ∧ masterTurn s = false ∧ Memory.wf s.sram = true ∧ s.loader.map = some m ∧
    (carriedWords s .u (placeWords a ws)).map (·.1) = [0x8000, 0x8008] ∧ dropsUnder m s 0x8004 .transmit ∧ dropsUnder m s 0x800c .receive ∧
    ¬ dropsUnder m s 0x8000 .transmit ∧ ¬ dropsUnder m s 0x8000 .receive :=
  ⟨.gatewayTransfer .u (.write 0x8000 (List.replicate 4 ⟨1, 15⟩)), 0x8000, List.replicate 4 ⟨1, 15⟩, map0,
    { works with bus.txGuard := true, bus.rxGuard := true }, by simp only [dropsUnder]; decide +kernel⟩

theorem test_meets_GatewayReadReturnsViews_1a : ∃ (q : Requester) (a : Addr) (len : BurstLen) (c : Instr) (s : State),
    readOf c = some (q, a, len) ∧ masterTurn s = false ∧ q = .u ∧ burstWords len = 4 ∧ watchedApart map0 :=
  ⟨.u, 0x8000, .four, .gatewayTransfer .u (.read 0x8000 .four), { works with bus.uplinkView := .fixed, bus.uplinkViewValue := some 5 }, by
    decide +kernel⟩

theorem test_meets_GatewayReadReturnsViews_1b : ∃ (q : Requester) (a : Addr) (len : BurstLen) (c : Instr) (s : State),
    readOf c = some (q, a, len) ∧ masterTurn s = false ∧ q ≠ .u :=
  ⟨.p, 0xfffffc, .two, .gatewayTransfer .p (.read 0xfffffc .two), works, by decide +kernel⟩

theorem test_meets_ShadowsFollowCarriedBytes_1 : ∃ (q : Requester) (a : Addr) (ws : List LaneWord) (c : Instr) (m : MemoryMap) (s : State),
    writeOf c = some (q, a, ws) ∧ wordsWellFormed ws = true ∧ masterTurn s = false ∧ s.loader.map = some m :=
  ⟨.u, 0x8000, [⟨0x00050007, 3⟩, ⟨9, 15⟩], .txpWordWrite .u 0x8000 [⟨0x00050007, 3⟩, ⟨9, 15⟩], map0, works, by decide +kernel⟩

theorem test_meets_ProducerWritesWakeAndOverrun_1a : ∃ (a : Addr) (l : LaneWord) (m : MemoryMap) (s : State),
    s.loader.map = some m ∧ onWatched m .txp a ∧ l.lanes ≠ 0 ∧ masterTurn s = false ∧ s.power.mode ≠ .doze :=
  ⟨0x8000, ⟨1, 1⟩, map0, works, by decide +kernel⟩

theorem test_meets_ProducerWritesWakeAndOverrun_1b : ∃ (a : Addr) (l : LaneWord) (m : MemoryMap) (s : State),
    s.loader.map = some m ∧ onWatched m .txp a ∧ l.lanes ≠ 0 ∧ masterTurn s = false :=
  ⟨0x8002, ⟨1, 8⟩, map0, dozing, by decide +kernel⟩

theorem test_meets_ProducerWritesWakeAndOverrun_2a : ∃ (q : Requester) (a : Addr) (l : LaneWord) (m : MemoryMap) (v : Word) (s : State),
    s.loader.map = some m ∧ watchedApart m ∧ onWatched m .rxp a ∧ masterTurn s = false ∧ (q ≠ .u ∨ (s.bus.txGuard = false ∧ s.bus.rxGuard =
    false)) ∧ holdsRings s = true ∧ s.power.mode ≠ .doze ∧ s.ring.rxOverrun = false ∧ s.bus.shadows.rxp = some v ∧ s.bus.waiting = [] ∧
    s.events.entries.length = 11 ∧ dist (rxConsumerRef s) (countOf (mergeLanes v l)) = rxSize s :=
  ⟨.u, 0x8008, ⟨16, 15⟩, map0, 0, { works with path.path := .held }, by decide +kernel⟩

theorem test_meets_ProducerWritesWakeAndOverrun_2b : ∃ (q : Requester) (a : Addr) (l : LaneWord) (m : MemoryMap) (v : Word) (s : State),
    s.loader.map = some m ∧ watchedApart m ∧ onWatched m .rxp a ∧ masterTurn s = false ∧ (q ≠ .u ∨ (s.bus.txGuard = false ∧ s.bus.rxGuard =
    false)) ∧ holdsRings s = true ∧ s.power.mode ≠ .doze ∧ s.ring.rxOverrun = false ∧ s.bus.shadows.rxp = some v ∧ s.bus.waiting = [] ∧
    s.events.entries.length = 11 ∧ dist (rxConsumerRef s) (countOf (mergeLanes v l)) = rxSize s + 1 :=
  ⟨.u, 0x8008, ⟨17, 15⟩, map0, 0, { works with path.path := .held }, by decide +kernel⟩

theorem test_meets_ProducerWritesWakeAndOverrun_3a : ∃ (q : Requester) (a : Addr) (l : LaneWord) (m : MemoryMap) (v : Word) (s : State),
    s.loader.map = some m ∧ watchedApart m ∧ onWatched m .txp a ∧ masterTurn s = false ∧ (q ≠ .u ∨ (s.bus.txGuard = false ∧ s.bus.rxGuard =
    false)) ∧ holdsRings s = true ∧ s.power.mode ≠ .doze ∧ s.ring.overrun = false ∧ s.bus.shadows.txp = some v ∧ s.bus.waiting = [] ∧
    s.events.entries.length = 11 ∧ ((s.path.phase ≠ some .closing ∧ s.loader.softReset ≠ .completing) ∨ s.ring.handBackAsked = true ∨ closed s =
    false) ∧ countOf (mergeLanes v l) ≠ countOf v ∧ txSize s < dist (consumerRef s) (countOf (mergeLanes v l)) :=
  ⟨.p, 0x8000, ⟨17, 15⟩, map0, 0, { works with path.path := .held }, by decide +kernel⟩

theorem test_meets_ProducerWritesWakeAndOverrun_3b : ∃ (q : Requester) (a : Addr) (l : LaneWord) (m : MemoryMap) (v : Word) (s : State),
    s.loader.map = some m ∧ watchedApart m ∧ onWatched m .txp a ∧ masterTurn s = false ∧ (q ≠ .u ∨ (s.bus.txGuard = false ∧ s.bus.rxGuard =
    false)) ∧ holdsRings s = true ∧ s.power.mode ≠ .doze ∧ s.ring.overrun = false ∧ s.bus.shadows.txp = some v ∧ s.bus.waiting = [] ∧
    s.events.entries.length = 11 ∧ ((s.path.phase ≠ some .closing ∧ s.loader.softReset ≠ .completing) ∨ s.ring.handBackAsked = true ∨ closed s =
    false) ∧ dist (consumerRef s) (countOf (mergeLanes v l)) = txSize s :=
  ⟨.u, 0x8000, ⟨16, 15⟩, map0, 0, { works with path.path := .held }, by decide +kernel⟩

theorem test_meets_ProducerWritesWakeAndOverrun_3c : ∃ (q : Requester) (a : Addr) (m : MemoryMap) (v : Word) (s : State),
    s.loader.map = some m ∧ watchedApart m ∧ onWatched m .txp a ∧ masterTurn s = false ∧ (q ≠ .u ∨ (s.bus.txGuard = false ∧ s.bus.rxGuard =
    false)) ∧ holdsRings s = true ∧ s.power.mode ≠ .doze ∧ s.ring.overrun = false ∧ s.bus.shadows.txp = some v ∧ s.bus.waiting = [] ∧
    s.events.entries.length = 11 ∧ ((s.path.phase ≠ some .closing ∧ s.loader.softReset ≠ .completing) ∨ s.ring.handBackAsked = true ∨ closed s =
    false) ∧ s.path.phase = some .closing ∧ closed s = false :=
  ⟨.p, 0x8000, map0, 0, { works with path.path := .returning, path.phase := some .closing, ring.fence := some 3, ring.partTxc := some 2 }, by
    decide +kernel⟩

theorem test_meets_ProducerWritesWakeAndOverrun_4 : ∃ (q : Requester) (a : Addr) (l : LaneWord) (m : MemoryMap) (v : Word) (s : State),
    s.loader.map = some m ∧ watchedApart m ∧ onWatched m .txp a ∧ masterTurn s = false ∧ (q ≠ .u ∨ (s.bus.txGuard = false ∧ s.bus.rxGuard =
    false)) ∧ holdsRings s = true ∧ s.power.mode = .doze ∧ s.bus.shadows.txp = some v ∧ countOf (mergeLanes v l) ≠ countOf v ∧ s.bus.queue = []
    :=
  ⟨.p, 0x8000, ⟨17, 15⟩, map0, 0, { dozing with path.path := .held }, by decide +kernel⟩

theorem test_meets_ProducerWritesWakeAndOverrun_5 : ∃ (q : Requester) (a : Addr) (l : LaneWord) (m : MemoryMap) (v : Word) (s : State),
    s.loader.map = some m ∧ watchedApart m ∧ onWatched m .rxp a ∧ masterTurn s = false ∧ (q ≠ .u ∨ (s.bus.txGuard = false ∧ s.bus.rxGuard =
    false)) ∧ holdsRings s = true ∧ s.power.mode = .doze ∧ s.bus.shadows.rxp = some v ∧ countOf (mergeLanes v l) ≠ countOf v ∧ s.bus.queue = []
    :=
  ⟨.u, 0x8008, ⟨17, 15⟩, map0, 0, { dozing with path.path := .held }, by decide +kernel⟩

/-- Four positions from a mark of 12, up to the producer and the ring's end. -/
theorem test_meets_ProducerWritesWakeAndOverrun_6a : ∃ (q : Requester) (a : Addr) (l : LaneWord) (m : MemoryMap) (v : Word) (b : Count) (k : Count)
    (s : State),
    s.loader.map = some m ∧ watchedApart m ∧ onWatched m .txp a ∧ masterTurn s = false ∧ (q ≠ .u ∨ (s.bus.txGuard = false ∧ s.bus.rxGuard =
    false)) ∧ holdsRings s = true ∧ s.path.phase ≠ some .closing ∧ s.loader.softReset = .none ∧ s.power.mode ≠ .doze ∧ s.bus.shadows.txp = some v ∧
    countOf (mergeLanes v l) ≠ countOf v ∧ s.bus.waiting = [] ∧ s.bus.queue.length ≤ 7 ∧ s.ring.descriptorRead = none ∧ s.ring.fence = none ∧
    s.ring.base = some b ∧ s.ring.readMark = some k ∧ positionsToRead b (if s.path.txReleased then s.ring.partTxc.getD 0 else shadowCount s .txc)
    (countOf (mergeLanes v l)) m.txSize k = 4 :=
  ⟨.p, 0x8000, ⟨16, 15⟩, map0, 3, 0, 12, { works with path.path := .held, bus.shadows.txp := some 3, ring.base := some 0, ring.readMark := some 12 },
    by decide +kernel⟩

/-- Two positions before the ring's end, although the producer stands further on. -/
theorem test_meets_ProducerWritesWakeAndOverrun_6b : ∃ (q : Requester) (a : Addr) (l : LaneWord) (m : MemoryMap) (v : Word) (b : Count) (k : Count)
    (s : State),
    s.loader.map = some m ∧ watchedApart m ∧ onWatched m .txp a ∧ masterTurn s = false ∧ (q ≠ .u ∨ (s.bus.txGuard = false ∧ s.bus.rxGuard =
    false)) ∧ holdsRings s = true ∧ s.path.phase ≠ some .closing ∧ s.loader.softReset = .none ∧ s.power.mode ≠ .doze ∧ s.bus.shadows.txp = some v ∧
    countOf (mergeLanes v l) ≠ countOf v ∧ s.bus.waiting = [] ∧ s.bus.queue.length ≤ 7 ∧ s.ring.descriptorRead = none ∧ s.ring.fence = none ∧
    s.ring.base = some b ∧ s.ring.readMark = some k ∧ positionsToRead b (if s.path.txReleased then s.ring.partTxc.getD 0 else shadowCount s .txc)
    (countOf (mergeLanes v l)) m.txSize k = 2 :=
  ⟨.u, 0x8000, ⟨22, 15⟩, map0, 3, 8, 14, { works with
      path.path := .held, path.txReleased := true, ring.partTxc := some 8, bus.shadows.txp := some 3, ring.base := some 8, ring.readMark := some 14,
      bus.queue := List.replicate 7 ⟨.evpWrite, .write 0x5014 [⟨0, 15⟩]⟩ }, by decide +kernel⟩

/-- The producer one past the mark: one position. -/
theorem test_meets_ProducerWritesWakeAndOverrun_6c : ∃ (q : Requester) (a : Addr) (l : LaneWord) (m : MemoryMap) (v : Word) (b : Count) (k : Count)
    (s : State),
    s.loader.map = some m ∧ watchedApart m ∧ onWatched m .txp a ∧ masterTurn s = false ∧ (q ≠ .u ∨ (s.bus.txGuard = false ∧ s.bus.rxGuard =
    false)) ∧ holdsRings s = true ∧ s.path.phase ≠ some .closing ∧ s.loader.softReset = .none ∧ s.power.mode ≠ .doze ∧ s.bus.shadows.txp = some v ∧
    countOf (mergeLanes v l) ≠ countOf v ∧ s.bus.waiting = [] ∧ s.bus.queue.length ≤ 7 ∧ s.ring.descriptorRead = none ∧ s.ring.fence = none ∧
    s.ring.base = some b ∧ s.ring.readMark = some k ∧ positionsToRead b (if s.path.txReleased then s.ring.partTxc.getD 0 else shadowCount s .txc)
    (countOf (mergeLanes v l)) m.txSize k = 1 :=
  ⟨.p, 0x8000, ⟨6, 15⟩, map0, 3, 0, 5, { works with path.path := .held, bus.shadows.txp := some 3, ring.base := some 0, ring.readMark := some 5 },
    by decide +kernel⟩

/-- The producer at the mark: nothing to read. -/
theorem test_meets_ProducerWritesWakeAndOverrun_6d : ∃ (q : Requester) (a : Addr) (l : LaneWord) (m : MemoryMap) (v : Word) (b : Count) (k : Count)
    (s : State),
    s.loader.map = some m ∧ watchedApart m ∧ onWatched m .txp a ∧ masterTurn s = false ∧ (q ≠ .u ∨ (s.bus.txGuard = false ∧ s.bus.rxGuard =
    false)) ∧ holdsRings s = true ∧ s.path.phase ≠ some .closing ∧ s.loader.softReset = .none ∧ s.power.mode ≠ .doze ∧ s.bus.shadows.txp = some v ∧
    countOf (mergeLanes v l) ≠ countOf v ∧ s.bus.waiting = [] ∧ s.bus.queue.length ≤ 7 ∧ s.ring.descriptorRead = none ∧ s.ring.fence = none ∧
    s.ring.base = some b ∧ s.ring.readMark = some k ∧ positionsToRead b (if s.path.txReleased then s.ring.partTxc.getD 0 else shadowCount s .txc)
    (countOf (mergeLanes v l)) m.txSize k = 0 :=
  ⟨.p, 0x8000, ⟨6, 15⟩, map0, 3, 0, 6, { works with path.path := .held, bus.shadows.txp := some 3, ring.base := some 0, ring.readMark := some 6 },
    by decide +kernel⟩

/-- A takeover by the verdict with the horizon at 2: four positions to read, and none. -/
theorem test_meets_ProducerWritesWakeAndOverrun_7 : ∃ (m : MemoryMap) (h : Count) (s : State),
    s.health.timer100.isSome = true ∧ s.power.mode ≠ .doze ∧ s.path.path = .fibre ∧ s.loader.shadowsLoaded = true ∧ s.loader.softReset = .none ∧
    s.loader.policy.pathOverride = .automatic ∧ s.health.verdict = .healthy ∧ s.pins.los = true ∧
    max 1 (s.health.sig - s.loader.policy.sig.p) ≤ s.loader.policy.sig.t ∧ s.radio.state ≠ .attached ∧ s.radio.state ≠ .backoff ∧
    s.bus.waiting = [] ∧ s.bus.queue.length ≤ 7 ∧ s.loader.map = some m ∧ s.bus.txHorizon = some h ∧ s.ring.descriptorRead = none ∧
    positionsToRead h (shadowCount s .txc) (shadowCount s .txp) m.txSize h = 4 :=
  ⟨map0, 2, { works with
      health.timer100 := some 0, health.sig := 1, pins.los := true, bus.txHorizon := some 2, bus.shadows.txc := some 2, bus.shadows.txp := some 6 },
    by decide +kernel⟩

theorem test_meets_ProducerWritesWakeAndOverrun_7_none : ∃ (m : MemoryMap) (h : Count) (s : State),
    s.health.timer100.isSome = true ∧ s.power.mode ≠ .doze ∧ s.path.path = .fibre ∧ s.loader.shadowsLoaded = true ∧ s.loader.softReset = .none ∧
    s.loader.policy.pathOverride = .automatic ∧ s.health.verdict = .healthy ∧ s.pins.los = true ∧
    max 1 (s.health.sig - s.loader.policy.sig.p) ≤ s.loader.policy.sig.t ∧ s.radio.state ≠ .attached ∧ s.radio.state ≠ .backoff ∧
    s.bus.waiting = [] ∧ s.bus.queue.length ≤ 7 ∧ s.loader.map = some m ∧ s.bus.txHorizon = some h ∧ s.ring.descriptorRead = none ∧
    positionsToRead h (shadowCount s .txc) (shadowCount s .txp) m.txSize h = 0 :=
  ⟨map0, 0, { works with health.timer100 := some 0, health.sig := 1, pins.los := true, bus.txHorizon := some 0 }, by decide +kernel⟩

/-- After a read of four positions from 0, two more up to the producer; after one of one position, none more. -/
theorem test_meets_ProducerWritesWakeAndOverrun_8a : ∃ (first : Count) (j : Nat) (a : Addr) (len : BurstLen) (rest : List MasterTransfer)
    (m : MemoryMap) (b : Count) (s : State),
    s.bus.queue = ⟨.descriptorRead first j, .read a len⟩ :: rest ∧ s.ring.descriptorRead = some ⟨first, j, false⟩ ∧ s.loader.map = some m ∧
    holdsRings s = true ∧ s.path.phase ≠ some .closing ∧ s.loader.softReset = .none ∧ s.power.mode ≠ .doze ∧ s.bus.waiting = [] ∧
    s.ring.fence = none ∧ s.ring.base = some b ∧ (∀ e ∈ s.ring.window, e.st ≠ .pending) ∧ rest.length + j ≤ 7 ∧
    positionsToRead b (if s.path.txReleased then s.ring.partTxc.getD 0 else shadowCount s .txc) (shadowCount s .txp) m.txSize
      (first + BitVec.ofNat 16 j) = 2 :=
  ⟨0, 4, 0x1000, .sixteen, [], map0, 0, { works with
      path.path := .held, bus.queue := [⟨.descriptorRead 0 4, .read 0x1000 .sixteen⟩], ring.descriptorRead := some ⟨0, 4, false⟩,
      ring.base := some 0, ring.readMark := some 0, bus.shadows.txp := some 6 }, by decide +kernel⟩

theorem test_meets_ProducerWritesWakeAndOverrun_8b : ∃ (first : Count) (j : Nat) (a : Addr) (len : BurstLen) (rest : List MasterTransfer)
    (m : MemoryMap) (b : Count) (s : State),
    s.bus.queue = ⟨.descriptorRead first j, .read a len⟩ :: rest ∧ s.ring.descriptorRead = some ⟨first, j, false⟩ ∧ s.loader.map = some m ∧
    holdsRings s = true ∧ s.path.phase ≠ some .closing ∧ s.loader.softReset = .none ∧ s.power.mode ≠ .doze ∧ s.bus.waiting = [] ∧
    s.ring.fence = none ∧ s.ring.base = some b ∧ (∀ e ∈ s.ring.window, e.st ≠ .pending) ∧ rest.length + j ≤ 7 ∧
    positionsToRead b (if s.path.txReleased then s.ring.partTxc.getD 0 else shadowCount s .txc) (shadowCount s .txp) m.txSize
      (first + BitVec.ofNat 16 j) = 0 ∧ (∀ e ∈ readEntries first j (memReadWords s.sram a (burstWords len)), entryCheck s e = none) :=
  ⟨0, 1, 0x1000, .four, [], map0, 0, { works with
      sram := [⟨0x1004, 60⟩], path.path := .held, bus.queue := [⟨.descriptorRead 0 1, .read 0x1000 .four⟩],
      ring.descriptorRead := some ⟨0, 1, false⟩, ring.base := some 0, ring.readMark := some 0, bus.shadows.txp := some 1 }, by decide +kernel⟩

theorem test_meets_ReleaseCompletesByOwnWrite_1a : ∃ (q : Requester) (a : Addr) (l : LaneWord) (m : MemoryMap) (h : Count) (v : Word) (n : Nat)
    (s : State),
    s.loader.map = some m ∧ watchedApart m ∧ onWatched m .txc a ∧ masterTurn s = false ∧ (q ≠ .u ∨ (s.bus.txGuard = false ∧ guardedBy s
    (watchedAddr m .txc) = none)) ∧ holdsRings s = true ∧ s.path.txReleased = false ∧ s.ring.txForcing = false ∧ s.bus.fixedH = some h ∧
    s.bus.shadows.txc = some v ∧ countOf v ≠ h ∧ countOf (mergeLanes v l) = h ∧ s.bus.waiting = [] ∧ n = doneCount s ∧ s.path.phase ≠ some
    .closing ∧ s.loader.softReset ≠ .completing ∧ n = 0 :=
  ⟨.u, 0x8004, ⟨5, 3⟩, map0, 5, 4, 0, { works with
      path.path := .takeover, path.txReleased := false, path.rxReleased := false, bus.fixedH := some 5, bus.shadows.txc := some 4 }, by
    decide +kernel⟩

theorem test_meets_ReleaseCompletesByOwnWrite_1b : ∃ (q : Requester) (a : Addr) (l : LaneWord) (m : MemoryMap) (h : Count) (v : Word) (n : Nat)
    (s : State),
    s.loader.map = some m ∧ watchedApart m ∧ onWatched m .txc a ∧ masterTurn s = false ∧ (q ≠ .u ∨ (s.bus.txGuard = false ∧ guardedBy s
    (watchedAddr m .txc) = none)) ∧ holdsRings s = true ∧ s.path.txReleased = false ∧ s.ring.txForcing = false ∧ s.bus.fixedH = some h ∧
    s.bus.shadows.txc = some v ∧ countOf v ≠ h ∧ countOf (mergeLanes v l) = h ∧ s.bus.waiting = [] ∧ n = doneCount s ∧ s.path.phase ≠ some
    .closing ∧ s.loader.softReset ≠ .completing ∧ n ≠ 0 ∧ s.power.mode ≠ .doze ∧ s.bus.queue.length ≤ 7 :=
  ⟨.u, 0x8004, ⟨5, 3⟩, map0, 5, 4, 1, { works with
      path.path := .takeover, path.txReleased := false, path.rxReleased := false, bus.fixedH := some 5, bus.shadows.txc := some 4,
      ring.window := [⟨5, .done, 0, 60, 0, 1, false⟩] }, by decide +kernel⟩

theorem test_meets_ReleaseCompletesByOwnWrite_1c : ∃ (q : Requester) (a : Addr) (l : LaneWord) (m : MemoryMap) (h : Count) (v : Word) (n : Nat)
    (s : State),
    s.loader.map = some m ∧ watchedApart m ∧ onWatched m .txc a ∧ masterTurn s = false ∧ (q ≠ .u ∨ (s.bus.txGuard = false ∧ guardedBy s
    (watchedAddr m .txc) = none)) ∧ holdsRings s = true ∧ s.path.txReleased = false ∧ s.ring.txForcing = false ∧ s.bus.fixedH = some h ∧
    s.bus.shadows.txc = some v ∧ countOf v ≠ h ∧ countOf (mergeLanes v l) = h ∧ s.bus.waiting = [] ∧ n = doneCount s ∧ s.path.phase ≠ some
    .closing ∧ s.loader.softReset ≠ .completing ∧ n ≠ 0 ∧ s.power.mode = .doze :=
  ⟨.u, 0x8004, ⟨5, 3⟩, map0, 5, 4, 1, { dozing with
      path.path := .takeover, path.txReleased := false, path.rxReleased := false, bus.fixedH := some 5, bus.shadows.txc := some 4,
      ring.window := [⟨5, .done, 0, 60, 0, 1, false⟩] }, by decide +kernel⟩

theorem test_meets_ReleaseCompletesByOwnWrite_1d : ∃ (q : Requester) (a : Addr) (l : LaneWord) (m : MemoryMap) (h : Count) (v : Word) (n : Nat)
    (s : State),
    s.loader.map = some m ∧ watchedApart m ∧ onWatched m .txc a ∧ masterTurn s = false ∧ (q ≠ .u ∨ (s.bus.txGuard = false ∧ guardedBy s
    (watchedAddr m .txc) = none)) ∧ holdsRings s = true ∧ s.path.txReleased = false ∧ s.ring.txForcing = false ∧ s.bus.fixedH = some h ∧
    s.bus.shadows.txc = some v ∧ countOf v ≠ h ∧ countOf (mergeLanes v l) = h ∧ s.bus.waiting = [] ∧ n = doneCount s ∧ s.path.phase ≠ some
    .closing ∧ s.loader.softReset ≠ .completing ∧ q = .p ∧ n = 0 :=
  ⟨.p, 0x8004, ⟨5, 3⟩, map0, 5, 4, 0, { works with
      path.path := .takeover, path.txReleased := false, path.rxReleased := false, bus.fixedH := some 5, bus.shadows.txc := some 4,
      bus.txGuard := true }, by decide +kernel⟩

theorem test_meets_ReleaseCompletesByOwnWrite_2a : ∃ (q : Requester) (a : Addr) (l : LaneWord) (m : MemoryMap) (g : Count) (v : Word) (s :
    State),
    s.loader.map = some m ∧ watchedApart m ∧ onWatched m .rxf a ∧ masterTurn s = false ∧ (q ≠ .u ∨ (s.bus.rxGuard = false ∧ guardedBy s
    (watchedAddr m .rxf) = none)) ∧ holdsRings s = true ∧ s.path.rxReleased = false ∧ s.ring.rxForcing = false ∧ s.bus.fixedG = some g ∧
    s.bus.shadows.rxf = some v ∧ countOf v ≠ g ∧ countOf (mergeLanes v l) = g ∧ s.bus.waiting = [] ∧ s.ring.fillCursor = some g :=
  ⟨.u, 0x800c, ⟨5, 3⟩, map0, 5, 4, { works with
      path.path := .takeover, path.txReleased := false, path.rxReleased := false, bus.fixedG := some 5, bus.shadows.rxf := some 4,
      ring.fillCursor := some 5 }, by decide +kernel⟩

theorem test_meets_ReleaseCompletesByOwnWrite_2b : ∃ (q : Requester) (a : Addr) (l : LaneWord) (m : MemoryMap) (g : Count) (v : Word) (s :
    State),
    s.loader.map = some m ∧ watchedApart m ∧ onWatched m .rxf a ∧ masterTurn s = false ∧ (q ≠ .u ∨ (s.bus.rxGuard = false ∧ guardedBy s
    (watchedAddr m .rxf) = none)) ∧ holdsRings s = true ∧ s.path.rxReleased = false ∧ s.ring.rxForcing = false ∧ s.bus.fixedG = some g ∧
    s.bus.shadows.rxf = some v ∧ countOf v ≠ g ∧ countOf (mergeLanes v l) = g ∧ s.bus.waiting = [] ∧ s.power.mode ≠ .doze ∧ s.ring.fillCursor =
    some 7 ∧ s.bus.queue.length ≤ 7 :=
  ⟨.u, 0x800c, ⟨5, 3⟩, map0, 5, 4, { works with
      path.path := .radio, path.rxReleased := false, bus.fixedG := some 5, bus.shadows.rxf := some 4, ring.fillCursor := some 7 }, by
    decide +kernel⟩

theorem test_meets_ReleaseCompletesByOwnWrite_2c : ∃ (q : Requester) (a : Addr) (l : LaneWord) (m : MemoryMap) (g : Count) (v : Word) (s :
    State),
    s.loader.map = some m ∧ watchedApart m ∧ onWatched m .rxf a ∧ masterTurn s = false ∧ (q ≠ .u ∨ (s.bus.rxGuard = false ∧ guardedBy s
    (watchedAddr m .rxf) = none)) ∧ holdsRings s = true ∧ s.path.rxReleased = false ∧ s.ring.rxForcing = false ∧ s.bus.fixedG = some g ∧
    s.bus.shadows.rxf = some v ∧ countOf v ≠ g ∧ countOf (mergeLanes v l) = g ∧ s.bus.waiting = [] ∧ s.power.mode = .doze :=
  ⟨.u, 0x800c, ⟨5, 3⟩, map0, 5, 4, { dozing with
      path.path := .radio, path.rxReleased := false, bus.fixedG := some 5, bus.shadows.rxf := some 4, ring.fillCursor := some 7 }, by
    decide +kernel⟩

theorem test_meets_ReleaseCompletesByOwnWrite_2d : ∃ (q : Requester) (a : Addr) (l : LaneWord) (m : MemoryMap) (g : Count) (v : Word) (s :
    State),
    s.loader.map = some m ∧ watchedApart m ∧ onWatched m .rxf a ∧ masterTurn s = false ∧ (q ≠ .u ∨ (s.bus.rxGuard = false ∧ guardedBy s
    (watchedAddr m .rxf) = none)) ∧ holdsRings s = true ∧ s.path.rxReleased = false ∧ s.ring.rxForcing = false ∧ s.bus.fixedG = some g ∧
    s.bus.shadows.rxf = some v ∧ countOf v ≠ g ∧ countOf (mergeLanes v l) = g ∧ s.bus.waiting = [] ∧ q = .o ∧ s.ring.fillCursor = some g :=
  ⟨.o, 0x800c, ⟨5, 3⟩, map0, 5, 4, { works with
      path.path := .takeover, path.txReleased := false, path.rxReleased := false, bus.fixedG := some 5, bus.shadows.rxf := some 4,
      ring.fillCursor := some 5 }, by decide +kernel⟩

theorem test_meets_EvcWriteMovesPostedKinds_1a : ∃ (q : Requester) (a : Addr) (l : LaneWord) (m : MemoryMap) (v : Word) (e : Count) (s : State),
    s.loader.map = some m ∧ watchedApart m ∧ onWatched m .evc a ∧ s.bus.shadows.evc = some v ∧ countOf (mergeLanes v l) = e ∧ (q ≠ .u ∨
    (s.bus.txGuard = false ∧ s.bus.rxGuard = false)) ∧ masterTurn s = false ∧ s.bus.waiting = [] ∧ e = s.events.evp :=
  ⟨.p, 0x8010, ⟨8, 15⟩, map0, 7, 8, { works with
      events.evp := 8, events.slotKinds := (List.replicate 64 none).set 7 (some .pathChange), bus.shadows.evc := some 7 }, by decide +kernel⟩

theorem test_meets_EvcWriteMovesPostedKinds_1b : ∃ (q : Requester) (a : Addr) (l : LaneWord) (m : MemoryMap) (v : Word) (e : Count) (s : State),
    s.loader.map = some m ∧ watchedApart m ∧ onWatched m .evc a ∧ s.bus.shadows.evc = some v ∧ countOf (mergeLanes v l) = e ∧ (q ≠ .u ∨
    (s.bus.txGuard = false ∧ s.bus.rxGuard = false)) ∧ masterTurn s = false ∧ s.bus.waiting = [] ∧ dist e s.events.evp = eventSize s :=
  ⟨.p, 0x8010, ⟨0, 15⟩, map0, 7, 0, { works with
      events.evp := 8, events.slotKinds := (List.replicate 64 none).set 7 (some .pathChange), bus.shadows.evc := some 7 }, by decide +kernel⟩

theorem test_meets_EvcWriteMovesPostedKinds_1c : ∃ (q : Requester) (a : Addr) (l : LaneWord) (m : MemoryMap) (v : Word) (e : Count) (s : State),
    s.loader.map = some m ∧ watchedApart m ∧ onWatched m .evc a ∧ s.bus.shadows.evc = some v ∧ countOf (mergeLanes v l) = e ∧ (q ≠ .u ∨
    (s.bus.txGuard = false ∧ s.bus.rxGuard = false)) ∧ masterTurn s = false ∧ s.bus.waiting = [] ∧ dist e s.events.evp = eventSize s + 1 :=
  ⟨.p, 0x8010, ⟨0xffff, 15⟩, map0, 7, 0xffff, { works with
      events.evp := 8, events.slotKinds := (List.replicate 64 none).set 7 (some .pathChange), bus.shadows.evc := some 7 }, by decide +kernel⟩

theorem test_meets_PgenWriteWantsPolicyRead_1a : ∃ (a : Addr) (l : LaneWord) (m : MemoryMap) (v : Word) (s : State),
    s.loader.map = some m ∧ watchedApart m ∧ onWatched m .pgen a ∧ s.bus.shadows.pgen = some v ∧ mergeLanes v l ≠ v ∧ masterTurn s = false ∧
    s.loader.softReset = .none ∧ s.loader.readState = .idle :=
  ⟨0x8014, ⟨1, 15⟩, map0, 0, works, by decide +kernel⟩

theorem test_meets_PgenWriteWantsPolicyRead_1b : ∃ (a : Addr) (l : LaneWord) (m : MemoryMap) (v : Word) (s : State),
    s.loader.map = some m ∧ watchedApart m ∧ onWatched m .pgen a ∧ s.bus.shadows.pgen = some v ∧ mergeLanes v l ≠ v ∧ masterTurn s = false ∧
    s.loader.softReset = .none :=
  ⟨0x8014, ⟨1, 15⟩, map0, 0, { works with loader.readState := .reading }, by decide +kernel⟩

theorem test_meets_PgenWriteWantsPolicyRead_1c : ∃ (a : Addr) (l : LaneWord) (m : MemoryMap) (v : Word) (s : State),
    s.loader.map = some m ∧ watchedApart m ∧ onWatched m .pgen a ∧ s.bus.shadows.pgen = some v ∧ mergeLanes v l ≠ v ∧ masterTurn s = false ∧
    s.loader.softReset = .none ∧ s.power.step = .dozing :=
  ⟨0x8014, ⟨1, 15⟩, map0, 0, dozing, by decide +kernel⟩

theorem test_meets_PgenWriteWantsPolicyRead_2 : ∃ (q : Requester) (s : State),
    q ≠ .p ∧ masterTurn s = false :=
  ⟨.o, works, by decide +kernel⟩

theorem test_meets_StaleUplinkWriteIsDropped_1a : ∃ (a : Addr) (m : MemoryMap) (s : State),
    s.loader.map = some m ∧ masterTurn s = false ∧ s.bus.waiting = [] ∧ s.events.entries.length = 11 ∧ s.events.counters.length = 10 ∧
    s.bus.txGuard = true ∧ (inTxRing m (a.toNat / 4 * 4) = true ∨ a.toNat / 4 * 4 = watchedAddr m .txc) ∧ (counterOf s .staleUplinkWrites).value
    < 65535 ∧ inTxRing m (a.toNat / 4 * 4) = true :=
  ⟨0x10fc, map0, { works with bus.txGuard := true, events.counters := List.replicate 10 ⟨65534, false⟩ }, by decide +kernel⟩

theorem test_meets_StaleUplinkWriteIsDropped_1b : ∃ (a : Addr) (m : MemoryMap) (s : State),
    s.loader.map = some m ∧ masterTurn s = false ∧ s.bus.waiting = [] ∧ s.events.entries.length = 11 ∧ s.events.counters.length = 10 ∧
    s.bus.txGuard = true ∧ (inTxRing m (a.toNat / 4 * 4) = true ∨ a.toNat / 4 * 4 = watchedAddr m .txc) ∧ 65535 ≤ (counterOf s
    .staleUplinkWrites).value :=
  ⟨0x8004, map0, { works with bus.txGuard := true, events.counters := List.replicate 10 ⟨65535, false⟩ }, by decide +kernel⟩

theorem test_meets_StaleUplinkWriteIsDropped_2a : ∃ (a : Addr) (m : MemoryMap) (s : State),
    s.loader.map = some m ∧ masterTurn s = false ∧ s.bus.waiting = [] ∧ s.events.entries.length = 11 ∧ s.events.counters.length = 10 ∧
    s.bus.rxGuard = true ∧ (s.bus.txGuard = false ∨ (inTxRing m (a.toNat / 4 * 4) = false ∧ a.toNat / 4 * 4 ≠ watchedAddr m .txc)) ∧ (inRxRing m
    (a.toNat / 4 * 4) = true ∨ a.toNat / 4 * 4 = watchedAddr m .rxf) ∧ inRxRing m (a.toNat / 4 * 4) = true :=
  ⟨0x20fc, map0, { works with bus.rxGuard := true }, by decide +kernel⟩

theorem test_meets_StaleUplinkWriteIsDropped_2b : ∃ (a : Addr) (m : MemoryMap) (s : State),
    s.loader.map = some m ∧ masterTurn s = false ∧ s.bus.waiting = [] ∧ s.events.entries.length = 11 ∧ s.events.counters.length = 10 ∧
    s.bus.rxGuard = true ∧ (s.bus.txGuard = false ∨ (inTxRing m (a.toNat / 4 * 4) = false ∧ a.toNat / 4 * 4 ≠ watchedAddr m .txc)) ∧ (inRxRing m
    (a.toNat / 4 * 4) = true ∨ a.toNat / 4 * 4 = watchedAddr m .rxf) :=
  ⟨0x800c, map0, { works with bus.rxGuard := true, bus.txGuard := true }, by decide +kernel⟩

/-- A burst over the transmit ring's end, its guard raised, and one over its start with no guard raised. -/
theorem test_meets_StaleUplinkWriteIsDropped_3a : ∃ (c : Instr) (a : Addr) (ws : List LaneWord) (m : MemoryMap) (s : State),
    writeOf c = some (.u, a, ws) ∧ wordsWellFormed ws = true ∧ s.loader.map = some m ∧ masterTurn s = false ∧ s.bus.waiting = [] ∧
    s.events.counters.length = 10 ∧ (∃ p ∈ placeWords a ws, dropsUnder m s p.1 .transmit ∨ dropsUnder m s p.1 .receive) ∧
    (counterOf s .staleUplinkWrites).value = 65534 :=
  ⟨.gatewayTransfer .u (.write 0x10f8 (List.replicate 4 ⟨1, 15⟩)), 0x10f8, List.replicate 4 ⟨1, 15⟩, map0,
    { works with bus.txGuard := true, events.counters := List.replicate 10 ⟨65534, false⟩ }, by simp only [dropsUnder]; decide +kernel⟩

theorem test_meets_StaleUplinkWriteIsDropped_3b : ∃ (c : Instr) (a : Addr) (ws : List LaneWord) (m : MemoryMap) (s : State),
    writeOf c = some (.u, a, ws) ∧ wordsWellFormed ws = true ∧ s.loader.map = some m ∧ masterTurn s = false ∧ s.bus.waiting = [] ∧
    s.events.counters.length = 10 ∧ (∃ p ∈ placeWords a ws, dropsUnder m s p.1 .transmit ∨ dropsUnder m s p.1 .receive) ∧
    (counterOf s .staleUplinkWrites).value = 65535 :=
  ⟨.txRingCompletionWrite 0x20f8 (List.replicate 4 ⟨1, 15⟩), 0x20f8, List.replicate 4 ⟨1, 15⟩, map0,
    { works with bus.rxGuard := true, events.counters := List.replicate 10 ⟨65535, false⟩ }, by simp only [dropsUnder]; decide +kernel⟩

theorem test_meets_StaleUplinkWriteIsDropped_3c : ∃ (c : Instr) (a : Addr) (ws : List LaneWord) (m : MemoryMap) (s : State),
    writeOf c = some (.u, a, ws) ∧ wordsWellFormed ws = true ∧ s.loader.map = some m ∧ masterTurn s = false ∧ s.bus.waiting = [] ∧
    s.events.counters.length = 10 ∧ (∀ p ∈ placeWords a ws, ¬ dropsUnder m s p.1 .transmit ∧ ¬ dropsUnder m s p.1 .receive) :=
  ⟨.gatewayTransfer .u (.write 0x0ffc (List.replicate 2 ⟨1, 15⟩)), 0x0ffc, List.replicate 2 ⟨1, 15⟩, map0, { works with bus.rxGuard := true },
    by simp only [dropsUnder]; decide +kernel⟩

/-- The first dropped word stands behind a carried one, under the transmit guard, and under the receive guard. -/
theorem test_meets_StaleUplinkWriteIsDropped_4a : ∃ (c : Instr) (a : Addr) (ws : List LaneWord) (m : MemoryMap) (pre : List (Nat × LaneWord))
    (p : Nat × LaneWord) (post : List (Nat × LaneWord)) (s : State),
    writeOf c = some (.u, a, ws) ∧ wordsWellFormed ws = true ∧ s.loader.map = some m ∧ masterTurn s = false ∧ s.bus.waiting = [] ∧
    holdsRings s = true ∧ s.events.entries.length = 11 ∧ placeWords a ws = pre ++ p :: post ∧
    (∀ x ∈ pre, ¬ dropsUnder m s x.1 .transmit ∧ ¬ dropsUnder m s x.1 .receive) ∧
    (∀ x ∈ pre ++ post, dropsUnder m s x.1 .transmit ∨ dropsUnder m s x.1 .receive ∨ x.1 ∉ [watchedAddr m .txp, watchedAddr m .txc,
      watchedAddr m .rxp, watchedAddr m .rxf, watchedAddr m .evc, watchedAddr m .pgen]) ∧ dropsUnder m s p.1 .transmit ∧ pre ≠ [] :=
  ⟨.gatewayTransfer .u (.write 0x0ffc (List.replicate 4 ⟨1, 15⟩)), 0x0ffc, List.replicate 4 ⟨1, 15⟩, map0, [(0x0ffc, ⟨1, 15⟩)], (0x1000, ⟨1, 15⟩),
    [(0x1004, ⟨1, 15⟩), (0x1008, ⟨1, 15⟩)], { works with path.path := .held, bus.txGuard := true }, by simp only [dropsUnder]; decide +kernel⟩

theorem test_meets_StaleUplinkWriteIsDropped_4b : ∃ (c : Instr) (a : Addr) (ws : List LaneWord) (m : MemoryMap) (pre : List (Nat × LaneWord))
    (p : Nat × LaneWord) (post : List (Nat × LaneWord)) (s : State),
    writeOf c = some (.u, a, ws) ∧ wordsWellFormed ws = true ∧ s.loader.map = some m ∧ masterTurn s = false ∧ s.bus.waiting = [] ∧
    holdsRings s = true ∧ s.events.entries.length = 11 ∧ placeWords a ws = pre ++ p :: post ∧
    (∀ x ∈ pre, ¬ dropsUnder m s x.1 .transmit ∧ ¬ dropsUnder m s x.1 .receive) ∧
    (∀ x ∈ pre ++ post, dropsUnder m s x.1 .transmit ∨ dropsUnder m s x.1 .receive ∨ x.1 ∉ [watchedAddr m .txp, watchedAddr m .txc,
      watchedAddr m .rxp, watchedAddr m .rxf, watchedAddr m .evc, watchedAddr m .pgen]) ∧ dropsUnder m s p.1 .receive ∧
    ¬ dropsUnder m s p.1 .transmit :=
  ⟨.gatewayTransfer .u (.write 0x20fc (List.replicate 2 ⟨1, 15⟩)), 0x20fc, List.replicate 2 ⟨1, 15⟩, map0, [], (0x20fc, ⟨1, 15⟩),
    [(0x2100, ⟨1, 15⟩)], { works with path.path := .held, bus.txGuard := true, bus.rxGuard := true }, by simp only [dropsUnder]; decide +kernel⟩

theorem test_meets_MasterCarriesInIssueOrder_1 : ∃ (p : Purpose) (a : Addr) (ws : List LaneWord) (rest : List MasterTransfer) (s : State),
    s.bus.queue = ⟨p, .write a ws⟩ :: rest :=
  ⟨.evpWrite, 0x5014, [⟨1, 15⟩], [], { works with bus.queue := [⟨.evpWrite, .write 0x5014 [⟨1, 15⟩]⟩] }, by decide +kernel⟩

theorem test_meets_MasterCarriesInIssueOrder_2 : ∃ (p : Purpose) (a : Addr) (len : BurstLen) (rest : List MasterTransfer) (s : State),
    s.bus.queue = ⟨p, .read a len⟩ :: rest :=
  ⟨.policyRead false, 0x4000, .sixteen, [⟨.policyRead true, .read 0x4040 .sixteen⟩], { works with
      bus.queue := [⟨.policyRead false, .read 0x4000 .sixteen⟩, ⟨.policyRead true, .read 0x4040 .sixteen⟩] }, by decide +kernel⟩

theorem test_meets_MasterCarriesInIssueOrder_3 : ∃ (s : State),
    s.bus.queue = [] :=
  ⟨works, by decide +kernel⟩

theorem test_meets_MasterCarriesInIssueOrder_4 : ∃ (c : Instr) (s : State),
    ((writeOf c).isSome ∨ (readOf c).isSome) ∧ masterTurn s = false :=
  ⟨.gatewayTransfer .p (.read 0x100 .one), { works with bus.queue := [⟨.evpWrite, .write 0x5014 [⟨1, 15⟩]⟩], bus.waitCount := 3 }, by
    decide +kernel⟩

theorem test_meets_MasterCarriesInIssueOrder_5 : ∃ (c : Instr) (s : State),
    ((writeOf c).isSome ∨ (readOf c).isSome) ∧ masterTurn s = true :=
  ⟨.gatewayTransfer .p (.read 0x100 .one), { works with bus.queue := [⟨.evpWrite, .write 0x5014 [⟨1, 15⟩]⟩], bus.waitCount := 4 }, by
    decide +kernel⟩

theorem test_meets_MasterCarriesInIssueOrder_6 : ∃ (a : Addr) (c : Count) (rest : List MasterTransfer) (s : State),
    s.bus.queue = ⟨.txcAdvance, .write a [⟨c.setWidth 32, 15⟩]⟩ :: rest ∧ s.path.txReleased = true ∧ s.path.path ≠ .fibre ∧ s.bus.waiting = [] :=
  ⟨0x8004, 6, [], { works with path.path := .held, bus.queue := [⟨.txcAdvance, .write 0x8004 [⟨6, 15⟩]⟩] }, by decide +kernel⟩

theorem test_meets_MasterCarriesInIssueOrder_7 : ∃ (a : Addr) (c : Count) (rest : List MasterTransfer) (s : State),
    s.bus.queue = ⟨.rxfDelivery, .write a [⟨c.setWidth 32, 15⟩]⟩ :: rest ∧ s.path.rxReleased = true ∧ s.path.path ≠ .fibre ∧ s.bus.waiting = []
    :=
  ⟨0x800c, 6, [], { works with path.path := .held, bus.queue := [⟨.rxfDelivery, .write 0x800c [⟨6, 15⟩]⟩] }, by decide +kernel⟩

theorem test_meets_SigSampleReadsTheLines_1 : ∃ (s : State),
    s.health.timer100.isSome = true ∧ s.power.mode ≠ .doze :=
  ⟨{ works with health.timer100 := some 0, health.sig := 1 }, by decide +kernel⟩

theorem test_meets_ReceiveActivityIsSampledEachSecond_1 : ∃ (a : Addr) (l : LaneWord) (m : MemoryMap) (s : State),
    s.loader.map = some m ∧ onWatched m .rxf a ∧ l.lanes ≠ 0 ∧ masterTurn s = false ∧ s.bus.txGuard = false ∧ s.bus.rxGuard = false ∧ s.path.path
    = .fibre ∧ s.power.mode ≠ .doze :=
  ⟨0x800c, ⟨1, 1⟩, map0, works, by decide +kernel⟩

theorem test_meets_ReceiveActivityIsSampledEachSecond_2 : ∃ (q : Requester) (s : State),
    (q ≠ .u ∨ s.path.path ≠ .fibre ∨ s.power.mode = .doze) ∧ masterTurn s = false :=
  ⟨.p, works, by decide +kernel⟩

theorem test_meets_ReceiveActivityIsSampledEachSecond_3 : ∃ (s : State),
    s.health.timer1s.isSome = true ∧ s.power.mode ≠ .doze ∧ s.path.path = .fibre :=
  ⟨{ works with health.timer1s := some 0 }, by decide +kernel⟩

theorem test_meets_ReceiveActivityIsSampledEachSecond_4 : ∃ (ref : Count) (s : State),
    s.health.timer100.isSome = true ∧ s.power.mode ≠ .doze ∧ s.path.path = .fibre ∧ s.health.txReference = some ref :=
  ⟨9, { works with health.timer100 := some 0, health.txReference := some 9 }, by decide +kernel⟩

theorem test_meets_ReceiveActivityIsSampledEachSecond_5a : ∃ (s : State),
    s.health.timer100.isSome = true ∧ s.power.mode ≠ .doze ∧ (s.path.path ≠ .fibre ∨ s.health.txReference = none) ∧ s.path.path ≠ .fibre :=
  ⟨{ works with path.path := .held, health.timer100 := some 0, health.txReference := some 9 }, by decide +kernel⟩

theorem test_meets_ReceiveActivityIsSampledEachSecond_5b : ∃ (s : State),
    s.health.timer100.isSome = true ∧ s.power.mode ≠ .doze ∧ (s.path.path ≠ .fibre ∨ s.health.txReference = none) ∧ s.health.txReference = none
    :=
  ⟨{ works with health.timer100 := some 0 }, by decide +kernel⟩

theorem test_meets_MacCompletionSamplesTxe_1a : ∃ (a : Addr) (l : LaneWord) (m : MemoryMap) (k : Nat) (s : State),
    s.loader.map = some m ∧ k < m.txSize ∧ a.toNat / 4 * 4 = m.txBase + 16 * k + 4 ∧ laneOn l 3 = true ∧ s.bus.txGuard = false ∧ s.bus.rxGuard =
    false ∧ masterTurn s = false ∧ s.path.path = .fibre ∧ s.power.mode ≠ .doze ∧ wordByte l.data 3 = 1 :=
  ⟨0x1004, ⟨0x01000000, 8⟩, map0, 0, works, by decide +kernel⟩

theorem test_meets_MacCompletionSamplesTxe_1b : ∃ (a : Addr) (l : LaneWord) (m : MemoryMap) (k : Nat) (s : State),
    s.loader.map = some m ∧ k < m.txSize ∧ a.toNat / 4 * 4 = m.txBase + 16 * k + 4 ∧ laneOn l 3 = true ∧ s.bus.txGuard = false ∧ s.bus.rxGuard =
    false ∧ masterTurn s = false ∧ s.path.path = .fibre ∧ s.power.mode ≠ .doze ∧ 2 ≤ (wordByte l.data 3).toNat :=
  ⟨0x10f4, ⟨0x02000000, 8⟩, map0, 15, works, by decide +kernel⟩

theorem test_meets_MacCompletionSamplesTxe_1c : ∃ (a : Addr) (l : LaneWord) (m : MemoryMap) (k : Nat) (s : State),
    s.loader.map = some m ∧ k < m.txSize ∧ a.toNat / 4 * 4 = m.txBase + 16 * k + 4 ∧ laneOn l 3 = true ∧ s.bus.txGuard = false ∧ s.bus.rxGuard =
    false ∧ masterTurn s = false ∧ s.path.path = .fibre ∧ s.power.mode ≠ .doze ∧ (wordByte l.data 3).toNat ≤ 7 :=
  ⟨0x10f4, ⟨0x07000000, 8⟩, map0, 15, works, by decide +kernel⟩

theorem test_meets_MacCompletionSamplesTxe_1d : ∃ (a : Addr) (l : LaneWord) (m : MemoryMap) (k : Nat) (s : State),
    s.loader.map = some m ∧ k < m.txSize ∧ a.toNat / 4 * 4 = m.txBase + 16 * k + 4 ∧ laneOn l 3 = true ∧ s.bus.txGuard = false ∧ s.bus.rxGuard =
    false ∧ masterTurn s = false ∧ s.path.path = .fibre ∧ s.power.mode ≠ .doze ∧ wordByte l.data 3 = 0 :=
  ⟨0x10f4, ⟨0x00000000, 8⟩, map0, 15, works, by decide +kernel⟩

theorem test_meets_MacCompletionSamplesTxe_1e : ∃ (a : Addr) (l : LaneWord) (m : MemoryMap) (k : Nat) (s : State),
    s.loader.map = some m ∧ k < m.txSize ∧ a.toNat / 4 * 4 = m.txBase + 16 * k + 4 ∧ laneOn l 3 = true ∧ s.bus.txGuard = false ∧ s.bus.rxGuard =
    false ∧ masterTurn s = false ∧ s.path.path = .fibre ∧ s.power.mode ≠ .doze ∧ 8 ≤ (wordByte l.data 3).toNat :=
  ⟨0x10f4, ⟨0x08000000, 8⟩, map0, 15, works, by decide +kernel⟩

theorem test_meets_DescriptorReadEntersWindow_1 : ∃ (first : Count) (n : Nat) (a : Addr) (len : BurstLen) (rest : List MasterTransfer) (m :
    MemoryMap) (s : State),
    s.bus.queue = ⟨.descriptorRead first n, .read a len⟩ :: rest ∧ s.ring.descriptorRead = some ⟨first, n, false⟩ ∧ s.loader.map = some m ∧
    s.bus.waiting = [] ∧ s.path.phase ≠ some .closing ∧ s.loader.softReset = .none ∧ (∀ e ∈ readEntries first n (memReadWords s.sram a
    (burstWords len)), entryCheck s e = none) ∧ burstWords len = 4 * n :=
  ⟨0, 1, 0x1000, .four, [], map0, { works with
      sram := memWriteWords [] [(0x1000, ⟨0x00010000, 15⟩), (0x1004, ⟨0x000205ea, 15⟩)], path.path := .held,
      ring.descriptorRead := some ⟨0, 1, false⟩, bus.queue := [⟨.descriptorRead 0 1, .read 0x1000 .four⟩] }, by decide +kernel⟩

theorem test_meets_DescriptorReadEntersWindow_2a : ∃ (first : Count) (a : Addr) (rest : List MasterTransfer) (m : MemoryMap) (e : Entry) (s :
    State),
    s.bus.queue = ⟨.descriptorRead first 1, .read a .four⟩ :: rest ∧ s.ring.descriptorRead = some ⟨first, 1, false⟩ ∧ s.loader.map = some m ∧
    s.bus.waiting = [] ∧ rest.length ≤ 7 ∧ s.power.mode ≠ .doze ∧ e = entryOf first (slice (bytesOf (memReadWords s.sram a 4)) 0 16) ∧ 2 <
    e.cls.toNat :=
  ⟨0, 0x1000, [], map0, ⟨0, .pending, 3, 60, 0x010000, 1, false⟩, { works with
      sram := memWriteWords [] [(0x1000, ⟨0x00010000, 15⟩), (0x1004, ⟨0x0003003c, 15⟩)], path.path := .held,
      ring.descriptorRead := some ⟨0, 1, false⟩, bus.queue := [⟨.descriptorRead 0 1, .read 0x1000 .four⟩] }, by decide +kernel⟩

theorem test_meets_DescriptorReadEntersWindow_2b : ∃ (first : Count) (a : Addr) (rest : List MasterTransfer) (m : MemoryMap) (e : Entry) (s :
    State),
    s.bus.queue = ⟨.descriptorRead first 1, .read a .four⟩ :: rest ∧ s.ring.descriptorRead = some ⟨first, 1, false⟩ ∧ s.loader.map = some m ∧
    s.bus.waiting = [] ∧ rest.length ≤ 7 ∧ s.power.mode ≠ .doze ∧ e = entryOf first (slice (bytesOf (memReadWords s.sram a 4)) 0 16) ∧
    e.cls.toNat ≤ 2 ∧ e.length = 0 :=
  ⟨0, 0x1000, [], map0, ⟨0, .pending, 2, 0, 0x010000, 0, false⟩, { works with
      sram := memWriteWords [] [(0x1000, ⟨0x00010000, 15⟩), (0x1004, ⟨0x00020000, 15⟩)], path.path := .held,
      ring.descriptorRead := some ⟨0, 1, false⟩, bus.queue := [⟨.descriptorRead 0 1, .read 0x1000 .four⟩] }, by decide +kernel⟩

theorem test_meets_DescriptorReadEntersWindow_2c : ∃ (first : Count) (a : Addr) (rest : List MasterTransfer) (m : MemoryMap) (e : Entry) (s :
    State),
    s.bus.queue = ⟨.descriptorRead first 1, .read a .four⟩ :: rest ∧ s.ring.descriptorRead = some ⟨first, 1, false⟩ ∧ s.loader.map = some m ∧
    s.bus.waiting = [] ∧ rest.length ≤ 7 ∧ s.power.mode ≠ .doze ∧ e = entryOf first (slice (bytesOf (memReadWords s.sram a 4)) 0 16) ∧
    e.cls.toNat ≤ 2 ∧ s.loader.policy.frameLimit < e.length :=
  ⟨0, 0x1000, [], map0, ⟨0, .pending, 0, 1515, 0x010000, 6, false⟩, { works with
      sram := memWriteWords [] [(0x1000, ⟨0x00010000, 15⟩), (0x1004, ⟨0x000005eb, 15⟩)], path.path := .held,
      ring.descriptorRead := some ⟨0, 1, false⟩, bus.queue := [⟨.descriptorRead 0 1, .read 0x1000 .four⟩] }, by decide +kernel⟩

theorem test_meets_DescriptorReadEntersWindow_3a : ∃ (first : Count) (a : Addr) (rest : List MasterTransfer) (m : MemoryMap) (e : Entry) (cls :
    FrameClass) (s : State),
    s.bus.queue = ⟨.descriptorRead first 1, .read a .four⟩ :: rest ∧ s.ring.descriptorRead = some ⟨first, 1, false⟩ ∧ s.loader.map = some m ∧
    s.bus.waiting = [] ∧ rest.length ≤ 7 ∧ holdsRings s = true ∧ s.path.phase ≠ some .closing ∧ softResetStands s = false ∧ s.power.mode ≠ .doze
    ∧ e = entryOf first (slice (bytesOf (memReadWords s.sram a 4)) 0 16) ∧ entryCheck s e = none ∧ cls = (if e.cls = 2 then .voicePriority else
    if e.cls = 1 then .voice else .data) ∧ (∀ e ∈ s.ring.window, e.st ≠ .pending) ∧ s.hold.dqV = [] ∧ s.hold.dqD = [] ∧ s.ring.takes.length < 4 ∧
    ((e.length + 255) / 256 + (if cls = .data ∧ s.path.path ≠ .returning then s.loader.policy.voiceReserve else 0) ≤ s.hold.freeList.length) ∧
    (cls = .data → s.path.path ≠ .returning → ∀ r ∈ s.hold.uqD, ageOf s.clock r.time ≤ s.loader.policy.dataHold * 1000) ∧ cls = .data ∧
    s.path.path ≠ .returning :=
  ⟨0, 0x1000, [], map0, ⟨0, .pending, 0, 1514, 0x010000, 6, false⟩, .data, { works with
      sram := memWriteWords [] [(0x1000, ⟨0x00010000, 15⟩), (0x1004, ⟨0x000005ea, 15⟩)], path.path := .held,
      ring.descriptorRead := some ⟨0, 1, false⟩, bus.queue := [⟨.descriptorRead 0 1, .read 0x1000 .four⟩] }, by decide +kernel⟩

theorem test_meets_DescriptorReadEntersWindow_3b : ∃ (first : Count) (a : Addr) (rest : List MasterTransfer) (m : MemoryMap) (e : Entry) (cls :
    FrameClass) (s : State),
    s.bus.queue = ⟨.descriptorRead first 1, .read a .four⟩ :: rest ∧ s.ring.descriptorRead = some ⟨first, 1, false⟩ ∧ s.loader.map = some m ∧
    s.bus.waiting = [] ∧ rest.length ≤ 7 ∧ holdsRings s = true ∧ s.path.phase ≠ some .closing ∧ softResetStands s = false ∧ s.power.mode ≠ .doze
    ∧ e = entryOf first (slice (bytesOf (memReadWords s.sram a 4)) 0 16) ∧ entryCheck s e = none ∧ cls = (if e.cls = 2 then .voicePriority else
    if e.cls = 1 then .voice else .data) ∧ (∀ e ∈ s.ring.window, e.st ≠ .pending) ∧ s.hold.dqV = [] ∧ s.hold.dqD = [] ∧ s.ring.takes.length < 4 ∧
    ((e.length + 255) / 256 + (if cls = .data ∧ s.path.path ≠ .returning then s.loader.policy.voiceReserve else 0) ≤ s.hold.freeList.length) ∧
    (cls = .data → s.path.path ≠ .returning → ∀ r ∈ s.hold.uqD, ageOf s.clock r.time ≤ s.loader.policy.dataHold * 1000) ∧ cls = .voice :=
  ⟨0, 0x1000, [], map0, ⟨0, .pending, 1, 200, 0x010000, 1, false⟩, .voice, { works with
      sram := memWriteWords [] [(0x1000, ⟨0x00010000, 15⟩), (0x1004, ⟨0x000100c8, 15⟩)], path.path := .held,
      ring.descriptorRead := some ⟨0, 1, false⟩, bus.queue := [⟨.descriptorRead 0 1, .read 0x1000 .four⟩] }, by decide +kernel⟩

theorem test_meets_DescriptorReadEntersWindow_3c : ∃ (first : Count) (a : Addr) (rest : List MasterTransfer) (m : MemoryMap) (e : Entry) (cls :
    FrameClass) (s : State),
    s.bus.queue = ⟨.descriptorRead first 1, .read a .four⟩ :: rest ∧ s.ring.descriptorRead = some ⟨first, 1, false⟩ ∧ s.loader.map = some m ∧
    s.bus.waiting = [] ∧ rest.length ≤ 7 ∧ holdsRings s = true ∧ s.path.phase ≠ some .closing ∧ softResetStands s = false ∧ s.power.mode ≠ .doze
    ∧ e = entryOf first (slice (bytesOf (memReadWords s.sram a 4)) 0 16) ∧ entryCheck s e = none ∧ cls = (if e.cls = 2 then .voicePriority else
    if e.cls = 1 then .voice else .data) ∧ (∀ e ∈ s.ring.window, e.st ≠ .pending) ∧ s.hold.dqV = [] ∧ s.hold.dqD = [] ∧ s.ring.takes.length < 4 ∧
    ((e.length + 255) / 256 + (if cls = .data ∧ s.path.path ≠ .returning then s.loader.policy.voiceReserve else 0) ≤ s.hold.freeList.length) ∧
    (cls = .data → s.path.path ≠ .returning → ∀ r ∈ s.hold.uqD, ageOf s.clock r.time ≤ s.loader.policy.dataHold * 1000) ∧ cls = .voicePriority ∧
    s.radio.state = .attached :=
  ⟨0, 0x1000, [], map0, ⟨0, .pending, 2, 200, 0x010000, 1, false⟩, .voicePriority, { works with
      sram := memWriteWords [] [(0x1000, ⟨0x00010000, 15⟩), (0x1004, ⟨0x000200c8, 15⟩)], path.path := .held,
      ring.descriptorRead := some ⟨0, 1, false⟩, bus.queue := [⟨.descriptorRead 0 1, .read 0x1000 .four⟩], radio.mpwr := true,
      radio.mrst := false, radio.state := .attached }, by decide +kernel⟩

theorem test_meets_DescriptorReadEntersWindow_3d : ∃ (first : Count) (a : Addr) (rest : List MasterTransfer) (m : MemoryMap) (e : Entry) (cls :
    FrameClass) (s : State),
    s.bus.queue = ⟨.descriptorRead first 1, .read a .four⟩ :: rest ∧ s.ring.descriptorRead = some ⟨first, 1, false⟩ ∧ s.loader.map = some m ∧
    s.bus.waiting = [] ∧ rest.length ≤ 7 ∧ holdsRings s = true ∧ s.path.phase ≠ some .closing ∧ softResetStands s = false ∧ s.power.mode ≠ .doze
    ∧ e = entryOf first (slice (bytesOf (memReadWords s.sram a 4)) 0 16) ∧ entryCheck s e = none ∧ cls = (if e.cls = 2 then .voicePriority else
    if e.cls = 1 then .voice else .data) ∧ (∀ e ∈ s.ring.window, e.st ≠ .pending) ∧ s.hold.dqV = [] ∧ s.hold.dqD = [] ∧ s.ring.takes.length < 4 ∧
    ((e.length + 255) / 256 + (if cls = .data ∧ s.path.path ≠ .returning then s.loader.policy.voiceReserve else 0) ≤ s.hold.freeList.length) ∧
    (cls = .data → s.path.path ≠ .returning → ∀ r ∈ s.hold.uqD, ageOf s.clock r.time ≤ s.loader.policy.dataHold * 1000) ∧ cls = .voicePriority ∧
    s.path.emergency = false ∧ s.radio.state = .detached :=
  ⟨0, 0x1000, [], map0, ⟨0, .pending, 2, 200, 0x010000, 1, false⟩, .voicePriority, { works with
      sram := memWriteWords [] [(0x1000, ⟨0x00010000, 15⟩), (0x1004, ⟨0x000200c8, 15⟩)], path.path := .held,
      ring.descriptorRead := some ⟨0, 1, false⟩, bus.queue := [⟨.descriptorRead 0 1, .read 0x1000 .four⟩], radio.state := .detached }, by
    decide +kernel⟩

theorem test_meets_DescriptorReadEntersWindow_3e : ∃ (first : Count) (a : Addr) (rest : List MasterTransfer) (m : MemoryMap) (e : Entry) (cls :
    FrameClass) (s : State),
    s.bus.queue = ⟨.descriptorRead first 1, .read a .four⟩ :: rest ∧ s.ring.descriptorRead = some ⟨first, 1, false⟩ ∧ s.loader.map = some m ∧
    s.bus.waiting = [] ∧ rest.length ≤ 7 ∧ holdsRings s = true ∧ s.path.phase ≠ some .closing ∧ softResetStands s = false ∧ s.power.mode ≠ .doze
    ∧ e = entryOf first (slice (bytesOf (memReadWords s.sram a 4)) 0 16) ∧ entryCheck s e = none ∧ cls = (if e.cls = 2 then .voicePriority else
    if e.cls = 1 then .voice else .data) ∧ (∀ e ∈ s.ring.window, e.st ≠ .pending) ∧ s.hold.dqV = [] ∧ s.hold.dqD = [] ∧ s.ring.takes.length < 4 ∧
    ((e.length + 255) / 256 + (if cls = .data ∧ s.path.path ≠ .returning then s.loader.policy.voiceReserve else 0) ≤ s.hold.freeList.length) ∧
    (cls = .data → s.path.path ≠ .returning → ∀ r ∈ s.hold.uqD, ageOf s.clock r.time ≤ s.loader.policy.dataHold * 1000) ∧ cls = .voicePriority ∧
    s.path.emergency = false ∧ s.radio.state = .backoff ∧ s.radio.ready = true :=
  ⟨0, 0x1000, [], map0, ⟨0, .pending, 2, 200, 0x010000, 1, false⟩, .voicePriority, { works with
      sram := memWriteWords [] [(0x1000, ⟨0x00010000, 15⟩), (0x1004, ⟨0x000200c8, 15⟩)], path.path := .held,
      ring.descriptorRead := some ⟨0, 1, false⟩, bus.queue := [⟨.descriptorRead 0 1, .read 0x1000 .four⟩], radio.state := .backoff,
      radio.ready := true }, by decide +kernel⟩

theorem test_meets_DescriptorReadEntersWindow_3f : ∃ (first : Count) (a : Addr) (rest : List MasterTransfer) (m : MemoryMap) (e : Entry) (cls :
    FrameClass) (s : State),
    s.bus.queue = ⟨.descriptorRead first 1, .read a .four⟩ :: rest ∧ s.ring.descriptorRead = some ⟨first, 1, false⟩ ∧ s.loader.map = some m ∧
    s.bus.waiting = [] ∧ rest.length ≤ 7 ∧ holdsRings s = true ∧ s.path.phase ≠ some .closing ∧ softResetStands s = false ∧ s.power.mode ≠ .doze
    ∧ e = entryOf first (slice (bytesOf (memReadWords s.sram a 4)) 0 16) ∧ entryCheck s e = none ∧ cls = (if e.cls = 2 then .voicePriority else
    if e.cls = 1 then .voice else .data) ∧ (∀ e ∈ s.ring.window, e.st ≠ .pending) ∧ s.hold.dqV = [] ∧ s.hold.dqD = [] ∧ s.ring.takes.length < 4 ∧
    ((e.length + 255) / 256 + (if cls = .data ∧ s.path.path ≠ .returning then s.loader.policy.voiceReserve else 0) ≤ s.hold.freeList.length) ∧
    (cls = .data → s.path.path ≠ .returning → ∀ r ∈ s.hold.uqD, ageOf s.clock r.time ≤ s.loader.policy.dataHold * 1000) ∧ cls = .voicePriority ∧
    s.path.emergency = false ∧ s.radio.state = .backoff ∧ s.radio.ready = false :=
  ⟨0, 0x1000, [], map0, ⟨0, .pending, 2, 200, 0x010000, 1, false⟩, .voicePriority, { works with
      sram := memWriteWords [] [(0x1000, ⟨0x00010000, 15⟩), (0x1004, ⟨0x000200c8, 15⟩)], path.path := .held,
      ring.descriptorRead := some ⟨0, 1, false⟩, bus.queue := [⟨.descriptorRead 0 1, .read 0x1000 .four⟩], radio.state := .backoff,
      radio.cycleTimer := some 7 }, by decide +kernel⟩

theorem test_meets_DescriptorReadEntersWindow_3g : ∃ (first : Count) (a : Addr) (rest : List MasterTransfer) (m : MemoryMap) (e : Entry) (cls :
    FrameClass) (s : State),
    s.bus.queue = ⟨.descriptorRead first 1, .read a .four⟩ :: rest ∧ s.ring.descriptorRead = some ⟨first, 1, false⟩ ∧ s.loader.map = some m ∧
    s.bus.waiting = [] ∧ rest.length ≤ 7 ∧ holdsRings s = true ∧ s.path.phase ≠ some .closing ∧ softResetStands s = false ∧ s.power.mode ≠ .doze
    ∧ e = entryOf first (slice (bytesOf (memReadWords s.sram a 4)) 0 16) ∧ entryCheck s e = none ∧ cls = (if e.cls = 2 then .voicePriority else
    if e.cls = 1 then .voice else .data) ∧ (∀ e ∈ s.ring.window, e.st ≠ .pending) ∧ s.hold.dqV = [] ∧ s.hold.dqD = [] ∧ s.ring.takes.length < 4 ∧
    ((e.length + 255) / 256 + (if cls = .data ∧ s.path.path ≠ .returning then s.loader.policy.voiceReserve else 0) ≤ s.hold.freeList.length) ∧
    (cls = .data → s.path.path ≠ .returning → ∀ r ∈ s.hold.uqD, ageOf s.clock r.time ≤ s.loader.policy.dataHold * 1000) ∧ cls = .voicePriority ∧
    s.path.emergency = false ∧ s.radio.state = .off ∧ partWorks s = true :=
  ⟨0, 0x1000, [], map0, ⟨0, .pending, 2, 200, 0x010000, 1, false⟩, .voicePriority, { works with
      sram := memWriteWords [] [(0x1000, ⟨0x00010000, 15⟩), (0x1004, ⟨0x000200c8, 15⟩)], path.path := .held,
      ring.descriptorRead := some ⟨0, 1, false⟩, bus.queue := [⟨.descriptorRead 0 1, .read 0x1000 .four⟩] }, by decide +kernel⟩

theorem test_meets_DescriptorReadEntersWindow_3h : ∃ (first : Count) (a : Addr) (rest : List MasterTransfer) (m : MemoryMap) (e : Entry) (cls :
    FrameClass) (s : State),
    s.bus.queue = ⟨.descriptorRead first 1, .read a .four⟩ :: rest ∧ s.ring.descriptorRead = some ⟨first, 1, false⟩ ∧ s.loader.map = some m ∧
    s.bus.waiting = [] ∧ rest.length ≤ 7 ∧ holdsRings s = true ∧ s.path.phase ≠ some .closing ∧ softResetStands s = false ∧ s.power.mode ≠ .doze
    ∧ e = entryOf first (slice (bytesOf (memReadWords s.sram a 4)) 0 16) ∧ entryCheck s e = none ∧ cls = (if e.cls = 2 then .voicePriority else
    if e.cls = 1 then .voice else .data) ∧ (∀ e ∈ s.ring.window, e.st ≠ .pending) ∧ s.hold.dqV = [] ∧ s.hold.dqD = [] ∧ s.ring.takes.length < 4 ∧
    ((e.length + 255) / 256 + (if cls = .data ∧ s.path.path ≠ .returning then s.loader.policy.voiceReserve else 0) ≤ s.hold.freeList.length) ∧
    (cls = .data → s.path.path ≠ .returning → ∀ r ∈ s.hold.uqD, ageOf s.clock r.time ≤ s.loader.policy.dataHold * 1000) ∧ cls = .voicePriority ∧
    s.path.emergency = false ∧ s.radio.state = .starting :=
  ⟨0, 0x1000, [], map0, ⟨0, .pending, 2, 200, 0x010000, 1, false⟩, .voicePriority, { works with
      sram := memWriteWords [] [(0x1000, ⟨0x00010000, 15⟩), (0x1004, ⟨0x000200c8, 15⟩)], path.path := .held,
      ring.descriptorRead := some ⟨0, 1, false⟩, bus.queue := [⟨.descriptorRead 0 1, .read 0x1000 .four⟩], radio.state := .starting }, by
    decide +kernel⟩

theorem test_meets_DescriptorReadEntersWindow_4a : ∃ (first : Count) (a : Addr) (rest : List MasterTransfer) (m : MemoryMap) (e : Entry) (cls :
    FrameClass) (s : State),
    s.bus.queue = ⟨.descriptorRead first 1, .read a .four⟩ :: rest ∧ s.ring.descriptorRead = some ⟨first, 1, false⟩ ∧ s.loader.map = some m ∧
    s.bus.waiting = [] ∧ rest.length ≤ 7 ∧ holdsRings s = true ∧ s.path.phase ≠ some .closing ∧ softResetStands s = false ∧ s.power.mode ≠ .doze
    ∧ e = entryOf first (slice (bytesOf (memReadWords s.sram a 4)) 0 16) ∧ entryCheck s e = none ∧ cls = (if e.cls = 2 then .voicePriority else
    if e.cls = 1 then .voice else .data) ∧ (∀ e ∈ s.ring.window, e.st ≠ .pending) ∧ s.hold.dqV = [] ∧ s.hold.dqD = [] ∧ (4 ≤ s.ring.takes.length
    ∨ s.hold.freeList.length < (e.length + 255) / 256 + (if cls = .data ∧ s.path.path ≠ .returning then s.loader.policy.voiceReserve else 0) ∨
    (cls = .data ∧ s.path.path ≠ .returning ∧ ∃ r ∈ s.hold.uqD, s.loader.policy.dataHold * 1000 < ageOf s.clock r.time)) ∧ 4 ≤
    s.ring.takes.length :=
  ⟨0, 0x1000, [], map0, ⟨0, .pending, 2, 200, 0x010000, 1, false⟩, .voicePriority, { works with
      sram := memWriteWords [] [(0x1000, ⟨0x00010000, 15⟩), (0x1004, ⟨0x000200c8, 15⟩)], path.path := .held,
      ring.descriptorRead := some ⟨0, 1, false⟩, bus.queue := [⟨.descriptorRead 0 1, .read 0x1000 .four⟩],
      ring.takes := List.replicate 4 ⟨9, ⟨.voice, .uplink, 60, [0], 0, 0, none⟩, 0, 0⟩ }, by decide +kernel⟩

theorem test_meets_DescriptorReadEntersWindow_4b : ∃ (first : Count) (a : Addr) (rest : List MasterTransfer) (m : MemoryMap) (e : Entry) (cls :
    FrameClass) (s : State),
    s.bus.queue = ⟨.descriptorRead first 1, .read a .four⟩ :: rest ∧ s.ring.descriptorRead = some ⟨first, 1, false⟩ ∧ s.loader.map = some m ∧
    s.bus.waiting = [] ∧ rest.length ≤ 7 ∧ holdsRings s = true ∧ s.path.phase ≠ some .closing ∧ softResetStands s = false ∧ s.power.mode ≠ .doze
    ∧ e = entryOf first (slice (bytesOf (memReadWords s.sram a 4)) 0 16) ∧ entryCheck s e = none ∧ cls = (if e.cls = 2 then .voicePriority else
    if e.cls = 1 then .voice else .data) ∧ (∀ e ∈ s.ring.window, e.st ≠ .pending) ∧ s.hold.dqV = [] ∧ s.hold.dqD = [] ∧ (4 ≤ s.ring.takes.length
    ∨ s.hold.freeList.length < (e.length + 255) / 256 + (if cls = .data ∧ s.path.path ≠ .returning then s.loader.policy.voiceReserve else 0) ∨
    (cls = .data ∧ s.path.path ≠ .returning ∧ ∃ r ∈ s.hold.uqD, s.loader.policy.dataHold * 1000 < ageOf s.clock r.time)) ∧ s.hold.freeList.length
    + 1 = (e.length + 255) / 256 + s.loader.policy.voiceReserve :=
  ⟨0, 0x1000, [], map0, ⟨0, .pending, 0, 300, 0x010000, 2, false⟩, .data, { works with
      sram := memWriteWords [] [(0x1000, ⟨0x00010000, 15⟩), (0x1004, ⟨0x0000012c, 15⟩)], path.path := .held,
      ring.descriptorRead := some ⟨0, 1, false⟩, bus.queue := [⟨.descriptorRead 0 1, .read 0x1000 .four⟩], hold.freeList := List.range 25 }, by
    decide +kernel⟩

theorem test_meets_DescriptorReadEntersWindow_4c : ∃ (first : Count) (a : Addr) (rest : List MasterTransfer) (m : MemoryMap) (e : Entry) (cls :
    FrameClass) (s : State),
    s.bus.queue = ⟨.descriptorRead first 1, .read a .four⟩ :: rest ∧ s.ring.descriptorRead = some ⟨first, 1, false⟩ ∧ s.loader.map = some m ∧
    s.bus.waiting = [] ∧ rest.length ≤ 7 ∧ holdsRings s = true ∧ s.path.phase ≠ some .closing ∧ softResetStands s = false ∧ s.power.mode ≠ .doze
    ∧ e = entryOf first (slice (bytesOf (memReadWords s.sram a 4)) 0 16) ∧ entryCheck s e = none ∧ cls = (if e.cls = 2 then .voicePriority else
    if e.cls = 1 then .voice else .data) ∧ (∀ e ∈ s.ring.window, e.st ≠ .pending) ∧ s.hold.dqV = [] ∧ s.hold.dqD = [] ∧ (4 ≤ s.ring.takes.length
    ∨ s.hold.freeList.length < (e.length + 255) / 256 + (if cls = .data ∧ s.path.path ≠ .returning then s.loader.policy.voiceReserve else 0) ∨
    (cls = .data ∧ s.path.path ≠ .returning ∧ ∃ r ∈ s.hold.uqD, s.loader.policy.dataHold * 1000 < ageOf s.clock r.time)) ∧ s.hold.uqD.all (fun r
    => decide (ageOf s.clock r.time = s.loader.policy.dataHold * 1000 + 1)) = true :=
  ⟨0, 0x1000, [], map0, ⟨0, .pending, 0, 300, 0x010000, 2, false⟩, .data, { works with
      sram := memWriteWords [] [(0x1000, ⟨0x00010000, 15⟩), (0x1004, ⟨0x0000012c, 15⟩)], path.path := .held,
      ring.descriptorRead := some ⟨0, 1, false⟩, bus.queue := [⟨.descriptorRead 0 1, .read 0x1000 .four⟩], clock := 15001,
      loader.policy.dataHold := 15, hold.uqD := [⟨.data, .uplink, 60, [7], 0, 0, none⟩] }, by decide +kernel⟩

theorem test_meets_DescriptorReadEntersWindow_5 : ∃ (x : FrameRecord) (e : Entry) (cls : FrameClass) (s : State),
    (∀ q live r, s.radio.ldo ≠ some (.sendUp q live r)) ∧ s.hold.sweep1s.isSome = true ∧ s.bus.waiting = [] ∧ holdsRings s = true ∧ s.path.phase
    ≠ some .closing ∧ softResetStands s = false ∧ s.power.mode ≠ .doze ∧ s.ring.window = [e] ∧ e.st = .pending ∧ e.completing = false ∧
    e.cls.toNat ≤ 2 ∧ e.cellsNeed = (e.length + 255) / 256 ∧ cls = (if e.cls = 2 then .voicePriority else if e.cls = 1 then .voice else .data) ∧
    s.ring.takes.length < 4 ∧ s.hold.uqD = [] ∧ s.hold.dqV = [] ∧ s.hold.dqD = [x] ∧ s.loader.policy.downlinkHold * 100 < ageOf s.clock x.time ∧
    (s.hold.freeList.length < (e.length + 255) / 256 + (if cls = .data ∧ s.path.path ≠ .returning then s.loader.policy.voiceReserve else 0)) ∧
    ((e.length + 255) / 256 + (if cls = .data ∧ s.path.path ≠ .returning then s.loader.policy.voiceReserve else 0) ≤ s.hold.freeList.length +
    x.cells.length) :=
  ⟨⟨.data, .downlink, 60, [7], 0, 0, none⟩, ⟨0, .pending, 1, 300, 0x010000, 2, false⟩, .voice, { works with
      path.path := .held, clock := 6001, loader.policy.downlinkHold := 1, hold.sweep1s := some 0, hold.freeList := List.range 1,
      ring.window := [⟨0, .pending, 1, 300, 0x010000, 2, false⟩], hold.dqD := [⟨.data, .downlink, 60, [7], 0, 0, none⟩] }, fun _ _ _ => nofun, by
    decide +kernel⟩

theorem test_meets_DescriptorReadEntersWindow_6 : ∃ (x : FrameRecord) (e : Entry) (slot : Slot) (live : Bool) (s : State),
    s.hold.sweep1s.isSome = true ∧ s.bus.waiting = [] ∧ holdsRings s = true ∧ s.path.path ≠ .returning ∧ softResetStands s = false ∧ s.path.phase
    ≠ some .closing ∧ s.power.mode ≠ .doze ∧ s.ring.window = [e] ∧ e.st = .pending ∧ e.completing = false ∧ e.cls = 0 ∧ e.cellsNeed = (e.length +
    255) / 256 ∧ s.ring.takes.length < 4 ∧ s.hold.uqD = [x] ∧ s.hold.dqV = [] ∧ s.hold.dqD = [] ∧ s.loader.policy.dataHold * 1000 < ageOf s.clock
    x.time ∧ s.radio.ldo = some (.sendUp slot live (some x)) ∧ (e.length + 255) / 256 + s.loader.policy.voiceReserve ≤ s.hold.freeList.length ∧
    s.hold.freeList.length = (e.length + 255) / 256 + s.loader.policy.voiceReserve :=
  ⟨⟨.data, .uplink, 60, [7], 0, 0, none⟩, ⟨0, .pending, 0, 300, 0x010000, 2, false⟩, .a, true, { powered with
      radio.state := .attached, path.path := .held, clock := 15001, loader.policy.dataHold := 15, hold.sweep1s := some 0,
      ring.window := [⟨0, .pending, 0, 300, 0x010000, 2, false⟩], hold.uqD := [⟨.data, .uplink, 60, [7], 0, 0, none⟩],
      radio.ldo := some (.sendUp .a true (some ⟨.data, .uplink, 60, [7], 0, 0, none⟩)), hold.freeList := List.range 26 }, by decide +kernel⟩

theorem test_meets_PriorityScanTakesOver_1a : ∃ (pos : Count) (a : Addr) (len : BurstLen) (rest : List MasterTransfer) (s : State),
    s.bus.queue = ⟨.scanRead pos, .read a len⟩ :: rest ∧ s.ring.scanRead = some ⟨pos, false⟩ ∧ s.path.path = .fibre ∧ s.health.verdict =
    .unhealthy ∧ s.loader.policy.pathOverride = .fibreOnly ∧ s.radio.state ≠ .attached ∧ s.radio.state ≠ .backoff ∧ s.bus.waiting = [] ∧
    s.events.entries.length = 11 ∧ wordByte (memWord s.sram (a.toNat / 4 * 4)) 2 = 2 :=
  ⟨0, 0x1004, .one, [], { works with
      sram := [⟨0x1006, 2⟩], health.verdict := .unhealthy, loader.policy.pathOverride := .fibreOnly, ring.scanRunning := true,
      ring.scanMark := some 0, ring.scanRead := some ⟨0, false⟩, bus.queue := [⟨.scanRead 0, .read 0x1004 .one⟩] }, by decide +kernel⟩

theorem test_meets_PriorityScanTakesOver_1b : ∃ (pos : Count) (a : Addr) (len : BurstLen) (rest : List MasterTransfer) (s : State),
    s.bus.queue = ⟨.scanRead pos, .read a len⟩ :: rest ∧ s.ring.scanRead = some ⟨pos, false⟩ ∧ s.path.path = .fibre ∧ s.health.verdict =
    .unhealthy ∧ s.loader.policy.pathOverride = .fibreOnly ∧ s.radio.state ≠ .attached ∧ s.radio.state ≠ .backoff ∧ s.bus.waiting = [] ∧
    s.events.entries.length = 11 ∧ wordByte (memWord s.sram (a.toNat / 4 * 4)) 2 ≠ 2 ∧ s.ring.scanMark = some pos ∧ s.ring.scanRunning = true ∧
    scanWanted s = true :=
  ⟨0, 0x1004, .one, [], { works with
      sram := [⟨0x1006, 1⟩], health.verdict := .unhealthy, loader.policy.pathOverride := .fibreOnly, ring.scanRunning := true,
      ring.scanMark := some 0, ring.scanRead := some ⟨0, false⟩, bus.queue := [⟨.scanRead 0, .read 0x1004 .one⟩] }, by decide +kernel⟩

theorem test_meets_PriorityScanTakesOver_2 : ∃ (q : Requester) (a : Addr) (l : LaneWord) (m : MemoryMap) (v : Word) (c : Count) (k : Count) (s :
    State),
    s.loader.map = some m ∧ watchedApart m ∧ onWatched m .txc a ∧ masterTurn s = false ∧ inTxRing m (watchedAddr m .txc) = false ∧ (q ≠ .u ∨
    (s.bus.txGuard = false ∧ s.bus.rxGuard = false)) ∧ scanWanted s = true ∧ s.ring.scanRunning = true ∧ s.ring.scanMark = some k ∧
    s.ring.scanRead = some ⟨k, false⟩ ∧ s.bus.waiting = [.scanRead k] ∧ s.bus.queue.length = 8 ∧ s.power.mode ≠ .doze ∧ s.bus.shadows.txc = some
    v ∧ c = countOf (mergeLanes v l) ∧ c ≠ countOf v ∧ 32768 ≤ dist c k ∧ dist c k = 65535 :=
  ⟨.u, 0x8004, ⟨3, 15⟩, map0, 0, 3, 2, { works with
      health.verdict := .unhealthy, loader.policy.pathOverride := .fibreOnly, bus.shadows.txp := some 9, ring.scanRunning := true,
      ring.scanMark := some 2, ring.scanRead := some ⟨2, false⟩, bus.queue := List.replicate 8 ⟨.evpWrite, .write 0x5014 [⟨0, 15⟩]⟩,
      bus.waiting := [.scanRead 2] }, by decide +kernel⟩

theorem test_meets_TakeEndHandsFrameToHold_1 : ∃ (pos : Count) (a : Addr) (rest : List MasterTransfer) (m : MemoryMap) (tk : Take) (s : State),
    takeAt s pos = some tk ∧ s.bus.queue = ⟨.frameRead pos, .read a (takeBurst tk)⟩ :: rest ∧ lastFrameRead s pos = true ∧ rest.length ≤ 7 ∧
    s.bus.waiting = [] ∧ s.loader.map = some m ∧ s.power.mode ≠ .doze ∧ s.loader.softReset = .none ∧ s.path.phase ≠ some .closing ∧ s.radio.state
    ≠ .attached ∧ (∀ e ∈ s.ring.window, e.st ≠ .pending) ∧ tk.record.direction = .uplink :=
  ⟨0, 0x010000, [], map0, ⟨0, ⟨.voice, .uplink, 5, [7], 0, 0, some 0⟩, 0x010001, 0⟩, { works with
      path.path := .held, ring.takes := [⟨0, ⟨.voice, .uplink, 5, [7], 0, 0, some 0⟩, 0x010001, 0⟩],
      bus.queue := [⟨.frameRead 0, .read 0x010000 .two⟩] }, by decide +kernel⟩

theorem test_meets_TakeEndHandsFrameToHold_2 : ∃ (pos : Count) (a : Addr) (rest : List MasterTransfer) (tk : Take) (ds : List Entry) (tl : List
    Entry) (e : Entry) (m : MemoryMap) (b : Count) (s : State),
    takeAt s pos = some tk ∧ s.bus.queue = ⟨.frameRead pos, .read a (takeBurst tk)⟩ :: rest ∧ lastFrameRead s pos = true ∧ rest.length ≤ 6 ∧
    s.bus.waiting = [] ∧ s.loader.map = some m ∧ s.power.mode ≠ .doze ∧ s.loader.softReset = .none ∧ s.path.phase ≠ some .closing ∧ s.radio.state
    ≠ .attached ∧ s.path.txReleased = true ∧ (∀ e ∈ s.ring.window, e.st ≠ .pending) ∧ s.ring.base = some b ∧ s.ring.window = e :: (ds ++ tl) ∧
    e.pos = pos ∧ e.st = .taking ∧ (∀ d ∈ ds, d.st = .done) ∧ (∀ d ∈ tl.head?, d.st = .taking ∧ d.pos ≠ pos) :=
  ⟨0, 0x010000, [], ⟨0, ⟨.voice, .uplink, 5, [7], 0, 0, some 0⟩, 0x010001, 0⟩, [⟨1, .done, 0, 60, 0, 1, false⟩], [⟨2, .taking, 0, 60, 0, 1,
    false⟩], ⟨0, .taking, 1, 5, 0x010001, 1, false⟩, map0, 0, { works with
      path.path := .held, ring.takes := [⟨0, ⟨.voice, .uplink, 5, [7], 0, 0, some 0⟩, 0x010001, 0⟩],
      bus.queue := [⟨.frameRead 0, .read 0x010000 .two⟩], ring.base := some 0,
      ring.window := [⟨0, .taking, 1, 5, 0x010001, 1, false⟩, ⟨1, .done, 0, 60, 0, 1, false⟩, ⟨2, .taking, 0, 60, 0, 1, false⟩] }, by
    decide +kernel⟩

theorem test_meets_TakeEndHandsFrameToHold_3a : ∃ (pos : Count) (a : Addr) (rest : List MasterTransfer) (tk : Take) (len : BurstLen) (c : Instr)
    (s : State),
    (c = .masterTransferCarried ∨ (c = .takeEnd ∧ lastFrameRead s pos = true)) ∧ takeAt s pos = some tk ∧ s.bus.queue = ⟨.frameRead pos, .read a
    len⟩ :: rest ∧ a = wordAt tk.addr tk.wordsRead ∧ tk.record.cells.Nodup ∧ tk.record.cells.length = (tk.record.length + 255) / 256 ∧ Memory.wf
    s.hold.cells = true ∧ c = .takeEnd :=
  ⟨0, 0x010000, [], ⟨0, ⟨.voice, .uplink, 5, [7], 0, 0, some 0⟩, 0x010001, 0⟩, .two, .takeEnd, { works with
      path.path := .held, ring.takes := [⟨0, ⟨.voice, .uplink, 5, [7], 0, 0, some 0⟩, 0x010001, 0⟩],
      bus.queue := [⟨.frameRead 0, .read 0x010000 .two⟩] }, by decide +kernel⟩

theorem test_meets_TakeEndHandsFrameToHold_3b : ∃ (pos : Count) (a : Addr) (rest : List MasterTransfer) (tk : Take) (len : BurstLen) (c : Instr)
    (s : State),
    (c = .masterTransferCarried ∨ (c = .takeEnd ∧ lastFrameRead s pos = true)) ∧ takeAt s pos = some tk ∧ s.bus.queue = ⟨.frameRead pos, .read a
    len⟩ :: rest ∧ a = wordAt tk.addr tk.wordsRead ∧ tk.record.cells.Nodup ∧ tk.record.cells.length = (tk.record.length + 255) / 256 ∧ Memory.wf
    s.hold.cells = true ∧ c = .masterTransferCarried :=
  ⟨0, 0x010000, [], ⟨0, ⟨.data, .uplink, 70, [7], 0, 0, some 0⟩, 0x010001, 0⟩, .sixteen, .masterTransferCarried, { works with
      path.path := .held, ring.takes := [⟨0, ⟨.data, .uplink, 70, [7], 0, 0, some 0⟩, 0x010001, 0⟩],
      bus.queue := [⟨.frameRead 0, .read 0x010000 .sixteen⟩] }, by decide +kernel⟩

theorem test_meets_ReleaseTimerForcesRelease_1 : ∃ (m : MemoryMap) (h : Count) (c : Word) (s : State),
    s.loader.map = some m ∧ holdsRings s = true ∧ s.path.releaseTimer.isSome = true ∧ s.power.mode ≠ .doze ∧ s.path.txReleased = false ∧
    s.ring.txForcing = false ∧ s.path.rxReleased = true ∧ s.bus.fixedH = some h ∧ s.bus.shadows.txc = some c ∧ countOf c ≠ h ∧ dist (countOf c) h
    ≤ txSize s ∧ dist (countOf c) h ≤ 7 ∧ s.bus.queue = [] ∧ s.bus.waiting = [] ∧ dist (countOf c) h = 7 :=
  ⟨map0, 9, 2, { works with
      path.path := .takeover, path.releaseTimer := some 0, path.txReleased := false, bus.fixedH := some 9, bus.shadows.txc := some 2 }, by
    decide +kernel⟩

theorem test_meets_ReleaseTimerForcesRelease_2 : ∃ (m : MemoryMap) (g : Count) (c : Word) (s : State),
    s.loader.map = some m ∧ holdsRings s = true ∧ s.path.releaseTimer.isSome = true ∧ s.power.mode ≠ .doze ∧ s.path.rxReleased = false ∧
    s.ring.rxForcing = false ∧ s.path.txReleased = true ∧ s.bus.fixedG = some g ∧ s.bus.shadows.rxf = some c ∧ countOf c ≠ g ∧ dist (countOf c) g
    ≤ rxSize s ∧ dist (countOf c) g ≤ 7 ∧ s.bus.queue = [] ∧ s.bus.waiting = [] ∧ dist (countOf c) g = 1 :=
  ⟨map0, 0, 0xffff, { works with
      path.path := .takeover, path.releaseTimer := some 0, path.rxReleased := false, bus.fixedG := some 0, bus.shadows.rxf := some 0xffff }, by
    decide +kernel⟩

theorem test_meets_ReleaseTimerForcesRelease_3 : ∃ (s : State),
    s.power.mode = .doze ∧ s.path.releaseTimer.isSome = true :=
  ⟨{ dozing with path.path := .radio, path.releaseTimer := some 0 }, by decide +kernel⟩

theorem test_meets_ReleaseTimerForcesRelease_4a : ∃ (m : MemoryMap) (h : Count) (g : Count) (c : Word) (d : Word) (s : State),
    s.loader.map = some m ∧ holdsRings s = true ∧ s.path.releaseTimer.isSome = true ∧ s.power.mode ≠ .doze ∧ s.bus.waiting = [] ∧ s.bus.fixedH =
    some h ∧ s.bus.fixedG = some g ∧ s.bus.shadows.txc = some c ∧ s.bus.shadows.rxf = some d ∧ (s.path.txReleased = false → s.ring.txForcing =
    false ∧ countOf c ≠ h) ∧ (s.path.rxReleased = false → s.ring.rxForcing = false ∧ countOf d ≠ g) ∧ s.path.txReleased = false ∧
    s.path.rxReleased = false ∧ txSize s < dist (countOf c) h ∧ 7 < dist (countOf d) g ∧ dist (countOf d) g ≤ rxSize s :=
  ⟨map0, 40, 12, 2, 3, { works with
      path.path := .takeover, path.releaseTimer := some 0, path.txReleased := false, bus.fixedH := some 40, bus.shadows.txc := some 2,
      path.rxReleased := false, bus.fixedG := some 12, bus.shadows.rxf := some 3 }, by decide +kernel⟩

theorem test_meets_ReleaseTimerForcesRelease_4b : ∃ (m : MemoryMap) (h : Count) (g : Count) (c : Word) (d : Word) (s : State),
    s.loader.map = some m ∧ holdsRings s = true ∧ s.path.releaseTimer.isSome = true ∧ s.power.mode ≠ .doze ∧ s.bus.waiting = [] ∧ s.bus.fixedH =
    some h ∧ s.bus.fixedG = some g ∧ s.bus.shadows.txc = some c ∧ s.bus.shadows.rxf = some d ∧ (s.path.txReleased = false → s.ring.txForcing =
    false ∧ countOf c ≠ h) ∧ (s.path.rxReleased = false → s.ring.rxForcing = false ∧ countOf d ≠ g) ∧ s.path.rxReleased = true :=
  ⟨map0, 40, 12, 2, 3, { works with
      path.path := .takeover, path.releaseTimer := some 0, path.txReleased := false, bus.fixedH := some 40, bus.shadows.txc := some 2,
      bus.fixedG := some 12, bus.shadows.rxf := some 3 }, by decide +kernel⟩

theorem test_meets_ReturnBeginsOnItsOccasions_1a : ∃ (s : State),
    dwellRuns s = true ∧ s.power.mode ≠ .doze ∧ s.loader.softReset = .none ∧ s.events.entries.length = 11 ∧ s.bus.waiting = [] ∧ s.pins.offhook =
    true :=
  ⟨{ works with path.path := .held, path.dwell := .running 0, pins.offhook := true }, by decide +kernel⟩

theorem test_meets_ReturnBeginsOnItsOccasions_1b : ∃ (s : State),
    dwellRuns s = true ∧ s.power.mode ≠ .doze ∧ s.loader.softReset = .none ∧ s.events.entries.length = 11 ∧ s.bus.waiting = [] ∧ s.pins.offhook =
    false ∧ s.loader.policy.pathOverride = .automatic ∧ s.path.path = .held :=
  ⟨{ works with path.path := .held, path.dwell := .running 0 }, by decide +kernel⟩

theorem test_meets_ReturnBeginsOnItsOccasions_3a : ∃ (s : State),
    s.pins.offhook = true ∧ s.power.mode ≠ .doze ∧ s.loader.softReset = .none ∧ s.events.entries.length = 11 ∧ s.bus.waiting = [] ∧ (s.path.path
    = .takeover ∨ s.path.path = .radio ∨ s.path.path = .held) ∧ s.loader.policy.pathOverride = .automatic ∧ s.path.dwell = .met :=
  ⟨{ works with path.path := .radio, path.dwell := .met, pins.offhook := true }, by decide +kernel⟩

theorem test_meets_ReturnBeginsOnItsOccasions_3b : ∃ (s : State),
    s.pins.offhook = true ∧ s.power.mode ≠ .doze ∧ s.loader.softReset = .none ∧ s.events.entries.length = 11 ∧ s.bus.waiting = [] ∧ (s.path.path
    = .takeover ∨ s.path.path = .radio ∨ s.path.path = .held) ∧ s.loader.policy.pathOverride = .automatic ∧ s.path.dwell ≠ .met :=
  ⟨{ works with path.path := .takeover, pins.offhook := true }, by decide +kernel⟩

theorem test_meets_ReturnBeginsOnItsOccasions_4a : ∃ (s : State),
    s.path.priorityTimer.isSome = true ∧ s.power.mode ≠ .doze ∧ s.loader.softReset = .none ∧ s.events.entries.length = 11 ∧ ringIdle s ∧
    s.pins.offhook = false ∧ s.loader.policy.pathOverride = .fibreOnly :=
  ⟨{ works with path.path := .takeover, path.priorityTimer := some 0, loader.policy.pathOverride := .fibreOnly }, by decide +kernel⟩

theorem test_meets_ReturnBeginsOnItsOccasions_4b : ∃ (s : State),
    s.path.priorityTimer.isSome = true ∧ s.power.mode ≠ .doze ∧ s.loader.softReset = .none ∧ s.events.entries.length = 11 ∧ ringIdle s ∧
    s.pins.offhook = true :=
  ⟨{ works with path.path := .radio, path.priorityTimer := some 0, pins.offhook := true }, by decide +kernel⟩

theorem test_meets_DrainCompleteBeginsHandBack_1 : ∃ (m : MemoryMap) (f : Count) (s : State),
    s.path.path = .returning ∧ s.path.phase = some .draining ∧ s.loader.softReset ≠ .waiting ∧ s.loader.softReset ≠ .completing ∧ s.hold.uqE = [] ∧
    s.hold.uqV = [] ∧ s.hold.uqD = [] ∧ s.radio.slotA = none ∧ s.radio.slotB = none ∧ s.hold.dqV = [] ∧ s.hold.dqD = [] ∧ s.ring.delivery = none ∧
    s.ring.fence = some f ∧ s.ring.partTxc = some f ∧ s.path.txReleased = true ∧ s.path.rxReleased = true ∧ s.ring.partRxf = s.ring.fillCursor ∧
    s.ring.takes = [] ∧ s.ring.handBackAsked = false ∧ s.loader.map = some m ∧ s.power.mode ≠ .doze ∧ s.bus.queue.length ≤ 7 ∧ s.bus.waiting = [] ∧
    s.bus.queue.length = 7 :=
  ⟨map0, 3, { draining0 with
      ring.fence := some 3, ring.partTxc := some 3, bus.queue := List.replicate 7 ⟨.evpWrite, .write 0x5014 [⟨0, 15⟩]⟩ }, by decide +kernel⟩

theorem test_meets_DrainCompleteBeginsHandBack_2a : ∃ (f : Count) (s : State),
    draining s = true ∧ s.ring.fence = some f ∧ s.ring.partTxc = some (f - 1) ∧ s.ring.partTxc ≠ s.ring.fence :=
  ⟨3, { draining0 with ring.fence := some 3, ring.partTxc := some 2 }, by decide +kernel⟩

theorem test_meets_DrainCompleteBeginsHandBack_2b : ∃ (s : State),
    draining s = true ∧ s.ring.partTxc = s.ring.fence ∧ s.ring.partRxf ≠ s.ring.fillCursor :=
  ⟨{ draining0 with ring.fence := some 3, ring.partTxc := some 3, path.rxReleased := true, ring.partRxf := some 1, ring.fillCursor := some 2 },
    by decide +kernel⟩

theorem test_meets_DrainCompleteBeginsHandBack_2c : ∃ (s : State),
    draining s = true ∧ s.ring.partTxc = s.ring.fence ∧ s.ring.partRxf = s.ring.fillCursor ∧ s.radio.slotB ≠ none :=
  ⟨{ draining0 with
      ring.fence := some 3, ring.partTxc := some 3, radio.slotB := some ⟨⟨.voice, .uplink, 60, [3], 0, 0, none⟩, true, some 500⟩ }, by
    decide +kernel⟩

theorem test_meets_DrainCompleteBeginsHandBack_3a : ∃ (b : Count) (f : Count) (s : State),
    draining s = true ∧ s.ring.base = some b ∧ s.ring.partTxc = s.ring.base ∧ s.ring.fence = some f ∧
    ((∃ e ∈ s.ring.window, dist b e.pos < dist b f) ∨ (∃ k ∈ s.ring.takes, dist b k.pos < dist b f)) ∧
    (s.ring.window.all fun e => e.st == .pending) = true :=
  ⟨65535, 0, { draining0 with
      ring.base := some 65535, ring.partTxc := some 65535, ring.fence := some 0,
      ring.window := [⟨65535, .pending, 1, 60, 0, 1, false⟩] }, by decide +kernel⟩

theorem test_meets_DrainCompleteBeginsHandBack_3b : ∃ (b : Count) (f : Count) (s : State),
    draining s = true ∧ s.ring.base = some b ∧ s.ring.partTxc = s.ring.base ∧ s.ring.fence = some f ∧
    ((∃ e ∈ s.ring.window, dist b e.pos < dist b f) ∨ (∃ k ∈ s.ring.takes, dist b k.pos < dist b f)) ∧ s.ring.window = [] :=
  ⟨4, 5, { draining0 with
      ring.base := some 4, ring.partTxc := some 4, ring.fence := some 5,
      ring.takes := [⟨4, ⟨.voice, .uplink, 5, [7], 0, 0, some 4⟩, 0x010001, 0⟩] }, by decide +kernel⟩

theorem test_meets_DrainCompleteBeginsHandBack_4a : ∃ (s : State),
    drainDone s = true ∧ s.path.path = .returning ∧ s.path.phase ≠ some .draining :=
  ⟨{ draining0 with path.phase := some .closing, ring.fence := some 3, ring.partTxc := some 3 }, by decide +kernel⟩

theorem test_meets_DrainCompleteBeginsHandBack_4b : ∃ (s : State),
    drainDone s = true ∧ s.path.phase = some .draining ∧ s.loader.softReset = .waiting :=
  ⟨{ draining0 with loader.softReset := .waiting, ring.fence := some 3, ring.partTxc := some 3 }, by decide +kernel⟩

theorem test_meets_DiscardsEmptyHold_1 : ∃ (s : State),
    draining s = true ∧ s.path.drainTimer.isSome = true ∧ s.bus.waiting = [] ∧ s.events.counters.length = 10 ∧ (∀ r ∈ s.hold.uqE ++ s.hold.uqV ++
    s.hold.uqD ++ slotRecords s, r.direction = .uplink) ∧ (∀ r ∈ s.hold.dqV ++ s.hold.dqD, r.direction = .downlink) ∧ (counterOf s
    .discardedAtReturn).value + (s.hold.uqE ++ s.hold.uqV ++ s.hold.uqD ++ slotRecords s).length = 65535 :=
  ⟨{ draining0 with
      path.drainTimer := some 0, hold.uqE := [⟨.voicePriority, .uplink, 60, [0], 0, 0, none⟩],
      hold.uqD := [⟨.data, .uplink, 60, [1], 0, 0, none⟩], hold.dqD := [⟨.data, .downlink, 60, [2], 0, 0, none⟩],
      radio.slotA := some ⟨⟨.voice, .uplink, 60, [3], 0, 0, none⟩, true, some 500⟩, hold.freeList := (List.range 256).drop 4,
      events.counters := List.replicate 10 ⟨65532, false⟩ }, by decide +kernel⟩

theorem test_meets_DiscardsEmptyHold_2 : ∃ (s : State),
    s.loader.softReset = .waiting ∧ s.bus.waiting = [] ∧ s.events.counters.length = 10 ∧ (∀ r ∈ s.hold.uqE ++ s.hold.uqV ++ s.hold.uqD ++
    slotRecords s, r.direction = .uplink) ∧ (∀ r ∈ s.hold.dqV ++ s.hold.dqD, r.direction = .downlink) ∧ (counterOf s .discardedAtReturn).value +
    (s.hold.uqE ++ s.hold.uqV ++ s.hold.uqD ++ slotRecords s).length = 65535 ∧ holdsRings s = true ∧ s.path.txReleased = false ∧
    s.path.rxReleased = false :=
  ⟨{ works with
      path.path := .held, path.txReleased := false, path.rxReleased := false, bus.fixedH := some 2, bus.fixedG := some 3, ring.fence := some 2,
      loader.softReset := .waiting, hold.uqE := [⟨.voicePriority, .uplink, 60, [0], 0, 0, none⟩],
      hold.uqD := [⟨.data, .uplink, 60, [1], 0, 0, none⟩], hold.dqD := [⟨.data, .downlink, 60, [2], 0, 0, none⟩],
      radio.slotA := some ⟨⟨.voice, .uplink, 60, [3], 0, 0, none⟩, true, some 500⟩, hold.freeList := (List.range 256).drop 4,
      events.counters := List.replicate 10 ⟨65532, false⟩ }, by decide +kernel⟩

theorem test_meets_DiscardsEmptyHold_3a : ∃ (a : Addr) (rest : List MasterTransfer) (bs : List Byte) (s : State),
    (∀ p, s.radio.receiver = .payload p → p.fate ≠ .atSoftReset) ∧ s.bus.queue = ⟨.policyRead true, .read a .sixteen⟩ :: rest ∧ bs =
    s.loader.firstHalf ++ bytesOf (memReadWords s.sram a 16) ∧ s.loader.readKind = .ordinary ∧ asksSoftReset bs = true ∧
    s.loader.softResetInForce = false ∧ (s.path.path = .takeover ∨ s.path.path = .radio ∨ s.path.path = .held ∨ s.path.path = .returning) ∧
    s.loader.policy.pathOverride = (policyOf bs).pathOverride ∧ s.bus.waiting = [] ∧ ((∀ e ∈ s.ring.window, e.st ≠ .pending) ∨ (s.hold.freeList =
    [] ∧ (∀ e ∈ s.ring.window, 0 < e.cellsNeed) ∧ s.path.radioWanted = true ∧ (s.radio.state = .attached → s.loader.policy.burst = (policyOf
    bs).burst ∧ s.loader.policy.overhead = (policyOf bs).overhead))) ∧ s.path.path ≠ .returning :=
  ⟨0x4040, [], (List.replicate 128 0).set 5 1, { works with
      path.path := .held, ring.base := some 0, ring.descriptorRead := some ⟨1, 1, false⟩, ring.window := [⟨0, .taking, 1, 60, 0, 1, false⟩],
      bus.queue := [⟨.policyRead true, .read 0x4040 .sixteen⟩], loader.readState := .reading,
      loader.firstHalf := (List.replicate 64 0).set 5 1 }, nofun, by decide +kernel⟩

theorem test_meets_DiscardsEmptyHold_3b : ∃ (a : Addr) (rest : List MasterTransfer) (bs : List Byte) (s : State),
    (∀ p, s.radio.receiver = .payload p → p.fate ≠ .atSoftReset) ∧ s.bus.queue = ⟨.policyRead true, .read a .sixteen⟩ :: rest ∧ bs =
    s.loader.firstHalf ++ bytesOf (memReadWords s.sram a 16) ∧ s.loader.readKind = .ordinary ∧ asksSoftReset bs = true ∧
    s.loader.softResetInForce = false ∧ (s.path.path = .takeover ∨ s.path.path = .radio ∨ s.path.path = .held ∨ s.path.path = .returning) ∧
    s.loader.policy.pathOverride = (policyOf bs).pathOverride ∧ s.bus.waiting = [] ∧ ((∀ e ∈ s.ring.window, e.st ≠ .pending) ∨ (s.hold.freeList =
    [] ∧ (∀ e ∈ s.ring.window, 0 < e.cellsNeed) ∧ s.path.radioWanted = true ∧ (s.radio.state = .attached → s.loader.policy.burst = (policyOf
    bs).burst ∧ s.loader.policy.overhead = (policyOf bs).overhead))) ∧ s.path.path = .returning :=
  ⟨0x4040, [], (List.replicate 128 0).set 5 1, { works with
      path.path := .returning, path.phase := some .closing, ring.fence := some 3, bus.queue := [⟨.policyRead true, .read 0x4040 .sixteen⟩],
      loader.readState := .reading, loader.firstHalf := (List.replicate 64 0).set 5 1 }, nofun, by decide +kernel⟩

theorem test_meets_DiscardsEmptyHold_3c : ∃ (a : Addr) (rest : List MasterTransfer) (bs : List Byte) (s : State),
    (∀ p, s.radio.receiver = .payload p → p.fate ≠ .atSoftReset) ∧ s.bus.queue = ⟨.policyRead true, .read a .sixteen⟩ :: rest ∧ bs =
    s.loader.firstHalf ++ bytesOf (memReadWords s.sram a 16) ∧ s.loader.readKind = .ordinary ∧ asksSoftReset bs = true ∧
    s.loader.softResetInForce = false ∧ (s.path.path = .takeover ∨ s.path.path = .radio ∨ s.path.path = .held ∨ s.path.path = .returning) ∧
    s.loader.policy.pathOverride = (policyOf bs).pathOverride ∧ s.bus.waiting = [] ∧ ((∀ e ∈ s.ring.window, e.st ≠ .pending) ∨ (s.hold.freeList =
    [] ∧ (∀ e ∈ s.ring.window, 0 < e.cellsNeed) ∧ s.path.radioWanted = true ∧ (s.radio.state = .attached → s.loader.policy.burst = (policyOf
    bs).burst ∧ s.loader.policy.overhead = (policyOf bs).overhead))) ∧ s.path.path ≠ .returning ∧ (s.ring.window.filter fun e => e.st == .pending
    && fenceAt s == e.pos).length = 1 :=
  ⟨0x4040, [], (List.replicate 128 0).set 5 1, { works with
      path.path := .held, path.radioWanted := true, radio.state := .backoff, hold.freeList := [], ring.base := some 0,
      ring.window := [⟨0, .taking, 1, 60, 0, 1, false⟩, ⟨1, .pending, 1, 60, 0, 1, false⟩],
      bus.queue := [⟨.policyRead true, .read 0x4040 .sixteen⟩], loader.readState := .reading,
      loader.firstHalf := (List.replicate 64 0).set 5 1 }, nofun, by decide +kernel⟩

theorem test_meets_HandBackReturnsTheRings_1 : ∃ (a : Addr) (rest : List MasterTransfer) (m : MemoryMap) (f : Count) (s : State),
    s.bus.queue = ⟨.txcHandBack, .write a [⟨f.setWidth 32, 15⟩]⟩ :: rest ∧ s.loader.map = some m ∧ watchedApart m ∧ a.toNat = watchedAddr m .txc
    ∧ s.ring.fence = some f ∧ s.path.path = .returning ∧ s.path.txReleased = true ∧ s.path.rxReleased = true ∧ s.loader.softReset = .none ∧
    s.health.verdict = .healthy ∧ s.loader.policy.pathOverride = .automatic ∧ ringIdle s ∧ s.events.entries.length = 11 :=
  ⟨0x8004, [], map0, 9, { works with
      path.path := .returning, path.phase := some .closing, ring.fence := some 9, ring.partTxc := some 9, ring.handBackAsked := true,
      bus.queue := [⟨.txcHandBack, .write 0x8004 [⟨9, 15⟩]⟩] }, by decide +kernel⟩

theorem test_meets_HandBackReturnsTheRings_2 : ∃ (a : Addr) (rest : List MasterTransfer) (m : MemoryMap) (f : Count) (s : State),
    s.bus.queue = ⟨.txcHandBack, .write a [⟨f.setWidth 32, 15⟩]⟩ :: rest ∧ s.loader.map = some m ∧ watchedApart m ∧ a.toNat = watchedAddr m .txc
    ∧ s.ring.fence = some f ∧ holdsRings s = true ∧ s.path.txReleased = true ∧ s.path.rxReleased = true ∧ s.loader.softReset = .completing ∧
    s.power.mode ≠ .doze ∧ s.bus.waiting = [] ∧ s.events.entries.length = 11 ∧ s.radio.receiver = .idle :=
  ⟨0x8004, [], map0, 9, { works with
      path.path := .held, loader.softReset := .completing, ring.fence := some 9, ring.partTxc := some 9, ring.handBackAsked := true,
      bus.queue := [⟨.txcHandBack, .write 0x8004 [⟨9, 15⟩]⟩] }, by decide +kernel⟩

theorem test_meets_TakeoverSetsDwellAndViews_1 : ∃ (s : State),
    s.health.timer100.isSome = true ∧ s.power.mode ≠ .doze ∧ s.path.path = .fibre ∧ s.loader.shadowsLoaded = true ∧ s.loader.softReset = .none ∧
    s.loader.policy.pathOverride = .automatic ∧ s.health.verdict = .healthy ∧ s.pins.los = true ∧ max 1 (s.health.sig - s.loader.policy.sig.p) ≤
    s.loader.policy.sig.t ∧ s.radio.state ≠ .attached ∧ s.radio.state ≠ .backoff ∧ s.bus.waiting = [] ∧ s.events.entries.length = 11 ∧ max 1
    (s.health.sig - s.loader.policy.sig.p) = s.loader.policy.sig.t :=
  ⟨{ works with health.timer100 := some 0, health.sig := 120, pins.los := true }, by decide +kernel⟩

theorem test_meets_TakeoverSetsDwellAndViews_2 : ∃ (s : State),
    s.path.refallTimer.isSome = true ∧ s.power.mode ≠ .doze :=
  ⟨{ works with path.refallTimer := some 0, path.refallOpen := true }, by decide +kernel⟩

theorem test_meets_TakeoverSetsDwellAndViews_3 : ∃ (s : State),
    s.path.refallTimer.isSome = true ∧ s.power.mode = .doze ∧ s.path.recorded.contains .refall = false :=
  ⟨{ dozing with path.refallTimer := some 0 }, by decide +kernel⟩

theorem test_meets_TakeoverSetsDwellAndViews_4 : ∃ (s : State),
    s.health.timer100.isSome = true ∧ s.power.mode ≠ .doze ∧ (s.path.path = .takeover ∨ s.path.path = .radio ∨ s.path.path = .held ∨ s.path.path
    = .returning) ∧ s.health.verdict = .unhealthy ∧ s.pins.los = false ∧ s.pins.link = true ∧ s.loader.policy.sig.t < min 253 (s.health.sig +
    s.loader.policy.sig.q) ∧ min 253 (s.loader.policy.sig.t + s.loader.policy.sig.m) ≤ min 253 (s.health.sig + s.loader.policy.sig.q) :=
  ⟨{ works with path.path := .held, health.timer100 := some 0, health.sig := 171, health.verdict := .unhealthy, pins.link := true }, by
    decide +kernel⟩

theorem test_meets_TakeoverSetsDwellAndViews_5a : ∃ (s : State),
    s.health.timer100.isSome = true ∧ s.power.mode ≠ .doze ∧ s.path.path = .returning ∧ s.path.phase = some .draining ∧ s.loader.softReset =
    .none ∧ s.loader.policy.pathOverride = .automatic ∧ s.health.verdict = .healthy ∧ s.pins.los = true ∧ max 1 (s.health.sig -
    s.loader.policy.sig.p) ≤ s.loader.policy.sig.t ∧ s.bus.waiting = [] ∧ s.events.entries.length = 11 :=
  ⟨{ draining0 with health.timer100 := some 0, health.sig := 73, pins.los := true }, by decide +kernel⟩

theorem test_meets_TakeoverSetsDwellAndViews_5b : ∃ (s : State),
    s.health.timer100.isSome = true ∧ s.power.mode ≠ .doze ∧ s.path.path = .returning ∧ s.path.phase = some .draining ∧ s.loader.softReset =
    .none ∧ s.loader.policy.pathOverride = .automatic ∧ s.health.verdict = .healthy ∧ s.pins.los = true ∧ max 1 (s.health.sig -
    s.loader.policy.sig.p) ≤ s.loader.policy.sig.t ∧ s.bus.waiting = [] ∧ s.events.entries.length = 11 ∧ s.radio.state = .attached :=
  ⟨{ attached with path.path := .returning, path.phase := some .draining, health.timer100 := some 0, health.sig := 73, pins.los := true }, by
    decide +kernel⟩

theorem test_meets_TakeoverSetsDwellAndViews_6 : ∃ (s : State),
    s.health.timer100.isSome = true ∧ s.power.mode ≠ .doze ∧ s.path.path = .returning ∧ s.path.phase = some .draining ∧
    s.loader.policy.pathOverride = .fibreOnly ∧ s.health.verdict = .healthy ∧ s.pins.los = true ∧ max 1 (s.health.sig - s.loader.policy.sig.p) ≤
    s.loader.policy.sig.t :=
  ⟨{ draining0 with health.timer100 := some 0, health.sig := 73, pins.los := true, loader.policy.pathOverride := .fibreOnly }, by decide +kernel⟩

theorem test_meets_TakeoverSetsDwellAndViews_7 : ∃ (a : Addr) (rest : List MasterTransfer) (bs : List Byte) (s : State),
    s.bus.queue = ⟨.policyRead true, .read a .sixteen⟩ :: rest ∧ bs = s.loader.firstHalf ++ bytesOf (memReadWords s.sram a 16) ∧
    s.loader.readKind = .ordinary ∧ asksSoftReset bs = false ∧ s.path.path = .returning ∧ s.path.phase = some .draining ∧ s.loader.softReset =
    .none ∧ s.loader.policy.pathOverride ≠ .radioNow ∧ (policyOf bs).pathOverride = .radioNow ∧ s.power.mode ≠ .doze ∧ s.bus.waiting = [] ∧
    s.events.entries.length = 11 :=
  ⟨0x4040, [], (List.replicate 128 0).set 4 2, { draining0 with
      bus.queue := [⟨.policyRead true, .read 0x4040 .sixteen⟩], loader.readState := .reading,
      loader.firstHalf := (List.replicate 64 0).set 4 2 }, by decide +kernel⟩

theorem test_meets_TakeoverSetsDwellAndViews_automatic_unhealthy : ∃ (a : Addr) (rest : List MasterTransfer) (bs : List Byte) (s : State),
    s.bus.queue = ⟨.policyRead true, .read a .sixteen⟩ :: rest ∧ bs = s.loader.firstHalf ++ bytesRead s.sram a 64 ∧ s.loader.readKind = .ordinary ∧
    softResetAsked bs = false ∧ s.path.path = .returning ∧ s.path.phase = some .draining ∧ s.loader.softReset = .none ∧
    s.loader.policy.pathOverride ≠ .automatic ∧ (blockPolicy bs 0).pathOverride = .automatic ∧ s.health.verdict = .unhealthy ∧ s.path.dwell ≠ .met ∧
    s.power.mode ≠ .doze ∧ s.bus.waiting = [] ∧ s.events.entries.length = 11 :=
  ⟨0x4040, [], List.replicate 128 0, { draining0 with
      bus.queue := [⟨.policyRead true, .read 0x4040 .sixteen⟩], loader.readState := .reading, loader.firstHalf := List.replicate 64 0,
      loader.policy.pathOverride := .fibreOnly, health.verdict := .unhealthy }, by decide +kernel⟩

theorem test_meets_TakeoverSetsDwellAndViews_automatic_healthy : ∃ (a : Addr) (rest : List MasterTransfer) (bs : List Byte) (s : State),
    s.bus.queue = ⟨.policyRead true, .read a .sixteen⟩ :: rest ∧ bs = s.loader.firstHalf ++ bytesRead s.sram a 64 ∧ s.loader.readKind = .ordinary ∧
    softResetAsked bs = false ∧ s.path.path = .returning ∧ s.path.phase = some .draining ∧ s.loader.softReset = .none ∧
    s.loader.policy.pathOverride ≠ .automatic ∧ (blockPolicy bs 0).pathOverride = .automatic ∧ s.health.verdict = .healthy ∧
    s.power.mode ≠ .doze ∧ s.bus.waiting = [] :=
  ⟨0x4040, [], List.replicate 128 0, { draining0 with
      bus.queue := [⟨.policyRead true, .read 0x4040 .sixteen⟩], loader.readState := .reading, loader.firstHalf := List.replicate 64 0,
      loader.policy.pathOverride := .fibreOnly, path.dwell := .met }, by decide +kernel⟩

theorem test_meets_TakeoverSetsDwellAndViews_fibre_radio_now : ∃ (a : Addr) (rest : List MasterTransfer) (bs : List Byte) (cause : PathCause)
    (s : State),
    s.bus.queue = ⟨.policyRead true, .read a .sixteen⟩ :: rest ∧ bs = s.loader.firstHalf ++ bytesRead s.sram a 64 ∧ s.loader.readKind = .ordinary ∧
    softResetAsked bs = false ∧ s.path.path = .fibre ∧ s.loader.shadowsLoaded = true ∧ s.loader.softReset = .none ∧
    s.loader.policy.pathOverride ≠ (blockPolicy bs 0).pathOverride ∧ ((blockPolicy bs 0).pathOverride = .radioNow ∧ cause = .radioNow ∨
    (blockPolicy bs 0).pathOverride = .automatic ∧ s.health.verdict = .unhealthy ∧ cause = .verdict) ∧ s.power.mode ≠ .doze ∧
    s.bus.waiting = [] ∧ s.events.entries.length = 11 ∧ s.radio.state = .attached ∧ s.path.refallOpen = true :=
  ⟨0x4040, [], (List.replicate 128 0).set 4 2, .radioNow, { attached with
      bus.queue := [⟨.policyRead true, .read 0x4040 .sixteen⟩], loader.readState := .reading, bus.txHorizon := some 2, bus.rxHorizon := some 3,
      loader.firstHalf := (List.replicate 64 0).set 4 2, path.refallOpen := true, path.dwellD := 1801 }, by decide +kernel⟩

theorem test_meets_TakeoverSetsDwellAndViews_fibre_automatic : ∃ (a : Addr) (rest : List MasterTransfer) (bs : List Byte) (cause : PathCause)
    (s : State),
    s.bus.queue = ⟨.policyRead true, .read a .sixteen⟩ :: rest ∧ bs = s.loader.firstHalf ++ bytesRead s.sram a 64 ∧ s.loader.readKind = .ordinary ∧
    softResetAsked bs = false ∧ s.path.path = .fibre ∧ s.loader.shadowsLoaded = true ∧ s.loader.softReset = .none ∧
    s.loader.policy.pathOverride ≠ (blockPolicy bs 0).pathOverride ∧ ((blockPolicy bs 0).pathOverride = .radioNow ∧ cause = .radioNow ∨
    (blockPolicy bs 0).pathOverride = .automatic ∧ s.health.verdict = .unhealthy ∧ cause = .verdict) ∧ s.power.mode ≠ .doze ∧
    s.bus.waiting = [] ∧ s.events.entries.length = 11 ∧ s.radio.state = .off ∧ cause = .verdict :=
  ⟨0x4040, [], List.replicate 128 0, .verdict, { works with
      bus.queue := [⟨.policyRead true, .read 0x4040 .sixteen⟩], loader.readState := .reading, loader.firstHalf := List.replicate 64 0,
      loader.policy.pathOverride := .fibreOnly, health.verdict := .unhealthy }, by decide +kernel⟩

theorem test_meets_TakeoverSetsDwellAndViews_fibre_backoff : ∃ (a : Addr) (rest : List MasterTransfer) (bs : List Byte) (cause : PathCause)
    (s : State),
    s.bus.queue = ⟨.policyRead true, .read a .sixteen⟩ :: rest ∧ bs = s.loader.firstHalf ++ bytesRead s.sram a 64 ∧ s.loader.readKind = .ordinary ∧
    softResetAsked bs = false ∧ s.path.path = .fibre ∧ s.loader.shadowsLoaded = true ∧ s.loader.softReset = .none ∧
    s.loader.policy.pathOverride ≠ (blockPolicy bs 0).pathOverride ∧ ((blockPolicy bs 0).pathOverride = .radioNow ∧ cause = .radioNow ∨
    (blockPolicy bs 0).pathOverride = .automatic ∧ s.health.verdict = .unhealthy ∧ cause = .verdict) ∧ s.power.mode ≠ .doze ∧
    s.bus.waiting = [] ∧ s.events.entries.length = 11 ∧ s.radio.state = .backoff ∧ s.health.verdict = .healthy :=
  ⟨0x4040, [], (List.replicate 128 0).set 4 2, .radioNow, { powered with
      radio.state := .backoff, radio.ready := true, radio.backoffTimer := some 5,
      bus.queue := [⟨.policyRead true, .read 0x4040 .sixteen⟩], loader.readState := .reading,
      loader.firstHalf := (List.replicate 64 0).set 4 2 }, by decide +kernel⟩

theorem test_meets_TakeoverSetsDwellAndViews_8a : ∃ (e : EntryStage) (s : State),
    s.health.timer100.isSome = true ∧ s.path.path = .fibre ∧ s.loader.shadowsLoaded = true ∧ s.loader.softReset = .none ∧
    s.loader.policy.pathOverride = .automatic ∧ s.health.verdict = .healthy ∧ s.pins.los = true ∧ max 1 (s.health.sig - s.loader.policy.sig.p) ≤
    s.loader.policy.sig.t ∧ s.bus.waiting = [] ∧ s.events.entries.length = 11 ∧ (s.radio.state = .attached ∨ s.radio.state = .backoff) ∧
    s.power.step = .entering e ∧ dozeConditions s = true ∧ s.radio.state = .attached ∧ s.radio.lowPowerTold = true ∧ s.radio.ldo = none ∧
    s.radio.items.lowPower = none :=
  ⟨.link, { attached with
      power.mode := .reserve, pins.mainsLost := true, power.quiet := .runOut, health.timer100 := some 0, health.sig := 73, pins.los := true,
      power.step := .entering .link, radio.lowPowerTold := true }, by decide +kernel⟩

theorem test_meets_TakeoverSetsDwellAndViews_8b : ∃ (e : EntryStage) (s : State),
    s.health.timer100.isSome = true ∧ s.path.path = .fibre ∧ s.loader.shadowsLoaded = true ∧ s.loader.softReset = .none ∧
    s.loader.policy.pathOverride = .automatic ∧ s.health.verdict = .healthy ∧ s.pins.los = true ∧ max 1 (s.health.sig - s.loader.policy.sig.p) ≤
    s.loader.policy.sig.t ∧ s.bus.waiting = [] ∧ s.events.entries.length = 11 ∧ (s.radio.state = .attached ∨ s.radio.state = .backoff) ∧
    s.power.step = .entering e ∧ dozeConditions s = true ∧ s.radio.state = .attached :=
  ⟨.page, { attached with
      power.mode := .reserve, pins.mainsLost := true, power.quiet := .runOut, health.timer100 := some 0, health.sig := 73, pins.los := true,
      power.step := .entering .page }, by decide +kernel⟩

theorem test_meets_TakeoverSetsDwellAndViews_8c : ∃ (e : EntryStage) (s : State),
    s.health.timer100.isSome = true ∧ s.path.path = .fibre ∧ s.loader.shadowsLoaded = true ∧ s.loader.softReset = .none ∧
    s.loader.policy.pathOverride = .automatic ∧ s.health.verdict = .healthy ∧ s.pins.los = true ∧ max 1 (s.health.sig - s.loader.policy.sig.p) ≤
    s.loader.policy.sig.t ∧ s.bus.waiting = [] ∧ s.events.entries.length = 11 ∧ (s.radio.state = .attached ∨ s.radio.state = .backoff) ∧
    s.power.step = .entering e ∧ dozeConditions s = true ∧ s.radio.state = .backoff :=
  ⟨.settling, { powered with
      radio.state := .backoff, power.mode := .reserve, pins.mainsLost := true, power.quiet := .runOut, health.timer100 := some 0,
      health.sig := 73, pins.los := true, power.step := .entering .settling }, by decide +kernel⟩

theorem test_meets_ModuleReadyEndsTheStart_1a : ∃ (s : State),
    receiverReady s = true ∧ s.radio.state = .starting ∧ atRest s ∧ partWorks s = true ∧ s.path.radioWanted = true :=
  ⟨{ powered with radio.state := .starting, path.path := .takeover, path.radioWanted := true }, by decide +kernel⟩

theorem test_meets_ModuleReadyEndsTheStart_1b : ∃ (s : State),
    receiverReady s = true ∧ s.radio.state = .starting ∧ atRest s ∧ partWorks s = true ∧ s.path.radioWanted = false ∧ s.path.emergency = false ∧
    s.loader.policy.warm = true ∧ s.power.mode = .mains :=
  ⟨{ powered with radio.state := .starting }, by decide +kernel⟩

theorem test_meets_ModuleReadyEndsTheStart_1c : ∃ (s : State),
    receiverReady s = true ∧ s.radio.state = .starting ∧ atRest s ∧ partWorks s = true ∧ s.path.radioWanted = false ∧ s.path.emergency = false ∧
    s.power.mode ≠ .mains :=
  ⟨{ powered with radio.state := .starting, power.mode := .reserve }, by decide +kernel⟩

theorem test_meets_ModuleReadyEndsTheStart_2 : ∃ (s : State),
    receiverReady s = true ∧ s.radio.state = .detached ∧ atRest s :=
  ⟨{ powered with radio.state := .detached }, by decide +kernel⟩

theorem test_meets_ModuleReadyEndsTheStart_3 : ∃ (s : State),
    receiverReady s = true ∧ s.radio.state = .backoff ∧ atRest s :=
  ⟨{ powered with radio.state := .backoff, hold.paused := true }, by decide +kernel⟩

theorem test_meets_ModuleReadyEndsTheStart_4 : ∃ (s : State),
    s.radio.state = .off ∧ s.radio.mpwr = false :=
  ⟨works, by decide +kernel⟩

theorem test_meets_AttachResultSuccessAttaches_1a : ∃ (s : State),
    receiverReady s = true ∧ s.radio.state = .attaching ∧ atRest s ∧ uplinkEmpty s = true ∧ s.events.entries.length = 11 ∧ s.path.radioWanted =
    true ∧ s.path.path = .takeover ∧ s.loader.policy.pathOverride = .automatic ∧ s.path.dwell ≠ .met :=
  ⟨{ attaching with path.path := .takeover, path.radioWanted := true }, by decide +kernel⟩

theorem test_meets_AttachResultSuccessAttaches_1b : ∃ (s : State),
    receiverReady s = true ∧ s.radio.state = .attaching ∧ atRest s ∧ uplinkEmpty s = true ∧ s.events.entries.length = 11 ∧ s.path.radioWanted =
    false ∧ s.loader.policy.linger ≠ 0 :=
  ⟨attaching, by decide +kernel⟩

theorem test_meets_AttachResultSuccessAttaches_1c : ∃ (s : State),
    receiverReady s = true ∧ s.radio.state = .attaching ∧ atRest s ∧ uplinkEmpty s = true ∧ s.events.entries.length = 11 ∧ s.path.radioWanted =
    false ∧ s.loader.policy.linger = 0 :=
  ⟨{ attaching with loader.policy.linger := 0 }, by decide +kernel⟩

theorem test_meets_AttachResultSuccessAttaches_1d : ∃ (s : State),
    receiverReady s = true ∧ s.radio.state = .attaching ∧ atRest s ∧ uplinkEmpty s = true ∧ s.events.entries.length = 11 ∧ s.path.path = .held ∧
    s.loader.softReset = .none ∧ (¬ (s.pins.offhook = true ∨ s.loader.policy.pathOverride = .radioNow ∨ (s.loader.policy.pathOverride =
    .automatic ∧ s.path.dwell ≠ .met) ∨ (s.loader.policy.pathOverride = .fibreOnly ∧ s.path.priorityTimer ≠ none))) :=
  ⟨{ attaching with path.path := .held, path.radioWanted := true, loader.policy.pathOverride := .fibreOnly }, by decide +kernel⟩

theorem test_meets_AttachResultSuccessAttaches_1e : ∃ (s : State),
    receiverReady s = true ∧ s.radio.state = .attaching ∧ atRest s ∧ uplinkEmpty s = true ∧ s.events.entries.length = 11 ∧ s.path.path = .held ∧
    (s.pins.offhook = true ∨ s.loader.policy.pathOverride = .radioNow ∨ (s.loader.policy.pathOverride = .automatic ∧ s.path.dwell ≠ .met) ∨
    (s.loader.policy.pathOverride = .fibreOnly ∧ s.path.priorityTimer ≠ none)) :=
  ⟨{ attaching with path.path := .held, path.radioWanted := true, loader.policy.pathOverride := .radioNow }, by decide +kernel⟩

theorem test_meets_AttachResultSuccessAttaches_2 : ∃ (s : State),
    s.radio.state ≠ .attaching :=
  ⟨{ powered with radio.state := .attached }, by decide +kernel⟩

theorem test_meets_AttachFailuresBackOff_1a : ∃ (tag : Byte) (s : State),
    receiverReady s = true ∧ s.radio.state = .attaching ∧ (s.path.radioWanted = true ∨ s.path.emergency = true) ∧ (s.path.emergency = true → s.radio.attachTag ≠ some false) ∧ atRest s ∧
    s.events.entries.length = 11 ∧ tag ≠ 0 ∧ tag.toNat ≤ 15 ∧ s.radio.failures = 4 ∧ s.path.path = .takeover ∧ returnBarred s :=
  ⟨1, { attaching with path.path := .takeover, path.radioWanted := true, radio.failures := 4 }, by decide +kernel⟩

theorem test_meets_AttachFailuresBackOff_1b : ∃ (tag : Byte) (s : State),
    receiverReady s = true ∧ s.radio.state = .attaching ∧ (s.path.radioWanted = true ∨ s.path.emergency = true) ∧ (s.path.emergency = true → s.radio.attachTag ≠ some false) ∧ atRest s ∧
    s.events.entries.length = 11 ∧ tag ≠ 0 ∧ tag.toNat ≤ 15 :=
  ⟨15, { attaching with path.path := .takeover, path.radioWanted := true, radio.failures := 255 }, by decide +kernel⟩

theorem test_meets_AttachFailuresBackOff_1c : ∃ (tag : Byte) (s : State),
    receiverReady s = true ∧ s.radio.state = .attaching ∧ (s.path.radioWanted = true ∨ s.path.emergency = true) ∧ (s.path.emergency = true → s.radio.attachTag ≠ some false) ∧ atRest s ∧
    s.events.entries.length = 11 ∧ tag ≠ 0 ∧ tag.toNat ≤ 15 ∧ s.path.path = .takeover ∧ s.loader.softReset = .none ∧ ¬ returnBarred s :=
  ⟨1, { attaching with path.path := .takeover, path.radioWanted := true, path.dwell := .met }, by decide +kernel⟩

/-- An emergency attach, its request sent with tag emergency, that fails: by a result, by the timer with its request unsent, by a Module Ready. -/
theorem test_meets_AttachFailuresBackOff_1_emergency : ∃ (tag : Byte) (s : State),
    receiverReady s = true ∧ s.radio.state = .attaching ∧ (s.path.radioWanted = true ∨ s.path.emergency = true) ∧ (s.path.emergency = true →
    s.radio.attachTag ≠ some false) ∧ atRest s ∧ s.events.entries.length = 11 ∧ tag ≠ 0 ∧ tag.toNat ≤ 15 ∧ s.path.emergency = true ∧
    s.path.radioWanted = false ∧ s.path.path = .fibre :=
  ⟨2, { attaching with path.emergency := true, radio.attachTag := some true }, by decide +kernel⟩

theorem test_meets_AttachFailuresBackOff_2_emergency : ∃ (s : State),
    s.radio.attachTimer.isSome = true ∧ s.power.mode ≠ .doze ∧ s.radio.state = .attaching ∧ (s.path.radioWanted = true ∨ s.path.emergency = true) ∧
    (s.path.emergency = true → s.radio.attachTag ≠ some false) ∧ atRest s ∧ s.events.entries.length = 11 ∧ s.path.emergency = true ∧
    s.radio.attachTag = none :=
  ⟨{ attaching with path.emergency := true, radio.attachTag := none, radio.items.attach := true, radio.attachTimer := some 0 }, by decide +kernel⟩

theorem test_meets_AttachFailuresBackOff_3_emergency : ∃ (s : State),
    receiverReady s = true ∧ s.radio.state = .attaching ∧ (s.path.radioWanted = true ∨ s.path.emergency = true) ∧ (s.path.emergency = true →
    s.radio.attachTag ≠ some false) ∧ atRest s ∧ s.events.entries.length = 11 ∧ s.path.emergency = true ∧ s.path.path = .takeover ∧ returnBarred s :=
  ⟨{ attaching with path.path := .takeover, path.radioWanted := true, path.emergency := true, radio.attachTag := some true }, by decide +kernel⟩

theorem test_meets_AttachFailuresBackOff_2a : ∃ (s : State),
    s.radio.attachTimer.isSome = true ∧ s.power.mode ≠ .doze ∧ s.radio.state = .attaching ∧ (s.path.radioWanted = true ∨ s.path.emergency = true) ∧ (s.path.emergency = true → s.radio.attachTag ≠ some false)
    ∧ atRest s ∧ s.events.entries.length = 11 ∧ s.radio.failures = 4 ∧ s.path.path = .takeover ∧ returnBarred s :=
  ⟨{ attaching with path.path := .takeover, path.radioWanted := true, radio.failures := 4, radio.attachTimer := some 0 }, by decide +kernel⟩

theorem test_meets_AttachFailuresBackOff_2b : ∃ (s : State),
    s.radio.attachTimer.isSome = true ∧ s.power.mode ≠ .doze ∧ s.radio.state = .attaching ∧ (s.path.radioWanted = true ∨ s.path.emergency = true) ∧ (s.path.emergency = true → s.radio.attachTag ≠ some false)
    ∧ atRest s ∧ s.events.entries.length = 11 ∧ s.path.path = .takeover ∧ s.loader.softReset = .none ∧ ¬ returnBarred s :=
  ⟨{ attaching with path.path := .takeover, path.radioWanted := true, path.dwell := .met, radio.attachTimer := some 0 }, by decide +kernel⟩

theorem test_meets_AttachFailuresBackOff_3a : ∃ (s : State),
    receiverReady s = true ∧ s.radio.state = .attaching ∧ (s.path.radioWanted = true ∨ s.path.emergency = true) ∧ (s.path.emergency = true → s.radio.attachTag ≠ some false) ∧ atRest s ∧
    s.events.entries.length = 11 ∧ s.radio.failures = 4 ∧ s.path.path = .takeover ∧ returnBarred s :=
  ⟨{ attaching with path.path := .takeover, path.radioWanted := true, radio.failures := 4 }, by decide +kernel⟩

theorem test_meets_AttachFailuresBackOff_3b : ∃ (s : State),
    receiverReady s = true ∧ s.radio.state = .attaching ∧ (s.path.radioWanted = true ∨ s.path.emergency = true) ∧ (s.path.emergency = true → s.radio.attachTag ≠ some false) ∧ atRest s ∧
    s.events.entries.length = 11 ∧ s.path.path = .takeover ∧ s.loader.softReset = .none ∧ ¬ returnBarred s :=
  ⟨{ attaching with path.path := .takeover, path.radioWanted := true, path.dwell := .met }, by decide +kernel⟩

theorem test_meets_AttachFailuresBackOff_4a : ∃ (s : State),
    s.radio.startTimer.isSome = true ∧ s.power.mode ≠ .doze ∧ s.radio.state = .starting ∧ atRest s ∧ s.events.entries.length = 11 ∧
    s.radio.failures = 4 ∧ s.path.path = .takeover ∧ returnBarred s :=
  ⟨{ powered with path.path := .takeover, path.radioWanted := true, radio.state := .starting, radio.failures := 4, radio.startTimer := some 0 },
    by decide +kernel⟩

theorem test_meets_AttachFailuresBackOff_4b : ∃ (s : State),
    s.radio.startTimer.isSome = true ∧ s.power.mode ≠ .doze ∧ s.radio.state = .starting ∧ atRest s ∧ s.events.entries.length = 11 ∧ s.path.path =
    .takeover ∧ s.loader.softReset = .none ∧ ¬ returnBarred s :=
  ⟨{ powered with path.path := .takeover, path.radioWanted := true, path.dwell := .met, radio.state := .starting, radio.startTimer := some 0 },
    by decide +kernel⟩

/-- The immediate emergency retry, by each failure. -/
theorem test_meets_AttachFailuresBackOff_5a : ∃ (c : Instr) (cause : Nat) (s : State),
    FailsAttach c cause s ∧ s.radio.state = .attaching ∧ s.path.emergency = true ∧ s.radio.attachTag = some false ∧ atRest s ∧
    s.events.entries.length = 11 ∧ s.path.path ≠ .radio ∧ s.radio.failures = 4 :=
  ⟨.attachResult 15, 15, { attaching with path.path := .takeover, path.emergency := true, radio.failures := 4 },
    .inl ⟨_, rfl, by decide +kernel⟩, by decide +kernel⟩

theorem test_meets_AttachFailuresBackOff_5b : ∃ (c : Instr) (cause : Nat) (s : State),
    FailsAttach c cause s ∧ s.radio.state = .attaching ∧ s.path.emergency = true ∧ s.radio.attachTag = some false ∧ atRest s ∧
    s.events.entries.length = 11 ∧ s.path.path ≠ .radio :=
  ⟨.attachTimerExpiry, 16, { attaching with path.emergency := true, radio.attachTimer := some 0 },
    .inr (.inl ⟨rfl, by decide +kernel⟩), by decide +kernel⟩

theorem test_meets_AttachFailuresBackOff_5c : ∃ (c : Instr) (cause : Nat) (s : State),
    FailsAttach c cause s ∧ s.radio.state = .attaching ∧ s.path.emergency = true ∧ s.radio.attachTag = some false ∧ atRest s ∧
    s.events.entries.length = 11 :=
  ⟨.moduleReady, 18, { attaching with path.path := .held, path.emergency := true, radio.failures := 255 },
    .inr (.inr ⟨rfl, by decide +kernel⟩), by decide +kernel⟩

/-- No radio wanted and no emergency: warm on mains backs off; without it, or off mains, the module goes OFF. -/
theorem test_meets_AttachFailuresBackOff_6a : ∃ (c : Instr) (cause : Nat) (s : State),
    FailsAttach c cause s ∧ s.radio.state = .attaching ∧ s.path.radioWanted = false ∧ s.path.emergency = false ∧ atRest s ∧
    s.events.entries.length = 11 ∧ s.loader.policy.warm = true ∧ s.power.mode = .mains ∧ s.radio.failures = 4 :=
  ⟨.attachResult 1, 1, { attaching with loader.policy.warm := true, radio.failures := 4 },
    .inl ⟨_, rfl, by decide +kernel⟩, by decide +kernel⟩

theorem test_meets_AttachFailuresBackOff_6b : ∃ (c : Instr) (cause : Nat) (s : State),
    FailsAttach c cause s ∧ s.radio.state = .attaching ∧ s.path.radioWanted = false ∧ s.path.emergency = false ∧ atRest s ∧
    s.events.entries.length = 11 ∧ s.power.mode ≠ .mains ∧ partWorks s = true :=
  ⟨.attachTimerExpiry, 16, { attaching with loader.policy.warm := true, power.mode := .reserve, radio.attachTimer := some 0 },
    .inr (.inl ⟨rfl, by decide +kernel⟩), by decide +kernel⟩

theorem test_meets_AttachFailuresBackOff_6c : ∃ (c : Instr) (cause : Nat) (s : State),
    FailsAttach c cause s ∧ s.radio.state = .attaching ∧ s.path.radioWanted = false ∧ s.path.emergency = false ∧ atRest s ∧
    s.events.entries.length = 11 ∧ s.loader.policy.warm = false ∧ partWorks s = true :=
  ⟨.moduleReady, 18, { attaching with loader.policy.warm := false },
    .inr (.inr ⟨rfl, by decide +kernel⟩), by decide +kernel⟩

theorem test_meets_GrantReportFeedsTheRefill_1 : ∃ (s : State),
    receiverReady s = true ∧ s.radio.state ≠ .off :=
  ⟨attached, by decide +kernel⟩

theorem test_meets_GrantReportFeedsTheRefill_2 : ∃ (s : State),
    s.pacer.pacing.isSome = true ∧ atRest s ∧ uplinkEmpty s = true :=
  ⟨{ attached with pacer.pacing := some 0, pacer.grantSeen := true, radio.grantUp := 1000 }, by decide +kernel⟩

theorem test_meets_RadioLeavesAttached_1a : ∃ (s : State),
    receiverReady s = true ∧ s.radio.state = .attached ∧ atRest s ∧ partWorks s = true ∧ s.events.entries.length = 11 ∧ s.path.path = .radio ∧
    s.loader.policy.pathOverride = .automatic ∧ s.path.dwell ≠ .met ∧ s.path.radioWanted = true :=
  ⟨{ attached with path.path := .radio, path.radioWanted := true }, by decide +kernel⟩

theorem test_meets_RadioLeavesAttached_1b : ∃ (s : State),
    receiverReady s = true ∧ s.radio.state = .attached ∧ atRest s ∧ partWorks s = true ∧ s.events.entries.length = 11 ∧ s.path.radioWanted =
    false ∧ s.path.emergency = false ∧ s.loader.policy.warm = true ∧ s.power.mode = .mains :=
  ⟨attached, by decide +kernel⟩

theorem test_meets_RadioLeavesAttached_1c : ∃ (s : State),
    receiverReady s = true ∧ s.radio.state = .attached ∧ atRest s ∧ partWorks s = true ∧ s.events.entries.length = 11 ∧ s.path.radioWanted =
    false ∧ s.path.emergency = false ∧ s.power.mode ≠ .mains :=
  ⟨{ attached with power.mode := .reserve }, by decide +kernel⟩

theorem test_meets_RadioLeavesAttached_1d : ∃ (s : State),
    receiverReady s = true ∧ s.radio.state = .attached ∧ atRest s ∧ partWorks s = true ∧ s.events.entries.length = 11 ∧ s.path.path = .radio ∧
    s.loader.softReset = .none ∧ (¬ (s.pins.offhook = true ∨ s.loader.policy.pathOverride = .radioNow ∨ (s.loader.policy.pathOverride =
    .automatic ∧ s.path.dwell ≠ .met) ∨ (s.loader.policy.pathOverride = .fibreOnly ∧ s.path.priorityTimer ≠ none))) :=
  ⟨{ attached with path.path := .radio, path.radioWanted := true, path.dwell := .met }, by decide +kernel⟩

theorem test_meets_RadioLeavesAttached_2a : ∃ (s : State),
    s.radio.silenceTimer.isSome = true ∧ s.power.mode ≠ .doze ∧ s.radio.state = .attached ∧ atRest s ∧ partWorks s = true ∧
    s.events.entries.length = 11 ∧ s.path.path = .radio ∧ s.loader.policy.pathOverride = .automatic ∧ s.path.dwell ≠ .met ∧ s.path.radioWanted =
    true :=
  ⟨{ attached with path.path := .radio, path.radioWanted := true, radio.silenceTimer := some 0 }, by decide +kernel⟩

theorem test_meets_RadioLeavesAttached_2b : ∃ (s : State),
    s.radio.silenceTimer.isSome = true ∧ s.power.mode ≠ .doze ∧ s.radio.state = .attached ∧ atRest s ∧ partWorks s = true ∧
    s.events.entries.length = 11 ∧ s.path.radioWanted = false ∧ s.path.emergency = false ∧ s.loader.policy.warm = true ∧ s.power.mode = .mains :=
  ⟨{ attached with radio.silenceTimer := some 0 }, by decide +kernel⟩

theorem test_meets_RadioLeavesAttached_2c : ∃ (s : State),
    s.radio.silenceTimer.isSome = true ∧ s.power.mode ≠ .doze ∧ s.radio.state = .attached ∧ atRest s ∧ partWorks s = true ∧
    s.events.entries.length = 11 ∧ s.path.radioWanted = false ∧ s.path.emergency = false ∧ s.power.mode ≠ .mains :=
  ⟨{ attached with power.mode := .reserve, radio.silenceTimer := some 0 }, by decide +kernel⟩

theorem test_meets_RadioLeavesAttached_2d : ∃ (s : State),
    s.radio.silenceTimer.isSome = true ∧ s.power.mode ≠ .doze ∧ s.radio.state = .attached ∧ atRest s ∧ partWorks s = true ∧
    s.events.entries.length = 11 ∧ s.path.path = .radio ∧ s.loader.softReset = .none ∧ (¬ (s.pins.offhook = true ∨ s.loader.policy.pathOverride =
    .radioNow ∨ (s.loader.policy.pathOverride = .automatic ∧ s.path.dwell ≠ .met) ∨ (s.loader.policy.pathOverride = .fibreOnly ∧
    s.path.priorityTimer ≠ none))) :=
  ⟨{ attached with path.path := .radio, path.radioWanted := true, path.dwell := .met, radio.silenceTimer := some 0 }, by decide +kernel⟩

theorem test_meets_RadioLeavesAttached_3a : ∃ (s : State),
    s.radio.ldo = some (.detach true) ∧ s.power.mode ≠ .doze ∧ s.radio.state = .attached ∧ atRest s ∧ partWorks s = true ∧
    s.events.entries.length = 11 ∧ s.path.path = .radio ∧ s.loader.policy.pathOverride = .automatic ∧ s.path.dwell ≠ .met ∧ s.path.radioWanted =
    true :=
  ⟨{ attached with path.path := .radio, path.radioWanted := true, radio.ldo := some (.detach true) }, by decide +kernel⟩

theorem test_meets_RadioLeavesAttached_3b : ∃ (s : State),
    s.radio.ldo = some (.detach true) ∧ s.power.mode ≠ .doze ∧ s.radio.state = .attached ∧ atRest s ∧ partWorks s = true ∧
    s.events.entries.length = 11 ∧ s.path.path = .radio ∧ s.loader.softReset = .none ∧ (¬ (s.pins.offhook = true ∨ s.loader.policy.pathOverride =
    .radioNow ∨ (s.loader.policy.pathOverride = .automatic ∧ s.path.dwell ≠ .met) ∨ (s.loader.policy.pathOverride = .fibreOnly ∧
    s.path.priorityTimer ≠ none))) :=
  ⟨{ attached with path.path := .radio, path.radioWanted := true, path.dwell := .met, radio.ldo := some (.detach true) }, by decide +kernel⟩

theorem test_meets_RadioLeavesAttached_4a : ∃ (s : State),
    receiverReady s = true ∧ s.radio.slotA = none ∧ s.radio.slotB = none ∧ s.radio.state = .attached ∧ atRest s ∧ partWorks s = true ∧
    s.events.entries.length = 11 ∧ s.path.path = .radio ∧ s.loader.policy.pathOverride = .automatic ∧ s.path.dwell ≠ .met ∧ s.path.radioWanted =
    true :=
  ⟨{ attached with path.path := .radio, path.radioWanted := true }, by decide +kernel⟩

theorem test_meets_RadioLeavesAttached_4b : ∃ (s : State),
    receiverReady s = true ∧ s.radio.slotA = none ∧ s.radio.slotB = none ∧ s.radio.state = .attached ∧ atRest s ∧ partWorks s = true ∧
    s.events.entries.length = 11 ∧ s.path.path = .radio ∧ s.loader.softReset = .none ∧ (¬ (s.pins.offhook = true ∨ s.loader.policy.pathOverride =
    .radioNow ∨ (s.loader.policy.pathOverride = .automatic ∧ s.path.dwell ≠ .met) ∨ (s.loader.policy.pathOverride = .fibreOnly ∧
    s.path.priorityTimer ≠ none))) :=
  ⟨{ attached with path.path := .radio, path.radioWanted := true, path.dwell := .met }, by decide +kernel⟩

theorem test_meets_RadioLeavesAttached_5a : ∃ (back : FrameClass → List FrameRecord) (gone : List FrameRecord) (s : State),
    (back = fun cl => [s.radio.slotB, s.radio.slotA].filterMap fun x => x.bind fun b =>
        if b.record.cls = cl ∧ b.record.refusals + 1 < 16 then some { b.record with refusals := b.record.refusals + 1 } else none) ∧ (gone =
        [s.radio.slotA, s.radio.slotB].filterMap fun x => x.bind fun b => if 15 ≤ b.record.refusals then some b.record else none) ∧ receiverReady
        s = true ∧ (s.radio.slotA ≠ none ∨ s.radio.slotB ≠ none) ∧ s.radio.state = .attached ∧ atRest s ∧ partWorks s = true ∧
        s.events.entries.length = 11 ∧ s.path.path = .radio ∧ s.loader.policy.pathOverride = .automatic ∧ s.path.dwell ≠ .met ∧
        s.path.radioWanted = true ∧ s.hold.onLdo = [] :=
  ⟨_, _, { attached with
      path.path := .radio, path.radioWanted := true, radio.slotA := some ⟨⟨.data, .uplink, 60, [0], 0, 0, none⟩, true, some 100⟩,
      radio.slotB := some ⟨⟨.data, .uplink, 60, [1], 0, 15, none⟩, false, some 200⟩, pacer.chargeA := some 832, pacer.chargeB := some 832,
      hold.freeList := (List.range 256).drop 2 }, rfl, rfl, by decide +kernel⟩

theorem test_meets_RadioLeavesAttached_5b : ∃ (back : FrameClass → List FrameRecord) (gone : List FrameRecord) (s : State),
    (back = fun cl => [s.radio.slotB, s.radio.slotA].filterMap fun x => x.bind fun b =>
        if b.record.cls = cl ∧ b.record.refusals + 1 < 16 then some { b.record with refusals := b.record.refusals + 1 } else none) ∧ (gone =
        [s.radio.slotA, s.radio.slotB].filterMap fun x => x.bind fun b => if 15 ≤ b.record.refusals then some b.record else none) ∧ receiverReady
        s = true ∧ (s.radio.slotA ≠ none ∨ s.radio.slotB ≠ none) ∧ s.radio.state = .attached ∧ atRest s ∧ partWorks s = true ∧
        s.events.entries.length = 11 ∧ s.path.path = .radio ∧ s.loader.softReset = .none ∧ (¬ (s.pins.offhook = true ∨
        s.loader.policy.pathOverride = .radioNow ∨ (s.loader.policy.pathOverride = .automatic ∧ s.path.dwell ≠ .met) ∨
        (s.loader.policy.pathOverride = .fibreOnly ∧ s.path.priorityTimer ≠ none))) :=
  ⟨_, _, { attached with
      path.path := .radio, path.radioWanted := true, path.dwell := .met,
      radio.slotA := some ⟨⟨.data, .uplink, 60, [0], 0, 0, none⟩, true, some 100⟩,
      radio.slotB := some ⟨⟨.data, .uplink, 60, [1], 0, 0, none⟩, false, some 200⟩, pacer.chargeA := some 832, pacer.chargeB := some 832,
      hold.freeList := (List.range 256).drop 2 }, rfl, rfl, by decide +kernel⟩

theorem test_meets_RadioLeavesAttached_5c : ∃ (back : FrameClass → List FrameRecord) (gone : List FrameRecord) (s : State),
    (back = fun cl => [s.radio.slotB, s.radio.slotA].filterMap fun x => x.bind fun b =>
        if b.record.cls = cl ∧ b.record.refusals + 1 < 16 then some { b.record with refusals := b.record.refusals + 1 } else none) ∧ (gone =
        [s.radio.slotA, s.radio.slotB].filterMap fun x => x.bind fun b => if 15 ≤ b.record.refusals then some b.record else none) ∧ receiverReady
        s = true ∧ (s.radio.slotA ≠ none ∨ s.radio.slotB ≠ none) ∧ s.radio.state = .attached ∧ atRest s ∧ partWorks s = true ∧
        s.events.entries.length = 11 ∧ s.path.radioWanted = false ∧ s.path.emergency = false ∧ s.loader.policy.warm = true ∧ s.power.mode =
        .mains :=
  ⟨_, _, { attached with
      radio.slotA := some ⟨⟨.data, .uplink, 60, [0], 0, 14, none⟩, true, some 100⟩,
      radio.slotB := some ⟨⟨.data, .uplink, 60, [1], 0, 15, none⟩, false, some 200⟩, pacer.chargeA := some 832, pacer.chargeB := some 832,
      hold.freeList := (List.range 256).drop 2 }, rfl, rfl, by decide +kernel⟩

theorem test_meets_RadioLeavesAttached_6 : ∃ (s : State),
    s.radio.state ≠ .attached :=
  ⟨attaching, by decide +kernel⟩

theorem test_meets_SendResultsSettleTheSlot_1 : ∃ (tag : Byte) (s : State),
    receiverReady s = true ∧ slotOfRadio s (resultSlot tag) = none :=
  ⟨1, attached, by decide +kernel⟩

theorem test_meets_SendResultsSettleTheSlot_2 : ∃ (tag : Byte) (slot : Slot) (b : BusySlot) (s : State),
    (∀ q live r, s.radio.ldo ≠ some (.sendUp q live r)) ∧ receiverReady s = true ∧ resultSlot tag = slot ∧ resultRefused tag = false ∧
    slotOfRadio s slot = some b ∧ atRest s ∧ uplinkEmpty s = true :=
  ⟨0, .a, ⟨⟨.data, .uplink, 60, [0], 0, 0, none⟩, true, some 100⟩, { attached with
      path.path := .radio, path.radioWanted := true, radio.slotA := some ⟨⟨.data, .uplink, 60, [0], 0, 0, none⟩, true, some 100⟩,
      pacer.chargeA := some 832, hold.freeList := (List.range 256).drop 1 }, fun _ _ _ => nofun, by decide +kernel⟩

theorem test_meets_SendResultsSettleTheSlot_2_voice : ∃ (tag : Byte) (slot : Slot) (b : BusySlot) (s : State),
    (∀ q live r, s.radio.ldo ≠ some (.sendUp q live r)) ∧ receiverReady s = true ∧ resultSlot tag = slot ∧ resultRefused tag = false ∧
    slotOfRadio s slot = some b ∧ atRest s ∧ uplinkEmpty s = true ∧ b.record.cls = .voice ∧ b.record.cells ≠ [] ∧ s.hold.paused = true ∧
    s.hold.freeList.length + b.record.cells.length = s.loader.policy.lowWater + 1 ∧ s.path.returnPause = false :=
  ⟨0, .a, ⟨⟨.voice, .uplink, 60, [0], 0, 0, none⟩, true, some 100⟩, { attached with
      path.path := .radio, path.radioWanted := true, radio.slotA := some ⟨⟨.voice, .uplink, 60, [0], 0, 0, none⟩, true, some 100⟩,
      pacer.chargeA := some 832, hold.freeList := (List.range 129).drop 1, hold.paused := true }, fun _ _ _ => nofun, by decide +kernel⟩

theorem test_meets_SendResultsSettleTheSlot_3a : ∃ (tag : Byte) (slot : Slot) (b : BusySlot) (s : State),
    (∀ q live r, s.radio.ldo ≠ some (.sendUp q live r)) ∧ receiverReady s = true ∧ resultSlot tag = slot ∧ resultRefused tag = true ∧ slotOfRadio
    s slot = some b ∧ atRest s ∧ s.events.counters.length = 10 ∧ b.record.refusals + 1 < 16 :=
  ⟨16, .a, ⟨⟨.voice, .uplink, 60, [0], 0, 14, none⟩, true, some 100⟩, { attached with
      path.path := .radio, path.radioWanted := true, radio.slotA := some ⟨⟨.voice, .uplink, 60, [0], 0, 14, none⟩, true, some 100⟩,
      pacer.chargeA := some 832, hold.freeList := (List.range 256).drop 1 }, fun _ _ _ => nofun, by decide +kernel⟩

theorem test_meets_SendResultsSettleTheSlot_3b : ∃ (tag : Byte) (slot : Slot) (b : BusySlot) (s : State),
    (∀ q live r, s.radio.ldo ≠ some (.sendUp q live r)) ∧ receiverReady s = true ∧ resultSlot tag = slot ∧ resultRefused tag = true ∧ slotOfRadio
    s slot = some b ∧ atRest s ∧ s.events.counters.length = 10 ∧ 16 ≤ b.record.refusals + 1 :=
  ⟨16, .a, ⟨⟨.data, .uplink, 60, [0], 0, 15, none⟩, true, some 100⟩, { attached with
      path.path := .radio, path.radioWanted := true, radio.slotA := some ⟨⟨.data, .uplink, 60, [0], 0, 15, none⟩, true, some 100⟩,
      pacer.chargeA := some 832, hold.freeList := (List.range 256).drop 1 }, fun _ _ _ => nofun, by decide +kernel⟩

theorem test_meets_SendResultsSettleTheSlot_3c : ∃ (tag : Byte) (slot : Slot) (b : BusySlot) (s : State),
    (∀ q live r, s.radio.ldo ≠ some (.sendUp q live r)) ∧ receiverReady s = true ∧ resultSlot tag = slot ∧ resultRefused tag = true ∧ slotOfRadio
    s slot = some b ∧ atRest s ∧ s.events.counters.length = 10 ∧ 16 ≤ b.record.refusals + 1 ∧ b.record.cls ≠ .data ∧ b.record.cells ≠ [] ∧
    s.hold.paused = true ∧ s.hold.freeList.length + b.record.cells.length = s.loader.policy.lowWater ∧ s.path.returnPause = false :=
  ⟨16, .a, ⟨⟨.voicePriority, .uplink, 60, [0], 0, 15, none⟩, true, some 100⟩, { attached with
      path.path := .radio, path.radioWanted := true, radio.slotA := some ⟨⟨.voicePriority, .uplink, 60, [0], 0, 15, none⟩, true, some 100⟩,
      pacer.chargeA := some 832, hold.freeList := (List.range 128).drop 1, hold.paused := true }, fun _ _ _ => nofun, by decide +kernel⟩

theorem test_meets_SendResultsSettleTheSlot_4a : ∃ (slot : Slot) (b : BusySlot) (s : State),
    (∀ q live r, s.radio.ldo ≠ some (.sendUp q live r)) ∧ slotOfRadio s slot = some b ∧ atRest s ∧ s.events.counters.length = 10 ∧
    b.record.refusals + 1 < 16 :=
  ⟨.a, ⟨⟨.voicePriority, .uplink, 60, [0], 0, 14, none⟩, true, some 100⟩, { attached with
      path.path := .radio, path.radioWanted := true, radio.slotA := some ⟨⟨.voicePriority, .uplink, 60, [0], 0, 14, none⟩, true, some 100⟩,
      pacer.chargeA := some 832, hold.freeList := (List.range 256).drop 1 }, fun _ _ _ => nofun, by decide +kernel⟩

theorem test_meets_SendResultsSettleTheSlot_4b : ∃ (slot : Slot) (b : BusySlot) (s : State),
    (∀ q live r, s.radio.ldo ≠ some (.sendUp q live r)) ∧ slotOfRadio s slot = some b ∧ atRest s ∧ s.events.counters.length = 10 ∧ 16 ≤
    b.record.refusals + 1 :=
  ⟨.a, ⟨⟨.voice, .uplink, 60, [0], 0, 15, none⟩, true, some 100⟩, { attached with
      path.path := .radio, path.radioWanted := true, radio.slotA := some ⟨⟨.voice, .uplink, 60, [0], 0, 15, none⟩, true, some 100⟩,
      pacer.chargeA := some 832, hold.freeList := (List.range 256).drop 1 }, fun _ _ _ => nofun, by decide +kernel⟩

theorem test_meets_SendResultsSettleTheSlot_5a : ∃ (tag : Byte) (slot : Slot) (b : BusySlot) (u : Nat) (al : Allowance) (s : State),
    (∀ q live r, s.radio.ldo ≠ some (.sendUp q live r)) ∧ receiverReady s = true ∧ resultSlot tag = slot ∧ resultRefused tag = false ∧
    slotOfRadio s slot = some b ∧ b.record.cls = .data ∧ b.record.cells ≠ [] ∧ atRest s ∧ uplinkEmpty s = true ∧ s.events.entries.length = 11 ∧ u
    = min (s.pacer.usageBase.getD 0 * 1024 + (s.pacer.carried + b.record.length)) (2 ^ 64 - 1) ∧ al = (if s.loader.policy.allowanceMiB = 0 then
    .normal else if s.loader.policy.allowanceMiB * 1048576 ≤ u then .exhausted else if s.loader.policy.allowanceMiB * 917504 ≤ u then .warned
    else .normal) ∧ al = s.pacer.allowance :=
  ⟨0, .a, ⟨⟨.data, .uplink, 60, [0], 0, 0, none⟩, true, some 100⟩, 7340031, .normal, { attached with
      path.path := .radio, path.radioWanted := true, radio.slotA := some ⟨⟨.data, .uplink, 60, [0], 0, 0, none⟩, true, some 100⟩,
      pacer.chargeA := some 832, hold.freeList := (List.range 256).drop 1, loader.policy.allowanceMiB := 8, pacer.carried := 7339971 }, fun _ _ _
    => nofun, by decide +kernel⟩

theorem test_meets_SendResultsSettleTheSlot_5b : ∃ (tag : Byte) (slot : Slot) (b : BusySlot) (u : Nat) (al : Allowance) (s : State),
    (∀ q live r, s.radio.ldo ≠ some (.sendUp q live r)) ∧ receiverReady s = true ∧ resultSlot tag = slot ∧ resultRefused tag = false ∧
    slotOfRadio s slot = some b ∧ b.record.cls = .data ∧ b.record.cells ≠ [] ∧ atRest s ∧ uplinkEmpty s = true ∧ s.events.entries.length = 11 ∧ u
    = min (s.pacer.usageBase.getD 0 * 1024 + (s.pacer.carried + b.record.length)) (2 ^ 64 - 1) ∧ al = (if s.loader.policy.allowanceMiB = 0 then
    .normal else if s.loader.policy.allowanceMiB * 1048576 ≤ u then .exhausted else if s.loader.policy.allowanceMiB * 917504 ≤ u then .warned
    else .normal) ∧ al ≠ s.pacer.allowance ∧ al ≠ .exhausted :=
  ⟨0, .a, ⟨⟨.data, .uplink, 60, [0], 0, 0, none⟩, true, some 100⟩, 7340032, .warned, { attached with
      path.path := .radio, path.radioWanted := true, radio.slotA := some ⟨⟨.data, .uplink, 60, [0], 0, 0, none⟩, true, some 100⟩,
      pacer.chargeA := some 832, hold.freeList := (List.range 256).drop 1, loader.policy.allowanceMiB := 8, pacer.carried := 7339972 }, fun _ _ _
    => nofun, by decide +kernel⟩

theorem test_meets_SendResultsSettleTheSlot_5c : ∃ (tag : Byte) (slot : Slot) (b : BusySlot) (u : Nat) (al : Allowance) (s : State),
    (∀ q live r, s.radio.ldo ≠ some (.sendUp q live r)) ∧ receiverReady s = true ∧ resultSlot tag = slot ∧ resultRefused tag = false ∧
    slotOfRadio s slot = some b ∧ b.record.cls = .data ∧ b.record.cells ≠ [] ∧ atRest s ∧ uplinkEmpty s = true ∧ s.events.entries.length = 11 ∧ u
    = min (s.pacer.usageBase.getD 0 * 1024 + (s.pacer.carried + b.record.length)) (2 ^ 64 - 1) ∧ al = (if s.loader.policy.allowanceMiB = 0 then
    .normal else if s.loader.policy.allowanceMiB * 1048576 ≤ u then .exhausted else if s.loader.policy.allowanceMiB * 917504 ≤ u then .warned
    else .normal) ∧ al ≠ s.pacer.allowance ∧ al = .exhausted :=
  ⟨0, .a, ⟨⟨.data, .uplink, 60, [0], 0, 0, none⟩, true, some 100⟩, 8388608, .exhausted, { attached with
      path.path := .radio, path.radioWanted := true, radio.slotA := some ⟨⟨.data, .uplink, 60, [0], 0, 0, none⟩, true, some 100⟩,
      pacer.chargeA := some 832, hold.freeList := (List.range 256).drop 1, loader.policy.allowanceMiB := 8, pacer.carried := 8388548,
      loader.policy.trickle := 64 }, fun _ _ _ => nofun, by decide +kernel⟩

theorem test_meets_SendResultsSettleTheSlot_5d : ∃ (tag : Byte) (slot : Slot) (b : BusySlot) (u : Nat) (al : Allowance) (s : State),
    (∀ q live r, s.radio.ldo ≠ some (.sendUp q live r)) ∧ receiverReady s = true ∧ resultSlot tag = slot ∧ resultRefused tag = false ∧
    slotOfRadio s slot = some b ∧ b.record.cls = .data ∧ b.record.cells ≠ [] ∧ atRest s ∧ uplinkEmpty s = true ∧ s.events.entries.length = 11 ∧ u
    = min (s.pacer.usageBase.getD 0 * 1024 + (s.pacer.carried + b.record.length)) (2 ^ 64 - 1) ∧ al = (if s.loader.policy.allowanceMiB = 0 then
    .normal else if s.loader.policy.allowanceMiB * 1048576 ≤ u then .exhausted else if s.loader.policy.allowanceMiB * 917504 ≤ u then .warned
    else .normal) ∧ s.hold.paused = true ∧ s.path.returnPause = false :=
  ⟨0, .a, ⟨⟨.data, .uplink, 60, [0], 0, 0, none⟩, true, some 100⟩, 60, .normal, { attached with
      path.path := .radio, path.radioWanted := true, radio.slotA := some ⟨⟨.data, .uplink, 60, [0], 0, 0, none⟩, true, some 100⟩,
      pacer.chargeA := some 832, loader.policy.allowanceMiB := 8, pacer.carried := 0, hold.paused := true, hold.freeList := List.range 72 }, fun
    _ _ _ => nofun, by decide +kernel⟩

theorem test_meets_DeliverDownFillsHold_1a : ∃ (tag : Byte) (length : BitVec 16) (cls : FrameClass) (s : State),
    receiverReady s = true ∧ atRest s ∧ cls = (if tag = 1 then .voice else if tag = 2 then .voicePriority else .data) ∧ 1 ≤ length.toNat ∧
    length.toNat ≤ 2047 ∧ s.loader.softReset = .none ∧ (length.toNat + 255) / 256 + (if cls = .data then s.loader.policy.voiceReserve else 0) ≤
    s.hold.freeList.length ∧ s.hold.freeList.length = (length.toNat + 255) / 256 + s.loader.policy.voiceReserve :=
  ⟨0, 2047, .data, { attached with hold.freeList := List.range 32 }, by decide +kernel⟩

theorem test_meets_DeliverDownFillsHold_1b : ∃ (tag : Byte) (length : BitVec 16) (cls : FrameClass) (s : State),
    receiverReady s = true ∧ atRest s ∧ cls = (if tag = 1 then .voice else if tag = 2 then .voicePriority else .data) ∧ 1 ≤ length.toNat ∧
    length.toNat ≤ 2047 ∧ s.loader.softReset = .none ∧ (length.toNat + 255) / 256 + (if cls = .data then s.loader.policy.voiceReserve else 0) ≤
    s.hold.freeList.length ∧ s.hold.freeList.length = 1 :=
  ⟨2, 1, .voicePriority, { attached with hold.freeList := [9] }, by decide +kernel⟩

theorem test_meets_DeliverDownFillsHold_1c : ∃ (tag : Byte) (length : BitVec 16) (cls : FrameClass) (s : State),
    receiverReady s = true ∧ atRest s ∧ cls = (if tag = 1 then .voice else if tag = 2 then .voicePriority else .data) ∧ 1 ≤ length.toNat ∧
    length.toNat ≤ 2047 ∧ s.loader.softReset = .none ∧ (length.toNat + 255) / 256 + (if cls = .data then s.loader.policy.voiceReserve else 0) ≤
    s.hold.freeList.length ∧ s.hold.paused = false ∧ s.path.returnPause = false ∧ s.hold.freeList.length - (length.toNat + 255) / 256 <
    s.loader.policy.highWater :=
  ⟨1, 60, .voice, { attached with hold.freeList := List.range 40 }, by decide +kernel⟩

theorem test_meets_DeliverDownFillsHold_2a : ∃ (tag : Byte) (length : BitVec 16) (s : State),
    receiverReady s = true ∧ atRest s ∧ 1 ≤ length.toNat ∧ length.toNat ≤ 2047 ∧ s.loader.softReset = .none ∧ s.events.counters.length = 10 ∧
    (s.hold.freeList.length < (length.toNat + 255) / 256 + (if tag = 1 ∨ tag = 2 then 0 else s.loader.policy.voiceReserve)) ∧
    s.hold.freeList.length + 1 = (length.toNat + 255) / 256 + s.loader.policy.voiceReserve :=
  ⟨3, 2047, { attached with hold.freeList := List.range 31 }, by decide +kernel⟩

theorem test_meets_DeliverDownFillsHold_2b : ∃ (tag : Byte) (length : BitVec 16) (s : State),
    receiverReady s = true ∧ atRest s ∧ 1 ≤ length.toNat ∧ length.toNat ≤ 2047 ∧ s.loader.softReset = .none ∧ s.events.counters.length = 10 ∧
    (s.hold.freeList.length < (length.toNat + 255) / 256 + (if tag = 1 ∨ tag = 2 then 0 else s.loader.policy.voiceReserve)) :=
  ⟨1, 1, { attached with hold.freeList := [] }, by decide +kernel⟩

theorem test_meets_DeliverDownFillsHold_closing_voice : ∃ (tag : Byte) (length : BitVec 16) (cls : FrameClass) (s : State),
    receiverReady s = true ∧ s.bus.waiting = [] ∧ cls = (if tag = 1 then .voice else if tag = 2 then .voicePriority else .data) ∧ 1 ≤ length.toNat ∧
    length.toNat ≤ 2047 ∧ s.path.path = .returning ∧ s.path.phase = some .closing ∧ s.loader.softReset ≠ .waiting ∧ s.loader.softReset ≠ .completing ∧
    s.events.counters.length = 10 ∧ s.events.entries.length = 11 ∧ cls ≠ .data ∧ s.ring.delivery ≠ none :=
  ⟨2, 1, .voicePriority, { attached with
      path.path := .returning, path.phase := some .closing,
      ring.delivery := some ⟨⟨.data, .downlink, 5, [0], 0, 0, none⟩, .status, 0, false, false⟩ }, by decide +kernel⟩

theorem test_meets_DeliverDownFillsHold_closing_data : ∃ (tag : Byte) (length : BitVec 16) (cls : FrameClass) (s : State),
    receiverReady s = true ∧ s.bus.waiting = [] ∧ cls = (if tag = 1 then .voice else if tag = 2 then .voicePriority else .data) ∧ 1 ≤ length.toNat ∧
    length.toNat ≤ 2047 ∧ s.path.path = .returning ∧ s.path.phase = some .closing ∧ s.loader.softReset ≠ .waiting ∧ s.loader.softReset ≠ .completing ∧
    s.events.counters.length = 10 ∧ s.events.entries.length = 11 ∧ cls = .data :=
  ⟨3, 2047, .data, { attached with path.path := .returning, path.phase := some .closing }, by decide +kernel⟩

theorem test_meets_DeliverDownFillsHold_soft_waiting : ∃ (tag : Byte) (length : BitVec 16) (s : State),
    receiverReady s = true ∧ s.bus.waiting = [] ∧ 1 ≤ length.toNat ∧ length.toNat ≤ 2047 ∧ (s.loader.softReset = .waiting ∨ s.loader.softReset =
    .completing) ∧ s.events.counters.length = 10 ∧ s.loader.softReset = .waiting ∧ s.path.phase = some .closing :=
  ⟨1, 2047, { attached with path.path := .returning, path.phase := some .closing, loader.softReset := .waiting }, by decide +kernel⟩

theorem test_meets_DeliverDownFillsHold_soft_completing : ∃ (tag : Byte) (length : BitVec 16) (s : State),
    receiverReady s = true ∧ s.bus.waiting = [] ∧ 1 ≤ length.toNat ∧ length.toNat ≤ 2047 ∧ (s.loader.softReset = .waiting ∨ s.loader.softReset =
    .completing) ∧ s.events.counters.length = 10 ∧ s.loader.softReset = .completing :=
  ⟨0, 1, { attached with path.path := .held, loader.softReset := .completing, ring.fence := some 3, ring.partTxc := some 3 }, by decide +kernel⟩

theorem test_meets_DeliverDownFillsHold_3 : ∃ (s : State),
    receiverReady s = true ∧ atRest s :=
  ⟨attached, by decide +kernel⟩

theorem test_meets_DeliverDownFillsHold_4 : ∃ (p : List Byte) (x : FrameRecord) (s : State),
    s.radio.receiver = .payload ⟨some x, p.length, .ordinary⟩ ∧ ldiRuns s = true ∧ s.path.phase ≠ some .closing ∧ s.path.path ≠ .fibre ∧ ringIdle
    s ∧ bufferAvailable s = false ∧ x.direction = .downlink ∧ Memory.wf s.hold.cells = true ∧ x.cells.Nodup ∧ p.length ≤ 256 * x.cells.length :=
  ⟨[1, 2, 3], ⟨.voice, .downlink, 3, [5], 0, 0, none⟩, { attached with
      path.path := .radio, radio.receiver := .payload ⟨some ⟨.voice, .downlink, 3, [5], 0, 0, none⟩, 3, .ordinary⟩ }, by decide +kernel⟩

theorem test_meets_DeliverDownFillsHold_5 : ∃ (p : List Byte) (x : FrameRecord) (s : State),
    (∀ q live r, s.radio.ldo ≠ some (.sendUp q live r)) ∧ s.radio.receiver = .payload ⟨some x, p.length, .ordinary⟩ ∧ ldiRuns s = true ∧
    s.path.phase = none ∧ s.path.path = .fibre ∧ ringIdle s ∧ x.cls = .data ∧ x.direction = .downlink ∧ s.events.counters.length = 10 ∧
    s.events.entries.length = 11 :=
  ⟨[1, 2, 3], ⟨.data, .downlink, 3, [5], 0, 0, none⟩, { attached with
      radio.receiver := .payload ⟨some ⟨.data, .downlink, 3, [5], 0, 0, none⟩, 3, .ordinary⟩ }, fun _ _ _ => nofun, by decide +kernel⟩

theorem test_meets_DeliverDownFillsHold_5_voice : ∃ (p : List Byte) (x : FrameRecord) (s : State),
    (∀ q live r, s.radio.ldo ≠ some (.sendUp q live r)) ∧ s.radio.receiver = .payload ⟨some x, p.length, .ordinary⟩ ∧ ldiRuns s = true ∧
    s.path.phase = none ∧ s.path.path = .fibre ∧ ringIdle s ∧ x.cls ≠ .data ∧ x.direction = .downlink ∧ s.events.counters.length = 10 ∧
    s.events.entries.length = 11 :=
  ⟨[1, 2, 3], ⟨.voicePriority, .downlink, 3, [5], 0, 0, none⟩, { attached with
      radio.receiver := .payload ⟨some ⟨.voicePriority, .downlink, 3, [5], 0, 0, none⟩, 3, .ordinary⟩ }, fun _ _ _ => nofun, by decide +kernel⟩

theorem test_meets_LinkFramingErrorsAreCounted_1a : ∃ (type : Byte) (length : BitVec 16) (s : State),
    receiverReady s = true ∧ s.events.counters.length = 10 ∧ (2047 < length.toNat ∨ (type ≠ 0x81 ∧ type ≠ 0x82 ∧ type ≠ 0x83 ∧ type ≠ 0x84 ∧ type
    ≠ 0x85 ∧ type ≠ 0x86) ∨ ((type = 0x81 ∨ type = 0x82 ∨ type = 0x84 ∨ type = 0x86) ∧ length ≠ 0) ∨ (type = 0x83 ∧ length ≠ 5)) ∧ 2047 <
    length.toNat ∧ type = 0x85 :=
  ⟨0x85, 2048, attached, by decide +kernel⟩

theorem test_meets_LinkFramingErrorsAreCounted_1b : ∃ (type : Byte) (length : BitVec 16) (s : State),
    receiverReady s = true ∧ s.events.counters.length = 10 ∧ (2047 < length.toNat ∨ (type ≠ 0x81 ∧ type ≠ 0x82 ∧ type ≠ 0x83 ∧ type ≠ 0x84 ∧ type
    ≠ 0x85 ∧ type ≠ 0x86) ∨ ((type = 0x81 ∨ type = 0x82 ∨ type = 0x84 ∨ type = 0x86) ∧ length ≠ 0) ∨ (type = 0x83 ∧ length ≠ 5)) ∧ 65535 ≤
    (counterOf s .linkFramingErrors).value ∧ type ≠ 0x85 :=
  ⟨0x83, 4, { attached with events.counters := List.replicate 10 ⟨65535, false⟩ }, by decide +kernel⟩

theorem test_meets_LinkFramingErrorsAreCounted_2 : ∃ (s : State),
    ldiRuns s = true ∧ s.radio.receiver ≠ .resync ∧ s.events.counters.length = 10 ∧ s.radio.receiver = .payload ⟨some ⟨.data, .downlink, 3, [5],
    0, 0, none⟩, 3, .ordinary⟩ ∧ atRest s :=
  ⟨{ attached with radio.receiver := .payload ⟨some ⟨.data, .downlink, 3, [5], 0, 0, none⟩, 3, .ordinary⟩ }, by decide +kernel⟩

theorem test_meets_LinkFramingErrorsAreCounted_3 : ∃ (s : State),
    lclkRuns s = true ∧ s.radio.receiver = .resync :=
  ⟨{ attached with radio.receiver := .resync }, by decide +kernel⟩

theorem test_meets_ControlMessagesBeginInOrder_1a : ∃ (b : Bool) (c : Instr) (s : State),
    c ∈ [Instr.attachRequest b, .detachRequest b, .sendUp b, .pauseDown b, .resumeDown b, .downCap b, .lowPower b] ∧ (b = false ∨ ldoFree s =
    false) :=
  ⟨false, .sendUp false, attached, by decide +kernel⟩

theorem test_meets_ControlMessagesBeginInOrder_1b : ∃ (b : Bool) (c : Instr) (s : State),
    c ∈ [Instr.attachRequest b, .detachRequest b, .sendUp b, .pauseDown b, .resumeDown b, .downCap b, .lowPower b] ∧ (b = false ∨ ldoFree s =
    false) :=
  ⟨true, .downCap true, { attached with radio.ldo := some (.lowPower true true) }, by decide +kernel⟩

theorem test_meets_ControlMessagesBeginInOrder_2a : ∃ (on : Bool) (s : State),
    ldoFree s = true ∧ s.radio.items.lowPower = some on ∧ s.power.step ≠ .entering .link :=
  ⟨true, { attached with radio.items.lowPower := some true }, by decide +kernel⟩

theorem test_meets_ControlMessagesBeginInOrder_2b : ∃ (on : Bool) (s : State),
    ldoFree s = true ∧ s.radio.items.lowPower = some on ∧ s.power.step = .entering .link :=
  ⟨true, { attached with power.mode := .reserve, power.step := .entering .link, radio.items.lowPower := some true }, by decide +kernel⟩

theorem test_meets_ControlMessagesBeginInOrder_3 : ∃ (on : Bool) (c : Instr) (s : State),
    s.radio.items.lowPower = some on ∧ c ∈ [Instr.attachRequest true, .detachRequest true, .sendUp true, .pauseDown true, .resumeDown true,
    .downCap true] :=
  ⟨false, .sendUp true, { attached with radio.items.lowPower := some false }, by decide +kernel⟩

theorem test_meets_ControlMessagesBeginInOrder_4 : ∃ (s : State),
    ldoFree s = true ∧ s.radio.items.lowPower = none ∧ s.radio.items.downCap = true ∧ s.pacer.downlinkCap ≠ s.radio.capTold :=
  ⟨{ attached with radio.items.downCap := true, pacer.downlinkCap := 64 }, by decide +kernel⟩

theorem test_meets_ControlMessagesBeginInOrder_5 : ∃ (s : State),
    ldoFree s = true ∧ s.radio.items.lowPower = none ∧ s.radio.items.downCap = false ∧ s.radio.items.pause = true ∧ (s.hold.paused = true ∨
    s.path.returnPause = true) ∧ s.radio.pauseTold = false :=
  ⟨{ attached with radio.items.pause := true, hold.paused := true }, by decide +kernel⟩

theorem test_meets_ControlMessagesBeginInOrder_6 : ∃ (s : State),
    ldoFree s = true ∧ s.radio.items.lowPower = none ∧ s.radio.items.downCap = false ∧ s.radio.items.pause = true ∧ s.hold.paused = false ∧
    s.path.returnPause = false ∧ s.radio.pauseTold = true :=
  ⟨{ attached with radio.items.pause := true, radio.pauseTold := true }, by decide +kernel⟩

theorem test_meets_ControlMessagesBeginInOrder_7 : ∃ (s : State),
    ldoFree s = true ∧ s.radio.items.lowPower = none ∧ s.radio.items.downCap = false ∧ s.radio.items.pause = false ∧ s.radio.items.detach = true
    :=
  ⟨{ attached with radio.items.detach := true }, by decide +kernel⟩

theorem test_meets_ControlMessagesBeginInOrder_8a : ∃ (s : State),
    ldoFree s = true ∧ s.radio.items.lowPower = none ∧ s.radio.items.downCap = false ∧ s.radio.items.pause = false ∧ s.radio.items.detach = false
    ∧ s.radio.items.attach = true ∧ s.events.entries.length = 11 ∧ s.path.emergency = true :=
  ⟨{ attaching with radio.items.attach := true, path.emergency := true }, by decide +kernel⟩

theorem test_meets_ControlMessagesBeginInOrder_8b : ∃ (s : State),
    ldoFree s = true ∧ s.radio.items.lowPower = none ∧ s.radio.items.downCap = false ∧ s.radio.items.pause = false ∧ s.radio.items.detach = false
    ∧ s.radio.items.attach = true ∧ s.events.entries.length = 11 ∧ s.path.emergency = false :=
  ⟨{ attaching with radio.items.attach := true, path.radioWanted := true }, by decide +kernel⟩

theorem test_meets_ControlMessagesBeginInOrder_9 : ∃ (c : Instr) (s : State),
    s.radio.items.lowPower = none ∧ s.radio.items.downCap = true ∧ s.pacer.downlinkCap ≠ s.radio.capTold ∧ c ∈ [Instr.attachRequest true,
    .detachRequest true, .sendUp true, .pauseDown true, .resumeDown true] ∧ ldoFree s = true :=
  ⟨.detachRequest true, { attached with radio.items.downCap := true, pacer.downlinkCap := 64, radio.items.detach := true }, by decide +kernel⟩

theorem test_meets_ControlMessagesBeginInOrder_10a : ∃ (c : Instr) (s : State),
    s.radio.items.lowPower = none ∧ s.radio.items.downCap = false ∧ s.radio.items.pause = true ∧ (s.hold.paused || s.path.returnPause) ≠
    s.radio.pauseTold ∧ c ∈ [Instr.attachRequest true, .detachRequest true, .sendUp true, .downCap true, .lowPower true, (if (s.hold.paused ||
    s.path.returnPause) then .resumeDown true else .pauseDown true)] ∧ ldoFree s = true :=
  ⟨.detachRequest true, { attached with radio.items.pause := true, hold.paused := true, radio.items.detach := true }, by decide +kernel⟩

theorem test_meets_ControlMessagesBeginInOrder_10b : ∃ (c : Instr) (s : State),
    s.radio.items.lowPower = none ∧ s.radio.items.downCap = false ∧ s.radio.items.pause = true ∧ (s.hold.paused || s.path.returnPause) ≠
    s.radio.pauseTold ∧ c ∈ [Instr.attachRequest true, .detachRequest true, .sendUp true, .downCap true, .lowPower true, (if (s.hold.paused ||
    s.path.returnPause) then .resumeDown true else .pauseDown true)] ∧ ldoFree s = true :=
  ⟨.sendUp true, { attached with radio.items.pause := true, radio.pauseTold := true, radio.unsent := [.a] }, by decide +kernel⟩

theorem test_meets_ControlMessagesBeginInOrder_11 : ∃ (c : Instr) (s : State),
    s.radio.items.lowPower = none ∧ s.radio.items.downCap = false ∧ s.radio.items.pause = false ∧ s.radio.items.detach = true ∧ c ∈
    [Instr.attachRequest true, .sendUp true] ∧ ldoFree s = true :=
  ⟨.sendUp true, { attached with radio.items.detach := true, radio.unsent := [.a] }, by decide +kernel⟩

theorem test_meets_ControlMessagesBeginInOrder_12 : ∃ (c : Instr) (s : State),
    s.radio.items.lowPower = none ∧ s.radio.items.downCap = false ∧ s.radio.items.pause = false ∧ s.radio.items.detach = false ∧
    s.radio.items.attach = true ∧ c ∈ [Instr.sendUp true] ∧ ldoFree s = true :=
  ⟨.sendUp true, { attached with radio.items.attach := true, radio.unsent := [.a] }, by decide +kernel⟩

theorem test_meets_ControlMessagesBeginInOrder_13 : ∃ (s : State),
    ldoFree s = true ∧ s.radio.items.lowPower = none ∧ s.radio.items.downCap = true ∧ s.pacer.downlinkCap = s.radio.capTold :=
  ⟨{ attached with radio.items.downCap := true, radio.items.pause := true }, by decide +kernel⟩

theorem test_meets_ControlMessagesBeginInOrder_14 : ∃ (c : Instr) (s : State),
    ldoFree s = true ∧ s.radio.items.lowPower = none ∧ s.radio.items.downCap = false ∧ s.radio.items.pause = true ∧ (s.hold.paused ||
    s.path.returnPause) = s.radio.pauseTold ∧ c ∈ [Instr.pauseDown true, .resumeDown true] :=
  ⟨.pauseDown true, { attached with radio.items.pause := true, radio.pauseTold := true, hold.paused := true }, by decide +kernel⟩

theorem test_meets_ControlMessagesBeginInOrder_15 : ∃ (s : State),
    ldoFree s = true ∧ s.radio.items.lowPower = none ∧ (s.radio.items.downCap = true → s.pacer.downlinkCap = s.radio.capTold) ∧
    (s.radio.items.pause = true → (s.hold.paused || s.path.returnPause) = s.radio.pauseTold) ∧ s.radio.items.detach = true ∧
    s.radio.items.downCap = true ∧ s.radio.items.pause = true :=
  ⟨{ attached with radio.items.downCap := true, radio.items.pause := true, radio.items.detach := true }, by decide +kernel⟩

theorem test_meets_SendUpSendsTheSlotsFrame_1 : ∃ (slot : Slot) (rest : List Slot) (b : BusySlot) (s : State),
    ldoFree s = true ∧ s.radio.items = ⟨none, false, false, false, false⟩ ∧ s.radio.unsent = slot :: rest ∧ slotOfRadio s slot = some b :=
  ⟨.b, [], ⟨⟨.voice, .uplink, 60, [0], 0, 0, none⟩, false, some 500⟩, { attached with
      radio.unsent := [.b], radio.slotB := some ⟨⟨.voice, .uplink, 60, [0], 0, 0, none⟩, false, some 500⟩ }, by decide +kernel⟩

theorem test_meets_SendUpSendsTheSlotsFrame_2 : ∃ (slot : Slot) (b : BusySlot) (x : Option FrameRecord) (s : State),
    s.radio.ldo = some (.sendUp slot true x) ∧ slotOfRadio s slot = some b ∧ atRest s :=
  ⟨.a, ⟨⟨.data, .uplink, 60, [0], 0, 0, none⟩, false, some 400⟩, some ⟨.data, .uplink, 60, [0], 0, 0, none⟩, { attached with
      radio.ldo := some (.sendUp .a true (some ⟨.data, .uplink, 60, [0], 0, 0, none⟩)),
      radio.slotA := some ⟨⟨.data, .uplink, 60, [0], 0, 0, none⟩, false, some 400⟩ }, by decide +kernel⟩

theorem test_meets_SendUpSendsTheSlotsFrame_3 : ∃ (slot : Slot) (x : Option FrameRecord) (s : State),
    s.radio.ldo = some (.sendUp slot false x) ∧ atRest s ∧ s.hold.onLdo.flatMap (·.cells) = [3] :=
  ⟨.a, some ⟨.voice, .uplink, 60, [3], 0, 16, none⟩, { attached with
      radio.ldo := some (.sendUp .a false (some ⟨.voice, .uplink, 60, [3], 0, 16, none⟩)),
      hold.onLdo := [⟨.voice, .uplink, 60, [3], 0, 16, none⟩], hold.freeList := [7] }, by decide +kernel⟩

theorem test_meets_SendUpSendsTheSlotsFrame_4a : ∃ (on : Bool) (live : Bool) (s : State),
    s.radio.ldo = some (.lowPower on live) ∧ atRest s ∧ on = true ∧ live = false ∧ s.power.step = .awake :=
  ⟨true, false, { attached with radio.ldo := some (.lowPower true false) }, by decide +kernel⟩

theorem test_meets_SendUpSendsTheSlotsFrame_4b : ∃ (on : Bool) (live : Bool) (s : State),
    s.radio.ldo = some (.lowPower on live) ∧ atRest s ∧ on = false ∧ s.power.step = .awake :=
  ⟨false, false, { attached with radio.ldo := some (.lowPower false false) }, by decide +kernel⟩

theorem test_meets_SendUpSendsTheSlotsFrame_4c : ∃ (on : Bool) (live : Bool) (s : State),
    s.radio.ldo = some (.lowPower on live) ∧ atRest s ∧ live = true ∧ s.power.step = .awake :=
  ⟨true, true, { attached with radio.ldo := some (.lowPower true true) }, by decide +kernel⟩

theorem test_meets_ModuleTimersAct_1 : ∃ (s : State),
    s.radio.mrstTimer.isSome = true :=
  ⟨{ works with radio.mpwr := true, radio.mrstTimer := some 0 }, by decide +kernel⟩

theorem test_meets_ModuleTimersAct_2 : ∃ (s : State),
    s.radio.cycleTimer.isSome = true ∧ atRest s :=
  ⟨{ works with radio.cycleTimer := some 0 }, by decide +kernel⟩

theorem test_meets_ModuleTimersAct_3a : ∃ (s : State),
    s.radio.backoffTimer.isSome = true ∧ s.radio.state = .backoff ∧ s.power.mode ≠ .doze ∧ atRest s ∧ partWorks s = true ∧ s.radio.ready = true ∧
    s.path.radioWanted = true :=
  ⟨{ powered with radio.state := .backoff, radio.backoffTimer := some 0, radio.ready := true, path.radioWanted := true, path.path := .held }, by
    decide +kernel⟩

theorem test_meets_ModuleTimersAct_3b : ∃ (s : State),
    s.radio.backoffTimer.isSome = true ∧ s.radio.state = .backoff ∧ s.power.mode ≠ .doze ∧ atRest s ∧ partWorks s = true ∧ s.radio.ready = true ∧
    s.path.radioWanted = false ∧ s.path.emergency = false ∧ s.loader.policy.warm = true ∧ s.power.mode = .mains :=
  ⟨{ powered with radio.state := .backoff, radio.backoffTimer := some 0, radio.ready := true }, by decide +kernel⟩

theorem test_meets_ModuleTimersAct_3c : ∃ (s : State),
    s.radio.backoffTimer.isSome = true ∧ s.radio.state = .backoff ∧ s.power.mode ≠ .doze ∧ atRest s ∧ partWorks s = true ∧ s.radio.ready = true ∧
    s.path.radioWanted = false ∧ s.path.emergency = false ∧ s.power.mode ≠ .mains :=
  ⟨{ powered with radio.state := .backoff, radio.backoffTimer := some 0, radio.ready := true, power.mode := .reserve }, by decide +kernel⟩

theorem test_meets_ModuleTimersAct_3d : ∃ (s : State),
    s.radio.backoffTimer.isSome = true ∧ s.radio.state = .backoff ∧ s.power.mode ≠ .doze ∧ atRest s ∧ partWorks s = true ∧ s.radio.ready = false
    ∧ s.radio.cycleTimer = none :=
  ⟨{ works with radio.state := .backoff, radio.backoffTimer := some 0 }, by decide +kernel⟩

theorem test_meets_ModuleTimersAct_4 : ∃ (s : State),
    s.radio.backoffTimer.isSome = true ∧ s.power.mode = .doze :=
  ⟨{ dozing with radio.backoffTimer := some 0 }, by decide +kernel⟩

theorem test_meets_ModuleTimersAct_5 : ∃ (s : State),
    s.radio.lingerTimer.isSome = true ∧ s.power.mode ≠ .doze ∧ s.radio.state = .attached ∧ atRest s :=
  ⟨{ attached with radio.lingerTimer := some 0 }, by decide +kernel⟩

theorem test_meets_PlacementCostsEightBitsPerByte_2 : ∃ (x : FrameRecord) (s : State),
    s.pacer.refusalPause.isSome = true ∧ s.radio.state = .attached ∧ s.radio.slotA = none ∧ s.power.mode ≠ .doze ∧ s.loader.softReset = .none ∧
    atRest s ∧ s.hold.uqE = [x] ∧ s.hold.uqV = [] ∧ s.hold.uqD = [] ∧ x.cls = .voicePriority ∧ recordAge s x ≤ s.loader.policy.voiceLifetime ∧
    -(8 * (s.loader.policy.burst : Int)) ≤ s.pacer.credit - ((8 * (x.length + 4 + s.loader.policy.overhead) : Nat) : Int) ∧ -(8 *
    (s.loader.policy.burst : Int)) = s.pacer.credit - ((8 * (x.length + 4 + s.loader.policy.overhead) : Nat) : Int) :=
  ⟨⟨.voicePriority, .uplink, 60, [0], 0, 0, none⟩, { attached with
      path.path := .radio, pacer.refusalPause := some 0, pacer.credit := -64800, hold.uqE := [⟨.voicePriority, .uplink, 60, [0], 0, 0, none⟩] },
    by decide +kernel⟩

theorem test_meets_PlacementCostsEightBitsPerByte_3 : ∃ (x : FrameRecord) (s : State),
    s.pacer.refusalPause.isSome = true ∧ s.radio.state = .attached ∧ s.radio.slotA = none ∧ s.power.mode ≠ .doze ∧ s.loader.softReset = .none ∧
    atRest s ∧ s.hold.uqE = [] ∧ s.hold.uqV = [x] ∧ s.hold.uqD = [] ∧ x.cls = .voice ∧ recordAge s x ≤ s.loader.policy.voiceLifetime ∧ -(8 *
    (s.loader.policy.burst : Int)) ≤ s.pacer.credit - ((8 * (x.length + 4 + s.loader.policy.overhead) : Nat) : Int) ∧ recordAge s x =
    s.loader.policy.voiceLifetime :=
  ⟨⟨.voice, .uplink, 60, [0], 0, 0, none⟩, { attached with
      path.path := .radio, pacer.refusalPause := some 0, clock := 60, hold.uqV := [⟨.voice, .uplink, 60, [0], 0, 0, none⟩] }, by decide +kernel⟩

theorem test_meets_PlacementCostsEightBitsPerByte_4a : ∃ (x : FrameRecord) (s : State),
    s.pacer.refusalPause.isSome = true ∧ s.radio.state = .attached ∧ s.radio.slotA = none ∧ s.power.mode ≠ .doze ∧ s.loader.softReset = .none ∧
    atRest s ∧ s.hold.uqE = [] ∧ s.hold.uqV = [] ∧ s.hold.uqD = [x] ∧ x.cls = .data ∧ ((8 * (x.length + 4 + s.loader.policy.overhead) : Nat) :
    Int) = s.pacer.credit :=
  ⟨⟨.data, .uplink, 60, [0], 0, 0, none⟩, { attached with
      path.path := .radio, pacer.refusalPause := some 0, pacer.credit := 736, hold.uqD := [⟨.data, .uplink, 60, [0], 0, 0, none⟩] }, by
    decide +kernel⟩

theorem test_meets_PlacementCostsEightBitsPerByte_4b : ∃ (x : FrameRecord) (s : State),
    s.pacer.refusalPause.isSome = true ∧ s.radio.state = .attached ∧ s.radio.slotA = none ∧ s.power.mode ≠ .doze ∧ s.loader.softReset = .none ∧
    atRest s ∧ s.hold.uqE = [] ∧ s.hold.uqV = [] ∧ s.hold.uqD = [x] ∧ x.cls = .data ∧ s.pacer.credit < ((8 * (x.length + 4 +
    s.loader.policy.overhead) : Nat) : Int) :=
  ⟨⟨.data, .uplink, 60, [0], 0, 0, none⟩, { attached with
      path.path := .radio, pacer.refusalPause := some 0, pacer.credit := 735, hold.uqD := [⟨.data, .uplink, 60, [0], 0, 0, none⟩] }, by
    decide +kernel⟩

theorem test_meets_PlacementCostsEightBitsPerByte_5 : ∃ (slot : Slot) (b : BusySlot) (k : Nat) (s : State),
    slotOfRadio s slot = some b ∧ chargeOf s slot = some k ∧ ringIdle s ∧ s.hold.dqV = [] ∧ s.hold.dqD = [] :=
  ⟨.a, ⟨⟨.data, .uplink, 60, [0], 0, 0, none⟩, true, some 100⟩, 832, { attached with
      path.path := .radio, path.radioWanted := true, radio.slotA := some ⟨⟨.data, .uplink, 60, [0], 0, 0, none⟩, true, some 100⟩,
      pacer.chargeA := some 832, hold.freeList := (List.range 256).drop 1 }, by decide +kernel⟩

theorem test_meets_PlacementCostsEightBitsPerByte_6 : ∃ (slot : Slot) (b : BusySlot) (a : Addr) (rest : List MasterTransfer) (s : State),
    slotOfRadio s slot = some b ∧ s.bus.queue = ⟨.policyRead true, .read a .sixteen⟩ :: rest ∧ asksSoftReset (s.loader.firstHalf ++ bytesOf
    (memReadWords s.sram a 16)) = false :=
  ⟨.a, ⟨⟨.data, .uplink, 60, [0], 0, 0, none⟩, true, some 100⟩, 0x4040, [], { attached with
      path.path := .radio, path.radioWanted := true, radio.slotA := some ⟨⟨.data, .uplink, 60, [0], 0, 0, none⟩, true, some 100⟩,
      pacer.chargeA := some 832, hold.freeList := (List.range 256).drop 1, bus.queue := [⟨.policyRead true, .read 0x4040 .sixteen⟩],
      loader.readState := .reading, loader.firstHalf := List.replicate 64 0 }, by decide +kernel⟩

/-- What waits in the tests of a placement attempt: an expired record and one just arrived in UQ-E, one in UQ-V, one in UQ-D. -/
def waiting : State :=
  { attached with
    path.path := .radio, clock := 1000, pacer.refusalPause := some 0,
    hold.uqE := [⟨.voicePriority, .uplink, 60, [0], 0, 0, none⟩, ⟨.voicePriority, .uplink, 60, [1], 1000, 0, none⟩],
    hold.uqV := [⟨.voice, .uplink, 60, [2], 0, 0, none⟩], hold.uqD := [⟨.data, .uplink, 60, [3], 0, 0, none⟩],
    hold.freeList := (List.range 256).drop 4 }

/-- A busy slot of the tests. -/
def aBusySlot : BusySlot := ⟨⟨.data, .uplink, 60, [9], 0, 0, none⟩, true, some 9⟩

/-- Slot B when A is busy, behind an expired head; the UQ-V head, expired too, is not examined. -/
theorem test_meets_PlacementCostsEightBitsPerByte_7a : ∃ (c : Instr) (k : Int) (slot : Slot) (other : Slot) (x : FrameRecord)
    (s : State),
    AttemptAt c k s ∧ s.radio.state = .attached ∧ s.power.mode ≠ .doze ∧ s.loader.softReset = .none ∧ atRest s ∧ slot ≠ other ∧
    slotOfRadio s slot = none ∧ slotOfRadio s other ≠ none ∧
    headOf (examined s (uplinkQueues s)) = some x ∧ mayGoOn s k x ∧ slot = .b ∧ (givenUp s (uplinkQueues s)).length = 1 ∧ s.events.counters.length = 10 ∧
    (∀ r ∈ s.hold.uqE ++ s.hold.uqV, r.cls ≠ .data) :=
  ⟨.refusalPauseEnd, 0, .b, .a, ⟨.voicePriority, .uplink, 60, [1], 1000, 0, none⟩, { waiting with radio.slotA := some aBusySlot },
    by simp only [AttemptAt, mayGoOn]; decide +kernel⟩

/-- A voice head that the credit refuses, at a pacing expiry, holds back a data frame that it covers. -/
theorem test_meets_PlacementCostsEightBitsPerByte_7b : ∃ (c : Instr) (k : Int) (slot : Slot) (other : Slot) (x : FrameRecord)
    (s : State),
    AttemptAt c k s ∧ s.radio.state = .attached ∧ s.power.mode ≠ .doze ∧ s.loader.softReset = .none ∧ atRest s ∧ slot ≠ other ∧
    slotOfRadio s slot = none ∧ slotOfRadio s other ≠ none ∧
    headOf (examined s (uplinkQueues s)) = some x ∧ ¬ mayGoOn s k x ∧ x.cls ≠ .data ∧ s.hold.uqD ≠ [] ∧ slot = .a :=
  ⟨.pacingTimerExpiry, -65000, .a, .b, ⟨.voicePriority, .uplink, 60, [1], 1000, 0, none⟩, { waiting with
      pacer.refusalPause := none, pacer.pacing := some 0, pacer.credit := -65060, pacer.grantSeen := true, radio.grantUp := 60,
      radio.slotB := some aBusySlot }, by simp only [AttemptAt, mayGoOn]; decide +kernel⟩

/-- Every voice record has expired: the data head is found; and nothing at all is. -/
theorem test_meets_PlacementCostsEightBitsPerByte_7c : ∃ (c : Instr) (k : Int) (slot : Slot) (other : Slot) (x : FrameRecord)
    (s : State),
    AttemptAt c k s ∧ s.radio.state = .attached ∧ s.power.mode ≠ .doze ∧ s.loader.softReset = .none ∧ atRest s ∧ slot ≠ other ∧
    slotOfRadio s slot = none ∧ slotOfRadio s other ≠ none ∧
    headOf (examined s (uplinkQueues s)) = some x ∧ mayGoOn s k x ∧ x.cls = .data ∧ (givenUp s (uplinkQueues s)).length = 3 :=
  ⟨.refusalPauseEnd, 736, .a, .b, ⟨.data, .uplink, 60, [3], 0, 0, none⟩, { waiting with
      clock := 5000, pacer.credit := 736, radio.slotB := some aBusySlot }, by simp only [AttemptAt, mayGoOn]; decide +kernel⟩

theorem test_meets_PlacementCostsEightBitsPerByte_7d : ∃ (c : Instr) (k : Int) (slot : Slot) (other : Slot) (s : State),
    AttemptAt c k s ∧ s.radio.state = .attached ∧ s.power.mode ≠ .doze ∧ s.loader.softReset = .none ∧ atRest s ∧ slot ≠ other ∧
    slotOfRadio s slot = none ∧ slotOfRadio s other ≠ none ∧
    headOf (examined s (uplinkQueues s)) = none ∧ (givenUp s (uplinkQueues s)).length = 3 :=
  ⟨.refusalPauseEnd, 0, .a, .b, { waiting with clock := 5000, hold.uqD := [], radio.slotB := some aBusySlot }, by simp only [AttemptAt]; decide +kernel⟩

/-- Two placements, UQ-E before UQ-V; one, the second head refused; none. -/
theorem test_meets_PlacementCostsEightBitsPerByte_8a : ∃ (c : Instr) (k : Int) (x : FrameRecord) (y : FrameRecord) (s : State),
    AttemptAt c k s ∧ s.radio.state = .attached ∧ s.power.mode ≠ .doze ∧ s.loader.softReset = .none ∧ atRest s ∧ s.radio.slotA = none ∧
    s.radio.slotB = none ∧
    headOf (examined s (uplinkQueues s)) = some x ∧ mayGoOn s k x ∧ headOf (examined s (behindHead (examined s (uplinkQueues s)))) = some y ∧ mayGoOn s (k - (frameCost s x.length : Int)) y ∧
    x.cls = .voicePriority ∧ y.cls = .voice :=
  ⟨.pacingTimerExpiry, 0, ⟨.voicePriority, .uplink, 60, [1], 1000, 0, none⟩, ⟨.voice, .uplink, 60, [2], 1000, 0, none⟩, { waiting with
      pacer.refusalPause := none, pacer.pacing := some 0, hold.uqV := [⟨.voice, .uplink, 60, [2], 1000, 0, none⟩] }, by simp only [AttemptAt, mayGoOn]; decide +kernel⟩

theorem test_meets_PlacementCostsEightBitsPerByte_8b : ∃ (c : Instr) (k : Int) (x : FrameRecord) (y : FrameRecord) (s : State),
    AttemptAt c k s ∧ s.radio.state = .attached ∧ s.power.mode ≠ .doze ∧ s.loader.softReset = .none ∧ atRest s ∧ s.radio.slotA = none ∧
    s.radio.slotB = none ∧
    headOf (examined s (uplinkQueues s)) = some x ∧ mayGoOn s k x ∧ headOf (examined s (behindHead (examined s (uplinkQueues s)))) = some y ∧ ¬ mayGoOn s (k - (frameCost s x.length : Int)) y ∧
    y.cls = .data ∧ (∀ r ∈ s.hold.uqE ++ s.hold.uqV, outlived s r = false) :=
  ⟨.refusalPauseEnd, 1471, ⟨.data, .uplink, 60, [3], 0, 0, none⟩, ⟨.data, .uplink, 60, [4], 0, 0, none⟩, { waiting with
      pacer.credit := 1471, hold.uqE := [], hold.uqV := [],
      hold.uqD := [⟨.data, .uplink, 60, [3], 0, 0, none⟩, ⟨.data, .uplink, 60, [4], 0, 0, none⟩] }, by simp only [AttemptAt, mayGoOn]; decide +kernel⟩

theorem test_meets_PlacementCostsEightBitsPerByte_8c : ∃ (c : Instr) (k : Int) (x : FrameRecord) (s : State),
    AttemptAt c k s ∧ s.radio.state = .attached ∧ s.power.mode ≠ .doze ∧ s.loader.softReset = .none ∧ atRest s ∧ s.radio.slotA = none ∧
    s.radio.slotB = none ∧
    headOf (examined s (uplinkQueues s)) = some x ∧ ¬ mayGoOn s k x :=
  ⟨.refusalPauseEnd, -65536, ⟨.voicePriority, .uplink, 60, [1], 1000, 0, none⟩, { waiting with pacer.credit := -65536 }, by simp only [AttemptAt, mayGoOn]; decide +kernel⟩

/-- No attempt reaches a head: the radio not ATTACHED, both slots busy, or the refusal pause running at a pacing expiry. -/
theorem test_meets_PlacementCostsEightBitsPerByte_9a : ∃ (c : Instr) (k : Int) (s : State),
    AttemptAt c k s ∧ atRest s ∧ s.radio.state ≠ .attached ∧ s.hold.uqD ≠ [] :=
  ⟨.pacingTimerExpiry, 5, { waiting with
      pacer.refusalPause := none, pacer.pacing := some 0, pacer.credit := 5, pacer.grantSeen := true, radio.grantUp := 60, radio.state := .detached },
    by simp only [AttemptAt]; decide +kernel⟩

theorem test_meets_PlacementCostsEightBitsPerByte_9b : ∃ (c : Instr) (k : Int) (s : State),
    AttemptAt c k s ∧ atRest s ∧ s.radio.state = .attached ∧ s.radio.slotA ≠ none ∧ s.radio.slotB ≠ none ∧ s.hold.uqD ≠ [] :=
  ⟨.refusalPauseEnd, 0, { waiting with radio.slotA := some aBusySlot, radio.slotB := some aBusySlot }, by simp only [AttemptAt]; decide +kernel⟩

theorem test_meets_PlacementCostsEightBitsPerByte_10 : ∃ (s : State),
    s.pacer.pacing.isSome = true ∧ s.pacer.refusalPause ≠ none ∧ atRest s ∧ s.hold.uqD ≠ [] :=
  ⟨{ waiting with pacer.pacing := some 0 }, by decide +kernel⟩

theorem test_meets_SweepsDropTheOld_1 : ∃ (s : State),
    (∀ q live r, s.radio.ldo ≠ some (.sendUp q live r)) ∧ s.hold.sweep10.isSome = true ∧ ringIdle s ∧ bufferAvailable s = false ∧
    s.events.counters.length = 10 ∧ (∀ r ∈ s.hold.uqE ++ s.hold.uqV ++ s.hold.dqV, r.cls ≠ .data) ∧ s.hold.uqE.filter (fun r =>
    s.loader.policy.voiceLifetime < ageOf s.clock r.time) = [] ∧ s.hold.uqV.filter (fun r => s.loader.policy.voiceLifetime < ageOf s.clock
    r.time) = s.hold.uqV :=
  ⟨{ works with
      hold.sweep10 := some 0, clock := 61, hold.uqE := [⟨.voicePriority, .uplink, 60, [0], 1, 0, none⟩],
      hold.uqV := [⟨.voice, .uplink, 60, [1], 0, 0, none⟩] }, fun _ _ _ => nofun, by decide +kernel⟩

theorem test_meets_SweepsDropTheOld_2 : ∃ (s : State),
    (∀ q live r, s.radio.ldo ≠ some (.sendUp q live r)) ∧ s.hold.sweep1s.isSome = true ∧ ringIdle s ∧ bufferAvailable s = false ∧
    (s.hold.uqD.filter (fun r => s.loader.policy.dataHold * 1000 < ageOf s.clock r.time)).length = 1 :=
  ⟨{ works with
      hold.sweep1s := some 0, clock := 15001, hold.uqD := [⟨.data, .uplink, 60, [0], 0, 0, none⟩, ⟨.data, .uplink, 60, [1], 1, 0, none⟩] }, fun _
    _ _ => nofun, by decide +kernel⟩

theorem test_meets_DeliveryWritesFrameThenStatusThenRxf_1a : ∃ (a : Addr) (rest : List MasterTransfer) (d : Delivery) (m : MemoryMap) (b : Addr)
    (n : Nat) (s : State),
    s.bus.queue = ⟨.receiveDescriptorRead, .read a .four⟩ :: rest ∧ s.ring.delivery = some d ∧ s.loader.map = some m ∧ s.bus.waiting = [] ∧
    rest.length ≤ 7 ∧ s.power.mode ≠ .doze ∧ d.wordsIssued = 0 ∧ b = addrOf (field (bytesOf (memReadWords s.sram a 4)) 0 3) ∧ n = field (bytesOf
    (memReadWords s.sram a 4)) 4 2 ∧ min d.record.length n = 0 :=
  ⟨0x2000, [], ⟨⟨.data, .downlink, 5, [0], 0, 0, none⟩, .reading, 0, false, false⟩, map0, 0x010002, 0, { works with
      sram := memWriteWords [] [(0x2000, ⟨0x00010002, 15⟩), (0x2004, ⟨0, 15⟩)], path.path := .radio, ring.fillCursor := some 0,
      ring.delivery := some ⟨⟨.data, .downlink, 5, [0], 0, 0, none⟩, .reading, 0, false, false⟩,
      bus.queue := [⟨.receiveDescriptorRead, .read 0x2000 .four⟩] }, by decide +kernel⟩

theorem test_meets_DeliveryWritesFrameThenStatusThenRxf_1b : ∃ (a : Addr) (rest : List MasterTransfer) (d : Delivery) (m : MemoryMap) (b : Addr)
    (n : Nat) (s : State),
    s.bus.queue = ⟨.receiveDescriptorRead, .read a .four⟩ :: rest ∧ s.ring.delivery = some d ∧ s.loader.map = some m ∧ s.bus.waiting = [] ∧
    rest.length ≤ 7 ∧ s.power.mode ≠ .doze ∧ d.wordsIssued = 0 ∧ b = addrOf (field (bytesOf (memReadWords s.sram a 4)) 0 3) ∧ n = field (bytesOf
    (memReadWords s.sram a 4)) 4 2 ∧ 0 < min d.record.length n :=
  ⟨0x2000, [], ⟨⟨.data, .downlink, 5, [0], 0, 0, none⟩, .reading, 0, false, false⟩, map0, 0x010002, 6, { works with
      sram := memWriteWords [] [(0x2000, ⟨0x00010002, 15⟩), (0x2004, ⟨6, 15⟩)], path.path := .radio, ring.fillCursor := some 0,
      ring.delivery := some ⟨⟨.data, .downlink, 5, [0], 0, 0, none⟩, .reading, 0, false, false⟩,
      bus.queue := [⟨.receiveDescriptorRead, .read 0x2000 .four⟩] }, by decide +kernel⟩

theorem test_meets_DeliveryWritesFrameThenStatusThenRxf_2a : ∃ (d : Delivery) (b : Addr) (n : Nat) (m : MemoryMap) (f : Count) (w : LaneWord) (s
    : State),
    (∀ q live r, s.radio.ldo ≠ some (.sendUp q live r)) ∧ s.ring.delivery = some d ∧ d.stage = .status ∧ d.statusAsked = false ∧
    d.passedByCatchUp = false ∧ s.ring.descriptorHeld = some (b, n) ∧ s.loader.map = some m ∧ s.ring.fillCursor = some f ∧ s.power.mode ≠ .doze ∧
    s.bus.queue.length ≤ 6 ∧ atRest s ∧ s.events.counters.length = 10 ∧ w = ⟨wordOf [if d.record.length ≤ n then 8 else 9, if d.record.cls =
    .data then 2 else 3, BitVec.ofNat 8 d.record.length, BitVec.ofNat 8 (d.record.length / 256)], 15⟩ ∧ s.path.rxReleased = true :=
  ⟨⟨⟨.data, .downlink, 5, [0], 0, 0, none⟩, .status, 0, false, false⟩, 0x010002, 5, map0, 7, ⟨0x00050208, 15⟩, { works with
      path.path := .radio, ring.fillCursor := some 7, ring.partRxf := some 7,
      ring.delivery := some ⟨⟨.data, .downlink, 5, [0], 0, 0, none⟩, .status, 0, false, false⟩, ring.descriptorHeld := some (0x010002, 5) }, fun
    _ _ _ => nofun, by decide +kernel⟩

theorem test_meets_DeliveryWritesFrameThenStatusThenRxf_2b : ∃ (d : Delivery) (b : Addr) (n : Nat) (m : MemoryMap) (f : Count) (w : LaneWord) (s
    : State),
    (∀ q live r, s.radio.ldo ≠ some (.sendUp q live r)) ∧ s.ring.delivery = some d ∧ d.stage = .status ∧ d.statusAsked = false ∧
    d.passedByCatchUp = false ∧ s.ring.descriptorHeld = some (b, n) ∧ s.loader.map = some m ∧ s.ring.fillCursor = some f ∧ s.power.mode ≠ .doze ∧
    s.bus.queue.length ≤ 6 ∧ atRest s ∧ s.events.counters.length = 10 ∧ w = ⟨wordOf [if d.record.length ≤ n then 8 else 9, if d.record.cls =
    .data then 2 else 3, BitVec.ofNat 8 d.record.length, BitVec.ofNat 8 (d.record.length / 256)], 15⟩ ∧ s.path.rxReleased = false :=
  ⟨⟨⟨.data, .downlink, 5, [0], 0, 0, none⟩, .status, 0, false, false⟩, 0x010002, 4, map0, 7, ⟨0x00050209, 15⟩, { works with
      path.path := .radio, ring.fillCursor := some 7, ring.partRxf := some 7,
      ring.delivery := some ⟨⟨.data, .downlink, 5, [0], 0, 0, none⟩, .status, 0, false, false⟩, path.rxReleased := false,
      ring.descriptorHeld := some (0x010002, 4) }, fun _ _ _ => nofun, by decide +kernel⟩

theorem test_meets_DeliveryWritesFrameThenStatusThenRxf_3 : ∃ (d : Delivery) (b : Addr) (n : Nat) (m : MemoryMap) (f : Count) (w : LaneWord) (s :
    State),
    (∀ q live r, s.radio.ldo ≠ some (.sendUp q live r)) ∧ s.ring.delivery = some d ∧ d.stage = .status ∧ d.statusAsked = false ∧
    d.passedByCatchUp = true ∧ s.ring.descriptorHeld = some (b, n) ∧ s.loader.map = some m ∧ s.ring.fillCursor = some f ∧ s.power.mode ≠ .doze ∧
    s.bus.queue.length ≤ 6 ∧ atRest s ∧ s.events.counters.length = 10 ∧ w = ⟨wordOf [if d.record.length ≤ n then 8 else 9, if d.record.cls =
    .data then 2 else 3, BitVec.ofNat 8 d.record.length, BitVec.ofNat 8 (d.record.length / 256)], 15⟩ ∧ s.ring.partRxf ≠ some (f + 1) ∧
    s.path.rxReleased = true ∧ n < d.record.length :=
  ⟨⟨⟨.data, .downlink, 5, [0], 0, 0, none⟩, .status, 0, false, true⟩, 0x010002, 4, map0, 7, ⟨0x00050209, 15⟩, { works with
      path.path := .radio, bus.rxGuard := true, ring.fillCursor := some 7, ring.partRxf := some 7,
      ring.delivery := some ⟨⟨.data, .downlink, 5, [0], 0, 0, none⟩, .status, 0, false, true⟩, ring.descriptorHeld := some (0x010002, 4) }, fun _
    _ _ => nofun, by decide +kernel⟩

theorem test_meets_DeliveryWritesFrameThenStatusThenRxf_soft_released : ∃ (d : Delivery) (b : Addr) (n : Nat) (m : MemoryMap) (f : Count)
    (s : State),
    (∀ q live r, s.radio.ldo ≠ some (.sendUp q live r)) ∧ s.loader.softReset = .completing ∧ s.ring.delivery = some d ∧ d.stage = .status ∧
    d.statusAsked = false ∧ d.record.direction = .downlink ∧ s.ring.descriptorHeld = some (b, n) ∧ s.loader.map = some m ∧ s.ring.fillCursor =
    some f ∧ s.power.mode ≠ .doze ∧ s.bus.queue.length ≤ 6 ∧ s.bus.waiting = [] ∧ s.events.counters.length = 10 ∧ s.path.rxReleased = true ∧
    s.bus.queue.length = 6 :=
  ⟨⟨⟨.data, .downlink, 5, [0], 0, 0, none⟩, .status, 0, false, false⟩, 0x010002, 5, map0, 7, { works with
      path.path := .held, loader.softReset := .completing, ring.fence := some 3, ring.partTxc := some 3, ring.fillCursor := some 7,
      ring.partRxf := some 7, bus.queue := List.replicate 6 ⟨.evpWrite, .write 0x5014 [⟨0, 15⟩]⟩, hold.freeList := (List.range 256).drop 1,
      ring.delivery := some ⟨⟨.data, .downlink, 5, [0], 0, 0, none⟩, .status, 0, false, false⟩, ring.descriptorHeld := some (0x010002, 5) }, fun
    _ _ _ => nofun, by decide +kernel⟩

theorem test_meets_DeliveryWritesFrameThenStatusThenRxf_soft_forced : ∃ (d : Delivery) (b : Addr) (n : Nat) (m : MemoryMap) (f : Count)
    (s : State),
    (∀ q live r, s.radio.ldo ≠ some (.sendUp q live r)) ∧ s.loader.softReset = .completing ∧ s.ring.delivery = some d ∧ d.stage = .status ∧
    d.statusAsked = false ∧ d.record.direction = .downlink ∧ s.ring.descriptorHeld = some (b, n) ∧ s.loader.map = some m ∧ s.ring.fillCursor =
    some f ∧ s.power.mode ≠ .doze ∧ s.bus.queue.length ≤ 6 ∧ s.bus.waiting = [] ∧ s.events.counters.length = 10 ∧ d.passedByCatchUp = true ∧
    n < d.record.length :=
  ⟨⟨⟨.voice, .downlink, 5, [0], 0, 0, none⟩, .status, 0, false, true⟩, 0x010002, 4, map0, 7, { works with
      path.path := .held, loader.softReset := .completing, ring.fence := some 3, ring.partTxc := some 3, ring.fillCursor := some 7,
      ring.partRxf := some 6, hold.freeList := (List.range 256).drop 1,
      ring.delivery := some ⟨⟨.voice, .downlink, 5, [0], 0, 0, none⟩, .status, 0, false, true⟩, ring.descriptorHeld := some (0x010002, 4) }, fun
    _ _ _ => nofun, by decide +kernel⟩

theorem test_meets_DeliveryWritesFrameThenStatusThenRxf_4 : ∃ (q : Requester) (a : Addr) (l : LaneWord) (m : MemoryMap) (v : Word) (p : Count) (f
    : Count) (x : FrameRecord) (xs : List FrameRecord) (s : State),
    s.loader.map = some m ∧ watchedApart m ∧ onWatched m .rxp a ∧ masterTurn s = false ∧ (q ≠ .u ∨ (s.bus.txGuard = false ∧ s.bus.rxGuard =
    false)) ∧ s.power.mode ≠ .doze ∧ s.bus.shadows.rxp = some v ∧ p = countOf (mergeLanes v l) ∧ (s.path.path = .takeover ∨ s.path.path = .radio
    ∨ s.path.path = .held ∨ (s.path.path = .returning ∧ s.path.phase = some .draining)) ∧ softResetStands s = false ∧ ringIdle s ∧
    s.ring.delivery = none ∧ s.ring.fillCursor = some f ∧ dist (rxConsumerRef s) f < dist (rxConsumerRef s) p ∧ dist (rxConsumerRef s) p ≤ rxSize
    s ∧ s.bus.queue.length ≤ 7 ∧ s.hold.dqV = x :: xs ∧ ageOf s.clock x.time ≤ s.loader.policy.voiceLifetime :=
  ⟨.p, 0x8008, ⟨3, 15⟩, map0, 0, 3, 2, ⟨.voice, .downlink, 60, [0], 0, 0, none⟩, [], { works with
      path.path := .radio, ring.fillCursor := some 2, hold.dqV := [⟨.voice, .downlink, 60, [0], 0, 0, none⟩] }, by decide +kernel⟩

theorem test_meets_DeliveryWritesFrameThenStatusThenRxf_5 : ∃ (q : Requester) (a : Addr) (l : LaneWord) (m : MemoryMap) (v : Word) (p : Count) (f
    : Count) (x : FrameRecord) (xs : List FrameRecord) (s : State),
    s.loader.map = some m ∧ watchedApart m ∧ onWatched m .rxp a ∧ masterTurn s = false ∧ (q ≠ .u ∨ (s.bus.txGuard = false ∧ s.bus.rxGuard =
    false)) ∧ s.power.mode ≠ .doze ∧ s.bus.shadows.rxp = some v ∧ p = countOf (mergeLanes v l) ∧ (s.path.path = .takeover ∨ s.path.path = .radio
    ∨ s.path.path = .held ∨ (s.path.path = .returning ∧ s.path.phase = some .draining)) ∧ softResetStands s = false ∧ ringIdle s ∧
    s.ring.delivery = none ∧ s.ring.fillCursor = some f ∧ dist (rxConsumerRef s) f < dist (rxConsumerRef s) p ∧ dist (rxConsumerRef s) p ≤ rxSize
    s ∧ s.bus.queue.length ≤ 7 ∧ s.hold.dqV = [] ∧ s.hold.dqD = x :: xs :=
  ⟨.p, 0x8008, ⟨3, 15⟩, map0, 0, 3, 2, ⟨.data, .downlink, 60, [0], 0, 0, none⟩, [], { works with
      path.path := .radio, ring.fillCursor := some 2, hold.dqD := [⟨.data, .downlink, 60, [0], 0, 0, none⟩] }, by decide +kernel⟩

theorem test_meets_DeliveryWritesFrameThenStatusThenRxf_6 : ∃ (q : MasterTransfer) (rest : List MasterTransfer) (d : Delivery) (b : Addr) (n :
    Nat) (s : State),
    (∀ w ln, q.transfer ≠ .read w ln) ∧ s.bus.queue = q :: rest ∧ q.purpose = .bufferWrite ∧ s.bus.waiting = [.bufferWrite] ∧ s.loader.map.isSome
    = true ∧ s.power.mode ≠ .doze ∧ rest.length ≤ 7 ∧ s.ring.delivery = some d ∧ s.ring.descriptorHeld = some (b, n) ∧ 4 * d.wordsIssued <
    b.toNat % 4 + min d.record.length n ∧ 0 < min d.record.length n ∧ b.toNat % 4 + min d.record.length n ≤ 4 * (d.wordsIssued + 2) :=
  ⟨⟨.bufferWrite, .write 0x010000 [⟨1, 15⟩]⟩, [], ⟨⟨.data, .downlink, 70, [0], 0, 0, none⟩, .writing, 16, false, false⟩, 0x010002, 512,
    { works with
      path.path := .radio, bus.queue := [⟨.bufferWrite, .write 0x010000 [⟨1, 15⟩]⟩], bus.waiting := [.bufferWrite], ring.fillCursor := some 0,
      ring.descriptorHeld := some (0x010002, 512), ring.delivery := some ⟨⟨.data, .downlink, 70, [0], 0, 0, none⟩, .writing, 16, false, false⟩ },
    fun _ _ => nofun, by decide +kernel⟩

theorem test_meets_EventPostWritesHighestEntry_1a : ∃ (i : Nat) (e : EventEntry) (m : MemoryMap) (w : Word) (s : State),
    s.loader.map = some m ∧ s.bus.shadows.evc = some w ∧ dist (countOf w) s.events.evp < m.eventSize ∧ s.events.pageWriting = false ∧ s.power.mode ≠
    .doze ∧ s.loader.softReset ≠ .waiting ∧ s.loader.phase = .ended ∧ s.path.path ≠ .disabled ∧ s.loader.shadowsLoaded = true ∧
    s.bus.queue.length ≤ 6 ∧ s.events.entries[i]? = some (some e) ∧ (∀ j < i, s.events.entries[j]? = some none) ∧ eventNumber e.detail = i + 1 ∧
    atRest s ∧ dist (countOf w) s.events.evp + 1 = m.eventSize :=
  ⟨8, ⟨1, 5, .powerMode 0 .reserve .mainsLost⟩, map0, 65533, { works with
      bus.shadows.evc := some 65533, events.evp := 4,
      events.entries := (List.replicate 11 none).set 8 (some ⟨1, 5, .powerMode 0 .reserve .mainsLost⟩) }, by decide +kernel⟩

theorem test_meets_EventPostWritesHighestEntry_1b : ∃ (i : Nat) (e : EventEntry) (m : MemoryMap) (w : Word) (s : State),
    s.loader.map = some m ∧ s.bus.shadows.evc = some w ∧ dist (countOf w) s.events.evp < m.eventSize ∧ s.events.pageWriting = false ∧ s.power.mode ≠
    .doze ∧ s.loader.softReset ≠ .waiting ∧ s.loader.phase = .ended ∧ s.path.path ≠ .disabled ∧ s.loader.shadowsLoaded = true ∧
    s.bus.queue.length ≤ 6 ∧ s.events.entries[i]? = some (some e) ∧ (∀ j < i, s.events.entries[j]? = some none) ∧ eventNumber e.detail = i + 1 ∧
    atRest s :=
  ⟨5, ⟨255, 5, .voiceLoss ⟨.fibrePath, .downlink, .voicePriority, none, 65536⟩⟩, map0, 0, { works with
      events.entries := (List.replicate 11 none).set 5 (some ⟨255, 5, .voiceLoss ⟨.fibrePath, .downlink, .voicePriority, none, 65536⟩⟩) }, by decide +kernel⟩

theorem test_meets_EventPostWritesHighestEntry_2 : ∃ (m : MemoryMap) (w : Word) (s : State),
    s.loader.map = some m ∧ s.bus.shadows.evc = some w ∧ m.eventSize ≤ dist (countOf w) s.events.evp ∧ m.eventSize = dist (countOf w) s.events.evp ∧
    nextEntry s ≠ none :=
  ⟨map0, 65533, { works with
      bus.shadows.evc := some 65533, events.evp := 5,
      events.entries := (List.replicate 11 none).set 8 (some ⟨1, 5, .powerMode 0 .reserve .mainsLost⟩) }, by decide +kernel⟩

theorem test_meets_EventPostWritesHighestEntry_3a : ∃ (s : State),
    s.events.pageWriting = true ∧ postable s = true :=
  ⟨{ works with
      events.pageWriting := true, events.entries := (List.replicate 11 none).set 8 (some ⟨1, 5, .powerMode 0 .reserve .mainsLost⟩) }, by
    decide +kernel⟩

theorem test_meets_EventPostWritesHighestEntry_3b : ∃ (s : State),
    s.loader.softReset = .completing ∧ postable s = true :=
  ⟨{ works with
      loader.softReset := .completing,
      events.entries := (List.replicate 11 none).set 8 (some ⟨1, 5, .powerMode 0 .reserve .mainsLost⟩) }, by decide +kernel⟩

theorem test_meets_StatusPageCarriesCountTwice_1 : ∃ (s : State),
    s.events.refreshTimer.isSome = true :=
  ⟨{ works with events.refreshTimer := some 0 }, by decide +kernel⟩

theorem test_meets_StatusPageCarriesCountTwice_2 : ∃ (m : MemoryMap) (s : State),
    s.events.pageWanted = true ∧ s.events.pageWriting = false ∧ s.power.mode ≠ .doze ∧ partWorks s = true ∧ s.loader.shadowsLoaded = true ∧
    entryPageBegun s = false ∧ s.bus.waiting = [] ∧ s.bus.queue.length ≤ 6 ∧ s.loader.map = some m :=
  ⟨map0, { works with events.pageWanted := true }, by decide +kernel⟩

theorem test_meets_PolicyAppliedTakesTheBlock_1 : ∃ (a : Addr) (rest : List MasterTransfer) (s : State),
    s.bus.queue = ⟨.policyRead false, .read a .sixteen⟩ :: rest :=
  ⟨0x4000, [⟨.policyRead true, .read 0x4040 .sixteen⟩], { works with
      bus.queue := [⟨.policyRead false, .read 0x4000 .sixteen⟩, ⟨.policyRead true, .read 0x4040 .sixteen⟩], loader.readState := .reading },
    by decide +kernel⟩

theorem test_meets_PolicyAppliedTakesTheBlock_2 : ∃ (a : Addr) (rest : List MasterTransfer) (bs : List Byte) (s : State),
    s.bus.queue = ⟨.policyRead true, .read a .sixteen⟩ :: rest ∧ bs = s.loader.firstHalf ++ bytesRead s.sram a 64 ∧
    s.loader.readKind = .ordinary ∧ s.bus.waiting = [] ∧ s.events.entries.length = 11 ∧ softResetAsked bs = false ∧ s.loader.readState = .reading
    :=
  ⟨0x4040, [], (List.replicate 128 0).set 5 0, { works with
      bus.queue := [⟨.policyRead true, .read 0x4040 .sixteen⟩], loader.readState := .reading,
      loader.firstHalf := (List.replicate 64 0).set 5 0 }, by decide +kernel⟩

theorem test_meets_PolicyAppliedTakesTheBlock_3 : ∃ (a : Addr) (rest : List MasterTransfer) (bs : List Byte) (s : State),
    s.bus.queue = ⟨.policyRead true, .read a .sixteen⟩ :: rest ∧ bs = s.loader.firstHalf ++ bytesRead s.sram a 64 ∧
    s.loader.readKind = .ordinary ∧ softResetAsked bs = false ∧ counterClearAsked bs = true ∧ s.loader.counterClearInForce = false ∧ atRest s ∧
    uplinkEmpty s = true ∧ s.radio.receiver = .idle :=
  ⟨0x4040, [], (List.replicate 128 0).set 5 2, { works with
      bus.queue := [⟨.policyRead true, .read 0x4040 .sixteen⟩], loader.readState := .reading,
      loader.firstHalf := (List.replicate 64 0).set 5 2 }, by decide +kernel⟩

theorem test_meets_PolicyAppliedTakesTheBlock_4 : ∃ (a : Addr) (rest : List MasterTransfer) (bs : List Byte) (s : State),
    s.bus.queue = ⟨.policyRead true, .read a .sixteen⟩ :: rest ∧ bs = s.loader.firstHalf ++ bytesRead s.sram a 64 ∧
    s.loader.readKind = .ordinary ∧ softResetAsked bs = true ∧ s.loader.softResetInForce = false ∧ s.path.path = .fibre ∧
    s.loader.policy.pathOverride = (blockPolicy bs 0).pathOverride ∧ s.bus.waiting = [] ∧ s.events.entries.length = 11 :=
  ⟨0x4040, [], (List.replicate 128 0).set 5 1, { works with
      bus.queue := [⟨.policyRead true, .read 0x4040 .sixteen⟩], loader.readState := .reading,
      loader.firstHalf := (List.replicate 64 0).set 5 1 }, by decide +kernel⟩

theorem test_meets_PolicyAppliedTakesTheBlock_5a : ∃ (a : Addr) (rest : List MasterTransfer) (bs : List Byte) (s : State),
    s.bus.queue = ⟨.policyRead true, .read a .sixteen⟩ :: rest ∧ bs = s.loader.firstHalf ++ bytesRead s.sram a 64 ∧
    s.loader.readKind = .ordinary ∧ softResetAsked bs = false ∧ (counterClearAsked bs = false ∨ s.loader.counterClearInForce = true) ∧ atRest s ∧
    uplinkEmpty s = true ∧ s.radio.receiver = .idle ∧ counterClearAsked bs = true ∧ s.loader.counterClearInForce = true :=
  ⟨0x4040, [], (List.replicate 128 0).set 5 2, { works with
      bus.queue := [⟨.policyRead true, .read 0x4040 .sixteen⟩], loader.readState := .reading, loader.firstHalf := (List.replicate 64 0).set 5 2,
      loader.counterClearInForce := true }, by decide +kernel⟩

theorem test_meets_PolicyAppliedTakesTheBlock_5b : ∃ (a : Addr) (rest : List MasterTransfer) (bs : List Byte) (s : State),
    s.bus.queue = ⟨.policyRead true, .read a .sixteen⟩ :: rest ∧ bs = s.loader.firstHalf ++ bytesRead s.sram a 64 ∧
    s.loader.readKind = .ordinary ∧ softResetAsked bs = false ∧ (counterClearAsked bs = false ∨ s.loader.counterClearInForce = true) ∧ atRest s ∧
    uplinkEmpty s = true ∧ s.radio.receiver = .idle ∧ counterClearAsked bs = false :=
  ⟨0x4040, [], (List.replicate 128 0).set 5 0, { works with
      bus.queue := [⟨.policyRead true, .read 0x4040 .sixteen⟩], loader.readState := .reading,
      loader.firstHalf := (List.replicate 64 0).set 5 0 }, by decide +kernel⟩

theorem test_meets_PolicyAppliedTakesTheBlock_6a : ∃ (a : Addr) (rest : List MasterTransfer) (bs : List Byte) (s : State),
    s.bus.queue = ⟨.policyRead true, .read a .sixteen⟩ :: rest ∧ bs = s.loader.firstHalf ++ bytesRead s.sram a 64 ∧
    s.loader.readKind = .softReset ∧ s.loader.softReset = .rereading ∧ s.loader.readState = .reading ∧ s.path.path = .fibre ∧ s.health.verdict =
    .healthy ∧ s.loader.shadowsLoaded = true ∧ s.radio.state ≠ .attached ∧ s.radio.state ≠ .backoff ∧ s.bus.waiting = [] ∧
    s.events.entries.length = 11 ∧ s.ring.window = [] ∧ (blockPolicy bs 0).pathOverride ≠ .radioNow :=
  ⟨0x4040, [], (List.replicate 128 0).set 5 2, { works with
      bus.queue := [⟨.policyRead true, .read 0x4040 .sixteen⟩], loader.readState := .reading, loader.readKind := .softReset,
      loader.softReset := .rereading, loader.firstHalf := (List.replicate 64 0).set 5 2 }, by decide +kernel⟩

theorem test_meets_PolicyAppliedTakesTheBlock_6b : ∃ (a : Addr) (rest : List MasterTransfer) (bs : List Byte) (s : State),
    s.bus.queue = ⟨.policyRead true, .read a .sixteen⟩ :: rest ∧ bs = s.loader.firstHalf ++ bytesRead s.sram a 64 ∧
    s.loader.readKind = .softReset ∧ s.loader.softReset = .rereading ∧ s.loader.readState = .reading ∧ s.path.path = .fibre ∧ s.health.verdict =
    .healthy ∧ s.loader.shadowsLoaded = true ∧ s.radio.state ≠ .attached ∧ s.radio.state ≠ .backoff ∧ s.bus.waiting = [] ∧
    s.events.entries.length = 11 ∧ s.ring.window = [] ∧ (blockPolicy bs 0).pathOverride = .radioNow :=
  ⟨0x4040, [], (List.replicate 128 0).set 4 2, { works with
      bus.queue := [⟨.policyRead true, .read 0x4040 .sixteen⟩], loader.readState := .reading, loader.readKind := .softReset,
      loader.softReset := .rereading, loader.firstHalf := (List.replicate 64 0).set 4 2 }, by decide +kernel⟩

theorem test_meets_MainsLostMovesTheMode_1 : ∃ (s : State),
    s.pins.mainsLost = false ∧ partWorks s = true ∧ s.power.mode = .mains ∧ atRest s ∧ s.events.entries.length = 11 ∧ s.path.radioWanted = false
    ∧ s.path.emergency = false ∧ s.radio.state = .detached :=
  ⟨{ powered with radio.state := .detached }, by decide +kernel⟩

theorem test_meets_MainsLostMovesTheMode_2 : ∃ (s : State),
    s.pins.mainsLost = false ∧ partWorks s = true ∧ s.power.mode = .reserve :=
  ⟨{ works with power.mode := .reserve, power.mainsReturn := some 5000 }, by decide +kernel⟩

theorem test_meets_MainsLostMovesTheMode_3 : ∃ (s : State),
    s.pins.mainsLost = true ∧ partWorks s = true ∧ s.power.mode = .reserve ∧ s.power.step = .entering .link :=
  ⟨{ works with power.mode := .reserve, pins.mainsLost := true, power.step := .entering .link }, by decide +kernel⟩

theorem test_meets_MainsLostMovesTheMode_4 : ∃ (s : State),
    s.power.mainsReturn.isSome = true ∧ partWorks s = true ∧ s.power.mode = .reserve ∧ atRest s ∧ s.events.entries.length = 11 ∧
    s.loader.policy.warm = true ∧ s.radio.state = .off :=
  ⟨{ works with power.mode := .reserve, power.mainsReturn := some 0 }, by decide +kernel⟩

theorem test_meets_DozeEntryRunsItsStages_1a : ∃ (s : State),
    quietRuns s = true ∧ atRest s ∧ s.power.step = .awake ∧ dozeConditions { s with power.quiet := .runOut } = true :=
  ⟨{ works with power.mode := .reserve, pins.mainsLost := true, power.quiet := .running 0 }, by decide +kernel⟩

theorem test_meets_DozeEntryRunsItsStages_1b : ∃ (s : State),
    quietRuns s = true ∧ atRest s ∧ s.power.step = .awake ∧ dozeConditions { s with power.quiet := .runOut } = false :=
  ⟨{ works with power.quiet := .running 0 }, by decide +kernel⟩

theorem test_meets_DozeEntryRunsItsStages_2 : ∃ (m : MemoryMap) (s : State),
    s.power.step = .entering .settling ∧ dozeConditions s = true ∧ entrySettled s = true ∧ s.loader.map = some m :=
  ⟨map0, { works with power.mode := .reserve, pins.mainsLost := true, power.quiet := .runOut, power.step := .entering .settling }, by
    decide +kernel⟩

theorem test_meets_DozeEntryRunsItsStages_3a : ∃ (a : Addr) (ws : List LaneWord) (rest : List MasterTransfer) (m : MemoryMap) (s : State),
    s.bus.queue = ⟨.pageHalf true true, .write a ws⟩ :: rest ∧ s.loader.map = some m ∧ (∀ p ∈ placeWords a ws, p.1 ∉ [watchedAddr m .txp,
    watchedAddr m .txc, watchedAddr m .rxp, watchedAddr m .rxf, watchedAddr m .evc, watchedAddr m .pgen]) ∧ s.power.step = .entering .page ∧
    dozeConditions s = true ∧ atRest s ∧ moduleListens s = true ∧ s.radio.ldo = none ∧ s.radio.items.lowPower = none :=
  ⟨0x5040, (List.replicate 16 ⟨1, 15⟩), [], map0, { powered with
      radio.state := .detached, power.mode := .reserve, pins.mainsLost := true, power.quiet := .runOut, power.step := .entering .page,
      events.pageWriting := true, bus.queue := [⟨.pageHalf true true, .write 0x5040 (List.replicate 16 ⟨1, 15⟩)⟩] }, by decide +kernel⟩

theorem test_meets_DozeEntryRunsItsStages_3b : ∃ (a : Addr) (ws : List LaneWord) (rest : List MasterTransfer) (m : MemoryMap) (s : State),
    s.bus.queue = ⟨.pageHalf true true, .write a ws⟩ :: rest ∧ s.loader.map = some m ∧ (∀ p ∈ placeWords a ws, p.1 ∉ [watchedAddr m .txp,
    watchedAddr m .txc, watchedAddr m .rxp, watchedAddr m .rxf, watchedAddr m .evc, watchedAddr m .pgen]) ∧ s.power.step = .entering .page ∧
    dozeConditions s = true ∧ atRest s ∧ moduleListens s = true ∧ s.radio.items.lowPower ≠ some false ∧ s.radio.ldo = some (.lowPower true false)
    :=
  ⟨0x5040, (List.replicate 16 ⟨1, 15⟩), [], map0, { powered with
      radio.state := .detached, power.mode := .reserve, pins.mainsLost := true, power.quiet := .runOut, power.step := .entering .page,
      events.pageWriting := true, bus.queue := [⟨.pageHalf true true, .write 0x5040 (List.replicate 16 ⟨1, 15⟩)⟩],
      radio.ldo := some (.lowPower true false) }, by decide +kernel⟩

theorem test_meets_DozeEntryRunsItsStages_3c : ∃ (a : Addr) (ws : List LaneWord) (rest : List MasterTransfer) (m : MemoryMap) (s : State),
    s.bus.queue = ⟨.pageHalf true true, .write a ws⟩ :: rest ∧ s.loader.map = some m ∧ (∀ p ∈ placeWords a ws, p.1 ∉ [watchedAddr m .txp,
    watchedAddr m .txc, watchedAddr m .rxp, watchedAddr m .rxf, watchedAddr m .evc, watchedAddr m .pgen]) ∧ s.power.step = .entering .page ∧
    dozeConditions s = true ∧ atRest s ∧ s.radio.items.lowPower = some false :=
  ⟨0x5040, (List.replicate 16 ⟨1, 15⟩), [], map0, { powered with
      radio.state := .detached, radio.lowPowerTold := true, radio.items.lowPower := some false, power.mode := .reserve, pins.mainsLost := true,
      power.quiet := .runOut, power.step := .entering .page, events.pageWriting := true,
      bus.queue := [⟨.pageHalf true true, .write 0x5040 (List.replicate 16 ⟨1, 15⟩)⟩] }, by decide +kernel⟩

theorem test_meets_DozeEntryRunsItsStages_3d : ∃ (a : Addr) (ws : List LaneWord) (rest : List MasterTransfer) (m : MemoryMap) (s : State),
    s.bus.queue = ⟨.pageHalf true true, .write a ws⟩ :: rest ∧ s.loader.map = some m ∧ (∀ p ∈ placeWords a ws, p.1 ∉ [watchedAddr m .txp,
    watchedAddr m .txc, watchedAddr m .rxp, watchedAddr m .rxf, watchedAddr m .evc, watchedAddr m .pgen]) ∧ s.power.step = .entering .page ∧
    dozeConditions s = true ∧ atRest s ∧ moduleListens s = false :=
  ⟨0x5040, (List.replicate 16 ⟨1, 15⟩), [], map0, { works with
      power.mode := .reserve, pins.mainsLost := true, power.quiet := .runOut, power.step := .entering .page, events.pageWriting := true,
      bus.queue := [⟨.pageHalf true true, .write 0x5040 (List.replicate 16 ⟨1, 15⟩)⟩] }, by decide +kernel⟩

theorem test_meets_DozeEntryRunsItsStages_4 : ∃ (s : State),
    s.power.step = .entering .link ∧ dozeConditions s = true ∧ entryDone s = true :=
  ⟨{ works with power.mode := .reserve, pins.mainsLost := true, power.quiet := .runOut, power.step := .entering .link }, by decide +kernel⟩

theorem test_meets_DozeEntryRunsItsStages_5a : ∃ (s : State),
    ((s.ring.takes ≠ [] ∨ s.ring.delivery ≠ none ∨ (∃ p, s.radio.receiver = .payload p) ∨ s.loader.readState ≠ .idle ∨ s.loader.dueAfterRestart =
    true ∨ s.loader.softReset ≠ .none ∨ mayPost s = true ∨ s.events.pageWriting = true ∨ s.bus.queue ≠ [] ∨ s.bus.waiting ≠ []) ∨ dozeConditions
    s = false) ∧ s.power.step = .entering .settling ∧ dozeConditions s = true ∧ s.loader.readState ≠ .idle :=
  ⟨{ works with
      power.mode := .reserve, pins.mainsLost := true, power.quiet := .runOut, power.step := .entering .settling, loader.readState := .reading },
    .inl (.inr (.inr (.inr (.inl (by decide +kernel))))), by decide +kernel⟩

theorem test_meets_DozeEntryRunsItsStages_5b : ∃ (s : State),
    ((s.ring.takes ≠ [] ∨ s.ring.delivery ≠ none ∨ (∃ p, s.radio.receiver = .payload p) ∨ s.loader.readState ≠ .idle ∨ s.loader.dueAfterRestart =
    true ∨ s.loader.softReset ≠ .none ∨ mayPost s = true ∨ s.events.pageWriting = true ∨ s.bus.queue ≠ [] ∨ s.bus.waiting ≠ []) ∨ dozeConditions
    s = false) ∧ s.power.step = .entering .settling ∧ dozeConditions s = false :=
  ⟨{ works with power.mode := .reserve, power.quiet := .runOut, power.step := .entering .settling }, .inr (by decide +kernel), by decide +kernel⟩

theorem test_meets_DozeEntryRunsItsStages_6a : ∃ (s : State),
    ((s.radio.items.lowPower ≠ none ∨ s.radio.ldo ≠ none ∨ (∃ p, s.radio.receiver = .payload p) ∨ s.bus.queue ≠ [] ∨ s.bus.waiting ≠ []) ∨
    dozeConditions s = false) ∧ s.power.step = .entering .link ∧ dozeConditions s = true ∧ s.radio.items.lowPower ≠ none :=
  ⟨{ works with
      power.mode := .reserve, pins.mainsLost := true, power.quiet := .runOut, power.step := .entering .link, radio.items.lowPower := some true },
    .inl (.inl (by decide +kernel)), by decide +kernel⟩

theorem test_meets_DozeEntryRunsItsStages_6b : ∃ (s : State),
    ((s.radio.items.lowPower ≠ none ∨ s.radio.ldo ≠ none ∨ (∃ p, s.radio.receiver = .payload p) ∨ s.bus.queue ≠ [] ∨ s.bus.waiting ≠ []) ∨
    dozeConditions s = false) ∧ s.power.step = .entering .link ∧ dozeConditions s = false :=
  ⟨{ works with power.mode := .reserve, power.quiet := .runOut, power.step := .entering .link }, .inr (by decide +kernel), by decide +kernel⟩

theorem test_meets_WakeSourcesBeginTheRestart_1 : ∃ (s : State),
    s.power.step = .dozing ∧ s.power.dozeTimer.isSome = true :=
  ⟨{ dozing with pins.mainsLost := true, power.dozeTimer := some 0 }, by decide +kernel⟩

theorem test_meets_WakeSourcesBeginTheRestart_2 : ∃ (s : State),
    s.power.mode = .doze ∧ s.power.step = .dozing :=
  ⟨{ dozing with pins.mainsLost := true }, by decide +kernel⟩

theorem test_meets_WakeSourcesBeginTheRestart_3 : ∃ (los : Bool) (link : Bool) (s : State),
    s.power.mode = .doze ∧ s.power.step = .dozing ∧ (los ≠ s.pins.los ∨ link ≠ s.pins.link) :=
  ⟨true, false, { dozing with pins.mainsLost := true }, by decide +kernel⟩

theorem test_meets_WakeSourcesBeginTheRestart_4 : ∃ (s : State),
    s.power.mode = .doze ∧ s.power.step = .dozing ∧ s.pins.offhook = false :=
  ⟨{ dozing with pins.mainsLost := true }, by decide +kernel⟩

theorem test_meets_WakeSourcesBeginTheRestart_4b : ∃ (s : State),
    s.power.mode = .doze ∧ s.power.step = .dozing ∧ s.pins.offhook = true :=
  ⟨{ dozing with pins.mainsLost := true, pins.offhook := true }, by decide +kernel⟩

theorem test_meets_WakeSourcesBeginTheRestart_5 : ∃ (s : State),
    s.power.mode = .doze ∧ s.power.step = .dozing ∧ s.pins.mainsLost = true ∧ partWorks s = true :=
  ⟨{ dozing with pins.mainsLost := true }, by decide +kernel⟩

theorem test_meets_WakeSourcesBeginTheRestart_6a : ∃ (s : State),
    s.power.step = .restarting ∧ s.path.recorded = [] ∧ s.power.latch.ri ∧ s.power.latch.dozeTimer = false :=
  ⟨{ works with power.mode := .doze, power.step := .restarting, power.restart := some 0, power.latch.ri := true }, by decide +kernel⟩

theorem test_meets_WakeSourcesBeginTheRestart_6b : ∃ (s : State),
    s.power.step = .restarting ∧ s.path.recorded = [] ∧ s.power.latch = ⟨false, false, false, false, false, true, false⟩ :=
  ⟨{ works with power.mode := .doze, power.step := .restarting, power.restart := some 0, power.latch.dozeTimer := true }, by decide +kernel⟩

theorem test_meets_WakeSourcesBeginTheRestart_6c : ∃ (s : State),
    s.power.step = .restarting ∧ s.path.recorded = [] ∧ (s.power.latch.mainsReturned ∧ s.pins.mainsLost = false) :=
  ⟨{ works with power.mode := .doze, power.step := .restarting, power.restart := some 0, power.latch.mainsReturned := true }, by decide +kernel⟩

theorem test_meets_WakeSourcesBeginTheRestart_6d : ∃ (s : State),
    s.power.step = .restarting ∧ s.path.recorded = [] ∧ s.radio.lowPowerTold = true ∧ s.radio.silenceTimer.isSome = true :=
  ⟨{ works with
      power.mode := .doze, power.step := .restarting, power.restart := some 0, power.latch.ri := true, radio.lowPowerTold := true,
      radio.silenceTimer := some 3 }, by decide +kernel⟩

theorem test_meets_WakeSourcesBeginTheRestart_7 : ∃ (s : State),
    s.power.step = .restarting ∧ s.path.recorded = [.refall] :=
  ⟨{ works with
      power.mode := .doze, power.step := .restarting, power.restart := some 0, path.recorded := [.refall], path.refallTimer := some 0,
      path.refallOpen := true }, by decide +kernel⟩

theorem test_meets_WakeSourcesBeginTheRestart_8 : ∃ (s : State),
    s.power.step = .restarting ∧ s.path.recorded = [.dwell] ∧ dwellRuns s = true ∧ s.path.path ≠ .fibre ∧ s.power.latch.dozeTimer = false :=
  ⟨{ works with
      power.mode := .doze, power.step := .restarting, power.restart := some 0, path.path := .held, path.recorded := [.dwell],
      path.dwell := .running 0 }, by decide +kernel⟩

theorem test_meets_WakeSourcesBeginTheRestart_9 : ∃ (s : State),
    s.power.step = .restarting ∧ s.path.recorded = [.priority] ∧ ringIdle s ∧ s.path.path ≠ .fibre :=
  ⟨{ works with
      power.mode := .doze, power.step := .restarting, power.restart := some 0, path.path := .held, path.recorded := [.priority],
      path.priorityTimer := some 0, path.emergency := true }, by decide +kernel⟩

theorem test_meets_WakeSourcesBeginTheRestart_10 : ∃ (s : State),
    s.power.step = .restarting ∧ s.path.recorded = [.linger] ∧ s.radio.state = .attached ∧ s.path.path ≠ .fibre :=
  ⟨{ attached with
      power.mode := .doze, power.step := .restarting, power.restart := some 0, path.path := .held, path.recorded := [.linger],
      radio.lingerTimer := some 0 }, by decide +kernel⟩

theorem test_meets_WakeSourcesBeginTheRestart_11 : ∃ (s : State),
    s.power.step = .restarting ∧ s.path.recorded = [.backoff] ∧ s.radio.state = .backoff ∧ s.radio.ready = true ∧ s.path.radioWanted = true ∧
    s.path.path ≠ .fibre :=
  ⟨{ powered with
      power.mode := .doze, power.step := .restarting, power.restart := some 0, path.path := .held, path.recorded := [.backoff],
      radio.state := .backoff, radio.ready := true, path.radioWanted := true, radio.backoffTimer := some 0 }, by decide +kernel⟩

theorem test_meets_WakeSourcesBeginTheRestart_12 : ∃ (s : State),
    s.power.step = .restarting ∧ s.path.recorded = [.release] :=
  ⟨{ works with
      power.mode := .doze, power.step := .restarting, power.restart := some 0, path.path := .held, path.recorded := [.release],
      path.releaseTimer := some 0, path.txReleased := false, bus.fixedH := some 9, bus.shadows.txc := some 2 }, by decide +kernel⟩

end Sys2Proof.Tests
end

section
/-! The blank part: what Blank says field by field, and that every command but a reset and the end of the load keeps a part
that is blank and DISABLED as it is (R1, R3, R172, R174). -/

-- One theorem at a time, as in the model's laws: the threads of many at once would not fit the memory a check has.
set_option Elab.async false

namespace Sys2Proof.Machine

/-! ### What a blank part holds -/

section Fields

variable {s : State} (hb : Blank s)
include hb

theorem Blank.loader_eq : s.loader = { Loader.reset with phase := s.loader.phase, flashCode := s.loader.flashCode } := hb.1
theorem Blank.bus_eq : s.bus = { BusPath.reset with gatewayData := s.bus.gatewayData } := hb.2.1
theorem Blank.ring_eq : s.ring = RingAgent.reset := hb.2.2.1
theorem Blank.health_eq : s.health = Health.reset := hb.2.2.2.1
theorem Blank.path_eq : s.path = PathController.reset := hb.2.2.2.2.1
theorem Blank.hold_eq : s.hold = HoldMemory.resetWith s.hold.cells := hb.2.2.2.2.2.1
theorem Blank.pacer_eq : s.pacer = Pacer.reset := hb.2.2.2.2.2.2.1
theorem Blank.radio_eq : s.radio = RadioLink.reset := hb.2.2.2.2.2.2.2.1
theorem Blank.power_eq : s.power = { PowerUnit.resetWith false with mode := s.power.mode } := hb.2.2.2.2.2.2.2.2.1
theorem Blank.mode_ne : s.power.mode ≠ .doze := hb.2.2.2.2.2.2.2.2.2.1
theorem Blank.events_eq : s.events = { EventUnit.reset with ledMs := s.events.ledMs } := hb.2.2.2.2.2.2.2.2.2.2

/-- No map is loaded, and no soft reset and no policy read stands. -/
theorem Blank.loader_fields : s.loader.map = none ∧ s.loader.softReset = .none ∧ s.loader.softWait = none := by
  rw [hb.loader_eq]; exact ⟨rfl, rfl, rfl⟩

/-- The master has nothing to carry, and nothing waits for it. -/
theorem Blank.bus_fields : s.bus.queue = [] ∧ s.bus.waiting = [] ∧ s.bus.waitCount = 0 ∧ s.bus.txGuard = false
    ∧ s.bus.rxGuard = false := by
  rw [hb.bus_eq]; exact ⟨rfl, rfl, rfl, rfl, rfl⟩

/-- No downlink record is in hold, and neither sweep runs. -/
theorem Blank.hold_fields : s.hold.dqV = [] ∧ s.hold.dqD = [] ∧ s.hold.sweep10 = none ∧ s.hold.sweep1s = none := by
  rw [hb.hold_eq]; exact ⟨rfl, rfl, rfl, rfl⟩

/-- No entry to DOZE stands and no timer of the Power Mode Unit runs. -/
theorem Blank.power_fields : s.power.step = .awake ∧ s.power.mainsReturn = none ∧ s.power.quiet = .stopped
    ∧ s.power.dozeTimer = none ∧ s.power.restart = none := by
  rw [hb.power_eq]; exact ⟨rfl, rfl, rfl, rfl, rfl⟩

/-- No event is pending, no page is wanted and the refresh timer is stopped. -/
theorem Blank.events_fields : s.events.refreshTimer = none ∧ s.events.pageWanted = false
    ∧ s.events.entries = List.replicate 11 none := by
  rw [hb.events_eq]; exact ⟨rfl, rfl, rfl⟩

/-- A blank part does not work: its path is DISABLED. -/
theorem Blank.partWorks_eq : partWorks s = false := by simp [partWorks, hb.path_eq, PathController.reset]

/-- The module of a blank part is unpowered, so nothing arrives from it. -/
theorem Blank.receiverReady_eq : receiverReady s = false := by
  simp [receiverReady, ldiRuns, lclkRuns, hb.radio_eq, RadioLink.reset]

/-- No engine of a blank part has work of its own. -/
theorem Blank.atRest : atRest s := by
  obtain ⟨hdqV, hdqD, _⟩ := hb.hold_fields
  obtain ⟨_, hsoft, _⟩ := hb.loader_fields
  refine ⟨⟨hb.bus_fields.2.1, ?_⟩, hdqV, hdqD, ?_, ?_, ?_, ?_⟩ <;>
    simp [scanWanted, hb.ring_eq, hb.path_eq, hsoft, RingAgent.reset, PathController.reset]

/-- The end of a command leaves a blank part as it is. -/
theorem Blank.settle_eq : settle s = s := by
  simp [settle_atRest hb.atRest, evalDoze, hb.power_fields, dozeConditions, hb.path_eq, PathController.reset]

end Fields

/-- What only the queue, the clock, the draws, the packet memory and the lines tell from a blank part is blank. -/
theorem Blank.of_eq {s t : State} (hb : Blank s) (hl : t.loader = s.loader) (hbus : t.bus = s.bus) (hr : t.ring = s.ring)
    (hh : t.health = s.health) (hp : t.path = s.path) (hho : t.hold = s.hold) (hpa : t.pacer = s.pacer) (hra : t.radio = s.radio)
    (hpo : t.power = s.power) (he : t.events = s.events) : Blank t := by
  simpa only [Blank, hl, hbus, hr, hh, hp, hho, hpa, hra, hpo, he] using hb

/-- A blank part in a power mode other than DOZE is blank. -/
theorem Blank.withMode {s : State} (hb : Blank s) {m : PowerMode} (hm : m ≠ .doze) : Blank { s with power.mode := m } :=
  ⟨hb.loader_eq, hb.bus_eq, hb.ring_eq, hb.health_eq, hb.path_eq, hb.hold_eq, hb.pacer_eq, hb.radio_eq,
    by dsimp only; rw [hb.power_eq], hm, hb.events_eq⟩

/-- A blank part is blank whatever it last returned to the gateway. -/
theorem Blank.withData {s : State} (hb : Blank s) (ws : List Word) : Blank { s with bus.gatewayData := ws } :=
  ⟨hb.loader_eq, by dsimp only; rw [hb.bus_eq], hb.ring_eq, hb.health_eq, hb.path_eq, hb.hold_eq, hb.pacer_eq, hb.radio_eq,
    hb.power_eq, hb.mode_ne, hb.events_eq⟩

/-- A blank part is blank with other lines. -/
theorem Blank.withPins {s : State} (hb : Blank s) (p : Pins) : Blank { s with pins := p } :=
  hb.of_eq rfl rfl rfl rfl rfl rfl rfl rfl rfl rfl

/-- A blank part and a kept loader: what every command but a reset and the end of the load leaves. -/
def BlankAs (s t : State) : Prop := Blank t ∧ t.loader = s.loader

theorem BlankAs.refl {s : State} (hb : Blank s) : BlankAs s s := ⟨hb, rfl⟩

/-! ### Commands met by a blank part -/

section Commands

variable {s : State} (hb : Blank s)
include hb

theorem Blank.wakeSource_eq (w : WakeSource) : wakeSource w s = s := by simp [wakeSource, hb.power_fields]

/-- A gateway transfer leaves a blank part blank: no map is loaded, so no word is watched (R3). -/
theorem Blank.gatewayTransfer (req : Requester) (x : Transfer) : BlankAs s (gatewayTransfer req x s) := by
  obtain ⟨hmap, _⟩ := hb.loader_fields
  obtain ⟨hq, _, hcount, _⟩ := hb.bus_fields
  have hgrant : grantGateway (masterFirst s) = s := by
    have hfirst : masterFirst s = s := by simp [masterFirst, masterTurn, hq]
    rw [hfirst, grantGateway, if_pos hq, ← hcount]
  unfold Machine.gatewayTransfer
  rw [hgrant]
  cases x with
  | read a len =>
    have key : carryRead req a len s = { s with bus.gatewayData := returnedWords s req a (burstWords len) } := by
      simp [carryRead, setHorizons, hmap]
    simp only [key, (hb.withData _).settle_eq]
    exact ⟨hb.withData _, rfl⟩
  | write a ws =>
    have hland (kept : List (Nat × LaneWord)) : landWords kept s = { s with sram := memWriteWords s.sram kept } := by
      simp [landWords, hmap]
    have key : ∃ m, carryWrite req a ws s = { s with sram := m } := by
      refine ⟨memWriteWords s.sram (carriedWords s req (placeWords a ws)), ?_⟩
      have hdrop : droppedWords s req (placeWords a ws) = [] := by simp [droppedWords, guardedBy, hmap]
      have hsame (m : Memory) : reportChanges s { s with sram := m } = { s with sram := m } := by
        simp [reportChanges, countChanged, shadowCount, shadowWord]
      simp only [carryWrite, hdrop, hland, reportStale, hsame]
      cases req <;> simp [reportRequester, covers, completionsIn, hmap]
    obtain ⟨m, key⟩ := key
    have hb' : Blank { s with sram := m } := hb.of_eq rfl rfl rfl rfl rfl rfl rfl rfl rfl rfl
    simp only [key, hb'.settle_eq]
    exact ⟨hb', rfl⟩

/-- The master of a blank part has nothing to carry. -/
theorem Blank.carryHead_eq : carryHead s = s := by simp [carryHead, hb.bus_fields]

theorem Blank.carryWhen_eq (p : Purpose → Bool) : carryWhen p s = s := by simp [carryWhen, headPurpose, hb.bus_fields]

/-- The arbiter begins nothing on LDO; it only sees the level of MRDY (R106). -/
theorem Blank.arbiterTakes_eq (mrdy : Bool) (next : NextMessage) (act : State → State) :
    arbiterTakes mrdy next act s = { s with pins.mrdy := mrdy } := by
  simp [arbiterTakes, arbiterLooks, ldoFree, moduleListens, hb.radio_eq, RadioLink.reset]

/-- Commands of the lines: they may move the lines, and MAINS_LOST the mode during the load (R154). -/
theorem Blank.doLosLinkChange (los link : Bool) : BlankAs s (doLosLinkChange los link s) := by
  have hb' := hb.withPins { s.pins with los := los, link := link }
  unfold Machine.doLosLinkChange
  split
  · exact .refl hb
  · rw [hb'.wakeSource_eq, hb'.settle_eq]
    exact ⟨hb', rfl⟩

theorem Blank.doOffhookAssert : BlankAs s (doOffhookAssert s) := by
  have hb' := hb.withPins { s.pins with offhook := true }
  unfold Machine.doOffhookAssert
  split
  · exact .refl hb
  · rw [hb'.wakeSource_eq, hb'.settle_eq]
    exact ⟨hb', rfl⟩

theorem Blank.evalReturn_eq : evalReturn s = s := by
  simp [evalReturn, returnDecision, hb.path_eq, PathController.reset]

theorem Blank.doOffhookDeassert : BlankAs s (doOffhookDeassert s) := by
  have hb' := hb.withPins { s.pins with offhook := false }
  unfold Machine.doOffhookDeassert
  split
  · rw [hb'.wakeSource_eq, hb'.evalReturn_eq, hb'.settle_eq]
    exact ⟨hb', rfl⟩
  · exact .refl hb

theorem Blank.doMainsLostAssert : BlankAs s (doMainsLostAssert s) := by
  have hb' := hb.withPins { s.pins with mainsLost := true }
  unfold Machine.doMainsLostAssert
  split
  · exact .refl hb
  · dsimp only
    split
    · exact ⟨hb'.withMode (by decide), rfl⟩
    · rw [if_pos (by simp [hb'.partWorks_eq])]
      exact ⟨hb', rfl⟩

theorem Blank.doMainsLostDeassert : BlankAs s (doMainsLostDeassert s) := by
  have hb' := hb.withPins { s.pins with mainsLost := false }
  unfold Machine.doMainsLostDeassert
  split
  · dsimp only
    split
    · exact ⟨hb'.withMode (by decide), rfl⟩
    · rw [if_pos (by simp [hb'.partWorks_eq])]
      exact ⟨hb', rfl⟩
  · exact .refl hb

theorem Blank.doRiAssert : BlankAs s (doRiAssert s) := by
  have hb' := hb.withPins { s.pins with ri := true }
  rw [Machine.doRiAssert, hb'.wakeSource_eq, hb'.settle_eq]
  exact ⟨hb', rfl⟩

end Commands

/-- A state that is the blank one, or it with another level of MRDY. -/
theorem BlankAs.of_same {s t : State} (hb : Blank s) (h : t = s ∨ ∃ m, t = { s with pins.mrdy := m }) : BlankAs s t := by
  obtain rfl | ⟨m, rfl⟩ := h
  · exact .refl hb
  · exact ⟨hb.withPins _, rfl⟩

/-- Every command but a reset and the end of a load keeps a blank part blank, and its loader as it is. -/
theorem exec_blankAs (c : Instr) {s t : State} (hb : Blank s) (hr : isReset c = false)
    (hl : (∃ k b i, c = .configurationLoadEnd k b i) → s.loader.phase ≠ .loading) (e : exec c s = .next t) : BlankAs s t := by
  have hready := hb.receiverReady_eq
  have htake := hb.arbiterTakes_eq
  have hstep := hb.power_fields.1
  obtain ⟨_, hsoft, _⟩ := hb.loader_fields
  obtain ⟨_, _, hs10, hs1⟩ := hb.hold_fields
  obtain ⟨hrefresh, hwanted, hentries⟩ := hb.events_fields
  obtain ⟨_, hmains, hquiet, hdoze, _⟩ := hb.power_fields
  cases c <;> cases e <;> try (simp [isReset] at hr)
  case configurationLoadEnd k b i => exact .of_same hb (.inl (by simp [doConfigurationLoadEnd, hl ⟨k, b, i, rfl⟩]))
  case shadowReadsCarried =>
    exact .of_same hb (.inl (by simp [doShadowReadsCarried, hb.carryHead_eq]))
  case gatewayTransfer => exact hb.gatewayTransfer _ _
  case uReadTxpWord => exact hb.gatewayTransfer _ _
  case uReadRxpWord => exact hb.gatewayTransfer _ _
  case txpWordWrite => exact hb.gatewayTransfer _ _
  case txcWordWrite => exact hb.gatewayTransfer _ _
  case rxpWordWrite => exact hb.gatewayTransfer _ _
  case rxfWordWrite => exact hb.gatewayTransfer _ _
  case evcWordWrite => exact hb.gatewayTransfer _ _
  case pgenWordWrite => exact hb.gatewayTransfer _ _
  case txRingCompletionWrite => exact hb.gatewayTransfer _ _
  case staleUplinkWrite => exact hb.gatewayTransfer _ _
  case masterTransferCarried => exact .of_same hb (.inl hb.carryHead_eq)
  case priorityScanReadReturn => exact .of_same hb (.inl (hb.carryWhen_eq _))
  case handBack => exact .of_same hb (.inl (hb.carryWhen_eq _))
  case descriptorReadReturn => exact .of_same hb (.inl (hb.carryWhen_eq _))
  case takeEnd => exact .of_same hb (.inl (hb.carryWhen_eq _))
  case deliveryDescriptorRead => exact .of_same hb (.inl (hb.carryWhen_eq _))
  case policyApplied => exact .of_same hb (.inl (hb.carryWhen_eq _))
  case losLinkChange => exact hb.doLosLinkChange _ _
  case offhookAssert => exact hb.doOffhookAssert
  case offhookDeassert => exact hb.doOffhookDeassert
  case mainsLostAssert => exact hb.doMainsLostAssert
  case mainsLostDeassert => exact hb.doMainsLostDeassert
  case riAssert => exact hb.doRiAssert
  case moduleReady => exact .of_same hb (.inl (by simp [doModuleReady, hready]))
  case attachResult => exact .of_same hb (.inl (by simp [doAttachResult, hready]))
  case grantReport => exact .of_same hb (.inl (by simp [doGrantReport, hready]))
  case sendResult => exact .of_same hb (.inl (by simp [doSendResult, hready]))
  case coverageLost => exact .of_same hb (.inl (by simp [doCoverageLost, hready]))
  case deliverDownHeader => exact .of_same hb (.inl (by simp [doDeliverDownHeader, hready]))
  case deliverDownEnd => exact .of_same hb (.inl (by simp [doDeliverDownEnd, hb.radio_eq, RadioLink.reset]))
  case badCarrierHeader => exact .of_same hb (.inl (by simp [doBadCarrierHeader, hready]))
  case linkFramingError =>
    exact .of_same hb (.inl (by simp [doLinkFramingError, ldiRuns, lclkRuns, hb.radio_eq, RadioLink.reset]))
  case attachRequest => exact .of_same hb (.inr ⟨_, htake _ _ _⟩)
  case detachRequest => exact .of_same hb (.inr ⟨_, htake _ _ _⟩)
  case detachRequestSent => exact .of_same hb (.inl (by simp [doDetachRequestSent, hb.radio_eq, RadioLink.reset]))
  case sendUp m => exact .of_same hb (.inr ⟨m, by simp [doSendUp, hb.radio_eq, RadioLink.reset]⟩)
  case sendUpEnd => exact .of_same hb (.inl (by simp [doSendUpEnd, hb.radio_eq, RadioLink.reset]))
  case pauseDown => exact .of_same hb (.inr ⟨_, htake _ _ _⟩)
  case resumeDown => exact .of_same hb (.inr ⟨_, htake _ _ _⟩)
  case downCap => exact .of_same hb (.inr ⟨_, htake _ _ _⟩)
  case lowPower m =>
    exact .of_same hb (.inr ⟨m, by simp [doLowPower, hb.radio_eq, RadioLink.reset, ControlItems.none]⟩)
  case lowPowerSent => exact .of_same hb (.inl (by simp [doLowPowerSent, hb.radio_eq, RadioLink.reset]))
  case moduleResetRelease => exact .of_same hb (.inl (by simp [doModuleResetRelease, hb.radio_eq, RadioLink.reset]))
  case startTimerExpiry => exact .of_same hb (.inl (by simp [doStartTimerExpiry, hb.radio_eq, RadioLink.reset]))
  case cycleTimerExpiry => exact .of_same hb (.inl (by simp [doCycleTimerExpiry, hb.radio_eq, RadioLink.reset]))
  case attachTimerExpiry => exact .of_same hb (.inl (by simp [doAttachTimerExpiry, hb.radio_eq, RadioLink.reset]))
  case backoffTimerExpiry => exact .of_same hb (.inl (by simp [doBackoffTimerExpiry, hb.radio_eq, RadioLink.reset]))
  case grantSilenceExpiry => exact .of_same hb (.inl (by simp [doGrantSilenceExpiry, hb.radio_eq, RadioLink.reset]))
  case lingerTimerExpiry => exact .of_same hb (.inl (by simp [doLingerTimerExpiry, hb.radio_eq, RadioLink.reset]))
  case sendResultTimeout slot =>
    exact .of_same hb (.inl (by cases slot <;> simp [doSendResultTimeout, slotOfRadio, hb.radio_eq, RadioLink.reset]))
  case health100msExpiry => exact .of_same hb (.inl (by simp [doHealth100msExpiry, hb.health_eq, Health.reset]))
  case health1sExpiry => exact .of_same hb (.inl (by simp [doHealth1sExpiry, hb.health_eq, Health.reset]))
  case releaseTimerExpiry => exact .of_same hb (.inl (by simp [doReleaseTimerExpiry, hb.path_eq, PathController.reset]))
  case dwellTimerExpiry => exact .of_same hb (.inl (by simp [doDwellTimerExpiry, dwellRuns, hb.path_eq, PathController.reset]))
  case drainComplete => exact .of_same hb (.inl (by simp [doDrainComplete, draining, hb.path_eq, PathController.reset]))
  case drainTimerExpiry => exact .of_same hb (.inl (by simp [doDrainTimerExpiry, hb.path_eq, PathController.reset]))
  case refallTimerExpiry => exact .of_same hb (.inl (by simp [doRefallTimerExpiry, hb.path_eq, PathController.reset]))
  case priorityTimerExpiry => exact .of_same hb (.inl (by simp [doPriorityTimerExpiry, hb.path_eq, PathController.reset]))
  case pacingTimerExpiry => exact .of_same hb (.inl (by simp [doPacingTimerExpiry, hb.pacer_eq, Pacer.reset]))
  case refusalPauseEnd => exact .of_same hb (.inl (by simp [doRefusalPauseEnd, hb.pacer_eq, Pacer.reset]))
  case sweep10ms => exact .of_same hb (.inl (by simp [doSweep10ms, hs10]))
  case sweep1s => exact .of_same hb (.inl (by simp [doSweep1s, hs1]))
  case deliveryEnd => exact .of_same hb (.inl (by simp [doDeliveryEnd, hb.ring_eq, RingAgent.reset]))
  case eventPost => exact .of_same hb (.inl (by simp [doEventPost, mayPost, hb.partWorks_eq]))
  case statusRefreshExpiry => exact .of_same hb (.inl (by simp [doStatusRefreshExpiry, hrefresh]))
  case statusPageWrite => exact .of_same hb (.inl (by simp [doStatusPageWrite, hwanted]))
  case softResetDiscard => exact .of_same hb (.inl (by simp [doSoftResetDiscard, hsoft]))
  case mainsReturnExpiry => exact .of_same hb (.inl (by simp [doMainsReturnExpiry, hmains]))
  case quietTimerExpiry => exact .of_same hb (.inl (by simp [doQuietTimerExpiry, quietRuns, hquiet]))
  case dozeEntrySettled => exact .of_same hb (.inl (by simp [doDozeEntrySettled, hstep]))
  case dozeReached => exact .of_same hb (.inl (by simp [doDozeReached, hstep]))
  case dozeTimerExpiry => exact .of_same hb (.inl (by simp [doDozeTimerExpiry, hstep]))
  case restartEnd => exact .of_same hb (.inl (by simp [doRestartEnd, hstep]))
  case linkReceiverResync =>
    exact .of_same hb (.inl (by simp [doLinkReceiverResync, lclkRuns, hb.radio_eq, RadioLink.reset]))

/-! ### A millisecond in a blank part -/

theorem tick_of_ended {s : State} (he : s.loader.phase = .ended) :
    tick s = { tickLeds (countTimers s) with clock := s.clock + 1, pending := s.pending ++ expiries s } := by
  unfold tick
  rw [he]

/-- With both sweeps stopped a millisecond leaves Hold Memory's record as it is. -/
theorem hold_stopped {h : HoldMemory} (h10 : h.sweep10 = none) (h1 : h.sweep1s = none) :
    { h with sweep10 := countDown h.sweep10, sweep1s := countDown h.sweep1s } = h := by
  cases h
  simp_all [countDown]

/-- A millisecond after the load moves nothing of a blank part but the clock and the LEDs: every timer is stopped. -/
theorem Blank.tick_ended {s : State} (hb : Blank s) (he : s.loader.phase = .ended) :
    Blank (tick s) ∧ (tick s).loader = s.loader := by
  obtain ⟨_, _, hwait⟩ := hb.loader_fields
  obtain ⟨_, _, hs10, hs1⟩ := hb.hold_fields
  have hloader : (tick s).loader = s.loader := by
    simp only [tick_of_ended he, tickLeds, countTimers, hwait, countDown, Option.map_none]
    rw [← hwait]
  refine ⟨?_, hloader⟩
  refine ⟨hloader ▸ hb.loader_eq, ?_, ?_, ?_, ?_, ?_, ?_, ?_, ?_, ?_, ?_⟩ <;> rw [tick_of_ended he]
  · exact hb.bus_eq
  · exact hb.ring_eq
  · simp [tickLeds, countTimers, hb.health_eq, Health.reset, countDown]
  · simp [tickLeds, countTimers, hb.path_eq, PathController.reset, countDown, countDwell]
  · rw [show (tickLeds (countTimers s)).hold = s.hold from hold_stopped hs10 hs1]
    exact hb.hold_eq
  · simp [tickLeds, countTimers, hb.pacer_eq, Pacer.reset, countDown]
  · simp [tickLeds, countTimers, hb.radio_eq, RadioLink.reset, countDown, countSlot]
  · dsimp only [tickLeds, countTimers]
    rw [hb.power_eq]
    rfl
  · exact hb.mode_ne
  · dsimp only [tickLeds, countTimers]
    rw [hb.events_eq]
    rfl

/-! ### The two invariants of a blank part -/

/-- A reset leaves a blank part whose load has not ended (R172). -/
theorem blank_of_reset {c : Instr} {s t : State} (hr : isReset c = true) (e : exec c s = .next t) :
    Blank t ∧ t.loader.phase ≠ .ended := by
  have hmode (b : Bool) : PowerUnit.resetWith b = { PowerUnit.resetWith false with mode := (PowerUnit.resetWith b).mode }
      ∧ (PowerUnit.resetWith b).mode ≠ .doze := by cases b <;> decide
  cases c <;> simp [isReset] at hr <;> cases e
  case powerOnReset p =>
    exact ⟨⟨rfl, rfl, rfl, rfl, rfl, rfl, rfl, rfl, (hmode _).1, (hmode _).2, rfl⟩, by simp [doPowerOnReset]⟩
  case resetAsserted =>
    exact ⟨⟨rfl, rfl, rfl, rfl, rfl, rfl, rfl, rfl, (hmode _).1, (hmode _).2, rfl⟩, by simp [doResetAsserted]⟩

/-- Settles O5: each command met by a blank DISABLED part, and each millisecond, leaves it blank with its loader as it was. -/
theorem disabledLasts : Obligations.DisabledLasts := by
  intro s ⟨hended, hlow, hhigh, hb⟩ hfront
  have stays {t : State} (h : BlankAs s t) : Bypassed t := by
    obtain ⟨hbt, hl⟩ := h
    exact ⟨hl ▸ hended, hl ▸ hlow, hl ▸ hhigh, hbt⟩
  unfold step
  split
  · exact ⟨_, rfl, stays (hb.tick_ended hended)⟩
  · rename_i c rest hpending
    obtain ⟨t, ht⟩ := exec_next c { s with pending := rest }
    have hb' : Blank { s with pending := rest } := hb.of_eq rfl rfl rfl rfl rfl rfl rfl rfl rfl rfl
    have hnoReset : isReset c = false := hfront c (by simp [hpending])
    obtain ⟨hbt, hl⟩ := exec_blankAs c hb' hnoReset (fun _ => by simp [hended]) ht
    exact ⟨t, ht, stays ⟨hbt, hl⟩⟩

/-! ### The load phase once it has ended -/

@[simp] theorem arbiterTakes_loader (m : Bool) (n : NextMessage) {f : State → State} (hf : ∀ u, (f u).loader = u.loader) (s : State) :
    (arbiterTakes m n f s).loader = s.loader := by
  simp only [arbiterTakes]
  (repeat' split) <;> simp [hf]

/-- The load, once ended, has ended until the next reset (R172). -/
theorem exec_phase_ended (c : Instr) {s t : State} (hr : isReset c = false) (he : s.loader.phase = .ended)
    (e : exec c s = .next t) : t.loader.phase = .ended := by
  cases c <;> cases e <;> try (simp [isReset] at hr)
  case configurationLoadEnd => simp [doConfigurationLoadEnd, he]
  all_goals
    simp only [doShadowReadsCarried, doGatewayTransfer, doUReadTxpWord, doUReadRxpWord, doTxpWordWrite,
      doTxcWordWrite, doRxpWordWrite, doRxfWordWrite, doEvcWordWrite, doPgenWordWrite, doTxRingCompletionWrite, doStaleUplinkWrite,
      doMasterTransferCarried, carryWhen, doDescriptorReadReturn, doPriorityScanReadReturn, doTakeEnd, doDeliveryDescriptorRead,
      doHandBack, doPolicyApplied, doDeliveryEnd, doLosLinkChange, doOffhookAssert, doOffhookDeassert, doMainsLostAssert,
      doMainsLostDeassert, doRiAssert, doModuleReady, doAttachResult, doGrantReport, doSendResult, doCoverageLost,
      doDeliverDownHeader, doDeliverDownEnd, doBadCarrierHeader, doLinkFramingError, doLinkReceiverResync, doAttachRequest,
      doDetachRequest, doDetachRequestSent, doSendUp, doSendUpEnd, doPauseDown, doResumeDown, doDownCap, doLowPower, doLowPowerSent,
      doModuleResetRelease, doStartTimerExpiry, doCycleTimerExpiry, doAttachTimerExpiry, doBackoffTimerExpiry, doGrantSilenceExpiry,
      doLingerTimerExpiry, doSendResultTimeout, doHealth100msExpiry, doHealth1sExpiry, doReleaseTimerExpiry, doDwellTimerExpiry,
      doDrainComplete, doDrainTimerExpiry, doRefallTimerExpiry, doPriorityTimerExpiry, doPacingTimerExpiry, doRefusalPauseEnd,
      doSweep10ms, doSweep1s, doEventPost, doStatusRefreshExpiry, doStatusPageWrite, doSoftResetDiscard, doMainsReturnExpiry,
      doQuietTimerExpiry, doDozeEntrySettled, doDozeReached, doDozeTimerExpiry, doRestartEnd, nowOrRecorded]
    (repeat' split) <;> simp [he]

/-- The end of a load ends it, whether or not the image is valid (R173). -/
theorem loadEnds_phase (k b : Bool) (i : List Byte) (s : State) : (loadEnds k b i s).loader.phase = .ended := by
  simp only [loadEnds]
  split
  · simp only [startUp, settle_frame]
    split <;> simp
  · rfl

/-- Every command keeps a part blank until its load has ended (R1, R172). -/
theorem exec_loadBlank (c : Instr) {s t : State} (hb : LoadBlank s) (e : exec c s = .next t) : LoadBlank t := by
  intro ht
  cases hr : isReset c with
  | true => exact (blank_of_reset hr e).1
  | false =>
    have hs : s.loader.phase ≠ .ended := fun he => ht (exec_phase_ended c hr he e)
    refine (exec_blankAs c (hb hs) hr (fun ⟨k, b, i, hc⟩ hloading => ht ?_) e).1
    subst hc
    cases e
    simp [doConfigurationLoadEnd, hloading, loadEnds_phase]

/-- A millisecond keeps a part blank until its load has ended. -/
theorem tick_loadBlank {s : State} (hb : LoadBlank s) : LoadBlank (tick s) := by
  intro ht
  unfold tick at ht ⊢
  split at ht <;> rename_i hphase
  · exact hb (by simp [hphase])
  · exact (hb (by simp [hphase])).of_eq rfl rfl rfl rfl rfl rfl rfl rfl rfl rfl
  · exact absurd hphase ht

theorem step_loadBlank {s t : State} (hb : LoadBlank s) (e : step s = .next t) : LoadBlank t := by
  unfold step at e
  split at e
  · cases e
    exact tick_loadBlank hb
  · rename_i c rest _
    exact exec_loadBlank c (s := { s with pending := rest })
      (fun hp => (hb hp).of_eq rfl rfl rfl rfl rfl rfl rfl rfl rfl rfl) e

/-- Settles O11: the commands met before the load has ended leave a blank part blank, and no later command reopens a load. -/
theorem loadStaysBlank : Obligations.LoadStaysBlank := fun _ _ e hb => step_loadBlank hb e

end Sys2Proof.Machine
end

section
/-! FIBRE and DISABLED hold nothing (R3, R4): the seven registers the invariant speaks of, the operations that move them only
while the path holds the rings, those that move the path, and every command. -/

-- One theorem at a time, as in the model's laws: the threads of many at once would not fit the memory a check has.
set_option Elab.async false

namespace Sys2Proof.Machine

/-- The registers the invariant speaks of: the path, the views, the guards, radio wanted and the return pause. -/
def holdings (s : State) : PathState × View × View × Bool × Bool × Bool × Bool :=
  (s.path.path, s.bus.uplinkView, s.bus.receiveView, s.bus.txGuard, s.bus.rxGuard, s.path.radioWanted, s.path.returnPause)

/-- What leaves those registers as they are keeps the invariant. -/
theorem FibreHoldsNothing.of_holdings {s t : State} (h : FibreHoldsNothing s) (e : holdings t = holdings s) : FibreHoldsNothing t := by
  simp only [holdings, Prod.mk.injEq] at e
  obtain ⟨hp, hu, hr, ht, hg, hw, hrp⟩ := e
  simpa only [FibreHoldsNothing, hp, hu, hr, ht, hg, hw, hrp] using h

/-- A path that holds the rings meets the invariant. -/
theorem fibreHoldsNothing_of_holdsRings {s : State} (h : holdsRings s = true) : FibreHoldsNothing s := by
  rintro (hp | hp) <;> simp [holdsRings, hp] at h

theorem holdsRings_of_path {s t : State} (h : t.path.path = s.path.path) : holdsRings t = holdsRings s := by simp [holdsRings, h]

/-- An operation that keeps the path, and moves the other registers only while the path holds the rings, keeps the invariant. -/
theorem FibreHoldsNothing.of_guarded {s t : State} (h : FibreHoldsNothing s) (hp : t.path.path = s.path.path)
    (e : holdsRings s = false → holdings t = holdings s) : FibreHoldsNothing t := by
  cases hh : holdsRings s with
  | true => exact fibreHoldsNothing_of_holdsRings (by rw [holdsRings_of_path hp, hh])
  | false => exact h.of_holdings (e hh)

/-! ### Releases: only while the path holds the rings -/

theorem forceRelease_fibreHoldsNothing {s : State} (h : FibreHoldsNothing s) : FibreHoldsNothing (forceRelease s) :=
  h.of_guarded (by simp) fun hh => by simp [forceRelease, hh]

theorem txcChanged_fibreHoldsNothing {s : State} (h : FibreHoldsNothing s) : FibreHoldsNothing (txcChanged s) := by
  refine h.of_guarded (by simp) fun hh => ?_
  have hh' : holdsRings (scanFollowsTxc s) = false := (holdsRings_of_path (by simp)).trans hh
  simp [txcChanged, checkTxRelease, hh', holdings]

theorem rxfChanged_fibreHoldsNothing {s : State} (h : FibreHoldsNothing s) : FibreHoldsNothing (rxfChanged s) :=
  h.of_guarded (by simp) fun hh => by simp [rxfChanged, checkRxRelease, hh, holdings]

theorem reportChanges_fibreHoldsNothing (b : State) {s : State} (h : FibreHoldsNothing s) : FibreHoldsNothing (reportChanges b s) := by
  have step (q : Bool) (f : State → State) (hf : ∀ {u}, FibreHoldsNothing u → FibreHoldsNothing (f u)) {u : State}
      (hu : FibreHoldsNothing u) : FibreHoldsNothing (if q then f u else u) := by
    split
    · exact hf hu
    · exact hu
  unfold reportChanges
  dsimp only
  exact step _ _ rxfChanged_fibreHoldsNothing <|
    step _ _ (fun hu => hu.of_holdings (by simp [holdings])) <|
    step _ _ txcChanged_fibreHoldsNothing <|
    step _ _ (fun hu => hu.of_holdings (by simp [holdings])) h

/-! ### The memory master's issues and the standing work -/

theorem onIssue_fibreHoldsNothing (p : Purpose) {s : State} (h : FibreHoldsNothing s) : FibreHoldsNothing (onIssue p s) :=
  h.of_guarded (by simp) fun hh => by cases p <;> simp [onIssue, hh, holdings]; split <;> simp

theorem issueOne_fibreHoldsNothing (p : Purpose) (rest : List Purpose) {s : State} (h : FibreHoldsNothing s) :
    FibreHoldsNothing (issueOne p rest s) := by
  simp only [issueOne]
  (repeat' split) <;> first | exact onIssue_fibreHoldsNothing _ (h.of_holdings rfl) | exact h.of_holdings rfl

theorem pump_fibreHoldsNothing (n : Nat) {s : State} (h : FibreHoldsNothing s) : FibreHoldsNothing (pump n s) := by
  induction n generalizing s with
  | zero => exact h
  | succ n ih =>
    unfold pump
    split
    · exact h
    · split
      · exact ih (issueOne_fibreHoldsNothing _ _ h)
      · exact h

theorem issueAll_fibreHoldsNothing {s : State} (h : FibreHoldsNothing s) : FibreHoldsNothing (issueAll s) :=
  pump_fibreHoldsNothing 64 h

theorem settle_fibreHoldsNothing {s : State} (h : FibreHoldsNothing s) : FibreHoldsNothing (settle s) := by
  have quiet {f : State → State} (hf : ∀ u, holdings (f u) = holdings u) {u : State} (hu : FibreHoldsNothing u) :
      FibreHoldsNothing (f u) := hu.of_holdings (hf u)
  unfold settle
  exact quiet (fun u => by simp [holdings]) <| issueAll_fibreHoldsNothing <|
    quiet (f := tryHandBack) (fun u => by simp [holdings]) <| issueAll_fibreHoldsNothing <|
    quiet (f := evalScan) (fun u => by simp [holdings]) <| quiet (f := judgeDelivery) (fun u => by simp [holdings]) <|
    issueAll_fibreHoldsNothing h

/-! ### The Path Controller -/

theorem evalReturn_fibreHoldsNothing {s : State} (h : FibreHoldsNothing s) : FibreHoldsNothing (evalReturn s) := by
  unfold evalReturn
  (repeat' split) <;> first | exact h | exact fibreHoldsNothing_of_holdsRings (by simp [holdsRings])

/-- A move to RADIO or HELD, and the return it may begin, leave the path holding the rings. -/
theorem moveAndEval_fibreHoldsNothing {p : PathState} (hp : p = .radio ∨ p = .held) (c : PathCause) (s : State) :
    FibreHoldsNothing (moveAndEval p c s) := by
  refine evalReturn_fibreHoldsNothing (fibreHoldsNothing_of_holdsRings ?_)
  obtain rfl | rfl := hp <;> simp [holdsRings]

theorem radioReport_fibreHoldsNothing {s : State} (h : FibreHoldsNothing s) : FibreHoldsNothing (radioReport s) := by
  unfold radioReport
  (repeat' split) <;> first | exact h | exact moveAndEval_fibreHoldsNothing (by simp) _ _

theorem interruptReturn_fibreHoldsNothing (c : PathCause) {s : State} (h : FibreHoldsNothing s) :
    FibreHoldsNothing (interruptReturn c s) := by
  unfold interruptReturn
  split
  · refine evalReturn_fibreHoldsNothing (fibreHoldsNothing_of_holdsRings ?_)
    dsimp only
    split <;> simp [holdsRings]
  · exact h

theorem enterTakeover_fibreHoldsNothing (c : PathCause) (s : State) : FibreHoldsNothing (enterTakeover c s) := by
  have base (t : State) (ht : t.path.path = .takeover) :
      FibreHoldsNothing (if (radioReport t).path.path = .takeover then evalReturn (radioReport t) else radioReport t) := by
    have hr := radioReport_fibreHoldsNothing (fibreHoldsNothing_of_holdsRings (s := t) (by simp [holdsRings, ht]))
    split
    · exact evalReturn_fibreHoldsNothing hr
    · exact hr
  simp only [enterTakeover]
  exact base _ (by simp)

theorem evalTakeover_fibreHoldsNothing {s : State} (h : FibreHoldsNothing s) : FibreHoldsNothing (evalTakeover s) := by
  unfold evalTakeover
  split
  · split
    · exact enterTakeover_fibreHoldsNothing _ _
    · exact h
  · exact h

theorem verdictReport_fibreHoldsNothing {s : State} (h : FibreHoldsNothing s) : FibreHoldsNothing (verdictReport s) := by
  unfold verdictReport
  dsimp only
  (repeat' split) <;>
    first
    | exact evalTakeover_fibreHoldsNothing h
    | exact interruptReturn_fibreHoldsNothing _ (h.of_holdings rfl)
    | exact h.of_holdings rfl

theorem overrideChanged_fibreHoldsNothing {s : State} (h : FibreHoldsNothing s) : FibreHoldsNothing (overrideChanged s) := by
  unfold overrideChanged
  (repeat' split) <;>
    first
    | exact h
    | exact evalTakeover_fibreHoldsNothing h
    | exact interruptReturn_fibreHoldsNothing _ h
    | exact evalReturn_fibreHoldsNothing h

theorem scanReports_fibreHoldsNothing {s : State} (h : FibreHoldsNothing s) : FibreHoldsNothing (scanReports s) := by
  unfold scanReports
  split
  · exact enterTakeover_fibreHoldsNothing _ _
  · exact h

/-- A hand-back takes the views and the guards, the return pause and radio wanted away (R19). -/
theorem handBackWith_fibreHoldsNothing (c : PathCause) (s : State) : FibreHoldsNothing (handBackWith c s) := by
  intro _
  simp only [handBackWith, unwantRadio, withPauseTarget]
  split <;> simp

theorem handBackReturn_fibreHoldsNothing (s : State) : FibreHoldsNothing (handBackReturn s) :=
  evalTakeover_fibreHoldsNothing ((handBackWith_fibreHoldsNothing .handedBack s).of_holdings rfl)

theorem handBack_fibreHoldsNothing (s : State) : FibreHoldsNothing (handBack s) := by
  unfold handBack
  split
  · have given := handBackWith_fibreHoldsNothing .softReset (if s.loader.softReset = .waiting then softDiscard s else s)
    exact given.of_holdings (by simp [handBackSoft, holdings])
  · exact handBackReturn_fibreHoldsNothing s

/-! ### The health monitor and the policy block -/

theorem evaluate_fibreHoldsNothing {s : State} (h : FibreHoldsNothing s) : FibreHoldsNothing (evaluate s) := by
  simp only [evaluate]
  split
  · exact h
  · exact verdictReport_fibreHoldsNothing (h.of_holdings (by simp [holdings]))

theorem sampleTxe_fibreHoldsNothing (v : Byte) {s : State} (h : FibreHoldsNothing s) : FibreHoldsNothing (sampleTxe v s) := by
  unfold sampleTxe
  (repeat' split) <;> first | exact h | exact evaluate_fibreHoldsNothing (h.of_holdings (by simp [holdings]))

theorem ownersTake_fibreHoldsNothing (p : Policy) (b : Bool) {s : State} (h : FibreHoldsNothing s) : FibreHoldsNothing (ownersTake p b s) := by
  have base (t : State) (ht : FibreHoldsNothing t) (q : Bool) : FibreHoldsNothing (if q then overrideChanged t else t) := by
    split
    · exact overrideChanged_fibreHoldsNothing ht
    · exact ht
  have h' := base (clampCredit { s with loader.policy := p }) (h.of_holdings (by simp [holdings]))
    (p.pathOverride != s.loader.policy.pathOverride)
  unfold ownersTake
  dsimp only
  split <;> exact h'.of_holdings (by simp [holdings])

theorem softDiscard_fibreHoldsNothing {s : State} (h : FibreHoldsNothing s) : FibreHoldsNothing (softDiscard s) :=
  (forceRelease_fibreHoldsNothing h).of_holdings (by simp [softDiscard, holdings])

theorem afterApplication_fibreHoldsNothing (k : ReadKind) (soft : Bool) {s : State} (h : FibreHoldsNothing s) :
    FibreHoldsNothing (afterApplication k soft s) := by
  unfold afterApplication
  split
  · split <;> exact h.of_holdings (by simp [holdings])
  · dsimp only
    split <;> exact h.of_holdings (by simp [holdings])
  · exact (evalTakeover_fibreHoldsNothing (s := { s with loader.softReset := .none }) (h.of_holdings rfl)).of_holdings (by simp [holdings])

theorem applyBlock_fibreHoldsNothing (bs : List Byte) {s : State} (h : FibreHoldsNothing s) : FibreHoldsNothing (applyBlock bs s) := by
  have h' := ownersTake_fibreHoldsNothing (policyOf bs) (s.loader.readKind == .startUp)
    (h.of_holdings (t := takeRequests bs (s.loader.readKind == .startUp) s) (by simp [holdings]))
  exact afterApplication_fibreHoldsNothing _ _ (h'.of_holdings (by simp [holdings]))

theorem shadowsCarried_fibreHoldsNothing {s : State} (h : FibreHoldsNothing s) : FibreHoldsNothing (shadowsCarried s) := by
  refine (evalTakeover_fibreHoldsNothing (s := { s with
    loader.shadowsLoaded := true
    events.evp := shadowCount s .evc
    events.slotKinds := List.replicate 64 none
    health.txReference := some (shadowCount s .txc)
    events.refreshTimer := some 100 }) (h.of_holdings rfl)).of_holdings ?_
  simp only [shadowsCarried]
  split <;> simp [holdings]

/-- A blank part holds nothing. -/
theorem Blank.holds_nothing {s : State} (hb : Blank s) :
    s.bus.uplinkView = .off ∧ s.bus.receiveView = .off ∧ s.bus.txGuard = false ∧ s.bus.rxGuard = false
      ∧ s.path.radioWanted = false ∧ s.path.returnPause = false := by
  rw [hb.bus_eq, hb.path_eq]
  exact ⟨rfl, rfl, rfl, rfl, rfl, rfl⟩

/-- A valid image starts a blank part in FIBRE with nothing held (R175). -/
theorem startUp_fibreHoldsNothing (bs : List Byte) {s : State} (hb : Blank s) : FibreHoldsNothing (startUp bs s) := by
  simp only [startUp]
  refine settle_fibreHoldsNothing fun _ => ?_
  split <;> simp [hb.holds_nothing]

/-- The end of a load leaves a blank part in FIBRE or in DISABLED with nothing held (R173, R174). -/
theorem loadEnds_fibreHoldsNothing (a b : Bool) (bs : List Byte) {s : State} (hb : Blank s) : FibreHoldsNothing (loadEnds a b bs s) := by
  have hb' (code : Nat) : Blank { s with loader.phase := .ended, loader.flashCode := code, pins.bypass := b } :=
    ⟨by dsimp only; rw [hb.loader_eq], hb.bus_eq, hb.ring_eq, hb.health_eq, hb.path_eq, hb.hold_eq, hb.pacer_eq, hb.radio_eq,
      hb.power_eq, hb.mode_ne, hb.events_eq⟩
  simp only [loadEnds]
  split
  · exact startUp_fibreHoldsNothing bs (hb' _)
  · exact fun _ => (hb' _).holds_nothing

/-! ### The Packet Bus -/

theorem reportRequester_fibreHoldsNothing (req : Requester) (ws : List (Nat × LaneWord)) (b : State) {s : State}
    (h : FibreHoldsNothing s) : FibreHoldsNothing (reportRequester req ws b s) := by
  have fold (vs : List Byte) : ∀ {t : State}, FibreHoldsNothing t → FibreHoldsNothing (vs.foldl (fun s v => sampleTxe v s) t) := by
    induction vs with
    | nil => exact id
    | cons v vs ih => exact fun ht => ih (sampleTxe_fibreHoldsNothing v ht)
  unfold reportRequester
  split
  · dsimp only
    (repeat' split) <;> exact h.of_holdings (by simp [holdings])
  · dsimp only
    split
    · exact fold _ (h.of_holdings (by simp [holdings]))
    · exact fold _ h
  · exact h

theorem carryWrite_fibreHoldsNothing (req : Requester) (a : Addr) (ws : List LaneWord) {s : State} (h : FibreHoldsNothing s) :
    FibreHoldsNothing (carryWrite req a ws s) := by
  have kept := (reportRequester_fibreHoldsNothing req (carriedWords s req (placeWords a ws)) s <| reportChanges_fibreHoldsNothing s <|
    h.of_holdings (t := landWords (carriedWords s req (placeWords a ws)) s) (by simp [holdings]))
  exact kept.of_holdings (by simp [carryWrite, holdings])

theorem shadowReturns_fibreHoldsNothing (w : Watched) (v : Word) {s : State} (h : FibreHoldsNothing s) :
    FibreHoldsNothing (shadowReturns w v s) := by
  simp only [shadowReturns]
  cases w <;> dsimp only <;> split <;>
    first | exact shadowsCarried_fibreHoldsNothing (h.of_holdings rfl) | exact h.of_holdings rfl

theorem scanReturns_fibreHoldsNothing (pos : Count) (v : Word) {s : State} (h : FibreHoldsNothing s) :
    FibreHoldsNothing (scanReturns pos v s) := by
  simp only [scanReturns]
  (repeat' split) <;> first | exact scanReports_fibreHoldsNothing (h.of_holdings rfl) | exact h.of_holdings rfl

theorem readReturns_fibreHoldsNothing (p : Purpose) (ws : List Word) {s : State} (h : FibreHoldsNothing s) :
    FibreHoldsNothing (readReturns p ws s) := by
  unfold readReturns
  (repeat' split) <;>
    first
    | exact shadowReturns_fibreHoldsNothing _ _ h
    | exact scanReturns_fibreHoldsNothing _ _ h
    | exact applyBlock_fibreHoldsNothing _ h
    | exact h.of_holdings (by simp [holdings])

theorem writeCarried_fibreHoldsNothing (p : Purpose) {s : State} (h : FibreHoldsNothing s) : FibreHoldsNothing (writeCarried p s) := by
  unfold writeCarried
  dsimp only
  (repeat' split) <;> first | exact handBack_fibreHoldsNothing s | exact h.of_holdings (by simp [holdings])

theorem carryMaster_fibreHoldsNothing (m : MasterTransfer) {s : State} (h : FibreHoldsNothing s) : FibreHoldsNothing (carryMaster m s) := by
  unfold carryMaster
  split
  · exact readReturns_fibreHoldsNothing _ _ h
  · exact writeCarried_fibreHoldsNothing _ <| reportChanges_fibreHoldsNothing s <| h.of_holdings (by simp [holdings])

theorem carryHead_fibreHoldsNothing {s : State} (h : FibreHoldsNothing s) : FibreHoldsNothing (carryHead s) := by
  unfold carryHead
  split
  · exact h
  · exact settle_fibreHoldsNothing (carryMaster_fibreHoldsNothing _ (h.of_holdings rfl))

theorem carryWhen_fibreHoldsNothing (p : Purpose → Bool) {s : State} (h : FibreHoldsNothing s) : FibreHoldsNothing (carryWhen p s) := by
  unfold carryWhen
  (repeat' split) <;> first | exact carryHead_fibreHoldsNothing h | exact h

theorem gatewayTransfer_fibreHoldsNothing (req : Requester) (x : Transfer) {s : State} (h : FibreHoldsNothing s) :
    FibreHoldsNothing (gatewayTransfer req x s) := by
  have h' : FibreHoldsNothing (grantGateway (masterFirst s)) := by
    unfold masterFirst
    split
    · exact (carryHead_fibreHoldsNothing h).of_holdings rfl
    · exact h.of_holdings rfl
  unfold gatewayTransfer
  refine settle_fibreHoldsNothing ?_
  cases x with
  | read a len => exact h'.of_holdings (by simp [holdings])
  | write a ws => exact carryWrite_fibreHoldsNothing req a ws h'

/-! ### The radio's reports and the recorded causes -/

theorem attachedLost_fibreHoldsNothing {s : State} (h : FibreHoldsNothing s) : FibreHoldsNothing (attachedLost s) :=
  radioReport_fibreHoldsNothing (h.of_holdings (by simp [holdings]))

theorem attachFailed_fibreHoldsNothing (cause : Nat) {s : State} (h : FibreHoldsNothing s) :
    FibreHoldsNothing (afterFailure (radioReport (attachFails cause s))) :=
  (radioReport_fibreHoldsNothing (h.of_holdings (t := attachFails cause s) (by simp [holdings]))).of_holdings (by simp [holdings])

theorem moduleIsReady_fibreHoldsNothing {s : State} (h : FibreHoldsNothing s) : FibreHoldsNothing (moduleIsReady s) := by
  unfold moduleIsReady
  split
  · exact h
  · exact h.of_holdings (by simp [holdings])
  · exact h.of_holdings (by simp [holdings])
  · exact attachFailed_fibreHoldsNothing 18 (h.of_holdings (by simp [holdings]))
  · exact radioReport_fibreHoldsNothing (h.of_holdings (by simp [holdings]))
  · exact h.of_holdings (by simp [holdings])

theorem attachSucceeds_fibreHoldsNothing {s : State} (h : FibreHoldsNothing s) : FibreHoldsNothing (attachSucceeds s) := by
  simp only [attachSucceeds]
  refine FibreHoldsNothing.of_holdings (radioReport_fibreHoldsNothing (h.of_holdings ?_)) (by simp [holdings]; exact ⟨rfl, rfl, rfl, rfl, rfl, rfl, rfl⟩)
  simp [holdings]

theorem startExpires_fibreHoldsNothing {s : State} (h : FibreHoldsNothing s) : FibreHoldsNothing (startExpires s) := by
  unfold startExpires
  split
  · simp only [startFails]
    exact radioReport_fibreHoldsNothing (h.of_holdings (by simp [holdings]))
  · exact h.of_holdings rfl

theorem attachExpires_fibreHoldsNothing {s : State} (h : FibreHoldsNothing s) : FibreHoldsNothing (attachExpires s) := by
  simp only [attachExpires]
  split
  · exact attachFailed_fibreHoldsNothing 16 (h.of_holdings rfl)
  · exact h.of_holdings rfl

theorem dwellExpires_fibreHoldsNothing {s : State} (h : FibreHoldsNothing s) : FibreHoldsNothing (dwellExpires s) := by
  unfold dwellExpires
  split
  · exact evalReturn_fibreHoldsNothing (h.of_holdings rfl)
  · exact h

theorem priorityExpires_fibreHoldsNothing {s : State} (h : FibreHoldsNothing s) : FibreHoldsNothing (priorityExpires s) :=
  evalReturn_fibreHoldsNothing (h.of_holdings (by simp [holdings]))

theorem actRecorded_fibreHoldsNothing (r : Recorded) {s : State} (h : FibreHoldsNothing s) : FibreHoldsNothing (actRecorded r s) := by
  cases r with
  | release => exact forceRelease_fibreHoldsNothing (h.of_holdings rfl)
  | dwell => exact dwellExpires_fibreHoldsNothing h
  | refall => exact h.of_holdings rfl
  | priority => exact priorityExpires_fibreHoldsNothing h
  | start => exact startExpires_fibreHoldsNothing h
  | attach => exact attachExpires_fibreHoldsNothing h
  | backoff => exact h.of_holdings (by simp [actRecorded, holdings])
  | linger => exact h.of_holdings (by simp [actRecorded, holdings])

theorem actAllRecorded_fibreHoldsNothing {s : State} (h : FibreHoldsNothing s) : FibreHoldsNothing (actAllRecorded s) := by
  have fold (rs : List Recorded) : ∀ {t : State}, FibreHoldsNothing t → FibreHoldsNothing (rs.foldl (fun s r => actRecorded r s) t) := by
    induction rs with
    | nil => exact id
    | cons r rs ih => exact fun ht => ih (actRecorded_fibreHoldsNothing r ht)
  exact fold _ (h.of_holdings rfl)

theorem useLatch_fibreHoldsNothing {s : State} (h : FibreHoldsNothing s) : FibreHoldsNothing (useLatch s) := by
  unfold useLatch
  dsimp only
  (repeat' split) <;>
    first
    | exact evaluate_fibreHoldsNothing (h.of_holdings (by simp [holdings]))
    | exact h.of_holdings (by simp [holdings])

/-- An expiry, acted on at once or recorded for the restart. -/
theorem expiry_fibreHoldsNothing (r : Recorded) {s : State} (h : FibreHoldsNothing s) :
    FibreHoldsNothing (nowOrRecorded r (actRecorded r) s) := by
  unfold nowOrRecorded
  (repeat' split) <;> first | exact actRecorded_fibreHoldsNothing r h | exact h.of_holdings rfl

theorem restart_fibreHoldsNothing {s : State} (h : FibreHoldsNothing s) :
    FibreHoldsNothing (evalReturn (useLatch (takeUpWork (actAllRecorded (startBlocks s))))) := by
  have acted := actAllRecorded_fibreHoldsNothing (h.of_holdings (t := startBlocks s) (by simp [holdings]))
  exact evalReturn_fibreHoldsNothing (useLatch_fibreHoldsNothing (acted.of_holdings (by simp [holdings])))

/-! ### Every command and every step -/

/-- A command that acts under a condition keeps the invariant when its act does. -/
theorem FibreHoldsNothing.ite {s t : State} {p : Prop} [Decidable p] (h : FibreHoldsNothing s) (ht : p → FibreHoldsNothing t) :
    FibreHoldsNothing (if p then t else s) := by
  split
  · exact ht ‹_›
  · exact h

/-- The commands of the lines move none of the seven registers before the standing work. -/
theorem lines_fibreHoldsNothing {s : State} (h : FibreHoldsNothing s) :
    (∀ los link, FibreHoldsNothing (doLosLinkChange los link s)) ∧ FibreHoldsNothing (doOffhookAssert s)
      ∧ FibreHoldsNothing (doMainsLostAssert s) ∧ FibreHoldsNothing (doMainsLostDeassert s) ∧ FibreHoldsNothing (doRiAssert s) := by
  refine ⟨?_, ?_, ?_, ?_, ?_⟩
  all_goals intros
  all_goals simp only [doLosLinkChange, doOffhookAssert, doMainsLostAssert, doMainsLostDeassert, doRiAssert]
  all_goals (repeat' split) <;>
    first
    | exact settle_fibreHoldsNothing (h.of_holdings (by simp [holdings]))
    | exact h.of_holdings (by simp [holdings])

/-- The messages that settle a slot or bring a payload or a grant move none of the seven registers before the standing work. -/
theorem messages_fibreHoldsNothing {s : State} (h : FibreHoldsNothing s) :
    (∀ u d q, FibreHoldsNothing (doGrantReport u d q s)) ∧ (∀ tag, FibreHoldsNothing (doSendResult tag s))
      ∧ (∀ tag n, FibreHoldsNothing (doDeliverDownHeader tag n s)) ∧ (∀ bs, FibreHoldsNothing (doDeliverDownEnd bs s))
      ∧ (∀ type tag n, FibreHoldsNothing (doBadCarrierHeader type tag n s)) ∧ FibreHoldsNothing (doLinkFramingError s)
      ∧ FibreHoldsNothing (doLinkReceiverResync s) := by
  refine ⟨?_, ?_, ?_, ?_, ?_, ?_, ?_⟩
  all_goals intros
  all_goals simp only [doGrantReport, doSendResult, doDeliverDownHeader, doDeliverDownEnd, doBadCarrierHeader,
      doLinkFramingError, doLinkReceiverResync]
  all_goals (repeat' split) <;>
    first
    | exact settle_fibreHoldsNothing (h.of_holdings (by simp [holdings]))
    | exact h.of_holdings (by simp [holdings])

theorem arbiterTakes_fibreHoldsNothing (m : Bool) (n : NextMessage) {f : State → State} (hf : ∀ u, holdings (f u) = holdings u)
    {s : State} (h : FibreHoldsNothing s) : FibreHoldsNothing (arbiterTakes m n f s) := by
  simp only [arbiterTakes]
  split
  · split
    · exact h.of_holdings ((hf _).trans (by simp [holdings]))
    · exact h.of_holdings (by simp [holdings])
  · exact h.of_holdings rfl

/-- What the arbiter begins and ends on LDO move none of the seven registers before the standing work. -/
theorem arbiter_fibreHoldsNothing {s : State} (h : FibreHoldsNothing s) :
    (∀ m, FibreHoldsNothing (doAttachRequest m s)) ∧ (∀ m, FibreHoldsNothing (doDetachRequest m s))
      ∧ (∀ m, FibreHoldsNothing (doSendUp m s)) ∧ FibreHoldsNothing (doSendUpEnd s) ∧ (∀ m, FibreHoldsNothing (doPauseDown m s))
      ∧ (∀ m, FibreHoldsNothing (doResumeDown m s)) ∧ (∀ m, FibreHoldsNothing (doDownCap m s))
      ∧ (∀ m, FibreHoldsNothing (doLowPower m s)) ∧ FibreHoldsNothing (doLowPowerSent s) := by
  have takes (m : Bool) (n : NextMessage) {f : State → State} (hf : ∀ u, holdings (f u) = holdings u) :=
    arbiterTakes_fibreHoldsNothing m n hf h
  refine ⟨fun m => takes m _ ?_, fun m => takes m _ ?_, fun m => ?_, ?_, fun m => takes m _ ?_, fun m => takes m _ ?_,
    fun m => takes m _ ?_, fun m => ?_, ?_⟩
  case refine_3 =>
    unfold doSendUp
    split
    · exact takes m _ (fun u => by simp [holdings])
    · exact h.of_holdings rfl
  case refine_4 =>
    simp only [doSendUpEnd]
    split
    · split <;> exact settle_fibreHoldsNothing (h.of_holdings (by simp [holdings]))
    · exact h
  case refine_8 =>
    unfold doLowPower
    split
    · exact takes m _ (fun u => by simp [holdings])
    · exact h.of_holdings rfl
  case refine_9 =>
    simp only [doLowPowerSent]
    split
    · split <;> exact settle_fibreHoldsNothing (h.of_holdings rfl)
    · exact h
  all_goals
    intro u
    simp [holdings]

/-- The timers of the module, the pacer and the sweeps, and the end of a drain move none of the seven registers before the standing work. -/
theorem timers_fibreHoldsNothing {s : State} (h : FibreHoldsNothing s) :
    FibreHoldsNothing (doModuleResetRelease s) ∧ FibreHoldsNothing (doCycleTimerExpiry s)
      ∧ (∀ slot, FibreHoldsNothing (doSendResultTimeout slot s)) ∧ FibreHoldsNothing (doDrainComplete s)
      ∧ FibreHoldsNothing (doPacingTimerExpiry s) ∧ FibreHoldsNothing (doRefusalPauseEnd s) ∧ FibreHoldsNothing (doSweep10ms s)
      ∧ FibreHoldsNothing (doSweep1s s) := by
  refine ⟨?_, ?_, ?_, ?_, ?_, ?_, ?_, ?_⟩
  all_goals intros
  all_goals simp only [doModuleResetRelease, doCycleTimerExpiry, doSendResultTimeout, doDrainComplete, doPacingTimerExpiry,
      doRefusalPauseEnd, doSweep10ms, doSweep1s]
  all_goals (repeat' split) <;>
    first
    | exact settle_fibreHoldsNothing (h.of_holdings (by simp [holdings]))
    | exact h.of_holdings (by simp [holdings])

/-- The delivery's end, the events, the page and the power modes move none of the seven registers before the standing work. -/
theorem status_fibreHoldsNothing {s : State} (h : FibreHoldsNothing s) :
    FibreHoldsNothing (doDeliveryEnd s) ∧ FibreHoldsNothing (doEventPost s) ∧ FibreHoldsNothing (doStatusRefreshExpiry s)
      ∧ FibreHoldsNothing (doStatusPageWrite s) ∧ FibreHoldsNothing (doMainsReturnExpiry s)
      ∧ FibreHoldsNothing (doQuietTimerExpiry s) ∧ FibreHoldsNothing (doDozeEntrySettled s)
      ∧ FibreHoldsNothing (doDozeReached s) ∧ FibreHoldsNothing (doDozeTimerExpiry s) := by
  refine ⟨?_, ?_, ?_, ?_, ?_, ?_, ?_, ?_, ?_⟩
  all_goals intros
  all_goals simp only [doDeliveryEnd, doEventPost, doStatusRefreshExpiry, doStatusPageWrite, doMainsReturnExpiry,
      doQuietTimerExpiry, doDozeEntrySettled, doDozeReached, doDozeTimerExpiry]
  all_goals (repeat' split) <;>
    first
    | exact settle_fibreHoldsNothing (h.of_holdings (by simp [holdings]))
    | exact h.of_holdings (by simp [holdings])

/-- What a command does keeps the invariant; the end of a load begins from a blank part (R1, R175). -/
theorem exec_fibreHoldsNothing (c : Instr) {s t : State} (hb : LoadBlank s) (h : FibreHoldsNothing s) (e : exec c s = .next t) :
    FibreHoldsNothing t := by
  obtain ⟨hLosLinkChange, hOffhookAssert, hMainsLostAssert, hMainsLostDeassert, hRiAssert⟩ := lines_fibreHoldsNothing h
  obtain ⟨hGrantReport, hSendResult, hDeliverDownHeader, hDeliverDownEnd, hBadCarrierHeader, hLinkFramingError, hLinkReceiverResync⟩ := messages_fibreHoldsNothing h
  obtain ⟨hAttachRequest, hDetachRequest, hSendUp, hSendUpEnd, hPauseDown, hResumeDown, hDownCap, hLowPower, hLowPowerSent⟩ := arbiter_fibreHoldsNothing h
  obtain ⟨hModuleResetRelease, hCycleTimerExpiry, hSendResultTimeout, hDrainComplete, hPacingTimerExpiry, hRefusalPauseEnd, hSweep10ms, hSweep1s⟩ := timers_fibreHoldsNothing h
  obtain ⟨hDeliveryEnd, hEventPost, hStatusRefreshExpiry, hStatusPageWrite, hMainsReturnExpiry, hQuietTimerExpiry, hDozeEntrySettled, hDozeReached, hDozeTimerExpiry⟩ := status_fibreHoldsNothing h
  cases c <;> cases e
  case powerOnReset => exact fun _ => ⟨rfl, rfl, rfl, rfl, rfl, rfl⟩
  case resetAsserted => exact fun _ => ⟨rfl, rfl, rfl, rfl, rfl, rfl⟩
  case configurationLoadEnd =>
    exact h.ite fun hl => loadEnds_fibreHoldsNothing _ _ _ (hb (by simp [hl]))
  case shadowReadsCarried => exact h.ite fun _ => carryHead_fibreHoldsNothing h
  case gatewayTransfer => exact gatewayTransfer_fibreHoldsNothing _ _ h
  case uReadTxpWord => exact gatewayTransfer_fibreHoldsNothing _ _ h
  case uReadRxpWord => exact gatewayTransfer_fibreHoldsNothing _ _ h
  case txpWordWrite => exact gatewayTransfer_fibreHoldsNothing _ _ h
  case txcWordWrite => exact gatewayTransfer_fibreHoldsNothing _ _ h
  case rxpWordWrite => exact gatewayTransfer_fibreHoldsNothing _ _ h
  case rxfWordWrite => exact gatewayTransfer_fibreHoldsNothing _ _ h
  case evcWordWrite => exact gatewayTransfer_fibreHoldsNothing _ _ h
  case pgenWordWrite => exact gatewayTransfer_fibreHoldsNothing _ _ h
  case txRingCompletionWrite => exact gatewayTransfer_fibreHoldsNothing _ _ h
  case staleUplinkWrite => exact gatewayTransfer_fibreHoldsNothing _ _ h
  case masterTransferCarried => exact carryHead_fibreHoldsNothing h
  case priorityScanReadReturn => exact carryWhen_fibreHoldsNothing _ h
  case descriptorReadReturn => exact carryWhen_fibreHoldsNothing _ h
  case takeEnd => exact carryWhen_fibreHoldsNothing _ h
  case deliveryDescriptorRead => exact carryWhen_fibreHoldsNothing _ h
  case handBack => exact carryWhen_fibreHoldsNothing _ h
  case policyApplied => exact carryWhen_fibreHoldsNothing _ h
  case offhookDeassert =>
    exact h.ite fun _ => settle_fibreHoldsNothing (evalReturn_fibreHoldsNothing (h.of_holdings (by simp [holdings])))
  case moduleReady => exact h.ite fun _ => settle_fibreHoldsNothing (moduleIsReady_fibreHoldsNothing h)
  case attachResult tag =>
    refine h.ite fun _ => ?_
    split
    · exact settle_fibreHoldsNothing (attachSucceeds_fibreHoldsNothing h)
    · exact settle_fibreHoldsNothing (attachFailed_fibreHoldsNothing _ h)
  case coverageLost => exact h.ite fun _ => settle_fibreHoldsNothing (attachedLost_fibreHoldsNothing h)
  case grantSilenceExpiry => exact h.ite fun _ => settle_fibreHoldsNothing (attachedLost_fibreHoldsNothing h)
  case detachRequestSent =>
    simp only [doDetachRequestSent]
    split
    · split
      · exact settle_fibreHoldsNothing (attachedLost_fibreHoldsNothing (h.of_holdings rfl))
      · exact settle_fibreHoldsNothing (h.of_holdings rfl)
    · exact h
  case startTimerExpiry => exact h.ite fun _ => settle_fibreHoldsNothing (expiry_fibreHoldsNothing .start h)
  case attachTimerExpiry => exact h.ite fun _ => settle_fibreHoldsNothing (expiry_fibreHoldsNothing .attach h)
  case backoffTimerExpiry => exact h.ite fun _ => settle_fibreHoldsNothing (expiry_fibreHoldsNothing .backoff h)
  case lingerTimerExpiry => exact h.ite fun _ => settle_fibreHoldsNothing (expiry_fibreHoldsNothing .linger h)
  case releaseTimerExpiry => exact h.ite fun _ => settle_fibreHoldsNothing (expiry_fibreHoldsNothing .release h)
  case dwellTimerExpiry => exact h.ite fun _ => settle_fibreHoldsNothing (expiry_fibreHoldsNothing .dwell h)
  case refallTimerExpiry => exact h.ite fun _ => expiry_fibreHoldsNothing .refall h
  case priorityTimerExpiry => exact h.ite fun _ => settle_fibreHoldsNothing (expiry_fibreHoldsNothing .priority h)
  case health100msExpiry =>
    refine h.ite fun _ => settle_fibreHoldsNothing (evaluate_fibreHoldsNothing ?_)
    split <;> exact h.of_holdings (by simp [holdings])
  case health1sExpiry =>
    exact h.ite fun _ => settle_fibreHoldsNothing (evaluate_fibreHoldsNothing (h.of_holdings (by simp [holdings])))
  case drainTimerExpiry =>
    refine h.ite fun hd => settle_fibreHoldsNothing (fibreHoldsNothing_of_holdsRings ?_)
    have hret : s.path.path = .returning := by simp_all [draining]
    simp [holdsRings, hret]
  case softResetDiscard => exact h.ite fun _ => settle_fibreHoldsNothing (softDiscard_fibreHoldsNothing h)
  case restartEnd => exact h.ite fun _ => settle_fibreHoldsNothing (restart_fibreHoldsNothing h)
  case losLinkChange => exact hLosLinkChange _ _
  case offhookAssert => exact hOffhookAssert
  case mainsLostAssert => exact hMainsLostAssert
  case mainsLostDeassert => exact hMainsLostDeassert
  case riAssert => exact hRiAssert
  case grantReport => exact hGrantReport _ _ _
  case sendResult => exact hSendResult _
  case deliverDownHeader => exact hDeliverDownHeader _ _
  case deliverDownEnd => exact hDeliverDownEnd _
  case badCarrierHeader => exact hBadCarrierHeader _ _ _
  case linkFramingError => exact hLinkFramingError
  case linkReceiverResync => exact hLinkReceiverResync
  case attachRequest => exact hAttachRequest _
  case detachRequest => exact hDetachRequest _
  case sendUp => exact hSendUp _
  case sendUpEnd => exact hSendUpEnd
  case pauseDown => exact hPauseDown _
  case resumeDown => exact hResumeDown _
  case downCap => exact hDownCap _
  case lowPower => exact hLowPower _
  case lowPowerSent => exact hLowPowerSent
  case moduleResetRelease => exact hModuleResetRelease
  case cycleTimerExpiry => exact hCycleTimerExpiry
  case sendResultTimeout => exact hSendResultTimeout _
  case drainComplete => exact hDrainComplete
  case pacingTimerExpiry => exact hPacingTimerExpiry
  case refusalPauseEnd => exact hRefusalPauseEnd
  case sweep10ms => exact hSweep10ms
  case sweep1s => exact hSweep1s
  case deliveryEnd => exact hDeliveryEnd
  case eventPost => exact hEventPost
  case statusRefreshExpiry => exact hStatusRefreshExpiry
  case statusPageWrite => exact hStatusPageWrite
  case mainsReturnExpiry => exact hMainsReturnExpiry
  case quietTimerExpiry => exact hQuietTimerExpiry
  case dozeEntrySettled => exact hDozeEntrySettled
  case dozeReached => exact hDozeReached
  case dozeTimerExpiry => exact hDozeTimerExpiry

/-- Settles O12: every step keeps a loading part blank, and FIBRE and DISABLED free of what only the other paths hold. -/
theorem fibreHoldsNothingStays : Obligations.FibreHoldsNothingStays := by
  rintro s t e ⟨hb, h⟩
  refine ⟨step_loadBlank hb e, ?_⟩
  unfold step at e
  split at e
  · cases e
    unfold tick
    split <;> exact h.of_holdings rfl
  · rename_i c rest _
    exact exec_fibreHoldsNothing c (s := { s with pending := rest })
      (fun hp => (hb hp).of_eq rfl rfl rfl rfl rfl rfl rfl rfl rfl rfl) (h.of_holdings rfl) e

end Sys2Proof.Machine
end

section
/-! The two resets (R153, R172) and the millisecond of an empty queue (log 2, log 37). -/

-- One theorem at a time, as in the model's laws: the threads of many at once would not fit the memory a check has.
set_option Elab.async false

namespace Sys2Proof.Machine

/-! ### A master write cut off by a reset -/

/-- A byte read after a list of writes is the byte before them, or one that they write at its address. -/
theorem memRead_memWriteAll_cases {m : Memory} (h : Memory.wf m = true) (l : List (Nat × Byte)) (x : Nat) :
    memRead (memWriteAll m l) x = memRead m x ∨ ∃ b, (x, b) ∈ l ∧ memRead (memWriteAll m l) x = b := by
  induction l generalizing m with
  | nil => exact .inl rfl
  | cons p l ih =>
    simp only [memWriteAll]
    obtain hkept | ⟨b, hmem, hb⟩ := ih (memWrite_wf p.1 p.2 h)
    · rw [hkept, memRead_memWrite h]
      split
      · rename_i hx
        exact .inr ⟨p.2, by simp [hx], rfl⟩
      · exact .inl rfl
    · exact .inr ⟨b, List.mem_cons_of_mem _ hmem, hb⟩

/-- The bytes of a cut-off write that land are bytes of that write (R153). -/
theorem mem_of_mem_tornBytes {n : Nat} {ws : List (Nat × LaneWord)} {q : Nat × Byte} (h : q ∈ tornBytes n ws) :
    q ∈ ws.flatMap fun p => laneBytes p.1 p.2 := by
  simp only [tornBytes, List.mem_filterMap] at h
  obtain ⟨⟨i, b⟩, hmem, htaken⟩ := h
  split at htaken
  · cases htaken
    exact (List.of_mem_zip hmem).2
  · cases htaken

/-- With no write at the head of the master queue a reset cuts nothing off. -/
theorem cutMaster_of_noWrite {s : State} (h : ∀ p a ws, s.bus.queue.head? ≠ some ⟨p, .write a ws⟩) : cutMaster s = s := by
  unfold cutMaster
  split
  · rename_i hq
    simp [hq] at h
  · rfl

/-- After a cut-off write each byte is the one before it, or one that the write puts there. -/
theorem memRead_cutMaster {s : State} {p : Purpose} {a : Addr} {ws : List LaneWord} (hq : s.bus.queue.head? = some ⟨p, .write a ws⟩)
    (hwf : Memory.wf s.sram = true) (x : Nat) : memRead (cutMaster s).sram x = memRead s.sram x
      ∨ ∃ b, (x, b) ∈ (placeWords a ws).flatMap (fun q => laneBytes q.1 q.2) ∧ memRead (cutMaster s).sram x = b := by
  obtain ⟨rest, hqueue⟩ : ∃ rest, s.bus.queue = ⟨p, .write a ws⟩ :: rest := by
    cases hl : s.bus.queue <;> simp_all
  simp only [cutMaster, hqueue]
  obtain hkept | ⟨b, hmem, hb⟩ := memRead_memWriteAll_cases hwf (tornBytes s.draws (placeWords a ws)) x
  · exact .inl hkept
  · exact .inr ⟨b, mem_of_mem_tornBytes hmem, hb⟩

/-- Settles O16: a reset writes each block's record, which holds the values spelled out, and memory changes only by the write it cuts off. -/
theorem resetsGivePowerOnValues : Obligations.ResetsGivePowerOnValues := by
  intro c s hr
  have hsram (h : ∀ p a ws, s.bus.queue.head? ≠ some ⟨p, .write a ws⟩) : (cutMaster s).sram = s.sram := by
    rw [cutMaster_of_noWrite h]
  have hshadow (w : Watched) : shadowOf BusPath.reset.shadows w = none := by cases w <;> rfl
  cases c <;> simp [isReset] at hr
  case powerOnReset p =>
    refine ⟨doPowerOnReset p s, rfl, ?_⟩
    simp only [doPowerOnReset]
    simp [hshadow, Loader.reset, BusPath.reset, RingAgent.reset, Health.reset, PathController.reset, HoldMemory.resetWith, Pacer.reset,
      RadioLink.reset, PowerUnit.resetWith, EventUnit.reset, Config.cellCount]
    exact ⟨hshadow, hsram, fun _ _ _ hq hwf x => by simpa using memRead_cutMaster hq hwf x⟩
  case resetAsserted =>
    refine ⟨doResetAsserted s, rfl, ?_⟩
    simp only [doResetAsserted]
    simp [hshadow, Loader.reset, BusPath.reset, RingAgent.reset, Health.reset, PathController.reset, HoldMemory.resetWith, Pacer.reset,
      RadioLink.reset, PowerUnit.resetWith, EventUnit.reset, Config.cellCount]
    exact ⟨hshadow, hsram, fun _ _ _ hq hwf x => by simpa using memRead_cutMaster hq hwf x⟩

/-! ### The expiries of a millisecond -/

/-- Each timer's running out, with its expiry command, in the order of `expiries`. -/
def expiryPairs (s : State) : List (Bool × Instr) :=
  [(runsOut s.health.timer100, Instr.health100msExpiry),
   (runsOut s.health.timer1s, .health1sExpiry),
   (runsOut s.path.releaseTimer, .releaseTimerExpiry),
   (s.path.dwell == .running 1, .dwellTimerExpiry),
   (runsOut s.path.drainTimer, .drainTimerExpiry),
   (runsOut s.path.refallTimer, .refallTimerExpiry),
   (runsOut s.path.priorityTimer, .priorityTimerExpiry),
   (runsOut s.pacer.pacing, .pacingTimerExpiry),
   (runsOut s.pacer.refusalPause, .refusalPauseEnd),
   (runsOut s.hold.sweep10, .sweep10ms),
   (runsOut s.hold.sweep1s, .sweep1s),
   (runsOut s.events.refreshTimer, .statusRefreshExpiry),
   (runsOut s.power.mainsReturn, .mainsReturnExpiry),
   (s.power.quiet == .running 1, .quietTimerExpiry),
   (runsOut s.power.dozeTimer, .dozeTimerExpiry),
   (runsOut s.power.restart, .restartEnd),
   (runsOut s.radio.mrstTimer, .moduleResetRelease),
   (runsOut s.radio.startTimer, .startTimerExpiry),
   (runsOut s.radio.cycleTimer, .cycleTimerExpiry),
   (runsOut s.radio.attachTimer, .attachTimerExpiry),
   (runsOut s.radio.backoffTimer, .backoffTimerExpiry),
   (enginesRun s && runsOut s.radio.silenceTimer, .grantSilenceExpiry),
   (runsOut s.radio.lingerTimer, .lingerTimerExpiry),
   (runsOut (slotTimer s.radio.slotA), .sendResultTimeout .a),
   (runsOut (slotTimer s.radio.slotB), .sendResultTimeout .b),
   (runsOut s.loader.softWait, .softResetDiscard)]

theorem expiries_eq (s : State) : expiries s = (expiryPairs s).filterMap fun p => if p.1 then some p.2 else none := rfl

/-- Each expiry command belongs to one timer. -/
theorem expiryPairs_nodup (s : State) : ((expiryPairs s).map (·.2)).Nodup := by
  simp [expiryPairs]

/-- Among pairs with different commands the flagged ones alone are picked. -/
theorem mem_flagged_iff {l : List (Bool × Instr)} (hl : (l.map (·.2)).Nodup) {b : Bool} {c : Instr} (hc : (b, c) ∈ l) :
    (c ∈ l.filterMap fun p => if p.1 then some p.2 else none) ↔ b = true := by
  constructor
  · intro h
    obtain ⟨⟨b', c'⟩, hmem, hpick⟩ := List.mem_filterMap.1 h
    obtain ⟨hb', rfl⟩ : b' = true ∧ c' = c := by cases b' <;> simp_all
    have := List.inj_on_of_nodup_map hl hc hmem rfl
    simp_all
  · rintro rfl
    exact List.mem_filterMap.2 ⟨_, hc, rfl⟩

theorem mem_expiries_iff {s : State} {b : Bool} {c : Instr} (hc : (b, c) ∈ expiryPairs s) : c ∈ expiries s ↔ b = true :=
  mem_flagged_iff (expiryPairs_nodup s) hc

/-- How a timer `T` with expiry command `c` counts from `s` to `t`. -/
def TimerCounts (s t : State) (T : State → Timer) (c : Instr) : Prop :=
  (∀ n, T s = some (n + 2) → T t = some (n + 1) ∧ c ∉ t.pending) ∧ (T s = some 1 → c ∈ t.pending)
    ∧ (T s = none → T t = none ∧ c ∉ t.pending)

/-- A timer that is counted down, and whose running out queues its command, counts. -/
theorem timerCounts_of {s t : State} {T : State → Timer} {c : Instr} (ht : t.pending = expiries s) (hT : T t = countDown (T s))
    (hc : (runsOut (T s), c) ∈ expiryPairs s) : TimerCounts s t T c := by
  unfold TimerCounts
  rw [hT, ht, mem_expiries_iff hc]
  refine ⟨fun n h => ?_, fun h => ?_, fun h => ?_⟩ <;> simp [h, countDown, runsOut]

/-- A slot's timer counts as every other. -/
theorem slotTimer_countSlot (b : Option BusySlot) : slotTimer (countSlot b) = countDown (slotTimer b) := by
  cases b <;> rfl

/-- A busy slot keeps its record and its mark while its timer counts. -/
theorem countSlot_eq (b : Option BusySlot) : countSlot b = b.map fun x => { x with timer := slotTimer (countSlot b) } := by
  cases b <;> rfl

/-- In DISABLED the path LED shows the flash code's pattern, but in DOZE (R170, R174). -/
theorem pathLedLit_disabled {s : State} (hl : s.loader.phase = .ended) (hp : s.path.path = .disabled) :
    pathLedLit s = true ↔ s.power.mode ≠ .doze ∧ s.events.ledMs < 300 * s.loader.flashCode ∧ s.events.ledMs % 300 < 100 := by
  by_cases hm : s.power.mode = .doze <;> simp [pathLedLit, pathLed, hl, hp, hm, patternLit]

/-- Settles O2: on an empty queue `step` is `tick`, which counts each timer and queues the commands of those that run out. -/
theorem emptyQueuePassesMillisecond : Obligations.EmptyQueuePassesMillisecond := by
  intro s hp
  refine ⟨tick s, by simp [step, hp], fun h => by simp [tick, h], fun h => by simp [tick, h], fun he => ?_⟩
  rw [tick_of_ended he, hp, List.nil_append]
  have hdwell : (s.path.dwell == .running 1, Instr.dwellTimerExpiry) ∈ expiryPairs s := by simp [expiryPairs]
  have hquiet : (s.power.quiet == .running 1, Instr.quietTimerExpiry) ∈ expiryPairs s := by simp [expiryPairs]
  have hsilence : (enginesRun s && runsOut s.radio.silenceTimer, Instr.grantSilenceExpiry) ∈ expiryPairs s := by simp [expiryPairs]
  refine ⟨rfl, rfl, rfl, rfl, rfl, rfl, rfl, rfl, rfl, rfl, rfl, rfl, countSlot_eq _, countSlot_eq _, rfl, rfl, ?_, ?_⟩
  · intro p hmem
    change TimerCounts s _ p.1 p.2
    simp only [List.mem_cons, List.not_mem_nil, or_false] at hmem
    rcases hmem with rfl | rfl | rfl | rfl | rfl | rfl | rfl | rfl | rfl | rfl | rfl | rfl | rfl | rfl | rfl | rfl | rfl | rfl | rfl
      | rfl | rfl | rfl | rfl <;> refine timerCounts_of rfl ?_ (by simp [expiryPairs])
    all_goals first | rfl | exact slotTimer_countSlot _
  · simp only [mem_expiries_iff hdwell, mem_expiries_iff hquiet, mem_expiries_iff hsilence]
    refine ⟨fun n h => ?_, fun h => ?_, fun h => ?_, fun n h => ?_, fun h => ?_, fun h => ?_, fun h => ?_, fun n hm h => ?_,
      fun hm h => ?_, fun h => ?_, rfl, fun h => pathLedLit_disabled he h⟩
    case refine_3 => obtain h | h := h <;> simp [tickLeds, countTimers, countDwell, h]
    case refine_6 => obtain h | h := h <;> simp [tickLeds, countTimers, countQuiet, h]
    all_goals simp_all [tickLeds, countTimers, countDwell, countQuiet, countDown, enginesRun, runsOut]

end Sys2Proof.Machine
end

section
/-! The standing work of a command's end: the master's issues one by one, and the hand-back's write (R17, R150). -/

-- One theorem at a time, as in the model's laws: the threads of many at once would not fit the memory a check has.
set_option Elab.async false

namespace Sys2Proof.Machine

/-! ### Issuing one by one -/

theorem pump_nil (n : Nat) {s : State} (h : s.bus.waiting = []) : pump n s = s := by
  cases n <;> simp [pump, h]

/-- A waiting request is issued while the queue has room and the engines run (R150). -/
theorem pump_cons (n : Nat) {s : State} {p : Purpose} {rest : List Purpose} (hw : s.bus.waiting = p :: rest)
    (hq : s.bus.queue.length ≤ 7) (he : s.power.mode ≠ .doze) : pump (n + 1) s = pump n (issueOne p rest s) := by
  have room : s.bus.queue.length < Config.queuePlaces := by simp only [Config.queuePlaces]; omega
  simp [pump, hw, room, enginesRun, he]

/-- The issue of a request whose transfer is `x`: it leaves the waiting list, its transfer joins the queue, and its block acts. -/
theorem issueOne_formed {s : State} {m : MemoryMap} {p : Purpose} {rest : List Purpose} {x : Transfer} (hm : s.loader.map = some m)
    (hx : formTransfer { s with bus.waiting := rest } m p = some x) :
    issueOne p rest s = onIssue p { s with bus.waiting := rest, bus.queue := s.bus.queue ++ [⟨p, x⟩] } := by
  simp [issueOne, hm, hx]

/-- A single waiting request whose issue asks for nothing more is all that is issued. -/
theorem issueAll_one {s : State} {m : MemoryMap} {p : Purpose} {x : Transfer} (hm : s.loader.map = some m)
    (hw : s.bus.waiting = [p]) (hq : s.bus.queue.length ≤ 7) (he : s.power.mode ≠ .doze)
    (hx : formTransfer { s with bus.waiting := [] } m p = some x)
    (hdone : (onIssue p { s with bus.waiting := [], bus.queue := s.bus.queue ++ [⟨p, x⟩] }).bus.waiting = []) :
    issueAll s = onIssue p { s with bus.waiting := [], bus.queue := s.bus.queue ++ [⟨p, x⟩] } := by
  rw [issueAll, pump_cons 63 hw hq he, issueOne_formed hm hx, pump_nil 63 hdone]

/-! ### The scan outside FIBRE -/

theorem scanWanted_offFibre {s : State} (h : s.path.path ≠ .fibre) : scanWanted s = false := by simp [scanWanted, h]

/-- Off FIBRE, with nothing waiting, the scan at most stops: it asks for nothing (R6). -/
theorem evalScan_offFibre {s : State} (h : s.path.path ≠ .fibre) (hw : s.bus.waiting = []) :
    (evalScan s).bus = s.bus ∧ (evalScan s).ring.takes = s.ring.takes ∧ (evalScan s).ring.delivery = s.ring.delivery
      ∧ (evalScan s).ring.partTxc = s.ring.partTxc ∧ (evalScan s).ring.fence = s.ring.fence
      ∧ (evalScan s).ring.handBackAsked = s.ring.handBackAsked := by
  have idle : withdrawScanRead s = s := withdrawScanRead_idle (by simp [hw])
  simp only [evalScan, scanWanted_offFibre h]
  split
  · contradiction
  · split
    · simp [stopScan, idle]
    · simp

/-! ### The end of a drain (R17) -/

/-- The write of TXC = F (R19). -/
abbrev handBackWrite (m : MemoryMap) (f : Count) : MasterTransfer :=
  ⟨.txcHandBack, .write (addrOf (watchedAddr m .txc)) [⟨f.setWidth 32, 15⟩]⟩

/-- In CLOSING with all that R18 waits for done, the end of a command asks for exactly the write of TXC = F, which is issued. -/
theorem settle_closed {s : State} {m : MemoryMap} {f : Count} (hm : s.loader.map = some m) (hpath : s.path.path = .returning)
    (hphase : s.path.phase = some .closing) (hsoft : s.loader.softReset ≠ .waiting) (hdqV : s.hold.dqV = []) (hdqD : s.hold.dqD = [])
    (hf : s.ring.fence = some f) (hasked : s.ring.handBackAsked = false) (hclosed : closed s = true) (he : s.power.mode ≠ .doze)
    (hq : s.bus.queue.length ≤ 7) (hw : s.bus.waiting = []) :
    (settle s).bus.queue = s.bus.queue ++ [handBackWrite m f] := by
  obtain ⟨hbus, htakes, hdelivery, htxc, hfence, hask⟩ := evalScan_offFibre (s := s) (by simp [hpath]) hw
  have hclosed' : closed (evalScan s) = true := by simpa [closed, htakes, hdelivery, htxc, hfence] using hclosed
  have hback : tryHandBack (evalScan s)
      = request .txcHandBack { evalScan s with ring.handBackAsked := true } := by
    simp [tryHandBack, hpath, hphase, hsoft, hfence, hf, hask, hasked, hclosed']
  have hissue := issueAll_one (s := request .txcHandBack { evalScan s with ring.handBackAsked := true }) (m := m) (p := .txcHandBack)
    (x := (handBackWrite m f).transfer) (by simp [hm]) (by simp [hbus, hw]) (by simpa [hbus] using hq) (by simpa using he)
    (by simp [formTransfer, hfence, hf, indexWord]) rfl
  rw [settle, issueAll_idle hw, judgeDelivery_idle hdqV hdqD, issueAll_idle (s := evalScan s) (by rw [hbus, hw]), hback, hissue]
  simp [onIssue, hbus]

/-- Without all of R17's conditions DRAIN_COMPLETE changes nothing. -/
theorem doDrainComplete_of_not {s : State} (h : draining s = false ∨ drainDone s = false) : doDrainComplete s = s := by
  obtain h | h := h <;> simp [doDrainComplete, h]

/-- Settles O36: CLOSING begins under `drainDone`, whose end is `settle_closed`; each missing condition refutes it. -/
theorem drainCompleteBeginsHandBack : Obligations.DrainCompleteBeginsHandBack := by
  refine ⟨?_, ?_, ?_, ?_⟩
  · intro m f s hpath hphase hnw hnc hE hV hD hA hB hdV hdD hdel hfence htxc htx hrx hrxf htakes hasked hm he hq hw
    have hdrain : draining s = true := by simp [draining, hpath, hphase, softResetStands, hnw, hnc]
    have hdone : drainDone s = true := by
      simp [drainDone, uplinkEmpty, slotsFree, downlinkEmpty, hE, hV, hD, hA, hB, hdV, hdD, hdel, hfence, htxc, htx, hrx, hrxf]
    refine ⟨settle { s with path.phase := some .closing, path.drainTimer := none }, ?_, ?_, ?_, ?_, ?_⟩
    · show Host.Outcome.next (doDrainComplete s) = _
      simp [doDrainComplete, hdrain, hdone]
    · simp [hpath]
    · simp
    · simp
    · exact settle_closed hm hpath rfl hnw hdV hdD hfence hasked (by simp [closed, htakes, hdel, htxc, hfence, htx, hrx]) he hq hw
  · intro s hmissing
    refine congrArg _ (doDrainComplete_of_not (.inr ?_))
    rcases hmissing with h | h | h | h | h | h | h | h | h | h | h | h <;> simp [drainDone, uplinkEmpty, slotsFree, downlinkEmpty, h]
  · intro b f s hbase htxc hfence hbelow
    refine congrArg _ (doDrainComplete_of_not (.inr ?_))
    have hne : b ≠ f := by
      rintro rfl
      obtain ⟨e, _, h⟩ | ⟨k, _, h⟩ := hbelow <;> simp [dist] at h
    simp [drainDone, htxc, hbase, hfence, hne]
  · intro s hnot
    refine congrArg _ (doDrainComplete_of_not (.inl ?_))
    rcases hnot with h | h | h | h <;> simp [draining, softResetStands, h]

end Sys2Proof.Machine
end

section
/-! What the standing work asks of the master and which events it raises: the engines ask only for their own transfers, and raise
only losses and bus anomalies (R50, R78, R129, R150). -/

-- One theorem at a time, as in the model's laws: the threads of many at once would not fit the memory a check has.
set_option Elab.async false

namespace Sys2Proof.Machine

/-- The transfers the engines ask for of their own accord. The others come of a command: start-up and policy reads, forced releases,
the status write, an event record and the pages. -/
def engineAsks : Purpose → Bool
  | .completion _ _ => true
  | .descriptorRead _ _ => true
  | .scanRead _ => true
  | .frameRead _ => true
  | .txcAdvance => true
  | .txcHandBack => true
  | .receiveDescriptorRead => true
  | .bufferWrite => true
  | .rxfDelivery => true
  | .rxfCatchUp => true
  | .evpWrite => true
  | .shadowRead _ => false
  | .txcForced => false
  | .receiveStatus => false
  | .abandonedEmpty _ => false
  | .rxfForced => false
  | .eventRecord => false
  | .pageHalf _ _ => false
  | .policyRead _ => false

/-- The kinds the engines raise. -/
def engineRaises (k : EventKind) : Prop := k = .voiceLoss ∨ k = .dataLoss ∨ k = .busAnomaly

/-- A request that is formed whatever the state, and that nothing withdraws once it waits. -/
def standsFirm : Purpose → Bool
  | .shadowRead _ => true
  | .descriptorRead _ _ => true
  | .completion _ _ => true
  | .txcForced => true
  | .txcHandBack => true
  | .receiveDescriptorRead => true
  | .abandonedEmpty _ => true
  | .rxfDelivery => true
  | .rxfForced => true
  | .evpWrite => true
  | .pageHalf _ _ => true
  | .policyRead _ => true
  | .scanRead _ => false
  | .frameRead _ => false
  | .txcAdvance => false
  | .bufferWrite => false
  | .receiveStatus => false
  | .rxfCatchUp => false
  | .eventRecord => false

theorem formTransfer_of_standsFirm {p : Purpose} (h : standsFirm p = true) (s : State) (m : MemoryMap) :
    ∃ x, formTransfer s m p = some x := by
  cases p
  case pageHalf second _ => cases second <;> exact ⟨_, rfl⟩
  case policyRead second => cases second <;> exact ⟨_, rfl⟩
  all_goals first | exact ⟨_, rfl⟩ | simp [standsFirm] at h

/-- From `s` to `t` the master's queue only grows, by transfers formed in the map `m`; of the requests `X` that stood first in line,
the first have joined the queue in their order and the others stand first in line still (R150, log 12). -/
def Passes (m : MemoryMap) (X : List Purpose) (s t : State) : Prop :=
  ∃ new : List MasterTransfer, t.bus.queue = s.bus.queue ++ new ∧ (∀ x ∈ new, ∃ u, formTransfer u m x.purpose = some x.transfer)
    ∧ (X <+: new.map (·.purpose) ∨ ∃ Y, X = new.map (·.purpose) ++ Y ∧ Y <+: t.bus.waiting)

theorem Passes.trans {m : MemoryMap} {X : List Purpose} {s t u : State} (h : Passes m X s t)
    (h' : ∀ Y, (∀ p ∈ Y, p ∈ X) → Y <+: t.bus.waiting → Passes m Y t u) : Passes m X s u := by
  obtain ⟨new, hq, hf, hx⟩ := h
  have grown (Y : List Purpose) (hY : Passes m Y t u) (hcase : X <+: new.map (·.purpose) ∨ X = new.map (·.purpose) ++ Y) :
      Passes m X s u := by
    obtain ⟨new', hq', hf', hy⟩ := hY
    refine ⟨new ++ new', by rw [hq', hq, List.append_assoc], fun x hmem => ?_, ?_⟩
    · exact (List.mem_append.1 hmem).elim (hf x) (hf' x)
    · rw [List.map_append]
      obtain hpre | rfl := hcase
      · exact .inl (hpre.trans (List.prefix_append _ _))
      · obtain hpre | ⟨Z, rfl, hZ⟩ := hy
        · exact .inl ((List.prefix_append_right_inj _).2 hpre)
        · exact .inr ⟨Z, by rw [List.append_assoc], hZ⟩
  obtain hpre | ⟨Y, rfl, hY⟩ := hx
  · exact grown [] (h' [] (by simp) (List.nil_prefix)) (.inl hpre)
  · exact grown Y (h' Y (by simp +contextual) hY) (.inr rfl)

/-- With the queue as it is, what stands first in line stands there still. -/
theorem Passes.of_line {m : MemoryMap} {X : List Purpose} {s t : State} (hq : t.bus.queue = s.bus.queue) (h : X <+: t.bus.waiting) :
    Passes m X s t := ⟨[], by simp [hq], by simp, .inr ⟨X, rfl, h⟩⟩

/-- What the engines keep: new requests are their own, and with no event record waiting every entry of another kind stands;
the loaded map stands, and what stands firm first in line is issued in its order. -/
structure EngineAsks (s t : State) : Prop where
  asked : ∀ p ∈ t.bus.waiting, p ∈ s.bus.waiting ∨ engineAsks p = true
  entries : .eventRecord ∉ s.bus.waiting → ∀ k, ¬ engineRaises k → entryOfKind t k = entryOfKind s k
  places : t.events.entries.length = s.events.entries.length
  map : t.loader.map = s.loader.map
  passes : ∀ m X, s.loader.map = some m → (∀ p ∈ X, standsFirm p = true) → X <+: s.bus.waiting → Passes m X s t

/-- The engines leave no event record waiting where none waited. -/
theorem EngineAsks.noRecord {s t : State} (h : EngineAsks s t) (hs : .eventRecord ∉ s.bus.waiting) : .eventRecord ∉ t.bus.waiting := by
  intro ht
  obtain hin | hasks := h.asked _ ht
  · exact hs hin
  · simp [engineAsks] at hasks

theorem EngineAsks.refl (s : State) : EngineAsks s s := ⟨fun _ hp => .inl hp, fun _ _ _ => rfl, rfl, rfl, fun _ _ _ _ hX => .of_line rfl hX⟩

theorem EngineAsks.trans {s t u : State} (h : EngineAsks s t) (h' : EngineAsks t u) : EngineAsks s u := by
  refine ⟨fun p hp => ?_, fun hs k hk => (h'.entries (h.noRecord hs) k hk).trans (h.entries hs k hk), h'.places.trans h.places,
    h'.map.trans h.map, fun m X hm hX hline => ?_⟩
  · obtain hin | hasks := h'.asked p hp
    · exact h.asked p hin
    · exact .inr hasks
  · exact (h.passes m X hm hX hline).trans fun Y hY hY' => h'.passes m Y (h.map.trans hm) (fun p hp => hX p (hY p hp)) hY'

/-- What adds an engine's own requests and moves no entry. -/
theorem EngineAsks.of_asks {s t : State} {ps : List Purpose} (hw : t.bus.waiting = s.bus.waiting ++ ps)
    (hp : ∀ p ∈ ps, engineAsks p = true) (he : t.events.entries = s.events.entries)
    (hq : t.bus.queue = s.bus.queue := by first | rfl | simp) (hm : t.loader.map = s.loader.map := by first | rfl | simp) :
    EngineAsks s t := by
  refine ⟨fun p hmem => ?_, fun _ _ _ => by simp [entryOfKind, he], by rw [he], hm, fun _ _ _ _ hX => .of_line hq ?_⟩
  swap
  · exact hw ▸ hX.trans (List.prefix_append _ _)
  rw [hw, List.mem_append] at hmem
  exact hmem.imp_right (hp p)

/-- What a Voice Priority take may move of the path and the radio: the priority timer, the emergency, the attach and the start (R22, R116). -/
def emergencyPart (s : State) : (Timer × Bool) × (RadioState × Bool × Bool × Bool × Bool) × (Timer × Timer × Timer × Timer × Timer) × Option Bool :=
  ((s.path.priorityTimer, s.path.emergency), (s.radio.state, s.radio.ready, s.radio.items.attach, s.radio.mpwr, s.radio.mrst),
    (s.radio.startTimer, s.radio.attachTimer, s.radio.backoffTimer, s.radio.lingerTimer, s.radio.mrstTimer), s.radio.attachTag)

/-- With no window entry no take begins: the window stays empty and no emergency arises. -/
abbrev EngineIdle (s t : State) : Prop := s.ring.window = [] → t.ring.window = [] ∧ emergencyPart t = emergencyPart s

/-- What stands whatever takes begin: a pending Detach Request, an answer of Low Power on outside an entry's last stage, a linger or
backoff timer that does not run, an attach under way, and outside DOZE the overrun checks due. -/
structure EngineFirm (s t : State) : Prop where
  detach : t.radio.items.detach = s.radio.items.detach
  lowPower : s.power.step ≠ .entering .link → t.power.step ≠ .entering .link ∧ t.radio.items.lowPower = s.radio.items.lowPower
  linger : s.radio.lingerTimer = none → t.radio.lingerTimer = none
  backoff : s.radio.backoffTimer = none → t.radio.backoffTimer = none
  attaching : s.radio.state = .attaching → t.radio.state = .attaching ∧ t.radio.items.attach = s.radio.items.attach
  checks : s.power.mode ≠ .doze → t.power.mode ≠ .doze ∧ t.ring.txCheckDue = s.ring.txCheckDue ∧ t.ring.rxCheckDue = s.ring.rxCheckDue

theorem EngineFirm.refl (s : State) : EngineFirm s s := ⟨rfl, fun h => ⟨h, rfl⟩, id, id, fun h => ⟨h, rfl⟩, fun h => ⟨h, rfl, rfl⟩⟩

theorem EngineFirm.trans {s t u : State} (h : EngineFirm s t) (h' : EngineFirm t u) : EngineFirm s u where
  detach := h'.detach.trans h.detach
  lowPower hs := by
    obtain ⟨ht, hst⟩ := h.lowPower hs
    obtain ⟨hu, htu⟩ := h'.lowPower ht
    exact ⟨hu, htu.trans hst⟩
  linger hs := h'.linger (h.linger hs)
  backoff hs := h'.backoff (h.backoff hs)
  attaching hs := by
    obtain ⟨ht, hst⟩ := h.attaching hs
    obtain ⟨hu, htu⟩ := h'.attaching ht
    exact ⟨hu, htu.trans hst⟩
  checks hs := by
    obtain ⟨ht, htx, hrx⟩ := h.checks hs
    obtain ⟨hu, htx', hrx'⟩ := h'.checks ht
    exact ⟨hu, htx'.trans htx, hrx'.trans hrx⟩

theorem EngineFirm.of_radio {s t : State} (hr : t.radio = s.radio) (hp : t.power = s.power) (htx : t.ring.txCheckDue = s.ring.txCheckDue)
    (hrx : t.ring.rxCheckDue = s.ring.rxCheckDue) : EngineFirm s t := by constructor <;> simp +contextual [hr, hp, htx, hrx]

/-- What the standing work keeps. -/
structure EngineKeeps (s t : State) : Prop extends EngineAsks s t where
  idle : EngineIdle s t
  firm : EngineFirm s t

namespace EngineKeeps

theorem refl (s : State) : EngineKeeps s s := ⟨.refl s, fun h => ⟨h, rfl⟩, .refl s⟩

theorem trans {s t u : State} (h : EngineKeeps s t) (h' : EngineKeeps t u) : EngineKeeps s u := by
  refine ⟨h.toEngineAsks.trans h'.toEngineAsks, fun hs => ?_, h.firm.trans h'.firm⟩
  obtain ⟨ht, hst⟩ := h.idle hs
  obtain ⟨hu, htu⟩ := h'.idle ht
  exact ⟨hu, htu.trans hst⟩

/-- What moves neither the waiting requests nor the entries. -/
theorem of_eq {s t : State} (hw : t.bus.waiting = s.bus.waiting) (he : t.events.entries = s.events.entries)
    (hi : EngineIdle s t := by first | exact fun h => ⟨h, rfl⟩ | exact fun h => by simp [h, emergencyPart])
    (hq : t.bus.queue = s.bus.queue := by first | rfl | simp) (hm : t.loader.map = s.loader.map := by first | rfl | simp)
    (hf : EngineFirm s t := by first | (refine .of_radio ?_ ?_ ?_ ?_ <;> simp; done) | (constructor <;> simp +contextual)) :
    EngineKeeps s t :=
  ⟨.of_asks (ps := []) (by simpa using hw) (by simp) he hq hm, hi, hf⟩

/-- What follows a move of neither. -/
theorem of_moved {s u t : State} (h : EngineKeeps u t) (hw : u.bus.waiting = s.bus.waiting) (he : u.events.entries = s.events.entries)
    (hi : EngineIdle s u := by first | exact fun h => ⟨h, rfl⟩ | exact fun h => by simp [h, emergencyPart])
    (hq : u.bus.queue = s.bus.queue := by first | rfl | simp) (hm : u.loader.map = s.loader.map := by first | rfl | simp)
    (hf : EngineFirm s u := by first | (refine .of_radio ?_ ?_ ?_ ?_ <;> simp; done) | (constructor <;> simp +contextual)) :
    EngineKeeps s t := (of_eq hw he hi hq hm hf).trans h

theorem ite {s t u : State} {p : Prop} [Decidable p] (ht : p → EngineKeeps s t) (hu : ¬ p → EngineKeeps s u) :
    EngineKeeps s (if p then t else u) := by
  split
  · exact ht ‹_›
  · exact hu ‹_›

theorem foldl {β : Type} {g : State → β → State} (hg : ∀ s a, EngineKeeps s (g s a)) (l : List β) (s : State) :
    EngineKeeps s (l.foldl g s) := by
  induction l generalizing s with
  | nil => exact refl s
  | cons a l ih => exact (hg s a).trans (ih _)

end EngineKeeps

/-- A raise leaves every entry of another kind (R167). -/
theorem entryOfKind_raiseEvent_ne {d : EventDetail} {k : EventKind} (h : detailKind d ≠ k) (s : State) :
    entryOfKind (raiseEvent d s) k = entryOfKind s k := by
  have hne : kindPriority (detailKind d) - 1 ≠ kindPriority k - 1 := by
    intro heq
    apply h
    cases hd : detailKind d <;> cases k <;> simp [hd, kindPriority] at heq ⊢
  simp [entryOfKind, List.getD_eq_getElem?_getD, hne]

/-- A raise of a kind the engines raise. -/
theorem raiseEvent_engineKeeps {d : EventDetail} (hd : engineRaises (detailKind d)) (s : State) : EngineKeeps s (raiseEvent d s) :=
  ⟨⟨fun _ hp => .inl (by simpa using hp), fun _ k hk => entryOfKind_raiseEvent_ne (fun (h : _ = k) => hk (h ▸ hd)) s, by simp, by simp,
    fun _ _ _ _ hX => .of_line (by simp) (by simpa using hX)⟩,
    fun h => by simp [h, emergencyPart], .of_radio (by simp) (by simp) (by simp) (by simp)⟩

/-! ### The pending Attach Request under the pause and an abandoned entry to DOZE -/

@[simp] theorem evalPause_items_attach (s : State) : (evalPause s).radio.items.attach = s.radio.items.attach := by
  simp only [evalPause, withPauseTarget]
  split <;> rfl

@[simp] theorem answerLowPower_items_attach (s : State) : (answerLowPower s).radio.items.attach = s.radio.items.attach := by
  unfold answerLowPower
  (repeat' split) <;> rfl

@[simp] theorem abandonEntry_items_attach (s : State) : (abandonEntry s).radio.items.attach = s.radio.items.attach := by
  simp only [abandonEntry]
  split <;> simp

@[simp] theorem recordJoins_items_attach (s : State) : (recordJoins s).radio.items.attach = s.radio.items.attach := by
  unfold recordJoins ceaseEntry
  split <;> simp

@[simp] theorem evalDoze_items_attach (s : State) : (evalDoze s).radio.items.attach = s.radio.items.attach := by
  unfold evalDoze
  (repeat' split) <;> simp

@[simp] theorem evalPause_items_detach (s : State) : (evalPause s).radio.items.detach = s.radio.items.detach := by
  simp only [evalPause, withPauseTarget]
  split <;> rfl

@[simp] theorem evalPause_items_lowPower (s : State) : (evalPause s).radio.items.lowPower = s.radio.items.lowPower := by
  simp only [evalPause, withPauseTarget]
  split <;> rfl

/-- An entry to DOZE abandoned before its last stage answers nothing (R157). -/
theorem abandonEntry_firm (s : State) : EngineFirm s (abandonEntry s) := by
  have answered (u : State) : (answerLowPower u).radio.items.detach = u.radio.items.detach := by
    unfold answerLowPower
    (repeat' split) <;> rfl
  have step : (abandonEntry s).power.step = .awake := by simp
  refine ⟨?_, fun h => ⟨by simp [step], ?_⟩, by simp, by simp, by simp, by simp⟩
  · simp only [abandonEntry]
    split
    · rw [answered]
    · rfl
  · simp [abandonEntry, h]

theorem recordJoins_firm (s : State) : EngineFirm s (recordJoins s) := by
  unfold recordJoins ceaseEntry
  split
  · exact abandonEntry_firm s
  · exact .refl s

theorem evalDoze_firm (s : State) : EngineFirm s (evalDoze s) := by
  unfold evalDoze
  split
  · split
    · constructor <;> simp +contextual
    · exact .refl s
  · split
    · exact .refl s
    · exact abandonEntry_firm s
  · exact .refl s
  · exact .refl s

theorem emergencySet_firm (s : State) : EngineFirm s (emergencySet s) := by
  cases hst : s.radio.state <;> simp only [emergencySet, hst]
  case backoff =>
    split
    · constructor <;> simp +contextual [requestAttach, hst]
    · unfold startAfterCycle
      split <;> constructor <;> simp +contextual [enterStarting, hst]
  case off =>
    split <;> constructor <;> simp +contextual [enterStarting, powerUp, hst]
  case detached => constructor <;> simp +contextual [requestAttach, hst]
  all_goals constructor <;> simp +contextual [hst]

theorem priorityTake_firm (s : State) : EngineFirm s (priorityTake s) := by
  have restarted : EngineFirm s (restartPriority s) := .of_radio rfl rfl rfl rfl
  simp only [priorityTake]
  split
  · exact restarted
  · refine restarted.trans (EngineFirm.trans ?_ (emergencySet_firm _))
    exact .of_radio rfl rfl rfl rfl

/-! ### Takes and hold memory -/

theorem judgeEntry_firm (s : State) (e : Entry) : EngineFirm s (judgeEntry s e) := by
  have paused (u : State) : EngineFirm u (evalPause u) := by constructor <;> simp +contextual
  have taken (c : FrameClass) : EngineFirm s (beginTake e c s) := by
    have begun : EngineFirm s (updateEntry e.pos (fun e => { e with st := .taking }) (takeCells e.length s)) := by
      constructor <;> simp +contextual [takeCells]
    simp only [beginTake]
    split
    · refine begun.trans (EngineFirm.trans ?_ (priorityTake_firm _))
      exact .of_radio rfl rfl rfl rfl
    · exact begun.trans (.of_radio rfl rfl rfl rfl)
  unfold judgeEntry
  (repeat' split) <;> first | exact taken _ | exact .refl _

theorem judgePending_firm (s : State) : EngineFirm s (judgePending s) := by
  have fold (l : List Entry) (u : State) : EngineFirm u (l.foldl judgeEntry u) := by
    induction l generalizing u with
    | nil => exact .refl u
    | cons e l ih => exact (judgeEntry_firm u e).trans (ih _)
  exact fold _ s

theorem judgeEntry_engineAsks (s : State) (e : Entry) : EngineAsks s (judgeEntry s e) := by
  have taken (c : FrameClass) : EngineAsks s (beginTake e c s) := by
    refine .of_asks (ps := [.frameRead e.pos]) ?_ (by simp [engineAsks]) (by simp)
    simp only [beginTake]
    split <;> simp
  unfold judgeEntry
  (repeat' split) <;> first | exact taken _ | exact .refl _

theorem judgePending_engineAsks (s : State) : EngineAsks s (judgePending s) := by
  have fold (l : List Entry) (u : State) : EngineAsks u (l.foldl judgeEntry u) := by
    induction l generalizing u with
    | nil => exact .refl u
    | cons e l ih => exact (judgeEntry_engineAsks u e).trans (ih _)
  exact fold _ s

theorem judgePending_engineKeeps (s : State) : EngineKeeps s (judgePending s) :=
  ⟨judgePending_engineAsks s, fun h => by rw [judgePending_idle (by simp [h])]; exact ⟨h, rfl⟩, judgePending_firm s⟩

theorem freeCells_engineKeeps (cells : List Nat) (s : State) : EngineKeeps s (freeCells cells s) := by
  unfold freeCells
  split
  · exact .refl s
  · exact (judgePending_engineKeeps _).of_moved (by simp) (by simp)

theorem freeRecord_engineKeeps (r : FrameRecord) (s : State) : EngineKeeps s (freeRecord r s) := by
  unfold freeRecord
  split
  · exact .of_eq rfl rfl
  · exact freeCells_engineKeeps _ _

theorem reportLoss_engineKeeps (reason : LossReason) (r : FrameRecord) (s : State) : EngineKeeps s (reportLoss reason r s) := by
  refine (EngineKeeps.of_eq (t := raiseCounter (lossCounter reason r) s) (by simp) (by simp)).trans
    (raiseEvent_engineKeeps ?_ _)
  simp only [lossDetail]
  split <;> simp [engineRaises, detailKind]

theorem loseRecord_engineKeeps (reason : LossReason) (r : FrameRecord) (s : State) : EngineKeeps s (loseRecord reason r s) :=
  (reportLoss_engineKeeps reason r s).trans (freeRecord_engineKeeps r _)

theorem softDiscardRecord_engineKeeps (r : FrameRecord) (s : State) : EngineKeeps s (softDiscardRecord r s) :=
  (freeRecord_engineKeeps r (countSoftDiscard r s)).of_moved (by simp) (by simp)

theorem loseAll_engineKeeps (reason : LossReason) (rs : List FrameRecord) (s : State) : EngineKeeps s (loseAll reason rs s) :=
  .foldl (fun s r => loseRecord_engineKeeps reason r s) rs s

theorem softDiscardAll_engineKeeps (rs : List FrameRecord) (s : State) : EngineKeeps s (softDiscardAll rs s) :=
  .foldl (fun s r => softDiscardRecord_engineKeeps r s) rs s

theorem dropOldUqE_engineKeeps (s : State) : EngineKeeps s (dropOldUqE s) :=
  (loseAll_engineKeeps _ _ _).of_moved rfl rfl

theorem dropOldUqV_engineKeeps (s : State) : EngineKeeps s (dropOldUqV s) :=
  (loseAll_engineKeeps _ _ _).of_moved rfl rfl

theorem dropOldDqV_engineKeeps (s : State) : EngineKeeps s (dropOldDqV s) :=
  (loseAll_engineKeeps _ _ _).of_moved rfl rfl

/-! ### Placement -/

theorem place_engineKeeps (slot : Slot) (r : FrameRecord) (s : State) : EngineKeeps s (place slot r s) := by
  have filled : EngineKeeps s (s |> chargeSlot slot (frameCost s r.length) |> removeHead |> fillSlot slot r) :=
    .of_eq (by simp) (by simp)
  unfold place
  dsimp only
  split
  · exact filled.trans (judgePending_engineKeeps _)
  · exact filled

theorem examine_engineKeeps (s : State) : EngineKeeps s (examine s) := by
  simp only [examine]
  split
  · exact (dropOldUqE_engineKeeps s).trans (dropOldUqV_engineKeeps _)
  · exact dropOldUqE_engineKeeps s

theorem placeOnce_engineKeeps (s : State) : EngineKeeps s (placeOnce s) := by
  unfold placeOnce
  dsimp only
  (repeat' split) <;>
    first
    | exact (examine_engineKeeps s).trans (place_engineKeeps _ _ _)
    | exact examine_engineKeeps s
    | exact .refl s

theorem placementAttempt_engineKeeps (s : State) : EngineKeeps s (placementAttempt s) := by
  simp only [placementAttempt]
  split
  · exact placeOnce_engineKeeps s
  · exact (placeOnce_engineKeeps s).trans (placeOnce_engineKeeps _)

/-! ### The Ring Agent -/

theorem judgeTxOverrun_engineKeeps (s : State) : EngineKeeps s (judgeTxOverrun s) := by
  unfold judgeTxOverrun
  (repeat' split) <;>
    first
    | exact (raiseEvent_engineKeeps (.inr (.inr rfl)) { s with ring.overrun := true }).of_moved rfl rfl
    | exact .of_eq rfl rfl

theorem judgeRxOverrun_engineKeeps (s : State) : EngineKeeps s (judgeRxOverrun s) := by
  unfold judgeRxOverrun
  (repeat' split) <;>
    first
    | exact (raiseEvent_engineKeeps (.inr (.inr rfl)) { s with ring.rxOverrun := true }).of_moved rfl rfl
    | exact .of_eq rfl rfl

theorem checkTxOverrun_engineKeeps (s : State) : EngineKeeps s (checkTxOverrun s) := by
  unfold checkTxOverrun
  (repeat' split) <;> first
    | exact judgeTxOverrun_engineKeeps s
    | exact .refl s
    | exact .of_eq rfl rfl (hf := by constructor <;> simp_all [enginesRun])

theorem checkRxOverrun_engineKeeps (s : State) : EngineKeeps s (checkRxOverrun s) := by
  unfold checkRxOverrun
  (repeat' split) <;> first
    | exact judgeRxOverrun_engineKeeps s
    | exact .refl s
    | exact .of_eq rfl rfl (hf := by constructor <;> simp_all [enginesRun])

theorem request_engineKeeps {p : Purpose} (hp : engineAsks p = true) (s : State) : EngineKeeps s (request p s) :=
  ⟨.of_asks (ps := [p]) rfl (by simpa using hp) rfl, fun h => ⟨h, rfl⟩, .of_radio rfl rfl rfl rfl⟩

theorem readAhead_engineKeeps (s : State) : EngineKeeps s (readAhead s) := by
  simp only [readAhead]
  split
  · exact (request_engineKeeps rfl _).of_moved rfl rfl
  · exact .refl s

theorem tryAdvance_engineKeeps (s : State) : EngineKeeps s (tryAdvance s) := by
  unfold tryAdvance
  split
  · exact request_engineKeeps rfl s
  · exact .refl s

theorem advanceIssued_engineKeeps (s : State) : EngineKeeps s (advanceIssued s) :=
  ((checkTxOverrun_engineKeeps _).trans (readAhead_engineKeeps _)).of_moved rfl rfl

theorem afterTxRelease_engineKeeps (s : State) : EngineKeeps s (afterTxRelease s) :=
  (checkTxOverrun_engineKeeps s).trans ((tryAdvance_engineKeeps _).trans (readAhead_engineKeeps _))

theorem afterRxRelease_engineKeeps (s : State) : EngineKeeps s (afterRxRelease s) := by
  simp only [afterRxRelease]
  split
  · exact (checkRxOverrun_engineKeeps s).trans (request_engineKeeps rfl _)
  · exact checkRxOverrun_engineKeeps s

theorem afterForcedRx_engineKeeps (s : State) : EngineKeeps s (afterForcedRx s) := by
  unfold afterForcedRx
  (repeat' split) <;>
    first
    | exact afterRxRelease_engineKeeps s
    | exact (checkRxOverrun_engineKeeps _).of_moved rfl rfl

theorem completeTx_engineKeeps (s : State) : EngineKeeps s (completeTx s) :=
  (afterTxRelease_engineKeeps (setTxReleased { s with bus.txGuard := true })).of_moved (by simp) (by simp)

theorem completeRx_engineKeeps (s : State) : EngineKeeps s (completeRx s) :=
  (afterRxRelease_engineKeeps (setRxReleased { s with bus.rxGuard := true })).of_moved (by simp) (by simp)

theorem takeEnds_engineKeeps (pos : Count) (s : State) : EngineKeeps s (takeEnds pos s) := by
  unfold takeEnds
  dsimp only
  (repeat' split)
  · exact .refl s
  · exact (softDiscardRecord_engineKeeps _ _).of_moved rfl rfl
  · exact (loseRecord_engineKeeps _ _ _).of_moved rfl rfl
  · refine EngineKeeps.trans ?_ ((placementAttempt_engineKeeps _).trans (judgePending_engineKeeps _))
    exact .of_eq (by simp) (by simp) (hf := EngineFirm.trans (.of_radio (by simp) (by simp) (by simp) (by simp)) (recordJoins_firm _))

theorem completionIssued_engineKeeps (pos : Count) (v : Completion) (s : State) : EngineKeeps s (completionIssued pos v s) := by
  have done : EngineKeeps s (tryAdvance (updateEntry pos (fun e => { e with st := .done }) s)) :=
    (tryAdvance_engineKeeps _).of_moved (by simp) (by simp)
  cases v
  case abandoned => exact .refl s
  case takenRadio => exact (takeEnds_engineKeeps pos s).trans (tryAdvance_engineKeeps _)
  all_goals exact done

/-! ### Deliveries -/

theorem endDelivery_engineKeeps (s : State) : EngineKeeps s (endDelivery s) := by
  unfold endDelivery
  dsimp only
  (repeat' split) <;>
    first
    | exact .refl s
    | exact (softDiscardRecord_engineKeeps _ _).of_moved (by simp) (by simp)
    | exact (freeRecord_engineKeeps _ _).of_moved (by simp) (by simp)

theorem bufferIssued_engineKeeps (s : State) : EngineKeeps s (bufferIssued s) := by
  unfold bufferIssued
  dsimp only
  (repeat' split) <;> first | exact (request_engineKeeps rfl _).of_moved rfl rfl | exact .of_eq rfl rfl

theorem rxfIssued_engineKeeps (s : State) : EngineKeeps s (rxfIssued s) :=
  (checkRxOverrun_engineKeeps _).of_moved rfl rfl

theorem statusIssued_engineKeeps (s : State) : EngineKeeps s (statusIssued s) := by
  have moved : EngineKeeps s { s with ring.fillCursor := some (advance (s.ring.fillCursor.getD 0) 1) } := .of_eq rfl rfl
  simp only [statusIssued]
  split
  · exact moved.trans ((endDelivery_engineKeeps _).trans (request_engineKeeps rfl _))
  · split
    · exact moved.trans (request_engineKeeps rfl _)
    · exact moved.trans (endDelivery_engineKeeps _)

theorem judgeDelivery_engineKeeps (s : State) : EngineKeeps s (judgeDelivery s) := by
  have begun (r : FrameRecord) (u : State) : EngineKeeps u (beginDelivery r u) :=
    (request_engineKeeps rfl _).of_moved rfl rfl
  unfold judgeDelivery
  dsimp only
  (repeat' split)
  · exact (dropOldDqV_engineKeeps s).trans ((begun _ _).of_moved rfl rfl)
  · exact (dropOldDqV_engineKeeps s).trans ((begun _ _).of_moved rfl rfl)
  · exact dropOldDqV_engineKeeps s
  · exact .refl s

/-! ### Issues, the scan and the hand-back -/

theorem onIssue_engineKeeps {p : Purpose} (hp : p ≠ .eventRecord) (s : State) : EngineKeeps s (onIssue p s) := by
  unfold onIssue
  split
  case h_1 => exact completionIssued_engineKeeps _ _ _
  case h_2 => exact advanceIssued_engineKeeps s
  case h_3 =>
    exact .ite (fun _ => (afterTxRelease_engineKeeps (setTxReleased s)).of_moved (by simp) (by simp)) fun _ => .refl s
  case h_5 => exact bufferIssued_engineKeeps s
  case h_6 => exact statusIssued_engineKeeps s
  case h_7 => exact (rxfIssued_engineKeeps s).trans (endDelivery_engineKeeps _)
  case h_8 => exact rxfIssued_engineKeeps s
  case h_9 =>
    exact .ite (fun _ => (afterForcedRx_engineKeeps (setRxReleased s)).of_moved (by simp) (by simp)) fun _ => .refl s
  case h_10 => contradiction
  all_goals exact .of_eq rfl rfl

/-- The issue of an event record asks for the write of EVP alone, and clears an entry (R168). -/
theorem recordIssued_asks (s : State) : (recordIssued s).events.entries.length = s.events.entries.length
    ∧ ∃ ps, (recordIssued s).bus.waiting = s.bus.waiting ++ ps ∧ ∀ p ∈ ps, engineAsks p = true := by
  unfold recordIssued
  split
  · exact ⟨rfl, [], by simp, by simp⟩
  · exact ⟨by simp, [.evpWrite], by simp, by simp [engineAsks]⟩

/-- A request leaves the line: it is dropped when it stands for no transfer, else its transfer joins the queue (R150). -/
theorem leavesLine_engineKeeps {s t : State} {p : Purpose} {rest : List Purpose} {new : List MasterTransfer}
    (hline : s.bus.waiting = p :: rest) (hw : t.bus.waiting = rest) (hq : t.bus.queue = s.bus.queue ++ new) (hm : t.loader.map = s.loader.map)
    (he : t.events.entries = s.events.entries) (hi : EngineIdle s t) (hf : EngineFirm s t)
    (hnew : ∀ m, s.loader.map = some m → (∀ x ∈ new, ∃ u, formTransfer u m x.purpose = some x.transfer)
      ∧ (standsFirm p = true → new.map (·.purpose) = [p])) : EngineKeeps s t := by
  refine ⟨⟨fun q hin => .inl (by rw [hline]; exact List.mem_cons_of_mem _ (hw ▸ hin)), fun _ _ _ => by simp [entryOfKind, he],
    by rw [he], hm, fun m X hmap hX hpre => ?_⟩, hi, hf⟩
  obtain ⟨hformed, hfirm⟩ := hnew m hmap
  refine ⟨new, hq, hformed, ?_⟩
  cases X with
  | nil => exact .inl List.nil_prefix
  | cons q X =>
    rw [hline, List.cons_prefix_cons] at hpre
    obtain ⟨rfl, hpre⟩ := hpre
    exact .inr ⟨X, by rw [hfirm (hX q (by simp))]; rfl, hw ▸ hpre⟩

theorem issueOne_engineKeeps {s : State} {p : Purpose} {rest : List Purpose} (hw : s.bus.waiting = p :: rest) :
    EngineKeeps s (issueOne p rest s) := by
  simp only [issueOne]
  split
  · rename_i hmap
    exact leavesLine_engineKeeps (new := []) hw rfl (by simp) rfl rfl (fun h => ⟨h, rfl⟩) (.of_radio rfl rfl rfl rfl) (by simp_all)
  · rename_i m hmap
    split
    · rename_i hnone
      refine leavesLine_engineKeeps (new := []) hw rfl (by simp) rfl rfl (fun h => ⟨h, rfl⟩) (.of_radio rfl rfl rfl rfl) fun m' hm' => ⟨by simp, fun hfirm => ?_⟩
      obtain ⟨x, hx⟩ := formTransfer_of_standsFirm hfirm { s with bus.waiting := rest } m
      simp [hx] at hnone
    · rename_i x hx
      have taken : EngineKeeps s { s with bus.waiting := rest, bus.queue := s.bus.queue ++ [⟨p, x⟩] } := by
        refine leavesLine_engineKeeps hw rfl rfl rfl rfl (fun h => ⟨h, rfl⟩) (.of_radio rfl rfl rfl rfl) fun m' hm' => ⟨?_, fun _ => rfl⟩
        have hsame : m' = m := Option.some.inj (hm'.symm.trans hmap)
        simpa [hsame] using ⟨_, hx⟩
      by_cases hp : p = .eventRecord
      · subst hp
        refine ⟨⟨fun q hq => ?_, fun hno => absurd (by simp [hw]) hno, ?_, ?_, fun m' X hm' hX hpre => ?_⟩, fun h => ?_, .of_radio (by simp [onIssue]) (by simp [onIssue]) (by simp [onIssue]) (by simp [onIssue])⟩
        all_goals obtain ⟨hplaces, ps, hps, hasks⟩ := recordIssued_asks { s with bus.waiting := rest, bus.queue := s.bus.queue ++ [⟨.eventRecord, x⟩] }
        · exact (List.mem_append.1 (hps ▸ hq)).elim (taken.asked q) fun h => .inr (hasks q h)
        · exact hplaces
        · simp [onIssue]
        · refine (taken.passes m' X hm' hX hpre).trans fun Y _ hY => .of_line (by simp [onIssue]) ?_
          show Y <+: (recordIssued _).bus.waiting
          rw [hps]
          exact hY.trans (List.prefix_append _ _)
        · simp [onIssue, h, emergencyPart]
      · exact taken.trans (onIssue_engineKeeps hp _)

theorem pump_engineKeeps (n : Nat) (s : State) : EngineKeeps s (pump n s) := by
  induction n generalizing s with
  | zero => exact .refl s
  | succ n ih =>
    unfold pump
    split
    · exact .refl s
    · split
      · exact (issueOne_engineKeeps ‹_›).trans (ih _)
      · exact .refl s

theorem issueAll_engineKeeps (s : State) : EngineKeeps s (issueAll s) := pump_engineKeeps 64 s

theorem withdrawScanRead_engineKeeps (s : State) : EngineKeeps s (withdrawScanRead s) := by
  unfold withdrawScanRead
  split
  · refine ⟨⟨fun p hp => .inl (List.mem_of_mem_filter hp), fun _ _ _ => rfl, rfl, rfl, fun _ X _ hX hpre => .of_line rfl ?_⟩,
      fun h => ⟨h, rfl⟩, .of_radio rfl rfl rfl rfl⟩
    have kept : X.filter (fun p => !isScanRead p) = X := List.filter_eq_self.2 fun p hp => by
      have := hX p hp
      cases p <;> simp_all [standsFirm, isScanRead]
    exact kept ▸ hpre.filter _
  · exact .refl s

theorem scanNext_engineKeeps (s : State) : EngineKeeps s (scanNext s) := by
  simp only [scanNext]
  split
  · exact (request_engineKeeps rfl _).of_moved rfl rfl
  · exact .refl s

theorem evalScan_engineKeeps (s : State) : EngineKeeps s (evalScan s) := by
  unfold evalScan
  (repeat' split)
  · exact scanNext_engineKeeps s
  · exact (scanNext_engineKeeps (startScan s)).of_moved rfl rfl
  · exact (withdrawScanRead_engineKeeps s).trans (.of_eq rfl rfl)
  · exact .refl s

theorem tryHandBack_engineKeeps (s : State) : EngineKeeps s (tryHandBack s) := by
  unfold tryHandBack
  split
  · exact (request_engineKeeps rfl _).of_moved rfl rfl
  · exact .refl s

theorem evalDoze_engineKeeps (s : State) : EngineKeeps s (evalDoze s) :=
  .of_eq (by simp) (by simp) (hf := evalDoze_firm s)

/-- The standing work of a command's end (R6, R18, R130, R150, R157). -/
theorem settle_engineKeeps (s : State) : EngineKeeps s (settle s) :=
  ((issueAll_engineKeeps s).trans (judgeDelivery_engineKeeps _)).trans <|
    ((evalScan_engineKeeps _).trans (issueAll_engineKeeps _)).trans <|
    ((tryHandBack_engineKeeps _).trans (issueAll_engineKeeps _)).trans (evalDoze_engineKeeps _)

end Sys2Proof.Machine
end

section
/-! The occasions of the return (R14, R16): what RETURNING sets, what the standing work leaves of it, and the power rule's part. -/

-- One theorem at a time, as in the model's laws: the threads of many at once would not fit the memory a check has.
set_option Elab.async false

namespace Sys2Proof.Machine

/-! ### Events a command raises and the standing work leaves -/

/-- A raise puts its detail in its kind's entry (R167). -/
theorem detailOfKind_raiseEvent {d : EventDetail} {s : State} (h : s.events.entries.length = 11) :
    detailOfKind (raiseEvent d s) (detailKind d) = some d := by
  have place : kindPriority (detailKind d) - 1 < s.events.entries.length := by
    rw [h]
    cases detailKind d <;> decide
  simp only [detailOfKind, entryOfKind, raiseEvent_events_entries, List.getD_eq_getElem?_getD, List.getElem?_modify_eq,
    List.getElem?_eq_getElem place, Option.map_eq_map, Option.map_some, Option.getD_some]
  cases s.events.entries[kindPriority (detailKind d) - 1] <;> rfl

/-- A path change leaves its detail (R23). -/
theorem detailOfKind_changePath {p : PathState} {c : PathCause} {s : State} (h : s.events.entries.length = 11) :
    detailOfKind (changePath p c s) .pathChange = some (.pathChange s.path.path p c) :=
  detailOfKind_raiseEvent (d := .pathChange s.path.path p c) (s := { s with path.path := p }) h

theorem detailOfKind_of_entry {s t : State} {k : EventKind} (h : entryOfKind t k = entryOfKind s k) :
    detailOfKind t k = detailOfKind s k := by simp [detailOfKind, h]

/-- The engines leave the detail of every kind they do not raise. -/
theorem EngineAsks.detail {s t : State} (h : EngineAsks s t) (hno : .eventRecord ∉ s.bus.waiting) {k : EventKind} (hk : ¬ engineRaises k) :
    detailOfKind t k = detailOfKind s k := detailOfKind_of_entry (h.entries hno k hk)

theorem not_engineRaises_pathChange : ¬ engineRaises .pathChange := by simp [engineRaises]

/-! ### The entry to RETURNING -/

section Returning

variable (c : PathCause) (s : State)

@[simp] theorem enterReturning_phase : (enterReturning c s).path.phase = some .draining := by
  simp [enterReturning, withPauseTarget, apply_ite]

@[simp] theorem enterReturning_drainTimer :
    (enterReturning c s).path.drainTimer = some (s.loader.policy.drainLimit * 1000) := by
  simp [enterReturning, withPauseTarget, apply_ite]

@[simp] theorem enterReturning_returnPause : (enterReturning c s).path.returnPause = true := by
  simp [enterReturning, withPauseTarget, apply_ite]

@[simp] theorem enterReturning_fence : (enterReturning c s).ring.fence = some (fenceAt s) := by
  simp [enterReturning, withPauseTarget, apply_ite, fixFence]
  rfl

/-- Before the PENDING entries are judged, RETURNING has asked for nothing and raised the Path Change alone (R16, R23). -/
theorem enterReturning_begins : ∃ u, enterReturning c s = judgePending (changePath .returning c u)
    ∧ u.bus.waiting = s.bus.waiting ∧ u.events = s.events ∧ u.path.path = s.path.path := by
  refine ⟨_, rfl, ?_, ?_, ?_⟩ <;> simp [withPauseTarget, apply_ite, fixFence]

theorem enterReturning_noRecord (hno : .eventRecord ∉ s.bus.waiting) : .eventRecord ∉ (enterReturning c s).bus.waiting := by
  obtain ⟨u, hu, hw, _⟩ := enterReturning_begins c s
  rw [hu]
  exact (judgePending_engineAsks _).noRecord (by simpa [hw] using hno)

theorem enterReturning_detail (hno : .eventRecord ∉ s.bus.waiting) (hlen : s.events.entries.length = 11) :
    detailOfKind (enterReturning c s) .pathChange = some (.pathChange s.path.path .returning c) := by
  obtain ⟨u, hu, hw, he, hp⟩ := enterReturning_begins c s
  rw [hu, (judgePending_engineAsks _).detail (by simpa [hw] using hno) not_engineRaises_pathChange,
    detailOfKind_changePath (by rw [he]; exact hlen), hp]

end Returning

/-- With an empty window the entry to RETURNING begins no take (R53). -/
theorem enterReturning_idle (c : PathCause) (s : State) : EngineIdle s (enterReturning c s) := by
  intro h
  simp only [enterReturning]
  rw [judgePending_idle (by simp [withPauseTarget, apply_ite, fixFence, h])]
  simp [withPauseTarget, apply_ite, fixFence, emergencyPart, h]

theorem evalReturn_idle (s : State) : EngineIdle s (evalReturn s) := by
  unfold evalReturn
  (repeat' split) <;> first | exact enterReturning_idle _ s | exact fun h => ⟨h, rfl⟩

/-- RETURNING as the entry to it leaves it: draining with the drain timer and the return pause on, the fence at `f`, and the Path
Change raised (R16, R23). -/
def BeganReturn (s : State) (f : Count) (c : PathCause) (t : State) : Prop :=
  t.path.path = .returning ∧ t.path.phase = some .draining ∧ t.path.drainTimer = some (s.loader.policy.drainLimit * 1000)
    ∧ t.path.returnPause = true ∧ t.ring.fence = some f ∧ detailOfKind t .pathChange = some (.pathChange s.path.path .returning c)

/-- The return that `evalReturn` begins, at the command's end (R14, R16). -/
theorem settle_evalReturn_begins {u : State} {c : PathCause} (hd : returnDecision u = some c) (he : u.power.mode ≠ .doze)
    (hs : softResetStands u = false) (hno : .eventRecord ∉ u.bus.waiting) (hlen : u.events.entries.length = 11) :
    BeganReturn u (fenceAt u) c (settle (evalReturn u)) := by
  have hret : evalReturn u = enterReturning c u := by simp [evalReturn, hd, hs, enginesRun, he]
  rw [hret]
  refine ⟨by simp, by simp, by simp, by simp, by simp, ?_⟩
  rw [(settle_engineKeeps _).detail (enterReturning_noRecord c u hno) not_engineRaises_pathChange]
  exact enterReturning_detail c u hno hlen

/-- With no return decided the path stands. -/
theorem settle_evalReturn_stands {u : State} (hd : returnDecision u = none) : (settle (evalReturn u)).path.path = u.path.path := by
  have hret : evalReturn u = u := by simp [evalReturn, hd]
  simp [hret]

/-- The decision in TAKEOVER, RADIO and HELD with the call pin clear (R14). -/
theorem returnDecision_clear {u : State} (hoff : u.pins.offhook = false)
    (hpath : u.path.path = .takeover ∨ u.path.path = .radio ∨ u.path.path = .held) :
    returnDecision u = match u.loader.policy.pathOverride with
      | .automatic => if u.path.dwell = .met then some .dwellMet else none
      | .fibreOnly => if u.path.priorityTimer = none then some .fibreOnly else none
      | .radioNow => none := by
  rcases hpath with h | h | h <;> simp [returnDecision, hoff, h] <;> rfl

/-- The call pin holds the return back (R14). -/
theorem returnDecision_offhook {u : State} (h : u.pins.offhook = true) : returnDecision u = none := by simp [returnDecision, h]

theorem softResetStands_none {u : State} (h : u.loader.softReset = .none) : softResetStands u = false := by simp [softResetStands, h]

/-! ### The doze step while no entry stands -/

/-- With no entry to DOZE under way the issues leave the Power Mode Unit as it is. -/
theorem onIssue_power (p : Purpose) {s : State} (h : s.power.step = .awake) : (onIssue p s).power = s.power := by
  have joins (u : State) (hu : u.power = s.power) : (recordJoins u).power = s.power := by simp [recordJoins, ceaseEntry, hu, h]
  have take (pos : Count) : (takeEnds pos s).power = s.power := by
    unfold takeEnds
    dsimp only
    (repeat' split) <;> simp [joins]
  unfold onIssue
  split
  case h_1 pos v => cases v <;> simp [completionIssued, take]
  all_goals first | simp | (split <;> simp)

theorem issueOne_power (p : Purpose) (rest : List Purpose) {s : State} (h : s.power.step = .awake) :
    (issueOne p rest s).power = s.power := by
  simp only [issueOne]
  (repeat' split) <;> first | rfl | exact onIssue_power p h

theorem pump_power (n : Nat) {s : State} (h : s.power.step = .awake) : (pump n s).power = s.power := by
  induction n generalizing s with
  | zero => rfl
  | succ n ih =>
    unfold pump
    split
    · rfl
    · split
      · have hone := issueOne_power ‹_› ‹_› h
        rw [ih (by rw [hone]; exact h), hone]
      · rfl

/-- While DOZE's starting conditions do not hold, no entry begins (R157). -/
theorem settle_awake {s : State} (h : s.power.step = .awake) (hc : s.pins.offhook = true) : (settle s).power.step = .awake := by
  have issued {u : State} (hu : u.power.step = .awake) : (issueAll u).power.step = .awake := by
    rw [issueAll, pump_power 64 hu]; exact hu
  have before : (s |> issueAll |> judgeDelivery |> evalScan |> issueAll |> tryHandBack |> issueAll).power.step = .awake :=
    issued (by simpa using issued (by simpa using issued h))
  have hooked : dozeConditions (s |> issueAll |> judgeDelivery |> evalScan |> issueAll |> tryHandBack |> issueAll) = false := by
    simp [dozeConditions, hc]
  rw [settle, evalDoze]
  simp only [before, hooked]
  exact before

/-! ### The power rule with an empty window -/

theorem freeOnLdo_engineKeeps (s : State) : EngineKeeps s (freeOnLdo s) :=
  (EngineKeeps.foldl (fun s (r : FrameRecord) => freeCells_engineKeeps r.cells s) _ _).of_moved rfl rfl

theorem abandonPayload_engineKeeps (s : State) : EngineKeeps s (abandonPayload s) := by
  unfold abandonPayload
  split
  · dsimp only
    split
    · exact .of_eq rfl rfl
    · split
      · exact (loseRecord_engineKeeps _ _ _).of_moved rfl rfl
      · exact (loseRecord_engineKeeps _ _ _).of_moved rfl rfl
      · exact (softDiscardRecord_engineKeeps _ _).of_moved rfl rfl
  · exact .refl s

theorem cutLink_engineKeeps (s : State) : EngineKeeps s (cutLink s) := by
  have freed := (freeOnLdo_engineKeeps { s with radio.ldo := none }).of_moved (s := s) rfl rfl
  have received (u : State) : EngineKeeps u { u with radio.receiver := .idle } := .of_eq rfl rfl
  exact freed.trans ((abandonPayload_engineKeeps _).trans (received _))

/-- The power rule asks and raises as the engines do, and with an empty window leaves the emergency as it is. -/
theorem enterOff_asks (s : State) : EngineAsks s (enterOff s)
    ∧ (s.ring.window = [] → (enterOff s).ring.window = [] ∧ (enterOff s).path.priorityTimer = s.path.priorityTimer
      ∧ (enterOff s).path.emergency = s.path.emergency) := by
  have cut := (cutLink_engineKeeps { dropPower s with
    radio.state := .off
    radio.ready := false
    radio.startTimer := none
    radio.cycleTimer := none
    radio.backoffTimer := none
    radio.items := ControlItems.none })
  refine ⟨(EngineAsks.of_asks (ps := []) (by simp) (by simp) (by simp)).trans cut.toEngineAsks, fun h => ?_⟩
  obtain ⟨hw, hpart⟩ := cut.idle h
  simp only [emergencyPart, Prod.mk.injEq] at hpart
  exact ⟨hw, hpart.1.1, hpart.1.2⟩

theorem powerRule_asks (s : State) : EngineAsks s (powerRule s)
    ∧ (s.ring.window = [] → (powerRule s).ring.window = [] ∧ (powerRule s).path.priorityTimer = s.path.priorityTimer
      ∧ (powerRule s).path.emergency = s.path.emergency) := by
  have started : EngineAsks s (enterStarting (powerUp s)) := (EngineAsks.of_asks (ps := []) (by simp) (by simp) (by simp))
  have same : EngineAsks s s := .refl s
  unfold powerRule
  (repeat' split) <;>
    first
    | exact enterOff_asks s
    | exact ⟨started, fun h => by simp [h]⟩
    | exact ⟨same, fun h => ⟨h, rfl, rfl⟩⟩

/-! ### The occasions -/

/-- Settles O35: each expiry and each move of the call pin comes to `evalReturn` and the standing work on a state whose return
decision is known. -/
theorem returnBeginsOnItsOccasions : Obligations.ReturnBeginsOnItsOccasions := by
  refine ⟨?_, ?_, ?_, ?_⟩
  · intro s hruns he hsoft hlen hw
    have hexec : exec .dwellTimerExpiry s = .next (settle (evalReturn { s with path.dwell := .met })) := by
      show Host.Outcome.next (doDwellTimerExpiry s) = _
      simp [doDwellTimerExpiry, hruns, nowOrRecorded, enginesRun, he, dwellExpires]
    refine ⟨_, hexec, by simp, fun hoff => ?_, fun hon hauto hpath => ?_⟩
    · exact settle_evalReturn_stands (returnDecision_offhook hoff)
    · have hd : returnDecision { s with path.dwell := .met } = some .dwellMet := by
        rw [returnDecision_clear (u := { s with path.dwell := .met }) hon hpath]
        simp [hauto]
      exact settle_evalReturn_begins hd he (softResetStands_none hsoft) (by simp [hw]) hlen
  · intro s
    refine ⟨_, rfl, ?_, ?_, ?_⟩
    · unfold doOffhookAssert
      split
      · rename_i h
        rw [← h]
      · simp
    · unfold doOffhookAssert
      split <;> simp
    · intro hon hstep
      have hwake (e : EntryStage) (h : s.power.step = .entering e) :
          wakeSource .offhook { s with pins.offhook := true } = restartQuiet (abandonEntry { s with pins.offhook := true }) := by
        simp [wakeSource, h]
      have hawake : (wakeSource .offhook { s with pins.offhook := true }).power.step = .awake := by
        obtain h | h | h := hstep <;> simp [hwake _ h]
      unfold doOffhookAssert
      rw [if_neg (by simp [hon])]
      exact settle_awake hawake (by simp)
  · intro s hoff he hsoft hlen hw hpath
    have hexec : exec .offhookDeassert s = .next (settle (evalReturn (wakeSource .offhook { s with pins.offhook := false }))) := by
      show Host.Outcome.next (doOffhookDeassert s) = _
      simp [doOffhookDeassert, hoff]
    refine ⟨_, hexec, by simp, fun hauto hmet => ?_, fun hauto hmet => ?_⟩
    · have hd : returnDecision (wakeSource .offhook { s with pins.offhook := false }) = some .dwellMet := by
        rw [returnDecision_clear (by simp) (by simpa using hpath)]
        simp [hauto, hmet]
      have began := settle_evalReturn_begins hd (by simpa using he) (softResetStands_none (by simpa using hsoft)) (by simp [hw]) (by simpa using hlen)
      simpa [BeganReturn, fenceAt] using began
    · have hd : returnDecision (wakeSource .offhook { s with pins.offhook := false }) = none := by
        simp [returnDecision, hauto, hmet]
      simpa using settle_evalReturn_stands hd
  · intro s hruns he hsoft hlen ⟨hw, hwin⟩
    have hexec : exec .priorityTimerExpiry s
        = .next (settle (evalReturn (powerRule { s with path.priorityTimer := none, path.emergency := false }))) := by
      show Host.Outcome.next (doPriorityTimerExpiry s) = _
      simp [doPriorityTimerExpiry, hruns, nowOrRecorded, enginesRun, he, priorityExpires, clearEmergency]
    obtain ⟨hasks, hidle⟩ := powerRule_asks { s with path.priorityTimer := none, path.emergency := false }
    obtain ⟨hwin', htimer, hflag⟩ := hidle hwin
    generalize hu : powerRule { s with path.priorityTimer := none, path.emergency := false } = u at *
    have hpins : u.pins = s.pins := by rw [← hu]; simp
    have hpath : u.path.path = s.path.path := by rw [← hu]; simp
    have hpolicy : u.loader.policy = s.loader.policy := by rw [← hu]; simp
    have hreset : u.loader.softReset = s.loader.softReset := by rw [← hu]; simp
    have hmode : u.power.mode = s.power.mode := by rw [← hu]; simp
    have hno : .eventRecord ∉ u.bus.waiting := hasks.noRecord (by simp [hw])
    obtain ⟨hwin'', hret⟩ := evalReturn_idle u hwin'
    obtain ⟨_, hset⟩ := (settle_engineKeeps (evalReturn u)).idle hwin''
    have hkept := hset.trans hret
    simp only [emergencyPart, Prod.mk.injEq] at hkept
    refine ⟨_, hexec, hkept.1.1.trans htimer, hkept.1.2.trans hflag, fun hon hfibre hheld => ?_, fun hoff => ?_⟩
    · have hd : returnDecision u = some .fibreOnly := by
        rw [returnDecision_clear (by simpa [hpins] using hon) (by simpa [hpath] using hheld)]
        simp [hpolicy, hfibre, htimer]
      obtain ⟨h1, h2, h3, h4, _, h5⟩ := settle_evalReturn_begins hd (by simpa [hmode] using he)
        (softResetStands_none (hreset.trans hsoft)) hno (hasks.places.trans hlen)
      exact ⟨h1, h2, by simpa [hpolicy] using h3, h4, by simpa [hpath] using h5⟩
    · exact (settle_evalReturn_stands (returnDecision_offhook (by simpa [hpins] using hoff))).trans hpath

end Sys2Proof.Machine
end

section
/-! The forced release (R10, R59, R133): the writes it asks for stand first in line, and the standing work that issues them
releases the ring. -/

-- One theorem at a time, as in the model's laws: the threads of many at once would not fit the memory a check has.
set_option Elab.async false

namespace Sys2Proof.Machine

/-! ### What the standing work keeps of a release -/

/-- What is kept of the release of both rings: a ring released stays so with its view following, one being released is being
released or released, and a stopped release timer stays stopped (R9, R10). -/
structure KeepsRelease (s t : State) : Prop where
  tx : s.path.txReleased = true → s.bus.uplinkView = .following → t.path.txReleased = true ∧ t.bus.uplinkView = .following
  rx : s.path.rxReleased = true → s.bus.receiveView = .following → t.path.rxReleased = true ∧ t.bus.receiveView = .following
  txForced : s.path.txReleased = true ∨ s.ring.txForcing = true → t.path.txReleased = true ∨ t.ring.txForcing = true
  rxForced : s.path.rxReleased = true ∨ s.ring.rxForcing = true → t.path.rxReleased = true ∨ t.ring.rxForcing = true
  timer : s.path.releaseTimer = none → t.path.releaseTimer = none

namespace KeepsRelease

theorem refl (s : State) : KeepsRelease s s := ⟨.intro, .intro, id, id, id⟩

theorem trans {s t u : State} (h : KeepsRelease s t) (h' : KeepsRelease t u) : KeepsRelease s u where
  tx hr hv := (h.tx hr hv).elim h'.tx
  rx hr hv := (h.rx hr hv).elim h'.rx
  txForced hr := h'.txForced (h.txForced hr)
  rxForced hr := h'.rxForced (h.rxForced hr)
  timer ht := h'.timer (h.timer ht)

/-- What moves none of the registers of a release. -/
theorem of_eq {s t : State} (htx : t.path.txReleased = s.path.txReleased := by simp) (hrx : t.path.rxReleased = s.path.rxReleased := by simp)
    (hu : t.bus.uplinkView = s.bus.uplinkView := by simp) (hv : t.bus.receiveView = s.bus.receiveView := by simp)
    (hft : t.ring.txForcing = s.ring.txForcing := by simp) (hfr : t.ring.rxForcing = s.ring.rxForcing := by simp)
    (ht : t.path.releaseTimer = s.path.releaseTimer := by simp) : KeepsRelease s t := by
  constructor <;> simp_all

end KeepsRelease

theorem stopReleaseTimer_timer {s : State} (h : s.path.releaseTimer = none) : (stopReleaseTimer s).path.releaseTimer = none := by
  unfold stopReleaseTimer
  split
  · rfl
  · exact h

theorem setTxReleased_keepsRelease (s : State) : KeepsRelease s (setTxReleased s) := by
  constructor <;> simp +contextual [setTxReleased, stopReleaseTimer_timer]

theorem setRxReleased_keepsRelease (s : State) : KeepsRelease s (setRxReleased s) := by
  constructor <;> simp +contextual [setRxReleased, stopReleaseTimer_timer]

theorem onIssue_keepsRelease (p : Purpose) (s : State) : KeepsRelease s (onIssue p s) := by
  unfold onIssue
  split
  case h_3 =>
    split
    · exact (setTxReleased_keepsRelease s).trans .of_eq
    · exact .refl s
  case h_9 =>
    split
    · exact (setRxReleased_keepsRelease s).trans .of_eq
    · exact .refl s
  all_goals exact .of_eq

theorem issueOne_keepsRelease (p : Purpose) (rest : List Purpose) (s : State) : KeepsRelease s (issueOne p rest s) := by
  simp only [issueOne]
  (repeat' split)
  · exact .of_eq
  · exact .of_eq
  · exact .trans .of_eq (onIssue_keepsRelease p _)

/-- What the standing work keeps of a register follows from what one issue and each of its other steps keep of it. -/
theorem pump_of_issueOne {R : State → State → Prop} (refl : ∀ s, R s s) (trans : ∀ {s t u}, R s t → R t u → R s u)
    (issue : ∀ p rest s, R s (issueOne p rest s)) (n : Nat) (s : State) : R s (pump n s) := by
  induction n generalizing s with
  | zero => exact refl s
  | succ n ih =>
    unfold pump
    split
    · exact refl s
    · split
      · exact trans (issue _ _ s) (ih _)
      · exact refl s

theorem pump_keepsRelease (n : Nat) (s : State) : KeepsRelease s (pump n s) :=
  pump_of_issueOne .refl .trans issueOne_keepsRelease n s

/-- What the standing work keeps, once each of its steps keeps it, from any state `v` its first issues pass through (R150). -/
theorem settle_of_steps {R : State → State → Prop} (trans : ∀ {s t u}, R s t → R t u → R s u) (issue : ∀ n s, R s (pump n s))
    (delivery : ∀ s, R s (judgeDelivery s)) (scan : ∀ s, R s (evalScan s)) (back : ∀ s, R s (tryHandBack s)) (doze : ∀ s, R s (evalDoze s))
    {s v : State} {n : Nat} (h : issueAll s = pump n v) : R v (settle s) := by
  rw [settle, h]
  exact trans (issue n v) <| trans (delivery _) <| trans (scan _) <| trans (issue 64 _) <| trans (back _) <| trans (issue 64 _) (doze _)

theorem settle_keepsRelease {s v : State} {n : Nat} (h : issueAll s = pump n v) : KeepsRelease v (settle s) :=
  settle_of_steps .trans pump_keepsRelease (fun _ => .of_eq) (fun _ => .of_eq) (fun _ => .of_eq) (fun _ => .of_eq) h

theorem settle_engineKeeps_from {s v : State} {n : Nat} (h : issueAll s = pump n v) : EngineKeeps v (settle s) :=
  settle_of_steps .trans pump_engineKeeps judgeDelivery_engineKeeps evalScan_engineKeeps tryHandBack_engineKeeps evalDoze_engineKeeps h

/-! ### Writes no block acts on -/

/-- Requests whose transfers stand whatever the state and whose issue no block acts on join the queue one after the other. -/
theorem pump_silent {m : MemoryMap} {rest : List Purpose} (k : Nat) (xs : List MasterTransfer) {s : State} (hm : s.loader.map = some m)
    (he : s.power.mode ≠ .doze) (hw : s.bus.waiting = xs.map (·.purpose) ++ rest) (hq : s.bus.queue.length + xs.length ≤ 8)
    (hx : ∀ x ∈ xs, ∀ u, formTransfer u m x.purpose = some x.transfer ∧ onIssue x.purpose u = u) :
    pump (k + xs.length) s = pump k { s with bus.waiting := rest, bus.queue := s.bus.queue ++ xs } := by
  induction xs generalizing s with
  | nil =>
    have hw' : s.bus.waiting = rest := by simpa using hw
    simp [← hw']
  | cons x xs ih =>
    simp only [List.length_cons] at hq
    have hform := (hx x (by simp) { s with bus.waiting := xs.map (·.purpose) ++ rest }).1
    rw [List.length_cons, ← Nat.add_assoc, pump_cons _ (by simpa using hw) (by omega) he, issueOne_formed hm hform, (hx x (by simp) _).2,
      ih (s := { s with bus.waiting := xs.map (·.purpose) ++ rest, bus.queue := s.bus.queue ++ [⟨x.purpose, x.transfer⟩] }) hm he rfl
        (by simp; omega) fun y hy => hx y (by simp [hy])]
    simp

/-- The same followed by one request that a block acts on. -/
theorem issueAll_silent_then {m : MemoryMap} {p : Purpose} {y : Transfer} (xs : List MasterTransfer) {s : State}
    (hm : s.loader.map = some m) (he : s.power.mode ≠ .doze) (hw : s.bus.waiting = xs.map (·.purpose) ++ [p])
    (hq : s.bus.queue.length + xs.length ≤ 7)
    (hx : ∀ x ∈ xs, ∀ u, formTransfer u m x.purpose = some x.transfer ∧ onIssue x.purpose u = u)
    (hy : formTransfer { s with bus.waiting := [], bus.queue := s.bus.queue ++ xs } m p = some y) :
    issueAll s = pump (63 - xs.length)
      (onIssue p { s with bus.waiting := [], bus.queue := s.bus.queue ++ xs ++ [⟨p, y⟩] }) := by
  have hfuel : 64 = 63 - xs.length + 1 + xs.length := by omega
  rw [issueAll, hfuel, pump_silent _ xs hm he hw (by omega) hx, pump_cons _ (s := { s with bus.waiting := [p], bus.queue := s.bus.queue ++ xs }) (rest := []) rfl (by simpa using hq) he,
    issueOne_formed (s := { s with bus.waiting := [p], bus.queue := s.bus.queue ++ xs }) hm hy]

/-! ### The two rings -/

/-- The Abandoned completions of the `n` positions from `c` (R10). -/
abbrev abandonedWrites (m : MemoryMap) (c : Count) (n : Nat) : List MasterTransfer :=
  (List.range n).map fun i => ⟨.completion (advance c i) .abandoned,
    .write (addrOf (descriptorAddr m.txBase m.txSize (advance c i) + 4)) [⟨BitVec.ofNat 32 (12 * 16777216), 8⟩]⟩

/-- The Abandoned Empty statuses of the `n` positions from `c` (R133). -/
abbrev abandonedEmptyWrites (m : MemoryMap) (c : Count) (n : Nat) : List MasterTransfer :=
  (List.range n).map fun i => ⟨.abandonedEmpty (advance c i),
    .write (addrOf (descriptorAddr m.rxBase m.rxSize (advance c i) + 8)) [⟨10, 15⟩]⟩

theorem formTransfer_abandoned (u : State) (m : MemoryMap) (p : Count) : formTransfer u m (.completion p .abandoned)
    = some (.write (addrOf (descriptorAddr m.txBase m.txSize p + 4)) [⟨BitVec.ofNat 32 (12 * 16777216), 8⟩]) := rfl

theorem formTransfer_abandonedEmpty (u : State) (m : MemoryMap) (p : Count) : formTransfer u m (.abandonedEmpty p)
    = some (.write (addrOf (descriptorAddr m.rxBase m.rxSize p + 8)) [⟨10, 15⟩]) := by
  simp only [formTransfer, abandonedEmptyWord]
  rfl

theorem forceTransmit_waiting {h : Count} {c : Word} {s : State} (hh : s.bus.fixedH = some h) (hc : s.bus.shadows.txc = some c) :
    (forceTransmit s).bus.waiting = s.bus.waiting
      ++ ((if dist (countOf c) h ≤ txSize s then (List.range (dist (countOf c) h)).map (fun i => .completion (advance (countOf c) i) .abandoned) else [])
        ++ [.txcForced]) := by
  have reduced : (forceTransmit s).bus.waiting = s.bus.waiting
      ++ ((List.range (if dist (shadowCount s .txc) (s.bus.fixedH.getD 0) ≤ txSize s then dist (shadowCount s .txc) (s.bus.fixedH.getD 0) else 0)).map
        (fun i => .completion (advance (shadowCount s .txc) i) .abandoned) ++ [.txcForced]) := rfl
  rw [reduced]
  have hshadow : shadowCount s .txc = countOf c := by simp [shadowCount, shadowWord, shadowOf, hc]
  simp only [hshadow, hh, Option.getD_some]
  split <;> rfl

theorem forceReceive_waiting {g : Count} {d : Word} {s : State} (hg : s.bus.fixedG = some g) (hd : s.bus.shadows.rxf = some d) :
    (forceReceive s).bus.waiting = s.bus.waiting
      ++ ((if dist (countOf d) g ≤ rxSize s then (List.range (dist (countOf d) g)).map (fun i => .abandonedEmpty (advance (countOf d) i)) else [])
        ++ [.rxfForced]) := by
  have reduced : (forceReceive s).bus.waiting = s.bus.waiting
      ++ ((List.range (if dist (shadowCount s .rxf) (s.bus.fixedG.getD 0) ≤ rxSize s then dist (shadowCount s .rxf) (s.bus.fixedG.getD 0) else 0)).map
        (fun i => .abandonedEmpty (advance (shadowCount s .rxf) i)) ++ [.rxfForced]) := rfl
  rw [reduced]
  have hshadow : shadowCount s .rxf = countOf d := by simp [shadowCount, shadowWord, shadowOf, hd]
  simp only [hshadow, hg, Option.getD_some]
  split <;> rfl

theorem setTxReleased_timer {s : State} (h : s.path.releaseTimer = none) : (setTxReleased s).path.releaseTimer = none :=
  stopReleaseTimer_timer h

theorem setRxReleased_timer {s : State} (h : s.path.releaseTimer = none) : (setRxReleased s).path.releaseTimer = none :=
  stopReleaseTimer_timer h

/-- The transmit ring's forced release with an empty queue: the completions and TXC = H are issued, and its issue releases the
ring (R10). -/
theorem settle_forceTransmit {m : MemoryMap} {h : Count} {c : Word} {s : State} (hm : s.loader.map = some m) (hr : holdsRings s = true)
    (ht : s.path.releaseTimer = none) (he : s.power.mode ≠ .doze) (hh : s.bus.fixedH = some h) (hc : s.bus.shadows.txc = some c)
    (hsize : dist (countOf c) h ≤ txSize s) (hfew : dist (countOf c) h ≤ 7) (hq : s.bus.queue = []) (hw : s.bus.waiting = []) :
    abandonedWrites m (countOf c) (dist (countOf c) h) ++ [⟨.txcForced, .write (addrOf (watchedAddr m .txc)) [⟨h.setWidth 32, 15⟩]⟩]
        <+: (settle (forceTransmit s)).bus.queue
      ∧ (settle (forceTransmit s)).path.txReleased = true ∧ (settle (forceTransmit s)).path.releaseTimer = none
      ∧ (settle (forceTransmit s)).bus.uplinkView = .following := by
  have hreq : (forceTransmit s).bus.waiting
      = (abandonedWrites m (countOf c) (dist (countOf c) h)).map (·.purpose) ++ [.txcForced] := by
    simp [forceTransmit_waiting hh hc, hsize, hw]
  have hissue := issueAll_silent_then (m := m) (p := .txcForced) (s := forceTransmit s)
    (y := .write (addrOf (watchedAddr m .txc)) [⟨h.setWidth 32, 15⟩]) _ (by simpa using hm) (by simpa using he) hreq
    (by simpa [hq] using hfew) (by simp +contextual [formTransfer_abandoned, onIssue, completionIssued]) (by simp [formTransfer, hh, indexWord])
  generalize hw' : ({ forceTransmit s with bus.waiting := [], bus.queue := _ } : State) = w at hissue
  have hqw : w.bus.queue = abandonedWrites m (countOf c) (dist (countOf c) h)
      ++ [⟨.txcForced, .write (addrOf (watchedAddr m .txc)) [⟨h.setWidth 32, 15⟩]⟩] := by simp [← hw', hq]
  have hmw : w.loader.map = some m := by simpa [← hw'] using hm
  have hrw : holdsRings w = true := by simpa [holdsRings, ← hw'] using hr
  have hon : onIssue .txcForced w = afterTxRelease (setTxReleased w) := by simp [onIssue, hrw]
  rw [hon] at hissue
  have kept := (afterTxRelease_engineKeeps (setTxReleased w)).trans (settle_engineKeeps_from hissue)
  have release := settle_keepsRelease hissue
  obtain ⟨new, hnew, _⟩ := kept.passes m [] (by simpa using hmw) (by simp) List.nil_prefix
  obtain ⟨htx, hview⟩ := release.tx (by simp [setTxReleased]) (by simp [setTxReleased])
  refine ⟨?_, htx, release.timer ?_, hview⟩
  · rw [hnew]
    simp [hqw]
  · have same : (afterTxRelease (setTxReleased w)).path.releaseTimer = (setTxReleased w).path.releaseTimer := by simp
    rw [same]
    exact setTxReleased_timer (by simp [← hw', ht])

/-- The receive ring's forced release with an empty queue (R10, R133). -/
theorem settle_forceReceive {m : MemoryMap} {g : Count} {c : Word} {s : State} (hm : s.loader.map = some m) (hr : holdsRings s = true)
    (ht : s.path.releaseTimer = none) (he : s.power.mode ≠ .doze) (hg : s.bus.fixedG = some g) (hc : s.bus.shadows.rxf = some c)
    (hsize : dist (countOf c) g ≤ rxSize s) (hfew : dist (countOf c) g ≤ 7) (hq : s.bus.queue = []) (hw : s.bus.waiting = []) :
    abandonedEmptyWrites m (countOf c) (dist (countOf c) g) ++ [⟨.rxfForced, .write (addrOf (watchedAddr m .rxf)) [⟨g.setWidth 32, 15⟩]⟩]
        <+: (settle (forceReceive s)).bus.queue
      ∧ (settle (forceReceive s)).path.rxReleased = true ∧ (settle (forceReceive s)).path.releaseTimer = none
      ∧ (settle (forceReceive s)).bus.receiveView = .following := by
  have hreq : (forceReceive s).bus.waiting
      = (abandonedEmptyWrites m (countOf c) (dist (countOf c) g)).map (·.purpose) ++ [.rxfForced] := by
    simp [forceReceive_waiting hg hc, hsize, hw]
  have hissue := issueAll_silent_then (m := m) (p := .rxfForced) (s := forceReceive s)
    (y := .write (addrOf (watchedAddr m .rxf)) [⟨g.setWidth 32, 15⟩]) _ (by simpa using hm) (by simpa using he) hreq
    (by simpa [hq] using hfew) (by simp +contextual [formTransfer_abandonedEmpty, onIssue]) (by simp [formTransfer, hg, indexWord])
  generalize hw' : ({ forceReceive s with bus.waiting := [], bus.queue := _ } : State) = w at hissue
  have hqw : w.bus.queue = abandonedEmptyWrites m (countOf c) (dist (countOf c) g)
      ++ [⟨.rxfForced, .write (addrOf (watchedAddr m .rxf)) [⟨g.setWidth 32, 15⟩]⟩] := by simp [← hw', hq]
  have hmw : w.loader.map = some m := by simpa [← hw'] using hm
  have hrw : holdsRings w = true := by simpa [holdsRings, ← hw'] using hr
  have hon : onIssue .rxfForced w = afterForcedRx (setRxReleased w) := by simp [onIssue, hrw]
  rw [hon] at hissue
  have kept := (afterForcedRx_engineKeeps (setRxReleased w)).trans (settle_engineKeeps_from hissue)
  have release := settle_keepsRelease hissue
  obtain ⟨new, hnew, _⟩ := kept.passes m [] (by simpa using hmw) (by simp) List.nil_prefix
  obtain ⟨hrx, hview⟩ := release.rx (by simp [setRxReleased]) (by simp [setRxReleased])
  refine ⟨?_, hrx, release.timer ?_, hview⟩
  · rw [hnew]
    simp [hqw]
  · have same : (afterForcedRx (setRxReleased w)).path.releaseTimer = (setRxReleased w).path.releaseTimer := by simp
    rw [same]
    exact setRxReleased_timer (by simp [← hw', ht])

/-! ### The expiry -/

theorem exec_releaseTimerExpiry {s : State} (ht : s.path.releaseTimer.isSome = true) (he : s.power.mode ≠ .doze) (hr : holdsRings s = true) :
    exec .releaseTimerExpiry s = .next (settle (forceRx (forceTx { s with path.releaseTimer := none }))) := by
  have hr' : holdsRings { s with path.releaseTimer := none } = true := hr
  show Host.Outcome.next (doReleaseTimerExpiry s) = _
  simp [doReleaseTimerExpiry, ht, nowOrRecorded, enginesRun, he, releaseExpires, forceRelease, hr']

theorem forceTx_released {s : State} (h : s.path.txReleased = true) : forceTx s = s := by simp [forceTx, h]

theorem forceRx_released {s : State} (h : s.path.rxReleased = true) : forceRx s = s := by simp [forceRx, h]

theorem forceTx_forces {s : State} {h : Count} {c : Word} (hrel : s.path.txReleased = false) (hf : s.ring.txForcing = false)
    (hh : s.bus.fixedH = some h) (hc : s.bus.shadows.txc = some c) (hne : countOf c ≠ h) : forceTx s = forceTransmit s := by
  simp [forceTx, hrel, hf, hh, shadowCount, shadowWord, shadowOf, hc, hne]

theorem forceRx_forces {s : State} {g : Count} {d : Word} (hrel : s.path.rxReleased = false) (hf : s.ring.rxForcing = false)
    (hg : s.bus.fixedG = some g) (hd : s.bus.shadows.rxf = some d) (hne : countOf d ≠ g) : forceRx s = forceReceive s := by
  simp [forceRx, hrel, hf, hg, shadowCount, shadowWord, shadowOf, hd, hne]

/-- In DOZE the standing work leaves the path controller as it is (R152, R158). -/
theorem settle_doze_path {s : State} (h : s.power.mode = .doze) : (settle s).path = s.path := by
  have idle {u : State} (hu : u.power.mode = .doze) : issueAll u = u := by
    simp only [issueAll, pump]
    split <;> simp [enginesRun, hu]
  have undelivered : judgeDelivery s = s := by simp [judgeDelivery, mayDeliver, enginesRun, h]
  simp [settle, idle, h, undelivered]

/-- The requests of a forced release of a ring: `n` positions, none when they exceed the ring, then the consumer word. -/
abbrev forcedRequests (asked : Count → Purpose) (last : Purpose) (c h : Count) (size : Nat) : List Purpose :=
  (if dist c h ≤ size then (List.range (dist c h)).map fun i => asked (advance c i) else []) ++ [last]

theorem forced_standsFirm {asked : Count → Purpose} {last : Purpose} {c h : Count} {size : Nat} {released : Bool}
    (ha : ∀ i, standsFirm (asked i) = true) (hl : standsFirm last = true) :
    ∀ p ∈ (if released then [] else forcedRequests asked last c h size), standsFirm p = true := by
  cases released
  · simp only [forcedRequests, Bool.false_eq_true, if_false, List.forall_mem_append]
    refine ⟨?_, by simp [hl]⟩
    split <;> simp [ha]
  · simp

/-- What the forced release of both rings asks for, and the guards and marks it sets (R10). -/
theorem forceBoth {h g : Count} {c d : Word} {s : State} (hw : s.bus.waiting = []) (hh : s.bus.fixedH = some h) (hg : s.bus.fixedG = some g)
    (hc : s.bus.shadows.txc = some c) (hd : s.bus.shadows.rxf = some d)
    (htx : s.path.txReleased = false → s.ring.txForcing = false ∧ countOf c ≠ h)
    (hrx : s.path.rxReleased = false → s.ring.rxForcing = false ∧ countOf d ≠ g) :
    (forceRx (forceTx s)).bus.waiting
        = (if s.path.txReleased then [] else forcedRequests (.completion · .abandoned) .txcForced (countOf c) h (txSize s))
          ++ (if s.path.rxReleased then [] else forcedRequests .abandonedEmpty .rxfForced (countOf d) g (rxSize s))
      ∧ (s.path.txReleased = false → (forceRx (forceTx s)).bus.txGuard = true ∧ (forceRx (forceTx s)).ring.txForcing = true)
      ∧ (s.path.rxReleased = false → (forceRx (forceTx s)).bus.rxGuard = true ∧ (forceRx (forceTx s)).ring.rxForcing = true)
      ∧ (forceRx (forceTx s)).bus.queue = s.bus.queue := by
  cases htxr : s.path.txReleased <;> cases hrxr : s.path.rxReleased
  · obtain ⟨hft, hnt⟩ := htx htxr
    obtain ⟨hfr, hnr⟩ := hrx hrxr
    rw [forceTx_forces htxr hft hh hc hnt, forceRx_forces (s := forceTransmit s) (by simpa) (by simpa) (by simpa) (by simpa) hnr]
    rw [forceReceive_waiting (s := forceTransmit s) (by simpa) (by simpa), forceTransmit_waiting hh hc]
    simp [hw, rxSize, forceTransmit, forceReceive]
  · obtain ⟨hft, hnt⟩ := htx htxr
    rw [forceTx_forces htxr hft hh hc hnt, forceRx_released (by simpa), forceTransmit_waiting hh hc]
    simp [hw, forceTransmit]
  · obtain ⟨hfr, hnr⟩ := hrx hrxr
    rw [forceTx_released htxr, forceRx_forces hrxr hfr hg hd hnr, forceReceive_waiting hg hd]
    simp [hw, forceReceive]
  · rw [forceTx_released htxr, forceRx_released hrxr]
    simp [hw]

/-- Settles O34: alone, a ring's requests are issued one after the other and the last releases it; in general they stand first in
line behind the queue, and what the standing work keeps of a release gives the rest. -/
theorem releaseTimerForcesRelease : Obligations.ReleaseTimerForcesRelease := by
  refine ⟨?_, ?_, ?_, ?_⟩
  · intro m h c s hm hr ht he htx hf hrx hh hc hne hsize hfew hq hw
    have hforce : forceRx (forceTx { s with path.releaseTimer := none }) = forceTransmit { s with path.releaseTimer := none } := by
      rw [forceTx_forces (s := { s with path.releaseTimer := none }) htx hf hh hc hne, forceRx_released (by simpa using hrx)]
    obtain ⟨hqueue, hrel, htimer, hview⟩ := settle_forceTransmit (s := { s with path.releaseTimer := none }) hm hr rfl he hh hc hsize hfew hq hw
    exact ⟨_, hforce ▸ exec_releaseTimerExpiry ht he hr, hqueue, by simp [forceTransmit], hrel, htimer, hview, by simp⟩
  · intro m g c s hm hr ht he hrx hf htx hg hc hne hsize hfew hq hw
    have hforce : forceRx (forceTx { s with path.releaseTimer := none }) = forceReceive { s with path.releaseTimer := none } := by
      rw [forceTx_released (by simpa using htx), forceRx_forces (s := { s with path.releaseTimer := none }) hrx hf hg hc hne]
    obtain ⟨hqueue, hrel, htimer, hview⟩ := settle_forceReceive (s := { s with path.releaseTimer := none }) hm hr rfl he hg hc hsize hfew hq hw
    exact ⟨_, hforce ▸ exec_releaseTimerExpiry ht he hr, hqueue, by simp [forceReceive], hrel, htimer, hview, by simp⟩
  · intro s he ht
    have hexec : exec .releaseTimerExpiry s = .next (settle (nowOrRecorded .release releaseExpires s)) := by
      show Host.Outcome.next (doReleaseTimerExpiry s) = _
      simp [doReleaseTimerExpiry, ht]
    have hrec : nowOrRecorded .release releaseExpires s
        = if s.path.recorded.contains .release then s else { s with path.recorded := s.path.recorded ++ [.release] } := by
      simp [nowOrRecorded, enginesRun, he]
    refine ⟨_, hexec, ?_⟩
    rw [hrec]
    split <;> simp [settle_doze_path, he]
  · intro m h g c d s hm hr ht he hw hh hg hc hd htx hrx
    have htxs : txSize s = m.txSize := by simp [txSize, hm]
    obtain ⟨hline, hguardT, hguardR, hqueue⟩ := forceBoth (s := { s with path.releaseTimer := none }) hw hh hg hc hd htx hrx
    generalize hu : forceRx (forceTx { s with path.releaseTimer := none }) = u at *
    have hmap : u.loader.map = some m := by simpa [← hu] using hm
    have hpath : u.path.path = s.path.path := by simp [← hu]
    have release := settle_keepsRelease (s := u) (n := 64) rfl
    have hfirm : ∀ p ∈ u.bus.waiting, standsFirm p = true := by
      rw [hline]
      exact List.forall_mem_append.2 ⟨forced_standsFirm (fun _ => rfl) rfl, forced_standsFirm (fun _ => rfl) rfl⟩
    obtain ⟨new, hnew, hformed, hissued⟩ := (settle_engineKeeps u).passes m _ hmap hfirm (List.prefix_refl _)
    refine ⟨_, hu ▸ exec_releaseTimerExpiry ht he hr, ?_, fun hrel => ?_, fun hrel => ?_, ?_, by simpa using hpath⟩
    · rw [List.append_assoc, hnew, hqueue, List.map_append, List.append_assoc]
      refine (List.prefix_append_right_inj _).2 ?_
      rw [hline] at hissued
      obtain hpre | ⟨Y, hX, hY⟩ := hissued
      · exact hpre.trans (List.prefix_append _ _)
      · exact hX ▸ (List.prefix_append_right_inj _).2 hY
    · obtain ⟨hg1, hf1⟩ := hguardT hrel
      exact ⟨by simpa using hg1, release.txForced (.inr hf1)⟩
    · obtain ⟨hg1, hf1⟩ := hguardR hrel
      exact ⟨by simpa using hg1, release.rxForced (.inr hf1)⟩
    · intro x hx p
      rw [hnew, hqueue, List.drop_left] at hx
      obtain ⟨v, hv⟩ := hformed x hx
      refine ⟨fun hp => ?_, fun hp => ?_⟩
      · rw [hp, formTransfer_abandoned] at hv
        exact (Option.some.inj hv).symm
      · rw [hp, formTransfer_abandonedEmpty] at hv
        exact (Option.some.inj hv).symm

end Sys2Proof.Machine
end

section
/-! What the Radio Link Manager's reports bring about while no engine has work to begin: the path's part of R11, R12 and R14, and
the states they leave at rest. -/

-- One theorem at a time, as in the model's laws: the threads of many at once would not fit the memory a check has.
set_option Elab.async false

namespace Sys2Proof.Machine

/-! ### States at rest -/

/-- A state that agrees with one at rest in what `atRest` speaks of, and has not come to FIBRE, is at rest. -/
theorem atRest_of_eq {s t : State} (h : atRest s) (hw : t.bus.waiting = s.bus.waiting := by simp) (hwin : t.ring.window = s.ring.window := by simp)
    (hv : t.hold.dqV = s.hold.dqV := by simp) (hd : t.hold.dqD = s.hold.dqD := by simp)
    (hr : t.ring.scanRunning = s.ring.scanRunning := by simp) (hsw : scanWanted t = true → scanWanted s = true := by simp [scanWanted, softResetStands])
    (hp : t.path.phase = some .closing → s.path.phase = some .closing := by simp)
    (hs : t.loader.softReset = s.loader.softReset := by simp) : atRest t := by
  obtain ⟨⟨hwaiting, hwindow⟩, hdqV, hdqD, hscan, hwanted, hphase, hsoft⟩ := h
  refine ⟨⟨hw.trans hwaiting, hwin.trans hwindow⟩, hv.trans hdqV, hd.trans hdqD, hr.trans hscan, ?_, fun hc => hphase (hp hc),
    fun hc => hsoft (hs ▸ hc)⟩
  exact Bool.eq_false_iff.2 fun hc => absurd (hsw hc) (by simp [hwanted])

theorem atRest_window {s : State} (h : atRest s) : s.ring.window = [] := h.1.2

theorem atRest_waiting {s : State} (h : atRest s) : s.bus.waiting = [] := h.1.1

/-! ### The report of a radio state to the path (R11, R12, R14) -/

/-- What a report of the radio state leaves: all but the path and its return, the fence and the reading before it, the pending pause
item, and the entries. -/
structure ReportLeaves (s t : State) : Prop where
  bus : t.bus = s.bus
  hold : t.hold = s.hold
  pacer : t.pacer = s.pacer
  power : t.power = s.power
  pins : t.pins = s.pins
  loader : t.loader = s.loader
  radio : t.radio = { s.radio with items.pause := t.radio.items.pause }
  path : t.path = { s.path with path := t.path.path, phase := t.path.phase, drainTimer := t.path.drainTimer, returnPause := t.path.returnPause }
  window : t.ring.window = s.ring.window
  scanRunning : t.ring.scanRunning = s.ring.scanRunning
  health : t.health = s.health

theorem ReportLeaves.refl (s : State) : ReportLeaves s s := by constructor <;> rfl

theorem ReportLeaves.trans {s t u : State} (h : ReportLeaves s t) (h' : ReportLeaves t u) : ReportLeaves s u where
  bus := h'.bus.trans h.bus
  hold := h'.hold.trans h.hold
  pacer := h'.pacer.trans h.pacer
  power := h'.power.trans h.power
  pins := h'.pins.trans h.pins
  loader := h'.loader.trans h.loader
  radio := h'.radio.trans (by rw [h.radio])
  path := h'.path.trans (by rw [h.path])
  window := h'.window.trans h.window
  scanRunning := h'.scanRunning.trans h.scanRunning
  health := h'.health.trans h.health

theorem ReportLeaves.radio_eq {s t : State} (h : ReportLeaves s t) : ∃ b, t.radio = { s.radio with items.pause := b } := ⟨_, h.radio⟩

/-- The path's registers that a report leaves. -/
theorem ReportLeaves.path_kept {s t : State} (h : ReportLeaves s t) : t.path.radioWanted = s.path.radioWanted
    ∧ t.path.emergency = s.path.emergency ∧ t.path.priorityTimer = s.path.priorityTimer ∧ t.path.dwell = s.path.dwell := by
  have hpath := h.path
  refine ⟨?_, ?_, ?_, ?_⟩ <;> rw [hpath]

theorem changePath_reportLeaves (p : PathState) (c : PathCause) (s : State) : ReportLeaves s (changePath p c s) := by constructor <;> rfl

theorem enterReturning_reportLeaves (c : PathCause) {s : State} (h : s.ring.window = []) : ReportLeaves s (enterReturning c s) := by
  simp only [enterReturning]
  rw [judgePending_idle (by simp [withPauseTarget, apply_ite, fixFence, h])]
  simp only [withPauseTarget, fixFence, h, List.filter_nil]
  split <;> constructor <;> first | rfl | exact h.symm

theorem evalReturn_reportLeaves {s : State} (h : s.ring.window = []) : ReportLeaves s (evalReturn s) := by
  unfold evalReturn
  (repeat' split) <;> first | exact enterReturning_reportLeaves _ h | exact .refl s

theorem moveAndEval_reportLeaves (p : PathState) (c : PathCause) {s : State} (h : s.ring.window = []) : ReportLeaves s (moveAndEval p c s) :=
  (changePath_reportLeaves p c s).trans (evalReturn_reportLeaves h)

/-- A report moves the path to RADIO or HELD, or leaves everything (R11, R12). -/
theorem radioReport_cases (s : State) :
    radioReport s = s ∨ ∃ p c, (p = .radio ∨ p = .held) ∧ radioReport s = moveAndEval p c s := by
  have toRadio (c : PathCause) : moveAndEval .radio c s = s ∨ ∃ p c', (p = .radio ∨ p = .held) ∧ moveAndEval .radio c s = moveAndEval p c' s :=
    .inr ⟨_, _, .inl rfl, rfl⟩
  have toHeld (c : PathCause) : moveAndEval .held c s = s ∨ ∃ p c', (p = .radio ∨ p = .held) ∧ moveAndEval .held c s = moveAndEval p c' s :=
    .inr ⟨_, _, .inr rfl, rfl⟩
  unfold radioReport
  split
  case h_1 =>
    split
    case h_1 => exact toRadio _
    case h_2 => exact toHeld _
    all_goals exact .inl rfl
  case h_2 =>
    split
    · exact .inl rfl
    · exact toHeld _
  case h_3 =>
    split
    · exact toRadio _
    · exact .inl rfl
  all_goals exact .inl rfl

theorem radioReport_reportLeaves {s : State} (h : s.ring.window = []) : ReportLeaves s (radioReport s) := by
  obtain hs | ⟨p, c, _, hs⟩ := radioReport_cases s
  · rw [hs]; exact .refl s
  · rw [hs]; exact moveAndEval_reportLeaves p c h

theorem evalReturn_cases (s : State) : evalReturn s = s ∨ ∃ c, evalReturn s = enterReturning c s := by
  unfold evalReturn
  (repeat' split)
  · exact .inl rfl
  · exact .inr ⟨_, rfl⟩
  · exact .inl rfl

theorem moveAndEval_atRest {p : PathState} (c : PathCause) (hp : p = .radio ∨ p = .held) {s : State} (h : atRest s) :
    atRest (moveAndEval p c s) := by
  have leaves := moveAndEval_reportLeaves p c (atRest_window h)
  have ends : (moveAndEval p c s).path.path ≠ .fibre ∧ ((moveAndEval p c s).path.phase = some .closing → s.path.phase = some .closing) := by
    unfold moveAndEval
    obtain he | ⟨d, he⟩ := evalReturn_cases (changePath p c s)
    · rw [he]
      obtain rfl | rfl := hp <;> simp
    · simp [he]
  refine atRest_of_eq h (by rw [leaves.bus]) leaves.window (by rw [leaves.hold]) (by rw [leaves.hold]) leaves.scanRunning ?_ ends.2
    (by rw [leaves.loader])
  simp [scanWanted, ends.1]

/-- A report of the radio state leads to no state of the path that an engine has work in. -/
theorem radioReport_atRest {s : State} (h : atRest s) : atRest (radioReport s) := by
  obtain hs | ⟨p, c, hp, hs⟩ := radioReport_cases s
  · rw [hs]; exact h
  · rw [hs]; exact moveAndEval_atRest c hp h

/-! ### The return decision behind a report (R14) -/

/-- What the decision reads: the call pin, the override, the dwell and the priority timer. -/
theorem returnDecision_of_barred {s : State} (h : returnBarred s) : returnDecision s = none := by
  obtain hoff | hnow | ⟨hauto, hdwell⟩ | ⟨hfibre, htimer⟩ := h
  · exact returnDecision_offhook hoff
  · simp [returnDecision, hnow]
  · simp [returnDecision, hauto, hdwell]
  · simp [returnDecision, hfibre, htimer]

theorem returnDecision_of_unbarred {s : State} (h : ¬ returnBarred s) (hp : s.path.path = .radio ∨ s.path.path = .held) :
    ∃ c, returnDecision s = some c := by
  have hoff : s.pins.offhook = false := by
    by_contra hc
    exact h (.inl (by simpa using hc))
  have hpath : s.path.path = .takeover ∨ s.path.path = .radio ∨ s.path.path = .held := .inr hp
  rw [returnDecision_clear hoff hpath]
  cases hover : s.loader.policy.pathOverride
  case automatic =>
    have hdwell : s.path.dwell = .met := by_contra fun hc => h (.inr (.inr (.inl ⟨hover, hc⟩)))
    exact ⟨.dwellMet, by simp [hdwell]⟩
  case fibreOnly =>
    have htimer : s.path.priorityTimer = none := by_contra fun hc => h (.inr (.inr (.inr ⟨hover, hc⟩)))
    exact ⟨.fibreOnly, by simp [htimer]⟩
  case radioNow => exact absurd (.inr (.inl hover)) h

theorem moveAndEval_barred {p : PathState} {c : PathCause} {s : State} (h : returnBarred s) : moveAndEval p c s = changePath p c s := by
  have hd : returnDecision (changePath p c s) = none := returnDecision_of_barred h
  simp [moveAndEval, evalReturn, hd]

theorem moveAndEval_unbarred {p : PathState} {c : PathCause} {s : State} (hp : p = .radio ∨ p = .held) (h : ¬ returnBarred s)
    (hsoft : s.loader.softReset = .none) (he : s.power.mode ≠ .doze) : (moveAndEval p c s).path.path = .returning := by
  obtain ⟨cause, hd⟩ := returnDecision_of_unbarred (s := changePath p c s) h (by simpa using hp)
  have hsoft' : softResetStands (changePath p c s) = false := softResetStands_none hsoft
  have he' : enginesRun (changePath p c s) = true := by simpa [enginesRun] using he
  simp [moveAndEval, evalReturn, hd, hsoft', he']

theorem radioReport_attached {s : State} (hp : s.path.path = .takeover ∨ s.path.path = .held) (ha : s.radio.state = .attached) :
    radioReport s = moveAndEval .radio .attached s := by
  obtain h | h := hp <;> simp [radioReport, h, ha]

theorem radioReport_backoff {s : State} (hp : s.path.path = .takeover) (ha : s.radio.state = .backoff) :
    radioReport s = moveAndEval .held .attachFailed s := by simp [radioReport, hp, ha]

theorem radioReport_lost {s : State} (hp : s.path.path = .radio) (ha : s.radio.state ≠ .attached) :
    radioReport s = moveAndEval .held .radioLost s := by simp [radioReport, hp, ha]

/-! ### A command's end at rest -/

/-- At rest the end of a command moves the doze step and what is told of Low Power at most (R157). -/
theorem settle_rest {u : State} (h : atRest u) : ∃ x y k, settle u = { u with power.step := x, radio.items.lowPower := y, radio.ldo := k }
    ∧ (k = u.radio.ldo ∨ ∃ live, u.radio.ldo = some (.lowPower true live)) := by
  refine ⟨(settle u).power.step, (settle u).radio.items.lowPower, ldoAside u (settle u), settle_moves h, ?_⟩
  unfold ldoAside
  split
  · exact .inr ⟨_, ‹_›⟩
  · exact .inl rfl

/-! ### Placement with empty queues -/

theorem examine_empty {s : State} (h : uplinkEmpty s = true) : examine s = s := by
  simp only [uplinkEmpty, Bool.and_eq_true, beq_iff_eq] at h
  obtain ⟨⟨he, hv⟩, hd⟩ := h
  have dropE : dropOldUqE s = s := by
    simp only [dropOldUqE, he, List.takeWhile_nil, List.dropWhile_nil, loseAll, List.foldl_nil]
    rw [← he]
  have dropV : dropOldUqV s = s := by
    simp only [dropOldUqV, hv, List.takeWhile_nil, List.dropWhile_nil, loseAll, List.foldl_nil]
    rw [← hv]
  simp [examine, dropE, he, dropV]

/-- With the uplink queues empty a placement attempt places nothing (R73). -/
theorem placementAttempt_empty {s : State} (h : uplinkEmpty s = true) : placementAttempt s = s := by
  have once : placeOnce s = s := by
    have found : foundHead s = none := by
      simp only [uplinkEmpty, Bool.and_eq_true, beq_iff_eq] at h
      simp [foundHead, h]
    simp [placeOnce, examine_empty h, found]
  simp [placementAttempt, once]

/-! ### A success (R113) -/

/-- ATTACHED as a success makes it, before its report. -/
def attachedNow (s : State) : State :=
  creditAtAttach { s with
    radio.attachTimer := none
    radio.failures := 0
    radio.lastCause := none
    radio.state := .attached
    radio.silenceTimer := some 10000
    radio.items.attach := false
    radio.attachTag := none
    path.emergency := false }

theorem startLinger_cases (s : State) : startLinger s = s
    ∨ startLinger s = { s with radio.items.detach := true }
    ∨ startLinger s = { s with radio.lingerTimer := some (s.loader.policy.linger * 1000) } := by
  unfold startLinger
  (repeat' split)
  · exact .inr (.inl rfl)
  · exact .inr (.inr rfl)
  · exact .inl rfl

/-- In ATTACHED with the radio not wanted the linger starts, or a Detach Request is made pending at once (R121). -/
theorem startLinger_unwanted {s : State} (ha : s.radio.state = .attached) (hw : attachWanted s = false) :
    startLinger s = if s.loader.policy.linger = 0 then { s with radio.items.detach := true }
      else { s with radio.lingerTimer := some (s.loader.policy.linger * 1000) } := by simp [startLinger, ha, hw]

theorem startLinger_wanted {s : State} (hw : attachWanted s = true) : startLinger s = s := by simp [startLinger, hw]

theorem startLinger_atRest {s : State} (h : atRest s) : atRest (startLinger s) := by
  obtain hs | hs | hs := startLinger_cases s <;> rw [hs] <;> exact h

theorem attachSucceeds_empty {s : State} (h : uplinkEmpty s = true) (hwin : s.ring.window = []) :
    attachSucceeds s = startLinger (radioReport (attachedNow s)) := by
  have leaves := radioReport_reportLeaves (s := attachedNow s) hwin
  have empty : uplinkEmpty (radioReport (attachedNow s)) = true := by
    rw [uplinkEmpty, leaves.hold]; exact h
  show startLinger (placementAttempt (radioReport (attachedNow s))) = _
  rw [placementAttempt_empty empty]

/-- Settles O41. -/
theorem attachResultSuccessAttaches : Obligations.AttachResultSuccessAttaches := by
  refine ⟨?_, ?_⟩
  · intro s hready hstate hrest hempty hlen
    have hexec : exec (.attachResult 0) s = .next (settle (startLinger (radioReport (attachedNow s)))) := by
      show Host.Outcome.next (doAttachResult 0 s) = _
      simp [doAttachResult, hready, hstate, attachSucceeds_empty hempty (atRest_window hrest)]
    have he : s.power.mode ≠ .doze := by
      simp only [receiverReady, ldiRuns, lclkRuns, enginesRun, Bool.and_eq_true] at hready
      simpa using hready.1.1.2
    have rested : atRest (attachedNow s) := hrest
    have leaves := radioReport_reportLeaves (atRest_window rested)
    have restedReport := radioReport_atRest rested
    generalize hv : radioReport (attachedNow s) = v at *
    obtain ⟨hwant, hflag, _, _⟩ := leaves.path_kept
    have hwanted : attachWanted v = s.path.radioWanted := by
      simp [attachWanted, hwant, hflag, attachedNow, creditAtAttach]
    obtain ⟨pause, hradio⟩ := leaves.radio_eq
    obtain ⟨x, y, k, hset, _⟩ := settle_rest (startLinger_atRest restedReport)
    have hlinger : v.loader.policy.linger = s.loader.policy.linger := by rw [leaves.loader]; rfl
    have hattached : v.radio.state = .attached := by rw [hradio]; rfl
    refine ⟨_, hexec, ?_⟩
    rw [hset]
    refine ⟨?_, ?_, ?_, ?_, ?_, ?_, ?_, ?_, ?_, ?_, fun hw => ?_, fun hw hl => ?_, fun hw hl => ?_, fun hp hb => ?_, fun hp hsoft hb => ?_⟩
    · simpa using hattached
    · simp [hradio, attachedNow, creditAtAttach]
    · simp [hradio, attachedNow, creditAtAttach]
    · simp [hradio, attachedNow, creditAtAttach]
    · simp [hradio, attachedNow, creditAtAttach]
    · simpa [attachedNow, creditAtAttach] using hflag
    · simp [leaves.pacer, attachedNow, creditAtAttach]
    · simp [leaves.pacer, attachedNow, creditAtAttach]
    · simp [hradio, attachedNow, creditAtAttach]
    · simp [hradio, attachedNow, creditAtAttach]
    · rw [startLinger_wanted (hwanted.trans hw)]
      simp [hradio, attachedNow, creditAtAttach]
    · rw [startLinger_unwanted hattached (hwanted.trans hw), hlinger, if_neg hl]
    · rw [startLinger_unwanted hattached (hwanted.trans hw), hlinger, if_pos hl]
    · have hreport : v = changePath .radio .attached (attachedNow s) := by
        rw [← hv, radioReport_attached (s := attachedNow s) hp rfl, moveAndEval_barred (s := attachedNow s) hb]
      have hdetail : detailOfKind v .pathChange = some (.pathChange s.path.path .radio .attached) := by
        rw [hreport]
        exact detailOfKind_changePath (s := attachedNow s) hlen
      refine ⟨by simp [hreport], ?_⟩
      simpa [detailOfKind, entryOfKind] using hdetail
    · have hreport : v = moveAndEval .radio .attached (attachedNow s) := by rw [← hv, radioReport_attached (s := attachedNow s) hp rfl]
      simpa [hreport] using moveAndEval_unbarred (c := .attached) (s := attachedNow s) (.inl rfl) hb hsoft he
  · intro tag s hstate
    show Host.Outcome.next (doAttachResult tag s) = _
    simp [doAttachResult, hstate]

end Sys2Proof.Machine
end

section
/-! What the radio's losses bring about while no engine has work to begin: an attach that fails (R114) and the ways out of ATTACHED
(R118, R121). -/

-- One theorem at a time, as in the model's laws: the threads of many at once would not fit the memory a check has.
set_option Elab.async false

namespace Sys2Proof.Machine

/-! ### Freed cells with an empty window -/

/-- `t` is `s` but for what freed and lost records move: the free list, the cells that wait for LDO, the pause and its item, the
entries and counters, and a soft reset's counts. -/
def Frees (s t : State) : Prop := ∃ free paused onLdo item events up down,
  t = { s with
    hold.freeList := free
    hold.paused := paused
    hold.onLdo := onLdo
    radio.items.pause := item
    events := events
    loader.softUp := up
    loader.softDown := down }

theorem Frees.refl (s : State) : Frees s s := ⟨_, _, _, _, _, _, _, rfl⟩

theorem Frees.trans {s t u : State} (h : Frees s t) (h' : Frees t u) : Frees s u := by
  obtain ⟨_, _, _, _, _, _, _, rfl⟩ := h
  obtain ⟨_, _, _, _, _, _, _, rfl⟩ := h'
  exact ⟨_, _, _, _, _, _, _, rfl⟩

theorem Frees.window {s t : State} (h : Frees s t) (hw : s.ring.window = []) : t.ring.window = [] := by
  obtain ⟨_, _, _, _, _, _, _, rfl⟩ := h
  exact hw

theorem Frees.atRest {s t : State} (h : Frees s t) (hr : atRest s) : atRest t := by
  obtain ⟨_, _, _, _, _, _, _, rfl⟩ := h
  exact hr

theorem freeCells_frees (cells : List Nat) {s : State} (h : s.ring.window = []) : Frees s (freeCells cells s) := by
  rw [freeCells_idle (by simp [h])]
  split
  · exact .refl s
  · simp only [evalPause, withPauseTarget]
    split <;> exact ⟨_, _, _, _, _, _, _, rfl⟩

theorem freeRecord_frees (r : FrameRecord) {s : State} (h : s.ring.window = []) : Frees s (freeRecord r s) := by
  unfold freeRecord
  split
  · exact ⟨_, _, _, _, _, _, _, rfl⟩
  · exact freeCells_frees _ h

theorem loseRecord_frees (reason : LossReason) (r : FrameRecord) {s : State} (h : s.ring.window = []) : Frees s (loseRecord reason r s) :=
  Frees.trans (t := reportLoss reason r s) ⟨_, _, _, _, _, _, _, rfl⟩ (freeRecord_frees r h)

theorem countSoftDiscard_frees (r : FrameRecord) (s : State) : Frees s (countSoftDiscard r s) := by
  simp only [countSoftDiscard]
  split <;> exact ⟨_, _, _, _, _, _, _, rfl⟩

theorem softDiscardRecord_frees (r : FrameRecord) {s : State} (h : s.ring.window = []) : Frees s (softDiscardRecord r s) :=
  (countSoftDiscard_frees r s).trans (freeRecord_frees r ((countSoftDiscard_frees r s).window h))

theorem freeOnLdo_frees {s : State} (h : s.ring.window = []) : Frees s (freeOnLdo s) := by
  have fold (rs : List FrameRecord) : ∀ u : State, u.ring.window = [] → Frees u (rs.foldl (fun u r => freeCells r.cells u) u) := by
    induction rs with
    | nil => exact fun u _ => .refl u
    | cons r rs ih => exact fun u hu => (freeCells_frees r.cells hu).trans (ih _ ((freeCells_frees r.cells hu).window hu))
  exact Frees.trans (t := { s with hold.onLdo := [] }) ⟨_, _, _, _, _, _, _, rfl⟩ (fold _ _ h)

theorem abandonPayload_frees {s : State} (h : s.ring.window = []) : ∃ r, Frees { s with radio.receiver := r } (abandonPayload s) := by
  unfold abandonPayload
  split
  · refine ⟨.idle, ?_⟩
    dsimp only
    split
    · exact .refl _
    · split
      · exact loseRecord_frees _ _ h
      · exact loseRecord_frees _ _ h
      · exact softDiscardRecord_frees _ h
  · exact ⟨_, .refl s⟩

/-- The link cut off: nothing is sent or received, and cells come free (R124). -/
theorem cutLink_frees {s : State} (h : s.ring.window = []) : Frees { s with radio.ldo := none, radio.receiver := .idle } (cutLink s) := by
  have freed := freeOnLdo_frees (s := { s with radio.ldo := none }) h
  obtain ⟨r, cut⟩ := abandonPayload_frees (freed.window h)
  simp only [cutLink]
  generalize abandonPayload (freeOnLdo { s with radio.ldo := none }) = v at *
  generalize freeOnLdo { s with radio.ldo := none } = u at *
  obtain ⟨_, _, _, _, _, _, _, rfl⟩ := freed
  obtain ⟨_, _, _, _, _, _, _, rfl⟩ := cut
  exact ⟨_, _, _, _, _, _, _, rfl⟩

theorem enterOff_frees {s : State} (h : s.ring.window = []) : Frees { dropPower s with
    radio.state := .off
    radio.ready := false
    radio.startTimer := none
    radio.cycleTimer := none
    radio.backoffTimer := none
    radio.items := ControlItems.none
    radio.ldo := none
    radio.receiver := .idle } (enterOff s) := cutLink_frees h

theorem enterOff_atRest {s : State} (h : atRest s) : atRest (enterOff s) := (enterOff_frees (atRest_window h)).atRest h

/-! ### Entries that a report leaves -/

/-- A report raises Path Change alone (R23). -/
theorem moveAndEval_detail {p : PathState} {c : PathCause} {s : State} {k : EventKind} (hno : .eventRecord ∉ s.bus.waiting)
    (hk : k ≠ .pathChange) (hr : ¬ engineRaises k) : detailOfKind (moveAndEval p c s) k = detailOfKind s k := by
  have change (q : PathState) (d : PathCause) (u : State) : detailOfKind (changePath q d u) k = detailOfKind u k :=
    detailOfKind_of_entry (entryOfKind_raiseEvent_ne (d := .pathChange u.path.path q d) (Ne.symm hk) { u with path.path := q })
  unfold moveAndEval
  obtain he | ⟨d, he⟩ := evalReturn_cases (changePath p c s)
  · rw [he, change]
  · obtain ⟨u, hu, hw, hev, _⟩ := enterReturning_begins d (changePath p c s)
    have hkept : detailOfKind u k = detailOfKind (changePath p c s) k := by simp [detailOfKind, entryOfKind, hev]
    rw [he, hu, (judgePending_engineAsks _).detail (by simpa [hw] using hno) hr, change, hkept, change]

theorem radioReport_detail {s : State} {k : EventKind} (hno : .eventRecord ∉ s.bus.waiting) (hk : k ≠ .pathChange)
    (hr : ¬ engineRaises k) : detailOfKind (radioReport s) k = detailOfKind s k := by
  obtain hs | ⟨p, c, _, hs⟩ := radioReport_cases s
  · rw [hs]
  · rw [hs, moveAndEval_detail hno hk hr]

/-! ### A report at a command's end -/

theorem enterReturning_pauseItem {c : PathCause} {s : State} (hwin : s.ring.window = [])
    (h : pauseTarget s = true → s.radio.items.pause = true) : (enterReturning c s).radio.items.pause = true := by
  simp only [enterReturning]
  rw [judgePending_idle (by simp [withPauseTarget, apply_ite, fixFence, hwin])]
  simp only [withPauseTarget]
  split
  · rename_i hsame
    exact h (hsame.symm.trans (by simp [pauseTarget]))
  · rfl

/-- A pause item that stands where the pause is to stand does so after a report (R120). -/
theorem radioReport_pauseItem {s : State} (hwin : s.ring.window = []) (h : pauseTarget s = true → s.radio.items.pause = true) :
    pauseTarget (radioReport s) = true → (radioReport s).radio.items.pause = true := by
  obtain hs | ⟨p, c, _, hs⟩ := radioReport_cases s
  · rw [hs]; exact h
  · rw [hs, moveAndEval]
    obtain he | ⟨d, he⟩ := evalReturn_cases (changePath p c s)
    · rw [he]; exact h
    · rw [he]; exact fun _ => enterReturning_pauseItem (s := changePath p c s) hwin h

/-- With the return barred a report moves nothing of the radio (R14). -/
theorem radioReport_barred_radio {s : State} (h : returnBarred s) : (radioReport s).radio = s.radio := by
  obtain hs | ⟨p, c, _, hs⟩ := radioReport_cases s
  · rw [hs]
  · rw [hs, moveAndEval_barred h]; simp

/-- The end of a command whose last act is a report, but for the path and the entries. -/
structure ReportEnds (v t : State) : Prop where
  pacer : t.pacer = v.pacer
  hold : t.hold = v.hold
  loader : t.loader = v.loader
  path : t.path.emergency = v.path.emergency
  radio : ∃ pause lowPower ldo, t.radio = { v.radio with items.pause := pause, items.lowPower := lowPower, ldo := ldo }
    ∧ (v.radio.ldo = none → ldo = none)
  pauseItem : (pauseTarget v = true → v.radio.items.pause = true) → pauseTarget t = true → t.radio.items.pause = true

theorem settle_radioReport {v : State} (h : atRest v) : ReportEnds v (settle (radioReport v)) := by
  have leaves := radioReport_reportLeaves (atRest_window h)
  have pause := radioReport_pauseItem (atRest_window h)
  obtain ⟨item, hradio⟩ := leaves.radio_eq
  obtain ⟨x, y, k, hset, hk⟩ := settle_rest (radioReport_atRest h)
  refine ⟨by rw [hset, leaves.pacer], by rw [hset, leaves.hold], by rw [hset, leaves.loader], by rw [hset]; exact leaves.path_kept.2.1,
    ⟨item, y, k, by rw [hset]; simp [hradio], fun hnone => ?_⟩, fun hv => by rw [hset]; exact pause hv⟩
  have hldo : (radioReport v).radio.ldo = none := by rw [hradio]; exact hnone
  simpa [hldo, hnone] using hk

/-- A loss reported from RADIO leads to HELD, or on to RETURNING (R12, R14). -/
theorem settle_radioReport_lost {v : State} (h : atRest v) (hp : v.path.path = .radio) (hst : v.radio.state ≠ .attached)
    (hlen : v.events.entries.length = 11) :
    (returnBarred v → (settle (radioReport v)).path.path = .held
        ∧ detailOfKind (settle (radioReport v)) .pathChange = some (.pathChange .radio .held .radioLost))
      ∧ (v.loader.softReset = .none → v.power.mode ≠ .doze → ¬ returnBarred v → (settle (radioReport v)).path.path = .returning) := by
  obtain ⟨x, y, k, hset, _⟩ := settle_rest (radioReport_atRest h)
  have hreport := radioReport_lost hp hst
  refine ⟨fun hb => ?_, fun hsoft he hb => ?_⟩
  · have hheld : radioReport v = changePath .held .radioLost v := by rw [hreport, moveAndEval_barred hb]
    have hdetail : detailOfKind (radioReport v) .pathChange = some (.pathChange .radio .held .radioLost) := by
      rw [hheld, detailOfKind_changePath hlen, hp]
    rw [hset]
    exact ⟨by simp [hheld], by simpa [detailOfKind, entryOfKind] using hdetail⟩
  · rw [hset]
    simpa [hreport] using moveAndEval_unbarred (c := .radioLost) (.inr rfl) hb hsoft he

/-! ### Out of ATTACHED (R112, R118, R121) -/

/-- In DETACHED the radio attaches again, is kept, or is unpowered (R108, R112). -/
theorem detachedNext_cases {u : State} (hst : u.radio.state = .detached) (hw : partWorks u = true) :
    (attachWanted u = true ∧ detachedNext u = requestAttach u)
      ∨ (attachWanted u = false ∧ u.loader.policy.warm = true ∧ u.power.mode = .mains ∧ detachedNext u = u)
      ∨ (attachWanted u = false ∧ ¬ (u.loader.policy.warm = true ∧ u.power.mode = .mains) ∧ detachedNext u = enterOff u) := by
  cases hwanted : attachWanted u
  · have hneeded : moduleNeeded u = (u.loader.policy.warm && u.power.mode == .mains) := by
      simp only [attachWanted, Bool.or_eq_false_iff] at hwanted
      simp [moduleNeeded, hst, hwanted]
    have hrule : detachedNext u = if moduleNeeded u then u else enterOff u := by
      simp [detachedNext, hwanted, powerRule, hw, hst]
    by_cases hwarm : u.loader.policy.warm = true ∧ u.power.mode = .mains
    · exact .inr (.inl ⟨rfl, hwarm.1, hwarm.2, by simp [hrule, hneeded, hwarm]⟩)
    · refine .inr (.inr ⟨rfl, hwarm, ?_⟩)
      have hno : moduleNeeded u = false := by
        rw [hneeded]
        simpa using hwarm
      simp [hrule, hno]
  · exact .inl ⟨rfl, by simp [detachedNext, hwanted]⟩

/-- What each way out of ATTACHED brings about: from `s` to the command's end `t`. -/
structure LeavesAttached (s t : State) : Prop where
  silence : t.radio.silenceTimer = none
  linger : t.radio.lingerTimer = none
  detach : t.radio.items.detach = false
  failures : t.radio.failures = s.radio.failures
  wanted : (s.path.radioWanted = true ∨ s.path.emergency = true) → t.radio.state = .attaching ∧ t.radio.items.attach = true
    ∧ t.radio.attachTimer = some (s.loader.policy.attachTimeout * 1000)
  warm : s.path.radioWanted = false → s.path.emergency = false → s.loader.policy.warm = true → s.power.mode = .mains
    → t.radio.state = .detached
  off : s.path.radioWanted = false → s.path.emergency = false → (s.loader.policy.warm = false ∨ s.power.mode ≠ .mains)
    → t.radio.state = .off ∧ t.radio.mpwr = false
  held : s.path.path = .radio → returnBarred s → t.path.path = .held
    ∧ detailOfKind t .pathChange = some (.pathChange .radio .held .radioLost)
  returning : s.path.path = .radio → s.loader.softReset = .none → ¬ returnBarred s → t.path.path = .returning

/-- What the way on from DETACHED leaves of the state `u` it starts from. -/
structure DetachedEnds (u t : State) : Prop where
  slotA : t.radio.slotA = u.radio.slotA
  slotB : t.radio.slotB = u.radio.slotB
  ldo : u.radio.ldo = none → t.radio.ldo = none
  pacer : t.pacer = u.pacer
  pauseTold : t.radio.pauseTold = u.radio.pauseTold
  capTold : t.radio.capTold = u.radio.capTold
  uqE : t.hold.uqE = u.hold.uqE
  uqV : t.hold.uqV = u.hold.uqV
  uqD : t.hold.uqD = u.hold.uqD
  downCap : t.radio.state ≠ .off → t.radio.items.downCap = u.radio.items.downCap
  pauseItem : (pauseTarget u = true → u.radio.items.pause = true) → t.radio.state ≠ .off → pauseTarget t = true
    → t.radio.items.pause = true
  ready : u.radio.ready = true → t.radio.ready = (t.radio.state != .off)
  freeList : u.hold.onLdo = [] → u.radio.receiver = .idle → t.hold.freeList = u.hold.freeList

/-- What the states after `leaveAttached` have of the state before the command. -/
structure LeftAttached (s u : State) : Prop where
  state : u.radio.state = .detached
  silence : u.radio.silenceTimer = none
  linger : u.radio.lingerTimer = none
  detach : u.radio.items.detach = false
  failures : u.radio.failures = s.radio.failures
  path : u.path = s.path
  pins : u.pins = s.pins
  power : u.power = s.power
  policy : u.loader.policy = s.loader.policy
  softReset : u.loader.softReset = s.loader.softReset
  phase : u.loader.phase = s.loader.phase
  rest : atRest s → atRest u
  length : u.events.entries.length = s.events.entries.length

theorem enterOff_freeList {u : State} (ho : u.hold.onLdo = []) (hr : u.radio.receiver = .idle) : (enterOff u).hold.freeList = u.hold.freeList := by
  simp [enterOff, cutLink, freeOnLdo, abandonPayload, dropPower, ho, hr]

/-- The state `detachedNext` leads to, before the report: it is not ATTACHED, and the path, the pins and the mode stand. -/
structure DetachedLeads (u v : State) : Prop where
  rest : atRest v
  state : v.radio.state ≠ .attached
  path : v.path = u.path
  pins : v.pins = u.pins
  power : v.power = u.power
  policy : v.loader.policy = u.loader.policy
  softReset : v.loader.softReset = u.loader.softReset
  length : v.events.entries.length = u.events.entries.length
  timers : v.radio.silenceTimer = u.radio.silenceTimer ∧ v.radio.lingerTimer = u.radio.lingerTimer
  detach : u.radio.items.detach = false → v.radio.items.detach = false
  failures : v.radio.failures = u.radio.failures
  ends : ∀ t, ReportEnds v t → DetachedEnds u t

theorem requestAttach_leads {u : State} (hrest : atRest u) : DetachedLeads u (requestAttach u) := by
  refine ⟨hrest, by simp [requestAttach], rfl, rfl, rfl, rfl, rfl, rfl, ⟨rfl, rfl⟩, id, rfl, fun t h => ?_⟩
  obtain ⟨pause, low, ldo, hradio, hldo⟩ := h.radio
  constructor <;> simp [hradio, h.pacer, h.hold, requestAttach]
  · exact hldo
  · exact fun hu ht => by simpa [hradio] using h.pauseItem hu ht
  · exact fun hu => hu

theorem detached_leads {u : State} (hrest : atRest u) (hst : u.radio.state = .detached) : DetachedLeads u u := by
  refine ⟨hrest, by simp [hst], rfl, rfl, rfl, rfl, rfl, rfl, ⟨rfl, rfl⟩, id, rfl, fun t h => ?_⟩
  obtain ⟨pause, low, ldo, hradio, hldo⟩ := h.radio
  constructor <;> simp [hradio, h.pacer, h.hold, hst]
  · exact hldo
  · exact fun hu ht => by simpa [hradio] using h.pauseItem hu ht
  · exact fun hu => hu

theorem enterOff_leads {u : State} (hrest : atRest u) : DetachedLeads u (enterOff u) := by
  have hlist := enterOff_freeList (u := u)
  have hlen := (enterOff_asks u).1.places
  obtain ⟨_, _, _, _, _, _, _, hv⟩ := enterOff_frees (atRest_window hrest)
  refine ⟨enterOff_atRest hrest, by simp [hv], by rw [hv]; rfl, by rw [hv]; rfl, by rw [hv]; rfl, by rw [hv]; rfl, by rw [hv]; rfl, hlen,
    by rw [hv]; exact ⟨rfl, rfl⟩, by rw [hv]; exact fun _ => rfl, by rw [hv]; rfl, fun t h => ?_⟩
  obtain ⟨pause, low, ldo, hradio, hldo⟩ := h.radio
  have hhold := h.hold
  rw [hv] at hradio hldo hhold hlist
  constructor <;> simp [hradio, h.pacer, hhold]
  · exact fun _ => hldo rfl
  · exact hlist

theorem detachedNext_leads {u : State} (hrest : atRest u) (hst : u.radio.state = .detached) (hw : partWorks u = true) :
    DetachedLeads u (detachedNext u) := by
  obtain ⟨_, h⟩ | ⟨_, _, _, h⟩ | ⟨_, _, h⟩ := detachedNext_cases hst hw
  · exact h ▸ requestAttach_leads hrest
  · exact h.symm ▸ detached_leads hrest hst
  · exact h ▸ enterOff_leads hrest

/-- The ways out of ATTACHED, from the state they leave it in (R112, R118, R121). -/
theorem leavesAttached_of {s u : State} (h : LeftAttached s u) (hrest : atRest s) (hw : partWorks s = true)
    (hlen : s.events.entries.length = 11) (he : s.power.mode ≠ .doze) :
    LeavesAttached s (settle (radioReport (detachedNext u))) ∧ DetachedEnds u (settle (radioReport (detachedNext u))) := by
  have hworks : partWorks u = true := by simpa [partWorks, h.phase, h.path] using hw
  have hwanted : attachWanted u = (s.path.radioWanted || s.path.emergency) := by simp [attachWanted, h.path]
  have leads := detachedNext_leads (h.rest hrest) h.state hworks
  have ends := settle_radioReport leads.rest
  have hpath : (detachedNext u).path = s.path := leads.path.trans h.path
  have barred : returnBarred (detachedNext u) ↔ returnBarred s := by
    simp only [returnBarred, hpath, leads.pins.trans h.pins, leads.policy.trans h.policy]
  refine ⟨?_, leads.ends _ ends⟩
  obtain ⟨pause, low, ldo, hradio, _⟩ := ends.radio
  have lost (hp : s.path.path = .radio) := settle_radioReport_lost leads.rest (by rw [hpath, hp]) leads.state (by rw [leads.length, h.length, hlen])
  have next := detachedNext_cases h.state hworks
  have off (hv : detachedNext u = enterOff u) : (detachedNext u).radio.state = .off ∧ (detachedNext u).radio.mpwr = false := by
    obtain ⟨_, _, _, _, _, _, _, heq⟩ := enterOff_frees (atRest_window (h.rest hrest))
    rw [hv, heq]
    exact ⟨rfl, rfl⟩
  generalize settle (radioReport (detachedNext u)) = t at *
  generalize detachedNext u = v at *
  refine ⟨?_, ?_, ?_, ?_, fun hwant => ?_, fun hnone he hwarm hm => ?_, fun hnone he hoff => ?_, fun hp hb => ?_, fun hp hs hb => ?_⟩
  · simp [hradio, leads.timers.1, h.silence]
  · simp [hradio, leads.timers.2, h.linger]
  · simp [hradio, leads.detach h.detach]
  · simp [hradio, leads.failures, h.failures]
  · obtain ⟨_, hv⟩ | ⟨hno, _⟩ | ⟨hno, _⟩ := next
    · simp [hradio, hv, requestAttach, h.policy]
    · exact absurd hwant (by simpa [hwanted] using hno)
    · exact absurd hwant (by simpa [hwanted] using hno)
  · obtain ⟨hyes, _⟩ | ⟨_, _, _, hv⟩ | ⟨_, hno, _⟩ := next
    · exact absurd hyes (by simp [hwanted, hnone, he])
    · simp [hradio, hv, h.state]
    · exact absurd ⟨h.policy ▸ hwarm, h.power ▸ hm⟩ hno
  · obtain ⟨hyes, _⟩ | ⟨_, hwarm, hm, _⟩ | ⟨_, _, hv⟩ := next
    · exact absurd hyes (by simp [hwanted, hnone, he])
    · rw [h.policy] at hwarm
      rw [h.power] at hm
      simp [hwarm, hm] at hoff
    · simpa [hradio] using off hv
  · exact (lost hp).1 (barred.2 hb)
  · exact (lost hp).2 (leads.softReset.trans (h.softReset.trans hs)) (by rw [leads.power, h.power]; exact he) fun hc => hb (barred.1 hc)

/-- The state that every loss leaves behind (R112). -/
theorem leaveAttached_left (s : State) : LeftAttached s (leaveAttached s) := by
  unfold leaveAttached
  dsimp only
  split <;> constructor <;> first | rfl | exact id

theorem awake_of_receiverReady {s : State} (h : receiverReady s = true) : s.power.mode ≠ .doze := by
  simp only [receiverReady, ldiRuns, lclkRuns, enginesRun, Bool.and_eq_true] at h
  simpa using h.1.1.2

theorem receiverReady_idle {s : State} (h : receiverReady s = true) : s.radio.receiver = .idle := by
  simp only [receiverReady, Bool.and_eq_true, beq_iff_eq] at h
  exact h.2

/-- A Module Ready in ATTACHED settles what is told and the busy slots before it leaves (R109, log 35). -/
theorem readyInAttached_eq (s : State) : readyInAttached s = radioReport (detachedNext (readyItems
    (timeOutSlot .b (timeOutSlot .a (leaveAttached (readyTold s)))))) := rfl

theorem placementAttempt_unattached {s : State} (h : s.radio.state ≠ .attached) : placementAttempt s = s := by
  have once : placeOnce s = s := by simp [placeOnce, mayPlace, h]
  simp [placementAttempt, once]

/-- A record goes back to its queue's head, or is lost at its sixteenth refusal (R75). -/
theorem returnRecord_cases (r : FrameRecord) (s : State) :
    (r.refusals + 1 < 16 ∧ returnRecord r s = rejoinQueue { r with refusals := r.refusals + 1 } s)
      ∨ (15 ≤ r.refusals ∧ returnRecord r s = loseRecord .refused { r with refusals := r.refusals + 1 } s) := by
  by_cases h : 15 ≤ r.refusals
  · exact .inr ⟨h, by simp [returnRecord, h]⟩
  · exact .inl ⟨by omega, by simp [returnRecord, h]⟩

/-! ### A slot that times out (R75, R94) -/

/-- The uplink queue of a class. -/
def queueOf (s : State) : FrameClass → List FrameRecord
  | .voicePriority => s.hold.uqE
  | .voice => s.hold.uqV
  | .data => s.hold.uqD

/-- The record of a slot as it goes back to the queue of class `cl`, if it does (R75). -/
def returned (cl : FrameClass) (x : Option BusySlot) : Option FrameRecord := x.bind fun b =>
  if b.record.cls = cl ∧ b.record.refusals + 1 < 16 then some { b.record with refusals := b.record.refusals + 1 } else none

/-- The record of a slot that is lost at its sixteenth refusal (R75). -/
def spent (x : Option BusySlot) : Option FrameRecord := x.bind fun b => if 15 ≤ b.record.refusals then some b.record else none

/-- No Send Up is on LDO. -/
def NoSendUp (s : State) : Prop := ∀ q live r, s.radio.ldo ≠ some (.sendUp q live r)

/-- What the timeout of a slot brings about while the radio is not ATTACHED. -/
structure TimedOut (slot : Slot) (s t : State) : Prop where
  slots : ∀ q, slotOfRadio t q = if q = slot then none else slotOfRadio s q
  charge : ∀ q, chargeOf t q = if q = slot ∧ slotOfRadio s slot ≠ none then none else chargeOf s q
  pause : t.pacer.refusalPause = if slotOfRadio s slot = none then s.pacer.refusalPause else some 20
  credit : t.pacer.credit = if slotOfRadio s slot = none then s.pacer.credit
    else min (s.pacer.credit + ((chargeOf s slot).getD 0 : Nat)) (8 * (s.loader.policy.burst : Int))
  cap : t.pacer.downlinkCap = s.pacer.downlinkCap
  queues : ∀ cl, queueOf t cl = (returned cl (slotOfRadio s slot)).toList ++ queueOf s cl
  free : NoSendUp s → s.hold.onLdo = [] → t.hold.freeList = s.hold.freeList ++ (spent (slotOfRadio s slot)).toList.flatMap (·.cells)
    ∧ t.hold.onLdo = [] ∧ NoSendUp t
  told : t.radio.pauseTold = s.radio.pauseTold ∧ t.radio.capTold = s.radio.capTold ∧ t.radio.ready = s.radio.ready
    ∧ t.radio.receiver = s.radio.receiver
  left : ∀ r, LeftAttached r s → LeftAttached r t

/-- Clearing a slot leaves what is on LDO unless that is the slot's own Send Up. -/
theorem clearSlot_eq (slot : Slot) (s : State) : ∃ a b unsent ldo,
    clearSlot slot s = { s with radio.slotA := a, radio.slotB := b, radio.unsent := unsent, radio.ldo := ldo }
      ∧ (NoSendUp s → ldo = s.radio.ldo) := by
  cases slot <;> simp only [clearSlot] <;> split
  · rename_i q live r hl
    split <;> exact ⟨_, _, _, _, rfl, fun hno => absurd hl (hno q live r)⟩
  · exact ⟨_, _, _, _, rfl, fun _ => rfl⟩
  · rename_i q live r hl
    split <;> exact ⟨_, _, _, _, rfl, fun hno => absurd hl (hno q live r)⟩
  · exact ⟨_, _, _, _, rfl, fun _ => rfl⟩

theorem clearSlot_slots (slot q : Slot) (s : State) : slotOfRadio (clearSlot slot s) q = if q = slot then none else slotOfRadio s q := by
  cases slot <;> cases q <;> simp only [clearSlot] <;> split
  all_goals first | rfl | (split <;> rfl)

theorem refund_eq (slot : Slot) (s : State) : ∃ ca cb, refund slot s = { s with
      pacer.chargeA := ca
      pacer.chargeB := cb
      pacer.credit := min (s.pacer.credit + ((chargeOf s slot).getD 0 : Nat)) (8 * (s.loader.policy.burst : Int))
      pacer.refusalPause := some 20 }
    ∧ ∀ q, chargeOf (refund slot s) q = if q = slot then none else chargeOf s q := by
  cases slot
  · exact ⟨none, s.pacer.chargeB, rfl, fun q => by cases q <;> rfl⟩
  · exact ⟨s.pacer.chargeA, none, rfl, fun q => by cases q <;> rfl⟩

theorem rejoinQueue_queues (r : FrameRecord) (s : State) (cl : FrameClass) :
    queueOf (rejoinQueue r s) cl = (if r.cls = cl then [r] else []) ++ queueOf s cl := by
  unfold rejoinQueue
  split <;> rename_i h <;> cases cl <;> simp [queueOf, h]

theorem rejoinQueue_eq (r : FrameRecord) (s : State) : ∃ e v d, rejoinQueue r s = { s with hold.uqE := e, hold.uqV := v, hold.uqD := d } := by
  unfold rejoinQueue
  split <;> exact ⟨_, _, _, rfl⟩

/-- A record lost with no Send Up on LDO: its cells join the free list at once (R67). -/
theorem loseRecord_freeList {reason : LossReason} {r : FrameRecord} {s : State} (hwin : s.ring.window = []) (hno : NoSendUp s) :
    (loseRecord reason r s).hold.freeList = s.hold.freeList ++ r.cells ∧ (loseRecord reason r s).hold.onLdo = s.hold.onLdo := by
  have hno' : ∀ q live x, (reportLoss reason r s).radio.ldo ≠ some (.sendUp q live x) := by
    intro q live x
    have same : (reportLoss reason r s).radio = s.radio := rfl
    rw [same]
    exact hno q live x
  rw [loseRecord, freeRecord_atOnce hno', freeCells_idle (s := reportLoss reason r s) (by simp [hwin])]
  split
  · rename_i hnil
    simp [hnil]
  · simp

/-- What a record's return or loss may move while no entry is PENDING. -/
theorem returnRecord_eq (r : FrameRecord) {s : State} (hwin : s.ring.window = []) : ∃ e v d free paused onLdo item events up down,
    returnRecord r s = { s with
        hold.uqE := e
        hold.uqV := v
        hold.uqD := d
        hold.freeList := free
        hold.paused := paused
        hold.onLdo := onLdo
        radio.items.pause := item
        events := events
        loader.softUp := up
        loader.softDown := down }
      ∧ events.entries.length = s.events.entries.length := by
  obtain ⟨_, hret⟩ | ⟨_, hret⟩ := returnRecord_cases r s
  · obtain ⟨e, v, d, heq⟩ := rejoinQueue_eq { r with refusals := r.refusals + 1 } s
    exact ⟨e, v, d, _, _, _, _, _, _, _, hret.trans heq, rfl⟩
  · have places := (loseRecord_engineKeeps .refused { r with refusals := r.refusals + 1 } s).places
    obtain ⟨free, paused, onLdo, item, events, up, down, heq⟩ := loseRecord_frees .refused { r with refusals := r.refusals + 1 } hwin
    rw [heq] at places
    exact ⟨_, _, _, free, paused, onLdo, item, events, up, down, hret.trans heq, places⟩

theorem timeOutSlot_free {slot : Slot} {s : State} (h : slotOfRadio s slot = none) : timeOutSlot slot s = s := by
  simp [timeOutSlot, h]

theorem timeOutSlot_busy {slot : Slot} {b : BusySlot} {s : State} (h : slotOfRadio s slot = some b) (hst : s.radio.state ≠ .attached)
    (hwin : s.ring.window = []) : timeOutSlot slot s = returnRecord b.record (clearSlot slot (refund slot s)) := by
  obtain ⟨ca, cb, hrefund, _⟩ := refund_eq slot s
  obtain ⟨x, y, unsent, ldo, hclear, _⟩ := clearSlot_eq slot (refund slot s)
  have hout : timeOutSlot slot s = placementAttempt (returnRecord b.record (clearSlot slot (refund slot s))) := by
    simp [timeOutSlot, h, settleRefused]
  obtain ⟨_, _, _, _, _, _, _, _, _, _, heq, _⟩ := returnRecord_eq b.record (s := clearSlot slot (refund slot s)) (by simp [hwin])
  rw [hout, placementAttempt_unattached]
  rw [heq, hclear, hrefund]
  exact hst

/-- The queues and the free list after a record's return or loss. -/
theorem returnRecord_hold {b : BusySlot} {s : State} (hwin : s.ring.window = []) :
    (∀ cl, queueOf (returnRecord b.record s) cl = (returned cl (some b)).toList ++ queueOf s cl)
      ∧ (NoSendUp s → (returnRecord b.record s).hold.freeList = s.hold.freeList ++ (spent (some b)).toList.flatMap (·.cells)
        ∧ (returnRecord b.record s).hold.onLdo = s.hold.onLdo) := by
  obtain ⟨hfew, hret⟩ | ⟨hmany, hret⟩ := returnRecord_cases b.record s
  · have unspent : spent (some b) = none := by simp only [spent, Option.bind_some]; rw [if_neg (by omega)]
    rw [hret]
    refine ⟨fun cl => ?_, fun _ => ?_⟩
    · rw [rejoinQueue_queues]
      by_cases hcl : b.record.cls = cl <;> simp [returned, hcl, hfew]
    · obtain ⟨e, v, d, heq⟩ := rejoinQueue_eq { b.record with refusals := b.record.refusals + 1 } s
      simp [heq, unspent]
  · have unreturned (cl : FrameClass) : returned cl (some b) = none := by
      simp only [returned, Option.bind_some]; rw [if_neg (by omega)]
    rw [hret]
    refine ⟨fun cl => ?_, fun hno => ?_⟩
    · obtain ⟨_, _, _, _, _, _, _, heq⟩ := loseRecord_frees .refused { b.record with refusals := b.record.refusals + 1 } hwin
      rw [heq, unreturned]
      cases cl <;> rfl
    · obtain ⟨hfree, hldo⟩ := loseRecord_freeList (reason := .refused) (r := { b.record with refusals := b.record.refusals + 1 }) hwin hno
      rw [hfree, hldo]
      simp [spent, hmany]

theorem timeOutSlot_timedOut (slot : Slot) {s : State} (hst : s.radio.state ≠ .attached) (hwin : s.ring.window = []) :
    TimedOut slot s (timeOutSlot slot s) := by
  cases hb : slotOfRadio s slot with
  | none =>
    rw [timeOutSlot_free hb]
    constructor <;> simp [hb, returned, spent]
    exact fun hno ho => ⟨ho, hno⟩
  | some b =>
    rw [timeOutSlot_busy hb hst hwin]
    obtain ⟨ca, cb, hrefund, hcharge⟩ := refund_eq slot s
    obtain ⟨x, y, unsent, ldo, hclear, hldo⟩ := clearSlot_eq slot (refund slot s)
    have hslots := fun q => clearSlot_slots slot q (refund slot s)
    have hsend : NoSendUp s → NoSendUp (clearSlot slot (refund slot s)) := by
      intro hno
      have hno' : NoSendUp (refund slot s) := by rw [hrefund]; exact hno
      rw [hclear, hldo hno']
      exact hno'
    have hwin' : (clearSlot slot (refund slot s)).ring.window = [] := by rw [hclear, hrefund]; exact hwin
    obtain ⟨hqueues, hfree⟩ := returnRecord_hold (b := b) hwin'
    obtain ⟨_, _, _, _, _, _, _, _, _, _, heq, hlen⟩ := returnRecord_eq b.record hwin'
    generalize returnRecord b.record (clearSlot slot (refund slot s)) = t at *
    generalize clearSlot slot (refund slot s) = v at *
    generalize refund slot s = u at *
    refine ⟨fun q => ?_, fun q => ?_, ?_, ?_, ?_, fun cl => ?_, fun hno ho => ?_, ?_, fun r h => ?_⟩
    · have same : slotOfRadio t q = slotOfRadio v q := by rw [heq]; cases q <;> rfl
      rw [same, hslots, hrefund]
      cases q <;> rfl
    · have same : chargeOf t q = chargeOf u q := by rw [heq, hclear]; cases q <;> rfl
      rw [same, hcharge]
      simp [hb]
    · rw [heq, hclear, hrefund, hb]; rfl
    · rw [heq, hclear, hrefund, hb]; rfl
    · rw [heq, hclear, hrefund]
    · rw [hqueues, hb, hclear, hrefund]
      cases cl <;> rfl
    · obtain ⟨hlist, hon⟩ := hfree (hsend hno)
      rw [hlist, hon, hb, hclear, hrefund]
      refine ⟨rfl, ho, ?_⟩
      have hv := hsend hno
      rw [heq]
      exact hv
    · rw [heq, hclear, hrefund]
      exact ⟨rfl, rfl, rfl, rfl⟩
    · rw [hclear, hrefund] at heq hlen
      subst heq
      exact ⟨h.state, h.silence, h.linger, h.detach, h.failures, h.path, h.pins, h.power, h.policy, h.softReset, h.phase, h.rest,
        hlen.trans h.length⟩

/-! ### Module Ready in ATTACHED (R109, log 35) -/

/-- The state a Module Ready in ATTACHED goes on from: told values cleared, ATTACHED left, both slots timed out, the items due. -/
def readyLeft (s : State) : State := readyItems (timeOutSlot .b (timeOutSlot .a (leaveAttached (readyTold s))))

theorem leaveAttached_kept (s : State) : (∀ q, slotOfRadio (leaveAttached s) q = slotOfRadio s q) ∧ (leaveAttached s).pacer = s.pacer
    ∧ (leaveAttached s).hold = s.hold ∧ (NoSendUp s → NoSendUp (leaveAttached s)) := by
  unfold leaveAttached
  dsimp only
  split
  · exact ⟨fun q => by cases q <;> rfl, rfl, rfl, fun _ q live r => by simp⟩
  · exact ⟨fun q => by cases q <;> rfl, rfl, rfl, id⟩

/-- What that state has of the state before the command. -/
structure ReadyLeft (s u : State) : Prop where
  left : LeftAttached s u
  slots : ∀ q, slotOfRadio u q = none
  charge : ∀ q, chargeOf u q = if slotOfRadio s q = none then chargeOf s q else none
  pause : u.pacer.refusalPause = if s.radio.slotA = none ∧ s.radio.slotB = none then s.pacer.refusalPause else some 20
  credit : (s.radio.slotA ≠ none ∨ s.radio.slotB ≠ none) → u.pacer.credit
    = min (s.pacer.credit + (if s.radio.slotA = none then 0 else s.pacer.chargeA.getD 0 : Nat)
        + (if s.radio.slotB = none then 0 else s.pacer.chargeB.getD 0 : Nat)) (8 * (s.loader.policy.burst : Int))
  queues : ∀ cl, queueOf u cl = [s.radio.slotB, s.radio.slotA].filterMap (returned cl) ++ queueOf s cl
  free : NoSendUp s → s.hold.onLdo = [] → u.hold.freeList = s.hold.freeList ++ ([s.radio.slotA, s.radio.slotB].filterMap spent).flatMap (·.cells)
    ∧ u.hold.onLdo = []
  told : u.radio.pauseTold = false ∧ u.radio.capTold = 0 ∧ u.radio.ready = true ∧ u.radio.receiver = s.radio.receiver
  downCap : u.radio.items.downCap = (s.pacer.downlinkCap != 0)
  pauseItem : u.radio.items.pause = pauseTarget u

theorem filterMap_pair {α β : Type} (f : α → Option β) (x y : α) : [x, y].filterMap f = (f x).toList ++ (f y).toList := by
  cases hx : f x <;> cases hy : f y <;> simp [hx, hy]

theorem readyLeft_of {s : State} (hrest : atRest s) : ReadyLeft s (readyLeft s) := by
  have left0 : LeftAttached s (leaveAttached (readyTold s)) := by
    obtain ⟨h1, h2, h3, h4, h5, h6, h7, h8, h9, h10, h11, h12, h13⟩ := leaveAttached_left (readyTold s)
    exact ⟨h1, h2, h3, h4, h5, h6, h7, h8, h9, h10, h11, h12, h13⟩
  obtain ⟨hslots, hpacer, hhold, hsend⟩ := leaveAttached_kept (readyTold s)
  have htold : (leaveAttached (readyTold s)).radio.pauseTold = false ∧ (leaveAttached (readyTold s)).radio.capTold = 0
      ∧ (leaveAttached (readyTold s)).radio.ready = true ∧ (leaveAttached (readyTold s)).radio.receiver = s.radio.receiver := by
    simp [readyTold]
  have hslots0 (q : Slot) : slotOfRadio (leaveAttached (readyTold s)) q = slotOfRadio s q := hslots q
  have hsend0 : NoSendUp s → NoSendUp (leaveAttached (readyTold s)) := hsend
  have hpacer0 : (leaveAttached (readyTold s)).pacer = s.pacer := hpacer
  have hhold0 : (leaveAttached (readyTold s)).hold = s.hold := hhold
  have outA := timeOutSlot_timedOut .a (by simp [left0.state]) (atRest_window (left0.rest hrest))
  have left1 := outA.left s left0
  have outB := timeOutSlot_timedOut .b (by simp [left1.state]) (atRest_window (left1.rest hrest))
  have left2 := outB.left s left1
  simp only [readyLeft]
  generalize timeOutSlot .b (timeOutSlot .a (leaveAttached (readyTold s))) = w2 at *
  generalize timeOutSlot .a (leaveAttached (readyTold s)) = w1 at *
  generalize leaveAttached (readyTold s) = w0 at *
  have slotB : slotOfRadio w1 .b = s.radio.slotB := ((outA.slots .b).trans (if_neg (by simp))).trans (hslots0 .b)
  have slotA : slotOfRadio w0 .a = s.radio.slotA := hslots0 .a
  have charge1 : chargeOf w1 .b = s.pacer.chargeB := ((outA.charge .b).trans (if_neg (by simp))).trans (congrArg Pacer.chargeB hpacer0)
  have charge0 : chargeOf w0 .a = s.pacer.chargeA := congrArg Pacer.chargeA hpacer0
  refine ⟨⟨left2.state, left2.silence, left2.linger, left2.detach, left2.failures, left2.path, left2.pins, left2.power, left2.policy,
    left2.softReset, left2.phase, left2.rest, left2.length⟩, fun q => ?_, fun q => ?_, ?_, fun hbusy => ?_, fun cl => ?_, fun hno ho => ?_,
    ?_, ?_, rfl⟩
  · have same : slotOfRadio (readyItems w2) q = slotOfRadio w2 q := rfl
    rw [same, outB.slots, outA.slots]
    cases q <;> simp
  · have same : chargeOf (readyItems w2) q = chargeOf w2 q := rfl
    rw [same, outB.charge, outA.charge]
    cases q
    · rw [slotA, charge0]
      by_cases ha : s.radio.slotA = none <;> simp [ha, slotOfRadio, chargeOf]
    · have base : chargeOf w0 .b = s.pacer.chargeB := congrArg Pacer.chargeB hpacer0
      rw [slotB, base]
      by_cases hb : s.radio.slotB = none <;> simp [hb, slotOfRadio, chargeOf]
  · show w2.pacer.refusalPause = _
    rw [outB.pause, outA.pause, slotB, slotA, hpacer0]
    by_cases ha : s.radio.slotA = none <;> by_cases hb : s.radio.slotB = none <;> simp [ha, hb]
  · show w2.pacer.credit = _
    rw [outB.credit, outA.credit, slotB, slotA, hpacer0, charge1, charge0, left0.policy, left1.policy]
    by_cases ha : s.radio.slotA = none <;> by_cases hb : s.radio.slotB = none <;> simp [ha, hb] at hbusy ⊢
    omega
  · have same : queueOf (readyItems w2) cl = queueOf w2 cl := by cases cl <;> rfl
    have queue0 : queueOf w0 cl = queueOf s cl := by cases cl <;> simp [queueOf, hhold0]
    rw [same, outB.queues, outA.queues, slotB, slotA, queue0, filterMap_pair, List.append_assoc]
  · obtain ⟨hfree1, hon1, hsend1⟩ := outA.free (hsend0 hno) (by rw [hhold0]; exact ho)
    obtain ⟨hfree2, hon2, _⟩ := outB.free hsend1 hon1
    refine ⟨?_, hon2⟩
    show w2.hold.freeList = _
    rw [hfree2, hfree1, slotB, slotA, hhold0, filterMap_pair, List.flatMap_append, List.append_assoc]
  · obtain ⟨h1, h2, h3, h4⟩ := outA.told
    obtain ⟨k1, k2, k3, k4⟩ := outB.told
    obtain ⟨l1, l2, l3, l4⟩ := htold
    exact ⟨k1.trans (h1.trans l1), k2.trans (h2.trans l2), k3.trans (h3.trans l3), k4.trans (h4.trans l4)⟩
  · show (w2.pacer.downlinkCap != 0) = _
    rw [outB.cap, outA.cap, hpacer0]

theorem exec_moduleReady_attached {s : State} (hready : receiverReady s = true) (hst : s.radio.state = .attached) :
    exec .moduleReady s = .next (settle (radioReport (detachedNext (readyLeft s)))) := by
  show Host.Outcome.next (doModuleReady s) = _
  simp only [doModuleReady, hready, if_true, moduleIsReady, hst, readyInAttached_eq]
  rfl

/-- Settles O44: each of the four comes to `detachedNext` and the report from a state that has left ATTACHED. -/
theorem radioLeavesAttached : Obligations.RadioLeavesAttached := by
  refine ⟨?_, ?_, ?_, ?_, ?_, ?_⟩
  · intro s hready hst hrest hw hlen
    have hexec : exec .coverageLost s = .next (settle (radioReport (detachedNext (leaveAttached s)))) := by
      show Host.Outcome.next (doCoverageLost s) = _
      simp [doCoverageLost, hready, hst, attachedLost]
    obtain ⟨hleaves, hends⟩ := leavesAttached_of (leaveAttached_left s) hrest hw hlen (awake_of_receiverReady hready)
    exact ⟨_, hexec, hleaves.silence, hleaves.linger, hleaves.detach, hleaves.failures, by simpa using hends.slotA, by simpa using hends.slotB,
      hleaves.wanted, hleaves.warm, hleaves.off, hleaves.held, hleaves.returning⟩
  · intro s hruns he hst hrest hw hlen
    have hexec : exec .grantSilenceExpiry s = .next (settle (radioReport (detachedNext (leaveAttached s)))) := by
      show Host.Outcome.next (doGrantSilenceExpiry s) = _
      simp [doGrantSilenceExpiry, hruns, hst, attachedLost, enginesRun, he]
    obtain ⟨hleaves, hends⟩ := leavesAttached_of (leaveAttached_left s) hrest hw hlen he
    exact ⟨_, hexec, hleaves.silence, hleaves.linger, hleaves.detach, hleaves.failures, by simpa using hends.slotA, by simpa using hends.slotB,
      hleaves.wanted, hleaves.warm, hleaves.off, hleaves.held, hleaves.returning⟩
  · intro s hldo he hst hrest hw hlen
    have hexec : exec .detachRequestSent s = .next (settle (radioReport (detachedNext (leaveAttached { s with radio.ldo := none })))) := by
      show Host.Outcome.next (doDetachRequestSent s) = _
      simp [doDetachRequestSent, hldo, hst, attachedLost]
    have left : LeftAttached s (leaveAttached { s with radio.ldo := none }) := by
      obtain ⟨h1, h2, h3, h4, h5, h6, h7, h8, h9, h10, h11, h12, h13⟩ := leaveAttached_left { s with radio.ldo := none }
      exact ⟨h1, h2, h3, h4, h5, h6, h7, h8, h9, h10, h11, h12, h13⟩
    obtain ⟨hleaves, hends⟩ := leavesAttached_of left hrest hw hlen he
    exact ⟨_, hexec, hends.ldo (by simp [leaveAttached]), hleaves.silence, hleaves.linger, hleaves.detach, hleaves.failures,
      by simpa using hends.slotA, by simpa using hends.slotB, hleaves.wanted, hleaves.warm, hleaves.off, hleaves.held, hleaves.returning⟩
  · intro s hready ha hb hst hrest hw hlen
    have ready := readyLeft_of hrest
    obtain ⟨hleaves, hends⟩ := leavesAttached_of ready.left hrest hw hlen (awake_of_receiverReady hready)
    obtain ⟨hpause, hcap, hmark, _⟩ := ready.told
    exact ⟨_, exec_moduleReady_attached hready hst, hends.pauseTold.trans hpause, hends.capTold.trans hcap,
      fun hon => (hends.downCap hon).trans ready.downCap, hends.pauseItem fun hp => ready.pauseItem.trans hp, hends.ready hmark,
      hleaves.silence, hleaves.linger, hleaves.detach, hleaves.failures, (hends.slotA.trans (ready.slots .a)).trans ha.symm,
      (hends.slotB.trans (ready.slots .b)).trans hb.symm, hleaves.wanted, hleaves.warm, hleaves.off, hleaves.held, hleaves.returning⟩
  · intro back gone s hready hbusy hst hrest hw hlen hback hgone
    have ready := readyLeft_of hrest
    obtain ⟨hleaves, hends⟩ := leavesAttached_of ready.left hrest hw hlen (awake_of_receiverReady hready)
    obtain ⟨hpause, hcap, hmark, hreceiver⟩ := ready.told
    have charge (q : Slot) (hq : slotOfRadio s q ≠ none) : chargeOf (readyLeft s) q = none := (ready.charge q).trans (if_neg hq)
    refine ⟨_, exec_moduleReady_attached hready hst, hends.slotA.trans (ready.slots .a), hends.slotB.trans (ready.slots .b),
      fun ha => ?_, fun hb => ?_, ?_, ?_, ?_, ?_, ?_, fun hno ho => ?_, hends.pauseTold.trans hpause, hends.capTold.trans hcap,
      fun hon => (hends.downCap hon).trans ready.downCap, hends.pauseItem fun hp => ready.pauseItem.trans hp, hends.ready hmark,
      hleaves.silence, hleaves.linger, hleaves.detach, hleaves.failures, hleaves.wanted, hleaves.warm, hleaves.off, hleaves.held, hleaves.returning⟩
    · rw [hends.pacer]; exact charge .a ha
    · rw [hends.pacer]; exact charge .b hb
    · rw [hends.pacer, ready.pause]
      exact if_neg fun hc => hbusy.elim (· hc.1) (· hc.2)
    · rw [hends.pacer, ready.credit hbusy]
    · rw [hends.uqE, hback]; exact ready.queues .voicePriority
    · rw [hends.uqV, hback]; exact ready.queues .voice
    · rw [hends.uqD, hback]; exact ready.queues .data
    · obtain ⟨hfree, hon⟩ := ready.free hno ho
      rw [hends.freeList hon (hreceiver.trans (receiverReady_idle hready)), hfree, hgone]
      rfl
  · intro s hst
    show Host.Outcome.next (doCoverageLost s) = _
    simp [doCoverageLost, hst]

end Sys2Proof.Machine
end

section
/-! An attach or a start that fails (R110, R114): the failure counted, the backoff, the report to the path and the power rule. -/

-- One theorem at a time, as in the model's laws: the threads of many at once would not fit the memory a check has.
set_option Elab.async false

namespace Sys2Proof.Machine

/-- How many failures stand after one more (R114). -/
abbrev oneMore (s : State) : Nat := min (s.radio.failures + 1) 255

/-- A failure counted moves the attach timer, the count, the cause and the entries alone (R114). -/
theorem countFailure_eq (cause : Nat) (s : State) : ∃ events, countFailure cause s
      = { s with radio.attachTimer := none, radio.failures := oneMore s, radio.lastCause := some cause, events := events }
    ∧ events.entries.length = s.events.entries.length := by
  simp only [countFailure]
  split
  · exact ⟨_, rfl, by simp⟩
  · exact ⟨_, rfl, rfl⟩

/-- The fifth failure raises Radio Unavailable (R114). -/
theorem countFailure_fifth {cause : Nat} {s : State} (hlen : s.events.entries.length = 11) (h : s.radio.failures = 4) :
    detailOfKind (countFailure cause s) .radioUnavailable = some (.radioUnavailable cause 5) := by
  simp only [countFailure, h]
  exact detailOfKind_raiseEvent (d := .radioUnavailable cause 5)
    (s := { s with radio.attachTimer := none, radio.failures := 5, radio.lastCause := some cause }) hlen

/-- What a failure that backs off brings about: from `s` to the command's end `t`. -/
structure BacksOff (cause : Nat) (s t : State) : Prop where
  state : t.radio.state = .backoff
  failures : t.radio.failures = oneMore s
  lastCause : t.radio.lastCause = some cause
  attachTimer : t.radio.attachTimer = none
  backoffTimer : t.radio.backoffTimer = some (1000 * min (4 * 2 ^ (oneMore s - 1)) 256)
  fifth : s.radio.failures = 4 → detailOfKind t .radioUnavailable = some (.radioUnavailable cause 5)
  held : s.path.path = .takeover → returnBarred s → t.path.path = .held ∧
    detailOfKind t .pathChange = some (.pathChange .takeover .held .attachFailed)
  returning : s.path.path = .takeover → s.loader.softReset = .none → ¬ returnBarred s → t.path.path = .returning
  attachItem : t.radio.items.attach = false

/-- What the states in BACKOFF, before the report, have of the state before the command. -/
structure BackedOff (cause : Nat) (s v : State) : Prop where
  rest : atRest v
  state : v.radio.state = .backoff
  failures : v.radio.failures = oneMore s
  lastCause : v.radio.lastCause = some cause
  attachTimer : v.radio.attachTimer = none
  backoffTimer : v.radio.backoffTimer = some (1000 * min (4 * 2 ^ (oneMore s - 1)) 256)
  fifth : s.radio.failures = 4 → detailOfKind v .radioUnavailable = some (.radioUnavailable cause 5)
  path : v.path = s.path
  pins : v.pins = s.pins
  power : v.power = s.power
  policy : v.loader.policy = s.loader.policy
  softReset : v.loader.softReset = s.loader.softReset
  phase : v.loader.phase = s.loader.phase
  length : v.events.entries.length = 11
  attachItem : v.radio.items.attach = false

theorem BackedOff.barred {cause : Nat} {s v : State} (h : BackedOff cause s v) : returnBarred v ↔ returnBarred s := by
  simp only [returnBarred, h.pins, h.policy, h.path]

theorem not_engineRaises_radioUnavailable : ¬ engineRaises .radioUnavailable := by simp [engineRaises]

/-- The report of a failure that backs off, at the command's end (R11, R114). -/
theorem BackedOff.backsOff {cause : Nat} {s v : State} (h : BackedOff cause s v) (he : s.power.mode ≠ .doze) :
    BacksOff cause s (settle (radioReport v)) := by
  have ends := settle_radioReport h.rest
  obtain ⟨pause, low, ldo, hradio, _⟩ := ends.radio
  obtain ⟨x, y, k, hset, _⟩ := settle_rest (radioReport_atRest h.rest)
  have hpath : (settle (radioReport v)).path = (radioReport v).path := by rw [hset]
  have hdetail (e : EventKind) : detailOfKind (settle (radioReport v)) e = detailOfKind (radioReport v) e := by rw [hset]; rfl
  refine ⟨by simp [hradio, h.state], by simp [hradio, h.failures], by simp [hradio, h.lastCause], by simp [hradio, h.attachTimer],
    by simp [hradio, h.backoffTimer], fun h4 => ?_, fun hp hb => ?_, fun hp hs hb => ?_,
    by simp [hradio, h.attachItem]⟩
  · rw [hdetail, radioReport_detail (by simp [atRest_waiting h.rest]) (by decide) not_engineRaises_radioUnavailable, h.fifth h4]
  · have hheld : radioReport v = changePath .held .attachFailed v := by
      rw [radioReport_backoff (by rw [h.path, hp]) h.state, moveAndEval_barred (h.barred.2 hb)]
    rw [hdetail, hpath, hheld]
    exact ⟨by simp, by rw [detailOfKind_changePath h.length, h.path, hp]⟩
  · rw [hpath, radioReport_backoff (by rw [h.path, hp]) h.state]
    exact moveAndEval_unbarred (.inr rfl) (fun hc => hb (h.barred.1 hc)) (h.softReset.trans hs) (by rw [h.power]; exact he)

/-- BACKOFF entered after a failure counted on a state that agrees with `s` (R114). -/
theorem enterBackoff_backedOff {cause : Nat} {s u : State} (hrest : atRest u) (hf : u.radio.failures = s.radio.failures)
    (hpath : u.path = s.path) (hpins : u.pins = s.pins) (hpower : u.power = s.power) (hpolicy : u.loader.policy = s.loader.policy)
    (hsoft : u.loader.softReset = s.loader.softReset) (hphase : u.loader.phase = s.loader.phase) (hlen : u.events.entries.length = 11) :
    BackedOff cause s (enterBackoff (countFailure cause u)) := by
  have fifth : s.radio.failures = 4 → detailOfKind (enterBackoff (countFailure cause u)) .radioUnavailable
      = some (.radioUnavailable cause 5) := fun h => countFailure_fifth hlen (hf.trans h)
  obtain ⟨events, hcount, hplaces⟩ := countFailure_eq cause u
  rw [hcount] at fifth ⊢
  have more : oneMore u = oneMore s := by rw [oneMore, hf]
  exact ⟨hrest, rfl, more, rfl, rfl, by simp [enterBackoff, backoffTime, more], fifth, hpath, hpins, hpower, hpolicy, hsoft, hphase,
    hplaces.trans hlen, rfl⟩

/-! ### The commands that fail an attach -/

/-- A state that agrees with `s` but for the attach timer, the ready mark, what is told and the pending items. -/
def FailBase (s u : State) : Prop := ∃ timer ready pauseTold capTold items,
  u = { s with
    radio.attachTimer := timer
    radio.ready := ready
    radio.pauseTold := pauseTold
    radio.capTold := capTold
    radio.items := items }

/-- The base each of the three commands fails from. -/
theorem exec_failsAttach {c : Instr} {cause : Nat} {s : State} (h : FailsAttach c cause s) (hst : s.radio.state = .attaching) :
    ∃ u, FailBase s u ∧ exec c s = .next (settle (afterFailure (radioReport (attachFails cause u)))) := by
  obtain ⟨tag, rfl, hready, hne, hle, rfl⟩ | ⟨rfl, hruns, he, rfl⟩ | ⟨rfl, hready, rfl⟩ := h
  · refine ⟨s, ⟨_, _, _, _, _, rfl⟩, ?_⟩
    show Host.Outcome.next (doAttachResult tag s) = _
    rw [doAttachResult, if_pos (by simp [hready, hst]), if_neg hne, attachCause, if_pos hle]
  · refine ⟨{ s with radio.attachTimer := none, radio.items.attach := false }, ⟨_, _, _, _, _, rfl⟩, ?_⟩
    show Host.Outcome.next (doAttachTimerExpiry s) = _
    simp [doAttachTimerExpiry, hruns, nowOrRecorded, enginesRun, he, attachExpires, hst]
  · refine ⟨readyItems (readyTold s), ⟨_, _, _, _, _, rfl⟩, ?_⟩
    show Host.Outcome.next (doModuleReady s) = _
    simp [doModuleReady, hready, moduleIsReady, hst]

theorem awake_of_failsAttach {c : Instr} {cause : Nat} {s : State} (h : FailsAttach c cause s) : s.power.mode ≠ .doze := by
  obtain ⟨_, _, hready, _⟩ | ⟨_, _, he, _⟩ | ⟨_, hready, _⟩ := h
  · exact awake_of_receiverReady hready
  · exact he
  · exact awake_of_receiverReady hready

/-- An attach fails into BACKOFF unless the emergency retries it at once (R114, R116). -/
theorem attachFails_backedOff {cause : Nat} {s u : State} (hu : FailBase s u) (hrest : atRest s) (hlen : s.events.entries.length = 11)
    (htag : s.path.emergency = true → s.radio.attachTag ≠ some false) :
    attachFails cause u = enterBackoff (countFailure cause u) ∧ BackedOff cause s (attachFails cause u) := by
  obtain ⟨timer, ready, pauseTold, capTold, items, rfl⟩ := hu
  have retry : ¬ (s.radio.attachTag = some false ∧ s.path.emergency = true) := fun hc => htag hc.2 hc.1
  have eq : attachFails cause { s with
      radio.attachTimer := timer, radio.ready := ready, radio.pauseTold := pauseTold, radio.capTold := capTold, radio.items := items }
      = enterBackoff (countFailure cause { s with
        radio.attachTimer := timer, radio.ready := ready, radio.pauseTold := pauseTold, radio.capTold := capTold, radio.items := items }) := by
    simp [attachFails, retry]
  exact ⟨eq, eq ▸ enterBackoff_backedOff hrest rfl rfl rfl rfl rfl rfl rfl hlen⟩

/-- After a failure a needed module stays powered (R108). -/
theorem afterFailure_wanted {s : State} (h : s.path.radioWanted = true ∨ s.path.emergency = true) : afterFailure s = s := by
  have needed : moduleNeeded s = true := by
    simp only [moduleNeeded, Bool.or_eq_true]
    exact .inl (.inl (.inl h))
  unfold afterFailure powerRule
  (repeat' split) <;> simp_all

/-- A failure of an attach with the radio wanted or the emergency set (R114). -/
theorem failure_wanted {cause : Nat} {s u : State} (hu : FailBase s u) (hwant : s.path.radioWanted = true ∨ s.path.emergency = true)
    (htag : s.path.emergency = true → s.radio.attachTag ≠ some false) (hrest : atRest s) (hlen : s.events.entries.length = 11)
    (he : s.power.mode ≠ .doze) :
    afterFailure (radioReport (attachFails cause u)) = radioReport (enterBackoff (countFailure cause u))
      ∧ BackedOff cause s (enterBackoff (countFailure cause u))
      ∧ BacksOff cause s (settle (afterFailure (radioReport (attachFails cause u)))) := by
  obtain ⟨heq, hback⟩ := attachFails_backedOff (cause := cause) hu hrest hlen htag
  have hpath := (radioReport_reportLeaves (atRest_window hback.rest)).path_kept
  have wanted : afterFailure (radioReport (attachFails cause u)) = radioReport (attachFails cause u) :=
    afterFailure_wanted (by rw [hpath.1, hpath.2.1, hback.path]; exact hwant)
  rw [wanted]
  exact ⟨by rw [heq], heq ▸ hback, hback.backsOff he⟩

/-! ### A start that times out (R110) -/

/-- Cutting the link off leaves what a backoff rests on. -/
theorem BackedOff.cutLink {cause : Nat} {s v : State} (h : BackedOff cause s v) : BackedOff cause s (cutLink v) := by
  have keeps := cutLink_engineKeeps v
  have fifth (h4 : s.radio.failures = 4) := (keeps.detail (by simp [atRest_waiting h.rest]) not_engineRaises_radioUnavailable).trans (h.fifth h4)
  have places := keeps.places.trans h.length
  have frees := cutLink_frees (atRest_window h.rest)
  have rest : atRest (Machine.cutLink v) := frees.atRest h.rest
  generalize Machine.cutLink v = w at *
  obtain ⟨_, _, _, _, _, _, _, rfl⟩ := frees
  exact ⟨rest, h.state, h.failures, h.lastCause, h.attachTimer, h.backoffTimer, fifth, h.path, h.pins, h.power, h.policy, h.softReset, h.phase,
    places, h.attachItem⟩

/-- The module unpowered for 1 s as its start fails (R110). -/
def unpowered (s : State) : State := { dropPower s with radio.startTimer := none, radio.cycleTimer := some 1000, radio.ready := false }

theorem exec_startTimerExpiry {s : State} (hst : s.radio.state = .starting) (hruns : s.radio.startTimer.isSome = true) (he : s.power.mode ≠ .doze) :
    exec .startTimerExpiry s = .next (settle (radioReport (cutLink (enterBackoff (countFailure 17 (unpowered s)))))) := by
  show Host.Outcome.next (doStartTimerExpiry s) = _
  simp only [doStartTimerExpiry, hruns, if_true, nowOrRecorded, enginesRun, he, startExpires, hst, startFails, unpowered]
  simp [he]

theorem startFails_radio {s : State} (hrest : atRest s) : ∃ item, (cutLink (enterBackoff (countFailure 17 (unpowered s)))).radio
    = { (enterBackoff (countFailure 17 (unpowered s))).radio with ldo := none, receiver := .idle, items.pause := item } := by
  obtain ⟨events, hcount, _⟩ := countFailure_eq 17 (unpowered s)
  have hwin : (enterBackoff (countFailure 17 (unpowered s))).ring.window = [] := by rw [hcount]; exact atRest_window hrest
  obtain ⟨_, _, _, item, _, _, _, heq⟩ := cutLink_frees hwin
  exact ⟨item, by rw [heq]⟩

/-! ### A retry at once (R116) -/

/-- What a retry at once brings about: from `s` to the command's end `t`. -/
structure Retries (cause : Nat) (s t : State) : Prop where
  state : t.radio.state = .attaching
  attachItem : t.radio.items.attach = true
  attachTag : t.radio.attachTag = none
  failures : t.radio.failures = oneMore s
  lastCause : t.radio.lastCause = some cause
  emergency : t.path.emergency = s.path.emergency
  attachTimer : t.radio.attachTimer = some (s.loader.policy.attachTimeout * 1000)
  path : s.path.path ≠ .radio → t.path.path = s.path.path
  fifth : s.events.entries.length = 11 → s.radio.failures = 4
    → detailOfKind t .radioUnavailable = some (.radioUnavailable cause 5)

/-- With the emergency set and the attach sent as normal, the failure is retried at once (R114, R116). -/
theorem failure_retries {cause : Nat} {s u : State} (hu : FailBase s u) (hst : s.radio.state = .attaching) (hem : s.path.emergency = true)
    (htag : s.radio.attachTag = some false) (hrest : atRest s) :
    Retries cause s (settle (afterFailure (radioReport (attachFails cause u)))) := by
  obtain ⟨timer, ready, pauseTold, capTold, items, rfl⟩ := hu
  generalize hu : ({ s with
    radio.attachTimer := timer, radio.ready := ready, radio.pauseTold := pauseTold, radio.capTold := capTold, radio.items := items } : State) = u
  have hretry : attachFails cause u = requestAttach (countFailure cause u) := by simp [attachFails, ← hu, htag, hem]
  have fifth : s.events.entries.length = 11 → s.radio.failures = 4 → detailOfKind (requestAttach (countFailure cause u)) .radioUnavailable
      = some (.radioUnavailable cause 5) := fun hlen h4 => countFailure_fifth (s := u) (by simpa [← hu]) (by simpa [← hu])
  obtain ⟨events, hcount, _⟩ := countFailure_eq cause u
  generalize hv : requestAttach (countFailure cause u) = v at hretry fifth
  rw [hcount] at hv
  rw [hretry]
  have hrest' : atRest v := by rw [← hv, ← hu]; exact hrest
  have leaves := radioReport_reportLeaves (atRest_window hrest')
  have hstate : v.radio.state = .attaching := by rw [← hv]; rfl
  have still : afterFailure (radioReport v) = radioReport v := by
    have hradio : (radioReport v).radio.state = v.radio.state := by rw [leaves.radio]
    simp [afterFailure, hradio, hstate]
  obtain ⟨pause, low, ldo, hradio, _⟩ := (settle_radioReport hrest').radio
  obtain ⟨x, y, k, hset, _⟩ := settle_rest (radioReport_atRest hrest')
  rw [still]
  refine ⟨by rw [hradio]; exact hstate, by rw [hradio, ← hv]; rfl, by rw [hradio, ← hv]; rfl, by rw [hradio, ← hv, ← hu]; rfl,
    by rw [hradio, ← hv]; rfl, ?_, by rw [hradio, ← hv, ← hu]; rfl, fun hp => ?_, fun hlen h4 => ?_⟩
  · rw [(settle_radioReport hrest').path, ← hv, ← hu]; rfl
  · have hpath : v.path = s.path := by rw [← hv, ← hu]; rfl
    have same : radioReport v = v := by
      unfold radioReport
      rw [hpath, hstate]
      split <;> simp_all
    rw [hset, same]
    exact congrArg PathController.path hpath
  · have hdetail : detailOfKind (settle (radioReport v)) .radioUnavailable = detailOfKind (radioReport v) .radioUnavailable := by rw [hset]; rfl
    rw [hdetail, radioReport_detail (by simp [atRest_waiting hrest']) (by decide) not_engineRaises_radioUnavailable]
    exact fifth hlen h4

/-! ### A failure with nothing wanted (R108, log 42) -/

/-- In BACKOFF the power rule keeps a module that is needed and unpowers one that is not (R108). -/
theorem powerRule_backoff {s : State} (hst : s.radio.state = .backoff) (hwant : attachWanted s = false) :
    powerRule s = if s.loader.policy.warm = true ∧ s.power.mode = .mains ∨ partWorks s = false then s else enterOff s := by
  have needed : moduleNeeded s = (s.loader.policy.warm && s.power.mode == .mains) := by
    simp only [attachWanted, Bool.or_eq_false_iff] at hwant
    simp [moduleNeeded, hst, hwant]
  cases hw : partWorks s
  · simp [powerRule, hw]
  · by_cases hwarm : s.loader.policy.warm = true ∧ s.power.mode = .mains
    · simp [powerRule, hw, hst, needed, hwarm]
    · simp only [powerRule, hw, hst, needed]
      simp [hwarm]

/-- A report leads neither into DISABLED nor out of it. -/
theorem radioReport_partWorks {s : State} (hwin : s.ring.window = []) : partWorks (radioReport s) = partWorks s := by
  have phase : (radioReport s).loader = s.loader := (radioReport_reportLeaves hwin).loader
  by_cases hd : s.path.path = .disabled
  · have same : radioReport s = s := by simp [radioReport, hd]
    rw [same]
  · obtain hs | ⟨p, c, hp, hs⟩ := radioReport_cases s
    · rw [hs]
    · have moved : (radioReport s).path.path ≠ .disabled := by
        rw [hs, moveAndEval]
        obtain he | ⟨d, he⟩ := evalReturn_cases (changePath p c s)
        · rw [he]
          obtain rfl | rfl := hp <;> simp
        · simp [he]
      rw [partWorks, partWorks, phase, bne_iff_ne.2 moved, bne_iff_ne.2 hd]

/-- What a failure brings about with neither the radio wanted nor the emergency set: from `s` to the command's end `t`. -/
structure FailsUnwanted (cause : Nat) (s t : State) : Prop where
  failures : t.radio.failures = oneMore s
  lastCause : t.radio.lastCause = some cause
  attachTimer : t.radio.attachTimer = none
  fifth : s.radio.failures = 4 → detailOfKind t .radioUnavailable = some (.radioUnavailable cause 5)
  warm : s.loader.policy.warm = true → s.power.mode = .mains → t.radio.state = .backoff
    ∧ t.radio.backoffTimer = some (1000 * min (4 * 2 ^ (oneMore s - 1)) 256)
  off : (s.loader.policy.warm = false ∨ s.power.mode ≠ .mains) → partWorks s = true → t.radio.state = .off ∧ t.radio.mpwr = false
    ∧ t.radio.mrst = true ∧ t.radio.ready = false ∧ t.radio.backoffTimer = none ∧ t.radio.items.attach = false

theorem failure_unwanted {cause : Nat} {s u : State} (hu : FailBase s u) (hwant : s.path.radioWanted = false)
    (hem : s.path.emergency = false) (hrest : atRest s) (hlen : s.events.entries.length = 11) :
    FailsUnwanted cause s (settle (afterFailure (radioReport (attachFails cause u)))) := by
  obtain ⟨_, hback⟩ := attachFails_backedOff (cause := cause) hu hrest hlen (by simp [hem])
  generalize attachFails cause u = v at *
  have leaves := radioReport_reportLeaves (atRest_window hback.rest)
  have hrest' := radioReport_atRest hback.rest
  have fifth (h4 : s.radio.failures = 4) : detailOfKind (radioReport v) .radioUnavailable = some (.radioUnavailable cause 5) := by
    rw [radioReport_detail (by simp [atRest_waiting hback.rest]) (by decide) not_engineRaises_radioUnavailable, hback.fifth h4]
  obtain ⟨item, hradio⟩ := leaves.radio_eq
  obtain ⟨hw, hf, _, _⟩ := leaves.path_kept
  have hstate : (radioReport v).radio.state = .backoff := by rw [hradio]; exact hback.state
  have hwanted : attachWanted (radioReport v) = false := by simp [attachWanted, hw, hf, hback.path, hwant, hem]
  have hworks : partWorks (radioReport v) = partWorks s := by
    rw [radioReport_partWorks (atRest_window hback.rest), partWorks, partWorks, hback.phase, hback.path]
  have hrule : afterFailure (radioReport v) = if s.loader.policy.warm = true ∧ s.power.mode = .mains ∨ partWorks s = false
      then radioReport v else enterOff (radioReport v) := by
    rw [afterFailure, if_pos hstate, powerRule_backoff hstate hwanted, leaves.loader, leaves.power, hback.policy, hback.power, hworks]
  rw [hrule]
  split
  · rename_i hkept
    obtain ⟨x, y, k, hset, _⟩ := settle_rest hrest'
    rw [hset]
    refine ⟨?_, ?_, ?_, fun h4 => fifth h4, fun _ _ => ⟨hstate, ?_⟩, fun hoff hwork => ?_⟩
    · exact (congrArg RadioLink.failures hradio).trans hback.failures
    · exact (congrArg RadioLink.lastCause hradio).trans hback.lastCause
    · exact (congrArg RadioLink.attachTimer hradio).trans hback.attachTimer
    · exact (congrArg RadioLink.backoffTimer hradio).trans hback.backoffTimer
    · obtain ⟨hwarm, hm⟩ | hno := hkept
      · simp [hwarm, hm] at hoff
      · simp [hno] at hwork
  · rename_i hgone
    have fifthOff (h4 : s.radio.failures = 4) := ((enterOff_asks (radioReport v)).1.detail (by simp [atRest_waiting hrest'])
      not_engineRaises_radioUnavailable).trans (fifth h4)
    obtain ⟨x, y, k, hset, _⟩ := settle_rest (enterOff_atRest hrest')
    obtain ⟨_, _, _, _, _, _, _, heq⟩ := enterOff_frees (atRest_window hrest')
    rw [hset]
    refine ⟨?_, ?_, ?_, fun h4 => fifthOff h4, fun hwarm hm => absurd (.inl ⟨hwarm, hm⟩) hgone, fun _ _ => ?_⟩
    · rw [heq]; exact (congrArg RadioLink.failures hradio).trans hback.failures
    · rw [heq]; exact (congrArg RadioLink.lastCause hradio).trans hback.lastCause
    · rw [heq]; exact (congrArg RadioLink.attachTimer hradio).trans hback.attachTimer
    · rw [heq]; exact ⟨rfl, rfl, rfl, rfl, rfl, rfl⟩

/-- Settles O42. -/
theorem attachFailuresBackOff : Obligations.AttachFailuresBackOff := by
  refine ⟨?_, ?_, ?_, ?_, ?_, ?_⟩
  · intro tag s hready hst hwant htag hrest hlen hne hle
    have fails : FailsAttach (.attachResult tag) tag.toNat s := .inl ⟨tag, rfl, hready, hne, hle, rfl⟩
    obtain ⟨u, hu, hexec⟩ := exec_failsAttach fails hst
    obtain ⟨_, _, hback⟩ := failure_wanted (cause := tag.toNat) hu hwant htag hrest hlen (awake_of_receiverReady hready)
    exact ⟨_, hexec, hback.state, hback.failures, hback.lastCause, hback.attachTimer, hback.backoffTimer, hback.fifth, hback.held, hback.returning⟩
  · intro s hruns he hst hwant htag hrest hlen
    have fails : FailsAttach .attachTimerExpiry 16 s := .inr (.inl ⟨rfl, hruns, he, rfl⟩)
    obtain ⟨u, hu, hexec⟩ := exec_failsAttach fails hst
    obtain ⟨_, _, hback⟩ := failure_wanted (cause := 16) hu hwant htag hrest hlen he
    exact ⟨_, hexec, hback.state, hback.failures, hback.lastCause, hback.attachTimer, hback.backoffTimer, hback.fifth, hback.held, hback.returning,
      hback.attachItem⟩
  · intro s hready hst hwant htag hrest hlen
    have hexec : exec .moduleReady s = .next (settle (afterFailure (radioReport (attachFails 18 (readyItems (readyTold s)))))) := by
      show Host.Outcome.next (doModuleReady s) = _
      simp [doModuleReady, hready, moduleIsReady, hst]
    obtain ⟨heq, hv, hback⟩ := failure_wanted (cause := 18) (u := readyItems (readyTold s)) ⟨_, _, _, _, _, rfl⟩ hwant htag hrest hlen
      (awake_of_receiverReady hready)
    obtain ⟨events, hcount, _⟩ := countFailure_eq 18 (readyItems (readyTold s))
    have ends := (settle_radioReport hv.rest).radio
    have barred := fun hb => radioReport_barred_radio (hv.barred.2 hb)
    obtain ⟨x, y, k, hset, _⟩ := settle_rest (radioReport_atRest hv.rest)
    rw [← heq] at ends hset
    obtain ⟨pause, low, ldo, hradio, _⟩ := ends
    refine ⟨_, hexec, hback.state, hback.failures, hback.lastCause, hback.attachTimer, hback.backoffTimer, hback.fifth, hback.held, hback.returning,
      ?_, ?_, ?_, ?_, fun hb => ?_⟩
    · rw [hradio, hcount]; rfl
    · rw [hradio, hcount]; rfl
    · rw [hradio, hcount]; rfl
    · rw [hradio, hcount]; rfl
    · rw [hset, heq]
      show (radioReport (enterBackoff (countFailure 18 (readyItems (readyTold s))))).radio.items.pause = _
      rw [barred hb, hcount]
      rfl
  · intro s hruns he hst hrest hlen
    have base : BackedOff 17 s (enterBackoff (countFailure 17 (unpowered s))) :=
      enterBackoff_backedOff hrest rfl rfl rfl rfl rfl rfl rfl hlen
    have hback := base.cutLink.backsOff he
    obtain ⟨item, hcut⟩ := startFails_radio hrest
    obtain ⟨pause, low, ldo, hradio, _⟩ := (settle_radioReport base.cutLink.rest).radio
    obtain ⟨events, hcount, _⟩ := countFailure_eq 17 (unpowered s)
    exact ⟨_, exec_startTimerExpiry hst hruns he, hback.state, hback.failures, hback.lastCause, hback.attachTimer, hback.backoffTimer,
      hback.fifth, hback.held, hback.returning, by rw [hradio, hcut, hcount]; rfl, by rw [hradio, hcut, hcount]; rfl,
      by rw [hradio, hcut, hcount]; rfl, by rw [hradio, hcut, hcount]; rfl, by rw [hradio, hcut, hcount]; rfl⟩
  · intro c cause s fails hst hem htag hrest
    obtain ⟨u, hu, hexec⟩ := exec_failsAttach fails hst
    have hretry := failure_retries (cause := cause) hu hst hem htag hrest
    exact ⟨_, hexec, hretry.state, hretry.attachItem, hretry.attachTag, hretry.failures, hretry.lastCause, hretry.emergency.trans hem,
      hretry.attachTimer, hretry.path, hretry.fifth⟩
  · intro c cause s fails hst hwant hem hrest hlen
    obtain ⟨u, hu, hexec⟩ := exec_failsAttach fails hst
    have hfails := failure_unwanted (cause := cause) hu hwant hem hrest hlen
    exact ⟨_, hexec, hfails.failures, hfails.lastCause, hfails.attachTimer, hfails.fifth, hfails.warm, hfails.off⟩

end Sys2Proof.Machine
end

section
/-! The wake sources and the restart (R159, R160): what each source latches, and what the restart's work leaves standing. -/

-- One theorem at a time, as in the model's laws: the threads of many at once would not fit the memory a check has.
set_option Elab.async false

namespace Sys2Proof.Machine

/-! ### In DOZE -/

/-- In DOZE, its restart begun, the standing work leaves the Power Mode Unit as it is (R152, R157). -/
theorem settle_restarting_power {s : State} (h : s.power.mode = .doze) (hs : s.power.step = .restarting) : (settle s).power = s.power := by
  have idle {u : State} (hu : u.power.mode = .doze) : issueAll u = u := by
    simp only [issueAll, pump]
    split <;> simp [enginesRun, hu]
  have undelivered : judgeDelivery s = s := by simp [judgeDelivery, mayDeliver, enginesRun, h]
  simp [settle, idle, h, undelivered, evalDoze, hs]

/-- A source in DOZE begins the restart (R159). -/
theorem wakeSource_dozing {w : WakeSource} {s : State} (h : s.power.step = .dozing) : wakeSource w s = { s with
    power.latch := latchSource w s.power.latch
    power.step := .restarting
    power.restart := some 2
    power.dozeTimer := none } := by simp [wakeSource, h]

/-- What a source that begins the restart leaves at its command's end. -/
theorem settle_wakeSource {w : WakeSource} {s : State} (hm : s.power.mode = .doze) (h : s.power.step = .dozing) :
    (settle (wakeSource w s)).power.mode = .doze ∧ (settle (wakeSource w s)).power.step = .restarting
      ∧ (settle (wakeSource w s)).power.restart = some 2 ∧ (settle (wakeSource w s)).power.dozeTimer = none
      ∧ (settle (wakeSource w s)).power.latch = latchSource w s.power.latch ∧ (settle (wakeSource w s)).pins = s.pins := by
  rw [wakeSource_dozing h, settle_restarting_power (by exact hm) rfl]
  simp [hm]

/-! ### The restart's steps -/

theorem exec_restartEnd {s : State} (h : s.power.step = .restarting) :
    exec .restartEnd s = .next (settle (evalReturn (useLatch (takeUpWork (actAllRecorded (startBlocks s)))))) := by
  show Host.Outcome.next (doRestartEnd s) = _
  rw [doRestartEnd, if_pos h]

/-- Before its last evaluation the standing work leaves an awake Power Mode Unit as it is. -/
theorem settle_awake_power {s : State} (h : s.power.step = .awake) : ∃ b, settle s = evalDoze b ∧ b.power = s.power := by
  have issued {u : State} (hu : u.power.step = .awake) : (issueAll u).power = u.power := by
    rw [issueAll, pump_power 64 hu]
  have first := issued h
  have second : (s |> issueAll |> judgeDelivery |> evalScan |> issueAll).power = s.power := by
    rw [issued (by simpa [first] using h)]
    simpa using first
  refine ⟨_, rfl, ?_⟩
  rw [issued (by simpa [second] using h)]
  simpa using second

/-- An awake unit whose quiet timer has not run out begins no entry (R157). -/
theorem settle_stays_awake {s : State} (h : s.power.step = .awake) (hq : s.power.quiet ≠ .runOut) : (settle s).power.step = .awake := by
  obtain ⟨b, hb, hpower⟩ := settle_awake_power h
  have hno : dozeConditions b = false := by simp [dozeConditions, hpower, hq]
  simp [hb, evalDoze, hpower, h, hno]

theorem ceaseEntry_awake {s : State} (h : s.power.step = .awake) : ceaseEntry s = s := by simp [ceaseEntry, h]

theorem enterTakeover_power {c : PathCause} {s : State} (h : s.power.step = .awake) : (enterTakeover c s).power = s.power := by
  simp only [enterTakeover]
  rw [ceaseEntry_awake (s := { s with
    path.dwellD := takeoverDwell s, path.path := .takeover, path.phase := none, health.timer1s := none }) h]
  (repeat' split) <;> simp

theorem evalTakeover_power {s : State} (h : s.power.step = .awake) : (evalTakeover s).power = s.power := by
  unfold evalTakeover
  (repeat' split)
  · exact enterTakeover_power h
  · rfl
  · rfl

theorem verdictReport_power {s : State} (h : s.power.step = .awake) : (verdictReport s).power = s.power := by
  unfold verdictReport
  dsimp only
  (repeat' split) <;> first | exact evalTakeover_power h | simp

theorem evaluate_power {s : State} (h : s.power.step = .awake) : (evaluate s).power = s.power := by
  simp only [evaluate]
  split
  · rfl
  · rw [verdictReport_power (by simpa using h)]
    simp

/-! ### What stands through the reports of the path and the verdict -/

theorem withPauseTarget_firm {f : State → State} (s : State) (hf : EngineFirm s (f s)) : EngineFirm s (withPauseTarget f s) := by
  unfold withPauseTarget
  split
  · exact hf
  · exact hf.trans (by constructor <;> simp +contextual)

theorem changePath_firm (p : PathState) (c : PathCause) (s : State) : EngineFirm s (changePath p c s) := .of_radio rfl rfl rfl rfl

theorem enterReturning_firm (c : PathCause) (s : State) : EngineFirm s (enterReturning c s) := by
  simp only [enterReturning]
  refine EngineFirm.trans ?_ (judgePending_firm _)
  refine EngineFirm.trans ?_ (changePath_firm _ _ _)
  refine EngineFirm.trans ?_ (withPauseTarget_firm _ (.of_radio rfl rfl rfl rfl))
  exact .of_radio rfl rfl rfl rfl

theorem evalReturn_firm (s : State) : EngineFirm s (evalReturn s) := by
  obtain h | ⟨c, h⟩ := evalReturn_cases s
  · rw [h]; exact .refl s
  · rw [h]; exact enterReturning_firm c s

theorem radioReport_firm (s : State) : EngineFirm s (radioReport s) := by
  obtain h | ⟨p, c, _, h⟩ := radioReport_cases s
  · rw [h]; exact .refl s
  · rw [h]; exact (changePath_firm p c s).trans (evalReturn_firm _)

theorem interruptReturn_firm (c : PathCause) (s : State) : EngineFirm s (interruptReturn c s) := by
  unfold interruptReturn
  split
  · refine EngineFirm.trans ?_ (evalReturn_firm _)
    refine EngineFirm.trans ?_ (judgePending_firm _)
    refine EngineFirm.trans ?_ (changePath_firm _ _ _)
    refine EngineFirm.trans ?_ (readAhead_engineKeeps _).firm
    refine EngineFirm.trans ?_ (withPauseTarget_firm _ (.of_radio rfl rfl rfl rfl))
    exact .of_radio rfl rfl rfl rfl
  · exact .refl s

theorem EngineIdle.trans {s t u : State} (h : EngineIdle s t) (h' : EngineIdle t u) : EngineIdle s u := by
  intro hs
  obtain ⟨ht, hst⟩ := h hs
  obtain ⟨hu, htu⟩ := h' ht
  exact ⟨hu, htu.trans hst⟩

theorem withPauseTarget_idle {f : State → State} {s : State} (hf : EngineIdle s (f s)) : EngineIdle s (withPauseTarget f s) := by
  unfold withPauseTarget
  split
  · exact hf
  · exact EngineIdle.trans hf fun h => ⟨h, rfl⟩

theorem interruptReturn_idle (c : PathCause) (s : State) : EngineIdle s (interruptReturn c s) := by
  unfold interruptReturn
  split
  · refine EngineIdle.trans ?_ (evalReturn_idle _)
    refine EngineIdle.trans ?_ (judgePending_engineKeeps _).idle
    refine EngineIdle.trans (t := readAhead _) ?_ fun h => ⟨h, rfl⟩
    refine EngineIdle.trans ?_ (readAhead_engineKeeps _).idle
    refine EngineIdle.trans ?_ (withPauseTarget_idle fun h => ⟨h, rfl⟩)
    exact fun h => ⟨h, rfl⟩
  · exact fun h => ⟨h, rfl⟩

/-- Off FIBRE a change of the verdict leaves what takes may move, and what stands through them (R13, R20). -/
theorem verdictReport_offFibre {s : State} (h : s.path.path ≠ .fibre) : EngineFirm s (verdictReport s) ∧ EngineIdle s (verdictReport s) := by
  have stopped : EngineFirm s { s with path.dwell := .stopped } ∧ EngineIdle s { s with path.dwell := .stopped } :=
    ⟨.of_radio rfl rfl rfl rfl, fun hw => ⟨hw, rfl⟩⟩
  unfold verdictReport
  dsimp only
  split
  · contradiction
  · exact ⟨.refl s, fun hw => ⟨hw, rfl⟩⟩
  · split
    · exact ⟨.of_radio rfl rfl rfl rfl, fun hw => ⟨hw, rfl⟩⟩
    · split
      · exact ⟨stopped.1.trans (interruptReturn_firm _ _), fun hw => interruptReturn_idle _ _ hw⟩
      · exact stopped

theorem evaluate_offFibre {s : State} (h : s.path.path ≠ .fibre) : EngineFirm s (evaluate s) ∧ EngineIdle s (evaluate s) := by
  simp only [evaluate]
  split
  · exact ⟨.refl s, fun hw => ⟨hw, rfl⟩⟩
  · generalize hu : raiseEvent _ _ = u
    have hpath : u.path.path ≠ .fibre := by simpa [← hu] using h
    have firm : EngineFirm s u := by rw [← hu]; exact .of_radio rfl rfl rfl rfl
    obtain ⟨hfirm, hidle⟩ := verdictReport_offFibre hpath
    refine ⟨firm.trans hfirm, fun hw => ?_⟩
    obtain ⟨hend, hsame⟩ := hidle (by simpa [← hu] using hw)
    exact ⟨hend, hsame.trans (by simp [← hu, emergencyPart])⟩

/-! ### A takeover (R6, R8) -/

/-- With the radio wanted the power rule unpowers nothing (R108). -/
theorem powerRule_wanted {s : State} (h : s.path.radioWanted = true) : powerRule s = s ∨ powerRule s = enterStarting (powerUp s) := by
  have needed : moduleNeeded s = true := by simp [moduleNeeded, h]
  unfold powerRule
  split
  · exact .inl rfl
  · cases s.radio.state <;> simp [needed]

/-- With the radio wanted the module is powered, attaches, or goes on (R108, R112). -/
theorem wantRadio_cases (s : State) : ∃ u, u = { s with path.radioWanted := true, radio.lingerTimer := none, radio.items.detach := false }
    ∧ (wantRadio s = requestAttach u ∨ wantRadio s = u ∨ wantRadio s = enterStarting (powerUp u)) := by
  refine ⟨_, rfl, ?_⟩
  simp only [wantRadio]
  split
  · exact .inl rfl
  · exact .inr (powerRule_wanted rfl)

theorem wantRadio_kept (s : State) : (wantRadio s).power = s.power ∧ (wantRadio s).radio.items.lowPower = s.radio.items.lowPower
    ∧ (wantRadio s).ring = s.ring := by
  obtain ⟨u, hu, h | h | h⟩ := wantRadio_cases s <;> rw [h, hu] <;> exact ⟨rfl, rfl, rfl⟩

theorem checkTxRelease_engineKeeps (s : State) : EngineKeeps s (checkTxRelease s) := .ite (fun _ => completeTx_engineKeeps s) fun _ => .refl s

theorem checkRxRelease_engineKeeps (s : State) : EngineKeeps s (checkRxRelease s) := .ite (fun _ => completeRx_engineKeeps s) fun _ => .refl s

theorem beginRelease_engineKeeps (s : State) : EngineKeeps s (beginRelease s) := by
  have checked : EngineKeeps s (checkRxRelease (checkTxRelease { s with path.txReleased := false, path.rxReleased := false })) :=
    ((checkTxRelease_engineKeeps _).trans (checkRxRelease_engineKeeps _)).of_moved rfl rfl
  simp only [beginRelease]
  split
  · exact checked
  · exact checked.trans (.of_eq rfl rfl)

theorem stopScan_engineKeeps (s : State) : EngineKeeps s (stopScan s) := (withdrawScanRead_engineKeeps s).trans (.of_eq rfl rfl)

/-- The takeover up to the want of the radio. -/
def takeoverBegun (s : State) : State :=
  { s with path.dwellD := takeoverDwell s, path.path := .takeover, path.phase := none, health.timer1s := none }
    |> ceaseEntry |> stopScan |> fixViews |> startTaking |> beginRelease |> readAhead

/-- The dwell timer and the Path Change of a takeover. -/
def takeoverTold (c : PathCause) (s : State) : State :=
  askPage (raiseEvent (.pathChange .fibre .takeover c)
    { s with path.dwell := if s.health.verdict = .healthy then .running (s.path.dwellD * 1000) else .stopped })

/-- What the path does next after a takeover: the report of the radio as it stands, then the return decision. -/
def takeoverGoesOn (s : State) : State :=
  if (radioReport s).path.path = .takeover then evalReturn (radioReport s) else radioReport s

theorem enterTakeover_eq (c : PathCause) (s : State) :
    enterTakeover c s = takeoverGoesOn (takeoverTold c (wantRadio (takeoverBegun s))) := by
  have told (v : State) : takeoverGoesOn (takeoverTold c v) = (
      let u := radioReport (askPage (raiseEvent (.pathChange .fibre .takeover c)
        { v with path.dwell := if v.health.verdict = .healthy then .running (v.path.dwellD * 1000) else .stopped }))
      if u.path.path = .takeover then evalReturn u else u) := rfl
  rw [told]
  rfl

theorem takeoverBegun_firm (s : State) : EngineFirm s (takeoverBegun s) := by
  unfold takeoverBegun
  refine EngineFirm.trans ?_ (readAhead_engineKeeps _).firm
  refine EngineFirm.trans ?_ (beginRelease_engineKeeps _).firm
  refine EngineFirm.trans (t := stopScan _) ?_ (.of_radio rfl rfl rfl rfl)
  refine EngineFirm.trans ?_ (stopScan_engineKeeps _).firm
  refine EngineFirm.trans ?_ (recordJoins_firm _)
  exact .of_radio rfl rfl rfl rfl

theorem takeoverTold_firm (c : PathCause) (s : State) : EngineFirm s (takeoverTold c s) := .of_radio rfl rfl rfl rfl

theorem takeoverGoesOn_firm (s : State) : EngineFirm s (takeoverGoesOn s) := by
  unfold takeoverGoesOn
  split
  · exact (radioReport_firm s).trans (evalReturn_firm _)
  · exact radioReport_firm s

/-- What a takeover leaves of Low Power and of the overrun checks due. -/
theorem enterTakeover_kept (c : PathCause) (s : State) :
    (s.power.step ≠ .entering .link → (enterTakeover c s).radio.items.lowPower = s.radio.items.lowPower)
      ∧ (s.power.mode ≠ .doze → (enterTakeover c s).ring.txCheckDue = s.ring.txCheckDue
        ∧ (enterTakeover c s).ring.rxCheckDue = s.ring.rxCheckDue) := by
  have begun := takeoverBegun_firm s
  obtain ⟨hpower, hlow, hring⟩ := wantRadio_kept (takeoverBegun s)
  have rest := (takeoverTold_firm c (wantRadio (takeoverBegun s))).trans (takeoverGoesOn_firm _)
  rw [enterTakeover_eq]
  refine ⟨fun h => ?_, fun h => ?_⟩
  · obtain ⟨hb, hbl⟩ := begun.lowPower h
    obtain ⟨_, hrl⟩ := rest.lowPower (by rw [hpower]; exact hb)
    exact hrl.trans (hlow.trans hbl)
  · obtain ⟨hb, htx, hrx⟩ := begun.checks h
    obtain ⟨_, htx', hrx'⟩ := rest.checks (by rw [hpower]; exact hb)
    exact ⟨htx'.trans ((congrArg RingAgent.txCheckDue hring).trans htx), hrx'.trans ((congrArg RingAgent.rxCheckDue hring).trans hrx)⟩

theorem evalTakeover_kept (s : State) :
    (s.power.step ≠ .entering .link → (evalTakeover s).radio.items.lowPower = s.radio.items.lowPower)
      ∧ (s.power.mode ≠ .doze → (evalTakeover s).ring.txCheckDue = s.ring.txCheckDue
        ∧ (evalTakeover s).ring.rxCheckDue = s.ring.rxCheckDue) := by
  unfold evalTakeover
  (repeat' split)
  · exact enterTakeover_kept _ _
  · exact ⟨fun _ => rfl, fun _ => ⟨rfl, rfl⟩⟩
  · exact ⟨fun _ => rfl, fun _ => ⟨rfl, rfl⟩⟩

theorem verdictReport_kept (s : State) :
    (s.power.step ≠ .entering .link → (verdictReport s).radio.items.lowPower = s.radio.items.lowPower)
      ∧ (s.power.mode ≠ .doze → (verdictReport s).ring.txCheckDue = s.ring.txCheckDue
        ∧ (verdictReport s).ring.rxCheckDue = s.ring.rxCheckDue) := by
  by_cases hp : s.path.path = .fibre
  · have taken : verdictReport s = evalTakeover s := by simp only [verdictReport, hp]
    rw [taken]
    exact evalTakeover_kept s
  · obtain ⟨firm, _⟩ := verdictReport_offFibre hp
    exact ⟨fun h => (firm.lowPower h).2, fun h => (firm.checks h).2⟩

theorem evaluate_kept (s : State) :
    (s.power.step ≠ .entering .link → (evaluate s).radio.items.lowPower = s.radio.items.lowPower)
      ∧ (s.power.mode ≠ .doze → (evaluate s).ring.txCheckDue = s.ring.txCheckDue ∧ (evaluate s).ring.rxCheckDue = s.ring.rxCheckDue) := by
  simp only [evaluate]
  split
  · exact ⟨fun _ => rfl, fun _ => ⟨rfl, rfl⟩⟩
  · generalize hu : raiseEvent _ _ = u
    have hpower : u.power = s.power := by rw [← hu]; rfl
    have hradio : u.radio = s.radio := by rw [← hu]; rfl
    have hring : u.ring = s.ring := by rw [← hu]; rfl
    rw [← hpower, ← hradio, ← hring]
    exact verdictReport_kept u

/-! ### The restart's work -/

theorem checksDue_none (s : State) : (checksDue s).ring.txCheckDue = false ∧ (checksDue s).ring.rxCheckDue = false := by
  have tx (u : State) : (judgeTxOverrun u).ring.txCheckDue = u.ring.txCheckDue := by simp
  have rx (u : State) : (judgeRxOverrun u).ring.rxCheckDue = u.ring.rxCheckDue ∧ (judgeRxOverrun u).ring.txCheckDue = u.ring.txCheckDue := by
    simp
  simp only [checksDue]
  refine ⟨?_, ?_⟩
  · split <;> split <;> simp_all
  · split <;> split <;> simp_all

/-- The work a restart takes up asks of the master and checks for overruns; no check is due afterwards (R51, R66, R160). -/
theorem takeUpWork_checked (s : State) : (takeUpWork s).ring.txCheckDue = false ∧ (takeUpWork s).ring.rxCheckDue = false := by
  have checked := checksDue_none s
  simp only [takeUpWork]
  split <;> simpa using checked

/-- The latch used: the mains-return timer, the quiet timer, the latch emptied; the SIG sample's evaluation apart (R159, R160). -/
def latchUsed (s : State) : State :=
  let l := s.power.latch
  let s := if l.mainsReturned && !s.pins.mainsLost then { s with power.mainsReturn := some 10000 } else s
  let s := if l.txpWrite || l.pgenWrite || l.offhook || l.losLink || l.ri || l.mainsReturned then restartQuiet s else s
  { s with power.latch := WakeLatch.empty }

theorem useLatch_eq (s : State) : useLatch s = if s.power.latch.dozeTimer then evaluate (sampleSig (latchUsed s)) else latchUsed s := rfl

/-- The latch used moves the Power Mode Unit alone. -/
theorem latchUsed_eq (s : State) : latchUsed s = { s with power := (latchUsed s).power }
    ∧ (latchUsed s).power = { s.power with
        latch := WakeLatch.empty
        mainsReturn := if s.power.latch.mainsReturned = true ∧ s.pins.mainsLost = false then some 10000 else s.power.mainsReturn
        quiet := if s.power.latch.txpWrite = true ∨ s.power.latch.pgenWrite = true ∨ s.power.latch.offhook = true ∨ s.power.latch.losLink = true
            ∨ s.power.latch.ri = true ∨ s.power.latch.mainsReturned = true
          then .running (s.loader.policy.dozeDelay * 1000) else s.power.quiet } := by
  simp only [latchUsed, Bool.and_eq_true, Bool.not_eq_true', Bool.or_eq_true, or_assoc]
  by_cases hm : s.power.latch.mainsReturned = true ∧ s.pins.mainsLost = false
  · simp only [if_pos hm]
    split <;> exact ⟨rfl, rfl⟩
  · simp only [if_neg hm]
    split <;> exact ⟨rfl, rfl⟩

theorem sampleSig_eq (s : State) : ∃ v, sampleSig s = { s with health.sig := v }
    ∧ v = (if s.pins.los = false ∧ s.pins.link = true then min 253 (s.health.sig + s.loader.policy.sig.q)
      else max 1 (s.health.sig - s.loader.policy.sig.p)) := by
  refine ⟨_, rfl, ?_⟩
  simp [recovery, penalty, attributeParams, attributeValue]

theorem latchUsed_step {s : State} : (latchUsed s).power.step = s.power.step ∧ (latchUsed s).power.mode = s.power.mode := by
  rw [(latchUsed_eq s).2]
  exact ⟨rfl, rfl⟩

theorem useLatch_power {s : State} (h : s.power.step = .awake) : (useLatch s).power = (latchUsed s).power := by
  rw [useLatch_eq]
  split
  · obtain ⟨v, hv, _⟩ := sampleSig_eq (latchUsed s)
    rw [hv, evaluate_power]
    exact latchUsed_step.1.trans h
  · rfl

/-- What using the latch leaves of Low Power and of the overrun checks due. -/
theorem useLatch_kept {s : State} (h : s.power.step = .awake) (he : s.power.mode ≠ .doze) :
    (useLatch s).radio.items.lowPower = s.radio.items.lowPower ∧ (useLatch s).ring.txCheckDue = s.ring.txCheckDue
      ∧ (useLatch s).ring.rxCheckDue = s.ring.rxCheckDue := by
  have hstep := (latchUsed_step (s := s)).1.trans h
  have hmode : (latchUsed s).power.mode ≠ .doze := by rw [latchUsed_step.2]; exact he
  have hradio : (latchUsed s).radio = s.radio := by rw [(latchUsed_eq s).1]
  have hring : (latchUsed s).ring = s.ring := by rw [(latchUsed_eq s).1]
  rw [useLatch_eq, ← hradio, ← hring]
  split
  · obtain ⟨v, hv, _⟩ := sampleSig_eq (latchUsed s)
    obtain ⟨hlow, hchecks⟩ := evaluate_kept { latchUsed s with health.sig := v }
    rw [hv]
    exact ⟨hlow (by simp [hstep]), hchecks hmode⟩
  · exact ⟨rfl, rfl, rfl⟩

theorem useLatch_sig (s : State) : (useLatch s).health.sig = if s.power.latch.dozeTimer
    then (if s.pins.los = false ∧ s.pins.link = true then min 253 (s.health.sig + s.loader.policy.sig.q)
      else max 1 (s.health.sig - s.loader.policy.sig.p)) else s.health.sig := by
  have same : (latchUsed s).health = s.health ∧ (latchUsed s).pins = s.pins ∧ (latchUsed s).loader = s.loader := by
    rw [(latchUsed_eq s).1]
    exact ⟨rfl, rfl, rfl⟩
  rw [useLatch_eq]
  split
  · obtain ⟨v, hv, hval⟩ := sampleSig_eq (latchUsed s)
    rw [hv]
    simp [hval, same]
  · rw [same.1]

/-- The restart from the end of its recorded work to the command's end. -/
def restartEnds (s : State) : State := settle (evalReturn (useLatch (takeUpWork s)))

/-- What the end of the restart leaves. -/
theorem restartEnds_kept {s : State} (h : s.power.step = .awake) (he : s.power.mode ≠ .doze) :
    (restartEnds s).radio.items.lowPower = s.radio.items.lowPower ∧ (restartEnds s).ring.txCheckDue = false
      ∧ (restartEnds s).ring.rxCheckDue = false := by
  unfold restartEnds
  have hstep : (useLatch (takeUpWork s)).power.step = .awake := by
    rw [useLatch_power (by simpa using h), latchUsed_step.1]
    simpa using h
  have hmode : (useLatch (takeUpWork s)).power.mode ≠ .doze := by simpa using he
  obtain ⟨hlow, htx, hrx⟩ := useLatch_kept (s := takeUpWork s) (by simpa using h) (by simpa using he)
  obtain ⟨hctx, hcrx⟩ := takeUpWork_checked s
  have firm := (evalReturn_firm (useLatch (takeUpWork s))).trans (settle_engineKeeps _).firm
  obtain ⟨_, hkept⟩ := firm.lowPower (by simp [hstep])
  obtain ⟨_, htx', hrx'⟩ := firm.checks hmode
  exact ⟨hkept.trans (hlow.trans (by simp)), htx'.trans (htx.trans hctx), hrx'.trans (hrx.trans hcrx)⟩

/-- What the end of the restart leaves of the Power Mode Unit, but for an entry to DOZE that begins. -/
theorem restartEnds_power {s : State} (h : s.power.step = .awake) :
    (restartEnds s).power.quiet = (latchUsed s).power.quiet ∧ (restartEnds s).power.mainsReturn = (latchUsed s).power.mainsReturn
      ∧ (restartEnds s).power.latch = WakeLatch.empty
      ∧ ((latchUsed s).power.quiet ≠ .runOut → (restartEnds s).power.step = .awake) := by
  have same : (latchUsed (takeUpWork s)).power = (latchUsed s).power := by
    rw [(latchUsed_eq (takeUpWork s)).2, (latchUsed_eq s).2]
    simp
  have hpower : (useLatch (takeUpWork s)).power = (latchUsed s).power := by rw [useLatch_power (by simpa using h), same]
  have hlatch : (latchUsed s).power.latch = WakeLatch.empty := by rw [(latchUsed_eq s).2]
  refine ⟨by simp [restartEnds, hpower], by simp [restartEnds, hpower], by simp [restartEnds, hpower, hlatch], fun hq => ?_⟩
  refine settle_stays_awake ?_ (by simpa [hpower] using hq)
  simp [hpower, latchUsed_step.1, h]

/-! ### The blocks started again -/

/-- The blocks as the restart starts them (R160). -/
theorem startBlocks_started (s : State) : (startBlocks s).power = { s.power with mode := .reserve, step := .awake, restart := none }
    ∧ (startBlocks s).pacer.pacing = some 1 ∧ (startBlocks s).hold.sweep10 = some 10 ∧ (startBlocks s).hold.sweep1s = some 1000
    ∧ (startBlocks s).health.timer100 = some 100 ∧ (startBlocks s).events.refreshTimer = some 100 ∧ (startBlocks s).pins.ri = false
    ∧ (s.radio.lowPowerTold = true → (startBlocks s).radio.items.lowPower = some false)
    ∧ (s.radio.lowPowerTold = false → (startBlocks s).radio.items.lowPower = s.radio.items.lowPower)
    ∧ (s.radio.silenceTimer.isSome = true → (startBlocks s).radio.silenceTimer = some 10000) := by
  simp only [startBlocks]
  (repeat' split) <;> simp_all [restartHealth]

@[simp] theorem restartEnds_frame (s : State) :
    (restartEnds s).power.mode = s.power.mode ∧ (restartEnds s).power.restart = s.power.restart ∧ (restartEnds s).pacer.pacing = s.pacer.pacing
    ∧ (restartEnds s).hold.sweep10 = s.hold.sweep10 ∧ (restartEnds s).hold.sweep1s = s.hold.sweep1s
    ∧ (restartEnds s).health.timer100 = s.health.timer100 ∧ (restartEnds s).events.refreshTimer = s.events.refreshTimer
    ∧ (restartEnds s).pins = s.pins ∧ (restartEnds s).path.recorded = s.path.recorded
    ∧ (restartEnds s).radio.silenceTimer = s.radio.silenceTimer ∧ (restartEnds s).path.refallOpen = s.path.refallOpen
    ∧ (restartEnds s).path.refallTimer = s.path.refallTimer := by simp [restartEnds]

theorem restartEnds_sig (s : State) : (restartEnds s).health.sig = if s.power.latch.dozeTimer
    then (if s.pins.los = false ∧ s.pins.link = true then min 253 (s.health.sig + s.loader.policy.sig.q)
      else max 1 (s.health.sig - s.loader.policy.sig.p)) else s.health.sig := by
  have same : (restartEnds s).health.sig = (useLatch (takeUpWork s)).health.sig := by simp [restartEnds]
  rw [same, useLatch_sig]
  simp

theorem exec_restartEnd_ends {s : State} (h : s.power.step = .restarting) :
    exec .restartEnd s = .next (restartEnds (actAllRecorded (startBlocks s))) := exec_restartEnd h

@[simp] theorem actAllRecorded_recorded (s : State) : (actAllRecorded s).path.recorded = [] := by
  have keeps (l : List Recorded) : ∀ u : State, u.path.recorded = [] → (l.foldl (fun s r => actRecorded r s) u).path.recorded = [] := by
    induction l with
    | nil => exact fun u hu => hu
    | cons r l ih => exact fun u hu => ih _ (by simpa using hu)
  exact keeps _ _ rfl

/-- With nothing recorded the blocks start again as the restart starts them. -/
theorem restart_unrecorded {s : State} (hrec : s.path.recorded = []) : ∃ w, actAllRecorded (startBlocks s) = w
    ∧ w.power = { s.power with mode := .reserve, step := .awake, restart := none }
    ∧ w.pacer.pacing = some 1 ∧ w.hold.sweep10 = some 10 ∧ w.hold.sweep1s = some 1000 ∧ w.health.timer100 = some 100
    ∧ w.events.refreshTimer = some 100 ∧ w.pins.ri = false ∧ (s.radio.lowPowerTold = true → w.radio.items.lowPower = some false)
    ∧ (s.radio.lowPowerTold = false → w.radio.items.lowPower = s.radio.items.lowPower)
    ∧ (s.radio.silenceTimer.isSome = true → w.radio.silenceTimer = some 10000)
    ∧ (w.pins.los = s.pins.los ∧ w.pins.link = s.pins.link ∧ w.pins.mainsLost = s.pins.mainsLost)
    ∧ w.loader = s.loader ∧ w.health.sig = s.health.sig ∧ w.path.recorded = [] := by
  have hall : actAllRecorded (startBlocks s) = { startBlocks s with path.recorded := [] } := by simp [actAllRecorded, hrec]
  obtain ⟨h1, h2, h3, h4, h5, h6, h7, h8, h9, h10⟩ := startBlocks_started s
  rw [hall]
  exact ⟨_, rfl, h1, h2, h3, h4, h5, h6, h7, h8, h9, h10, by simp, by simp, by simp, rfl⟩

/-- Off FIBRE the end of the restart leaves what stands through takes, and with an empty window the emergency too. -/
theorem restartEnds_offFibre {s : State} (h : s.path.path ≠ .fibre) :
    EngineFirm (takeUpWork s) (restartEnds s) ∧ EngineIdle s (restartEnds s) := by
  have latched (u : State) : EngineFirm u (latchUsed u) ∧ EngineIdle u (latchUsed u) := by
    obtain ⟨hstep, hmode⟩ := latchUsed_step (s := u)
    have heq := (latchUsed_eq u).1
    generalize latchUsed u = v at *
    rw [heq]
    exact ⟨⟨rfl, fun hs => ⟨by rw [hstep]; exact hs, rfl⟩, id, id, fun hs => ⟨hs, rfl⟩, fun hs => ⟨by rw [hmode]; exact hs, rfl, rfl⟩⟩,
      fun hw => ⟨hw, rfl⟩⟩
  have used (u : State) (hu : u.path.path ≠ .fibre) : EngineFirm u (useLatch u) ∧ EngineIdle u (useLatch u) := by
    obtain ⟨hfirm, hidle⟩ := latched u
    have hpath : (latchUsed u).path = u.path := by rw [(latchUsed_eq u).1]
    rw [useLatch_eq]
    split
    · obtain ⟨v, hv, _⟩ := sampleSig_eq (latchUsed u)
      obtain ⟨hfirm', hidle'⟩ := evaluate_offFibre (s := sampleSig (latchUsed u)) (by rw [hv, hpath]; exact hu)
      refine ⟨hfirm.trans (EngineFirm.trans ?_ hfirm'), EngineIdle.trans hidle (EngineIdle.trans ?_ hidle')⟩
      · rw [hv]; exact .of_radio rfl rfl rfl rfl
      · rw [hv]; exact fun hw => ⟨hw, rfl⟩
    · exact ⟨hfirm, hidle⟩
  have work : EngineIdle s (takeUpWork s) := fun hw => by simp [hw, emergencyPart]
  obtain ⟨hfirm, hidle⟩ := used (takeUpWork s) (by simpa using h)
  have settled := settle_engineKeeps (evalReturn (useLatch (takeUpWork s)))
  unfold restartEnds
  exact ⟨hfirm.trans ((evalReturn_firm _).trans settled.firm),
    EngineIdle.trans work (EngineIdle.trans hidle (EngineIdle.trans (evalReturn_idle _) settled.idle))⟩

theorem evalReturn_offFibre {s : State} (h : s.path.path ≠ .fibre) : (evalReturn s).path.path ≠ .fibre := by
  obtain he | ⟨c, he⟩ := evalReturn_cases s
  · rw [he]; exact h
  · simp [he]

/-- A single step recorded is made as the blocks have started again (R26, R160). -/
theorem restart_recorded {r : Recorded} {s : State} (hrec : s.path.recorded = [r]) :
    actAllRecorded (startBlocks s) = actRecorded r { startBlocks s with path.recorded := [] } := by simp [actAllRecorded, hrec]

/-- A dwell expiry recorded is made at the restart (R13, R26). -/
theorem restart_dwell {s : State} (hrec : s.path.recorded = [.dwell]) (hruns : dwellRuns s = true) (hno : s.power.latch.dozeTimer = false) :
    (restartEnds (actAllRecorded (startBlocks s))).path.dwell = .met := by
  have met : actAllRecorded (startBlocks s) = evalReturn { startBlocks s with path.recorded := [], path.dwell := .met } := by
    have hruns' : dwellRuns { startBlocks s with path.recorded := [] } = true := by simpa [dwellRuns] using hruns
    rw [restart_recorded hrec, actRecorded, dwellExpires, if_pos hruns']
  have hmet : (actAllRecorded (startBlocks s)).path.dwell = .met := by simp [met]
  have hlatch : (actAllRecorded (startBlocks s)).power.latch = s.power.latch := by simp
  generalize actAllRecorded (startBlocks s) = u at *
  have unsampled : useLatch (takeUpWork u) = latchUsed (takeUpWork u) := by
    rw [useLatch_eq, if_neg]
    simp [hlatch, hno]
  rw [restartEnds, unsampled, (latchUsed_eq _).1]
  simp [hmet]

/-- A priority expiry recorded is made at the restart (R22, R26). -/
theorem restart_priority {s : State} (hrec : s.path.recorded = [.priority]) (hwin : s.ring.window = []) (hp : s.path.path ≠ .fibre) :
    (restartEnds (actAllRecorded (startBlocks s))).path.priorityTimer = none
      ∧ (restartEnds (actAllRecorded (startBlocks s))).path.emergency = false := by
  have expired : actAllRecorded (startBlocks s) = evalReturn (powerRule { startBlocks s with
      path.recorded := [], path.priorityTimer := none, path.emergency := false }) := by
    rw [restart_recorded hrec]
    rfl
  obtain ⟨_, hidle⟩ := powerRule_asks { startBlocks s with path.recorded := [], path.priorityTimer := none, path.emergency := false }
  obtain ⟨hwin', htimer, hflag⟩ := hidle (by simpa using hwin)
  have hpath : (powerRule { startBlocks s with path.recorded := [], path.priorityTimer := none, path.emergency := false }).path.path ≠ .fibre := by
    simpa using hp
  generalize powerRule { startBlocks s with path.recorded := [], path.priorityTimer := none, path.emergency := false } = u at *
  obtain ⟨hwin'', hpart⟩ := evalReturn_idle u hwin'
  have hoff := evalReturn_offFibre hpath
  rw [expired]
  obtain ⟨_, hkept⟩ := (restartEnds_offFibre hoff).2 hwin''
  rw [hpart] at hkept
  simp only [emergencyPart, Prod.mk.injEq] at hkept
  exact ⟨hkept.1.1.trans htimer, hkept.1.2.trans hflag⟩

/-- A linger expiry recorded is made at the restart (R121, R124). -/
theorem restart_linger {s : State} (hrec : s.path.recorded = [.linger]) (hst : s.radio.state = .attached) (hp : s.path.path ≠ .fibre) :
    (restartEnds (actAllRecorded (startBlocks s))).radio.lingerTimer = none
      ∧ (restartEnds (actAllRecorded (startBlocks s))).radio.items.detach = true := by
  have expired : actAllRecorded (startBlocks s)
      = { startBlocks s with path.recorded := [], radio.lingerTimer := none, radio.items.detach := true } := by
    rw [restart_recorded hrec, actRecorded, lingerExpires, if_pos (by simpa using hst)]
  have hstate : (actAllRecorded (startBlocks s)).radio.lingerTimer = none ∧ (actAllRecorded (startBlocks s)).radio.items.detach = true
      ∧ (actAllRecorded (startBlocks s)).path.path ≠ .fibre := by
    rw [expired]
    exact ⟨rfl, rfl, by simpa using hp⟩
  generalize actAllRecorded (startBlocks s) = u at *
  obtain ⟨hlinger, hdetach, hpath⟩ := hstate
  obtain ⟨firm, _⟩ := restartEnds_offFibre hpath
  exact ⟨firm.linger (by simpa using hlinger), firm.detach.trans (by simpa using hdetach)⟩

/-- A backoff expiry recorded is made at the restart (R115, R124). -/
theorem restart_backoff {s : State} (hrec : s.path.recorded = [.backoff]) (hst : s.radio.state = .backoff) (hready : s.radio.ready = true)
    (hwant : s.path.radioWanted = true) (hp : s.path.path ≠ .fibre) :
    (restartEnds (actAllRecorded (startBlocks s))).radio.backoffTimer = none
      ∧ (restartEnds (actAllRecorded (startBlocks s))).radio.state = .attaching
      ∧ (restartEnds (actAllRecorded (startBlocks s))).radio.items.attach = true := by
  have expired : actAllRecorded (startBlocks s)
      = requestAttach { startBlocks s with path.recorded := [], radio.backoffTimer := none, radio.state := .detached } := by
    rw [restart_recorded hrec, actRecorded, backoffExpires, if_pos (by simpa using hst), endBackoff]
    simp [hready, detachedNext, attachWanted, hwant]
  have hstate : (actAllRecorded (startBlocks s)).radio.backoffTimer = none ∧ (actAllRecorded (startBlocks s)).radio.state = .attaching
      ∧ (actAllRecorded (startBlocks s)).radio.items.attach = true ∧ (actAllRecorded (startBlocks s)).path.path ≠ .fibre := by
    rw [expired]
    exact ⟨rfl, rfl, rfl, by simpa [requestAttach] using hp⟩
  generalize actAllRecorded (startBlocks s) = u at *
  obtain ⟨hbackoff, hattaching, hitem, hpath⟩ := hstate
  obtain ⟨firm, _⟩ := restartEnds_offFibre hpath
  obtain ⟨hstill, hsame⟩ := firm.attaching (by simpa using hattaching)
  exact ⟨firm.backoff (by simpa using hbackoff), hstill, hsame.trans (by simpa using hitem)⟩

/-- Settles O59: a source in DOZE moves the Power Mode Unit alone, and the restart's end leaves what its first steps made. -/
theorem wakeSourcesBeginTheRestart : Obligations.WakeSourcesBeginTheRestart := by
  refine ⟨?_, ?_, ?_, ?_, ?_, ?_, ?_, ?_, ?_, ?_, ?_, ?_, ?_⟩
  · intro s hs hruns
    show Host.Outcome.next (doDozeTimerExpiry s) = _
    rw [doDozeTimerExpiry, if_pos (by simp [hs, hruns]), wakeSource_dozing (s := { s with power.dozeTimer := none }) hs]
    rfl
  · intro s hm hs
    exact ⟨_, rfl, settle_wakeSource (s := { s with pins.ri := true }) hm hs⟩
  · intro los link s hm hs hne
    have hexec : exec (.losLinkChange los link) s = .next (settle (wakeSource .losLink { s with pins.los := los, pins.link := link })) := by
      show Host.Outcome.next (doLosLinkChange los link s) = _
      rw [doLosLinkChange, if_neg (by simpa [← not_and_or] using hne)]
    exact ⟨_, hexec, settle_wakeSource (s := { s with pins.los := los, pins.link := link }) hm hs⟩
  · intro s hm hs hon
    have hexec : exec .offhookAssert s = .next (settle (wakeSource .offhook { s with pins.offhook := true })) := by
      show Host.Outcome.next (doOffhookAssert s) = _
      rw [doOffhookAssert, if_neg (by simp [hon])]
    exact ⟨_, hexec, settle_wakeSource (s := { s with pins.offhook := true }) hm hs⟩
  · intro s hm hs hon
    have stands : evalReturn (wakeSource .offhook { s with pins.offhook := false }) = wakeSource .offhook { s with pins.offhook := false } := by
      simp [evalReturn, enginesRun, hm]
    have hexec : exec .offhookDeassert s = .next (settle (wakeSource .offhook { s with pins.offhook := false })) := by
      show Host.Outcome.next (doOffhookDeassert s) = _
      rw [doOffhookDeassert, if_pos hon, stands]
    obtain ⟨h1, h2, h3, h4, h5, h6⟩ := settle_wakeSource (w := .offhook) (s := { s with pins.offhook := false }) hm hs
    exact ⟨_, hexec, h1, h2, h3, h4, h5, h6, by rw [settle_doze_path (by simpa using hm)]; simp⟩
  · intro s hm hs hlost hw
    have hexec : exec .mainsLostDeassert s = .next (settle (wakeSource .mainsReturned { s with pins.mainsLost := false })) := by
      show Host.Outcome.next (doMainsLostDeassert s) = _
      simp only [partWorks, Bool.and_eq_true, beq_iff_eq] at hw
      simp [doMainsLostDeassert, hlost, partWorks, hw, hm]
    obtain ⟨h1, h2, h3, h4, h5, _⟩ := settle_wakeSource (w := .mainsReturned) (s := { s with pins.mainsLost := false }) hm hs
    exact ⟨_, hexec, h1, h2, h3, h4, h5⟩
  · intro s hs hrec
    obtain ⟨w, hw, hpower, hpacing, h10, h1s, h100, hrefresh, hri, htold, huntold, hsilence, hpins, hloader, hhealth, hnone⟩ :=
      restart_unrecorded hrec
    have hawake : w.power.step = .awake := by rw [hpower]
    have hexec : exec .restartEnd s = .next (restartEnds w) := hw ▸ exec_restartEnd_ends hs
    obtain ⟨hlow, htx, hrx⟩ := restartEnds_kept hawake (by simp [hpower])
    obtain ⟨hquiet, hmains, hlatch, hstep⟩ := restartEnds_power hawake
    have hsig := restartEnds_sig w
    rw [(latchUsed_eq _).2] at hquiet hmains hstep
    simp only [hpins, hloader, hhealth, hpower] at hquiet hmains hstep hsig
    refine ⟨_, hexec, by simp [hpower], hlatch, by simp [hpower], by simp [hpacing],
      by simp [h10], by simp [h1s], by simp [h100], by simp [hrefresh],
      by simp [hri], fun hsource => ?_, fun htimer => ?_, fun hno => ?_, hmains, by simp [hnone],
      fun h => hlow.trans (htold h), fun h => hlow.trans (huntold h), fun h => by simp [hsilence h], htx, hrx⟩
    · rw [if_pos hsource] at hquiet hstep
      exact ⟨hquiet, hstep (by simp)⟩
    · rw [htimer] at hquiet hsig
      exact ⟨by simpa using hquiet, by simpa using hsig⟩
    · rw [hno] at hsig
      simpa using hsig
  · intro s hs hrec
    have closed : actAllRecorded (startBlocks s) = refallExpires { startBlocks s with path.recorded := [] } := by
      simp [actAllRecorded, hrec, actRecorded]
    refine ⟨_, exec_restartEnd_ends hs, by simp, ?_, ?_⟩ <;> simp [closed, refallExpires]
  · intro s hs hrec hruns hp hno
    exact ⟨_, exec_restartEnd_ends hs, by simp, restart_dwell hrec hruns hno⟩
  · intro s hs hrec ⟨_, hwin⟩ hp
    exact ⟨_, exec_restartEnd_ends hs, by simp, restart_priority hrec hwin hp⟩
  · intro s hs hrec hst hp
    exact ⟨_, exec_restartEnd_ends hs, by simp, restart_linger hrec hst hp⟩
  · intro s hs hrec hst hready hwant hp
    exact ⟨_, exec_restartEnd_ends hs, by simp, restart_backoff hrec hst hready hwant hp⟩
  · intro s hs
    have hpower := (startBlocks_started s).1
    obtain ⟨_, _, hlatch, _⟩ := restartEnds_power (s := actAllRecorded (startBlocks s)) (by simp [hpower])
    exact ⟨_, exec_restartEnd_ends hs, by simp, by simp [hpower], hlatch, by simp [hpower]⟩

end Sys2Proof.Machine
end

section
/-! The takeover (R5 to R8): what it sets, what the standing work leaves of it, and the priority scan that brings one on (R63). -/

-- One theorem at a time, as in the model's laws: the threads of many at once would not fit the memory a check has.
set_option Elab.async false

namespace Sys2Proof.Machine

/-! ### What the standing work keeps of a takeover -/

/-- What is kept of a takeover's start: the views stand or follow, with an empty window the base stays H, and the fill cursor stands
unless a status write waits (R8, R57, R128). -/
structure KeepsStart (s t : State) : Prop extends EngineKeeps s t where
  uplink : s.bus.uplinkView ≠ .off → t.bus.uplinkView ≠ .off
  receive : s.bus.receiveView ≠ .off → t.bus.receiveView ≠ .off
  base : s.ring.window = [] → s.ring.base = s.bus.fixedH → t.ring.base = t.bus.fixedH
  cursor : .receiveStatus ∉ s.bus.waiting → t.ring.fillCursor = s.ring.fillCursor

/-- The engines leave no status write waiting where none waited. -/
theorem EngineAsks.noStatus {s t : State} (h : EngineAsks s t) (hs : .receiveStatus ∉ s.bus.waiting) : .receiveStatus ∉ t.bus.waiting := by
  intro ht
  obtain hin | hasks := h.asked _ ht
  · exact hs hin
  · simp [engineAsks] at hasks

namespace KeepsStart

theorem refl (s : State) : KeepsStart s s := ⟨.refl s, id, id, fun _ h => h, fun _ => rfl⟩

theorem trans {s t u : State} (h : KeepsStart s t) (h' : KeepsStart t u) : KeepsStart s u where
  toEngineKeeps := h.toEngineKeeps.trans h'.toEngineKeeps
  uplink hs := h'.uplink (h.uplink hs)
  receive hs := h'.receive (h.receive hs)
  base hw hs := h'.base (h.idle hw).1 (h.base hw hs)
  cursor hs := (h'.cursor (h.noStatus hs)).trans (h.cursor hs)

/-- What the engines do without moving a view, the base or the fill cursor. -/
theorem of_engine {s t : State} (h : EngineKeeps s t) (hu : t.bus.uplinkView = s.bus.uplinkView := by simp)
    (hr : t.bus.receiveView = s.bus.receiveView := by simp) (hh : t.bus.fixedH = s.bus.fixedH := by simp)
    (hb : t.ring.base = s.ring.base := by simp) (hc : t.ring.fillCursor = s.ring.fillCursor := by simp) : KeepsStart s t :=
  ⟨h, by simp [hu], by simp [hr], by simp [hb, hh], fun _ => hc⟩

end KeepsStart

/-- The issue of a request other than the status write moves no view off, and the base only to H or past a DONE run. -/
theorem onIssue_start (p : Purpose) (s : State) :
    (s.bus.uplinkView ≠ .off → (onIssue p s).bus.uplinkView ≠ .off) ∧ (s.bus.receiveView ≠ .off → (onIssue p s).bus.receiveView ≠ .off)
      ∧ (p ≠ .txcAdvance → s.ring.base = s.bus.fixedH → (onIssue p s).ring.base = (onIssue p s).bus.fixedH)
      ∧ (p ≠ .receiveStatus → (onIssue p s).ring.fillCursor = s.ring.fillCursor) := by
  unfold onIssue
  split
  case h_3 => split <;> simp [setTxReleased, stopReleaseTimer, apply_ite]
  case h_9 => split <;> simp +contextual [setRxReleased, stopReleaseTimer, apply_ite]
  all_goals simp +contextual

theorem issueOne_keepsStart {s : State} {p : Purpose} {rest : List Purpose} (hw : s.bus.waiting = p :: rest) :
    KeepsStart s (issueOne p rest s) := by
  have keeps := issueOne_engineKeeps hw
  revert keeps
  simp only [issueOne]
  (repeat' split) <;> intro keeps
  · exact .of_engine keeps
  · exact .of_engine keeps
  · rename_i m _ x hx
    obtain ⟨hu, hr, hb, hc⟩ := onIssue_start p { s with bus.waiting := rest, bus.queue := s.bus.queue ++ [⟨p, x⟩] }
    refine ⟨keeps, hu, hr, fun hwin hs => hb ?_ hs, fun hno => hc ?_⟩
    · rintro rfl
      simp [formTransfer, doneCount, hwin] at hx
    · rintro rfl
      simp [hw] at hno

theorem pump_keepsStart (n : Nat) (s : State) : KeepsStart s (pump n s) := by
  induction n generalizing s with
  | zero => exact .refl s
  | succ n ih =>
    unfold pump
    split
    · exact .refl s
    · split
      · exact (issueOne_keepsStart ‹_›).trans (ih _)
      · exact .refl s

theorem settle_keepsStart (s : State) : KeepsStart s (settle s) :=
  settle_of_steps .trans pump_keepsStart (fun s => .of_engine (judgeDelivery_engineKeeps s)) (fun s => .of_engine (evalScan_engineKeeps s))
    (fun s => .of_engine (tryHandBack_engineKeeps s)) (fun s => .of_engine (evalDoze_engineKeeps s)) (n := 64) rfl

/-- Off FIBRE a scan that does not run stays so (R6). -/
theorem settle_scanStays {s : State} (h : s.path.path ≠ .fibre) (hs : s.ring.scanRunning = false) : (settle s).ring.scanRunning = false := by
  have stays {u : State} (hp : u.path.path ≠ .fibre) (hu : u.ring.scanRunning = false) : evalScan u = u := by
    simp [evalScan, scanWanted_offFibre hp, hu]
  rw [settle, stays (by simpa using h) (by simpa using hs)]
  simpa using hs

/-! ### What a takeover sets -/

/-- The record of a takeover with the cause `c` begun in `s`, up to the report of the radio (R7, R8). -/
structure TakenOver (c : PathCause) (s t : State) : Prop where
  path : t.path.path = .takeover
  dwellD : t.path.dwellD = takeoverDwell s
  dwell : t.path.dwell = if s.health.verdict = .healthy then .running (takeoverDwell s * 1000) else .stopped
  fixedH : t.bus.fixedH = s.bus.txHorizon
  fixedG : t.bus.fixedG = s.bus.rxHorizon
  base : t.ring.base = s.bus.txHorizon
  cursor : t.ring.fillCursor = s.bus.rxHorizon
  uplink : t.bus.uplinkView ≠ .off
  receive : t.bus.receiveView ≠ .off
  health : t.health = { s.health with timer1s := none }
  wanted : t.path.radioWanted = true
  window : t.ring.window = []
  scan : t.ring.scanRunning = false

theorem beginRelease_start (s : State) : (s.bus.uplinkView ≠ .off → (beginRelease s).bus.uplinkView ≠ .off)
    ∧ (s.bus.receiveView ≠ .off → (beginRelease s).bus.receiveView ≠ .off)
    ∧ (s.ring.base = s.bus.fixedH → (beginRelease s).ring.base = s.bus.fixedH) := by
  have tx (u : State) : (u.bus.uplinkView ≠ .off → (checkTxRelease u).bus.uplinkView ≠ .off)
      ∧ (u.ring.base = u.bus.fixedH → (checkTxRelease u).ring.base = u.bus.fixedH) := by
    unfold checkTxRelease
    split <;> simp [completeTx, setTxReleased, stopReleaseTimer, apply_ite]
  have rx (u : State) : (u.bus.receiveView ≠ .off → (checkRxRelease u).bus.receiveView ≠ .off) := by
    unfold checkRxRelease
    split <;> simp [completeRx, setRxReleased, stopReleaseTimer, apply_ite]
  simp only [beginRelease]
  obtain ⟨hu, hb⟩ := tx { s with path.txReleased := false, path.rxReleased := false }
  have hr := rx (checkTxRelease { s with path.txReleased := false, path.rxReleased := false })
  split <;> simp_all

theorem takeoverBegun_asks (s : State) : EngineAsks s (takeoverBegun s) := by
  unfold takeoverBegun
  refine EngineAsks.trans ?_ (readAhead_engineKeeps _).toEngineAsks
  refine EngineAsks.trans ?_ (beginRelease_engineKeeps _).toEngineAsks
  refine EngineAsks.trans (t := stopScan _) ?_ (.of_asks (ps := []) (by simp [startTaking, fixViews]) (by simp) rfl)
  refine EngineAsks.trans ?_ (stopScan_engineKeeps _).toEngineAsks
  exact .of_asks (ps := []) (by simp) (by simp) (by simp)

/-- The want of the radio leaves ATTACHED and BACKOFF, and enters neither (R108, R112). -/
theorem wantRadio_state (s : State) : (s.radio.state = .attached → (wantRadio s).radio.state = .attached)
    ∧ (s.radio.state = .backoff → (wantRadio s).radio.state = .backoff)
    ∧ (s.radio.state ≠ .attached → s.radio.state ≠ .backoff → (wantRadio s).radio.state ≠ .attached ∧ (wantRadio s).radio.state ≠ .backoff) := by
  have rule {u : State} (hw : u.path.radioWanted = true) :
      powerRule u = u ∨ u.radio.state = .off ∧ powerRule u = enterStarting (powerUp u) := by
    have needed : moduleNeeded u = true := by simp [moduleNeeded, hw]
    unfold powerRule
    split
    · exact .inl rfl
    · cases hu : u.radio.state <;> simp [needed]
  simp only [wantRadio]
  split
  · simp_all [requestAttach]
  · obtain h | ⟨hoff, h⟩ := rule (u := { s with path.radioWanted := true, radio.lingerTimer := none, radio.items.detach := false }) rfl
    · rw [h]
      exact ⟨id, id, fun ha hb => ⟨ha, hb⟩⟩
    · have off : s.radio.state = .off := hoff
      rw [h]
      simp [off, enterStarting]

theorem wantRadio_asks (s : State) : (wantRadio s).path = { s.path with radioWanted := true } ∧ (wantRadio s).bus = s.bus
    ∧ (wantRadio s).events = s.events := by
  obtain ⟨u, hu, h | h | h⟩ := wantRadio_cases s <;> rw [h, hu] <;> exact ⟨rfl, rfl, rfl⟩

/-- A takeover up to the report of the radio. -/
def takeoverSet (c : PathCause) (s : State) : State := takeoverTold c (wantRadio (takeoverBegun s))

theorem takeoverSet_taken (c : PathCause) (s : State) : TakenOver c s (takeoverSet c s) := by
  unfold takeoverSet takeoverBegun
  generalize hv : (startTaking (fixViews (stopScan (ceaseEntry { s with
    path.dwellD := takeoverDwell s, path.path := .takeover, path.phase := none, health.timer1s := none })))) = v
  have hpath : v.path = { s.path with dwellD := takeoverDwell s, path := .takeover, phase := none } := by simp [← hv, startTaking, fixViews]
  have hhealth : v.health = { s.health with timer1s := none } := by simp [← hv, startTaking, fixViews]
  have hH : v.bus.fixedH = s.bus.txHorizon := by simp [← hv, startTaking, fixViews]
  have hG : v.bus.fixedG = s.bus.rxHorizon := by simp [← hv, startTaking, fixViews]
  have hbase : v.ring.base = v.bus.fixedH := by simp [← hv, startTaking]
  have hcursor : v.ring.fillCursor = v.bus.fixedG := by simp [← hv, startTaking]
  have hwindow : v.ring.window = [] := by simp [← hv, startTaking]
  have hscan : v.ring.scanRunning = false := by simp [← hv, startTaking, fixViews]
  obtain ⟨huplink, hreceive, hkeep⟩ := beginRelease_start v
  have hwant := (wantRadio_asks (readAhead (beginRelease v))).1
  have hring := (wantRadio_kept (readAhead (beginRelease v))).2.2
  constructor <;> simp [takeoverTold, hwant, hring, hpath, hhealth, hH, hG, hcursor, hwindow, hscan, hkeep hbase,
    huplink (by simp [← hv, startTaking, fixViews]), hreceive (by simp [← hv, startTaking, fixViews])]

theorem takeoverSet_asks (c : PathCause) (s : State) (hno : .eventRecord ∉ s.bus.waiting) (hlen : s.events.entries.length = 11) :
    .eventRecord ∉ (takeoverSet c s).bus.waiting ∧ (takeoverSet c s).events.entries.length = 11
      ∧ detailOfKind (takeoverSet c s) .pathChange = some (.pathChange .fibre .takeover c) := by
  have asks := takeoverBegun_asks s
  obtain ⟨_, hbus, hevents⟩ := wantRadio_asks (takeoverBegun s)
  unfold takeoverSet
  generalize wantRadio (takeoverBegun s) = w at hbus hevents ⊢
  have places : w.events.entries.length = 11 := by rw [hevents, asks.places, hlen]
  refine ⟨?_, by simpa [takeoverTold] using places, ?_⟩
  · have hw : (takeoverTold c w).bus.waiting = w.bus.waiting := by simp [takeoverTold]
    rw [hw, hbus]
    exact asks.noRecord hno
  · exact detailOfKind_raiseEvent (d := .pathChange .fibre .takeover c) (s := { w with
      path.dwell := if w.health.verdict = .healthy then .running (w.path.dwellD * 1000) else .stopped }) places

/-- Where the path goes on to from TAKEOVER, as the radio stands, when no return is decided (R11). -/
theorem takeoverGoesOn_undecided {s : State} (hp : s.path.path = .takeover) (hd : s.path.dwell ≠ .met)
    (hf : s.loader.policy.pathOverride = .fibreOnly → s.path.priorityTimer ≠ none) :
    takeoverGoesOn s = if s.radio.state = .attached then changePath .radio .attached s
      else if s.radio.state = .backoff then changePath .held .attachFailed s else s := by
  have undecided (u : State) (hdw : u.path.dwell = s.path.dwell) (hpol : u.loader = s.loader) (hpr : u.path.priorityTimer = s.path.priorityTimer) :
      evalReturn u = u := by
    have none : returnDecision u = none := by
      unfold returnDecision
      (repeat' split) <;> simp_all
    simp [evalReturn, none]
  cases hs : s.radio.state <;> simp [takeoverGoesOn, radioReport, hp, hs, moveAndEval, undecided]

/-- What a takeover leaves of the path's other timers and of the blocks it does not touch. -/
theorem takeoverSet_leaves (c : PathCause) (s : State) : (takeoverSet c s).path.priorityTimer = s.path.priorityTimer
    ∧ (takeoverSet c s).loader.policy = s.loader.policy ∧ (takeoverSet c s).power.mode = s.power.mode
    ∧ (takeoverSet c s).loader.softReset = s.loader.softReset ∧ (takeoverSet c s).events.pageWanted = true := by
  simp [takeoverSet, takeoverTold, takeoverBegun, fixViews, startTaking, (wantRadio_asks _).1]

/-- A takeover leaves the radio in ATTACHED or BACKOFF where it is, and brings it into neither. -/
theorem takeoverSet_radio (c : PathCause) (s : State) : (s.radio.state = .attached → (takeoverSet c s).radio.state = .attached)
    ∧ (s.radio.state = .backoff → (takeoverSet c s).radio.state = .backoff)
    ∧ (s.radio.state ≠ .attached → s.radio.state ≠ .backoff →
      (takeoverSet c s).radio.state ≠ .attached ∧ (takeoverSet c s).radio.state ≠ .backoff) := by
  have begun : (takeoverBegun s).radio.state = s.radio.state := by simp [takeoverBegun, fixViews, startTaking]
  have told (u : State) : (takeoverTold c u).radio.state = u.radio.state := by simp [takeoverTold]
  rw [takeoverSet, told, ← begun]
  exact wantRadio_state _

/-- A takeover after which the radio neither is ATTACHED nor backs off and no return is decided stays in TAKEOVER. -/
theorem enterTakeover_stays {c : PathCause} {s : State} (ha : s.radio.state ≠ .attached) (hb : s.radio.state ≠ .backoff)
    (hf : s.loader.policy.pathOverride = .fibreOnly → s.path.priorityTimer ≠ none) : enterTakeover c s = takeoverSet c s := by
  have taken := takeoverSet_taken c s
  obtain ⟨htimer, hpolicy, _⟩ := takeoverSet_leaves c s
  obtain ⟨ha', hb'⟩ := (takeoverSet_radio c s).2.2 ha hb
  rw [enterTakeover_eq, ← takeoverSet, takeoverGoesOn_undecided taken.path (by rw [taken.dwell]; split <;> simp)
    (by rw [htimer, hpolicy]; exact hf), if_neg ha', if_neg hb']

/-! ### The priority scan -/

/-- The word of a one-word read or of the first word of a longer one. -/
theorem headD_memReadWords (m : Memory) (a : Addr) (len : BurstLen) :
    (memReadWords m a (burstWords len)).headD 0 = memWord m (a.toNat / 4 * 4) := by
  have first : wrapAddr (a.toNat / 4 * 4) = a.toNat / 4 * 4 := by
    have := a.isLt
    unfold wrapAddr Config.memoryBytes
    omega
  cases len <;> simp [memReadWords, burstWords, wordAddrs, List.range_succ, first]

/-- The head of the master queue with its transfer is carried by the command that names its kind (R150). -/
theorem exec_priorityScanReadReturn {pos : Count} {a : Addr} {len : BurstLen} {rest : List MasterTransfer} {s : State}
    (hq : s.bus.queue = ⟨.scanRead pos, .read a len⟩ :: rest) :
    exec .priorityScanReadReturn s = .next (settle (scanReturns pos (memWord s.sram (a.toNat / 4 * 4))
      { s with bus.queue := rest, bus.waitCount := 0 })) := by
  rw [← headD_memReadWords s.sram a len]
  show Host.Outcome.next (doPriorityScanReadReturn s) = _
  simp only [doPriorityScanReadReturn, carryWhen, headPurpose, carryHead, hq]
  rfl

/-- A running scan that is wanted keeps its mark at the command's end (R63). -/
theorem settle_scanMark {s : State} (hw : scanWanted s = true) (hr : s.ring.scanRunning = true) :
    (settle s).ring.scanMark = s.ring.scanMark := by
  have wanted : scanWanted (judgeDelivery (issueAll s)) = true := by simpa [scanWanted, softResetStands] using hw
  rw [settle, evalScan]
  simp only [wanted]
  simp [hr]

/-- The scan's report of Voice Priority takes over with cause Priority, and the priority timer runs (R5, R6, R22). -/
theorem settle_scanReports {s : State} (hp : s.path.path = .fibre) (hv : s.health.verdict = .unhealthy)
    (ho : s.loader.policy.pathOverride = .fibreOnly) (ha : s.radio.state ≠ .attached) (hb : s.radio.state ≠ .backoff)
    (hw : s.bus.waiting = []) (hlen : s.events.entries.length = 11) :
    (settle (scanReports s)).path.path = .takeover ∧ (settle (scanReports s)).path.priorityTimer = some 60000
      ∧ detailOfKind (settle (scanReports s)) .pathChange = some (.pathChange .fibre .takeover .priority)
      ∧ (settle (scanReports s)).ring.scanRunning = false ∧ (settle (scanReports s)).bus.uplinkView ≠ .off
      ∧ (settle (scanReports s)).bus.receiveView ≠ .off ∧ (settle (scanReports s)).path.radioWanted = true := by
  have stays : scanReports s = takeoverSet .priority (restartPriority s) := by
    have cause : takeoverCause s = none := by simp [takeoverCause, ho]
    simp only [scanReports, hp, hv, cause, Option.getD_none, decide_true, Bool.and_true, if_true]
    exact enterTakeover_stays ha hb fun _ => by simp [restartPriority]
  rw [stays]
  have taken := takeoverSet_taken .priority (restartPriority s)
  obtain ⟨hno, _, hdetail⟩ := takeoverSet_asks .priority (restartPriority s) (by simp [restartPriority, hw]) hlen
  obtain ⟨htimer, _⟩ := takeoverSet_leaves .priority (restartPriority s)
  generalize takeoverSet .priority (restartPriority s) = u at *
  have kept := settle_keepsStart u
  have idle : (settle u).path.priorityTimer = u.path.priorityTimer := congrArg (·.1.1) (kept.idle taken.window).2
  refine ⟨by simp [taken.path], by rw [idle, htimer]; rfl, ?_, settle_scanStays (by simp [taken.path]) taken.scan,
    kept.uplink taken.uplink, kept.receive taken.receive, by simp [taken.wanted]⟩
  rw [kept.detail hno not_engineRaises_pathChange, hdetail]

/-! ### A gateway write of one word on the TXC word -/

theorem placeWords_one (a : Addr) (l : LaneWord) : placeWords a [l] = [(a.toNat / 4 * 4, l)] := by
  have first : wrapAddr (a.toNat / 4 * 4) = a.toNat / 4 * 4 := by
    have := a.isLt
    unfold wrapAddr Config.memoryBytes
    omega
  simp [placeWords, wordAddrs, first]

/-- A word written on the TXC word moves its shadow alone (R143). -/
theorem landWords_txc {m : MemoryMap} {l : LaneWord} {v : Word} {s : State} (hm : s.loader.map = some m) (hapart : watchedApart m)
    (hv : s.bus.shadows.txc = some v) : ∃ mem, landWords [(watchedAddr m .txc, l)] s
      = { s with sram := mem, bus.shadows.txc := some (mergeLanes v l) } := by
  refine ⟨memWriteWords s.sram [(watchedAddr m .txc, l)], ?_⟩
  simp only [List.nodup_cons, List.mem_cons, List.not_mem_nil, or_false, not_or] at hapart
  obtain ⟨⟨h1, _⟩, ⟨h2, h3, h4, h5⟩, _⟩ := hapart
  simp [landWords, hm, followAll, followWords, hv, Ne.symm h1, h2, h3, h4, h5]

theorem landWords_rxf {m : MemoryMap} {l : LaneWord} {v : Word} {s : State} (hm : s.loader.map = some m) (hapart : watchedApart m)
    (hv : s.bus.shadows.rxf = some v) : ∃ mem, landWords [(watchedAddr m .rxf, l)] s
      = { s with sram := mem, bus.shadows.rxf := some (mergeLanes v l) } := by
  refine ⟨memWriteWords s.sram [(watchedAddr m .rxf, l)], ?_⟩
  simp only [List.nodup_cons, List.mem_cons, List.not_mem_nil, or_false, not_or] at hapart
  obtain ⟨⟨_, _, h1, _⟩, ⟨_, h2, _⟩, ⟨h3, _⟩, ⟨h4, h5⟩, _⟩ := hapart
  simp [landWords, hm, followAll, followWords, hv, Ne.symm h1, Ne.symm h2, Ne.symm h3, h4, h5]

/-- With its one word on a watched word other than TXP and PGEN, a gateway write has no report by its requester, but for a U write on
RXF or in the transmit ring in FIBRE (R144). -/
theorem reportRequester_quiet {q : Requester} {m : MemoryMap} {w : Watched} {l : LaneWord} {before s : State} (hm : s.loader.map = some m)
    (hapart : watchedApart m) (hw : w = .txc ∨ w = .rxf)
    (hoff : s.path.path ≠ .fibre ∨ w = .txc ∧ inTxRing m (watchedAddr m w) = false) :
    reportRequester q [(watchedAddr m w, l)] before s = s := by
  have apart : watchedAddr m w ≠ watchedAddr m .txp ∧ watchedAddr m w ≠ watchedAddr m .pgen
      ∧ (w = .txc → watchedAddr m w ≠ watchedAddr m .rxf) := by
    simp only [List.nodup_cons, List.mem_cons, List.not_mem_nil, or_false, not_or] at hapart
    obtain ⟨⟨h1, h2, h3, _⟩, ⟨h4, h5, h6, h7⟩, ⟨_⟩, ⟨h8, h9⟩, _⟩ := hapart
    obtain rfl | rfl := hw
    · exact ⟨Ne.symm h1, h7, fun _ => h5⟩
    · exact ⟨Ne.symm h3, h9, by simp⟩
  obtain ⟨htxp, hpgen, hrxf⟩ := apart
  cases q
  case p => simp [reportRequester, covers, hm, htxp, hpgen]
  case o => rfl
  case u =>
    obtain hoff | ⟨rfl, hring⟩ := hoff
    · have untouched : rxfTouched s = s := by simp [rxfTouched, hoff]
      have one (v : Byte) : sampleTxe v s = s := by simp [sampleTxe, hoff]
      have unsampled (vs : List Byte) : vs.foldl (fun s v => sampleTxe v s) s = s := by
        induction vs with
        | nil => rfl
        | cons v vs ih => rw [List.foldl_cons, one, ih]
      simp [reportRequester, untouched, unsampled]
    · simp [reportRequester, covers, hm, hrxf, completionsIn, hring]

/-- A gateway write that changes the TXC count and that no guard drops: its landing and its one report (R144). -/
theorem carryWrite_txc {q : Requester} {a : Addr} {l : LaneWord} {m : MemoryMap} {v : Word} {s : State} (hm : s.loader.map = some m)
    (hapart : watchedApart m) (ha : onWatched m .txc a) (hg : q ≠ .u ∨ guardedBy s (watchedAddr m .txc) = none)
    (hoff : s.path.path ≠ .fibre ∨ inTxRing m (watchedAddr m .txc) = false) (hv : s.bus.shadows.txc = some v)
    (hc : countOf (mergeLanes v l) ≠ countOf v) :
    ∃ mem, carryWrite q a [l] s = txcChanged { s with sram := mem, bus.shadows.txc := some (mergeLanes v l) } := by
  obtain ⟨mem, hland⟩ := landWords_txc (l := l) hm hapart hv
  refine ⟨mem, ?_⟩
  have placed : placeWords a [l] = [(watchedAddr m .txc, l)] := by rw [placeWords_one, ha]
  have kept : carriedWords s q [(watchedAddr m .txc, l)] = [(watchedAddr m .txc, l)] := by
    obtain h | h := hg <;> simp [carriedWords, h]
  have dropped : droppedWords s q [(watchedAddr m .txc, l)] = [] := by
    obtain h | h := hg <;> simp [droppedWords, h]
  have changes : reportChanges s { s with sram := mem, bus.shadows.txc := some (mergeLanes v l) }
      = txcChanged { s with sram := mem, bus.shadows.txc := some (mergeLanes v l) } := by
    simp [reportChanges, countChanged, shadowCount, shadowWord, shadowOf, hv, Ne.symm hc]
  simp only [carryWrite, placed, kept, dropped, hland, changes, reportStale]
  exact reportRequester_quiet (by simpa using hm) hapart (.inl rfl) (by simpa using hoff)

/-- The same of the RXF word, off FIBRE. -/
theorem carryWrite_rxf {q : Requester} {a : Addr} {l : LaneWord} {m : MemoryMap} {v : Word} {s : State} (hm : s.loader.map = some m)
    (hapart : watchedApart m) (ha : onWatched m .rxf a) (hg : q ≠ .u ∨ guardedBy s (watchedAddr m .rxf) = none)
    (hoff : s.path.path ≠ .fibre) (hv : s.bus.shadows.rxf = some v) (hc : countOf (mergeLanes v l) ≠ countOf v) :
    ∃ mem, carryWrite q a [l] s = rxfChanged { s with sram := mem, bus.shadows.rxf := some (mergeLanes v l) } := by
  obtain ⟨mem, hland⟩ := landWords_rxf (l := l) hm hapart hv
  refine ⟨mem, ?_⟩
  have placed : placeWords a [l] = [(watchedAddr m .rxf, l)] := by rw [placeWords_one, ha]
  have kept : carriedWords s q [(watchedAddr m .rxf, l)] = [(watchedAddr m .rxf, l)] := by
    obtain h | h := hg <;> simp [carriedWords, h]
  have dropped : droppedWords s q [(watchedAddr m .rxf, l)] = [] := by
    obtain h | h := hg <;> simp [droppedWords, h]
  have changes : reportChanges s { s with sram := mem, bus.shadows.rxf := some (mergeLanes v l) }
      = rxfChanged { s with sram := mem, bus.shadows.rxf := some (mergeLanes v l) } := by
    simp [reportChanges, countChanged, shadowCount, shadowWord, shadowOf, hv, Ne.symm hc]
  simp only [carryWrite, placed, kept, dropped, hland, changes, reportStale]
  exact reportRequester_quiet (by simpa using hm) hapart (.inr rfl) (.inl (by simpa using hoff))

/-- The mark moved to the TXC shadow, and the read that waited for room withdrawn; the next one waits in its place, if one is due
(R63, log 47). -/
theorem settle_txcChanged_scan {c k : Count} {s : State} (hw : scanWanted s = true) (hr : s.ring.scanRunning = true)
    (hk : s.ring.scanMark = some k) (hwait : s.bus.waiting = [.scanRead k]) (hfull : s.bus.queue.length = 8)
    (hc : shadowCount s .txc = c) (hbehind : 32768 ≤ dist c k) :
    (settle (txcChanged s)).ring.scanMark = some c ∧ (settle (txcChanged s)).bus.queue = s.bus.queue
      ∧ ((settle (txcChanged s)).bus.waiting = [] ∧ (settle (txcChanged s)).ring.scanRead = none
        ∨ (settle (txcChanged s)).bus.waiting = [.scanRead c] ∧ (settle (txcChanged s)).ring.scanRead = some ⟨c, false⟩) := by
  have fibre : s.path.path = .fibre ∧ softResetStands s = false := by
    simp only [scanWanted, Bool.and_eq_true, beq_iff_eq, Bool.not_eq_true'] at hw
    exact ⟨hw.1.1.1.1, hw.2⟩
  obtain ⟨hp, hsoft⟩ := fibre
  have moved : txcChanged s = checkTxOverrun { s with bus.waiting := [], ring.scanMark := some c, ring.scanRead := none } := by
    simp [txcChanged, scanFollowsTxc, hr, hk, isBehind, hc, hbehind, moveScanMark, withdrawScanRead, hwait, isScanRead,
      checkTxRelease, holdsRings, hp]
  generalize hu : txcChanged s = u
  rw [hu] at moved
  have hwu : u.bus.waiting = [] := by simp [moved]
  have hqu : u.bus.queue = s.bus.queue := by simp [moved]
  have hmu : u.ring.scanMark = some c := by simp [moved]
  have hru : u.ring.scanRead = none := by simp [moved]
  have hwanted : scanWanted u = true := by simpa [moved, scanWanted, softResetStands] using hw
  have hpu : u.path.path = .fibre := by simp [moved, hp]
  have hrun : u.ring.scanRunning = true := by simp [moved, hr]
  have undelivered : judgeDelivery u = u := by simp [judgeDelivery, mayDeliver, hpu]
  have full (w : State) (hq : w.bus.queue = s.bus.queue) : issueAll w = w := by
    simp only [issueAll, pump]
    split <;> simp [hq, hfull, Config.queuePlaces]
  have unasked (w : State) (hpw : w.path.path = .fibre) (hsw : w.loader.softReset = s.loader.softReset) : tryHandBack w = w := by
    have : s.loader.softReset ≠ .completing := by
      intro h
      simp [softResetStands, h] at hsoft
    simp [tryHandBack, hpw, hsw, this]
  have ended : settle u = evalDoze (scanNext u) := by
    rw [settle, issueAll_idle hwu, undelivered, evalScan, if_pos hwanted, if_pos hrun, full (scanNext u) (by simp [hqu]),
      unasked _ (by simp [hpu]) (by simp [moved]), full (scanNext u) (by simp [hqu])]
  rw [ended]
  refine ⟨by simp [hmu], by simp [hqu], ?_⟩
  simp only [evalDoze_frame, scanNext]
  split
  · exact .inr ⟨by simp [hwu, hmu], by simp [hmu]⟩
  · exact .inl ⟨hwu, hru⟩

theorem guardedBy_unguarded {a : Nat} {s : State} (htx : s.bus.txGuard = false) (hrx : s.bus.rxGuard = false) : guardedBy s a = none := by
  unfold guardedBy
  split <;> simp [htx, hrx]

/-- A gateway write presented when the master has no turn (R151). -/
theorem gatewayTransfer_write {q : Requester} {a : Addr} {ws : List LaneWord} {s : State} (h : masterTurn s = false) :
    gatewayTransfer q (.write a ws) s = settle (carryWrite q a ws (grantGateway s)) := by simp [gatewayTransfer, masterFirst, h]

/-- Settles O32: the class read's return takes over by `settle_scanReports`, and a TXC write past the mark moves it by
`settle_txcChanged_scan`. -/
theorem priorityScanTakesOver : Obligations.PriorityScanTakesOver := by
  refine ⟨?_, ?_⟩
  · intro pos a len rest s hq hread hp hv ho ha hb hw hlen
    refine ⟨_, exec_priorityScanReadReturn hq, fun hclass => ?_, fun hclass => ?_⟩
    · simp only [scanReturns, hread, hclass, Bool.false_eq_true, if_false, if_true]
      exact settle_scanReports hp hv ho ha hb hw hlen
    · simp only [scanReturns, hread, hclass, Bool.false_eq_true, if_false]
      refine ⟨?_, fun hmark hrun hwanted => ?_⟩
      · split <;> simp [hp]
      · simp only [hmark, if_true]
        exact settle_scanMark hwanted hrun
  · intro q a l m v c k s hm hapart ha hturn hring hguard hwanted hrun hk hread hwait hfull he hv hc hne hbehind
    have unguarded : q ≠ .u ∨ guardedBy (grantGateway s) (watchedAddr m .txc) = none :=
      hguard.imp_right fun ⟨htx, hrx⟩ => guardedBy_unguarded htx hrx
    obtain ⟨mem, hcarry⟩ := carryWrite_txc (s := grantGateway s) hm hapart ha unguarded (.inr hring) hv (hc ▸ hne)
    have hexec : exec (.txcWordWrite q a [l]) s = .next (settle (carryWrite q a [l] (grantGateway s))) :=
      congrArg Host.Outcome.next (gatewayTransfer_write hturn)
    refine ⟨_, hexec, ?_⟩
    rw [hcarry]
    exact settle_txcChanged_scan hwanted hrun hk hwait hfull (by simp [shadowCount, shadowWord, shadowOf, hc]) hbehind

end Sys2Proof.Machine
end

section
/-! Work that moves no consumer count: while only reads and the hand-back's write wait for the master, the standing work moves
neither ring (R55, R57, R128, R150). The release by the MAC's own writes (R9). -/

-- One theorem at a time, as in the model's laws: the threads of many at once would not fit the memory a check has.
set_option Elab.async false

namespace Sys2Proof.Machine

/-! ### Requests whose issue moves no count -/

/-- The requests whose issue no block acts on, but for the hand-back's write, which empties the window (R61). -/
def calmRequest : Purpose → Bool
  | .descriptorRead _ _ => true
  | .scanRead _ => true
  | .frameRead _ => true
  | .receiveDescriptorRead => true
  | .txcHandBack => true
  | .shadowRead _ => false
  | .completion _ _ => false
  | .txcAdvance => false
  | .txcForced => false
  | .bufferWrite => false
  | .receiveStatus => false
  | .abandonedEmpty _ => false
  | .rxfDelivery => false
  | .rxfCatchUp => false
  | .rxfForced => false
  | .eventRecord => false
  | .evpWrite => false
  | .pageHalf _ _ => false
  | .policyRead _ => false

/-- What an entry brings of its descriptor (R52). -/
def entryKey (e : Entry) : Count × Byte × Nat × Addr × Nat := (e.pos, e.cls, e.length, e.addr, e.cellsNeed)

/-- The registers of both rings' consumer side stand. -/
structure RingsStand (s t : State) : Prop where
  partTxc : t.ring.partTxc = s.ring.partTxc
  base : t.ring.base = s.ring.base
  partRxf : t.ring.partRxf = s.ring.partRxf
  fillCursor : t.ring.fillCursor = s.ring.fillCursor

theorem RingsStand.refl (s : State) : RingsStand s s := by constructor <;> rfl

theorem RingsStand.trans {s t u : State} (h : RingsStand s t) (h' : RingsStand t u) : RingsStand s u where
  partTxc := h'.partTxc.trans h.partTxc
  base := h'.base.trans h.base
  partRxf := h'.partRxf.trans h.partRxf
  fillCursor := h'.fillCursor.trans h.fillCursor

/-- No hand-back is due or asked for (R19, R24). -/
abbrev NoHandBack (s : State) : Prop :=
  .txcHandBack ∉ s.bus.waiting ∧ s.path.phase ≠ some .closing ∧ s.loader.softReset ≠ .completing

/-- With only calm requests waiting, only calm requests are asked for, and the rings stand; without a hand-back the window's entries
stand, their takes apart. -/
structure CalmKeeps (s t : State) : Prop where
  calm : (∀ p ∈ s.bus.waiting, calmRequest p = true) → (∀ p ∈ t.bus.waiting, calmRequest p = true) ∧ RingsStand s t
  window : (∀ p ∈ s.bus.waiting, calmRequest p = true) → NoHandBack s → NoHandBack t ∧ t.ring.window.map entryKey = s.ring.window.map entryKey

namespace CalmKeeps

theorem refl (s : State) : CalmKeeps s s := ⟨fun h => ⟨h, .refl s⟩, fun _ h => ⟨h, rfl⟩⟩

theorem trans {s t u : State} (h : CalmKeeps s t) (h' : CalmKeeps t u) : CalmKeeps s u where
  calm hs := by
    obtain ⟨ht, hst⟩ := h.calm hs
    obtain ⟨hu, htu⟩ := h'.calm ht
    exact ⟨hu, hst.trans htu⟩
  window hs hno := by
    obtain ⟨ht, hst⟩ := h.window hs hno
    obtain ⟨hu, htu⟩ := h'.window (h.calm hs).1 ht
    exact ⟨hu, htu.trans hst⟩

/-- What asks for reads alone and moves neither ring nor what an entry brings. -/
theorem of_asks {s t : State} {ps : List Purpose} (hw : t.bus.waiting = s.bus.waiting ++ ps)
    (hp : ∀ p ∈ ps, calmRequest p = true ∧ p ≠ .txcHandBack)
    (hr : RingsStand s t := by constructor <;> simp) (hwin : t.ring.window.map entryKey = s.ring.window.map entryKey := by simp)
    (hphase : t.path.phase = s.path.phase := by simp) (hsoft : t.loader.softReset = s.loader.softReset := by simp) : CalmKeeps s t := by
  refine ⟨fun hs => ⟨fun p hmem => ?_, hr⟩, fun _ ⟨hb, hph, hso⟩ => ⟨⟨fun hmem => ?_, hphase ▸ hph, hsoft ▸ hso⟩, hwin⟩⟩
  · rw [hw, List.mem_append] at hmem
    exact hmem.elim (hs p) fun h => (hp p h).1
  · rw [hw, List.mem_append] at hmem
    exact hmem.elim hb fun h => (hp _ h).2 rfl

/-- What asks for nothing. -/
theorem of_eq {s t : State} (hw : t.bus.waiting = s.bus.waiting := by simp)
    (hr : RingsStand s t := by constructor <;> simp) (hwin : t.ring.window.map entryKey = s.ring.window.map entryKey := by simp)
    (hphase : t.path.phase = s.path.phase := by simp) (hsoft : t.loader.softReset = s.loader.softReset := by simp) : CalmKeeps s t :=
  of_asks (ps := []) (by simpa using hw) (by simp) hr hwin hphase hsoft

theorem foldl {β : Type} {g : State → β → State} (hg : ∀ s a, CalmKeeps s (g s a)) (l : List β) (s : State) : CalmKeeps s (l.foldl g s) := by
  induction l generalizing s with
  | nil => exact refl s
  | cons a l ih => exact (hg s a).trans (ih _)

end CalmKeeps

/-! ### Takes and deliveries -/

theorem map_entryKey_update {pos : Count} {f : Entry → Entry} (hf : ∀ e, entryKey (f e) = entryKey e) (l : List Entry) :
    (l.map fun e => if e.pos = pos then f e else e).map entryKey = l.map entryKey := by
  rw [List.map_map]
  refine List.map_congr_left fun e _ => ?_
  simp only [Function.comp]
  split
  · exact hf e
  · rfl

theorem beginTake_waiting (e : Entry) (c : FrameClass) (s : State) :
    (beginTake e c s).bus.waiting = s.bus.waiting ++ [.frameRead e.pos] := by
  simp only [beginTake]
  split <;> simp

theorem beginTake_keys (e : Entry) (c : FrameClass) (s : State) :
    (beginTake e c s).ring.window.map entryKey = s.ring.window.map entryKey := by
  have same : (beginTake e c s).ring.window = s.ring.window.map fun x => if x.pos = e.pos then { x with st := .taking } else x := by
    simp only [beginTake]
    split <;> simp [updateEntry]
  rw [same]
  exact map_entryKey_update (f := fun x => { x with st := .taking }) (fun _ => rfl) _

theorem judgeEntry_calm (s : State) (e : Entry) : CalmKeeps s (judgeEntry s e) := by
  have taken (c : FrameClass) : CalmKeeps s (beginTake e c s) :=
    .of_asks (beginTake_waiting e c s) (by simp [calmRequest]) (hwin := beginTake_keys e c s)
  unfold judgeEntry
  (repeat' split) <;> first | exact taken _ | exact .refl _

theorem judgePending_calm (s : State) : CalmKeeps s (judgePending s) := .foldl judgeEntry_calm _ s

theorem freeCells_calm (cells : List Nat) (s : State) : CalmKeeps s (freeCells cells s) := by
  unfold freeCells
  split
  · exact .refl s
  · exact .trans .of_eq (judgePending_calm _)

theorem freeRecord_calm (r : FrameRecord) (s : State) : CalmKeeps s (freeRecord r s) := by
  unfold freeRecord
  split
  · exact .of_eq
  · exact freeCells_calm _ _

theorem loseRecord_calm (reason : LossReason) (r : FrameRecord) (s : State) : CalmKeeps s (loseRecord reason r s) :=
  .trans (t := reportLoss reason r s) .of_eq (freeRecord_calm r _)

theorem loseAll_calm (reason : LossReason) (rs : List FrameRecord) (s : State) : CalmKeeps s (loseAll reason rs s) :=
  .foldl (fun s r => loseRecord_calm reason r s) rs s

theorem dropOldDqV_calm (s : State) : CalmKeeps s (dropOldDqV s) :=
  .trans (t := { s with hold.dqV := s.hold.dqV.dropWhile (voiceTooOld s) }) .of_eq (loseAll_calm _ _ _)

theorem judgeDelivery_calm (s : State) : CalmKeeps s (judgeDelivery s) := by
  have begun (r : FrameRecord) (u : State) : CalmKeeps u (beginDelivery r u) :=
    .of_asks (ps := [.receiveDescriptorRead]) (by simp [beginDelivery]) (by simp [calmRequest])
  unfold judgeDelivery
  dsimp only
  (repeat' split)
  · exact (dropOldDqV_calm s).trans (.trans .of_eq (begun _ _))
  · exact (dropOldDqV_calm s).trans (.trans .of_eq (begun _ _))
  · exact dropOldDqV_calm s
  · exact .refl s

/-! ### The standing work -/

theorem withdrawScanRead_calm (s : State) : CalmKeeps s (withdrawScanRead s) := by
  unfold withdrawScanRead
  split
  · refine ⟨fun hs => ⟨fun p hmem => hs p (List.mem_of_mem_filter hmem), by constructor <;> rfl⟩, fun _ ⟨hb, hph, hso⟩ => ⟨⟨?_, hph, hso⟩, rfl⟩⟩
    exact fun hmem => hb (List.mem_of_mem_filter hmem)
  · exact .refl s

theorem scanNext_calm (s : State) : CalmKeeps s (scanNext s) := by
  simp only [scanNext]
  split
  · exact .of_asks (ps := [.scanRead (s.ring.scanMark.getD 0)]) (by simp) (by simp [calmRequest])
  · exact .refl s

theorem evalScan_calm (s : State) : CalmKeeps s (evalScan s) := by
  unfold evalScan
  (repeat' split)
  · exact scanNext_calm s
  · exact .trans (t := startScan s) (.of_eq rfl (by constructor <;> rfl) rfl rfl rfl) (scanNext_calm _)
  · exact (withdrawScanRead_calm s).trans (.of_eq rfl (by constructor <;> rfl) rfl rfl rfl)
  · exact .refl s

theorem tryHandBack_calm (s : State) : CalmKeeps s (tryHandBack s) := by
  unfold tryHandBack
  split
  · rename_i h
    refine ⟨fun hs => ⟨fun p hmem => ?_, by constructor <;> rfl⟩, fun _ ⟨_, hph, hso⟩ => absurd h (by simp [hph, hso])⟩
    simp only [request_bus_waiting, List.mem_append, List.mem_singleton] at hmem
    obtain hin | rfl := hmem
    · exact hs p hin
    · rfl
  · exact .refl s

/-- The issue of a calm request moves at most the window, which the hand-back's write empties (R61). -/
theorem onIssue_calm {p : Purpose} (hp : calmRequest p = true) (s : State) :
    onIssue p s = s ∨ p = .txcHandBack ∧ onIssue p s = { s with ring.window := [], ring.overrun := false } := by
  cases p
  case txcHandBack => exact .inr ⟨rfl, rfl⟩
  all_goals first | exact .inl rfl | simp [calmRequest] at hp

theorem issueOne_calm {s : State} {p : Purpose} {rest : List Purpose} (hw : s.bus.waiting = p :: rest) : CalmKeeps s (issueOne p rest s) := by
  have left (t : State) (ht : t.bus.waiting = rest) (hr : RingsStand s t) (hwin : t.ring.window = s.ring.window ∨ p = .txcHandBack)
      (hphase : t.path.phase = s.path.phase) (hsoft : t.loader.softReset = s.loader.softReset) : CalmKeeps s t := by
    refine ⟨fun hs => ⟨fun q hq => hs q (hw ▸ List.mem_cons_of_mem _ (ht ▸ hq)), hr⟩, fun _ ⟨hb, hph, hso⟩ => ⟨⟨?_, hphase ▸ hph, hsoft ▸ hso⟩, ?_⟩⟩
    · exact fun hmem => hb (hw ▸ List.mem_cons_of_mem _ (ht ▸ hmem))
    · obtain h | rfl := hwin
      · rw [h]
      · exact absurd (by simp [hw]) hb
  by_cases hp : calmRequest p = true
  · simp only [issueOne]
    (repeat' split)
    · exact left _ rfl (by constructor <;> rfl) (.inl rfl) rfl rfl
    · exact left _ rfl (by constructor <;> rfl) (.inl rfl) rfl rfl
    · rename_i x _
      obtain h | ⟨hback, h⟩ := onIssue_calm hp { s with bus.waiting := rest, bus.queue := s.bus.queue ++ [⟨p, x⟩] }
      · rw [h]
        exact left _ rfl (by constructor <;> rfl) (.inl rfl) rfl rfl
      · rw [h]
        exact left _ rfl (by constructor <;> rfl) (.inr hback) rfl rfl
  · exact ⟨fun hs => absurd (hs p (by simp [hw])) hp, fun hs => absurd (hs p (by simp [hw])) hp⟩

theorem pump_calm (n : Nat) (s : State) : CalmKeeps s (pump n s) := by
  induction n generalizing s with
  | zero => exact .refl s
  | succ n ih =>
    unfold pump
    split
    · exact .refl s
    · split
      · exact (issueOne_calm ‹_›).trans (ih _)
      · exact .refl s

theorem evalDoze_calm (s : State) : CalmKeeps s (evalDoze s) := .of_eq

/-- The standing work from any state its first issues pass through. -/
theorem settle_calm {s v : State} {n : Nat} (h : issueAll s = pump n v) : CalmKeeps v (settle s) :=
  settle_of_steps .trans pump_calm judgeDelivery_calm evalScan_calm tryHandBack_calm evalDoze_calm h

/-! ### Releases without a forced one -/

/-- The registers of a release, at rest. -/
structure ReleaseStands (s t : State) : Prop where
  uplinkView : t.bus.uplinkView = s.bus.uplinkView
  receiveView : t.bus.receiveView = s.bus.receiveView
  uplinkValue : t.bus.uplinkViewValue = s.bus.uplinkViewValue
  receiveValue : t.bus.receiveViewValue = s.bus.receiveViewValue
  timer : t.path.releaseTimer = s.path.releaseTimer
  tx : t.path.txReleased = s.path.txReleased
  rx : t.path.rxReleased = s.path.rxReleased

theorem ReleaseStands.trans {s t u : State} (h : ReleaseStands s t) (h' : ReleaseStands t u) : ReleaseStands s u where
  uplinkView := h'.uplinkView.trans h.uplinkView
  receiveView := h'.receiveView.trans h.receiveView
  uplinkValue := h'.uplinkValue.trans h.uplinkValue
  receiveValue := h'.receiveValue.trans h.receiveValue
  timer := h'.timer.trans h.timer
  tx := h'.tx.trans h.tx
  rx := h'.rx.trans h.rx

/-- No forced release waits for its consumer write (R10). -/
abbrev Unforced (s : State) : Prop := .txcForced ∉ s.bus.waiting ∧ .rxfForced ∉ s.bus.waiting

/-- The engines force no release, so the registers of a release stand (R10). -/
structure KeepsUnforced (s t : State) : Prop extends EngineKeeps s t where
  release : Unforced s → ReleaseStands s t

theorem EngineAsks.unforced {s t : State} (h : EngineAsks s t) (hs : Unforced s) : Unforced t := by
  refine ⟨fun ht => ?_, fun ht => ?_⟩
  · exact (h.asked _ ht).elim hs.1 (by simp [engineAsks])
  · exact (h.asked _ ht).elim hs.2 (by simp [engineAsks])

namespace KeepsUnforced

theorem refl (s : State) : KeepsUnforced s s := ⟨.refl s, fun _ => by constructor <;> rfl⟩

theorem trans {s t u : State} (h : KeepsUnforced s t) (h' : KeepsUnforced t u) : KeepsUnforced s u :=
  ⟨h.toEngineKeeps.trans h'.toEngineKeeps, fun hs => (h.release hs).trans (h'.release (h.unforced hs))⟩

theorem of_engine {s t : State} (h : EngineKeeps s t) (hr : ReleaseStands s t := by constructor <;> simp) : KeepsUnforced s t :=
  ⟨h, fun _ => hr⟩

end KeepsUnforced

theorem onIssue_release {p : Purpose} (htx : p ≠ .txcForced) (hrx : p ≠ .rxfForced) (s : State) : ReleaseStands s (onIssue p s) := by
  unfold onIssue
  split
  case h_3 => contradiction
  case h_9 => contradiction
  all_goals constructor <;> simp

theorem issueOne_unforced {s : State} {p : Purpose} {rest : List Purpose} (hw : s.bus.waiting = p :: rest) :
    KeepsUnforced s (issueOne p rest s) := by
  have keeps := issueOne_engineKeeps hw
  revert keeps
  simp only [issueOne]
  (repeat' split) <;> intro keeps
  · exact .of_engine keeps (by constructor <;> rfl)
  · exact .of_engine keeps (by constructor <;> rfl)
  · refine ⟨keeps, fun ⟨htx, hrx⟩ => ReleaseStands.trans ?_ (onIssue_release ?_ ?_ _)⟩
    · constructor <;> rfl
    · exact fun h => htx (by simp [hw, h])
    · exact fun h => hrx (by simp [hw, h])

theorem pump_unforced (n : Nat) (s : State) : KeepsUnforced s (pump n s) := by
  induction n generalizing s with
  | zero => exact .refl s
  | succ n ih =>
    unfold pump
    split
    · exact .refl s
    · split
      · exact (issueOne_unforced ‹_›).trans (ih _)
      · exact .refl s

theorem settle_unforced (s : State) : KeepsUnforced s (settle s) :=
  settle_of_steps .trans pump_unforced (fun s => .of_engine (judgeDelivery_engineKeeps s)) (fun s => .of_engine (evalScan_engineKeeps s))
    (fun s => .of_engine (tryHandBack_engineKeeps s)) (fun s => .of_engine (evalDoze_engineKeeps s)) (n := 64) rfl

/-! ### The release by the MAC's own writes -/

theorem readAhead_calm (s : State) : CalmKeeps s (readAhead s) := by
  simp only [readAhead]
  split
  · exact .of_asks (ps := [_]) rfl (by simp [calmRequest])
  · exact .refl s

theorem checkTxOverrun_calm (s : State) : CalmKeeps s (checkTxOverrun s) := .of_eq

theorem checkRxOverrun_calm (s : State) : CalmKeeps s (checkRxOverrun s) := .of_eq

/-- With no class read waiting for room the scan's mark alone follows TXC (R63). -/
theorem scanFollowsTxc_unasked {s : State} (hw : s.bus.waiting = []) : ∃ k, scanFollowsTxc s = { s with ring.scanMark := k } := by
  unfold scanFollowsTxc
  split
  · exact ⟨_, by rw [moveScanMark, withdrawScanRead_idle (by simp [hw])]⟩
  · exact ⟨s.ring.scanMark, rfl⟩

/-- The ring released by its own write, before the agent goes on (R9). -/
def txReleasedNow (s : State) : State := setTxReleased { s with bus.txGuard := true }

theorem checkTxRelease_releases {s : State} (hr : holdsRings s = true) (hrel : s.path.txReleased = false) (hf : s.ring.txForcing = false)
    (hh : some (shadowCount s .txc) = s.bus.fixedH) : checkTxRelease s = afterTxRelease (txReleasedNow s) := by
  simp [checkTxRelease, hr, hrel, hf, hh, completeTx, txReleasedNow]

/-- The report of a TXC count at H, with the ring neither released nor being released by force (R9, R50). -/
theorem txcChanged_releases {s : State} (hr : holdsRings s = true) (hrel : s.path.txReleased = false) (hf : s.ring.txForcing = false)
    (hh : some (shadowCount s .txc) = s.bus.fixedH) (hw : s.bus.waiting = []) :
    ∃ k, txcChanged s = checkTxOverrun (afterTxRelease (txReleasedNow { s with ring.scanMark := k })) := by
  obtain ⟨k, hk⟩ := scanFollowsTxc_unasked hw
  refine ⟨k, ?_⟩
  have released : checkTxRelease (scanFollowsTxc s) = afterTxRelease (txReleasedNow { s with ring.scanMark := k }) := by
    rw [hk]
    exact checkTxRelease_releases hr hrel hf hh
  rw [← released]
  rfl

theorem rxfChanged_releases {s : State} (hr : holdsRings s = true) (hrel : s.path.rxReleased = false) (hf : s.ring.rxForcing = false)
    (hg : some (shadowCount s .rxf) = s.bus.fixedG) :
    rxfChanged s = checkRxOverrun (afterRxRelease (setRxReleased { s with bus.rxGuard := true })) := by
  simp [rxfChanged, checkRxRelease, hr, hrel, hf, hg, completeRx]

/-- What own-write release sets (R9, R147). -/
theorem txReleasedNow_sets (s : State) : (txReleasedNow s).path.txReleased = true ∧ (txReleasedNow s).bus.txGuard = true
    ∧ (txReleasedNow s).bus.uplinkView = .following ∧ (txReleasedNow s).bus.uplinkViewValue = s.bus.fixedH
    ∧ (txReleasedNow s).ring.partTxc = s.bus.fixedH ∧ (txReleasedNow s).ring.base = s.bus.fixedH
    ∧ (txReleasedNow s).path.releaseTimer = (if s.path.rxReleased then none else s.path.releaseTimer)
    ∧ (txReleasedNow s).path.rxReleased = s.path.rxReleased ∧ (txReleasedNow s).bus.waiting = s.bus.waiting
    ∧ (txReleasedNow s).bus.queue = s.bus.queue ∧ (txReleasedNow s).ring.window = s.ring.window ∧ (txReleasedNow s).power = s.power
    ∧ (txReleasedNow s).loader = s.loader ∧ (txReleasedNow s).path.phase = s.path.phase ∧ (txReleasedNow s).path.path = s.path.path := by
  unfold txReleasedNow setTxReleased stopReleaseTimer
  cases hrx : s.path.rxReleased <;> simp [hrx]

theorem readAhead_asks (s : State) : ∃ ps, (readAhead s).bus.waiting = s.bus.waiting ++ ps ∧ ∀ p ∈ ps, calmRequest p = true ∧ p ≠ .txcHandBack := by
  simp only [readAhead]
  split
  · exact ⟨[_], rfl, by simp [calmRequest]⟩
  · exact ⟨[], by simp, by simp⟩

/-- The registers of the released ring stand to the command's end (R9). -/
theorem settle_txReleased_stands {s : State} (hw : s.bus.waiting = []) :
    ReleaseStands (txReleasedNow s) (settle (checkTxOverrun (afterTxRelease (txReleasedNow s)))) := by
  obtain ⟨_, _, _, _, _, _, _, _, hwait, _⟩ := txReleasedNow_sets s
  have kept : KeepsUnforced (txReleasedNow s) (checkTxOverrun (afterTxRelease (txReleasedNow s))) :=
    .of_engine ((afterTxRelease_engineKeeps _).trans (checkTxOverrun_engineKeeps _))
  exact (kept.trans (settle_unforced _)).release (by simp [Unforced, hwait, hw])

/-- With no DONE run, or in DOZE, base and part's TXC stay at H (R57, R66). -/
theorem settle_txReleased_unadvanced {h : Count} {s : State} (hh : s.bus.fixedH = some h) (hw : s.bus.waiting = [])
    (hph : s.path.phase ≠ some .closing) (hso : s.loader.softReset ≠ .completing) (hn : doneCount s = 0 ∨ s.power.mode = .doze) :
    let t := settle (checkTxOverrun (afterTxRelease (txReleasedNow s)))
    t.ring.partTxc = some h ∧ t.ring.base = some h ∧ t.ring.window.map entryKey = s.ring.window.map entryKey := by
  obtain ⟨_, _, _, _, hpart, hbase, _, _, hwait, _, hwin, hpower, hloader, hphase, _⟩ := txReleasedNow_sets s
  have unadvanced : tryAdvance (checkTxOverrun (txReleasedNow s)) = checkTxOverrun (txReleasedNow s) := by
    obtain hn | hn := hn
    · have : doneCount (checkTxOverrun (txReleasedNow s)) = 0 := by simpa [doneCount, hwin] using hn
      simp [tryAdvance, this]
    · simp [tryAdvance, enginesRun, hpower, hn]
  have kept : CalmKeeps (txReleasedNow s) (settle (checkTxOverrun (afterTxRelease (txReleasedNow s)))) := by
    refine CalmKeeps.trans ?_ (settle_calm (n := 64) rfl)
    rw [afterTxRelease, unadvanced]
    exact (checkTxOverrun_calm _).trans ((readAhead_calm _).trans (checkTxOverrun_calm _))
  obtain ⟨_, stands⟩ := kept.calm (by simp [hwait, hw])
  obtain ⟨_, window⟩ := kept.window (by simp [hwait, hw]) ⟨by simp [hwait, hw], by rw [hphase]; exact hph, by rw [hloader]; exact hso⟩
  exact ⟨by rw [stands.partTxc, hpart, hh], by rw [stands.base, hbase, hh], by rw [window, hwin]⟩

/-- Past a DONE run one write of TXC is issued, and base and part's TXC stand past it (R57). -/
theorem settle_txReleased_advances {m : MemoryMap} {h : Count} {s : State} (hm : s.loader.map = some m) (hh : s.bus.fixedH = some h)
    (hw : s.bus.waiting = []) (hph : s.path.phase ≠ some .closing) (hso : s.loader.softReset ≠ .completing) (hn : doneCount s ≠ 0)
    (he : s.power.mode ≠ .doze) (hq : s.bus.queue.length ≤ 7) :
    let t := settle (checkTxOverrun (afterTxRelease (txReleasedNow s)))
    t.ring.partTxc = some (advance h (doneCount s)) ∧ t.ring.base = some (advance h (doneCount s))
      ∧ t.ring.window.map entryKey = (s.ring.window.drop (doneCount s)).map entryKey
      ∧ ⟨.txcAdvance, .write (addrOf (watchedAddr m .txc)) [⟨(advance h (doneCount s)).setWidth 32, 15⟩]⟩ ∈ t.bus.queue := by
  obtain ⟨hrel, _, _, _, hpart, hbase, _, _, hwait, hqueue, hwin, hpower, hloader, hphase, _⟩ := txReleasedNow_sets s
  have count (u : State) (hu : u.ring.window = s.ring.window) : doneCount u = doneCount s := by simp [doneCount, hu]
  have asked : tryAdvance (checkTxOverrun (txReleasedNow s)) = request .txcAdvance (checkTxOverrun (txReleasedNow s)) := by
    have := count (checkTxOverrun (txReleasedNow s)) (by simp [hwin])
    simp [tryAdvance, enginesRun, hpower, he, hrel, this, hn, hwait, hw]
  intro t
  obtain ⟨Y, hY, hcalm⟩ := readAhead_asks (request .txcAdvance (checkTxOverrun (txReleasedNow s)))
  have hU : checkTxOverrun (afterTxRelease (txReleasedNow s))
      = checkTxOverrun (readAhead (request .txcAdvance (checkTxOverrun (txReleasedNow s)))) := by rw [afterTxRelease, asked]
  have ht : t = settle (checkTxOverrun (readAhead (request .txcAdvance (checkTxOverrun (txReleasedNow s))))) := by rw [← hU]
  clear_value t
  generalize hu : checkTxOverrun (readAhead (request .txcAdvance (checkTxOverrun (txReleasedNow s)))) = u at ht
  have hwu : u.bus.waiting = .txcAdvance :: Y := by simp [← hu, hY, hwait, hw]
  have hmu : u.loader.map = some m := by simp [← hu, hloader, hm]
  have hbu : u.ring.base = some h := by simp [← hu, hbase, hh]
  have hwinu : u.ring.window = s.ring.window := by simp [← hu, hwin]
  have hform : formTransfer { u with bus.waiting := Y } m .txcAdvance
      = some (.write (addrOf (watchedAddr m .txc)) [⟨(advance h (doneCount s)).setWidth 32, 15⟩]) := by
    have hrelu : u.path.txReleased = true := by simp [← hu, hrel]
    have := count { u with bus.waiting := Y } hwinu
    simp [formTransfer, hrelu, this, hn, hbu, indexWord]
  have hissue : issueAll u = pump 63 (advanceIssued { u with
      bus.waiting := Y
      bus.queue := u.bus.queue ++ [⟨.txcAdvance, .write (addrOf (watchedAddr m .txc)) [⟨(advance h (doneCount s)).setWidth 32, 15⟩]⟩] }) := by
    rw [issueAll, pump_cons 63 hwu (by simpa [← hu, hqueue] using hq) (by simpa [← hu, hpower] using he), issueOne_formed hmu hform]
    rfl
  generalize hv : ({ u with
      bus.waiting := Y
      bus.queue := u.bus.queue ++ [⟨.txcAdvance, .write (addrOf (watchedAddr m .txc)) [⟨(advance h (doneCount s)).setWidth 32, 15⟩]⟩] } : State)
      = v at hissue
  have hcount : doneCount v = doneCount s := count v (by rw [← hv]; exact hwinu)
  have hbv : v.ring.base = some h := by rw [← hv]; exact hbu
  have hwv : v.ring.window = s.ring.window := by rw [← hv]; exact hwinu
  generalize hx : ({ v with
      ring.window := v.ring.window.drop (doneCount v)
      ring.base := some (advance (v.ring.base.getD 0) (doneCount v))
      ring.partTxc := some (advance (v.ring.base.getD 0) (doneCount v)) } : State) = x
  have hadv : advanceIssued v = readAhead (checkTxOverrun x) := by rw [← hx]; rfl
  rw [hadv] at hissue
  have kept : CalmKeeps x t := by
    rw [ht]
    exact ((checkTxOverrun_calm x).trans (readAhead_calm _)).trans (settle_calm hissue)
  have hwx : x.bus.waiting = Y := by simp [← hx, ← hv]
  have calm : ∀ p ∈ x.bus.waiting, calmRequest p = true := fun p hp => (hcalm p (hwx ▸ hp)).1
  obtain ⟨_, stands⟩ := kept.calm calm
  obtain ⟨_, window⟩ := kept.window calm ⟨fun hmem => (hcalm _ (hwx ▸ hmem)).2 rfl, by simpa [← hx, ← hv, ← hu, hphase] using hph,
    by simpa [← hx, ← hv, ← hu, hloader] using hso⟩
  have engine : EngineKeeps x t := by
    rw [ht]
    exact ((checkTxOverrun_engineKeeps x).trans (readAhead_engineKeeps _)).trans (settle_engineKeeps_from hissue)
  obtain ⟨new, hnew, _⟩ := engine.passes m [] (by simpa [← hx, ← hv] using hmu) (by simp) List.nil_prefix
  refine ⟨?_, ?_, ?_, ?_⟩
  · rw [stands.partTxc, ← hx]
    simp [hcount, hbv]
  · rw [stands.base, ← hx]
    simp [hcount, hbv]
  · rw [window, ← hx]
    simp [hcount, hwv]
  · rw [hnew]
    simp [← hx, ← hv]

/-- The receive ring released by its own write, before the RXF write over buffers filled before it (R9). -/
def rxReleasedNow (s : State) : State := setRxReleased { s with bus.rxGuard := true }

theorem rxReleasedNow_sets (s : State) : (rxReleasedNow s).path.rxReleased = true ∧ (rxReleasedNow s).bus.rxGuard = true
    ∧ (rxReleasedNow s).bus.receiveView = .following ∧ (rxReleasedNow s).bus.receiveViewValue = s.bus.fixedG
    ∧ (rxReleasedNow s).ring.partRxf = s.bus.fixedG ∧ (rxReleasedNow s).ring.fillCursor = s.ring.fillCursor
    ∧ (rxReleasedNow s).path.releaseTimer = (if s.path.txReleased then none else s.path.releaseTimer)
    ∧ (rxReleasedNow s).path.txReleased = s.path.txReleased ∧ (rxReleasedNow s).bus.waiting = s.bus.waiting
    ∧ (rxReleasedNow s).bus.queue = s.bus.queue ∧ (rxReleasedNow s).power = s.power ∧ (rxReleasedNow s).loader = s.loader
    ∧ (rxReleasedNow s).path.path = s.path.path := by
  unfold rxReleasedNow setRxReleased stopReleaseTimer
  cases htx : s.path.txReleased <;> simp [htx]

theorem settle_rxReleased_stands {s : State} (hw : s.bus.waiting = []) :
    ReleaseStands (rxReleasedNow s) (settle (checkRxOverrun (afterRxRelease (rxReleasedNow s)))) := by
  obtain ⟨_, _, _, _, _, _, _, _, hwait, _⟩ := rxReleasedNow_sets s
  have kept : KeepsUnforced (rxReleasedNow s) (checkRxOverrun (afterRxRelease (rxReleasedNow s))) :=
    .of_engine ((afterRxRelease_engineKeeps _).trans (checkRxOverrun_engineKeeps _))
  exact (kept.trans (settle_unforced _)).release (by simp [Unforced, hwait, hw])

/-- With no buffer filled before the release, or in DOZE, the part's RXF stays at G (R133). -/
theorem settle_rxReleased_at {g : Count} {s : State} (hg : s.bus.fixedG = some g) (hw : s.bus.waiting = [])
    (hn : s.power.mode = .doze ∨ s.ring.fillCursor = some g) :
    (settle (checkRxOverrun (afterRxRelease (rxReleasedNow s)))).ring.partRxf = some g := by
  obtain ⟨_, _, _, _, hpart, hcursor, _, _, hwait, _, hpower, _⟩ := rxReleasedNow_sets s
  have unasked : afterRxRelease (rxReleasedNow s) = checkRxOverrun (rxReleasedNow s) := by
    obtain hn | hn := hn <;> simp [afterRxRelease, enginesRun, hpower, hcursor, hpart, hg, hn]
  have kept : CalmKeeps (rxReleasedNow s) (settle (checkRxOverrun (afterRxRelease (rxReleasedNow s)))) := by
    refine CalmKeeps.trans ?_ (settle_calm (n := 64) rfl)
    rw [unasked]
    exact (checkRxOverrun_calm _).trans (checkRxOverrun_calm _)
  rw [(kept.calm (by simp [hwait, hw])).2.partRxf, hpart, hg]

/-- Buffers filled before the release are passed by one write of RXF (R133). -/
theorem settle_rxReleased_passes {m : MemoryMap} {g f : Count} {s : State} (hm : s.loader.map = some m) (hg : s.bus.fixedG = some g)
    (hw : s.bus.waiting = []) (he : s.power.mode ≠ .doze) (hf : s.ring.fillCursor = some f) (hne : f ≠ g) (hq : s.bus.queue.length ≤ 7) :
    (settle (checkRxOverrun (afterRxRelease (rxReleasedNow s)))).ring.partRxf = some f
      ∧ ⟨.rxfCatchUp, .write (addrOf (watchedAddr m .rxf)) [indexWord f]⟩
        ∈ (settle (checkRxOverrun (afterRxRelease (rxReleasedNow s)))).bus.queue := by
  obtain ⟨_, _, _, _, hpart, hcursor, _, _, hwait, hqueue, hpower, hloader, _⟩ := rxReleasedNow_sets s
  have asked : afterRxRelease (rxReleasedNow s) = request .rxfCatchUp (checkRxOverrun (rxReleasedNow s)) := by
    simp [afterRxRelease, enginesRun, hpower, he, hcursor, hpart, hg, hf, hne]
  rw [asked]
  generalize hu : checkRxOverrun (request .rxfCatchUp (checkRxOverrun (rxReleasedNow s))) = u
  have hwu : u.bus.waiting = [.rxfCatchUp] := by simp [← hu, hwait, hw]
  have hmu : u.loader.map = some m := by simp [← hu, hloader, hm]
  have hfu : u.ring.fillCursor = some f := by simp [← hu, hcursor, hf]
  have hgu : u.ring.partRxf = some g := by simp [← hu, hpart, hg]
  have hform : formTransfer { u with bus.waiting := [] } m .rxfCatchUp = some (.write (addrOf (watchedAddr m .rxf)) [indexWord f]) := by
    simp [formTransfer, hfu, hgu, hne]
  generalize hx : ({ u with
      bus.waiting := []
      bus.queue := u.bus.queue ++ [⟨.rxfCatchUp, .write (addrOf (watchedAddr m .rxf)) [indexWord f]⟩]
      ring.partRxf := u.ring.fillCursor } : State) = x
  have hissue : issueAll u = pump 63 (checkRxOverrun x) := by
    rw [issueAll, pump_cons 63 hwu (by simpa [← hu, hqueue] using hq) (by simpa [← hu, hpower] using he), issueOne_formed hmu hform, ← hx]
    rfl
  have kept : CalmKeeps x (settle u) := (checkRxOverrun_calm x).trans (settle_calm hissue)
  have engine : EngineKeeps x (settle u) := (checkRxOverrun_engineKeeps x).trans (settle_engineKeeps_from hissue)
  obtain ⟨new, hnew, _⟩ := engine.passes m [] (by simpa [← hx] using hmu) (by simp) List.nil_prefix
  refine ⟨?_, ?_⟩
  · rw [(kept.calm (by simp [← hx])).2.partRxf, ← hx]
    exact hfu
  · rw [hnew]
    simp [← hx]

theorem map_pos_of_keys {l l' : List Entry} (h : l.map entryKey = l'.map entryKey) : l.map (·.pos) = l'.map (·.pos) := by
  simpa [entryKey, Function.comp_def] using congrArg (List.map (·.1)) h

/-- Settles O23: the write's one report completes the release, and the standing work moves the ring only past the DONE run, or past
the buffers filled before. -/
theorem releaseCompletesByOwnWrite : Obligations.ReleaseCompletesByOwnWrite := by
  refine ⟨?_, ?_⟩
  · intro q a l m h v n s hm hapart ha hturn hguard hr hrel hf hh hv hne heq hw hn hph hso
    have unguarded : q ≠ .u ∨ guardedBy (grantGateway s) (watchedAddr m .txc) = none := hguard.imp_right (·.2)
    obtain ⟨hfibre, _⟩ : s.path.path ≠ .fibre ∧ s.path.path ≠ .disabled := by simpa [holdsRings] using hr
    obtain ⟨mem, hcarry⟩ := carryWrite_txc (s := grantGateway s) hm hapart ha unguarded (.inl hfibre) hv (heq ▸ Ne.symm hne)
    have hexec : exec (.txcWordWrite q a [l]) s = .next (settle (carryWrite q a [l] (grantGateway s))) :=
      congrArg Host.Outcome.next (gatewayTransfer_write hturn)
    refine ⟨_, hexec, ?_⟩
    obtain ⟨k, hchanged⟩ := txcChanged_releases (s := { grantGateway s with sram := mem, bus.shadows.txc := some (mergeLanes v l) }) hr hrel hf
      (by simp [shadowCount, shadowWord, shadowOf, heq, grantGateway, hh]) hw
    rw [hcarry, hchanged]
    generalize hu : ({ grantGateway s with sram := mem, bus.shadows.txc := some (mergeLanes v l), ring.scanMark := k } : State) = u
    have hwu : u.bus.waiting = [] := by rw [← hu]; exact hw
    have hhu : u.bus.fixedH = some h := by rw [← hu]; exact hh
    have hwin : u.ring.window = s.ring.window := by rw [← hu]; rfl
    have hcount : doneCount u = n := by rw [hn, doneCount, hwin]; rfl
    obtain ⟨hrel', hguard', hview, hvalue, _, _, htimer, hrx, _, _, _, _, _, _, hpath⟩ := txReleasedNow_sets u
    have stands := settle_txReleased_stands hwu
    refine ⟨by rw [stands.tx, hrel'], by simp [hguard'], by rw [stands.uplinkView, hview], by rw [stands.uplinkValue, hvalue, hhu],
      fun hcase => ?_, fun hn0 he hq => ?_, ?_, ?_, ?_⟩
    · obtain ⟨hpart, hbase, hkeys⟩ := settle_txReleased_unadvanced hhu hwu (by rw [← hu]; exact hph) (by rw [← hu]; exact hso)
        (hcase.imp (by rw [hcount]; exact id) (by rw [← hu]; exact id))
      exact ⟨hpart, hbase, by rw [map_pos_of_keys hkeys, hwin]⟩
    · obtain ⟨hpart, hbase, hkeys, hmem⟩ := settle_txReleased_advances (m := m) (by rw [← hu]; exact hm) hhu hwu (by rw [← hu]; exact hph)
        (by rw [← hu]; exact hso) (by rw [hcount]; exact hn0) (by rw [← hu]; exact he) (by rw [← hu]; exact hq)
      rw [hcount] at hpart hbase hkeys hmem
      exact ⟨hpart, hbase, by rw [map_pos_of_keys hkeys, hwin], hmem⟩
    · rw [stands.timer, htimer, ← hu]
      rfl
    · rw [stands.rx, hrx, ← hu]
      rfl
    · have hpath' : u.path.path = s.path.path := by rw [← hu]; rfl
      simp [hpath, hpath']
  · intro q a l m g v s hm hapart ha hturn hguard hr hrel hf hg hv hne heq hw
    have unguarded : q ≠ .u ∨ guardedBy (grantGateway s) (watchedAddr m .rxf) = none := hguard.imp_right (·.2)
    obtain ⟨hfibre, _⟩ : s.path.path ≠ .fibre ∧ s.path.path ≠ .disabled := by simpa [holdsRings] using hr
    obtain ⟨mem, hcarry⟩ := carryWrite_rxf (s := grantGateway s) hm hapart ha unguarded hfibre hv (heq ▸ Ne.symm hne)
    have hexec : exec (.rxfWordWrite q a [l]) s = .next (settle (carryWrite q a [l] (grantGateway s))) :=
      congrArg Host.Outcome.next (gatewayTransfer_write hturn)
    refine ⟨_, hexec, ?_⟩
    have hchanged := rxfChanged_releases (s := { grantGateway s with sram := mem, bus.shadows.rxf := some (mergeLanes v l) }) hr hrel hf
      (by simp [shadowCount, shadowWord, shadowOf, heq, grantGateway, hg])
    rw [hcarry, hchanged, ← rxReleasedNow]
    generalize hu : ({ grantGateway s with sram := mem, bus.shadows.rxf := some (mergeLanes v l) } : State) = u
    have hwu : u.bus.waiting = [] := by rw [← hu]; exact hw
    have hgu : u.bus.fixedG = some g := by rw [← hu]; exact hg
    have hcu : u.ring.fillCursor = s.ring.fillCursor := by rw [← hu]; rfl
    have hpu : u.power = s.power := by rw [← hu]; rfl
    obtain ⟨hrel', hguard', hview, hvalue, _, _, htimer, htx, _, _, _, _, hpath⟩ := rxReleasedNow_sets u
    have stands := settle_rxReleased_stands hwu
    refine ⟨by rw [stands.rx, hrel'], by simp [hguard'], by rw [stands.receiveView, hview], by rw [stands.receiveValue, hvalue, hgu],
      fun hcase => settle_rxReleased_at hgu hwu (by rw [hpu, hcu]; exact hcase), fun f he hfill hfg hq => ?_, ?_, ?_, ?_⟩
    · exact settle_rxReleased_passes (by rw [← hu]; exact hm) hgu hwu (by rw [hpu]; exact he) (by rw [hcu]; exact hfill) hfg
        (by rw [← hu]; exact hq)
    · rw [stands.timer, htimer, ← hu]
      rfl
    · rw [stands.tx, htx, ← hu]
      rfl
    · have hpath' : u.path.path = s.path.path := by rw [← hu]; rfl
      simp [hpath, hpath']

end Sys2Proof.Machine
end

section
/-! What a descriptor read's return brings to the take window (R51 to R54), with the standing work that follows it. -/

-- One theorem at a time, as in the model's laws: the threads of many at once would not fit the memory a check has.
set_option Elab.async false

namespace Sys2Proof.Machine

/-! ### The standing work with only reads waiting and nothing to deliver -/

theorem issueOne_quiet {p : Purpose} (hp : calmRequest p = true) (hb : p ≠ .txcHandBack) (rest : List Purpose) (s : State) :
    ∃ q, issueOne p rest s = { s with bus.waiting := rest, bus.queue := q } := by
  simp only [issueOne]
  (repeat' split)
  · exact ⟨s.bus.queue, rfl⟩
  · exact ⟨s.bus.queue, rfl⟩
  · rename_i x _
    obtain h | ⟨h, _⟩ := onIssue_calm hp { s with bus.waiting := rest, bus.queue := s.bus.queue ++ [⟨p, x⟩] }
    · exact ⟨s.bus.queue ++ [⟨p, x⟩], h⟩
    · exact absurd h hb

theorem pump_quiet (n : Nat) {s : State} (hc : ∀ p ∈ s.bus.waiting, calmRequest p = true) (hb : .txcHandBack ∉ s.bus.waiting) :
    ∃ w q, pump n s = { s with bus.waiting := w, bus.queue := q } := by
  induction n generalizing s with
  | zero => exact ⟨s.bus.waiting, s.bus.queue, rfl⟩
  | succ n ih =>
    unfold pump
    split
    · exact ⟨s.bus.waiting, s.bus.queue, rfl⟩
    · rename_i p rest hline
      split
      · obtain ⟨q, hq⟩ := issueOne_quiet (p := p) (hc p (by simp [hline])) (by rintro rfl; simp [hline] at hb) rest s
        rw [hq]
        obtain ⟨w, q', h⟩ := ih (s := { s with bus.waiting := rest, bus.queue := q }) (fun p' hp' => hc p' (by rw [hline]; exact List.mem_cons_of_mem _ hp'))
          (fun hmem => hb (by rw [hline]; exact List.mem_cons_of_mem _ hmem))
        exact ⟨w, q', h⟩
      · exact ⟨s.bus.waiting, s.bus.queue, rfl⟩

theorem withdrawScanRead_quiet (s : State) : ∃ w c, withdrawScanRead s = { s with bus.waiting := w, ring.scanRead := c } := by
  unfold withdrawScanRead
  split
  · exact ⟨_, _, rfl⟩
  · exact ⟨s.bus.waiting, s.ring.scanRead, rfl⟩

theorem scanNext_quiet (s : State) : ∃ w c, scanNext s = { s with bus.waiting := w, ring.scanRead := c } := by
  simp only [scanNext]
  split
  · exact ⟨_, _, rfl⟩
  · exact ⟨s.bus.waiting, s.ring.scanRead, rfl⟩

theorem evalScan_quiet (s : State) :
    ∃ w a b c, evalScan s = { s with bus.waiting := w, ring.scanRunning := a, ring.scanMark := b, ring.scanRead := c } := by
  unfold evalScan
  (repeat' split)
  · obtain ⟨w, c, h⟩ := scanNext_quiet s
    exact ⟨w, s.ring.scanRunning, s.ring.scanMark, c, h⟩
  · obtain ⟨w, c, h⟩ := scanNext_quiet (startScan s)
    exact ⟨w, _, _, c, h⟩
  · obtain ⟨w, c, h⟩ := withdrawScanRead_quiet s
    exact ⟨w, false, none, c.map fun r => { r with discard := true }, by rw [stopScan, h]⟩
  · exact ⟨s.bus.waiting, s.ring.scanRunning, s.ring.scanMark, s.ring.scanRead, rfl⟩

/-- With only reads waiting, no frame to deliver and no hand-back due, the standing work moves the line and the queue, the scan, and what
the doze conditions move (R150, R157). -/
theorem settle_quiet {s v : State} {n : Nat} (h : issueAll s = pump n v) (hc : ∀ p ∈ v.bus.waiting, calmRequest p = true) (hno : NoHandBack v)
    (hV : v.hold.dqV = []) (hD : v.hold.dqD = []) : ∃ w q a b c, settle s
      = evalDoze { v with bus.waiting := w, bus.queue := q, ring.scanRunning := a, ring.scanMark := b, ring.scanRead := c } := by
  obtain ⟨w₁, q₁, h₁⟩ := pump_quiet n hc hno.1
  obtain ⟨w₂, a, b, c, h₂⟩ := evalScan_quiet (pump n v)
  have kept := (pump_calm n v).trans (evalScan_calm _)
  have calm := (kept.calm hc).1
  have stays := (kept.window hc hno).1
  obtain ⟨w₃, q₃, h₃⟩ := pump_quiet 64 (s := evalScan (pump n v)) calm stays.1
  have kept' := kept.trans (pump_calm 64 _)
  obtain ⟨w₄, q₄, h₄⟩ := pump_quiet 64 (s := pump 64 (evalScan (pump n v))) (kept'.calm hc).1 (kept'.window hc hno).1.1
  refine ⟨w₄, q₄, a, b, c, ?_⟩
  have undelivered : judgeDelivery (pump n v) = pump n v := judgeDelivery_idle (by simpa [h₁] using hV) (by simpa [h₁] using hD)
  have handed : tryHandBack (pump 64 (evalScan (pump n v))) = pump 64 (evalScan (pump n v)) := by
    obtain ⟨_, hph, hso⟩ := (kept'.window hc hno).1
    exact tryHandBack_idle hph hso
  rw [settle, h, undelivered]
  show evalDoze (pump 64 (tryHandBack (pump 64 (evalScan (pump n v))))) = _
  rw [handed, h₄, h₃, h₂, h₁]

/-- The doze conditions leave what is sent on LDO, a Low Power on apart (R157). -/
theorem evalDoze_ldo {s : State} (h : ∀ live, s.radio.ldo ≠ some (.lowPower true live)) : (evalDoze s).radio.ldo = s.radio.ldo := by
  rw [evalDoze_moves]
  show ldoAside s (evalDoze s) = s.radio.ldo
  unfold ldoAside
  split
  · exact absurd ‹_› (h _)
  · rfl

/-! ### The return of a descriptor read -/

theorem exec_descriptorReadReturn {first : Count} {n : Nat} {a : Addr} {len : BurstLen} {rest : List MasterTransfer} {s : State}
    (hq : s.bus.queue = ⟨.descriptorRead first n, .read a len⟩ :: rest) :
    exec .descriptorReadReturn s = .next (settle (descriptorsReturn (memReadWords s.sram a (burstWords len))
      { s with bus.queue := rest, bus.waitCount := 0 })) := by
  show Host.Outcome.next (doDescriptorReadReturn s) = _
  simp only [doDescriptorReadReturn, carryWhen, headPurpose, carryHead, hq]
  rfl

/-- An entry that passes the checks joins the window and is judged with the others (R52, R53). -/
theorem appendEntry_passes {s : State} {e : Entry} (h : entryCheck s e = none) :
    appendEntry e s = judgePending { s with ring.window := s.ring.window ++ [e] } := by simp [appendEntry, h]

/-- Entries that pass the checks join the window in order; only reads are asked for (R51 to R54). -/
theorem appendEntries_keys (es : List Entry) {s : State} (hc : ∀ p ∈ s.bus.waiting, calmRequest p = true) (hno : NoHandBack s)
    (hpass : ∀ e ∈ es, entryCheck s e = none) :
    let t := es.foldl (fun s e => appendEntry e s) s
    (∀ p ∈ t.bus.waiting, calmRequest p = true) ∧ NoHandBack t
      ∧ t.ring.window.map entryKey = s.ring.window.map entryKey ++ es.map entryKey := by
  induction es generalizing s with
  | nil => exact ⟨hc, hno, by simp⟩
  | cons e es ih =>
    have kept : CalmKeeps { s with ring.window := s.ring.window ++ [e] } (appendEntry e s) := by
      rw [appendEntry_passes (hpass e (by simp))]
      exact judgePending_calm _
    obtain ⟨hc', _⟩ := kept.calm hc
    obtain ⟨hno', hkeys⟩ := kept.window hc hno
    have policy : (appendEntry e s).loader.policy = s.loader.policy := by simp
    obtain ⟨hct, hnot, hkt⟩ := ih hc' hno' fun x hx => by simpa [entryCheck, policy] using hpass x (by simp [hx])
    refine ⟨hct, hnot, ?_⟩
    rw [List.foldl_cons, hkt, hkeys]
    simp

/-- A read of `n` positions that is not discarded enters its entries, moves the mark past them and reads on (R51). -/
theorem descriptorsReturn_enters {first : Count} {n : Nat} {ws : List Word} {s : State} (h : s.ring.descriptorRead = some ⟨first, n, false⟩) :
    descriptorsReturn ws s = readAhead { (readEntries first n ws).foldl (fun s e => appendEntry e s) { s with ring.descriptorRead := none } with
      ring.readMark := some (advance first n) } := by simp [descriptorsReturn, h]

theorem mem_of_keys {l l' : List Entry} {e : Entry} (h : l.map entryKey = l'.map entryKey) (he : e ∈ l') : ∃ e' ∈ l, entryKey e' = entryKey e := by
  have : entryKey e ∈ l.map entryKey := h ▸ List.mem_map_of_mem he
  simpa using this

/-- The window after the return of a read all of whose entries pass the checks. -/
theorem settle_descriptorsReturn {first : Count} {n : Nat} {ws : List Word} {s : State} (hr : s.ring.descriptorRead = some ⟨first, n, false⟩)
    (hw : s.bus.waiting = []) (hph : s.path.phase ≠ some .closing) (hso : s.loader.softReset ≠ .completing)
    (hpass : ∀ e ∈ readEntries first n ws, entryCheck s e = none) :
    (settle (descriptorsReturn ws s)).ring.window.map entryKey = (s.ring.window ++ readEntries first n ws).map entryKey
      ∧ (settle (descriptorsReturn ws s)).ring.readMark = some (advance first n) := by
  rw [descriptorsReturn_enters hr]
  obtain ⟨hc, hno, hkeys⟩ := appendEntries_keys (readEntries first n ws) (s := { s with ring.descriptorRead := none }) (by simp [hw])
    ⟨by simp [hw], hph, hso⟩ hpass
  generalize hu : (readEntries first n ws).foldl (fun s e => appendEntry e s) { s with ring.descriptorRead := none } = u at *
  have kept : CalmKeeps { u with ring.readMark := some (advance first n) } (settle (readAhead { u with ring.readMark := some (advance first n) })) :=
    (readAhead_calm _).trans (settle_calm (n := 64) rfl)
  obtain ⟨_, hwin⟩ := kept.window hc hno
  refine ⟨?_, by simp⟩
  rw [hwin, List.map_append]
  exact hkeys

theorem readEntries_pos (first : Count) (n : Nat) (ws : List Word) : (readEntries first n ws).map (·.pos) = (List.range n).map (advance first) := by
  simp [readEntries, entryOf, Function.comp_def]

theorem readEntries_one {first : Count} {ws : List Word} : readEntries first 1 ws = [entryOf first (slice (bytesOf ws) 0 16)] := by
  simp [readEntries, advance]

/-! ### A completion on entering -/

theorem readAhead_line {s : State} {p : Purpose} {X : List Purpose} (h : s.bus.waiting = p :: X) : ∃ Y, (readAhead s).bus.waiting = p :: Y
    ∧ ((∀ q ∈ X, calmRequest q = true ∧ q ≠ .txcHandBack) → ∀ q ∈ Y, calmRequest q = true ∧ q ≠ .txcHandBack) := by
  obtain ⟨ps, hps, hcalm⟩ := readAhead_asks s
  refine ⟨X ++ ps, by simp [hps, h], fun hX q hq => ?_⟩
  exact (List.mem_append.1 hq).elim (hX q) (hcalm q)

/-- The first request in line is issued at the command's end, whatever follows it (R150). -/
theorem settle_issues_completion {m : MemoryMap} {pos : Count} {v : Completion} {Y : List Purpose} {s : State} (hm : s.loader.map = some m)
    (hw : s.bus.waiting = .completion pos v :: Y) (hq : s.bus.queue.length ≤ 7) (he : s.power.mode ≠ .doze) :
    ⟨.completion pos v, .write (addrOf (descriptorAddr m.txBase m.txSize pos + 4)) [completionWord v]⟩ ∈ (settle s).bus.queue := by
  have hform : formTransfer { s with bus.waiting := Y } m (.completion pos v)
      = some (.write (addrOf (descriptorAddr m.txBase m.txSize pos + 4)) [completionWord v]) := rfl
  have hissue : issueAll s = pump 63 (onIssue (.completion pos v) { s with
      bus.waiting := Y
      bus.queue := s.bus.queue ++ [⟨.completion pos v, .write (addrOf (descriptorAddr m.txBase m.txSize pos + 4)) [completionWord v]⟩] }) := by
    rw [issueAll, pump_cons 63 hw hq he, issueOne_formed hm hform]
  have kept := (onIssue_engineKeeps (p := .completion pos v) (by simp) _).trans (settle_engineKeeps_from hissue)
  obtain ⟨new, hnew, _⟩ := kept.passes m [] hm (by simp) List.nil_prefix
  rw [hnew]
  simp

/-- An entry that fails a check gets its completion (R52). -/
theorem settle_descriptorsReturn_fails {m : MemoryMap} {first : Count} {ws : List Word} {e : Entry} {v : Completion} {s : State}
    (hr : s.ring.descriptorRead = some ⟨first, 1, false⟩) (hm : s.loader.map = some m) (hw : s.bus.waiting = [])
    (hq : s.bus.queue.length ≤ 7) (he : s.power.mode ≠ .doze) (hent : entryOf first (slice (bytesOf ws) 0 16) = e)
    (hv : entryCheck s e = some v) :
    ⟨.completion first v, .write (addrOf (descriptorAddr m.txBase m.txSize first + 4)) [completionWord v]⟩
      ∈ (settle (descriptorsReturn ws s)).bus.queue := by
  have hpos : e.pos = first := by rw [← hent]; rfl
  have hv' : entryCheck { s with ring.descriptorRead := none } e = some v := hv
  have fails : appendEntry e { s with ring.descriptorRead := none } = request (.completion first v) { s with
      ring.descriptorRead := none, ring.window := s.ring.window ++ [{ e with completing := true }] } := by
    simp [appendEntry, hv', hpos]
  rw [descriptorsReturn_enters hr, readEntries_one, hent, List.foldl_cons, List.foldl_nil, fails]
  generalize hu : request (.completion first v) { s with
      ring.descriptorRead := none, ring.window := s.ring.window ++ [{ e with completing := true }] } = u
  have hwu : u.bus.waiting = [.completion first v] := by simp [← hu, hw]
  obtain ⟨Y, hY, _⟩ := readAhead_line (s := { u with ring.readMark := some (advance first 1) }) hwu
  exact settle_issues_completion (by simpa [← hu] using hm) hY (by simpa [← hu] using hq) (by simpa [← hu] using he)

/-! ### A take -/

theorem judgePending_last {s : State} {l : List Entry} {e : Entry} (h : s.ring.window = l ++ [e]) (hl : ∀ x ∈ l, x.st ≠ .pending) :
    judgePending s = judgeEntry s e := by
  have idle (l : List Entry) (hl : ∀ x ∈ l, x.st ≠ .pending) : l.foldl judgeEntry s = s := by
    induction l with
    | nil => rfl
    | cons x l ih => rw [List.foldl_cons, judgeEntry_idle (hl x (by simp)), ih fun y hy => hl y (by simp [hy])]
  rw [judgePending, h, List.foldl_append, idle l hl]
  rfl

/-- The class of an entry that passes the checks (R52). -/
theorem takeClass_of_passes {s : State} {e : Entry} (h : entryCheck s e = none) :
    takeClass e.cls = some (if e.cls = 2 then .voicePriority else if e.cls = 1 then .voice else .data) := by
  have known : takeClass e.cls ≠ none := by
    intro hn
    simp [entryCheck, hn] at h
  unfold takeClass at known ⊢
  (repeat' split) <;> simp_all

/-- The cells an entry of its class needs to leave on the free list (R70). -/
abbrev reserveFor (s : State) (cls : FrameClass) : Nat :=
  if cls = .data ∧ s.path.path ≠ .returning then s.loader.policy.voiceReserve else 0

/-- R53's rule for a PENDING entry. -/
theorem eligible_iff {s : State} {e : Entry} {cls : FrameClass} (hc : takeClass e.cls = some cls) (hp : e.st = .pending)
    (hn : e.completing = false) : eligible s e = true ↔ e.cellsNeed + reserveFor s cls ≤ s.hold.freeList.length
      ∧ (cls = .data → s.path.path ≠ .returning → ∀ r ∈ s.hold.uqD, ageOf s.clock r.time ≤ s.loader.policy.dataHold * 1000) := by
  have count (n : Nat) : decide (n ≤ freeCount s) = true ↔ n ≤ s.hold.freeList.length := decide_eq_true_iff
  have old : (uqDTooOld s = false) ↔ ∀ r ∈ s.hold.uqD, ageOf s.clock r.time ≤ s.loader.policy.dataHold * 1000 := by
    simp only [uqDTooOld, recordAge, List.any_eq_false]
    exact forall₂_congr fun r _ => (not_congr decide_eq_true_iff).trans Nat.not_lt
  by_cases hret : s.path.path = .returning
  · simp [eligible, hc, hp, hn, cellsAllow, count, hret, reserveFor]
  · cases cls <;> simp [eligible, hc, hp, hn, cellsAllow, count, hret, reserveFor, isVoice, old]

theorem mayTake_of {s : State} (hr : holdsRings s = true) (hph : s.path.phase ≠ some .closing) (hs : softResetStands s = false)
    (he : s.power.mode ≠ .doze) : mayTake s = true := by simp [mayTake, hr, hph, hs, enginesRun, he]

/-- R53's judgement of one entry whose class is known. -/
theorem judgeEntry_eq {s : State} {e : Entry} {cls : FrameClass} (hc : takeClass e.cls = some cls) (hm : mayTake s = true) :
    judgeEntry s e = if s.ring.takes.length < 4 ∧ eligible s e = true then beginTake e cls s else s := by
  have few : decide (s.ring.takes.length < Config.takePlaces) = true ↔ s.ring.takes.length < 4 := decide_eq_true_iff
  simp [judgeEntry, hc, hm, few]

theorem evalPause_eq (s : State) : ∃ x b, evalPause s = { s with hold.paused := x, radio.items.pause := b } := by
  simp only [evalPause, withPauseTarget]
  split
  · exact ⟨_, s.radio.items.pause, rfl⟩
  · exact ⟨_, true, rfl⟩

/-- A take's record (R54, R69). -/
abbrev takeOf (e : Entry) (cls : FrameClass) (s : State) : Take :=
  ⟨e.pos, ⟨cls, .uplink, e.length, s.hold.freeList.take ((e.length + 255) / 256), s.clock, 0, some e.pos⟩, e.addr, 0⟩

/-- What a take sets before its report (R54, R67). -/
theorem beginTake_eq (e : Entry) (cls : FrameClass) (s : State) : ∃ x b u, u = { s with
      hold.paused := x, radio.items.pause := b, hold.freeList := s.hold.freeList.drop ((e.length + 255) / 256)
      ring.window := s.ring.window.map fun x => if x.pos = e.pos then { x with st := .taking } else x
      ring.takes := s.ring.takes ++ [takeOf e cls s], bus.waiting := s.bus.waiting ++ [.frameRead e.pos] }
    ∧ beginTake e cls s = if cls = .voicePriority then priorityTake u else u := by
  obtain ⟨x, b, h⟩ := evalPause_eq { s with hold.freeList := s.hold.freeList.drop (cellsFor e.length) }
  refine ⟨x, b, _, rfl, ?_⟩
  simp only [beginTake, takeCells, h]
  rfl

theorem emergencySet_off {s : State} (h : s.radio.state = .off) : emergencySet s
    = if partWorks s then enterStarting (powerUp { s with radio.lingerTimer := none }) else { s with radio.lingerTimer := none } := by
  simp only [emergencySet, h]
  rfl

/-- The report of a Voice Priority take (R22, R116): the timer, the flag, and the radio by its state. -/
theorem priorityTake_sets (s : State) : (priorityTake s).path.priorityTimer = some 60000
    ∧ (priorityTake s).path.emergency = (s.path.emergency || s.radio.state != .attached)
    ∧ (s.path.emergency = true ∨ s.radio.state = .attached → (priorityTake s).radio = s.radio)
    ∧ (s.path.emergency = false → s.radio.state = .detached ∨ (s.radio.state = .backoff ∧ s.radio.ready = true) →
        (priorityTake s).radio.state = .attaching ∧ (priorityTake s).radio.items.attach = true
          ∧ (priorityTake s).radio.attachTimer = some (s.loader.policy.attachTimeout * 1000)
          ∧ (s.radio.state = .backoff → (priorityTake s).radio.backoffTimer = none))
    ∧ (s.path.emergency = false → s.radio.state = .backoff → s.radio.ready = false → (priorityTake s).radio.backoffTimer = none
        ∧ (priorityTake s).radio.state = if s.radio.cycleTimer = none then .starting else .backoff)
    ∧ (s.path.emergency = false → s.radio.state = .off → partWorks s = true → (priorityTake s).radio.state = .starting
        ∧ (priorityTake s).radio.mpwr = true ∧ (priorityTake s).radio.startTimer = some 20000)
    ∧ (s.path.emergency = false → s.radio.state = .starting ∨ s.radio.state = .attaching → (priorityTake s).radio.state = s.radio.state) := by
  by_cases hset : s.path.emergency = true ∨ s.radio.state = .attached
  · have same : priorityTake s = restartPriority s := by
      obtain h | h := hset <;> simp [priorityTake, restartPriority, h]
    obtain h | h := hset <;> simp [same, restartPriority, h]
  · obtain ⟨hclear, hst⟩ : s.path.emergency = false ∧ s.radio.state ≠ .attached := by simpa using hset
    have set : priorityTake s = emergencySet { restartPriority s with path.emergency := true } := by
      simp [priorityTake, restartPriority, hclear, hst]
    have works : partWorks { restartPriority s with path.emergency := true } = partWorks s := rfl
    rw [set]
    cases hs : s.radio.state
    case attached => contradiction
    case backoff =>
      cases hready : s.radio.ready
      · by_cases hcycle : s.radio.cycleTimer = none <;>
          simp [emergencySet, restartPriority, hs, hclear, hready, startAfterCycle, hcycle, enterStarting]
      · simp [emergencySet, restartPriority, hs, hclear, hready, requestAttach]
    case off =>
      rw [emergencySet_off (s := { restartPriority s with path.emergency := true }) hs, works]
      cases hwork : partWorks s <;> simp [restartPriority, hs, hclear, enterStarting, powerUp]
    all_goals simp [emergencySet, restartPriority, hs, hclear, requestAttach]

/-- A frame read first in line is issued at the command's end (R54, R150). -/
theorem settle_issues_frameRead {m : MemoryMap} {pos : Count} {Y : List Purpose} {s : State} (hm : s.loader.map = some m)
    (hw : s.bus.waiting = .frameRead pos :: Y) (hq : s.bus.queue.length ≤ 7) (he : s.power.mode ≠ .doze) (htake : takeAt s pos ≠ none) :
    .frameRead pos ∈ (settle s).bus.queue.map (·.purpose) := by
  obtain ⟨k, hk⟩ := Option.ne_none_iff_exists'.1 htake
  have hform : formTransfer { s with bus.waiting := Y } m (.frameRead pos) = some (.read (wordAt k.addr k.wordsRead) (takeBurst k)) := by
    have : takeAt { s with bus.waiting := Y } pos = some k := hk
    simp [formTransfer, this]
  have hissue : issueAll s = pump 63 (onIssue (.frameRead pos) { s with
      bus.waiting := Y, bus.queue := s.bus.queue ++ [⟨.frameRead pos, .read (wordAt k.addr k.wordsRead) (takeBurst k)⟩] }) := by
    rw [issueAll, pump_cons 63 hw hq he, issueOne_formed hm hform]
  have kept := (onIssue_engineKeeps (p := .frameRead pos) (by simp) _).trans (settle_engineKeeps_from hissue)
  obtain ⟨new, hnew, _⟩ := kept.passes m [] hm (by simp) List.nil_prefix
  rw [hnew]
  simp

theorem takeAt_new {s : State} {k : Take} {l : List Take} (h : s.ring.takes = l ++ [k]) : takeAt s k.pos ≠ none := by
  simp [takeAt, h]

/-- The take begun from `s` for `e`, with only reads waiting besides: what it holds of the window, the cells and the reports (R22, R54). -/
structure TakeBegun (e : Entry) (cls : FrameClass) (s t : State) : Prop where
  takes : t.ring.takes = s.ring.takes ++ [takeOf e cls s]
  freeList : t.hold.freeList = s.hold.freeList.drop ((e.length + 255) / 256)
  window : t.ring.window = s.ring.window.map fun x => if x.pos = e.pos then { x with st := .taking } else x
  path : cls ≠ .voicePriority → t.path.priorityTimer = s.path.priorityTimer ∧ t.path.emergency = s.path.emergency
    ∧ t.radio.state = s.radio.state
  timer : cls = .voicePriority → t.path.priorityTimer = some 60000 ∧ t.path.emergency = (s.path.emergency || s.radio.state != .attached)
  kept : cls = .voicePriority → s.path.emergency = true ∨ s.radio.state = .attached → t.radio.state = s.radio.state
    ∧ t.radio.backoffTimer = s.radio.backoffTimer
  attaches : cls = .voicePriority → s.path.emergency = false → s.radio.state = .detached ∨ (s.radio.state = .backoff ∧ s.radio.ready = true) →
    t.radio.state = .attaching ∧ t.radio.items.attach = true ∧ t.radio.attachTimer = some (s.loader.policy.attachTimeout * 1000)
      ∧ (s.radio.state = .backoff → t.radio.backoffTimer = none)
  restarts : cls = .voicePriority → s.path.emergency = false → s.radio.state = .backoff → s.radio.ready = false →
    t.radio.backoffTimer = none ∧ t.radio.state = (if s.radio.cycleTimer = none then .starting else .backoff)
  powers : cls = .voicePriority → s.path.emergency = false → s.radio.state = .off → partWorks s = true → t.radio.state = .starting
    ∧ t.radio.mpwr = true ∧ t.radio.startTimer = some 20000
  waits : cls = .voicePriority → s.path.emergency = false → s.radio.state = .starting ∨ s.radio.state = .attaching → t.radio.state = s.radio.state

/-- What a take moves stands in any state that agrees on the window, the takes, the cells, and on the radio but for two items. -/
theorem beginTake_begun (e : Entry) (cls : FrameClass) (s : State) {t : State} (htakes : t.ring.takes = (beginTake e cls s).ring.takes)
    (hwin : t.ring.window = (beginTake e cls s).ring.window) (hfree : t.hold.freeList = (beginTake e cls s).hold.freeList)
    (hpath : t.path = (beginTake e cls s).path)
    (hradio : ∃ y k, t.radio = { (beginTake e cls s).radio with items.lowPower := y, ldo := k }) : TakeBegun e cls s t := by
  obtain ⟨y, k, hradio⟩ := hradio
  obtain ⟨x, b, u, hu, hB⟩ := beginTake_eq e cls s
  by_cases hv : cls = .voicePriority
  · rw [if_pos hv] at hB
    rw [hB] at htakes hwin hfree hpath hradio
    obtain ⟨htimer, hflag, hkept, hattach, hrestart, hpower, hwait⟩ := priorityTake_sets u
    have hst : u.radio.state = s.radio.state := by rw [hu]
    have hready : u.radio.ready = s.radio.ready := by rw [hu]
    have hem : u.path.emergency = s.path.emergency := by rw [hu]
    have hcycle : u.radio.cycleTimer = s.radio.cycleTimer := by rw [hu]
    have hback : u.radio.backoffTimer = s.radio.backoffTimer := by rw [hu]
    have hpol : u.loader.policy = s.loader.policy := by rw [hu]
    have hwork : partWorks u = partWorks s := by rw [hu]; rfl
    rw [hst, hem] at hflag hkept hattach hrestart hpower hwait
    rw [hready, hpol] at hattach
    rw [hready, hcycle] at hrestart
    rw [hwork] at hpower
    refine ⟨?_, ?_, ?_, fun h => absurd hv h, fun _ => ?_, fun _ hc => ?_, fun _ h1 h2 => ?_, fun _ h1 h2 h3 => ?_, fun _ h1 h2 h3 => ?_, fun _ h1 h2 => ?_⟩
    · simp [htakes, hu]
    · simp [hfree, hu]
    · simp [hwin, hu]
    · rw [hpath]
      exact ⟨htimer, hflag⟩
    · rw [hradio, hkept hc]
      exact ⟨hst, hback⟩
    · rw [hradio]
      exact hattach h1 h2
    · rw [hradio]
      exact hrestart h1 h2 h3
    · rw [hradio]
      exact hpower h1 h2 h3
    · rw [hradio]
      exact hwait h1 h2
  · rw [if_neg hv] at hB
    rw [hB, hu] at htakes hwin hfree hpath hradio
    refine ⟨htakes, hfree, hwin, fun _ => ⟨by rw [hpath], by rw [hpath], by rw [hradio]⟩, ?_, ?_, ?_, ?_, ?_, ?_⟩ <;> exact fun h => absurd h hv

theorem evalDoze_radio (s : State) : ∃ y k, (evalDoze s).radio = { s.radio with items.lowPower := y, ldo := k } := by
  have h := congrArg State.radio (evalDoze_moves s)
  exact ⟨_, _, h⟩

/-- A take stands to the command's end, with only reads waiting and nothing to deliver (R54). -/
theorem settle_taken {e : Entry} {cls : FrameClass} {s u : State} (hu : ∃ w m d, u = { beginTake e cls s with
      bus.waiting := w, ring.readMark := m, ring.descriptorRead := d }) (hc : ∀ p ∈ u.bus.waiting, calmRequest p = true) (hno : NoHandBack u)
    (hV : u.hold.dqV = []) (hD : u.hold.dqD = []) : TakeBegun e cls s (settle u) ∧ (settle u).hold = (beginTake e cls s).hold
      ∧ ((∀ live, s.radio.ldo ≠ some (.lowPower true live)) → (settle u).radio.ldo = s.radio.ldo) := by
  obtain ⟨w, q, a, b, c, ht⟩ := settle_quiet (s := u) (n := 64) rfl hc hno hV hD
  obtain ⟨w', m, d, hu⟩ := hu
  rw [ht]
  refine ⟨beginTake_begun e cls s ?_ ?_ ?_ ?_ ?_, by simp [hu], fun hldo => ?_⟩
  · simp [hu]
  · simp [hu]
  · simp [hu]
  · simp [hu]
  · obtain ⟨y, k, hk⟩ := evalDoze_radio { u with bus.waiting := w, bus.queue := q, ring.scanRunning := a, ring.scanMark := b, ring.scanRead := c }
    exact ⟨y, k, by rw [hk, hu]⟩
  · rw [evalDoze_ldo (by simpa [hu] using hldo)]
    simp [hu]

theorem readAhead_quiet (s : State) : ∃ w d, readAhead s = { s with bus.waiting := w, ring.descriptorRead := d } := by
  simp only [readAhead]
  split
  · exact ⟨_, _, rfl⟩
  · exact ⟨s.bus.waiting, s.ring.descriptorRead, rfl⟩

/-- The state in which a read's single entry is judged: the read is over, the entry stands last in the window. -/
def entered (e : Entry) (rest : List MasterTransfer) (s : State) : State :=
  { s with bus.queue := rest, bus.waitCount := 0, ring.descriptorRead := none, ring.window := s.ring.window ++ [e] }

/-- A single entry that passes the checks, with no other PENDING, is judged alone (R53). -/
theorem exec_entered {first : Count} {a : Addr} {rest : List MasterTransfer} {e : Entry} {cls : FrameClass} {s : State}
    (hq : s.bus.queue = ⟨.descriptorRead first 1, .read a .four⟩ :: rest) (hr : s.ring.descriptorRead = some ⟨first, 1, false⟩)
    (hmay : mayTake s = true) (he : e = entryOf first (slice (bytesOf (memReadWords s.sram a 4)) 0 16)) (hpass : entryCheck s e = none)
    (hcls : cls = if e.cls = 2 then .voicePriority else if e.cls = 1 then .voice else .data) (hwin : ∀ x ∈ s.ring.window, x.st ≠ .pending) :
    exec .descriptorReadReturn s = .next (settle (readAhead {
      (if s.ring.takes.length < 4 ∧ eligible (entered e rest s) e = true then beginTake e cls (entered e rest s) else entered e rest s) with
      ring.readMark := some (advance first 1) })) := by
  have hpass' : entryCheck { s with bus.queue := rest, bus.waitCount := 0, ring.descriptorRead := none } e = none := hpass
  have judged := judgeEntry_eq (s := entered e rest s) (e := e) (cls := cls) (hcls ▸ takeClass_of_passes hpass) hmay
  have appended : appendEntry e { s with bus.queue := rest, bus.waitCount := 0, ring.descriptorRead := none } = judgeEntry (entered e rest s) e := by
    rw [appendEntry_passes hpass']
    exact judgePending_last (s := entered e rest s) rfl hwin
  rw [exec_descriptorReadReturn hq, descriptorsReturn_enters (s := { s with bus.queue := rest, bus.waitCount := 0 }) hr, readEntries_one]
  show Host.Outcome.next (settle (readAhead { appendEntry (entryOf first (slice (bytesOf (memReadWords s.sram a 4)) 0 16)) _ with
    ring.readMark := some (advance first 1) })) = _
  rw [← he, appended, judged]
  rfl

/-- The window positions and what each entry brings, after a read whose entries all pass (O31's first clause). -/
theorem descriptorReadReturn_keys {first : Count} {n : Nat} {a : Addr} {len : BurstLen} {rest : List MasterTransfer} {s : State}
    (hq : s.bus.queue = ⟨.descriptorRead first n, .read a len⟩ :: rest) (hr : s.ring.descriptorRead = some ⟨first, n, false⟩)
    (hw : s.bus.waiting = []) (hph : s.path.phase ≠ some .closing) (hso : s.loader.softReset = .none)
    (hpass : ∀ e ∈ readEntries first n (memReadWords s.sram a (burstWords len)), entryCheck s e = none) :
    ∃ t, exec .descriptorReadReturn s = .next t ∧ t.ring.window.map (·.pos) = s.ring.window.map (·.pos) ++ (List.range n).map (advance first)
      ∧ t.ring.readMark = some (advance first n)
      ∧ (∀ e ∈ readEntries first n (memReadWords s.sram a (burstWords len)), ∃ e' ∈ t.ring.window, entryKey e' = entryKey e) := by
  obtain ⟨hkeys, hmark⟩ := settle_descriptorsReturn (ws := memReadWords s.sram a (burstWords len))
    (s := { s with bus.queue := rest, bus.waitCount := 0 }) hr hw hph (by rw [hso]; simp) hpass
  refine ⟨_, exec_descriptorReadReturn hq, ?_, hmark, fun e he => mem_of_keys hkeys (List.mem_append_right _ he)⟩
  rw [map_pos_of_keys hkeys, List.map_append, readEntries_pos]

/-- A failing check's completion joins the queue (R52). -/
theorem descriptorReadReturn_completes {first : Count} {a : Addr} {rest : List MasterTransfer} {m : MemoryMap} {e : Entry} {s : State}
    (hq : s.bus.queue = ⟨.descriptorRead first 1, .read a .four⟩ :: rest) (hr : s.ring.descriptorRead = some ⟨first, 1, false⟩)
    (hm : s.loader.map = some m) (hw : s.bus.waiting = []) (hroom : rest.length ≤ 7) (he : s.power.mode ≠ .doze)
    (hent : e = entryOf first (slice (bytesOf (memReadWords s.sram a 4)) 0 16)) : ∃ t, exec .descriptorReadReturn s = .next t
      ∧ ∀ v, entryCheck s e = some v →
        ⟨.completion first v, .write (addrOf (descriptorAddr m.txBase m.txSize first + 4)) [completionWord v]⟩ ∈ t.bus.queue :=
  ⟨_, exec_descriptorReadReturn hq, fun _ hv => settle_descriptorsReturn_fails (s := { s with bus.queue := rest, bus.waitCount := 0 }) hr hm hw
    hroom he hent.symm hv⟩

theorem takeClass_none_iff (c : Byte) : takeClass c = none ↔ 2 < c.toNat := by
  unfold takeClass
  (repeat' split) <;> simp_all
  rename_i h0 h1 h2
  bv_omega

/-- An eligible entry is taken as the read returns, and its first frame read issued (R53, R54). -/
theorem settle_enteredTake {first : Count} {m : MemoryMap} {rest : List MasterTransfer} {e : Entry} {cls : FrameClass} {s : State}
    (hm : s.loader.map = some m) (hw : s.bus.waiting = []) (hroom : rest.length ≤ 7) (hph : s.path.phase ≠ some .closing)
    (hs : softResetStands s = false) (he : s.power.mode ≠ .doze) (hV : s.hold.dqV = []) (hD : s.hold.dqD = []) (hpos : e.pos = first) :
    let t := settle (readAhead { beginTake e cls (entered e rest s) with ring.readMark := some (advance first 1) })
    TakeBegun e cls (entered e rest s) t ∧ .frameRead first ∈ t.bus.queue.map (·.purpose) := by
  have hB := beginTake_waiting e cls (entered e rest s)
  generalize hv : ({ beginTake e cls (entered e rest s) with ring.readMark := some (advance first 1) } : State) = v
  have hwv : v.bus.waiting = [.frameRead first] := by
    rw [← hv, ← hpos]
    simpa [entered, hw] using hB
  obtain ⟨Y, hY, hcalm⟩ := readAhead_line hwv
  obtain ⟨w, d, hquiet⟩ := readAhead_quiet v
  have calm : ∀ p ∈ (readAhead v).bus.waiting, calmRequest p = true ∧ p ≠ .txcHandBack := by
    rw [hY]
    exact List.forall_mem_cons.2 ⟨by simp [calmRequest], hcalm (by simp)⟩
  have hso : s.loader.softReset ≠ .completing := by
    intro h
    simp [softResetStands, h] at hs
  have taken := settle_taken (e := e) (cls := cls) (s := entered e rest s) (u := readAhead v) ⟨w, some (advance first 1), d, by rw [hquiet, ← hv]⟩
    (fun p hp => (calm p hp).1) ⟨fun hmem => (calm _ hmem).2 rfl, by simpa [← hv, entered] using hph, by simpa [← hv, entered] using hso⟩
    (by simpa [← hv, entered] using hV) (by simpa [← hv, entered] using hD)
  refine ⟨taken.1, settle_issues_frameRead (m := m) (by simpa [← hv, entered] using hm) hY (by simpa [← hv, entered] using hroom) (by simpa [← hv, entered] using he) ?_⟩
  obtain ⟨x, b, u, hu, heq⟩ := beginTake_eq e cls (entered e rest s)
  have htakes : (readAhead v).ring.takes = s.ring.takes ++ [takeOf e cls (entered e rest s)] := by
    rw [hquiet, ← hv, heq]
    split <;> simp [hu, entered]
  exact hpos ▸ takeAt_new htakes

/-- An entry that is not taken stays PENDING, and nothing is taken (R53). -/
theorem settle_enteredWaits {first : Count} {rest : List MasterTransfer} {e : Entry} {s : State} (hw : s.bus.waiting = [])
    (hph : s.path.phase ≠ some .closing) (hs : softResetStands s = false) (hV : s.hold.dqV = []) (hD : s.hold.dqD = []) :
    let t := settle (readAhead { entered e rest s with ring.readMark := some (advance first 1) })
    t.ring.takes = s.ring.takes ∧ t.hold = s.hold ∧ t.ring.window = s.ring.window ++ [e] ∧ t.path = s.path := by
  obtain ⟨ps, hps, hcalm⟩ := readAhead_asks { entered e rest s with ring.readMark := some (advance first 1) }
  obtain ⟨w, d, hquiet⟩ := readAhead_quiet { entered e rest s with ring.readMark := some (advance first 1) }
  have hso : s.loader.softReset ≠ .completing := by
    intro h
    simp [softResetStands, h] at hs
  generalize hv : readAhead { entered e rest s with ring.readMark := some (advance first 1) } = v at *
  have hwv : v.bus.waiting = ps := by simpa [entered, hw] using hps
  obtain ⟨w', q, a, b, c, ht⟩ := settle_quiet (s := v) (n := 64) rfl (fun p hp => (hcalm p (hwv ▸ hp)).1)
    ⟨fun hmem => (hcalm _ (hwv ▸ hmem)).2 rfl, by rw [hquiet]; exact hph, by rw [hquiet]; exact hso⟩ (by rw [hquiet]; exact hV) (by rw [hquiet]; exact hD)
  dsimp only
  rw [ht]
  simp [hquiet, entered]

/-! ### The 1 s sweep -/

theorem exec_sweep1s {s : State} (h : s.hold.sweep1s.isSome = true) :
    exec .sweep1s s = .next (settle (sweepData { s with hold.sweep1s := some 1000 })) := by
  show Host.Outcome.next (doSweep1s s) = _
  simp [doSweep1s, h]

/-- A state in which the window's one entry is judged with the blocks of `s` but for the free list, UQ-D, DQ-D and the records whose
message runs. -/
structure Judged (s w : State) : Prop where
  ring : w.ring = s.ring
  path : w.path = s.path
  loader : w.loader = s.loader
  power : w.power = s.power
  waiting : w.bus.waiting = s.bus.waiting
  clock : w.clock = s.clock
  dqV : w.hold.dqV = s.hold.dqV
  ldo : w.radio.ldo = s.radio.ldo

theorem Judged.mayTake {s w : State} (h : Judged s w) : mayTake w = mayTake s := by
  simp [Machine.mayTake, holdsRings, softResetStands, enginesRun, h.path, h.loader, h.power]

/-- The single PENDING entry, eligible in `w`, is taken to the command's end (R53, R54). -/
theorem settle_judged {e : Entry} {cls : FrameClass} {s w : State} (h : Judged s w) (hwin : s.ring.window = [e])
    (hw : s.bus.waiting = []) (hph : s.path.phase ≠ some .closing) (hs : softResetStands s = false) (hmay : mayTake s = true)
    (hcls : takeClass e.cls = some cls) (hfew : s.ring.takes.length < 4) (hel : eligible w e = true) (hV : s.hold.dqV = []) (hD : w.hold.dqD = []) :
    judgePending w = beginTake e cls w ∧ TakeBegun e cls w (settle (beginTake e cls w))
      ∧ (settle (beginTake e cls w)).hold = (beginTake e cls w).hold
      ∧ ((∀ live, w.radio.ldo ≠ some (.lowPower true live)) → (settle (beginTake e cls w)).radio.ldo = w.radio.ldo)
      ∧ (settle (beginTake e cls w)).ring.window = [{ e with st := .taking }] := by
  have hso : s.loader.softReset ≠ .completing := by
    intro hc
    simp [softResetStands, hc] at hs
  have hwB : (beginTake e cls w).bus.waiting = [.frameRead e.pos] := by simp [beginTake_waiting, h.waiting, hw]
  obtain ⟨taken, hhold, hldo⟩ := settle_taken (e := e) (cls := cls) (s := w) (u := beginTake e cls w) ⟨_, _, _, rfl⟩
    (by simp [hwB, calmRequest]) ⟨by simp [hwB], by simpa [h.path] using hph, by simpa [h.loader] using hso⟩ (by simpa [h.dqV] using hV) (by simpa using hD)
  refine ⟨?_, taken, hhold, hldo, by simp [taken.window, h.ring, hwin]⟩
  rw [judgePending_last (l := []) (e := e) (by simp [h.ring, hwin]) (by simp), judgeEntry_eq hcls (h.mayTake.trans hmay), if_pos ⟨by rw [h.ring]; exact hfew, hel⟩]

/-- The reserve of a class, as `entered` leaves it. -/
theorem eligible_entered {e : Entry} {cls : FrameClass} {rest : List MasterTransfer} {s : State} (hc : takeClass e.cls = some cls)
    (hp : e.st = .pending) (hn : e.completing = false) (hneed : e.cellsNeed = (e.length + 255) / 256) :
    eligible (entered e rest s) e = true ↔ (e.length + 255) / 256 + reserveFor s cls ≤ s.hold.freeList.length
      ∧ (cls = .data → s.path.path ≠ .returning → ∀ r ∈ s.hold.uqD, ageOf s.clock r.time ≤ s.loader.policy.dataHold * 1000) := by
  rw [← hneed]
  exact eligible_iff (s := entered e rest s) hc hp hn

/-- The 1 s sweep with UQ-D empty and one record past the downlink hold in DQ-D: its cells join the free list, and the window's entry is
judged (R53, R76, R77). -/
theorem sweepData_downlink {x : FrameRecord} {s : State} (hU : s.hold.uqD = []) (hD : s.hold.dqD = [x])
    (hold : s.loader.policy.downlinkHold * 100 < ageOf s.clock x.time) (hldo : ∀ q live r, s.radio.ldo ≠ some (.sendUp q live r))
    (hcells : x.cells ≠ []) : ∃ w, sweepData s = judgePending w ∧ Judged s w ∧ w.hold.freeList = s.hold.freeList ++ x.cells
      ∧ w.hold.uqD = [] ∧ w.hold.dqD = [] := by
  have free : onLdoNow (reportLoss .expired x { s with hold.dqD := [] }) x = false := by
    have same : (reportLoss .expired x { s with hold.dqD := [] }).radio.ldo = s.radio.ldo := by simp
    unfold onLdoNow
    rw [same]
    split
    · exact absurd ‹_› (hldo _ _ _)
    · rfl
  have lost : loseRecord .expired x { s with hold.dqD := [] }
      = freeCells x.cells (reportLoss .expired x { s with hold.dqD := [] }) := by simp [loseRecord, freeRecord, free]
  have old : decide (s.loader.policy.downlinkHold * 100 < recordAge s x) = true := decide_eq_true hold
  have gone : [x].filter (fun r => decide (s.loader.policy.downlinkHold * 100 < recordAge s r)) = [x] := List.filter_cons_of_pos old
  have left : [x].filter (fun r => !decide (s.loader.policy.downlinkHold * 100 < recordAge s r)) = [] :=
    List.filter_cons_of_neg (by simp [old])
  have swept : sweepData s = loseRecord .expired x { s with hold.dqD := [] } := by
    simp only [sweepData, hU, List.filter_nil, List.foldl_nil, hD, gone, left]
    rfl
  refine ⟨evalPause { reportLoss .expired x { s with hold.dqD := [] } with
      hold.freeList := (reportLoss .expired x { s with hold.dqD := [] }).hold.freeList ++ x.cells }, ?_, ?_, by simp, by simp [hU], by simp⟩
  · rw [swept, lost]
    simp [freeCells, hcells]
  · constructor <;> simp

/-- The 1 s sweep with one record past the data hold in UQ-D, still on LDO: it is given up, its cells wait, and the window's entry is
judged (R53, R67, R77). -/
theorem sweepData_uplink {x : FrameRecord} {slot : Slot} {live : Bool} {s : State} (hU : s.hold.uqD = [x]) (hD : s.hold.dqD = [])
    (hold : s.loader.policy.dataHold * 1000 < ageOf s.clock x.time) (hldo : s.radio.ldo = some (.sendUp slot live (some x))) :
    ∃ w, (sweepData s = loseAll .expired [] { judgePending w with hold.dqD := [] }) ∧ Judged s w ∧ w.hold.freeList = s.hold.freeList
      ∧ w.hold.uqD = [] ∧ w.hold.dqD = [] ∧ w.hold.onLdo = s.hold.onLdo ++ [x] := by
  have sending : onLdoNow (reportLoss .expired x { s with hold.uqD := [] }) x = true := by
    have same : (reportLoss .expired x { s with hold.uqD := [] }).radio.ldo = s.radio.ldo := by simp
    unfold onLdoNow
    rw [same, hldo]
    simp
  have lost : loseRecord .expired x { s with hold.uqD := [] } = { reportLoss .expired x { s with hold.uqD := [] } with
      hold.onLdo := (reportLoss .expired x { s with hold.uqD := [] }).hold.onLdo ++ [x] } := by simp [loseRecord, freeRecord, sending]
  have old : decide (s.loader.policy.dataHold * 1000 < recordAge s x) = true := decide_eq_true hold
  have gone : [x].filter (fun r => decide (s.loader.policy.dataHold * 1000 < recordAge s r)) = [x] := List.filter_cons_of_pos old
  have expired : expireUqD x s = judgePending (loseRecord .expired x { s with hold.uqD := [] }) := by simp [expireUqD, hU]
  have hdq : (judgePending (loseRecord .expired x { s with hold.uqD := [] })).hold.dqD = [] := by simp [hD]
  refine ⟨loseRecord .expired x { s with hold.uqD := [] }, ?_, ?_, ?_, ?_, ?_, ?_⟩
  · simp only [sweepData, hU, gone, List.foldl_cons, List.foldl_nil, expired, hdq, List.filter_nil]
  · rw [lost]
    constructor <;> simp
  · simp [lost]
  · simp [lost]
  · simp [lost, hD]
  · simp [lost]

/-- Settles O31: the entries that pass join the window by `descriptorReadReturn_keys`, one that fails is completed, and a single one is judged
by R53's rule, on the read's return or as the 1 s sweep frees what held it back. -/
theorem descriptorReadEntersWindow : Obligations.DescriptorReadEntersWindow := by
  refine ⟨?_, ?_, ?_, ?_, ?_, ?_⟩
  · intro first n a len rest m s hq hr hm hw hph hso hpass
    obtain ⟨t, ht, hpos, hmark, hkeys⟩ := descriptorReadReturn_keys hq hr hw hph hso hpass
    refine ⟨t, ht, hpos, hmark, fun e he => ?_, fun hlen i hi => ?_⟩
    · obtain ⟨e', hmem, hkey⟩ := hkeys e he
      obtain ⟨i, _, rfl⟩ := List.mem_map.1 he
      simp only [entryKey, Prod.mk.injEq] at hkey
      exact ⟨e', hmem, hkey.1, hkey.2.1, hkey.2.2.1, hkey.2.2.2.1, hkey.2.2.2.2⟩
    · obtain ⟨e, he, hpos', hcls, hlength, haddr⟩ := readEntries_layout s.sram a len first hlen hi
      obtain ⟨e', hmem, hkey⟩ := hkeys e he
      simp only [entryKey, Prod.mk.injEq] at hkey
      obtain ⟨hp, hc, hl, ha, _⟩ := hkey
      exact ⟨e', hmem, hp.trans hpos', hc.trans hcls, hl.trans hlength, ha.trans haddr⟩
  · intro first a rest m e s hq hr hm hw hroom he hent
    obtain ⟨t, ht, hdone⟩ := descriptorReadReturn_completes hq hr hm hw hroom he hent
    refine ⟨t, ht, fun hc => hdone .notCarried ?_, fun hc hl => hdone .empty ?_, fun hc hl => hdone .tooLong ?_⟩
    · simp [entryCheck, (takeClass_none_iff _).2 hc]
    · have known : takeClass e.cls ≠ none := fun h => by
        have := (takeClass_none_iff _).1 h
        omega
      simp [entryCheck, known, hl]
    · have known : takeClass e.cls ≠ none := fun h => by
        have := (takeClass_none_iff _).1 h
        omega
      have long : e.length ≠ 0 := by omega
      simp [entryCheck, known, long, hl]
  · intro first a rest m e cls s hq hr hm hw hroom hring hph hs he hent hpass hcls hwin hV hD hfew hcells hold
    have hclass := hcls ▸ takeClass_of_passes hpass
    have hpos : e.pos = first := by rw [hent]; rfl
    have able := (eligible_entered (rest := rest) (s := s) hclass (by rw [hent]; rfl) (by rw [hent]; rfl) (by rw [hent]; rfl)).2 ⟨hcells, hold⟩
    have hexec := exec_entered hq hr (mayTake_of hring hph hs he) hent hpass hcls hwin
    rw [if_pos ⟨hfew, able⟩] at hexec
    obtain ⟨taken, hread⟩ := settle_enteredTake (e := e) (cls := cls) hm hw hroom hph hs he hV hD hpos
    refine ⟨_, hexec, ?_, taken.freeList, hread, ?_, taken.path, taken.timer, taken.kept, taken.attaches, taken.restarts, taken.powers, taken.waits⟩
    · rw [taken.takes, takeOf, hpos]
      rfl
    · refine ⟨{ e with st := .taking }, ?_, hpos, rfl⟩
      rw [taken.window]
      simp [entered]
  · intro first a rest m e cls s hq hr hm hw hroom hring hph hs he hent hpass hcls hwin hV hD hnot
    have hclass := hcls ▸ takeClass_of_passes hpass
    have hpos : e.pos = first := by rw [hent]; rfl
    have able := eligible_entered (rest := rest) (s := s) hclass (by rw [hent]; rfl) (by rw [hent]; rfl) (by rw [hent]; rfl)
    have barred : ¬ (s.ring.takes.length < 4 ∧ eligible (entered e rest s) e = true) := by
      rintro ⟨hfew, hel⟩
      obtain ⟨hcells, hold⟩ := able.1 hel
      obtain h | h | ⟨hdata, hret, r, hmem, h⟩ := hnot
      · omega
      · simp only [reserveFor] at hcells
        omega
      · have := hold hdata hret r hmem
        omega
    have hexec := exec_entered hq hr (mayTake_of hring hph hs he) hent hpass hcls hwin
    rw [if_neg barred] at hexec
    obtain ⟨htakes, hhold, hwindow, hpath⟩ := settle_enteredWaits (first := first) (rest := rest) (e := e) hw hph hs hV hD
    refine ⟨_, hexec, htakes, by rw [hhold], ⟨e, ?_, hpos, by rw [hent]; rfl⟩, by rw [hpath], by rw [hpath]⟩
    rw [hwindow]
    simp
  · intro x e cls s hsweep hw hring hph hs he hwin hst hcomp hc hneed hcls hfew hU hV hD hold hldo hshort hcells
    have known : takeClass e.cls ≠ none := fun h => by
      have := (takeClass_none_iff _).1 h
      omega
    have hclass : takeClass e.cls = some cls := by
      unfold takeClass at known ⊢
      rw [hcls]
      (repeat' split) <;> simp_all
    have stored : x.cells ≠ [] := by
      rintro h
      simp only [h, List.length_nil] at hcells
      omega
    obtain ⟨w, hswept, judged, hfree, huq, hdq⟩ := sweepData_downlink (s := { s with hold.sweep1s := some 1000 }) hU hD hold hldo stored
    have able : eligible w e = true := by
      rw [eligible_iff hclass hst hcomp, hneed, reserveFor, hfree, judged.path, judged.loader, huq]
      exact ⟨by simpa using hcells, by simp⟩
    obtain ⟨hjudge, taken, hhold, _, hwindow⟩ := settle_judged judged hwin hw hph hs (mayTake_of hring hph hs he) hclass hfew able hV hdq
    refine ⟨_, exec_sweep1s hsweep, ?_⟩
    rw [hswept, hjudge]
    refine ⟨?_, hwindow, by rw [taken.freeList, hfree], by rw [hhold]; simpa using hdq⟩
    rw [taken.takes, takeOf, hfree, judged.ring, judged.clock]
  · intro x e slot live s hsweep hw hring hret hs hph he hwin hst hcomp hc hneed hfew hU hV hD hold hldo hcells
    have hclass : takeClass e.cls = some .data := by simp [takeClass, hc]
    obtain ⟨w, hswept, judged, hfree, huq, hdq, honLdo⟩ := sweepData_uplink (s := { s with hold.sweep1s := some 1000 }) hU hD hold hldo
    have able : eligible w e = true := by
      rw [eligible_iff hclass hst hcomp, hneed, reserveFor, hfree, judged.path, judged.loader, huq]
      exact ⟨by simpa [hret] using hcells, by simp⟩
    obtain ⟨hjudge, taken, hhold, hsend, hwindow⟩ := settle_judged judged hwin hw hph hs (mayTake_of hring hph hs he) hclass hfew able hV hdq
    have same : { beginTake e .data w with hold.dqD := [] } = beginTake e .data w := by
      have h : (beginTake e .data w).hold.dqD = [] := by simpa using hdq
      rw [← h]
    refine ⟨_, exec_sweep1s hsweep, ?_⟩
    rw [hswept, hjudge, same]
    refine ⟨?_, hwindow, ?_, ?_, ?_, ?_⟩
    · show (settle (beginTake e .data w)).ring.takes = _
      rw [taken.takes, takeOf, hfree, judged.ring, judged.clock]
    · show (settle (beginTake e .data w)).hold.freeList = _
      rw [taken.freeList, hfree]
    · show (settle (beginTake e .data w)).hold.uqD = _
      rw [hhold]
      simpa using huq
    · show (settle (beginTake e .data w)).hold.onLdo = _
      rw [hhold]
      simpa using honLdo
    · show (settle (beginTake e .data w)).radio.ldo = _
      rw [hsend (by simp [judged.ldo, hldo]), judged.ldo]

end Sys2Proof.Machine
end

section
/-! The application of a policy block (R163, R164), and the takeovers and interruptions that a verdict or an override brings (R5, R20). -/

-- One theorem at a time, as in the model's laws: the threads of many at once would not fit the memory a check has.
set_option Elab.async false

namespace Sys2Proof.Machine

/-! ### What the owners do besides the override -/

/-- The owners' part of an application that follows the override's (R163). -/
def ownersRest (old p : Policy) (startUp : Bool) (s : State) : State :=
  let s := judgePending (evalPause s)
  let s := if p.burst != old.burst || p.overhead != old.overhead then placementAttempt s else s
  powerRule (meterTakes old startUp s)

/-- The policy taken into force and, when the override changes, what that brings (R2, R15, R20). -/
def ownersOverride (p : Policy) (s : State) : State :=
  let u := clampCredit { s with loader.policy := p }
  if p.pathOverride != s.loader.policy.pathOverride then overrideChanged u else u

theorem ownersTake_eq (p : Policy) (startUp : Bool) (s : State) :
    ownersTake p startUp s = ownersRest s.loader.policy p startUp (ownersOverride p s) := rfl

/-- What the application leaves for the record's detail: new requests are the engines', and only losses, anomalies and the allowance are
raised. -/
structure PolicyKeeps (s t : State) : Prop where
  asked : ∀ p ∈ t.bus.waiting, p ∈ s.bus.waiting ∨ engineAsks p = true
  entries : .eventRecord ∉ s.bus.waiting → ∀ k, ¬ engineRaises k → k ≠ .allowance → entryOfKind t k = entryOfKind s k
  places : t.events.entries.length = s.events.entries.length

theorem EngineAsks.policyKeeps {s t : State} (h : EngineAsks s t) : PolicyKeeps s t := ⟨h.asked, fun hs k hk _ => h.entries hs k hk, h.places⟩

namespace PolicyKeeps

theorem refl (s : State) : PolicyKeeps s s := (EngineAsks.refl s).policyKeeps

theorem noRecord {s t : State} (h : PolicyKeeps s t) (hs : .eventRecord ∉ s.bus.waiting) : .eventRecord ∉ t.bus.waiting := fun ht =>
  (h.asked _ ht).elim hs (by simp [engineAsks])

theorem noStatus {s t : State} (h : PolicyKeeps s t) (hs : .receiveStatus ∉ s.bus.waiting) : .receiveStatus ∉ t.bus.waiting := fun ht =>
  (h.asked _ ht).elim hs (by simp [engineAsks])

theorem unforced {s t : State} (h : PolicyKeeps s t) (hs : Unforced s) : Unforced t :=
  ⟨fun ht => (h.asked _ ht).elim hs.1 (by simp [engineAsks]), fun ht => (h.asked _ ht).elim hs.2 (by simp [engineAsks])⟩

theorem trans {s t u : State} (h : PolicyKeeps s t) (h' : PolicyKeeps t u) : PolicyKeeps s u where
  asked p hp := (h'.asked p hp).elim (h.asked p) .inr
  entries hs k hk ha := (h'.entries (h.noRecord hs) k hk ha).trans (h.entries hs k hk ha)
  places := h'.places.trans h.places

theorem ite {s t u : State} {p : Prop} [Decidable p] (ht : PolicyKeeps s t) (hu : PolicyKeeps s u) : PolicyKeeps s (if p then t else u) := by
  split
  · exact ht
  · exact hu

end PolicyKeeps

theorem evalAllowance_policyKeeps (c : AllowanceCause) (s : State) : PolicyKeeps s (evalAllowance c s) := by
  have set (a : Allowance) (u : State) : (setAllowance a u).bus = u.bus ∧ (setAllowance a u).events = u.events := by
    simp only [setAllowance]
    split <;> simp
  simp only [evalAllowance]
  split
  · exact .refl s
  · generalize hd : EventDetail.allowance _ _ _ _ = d
    have kind : detailKind d = .allowance := by rw [← hd]; rfl
    obtain ⟨hbus, hevents⟩ := set (allowanceOf s.loader.policy.allowanceMiB (usageCount s)) (raiseEvent d s)
    refine ⟨fun p hp => .inl (by simpa [hbus] using hp), fun _ k _ hk => ?_, by simp [hevents]⟩
    simp only [entryOfKind, hevents]
    exact entryOfKind_raiseEvent_ne (by rw [kind]; exact Ne.symm hk) s

theorem meterTakes_policyKeeps (old : Policy) (startUp : Bool) (s : State) : PolicyKeeps s (meterTakes old startUp s) := by
  have same {u v : State} (hb : v.bus = u.bus) (he : v.events = u.events) : PolicyKeeps u v :=
    ⟨fun p hp => .inl (by rw [← hb]; exact hp), fun _ k _ _ => by simp [entryOfKind, he], by rw [he]⟩
  have capped (b : Bool) (c : Nat) (u : State) : PolicyKeeps u (if b then setDownlinkCap c u else u) := .ite (same (by simp) (by simp)) (.refl _)
  have rebased (b : Bool) (c : Nat) (u : State) : PolicyKeeps u (if b then applyUsageBase c u else u) := .ite (same rfl rfl) (.refl _)
  have evaluated (b : Bool) (u : State) : PolicyKeeps u (if b then evalAllowance .policy u else u) :=
    .ite (evalAllowance_policyKeeps _ _) (.refl _)
  exact (capped _ _ s).trans ((rebased _ _ _).trans (evaluated _ _))

theorem ownersRest_policyKeeps (old p : Policy) (startUp : Bool) (s : State) : PolicyKeeps s (ownersRest old p startUp s) := by
  have judged : EngineKeeps s (judgePending (evalPause s)) := (judgePending_engineKeeps _).of_moved (by simp) (by simp)
  unfold ownersRest
  have placed (b : Bool) (u : State) : PolicyKeeps u (if b then placementAttempt u else u) :=
    .ite (placementAttempt_engineKeeps u).policyKeeps (.refl u)
  exact judged.policyKeeps.trans ((placed _ _).trans ((meterTakes_policyKeeps _ _ _).trans (powerRule_asks _).1.policyKeeps))

/-- An empty window stays so. -/
theorem ownersRest_window {old p : Policy} {startUp : Bool} {s : State} (h : s.ring.window = []) :
    (ownersRest old p startUp s).ring.window = [] := by
  have judged : EngineKeeps s (judgePending (evalPause s)) := (judgePending_engineKeeps _).of_moved (by simp) (by simp)
  have hj := (judged.idle h).1
  unfold ownersRest
  refine ((powerRule_asks _).2 ?_).1
  simp only [meterTakes_frame]
  split
  · exact ((placementAttempt_engineKeeps _).idle hj).1
  · exact hj

/-- What the rest of the application leaves of the path, the views, the rings and the health. -/
@[simp] theorem ownersRest_frame (old p : Policy) (startUp : Bool) (s : State) :
    (ownersRest old p startUp s).path.path = s.path.path ∧ (ownersRest old p startUp s).path.phase = s.path.phase
    ∧ (ownersRest old p startUp s).path.dwellD = s.path.dwellD ∧ (ownersRest old p startUp s).path.dwell = s.path.dwell
    ∧ (ownersRest old p startUp s).path.releaseTimer = s.path.releaseTimer ∧ (ownersRest old p startUp s).path.txReleased = s.path.txReleased
    ∧ (ownersRest old p startUp s).path.rxReleased = s.path.rxReleased ∧ (ownersRest old p startUp s).path.drainTimer = s.path.drainTimer
    ∧ (ownersRest old p startUp s).path.radioWanted = s.path.radioWanted ∧ (ownersRest old p startUp s).path.returnPause = s.path.returnPause
    ∧ (ownersRest old p startUp s).path.refallOpen = s.path.refallOpen
    ∧ (ownersRest old p startUp s).bus.fixedH = s.bus.fixedH ∧ (ownersRest old p startUp s).bus.fixedG = s.bus.fixedG
    ∧ (ownersRest old p startUp s).bus.uplinkView = s.bus.uplinkView ∧ (ownersRest old p startUp s).bus.receiveView = s.bus.receiveView
    ∧ (ownersRest old p startUp s).bus.uplinkViewValue = s.bus.uplinkViewValue
    ∧ (ownersRest old p startUp s).bus.receiveViewValue = s.bus.receiveViewValue
    ∧ (ownersRest old p startUp s).ring.base = s.ring.base ∧ (ownersRest old p startUp s).ring.fence = s.ring.fence
    ∧ (ownersRest old p startUp s).ring.fillCursor = s.ring.fillCursor ∧ (ownersRest old p startUp s).ring.scanRunning = s.ring.scanRunning
    ∧ (ownersRest old p startUp s).ring.readMark = s.ring.readMark ∧ (ownersRest old p startUp s).ring.descriptorRead = s.ring.descriptorRead
    ∧ (ownersRest old p startUp s).ring.delivery = s.ring.delivery ∧ (ownersRest old p startUp s).ring.partRxf = s.ring.partRxf
    ∧ (ownersRest old p startUp s).ring.partTxc = s.ring.partTxc
    ∧ (ownersRest old p startUp s).health = s.health ∧ (ownersRest old p startUp s).power = s.power ∧ (ownersRest old p startUp s).pins = s.pins
    ∧ (ownersRest old p startUp s).clock = s.clock ∧ (ownersRest old p startUp s).sram = s.sram
    ∧ (ownersRest old p startUp s).bus.queue = s.bus.queue ∧ (ownersRest old p startUp s).bus.shadows = s.bus.shadows
    ∧ (ownersRest old p startUp s).loader.policy = s.loader.policy ∧ (ownersRest old p startUp s).loader.map = s.loader.map
    ∧ (ownersRest old p startUp s).loader.readState = s.loader.readState ∧ (ownersRest old p startUp s).loader.readKind = s.loader.readKind
    ∧ (ownersRest old p startUp s).loader.softReset = s.loader.softReset ∧ (ownersRest old p startUp s).loader.phase = s.loader.phase
    ∧ (ownersRest old p startUp s).loader.softResetInForce = s.loader.softResetInForce
    ∧ (ownersRest old p startUp s).loader.counterClearInForce = s.loader.counterClearInForce
    ∧ (ownersRest old p startUp s).loader.shadowsLoaded = s.loader.shadowsLoaded
    ∧ (ownersRest old p startUp s).loader.pgenAtIssue = s.loader.pgenAtIssue
    ∧ (ownersRest old p startUp s).events.pageWanted = s.events.pageWanted
    ∧ (ownersRest old p startUp s).hold.dqV = s.hold.dqV ∧ (ownersRest old p startUp s).hold.dqD = s.hold.dqD := by
  unfold ownersRest
  dsimp only
  split <;> simp

/-! ### An ordinary application without a soft reset -/

theorem exec_policyApplied {a : Addr} {rest : List MasterTransfer} {s : State} (hq : s.bus.queue = ⟨.policyRead true, .read a .sixteen⟩ :: rest) :
    exec .policyApplied s = .next (settle (applyBlock (s.loader.firstHalf ++ bytesOf (memReadWords s.sram a 16))
      { s with bus.queue := rest, bus.waitCount := 0 })) := by
  show Host.Outcome.next (doPolicyApplied s) = _
  simp only [doPolicyApplied, carryWhen, headPurpose, carryHead, hq]
  rfl

/-- The bytes of the second half as the statements of chapter 10 spell them. -/
theorem bytes_secondHalf (s : State) (a : Addr) : bytesOf (memReadWords s.sram a 16) = bytesRead s.sram a 64 := bytesOf_memReadWords s.sram a 16

/-- Both requests taken into force move two flags of the loader and, at most, the counters (R164). -/
theorem takeRequests_eq (bs : List Byte) (startUp : Bool) (s : State) : ∃ c, takeRequests bs startUp s = { s with
    events.counters := c, loader.counterClearInForce := asksCounterClear bs, loader.softResetInForce := asksSoftReset bs } := by
  simp only [takeRequests]
  split
  · exact ⟨_, rfl⟩
  · exact ⟨s.events.counters, rfl⟩

/-- The state in which the override's change is acted on: the requests and the policy in force, the credit in its range (R163, R164). -/
def policyTaken (bs : List Byte) (startUp : Bool) (s : State) : State :=
  clampCredit { takeRequests bs startUp s with loader.policy := policyOf bs }

theorem policyTaken_eq (bs : List Byte) (startUp : Bool) (s : State) : ∃ c k, policyTaken bs startUp s = { s with
    events.counters := c, pacer.credit := k, loader.counterClearInForce := asksCounterClear bs
    loader.softResetInForce := asksSoftReset bs, loader.policy := policyOf bs } := by
  obtain ⟨c, hc⟩ := takeRequests_eq bs startUp s
  exact ⟨c, _, by rw [policyTaken, hc]; rfl⟩

/-- The state the override's owner leaves. -/
def overrideTaken (bs : List Byte) (startUp : Bool) (s : State) : State :=
  if (policyOf bs).pathOverride != s.loader.policy.pathOverride then overrideChanged (policyTaken bs startUp s) else policyTaken bs startUp s

/-- The application up to its event. -/
def ownersTaken (bs : List Byte) (startUp : Bool) (s : State) : State :=
  ownersRest s.loader.policy (policyOf bs) startUp (overrideTaken bs startUp s)

/-- An application: its block's requests and policy, its event, and what its kind brings (R164). -/
theorem applyBlock_eq (bs : List Byte) (s : State) : applyBlock bs s
    = afterApplication s.loader.readKind (asksSoftReset bs && !s.loader.softResetInForce)
      (raiseEvent (.policyApplied (clampedCount bs) s.loader.pgenAtIssue) (ownersTaken bs (s.loader.readKind == .startUp) s)) := by
  obtain ⟨c, hc⟩ := takeRequests_eq bs (s.loader.readKind == .startUp) s
  have old : (takeRequests bs (s.loader.readKind == .startUp) s).loader.policy = s.loader.policy := by rw [hc]
  have taken : ownersTake (policyOf bs) (s.loader.readKind == .startUp) (takeRequests bs (s.loader.readKind == .startUp) s)
      = ownersTaken bs (s.loader.readKind == .startUp) s := by
    rw [ownersTake_eq, ownersTaken, overrideTaken, ownersOverride, old]
    rfl
  have pgen : (ownersTaken bs (s.loader.readKind == .startUp) s).loader.pgenAtIssue = s.loader.pgenAtIssue := by
    rw [← taken]
    simp
  simp only [applyBlock, taken, pgen]

theorem applyBlock_ordinary {bs : List Byte} {s : State} (hk : s.loader.readKind = .ordinary)
    (hsoft : asksSoftReset bs = false ∨ s.loader.softResetInForce = true) : applyBlock bs s
    = readEnds (raiseEvent (.policyApplied (clampedCount bs) s.loader.pgenAtIssue) (ownersTaken bs false s)) := by
  have begins : (asksSoftReset bs && !s.loader.softResetInForce) = false := by obtain h | h := hsoft <;> simp [h]
  have kind : (ReadKind.ordinary == ReadKind.startUp) = false := rfl
  rw [applyBlock_eq, hk, begins, kind]
  simp only [afterApplication, Bool.false_eq_true, if_false]

theorem readEnds_waiting (s : State) : ∃ ps, (readEnds s).bus.waiting = s.bus.waiting ++ ps ∧ ∀ p ∈ ps, ∃ b, p = .policyRead b := by
  unfold readEnds
  split
  · exact ⟨[.policyRead false, .policyRead true], rfl, by simp⟩
  · exact ⟨[], by simp, by simp⟩

theorem readEnds_keepsLine (s : State) : (.eventRecord ∉ s.bus.waiting → .eventRecord ∉ (readEnds s).bus.waiting)
    ∧ (.receiveStatus ∉ s.bus.waiting → .receiveStatus ∉ (readEnds s).bus.waiting) ∧ (Unforced s → Unforced (readEnds s)) := by
  obtain ⟨ps, hps, hall⟩ := readEnds_waiting s
  have other (q : Purpose) (hq : ∀ b, q ≠ .policyRead b) (hs : q ∉ s.bus.waiting) : q ∉ (readEnds s).bus.waiting := by
    rw [hps, List.mem_append]
    rintro (h | h)
    · exact hs h
    · obtain ⟨b, hb⟩ := hall q h
      exact hq b hb
  exact ⟨other _ (by simp), other _ (by simp), fun h => ⟨other _ (by simp) h.1, other _ (by simp) h.2⟩⟩

/-- The application's event, on what its owners leave. -/
def appliedTold (bs : List Byte) (startUp : Bool) (s : State) : State :=
  raiseEvent (.policyApplied (clampedCount bs) s.loader.pgenAtIssue) (ownersTaken bs startUp s)

/-- What the owners and the event leave of the line and of the records. -/
theorem appliedTold_keeps {bs : List Byte} {startUp : Bool} {s v : State} (hv : overrideTaken bs startUp s = v) :
    (.eventRecord ∉ v.bus.waiting → .eventRecord ∉ (appliedTold bs startUp s).bus.waiting
      ∧ (∀ k, ¬ engineRaises k → k ≠ .allowance → k ≠ .policyApplied → detailOfKind (appliedTold bs startUp s) k = detailOfKind v k)
      ∧ (v.events.entries.length = 11 → detailOfKind (appliedTold bs startUp s) .policyApplied
          = some (.policyApplied (clampedCount bs) s.loader.pgenAtIssue)))
    ∧ (.receiveStatus ∉ v.bus.waiting → .receiveStatus ∉ (appliedTold bs startUp s).bus.waiting)
    ∧ (Unforced v → Unforced (appliedTold bs startUp s)) := by
  have rest := ownersRest_policyKeeps s.loader.policy (policyOf bs) startUp v
  have told : appliedTold bs startUp s = raiseEvent (.policyApplied (clampedCount bs) s.loader.pgenAtIssue)
      (ownersRest s.loader.policy (policyOf bs) startUp v) := by rw [appliedTold, ownersTaken, hv]
  rw [told]
  refine ⟨fun hno => ⟨rest.noRecord hno, fun k hk ha hp => ?_, fun hlen => ?_⟩, rest.noStatus, rest.unforced⟩
  · rw [detailOfKind_of_entry (entryOfKind_raiseEvent_ne (d := .policyApplied _ _) (Ne.symm hp) _)]
    exact detailOfKind_of_entry (rest.entries hno k hk ha)
  · exact detailOfKind_raiseEvent (d := .policyApplied _ _) (rest.places.trans hlen)

/-- The records at the end of an ordinary application without a soft reset. -/
theorem settle_applied_detail {bs : List Byte} {s v : State} (hk : s.loader.readKind = .ordinary)
    (hsoft : asksSoftReset bs = false ∨ s.loader.softResetInForce = true) (hv : overrideTaken bs false s = v) (hno : .eventRecord ∉ v.bus.waiting) :
    (∀ k, ¬ engineRaises k → k ≠ .allowance → k ≠ .policyApplied → detailOfKind (settle (applyBlock bs s)) k = detailOfKind v k)
      ∧ (v.events.entries.length = 11 → detailOfKind (settle (applyBlock bs s)) .policyApplied
          = some (.policyApplied (clampedCount bs) s.loader.pgenAtIssue)) := by
  obtain ⟨hrecord, _, _⟩ := appliedTold_keeps hv
  obtain ⟨hno', hother, hown⟩ := hrecord hno
  have ended : applyBlock bs s = readEnds (appliedTold bs false s) := applyBlock_ordinary hk hsoft
  have kept (k : EventKind) (hr : ¬ engineRaises k) : detailOfKind (settle (applyBlock bs s)) k = detailOfKind (appliedTold bs false s) k := by
    rw [ended, (settle_engineKeeps _).detail ((readEnds_keepsLine _).1 hno') hr]
    simp [detailOfKind, entryOfKind]
  exact ⟨fun k hr ha hp => (kept k hr).trans (hother k hr ha hp), fun hlen => (kept _ (by simp [engineRaises])).trans (hown hlen)⟩

/-! ### The verdict -/

/-- A verdict that turns UNHEALTHY under Automatic in FIBRE takes over (R5, R34, R35). -/
theorem evaluate_takesOver {s : State} (hp : s.path.path = .fibre) (hl : s.loader.shadowsLoaded = true) (hs : s.loader.softReset = .none)
    (ho : s.loader.policy.pathOverride = .automatic) (hv : s.health.verdict = .healthy) (hlow : s.health.sig ≤ s.loader.policy.sig.t) :
    ∃ d, detailKind d = .fibreVerdict ∧ evaluate s = enterTakeover .verdict (raiseEvent d { s with health.verdict := .unhealthy }) := by
  have low : verdictNow s = .unhealthy := by simp [verdictNow, counted, hp, inLowBand, attributeValue, attributeParams, hlow]
  refine ⟨.fibreVerdict .unhealthy (decidingAttribute s) s.health.sig s.health.txp s.health.rxa s.health.txe, rfl, ?_⟩
  simp only [evaluate, low, hv]
  simp [verdictReport, evalTakeover, takeoverCause, hp, hl, hs, ho, softResetStands]

/-! ### What a takeover holds to the command's end -/

/-- What a takeover begun in `s` sets that later work of its command leaves (R7, R8). -/
structure TakeoverHolds (s t : State) : Prop where
  dwellD : t.path.dwellD = takeoverDwell s
  dwell : t.path.dwell = if s.health.verdict = .healthy then .running (takeoverDwell s * 1000) else .stopped
  fixedH : t.bus.fixedH = s.bus.txHorizon
  fixedG : t.bus.fixedG = s.bus.rxHorizon
  base : t.ring.base = s.bus.txHorizon
  cursor : t.ring.fillCursor = s.bus.rxHorizon
  uplink : t.bus.uplinkView ≠ .off
  receive : t.bus.receiveView ≠ .off
  timer1s : t.health.timer1s = none
  wanted : t.path.radioWanted = true

theorem settle_takeoverHolds {s u : State} (h : TakeoverHolds s u) (hwin : u.ring.window = []) (hno : .receiveStatus ∉ u.bus.waiting) :
    TakeoverHolds s (settle u) := by
  have kept := settle_keepsStart u
  refine ⟨by simp [h.dwellD], by simp [h.dwell], by simp [h.fixedH], by simp [h.fixedG], ?_, ?_, kept.uplink h.uplink, kept.receive h.receive,
    by simp [h.timer1s], by simp [h.wanted]⟩
  · rw [kept.base hwin (by rw [h.base, h.fixedH])]
    simp [h.fixedH]
  · rw [kept.cursor hno, h.cursor]

/-- Where a takeover brings the path, by the radio's state (R11). -/
def takenPath (r : RadioState) : PathState := if r = .attached then .radio else if r = .backoff then .held else .takeover

/-- The Path Change that stands after a takeover with the cause `c`, by the radio's state. -/
def takenDetail (r : RadioState) (c : PathCause) : EventDetail :=
  if r = .attached then .pathChange .takeover .radio .attached
  else if r = .backoff then .pathChange .takeover .held .attachFailed else .pathChange .fibre .takeover c

/-- A takeover after which no return is decided. -/
theorem enterTakeover_undecided {c : PathCause} {s : State} (hf : s.loader.policy.pathOverride ≠ .fibreOnly) :
    enterTakeover c s = if s.radio.state = .attached then changePath .radio .attached (takeoverSet c s)
      else if s.radio.state = .backoff then changePath .held .attachFailed (takeoverSet c s) else takeoverSet c s := by
  have taken := takeoverSet_taken c s
  obtain ⟨_, hpolicy, _⟩ := takeoverSet_leaves c s
  obtain ⟨ha, hb, hn⟩ := takeoverSet_radio c s
  rw [enterTakeover_eq, ← takeoverSet, takeoverGoesOn_undecided taken.path (by rw [taken.dwell]; split <;> simp)
    (by rw [hpolicy]; exact fun h => absurd h hf)]
  by_cases h : s.radio.state = .attached
  · simp [h, ha h]
  · by_cases h' : s.radio.state = .backoff
    · simp [h', hb h']
    · simp [h, h', hn h h']

theorem takeoverSet_line (c : PathCause) {s : State} (hno : .receiveStatus ∉ s.bus.waiting) : .receiveStatus ∉ (takeoverSet c s).bus.waiting := by
  have told (u : State) : (takeoverTold c u).bus = u.bus := rfl
  rw [takeoverSet, told, (wantRadio_asks _).2.1]
  exact (takeoverBegun_asks s).noStatus hno

/-- What a takeover leaves when no return is decided after it (R5, R7, R8, R11, R23). -/
theorem enterTakeover_leaves {c : PathCause} {s : State} (hf : s.loader.policy.pathOverride ≠ .fibreOnly) :
    (enterTakeover c s).path.path = takenPath s.radio.state ∧ TakeoverHolds s (enterTakeover c s) ∧ (enterTakeover c s).ring.window = []
      ∧ (enterTakeover c s).events.pageWanted = true ∧ (enterTakeover c s).path.phase = none
      ∧ (.receiveStatus ∉ s.bus.waiting → .receiveStatus ∉ (enterTakeover c s).bus.waiting)
      ∧ (.eventRecord ∉ s.bus.waiting → s.events.entries.length = 11 → .eventRecord ∉ (enterTakeover c s).bus.waiting
        ∧ (enterTakeover c s).events.entries.length = 11 ∧ detailOfKind (enterTakeover c s) .pathChange = some (takenDetail s.radio.state c)) := by
  have taken := takeoverSet_taken c s
  have line := takeoverSet_line c (s := s)
  have asks := takeoverSet_asks c s
  obtain ⟨_, _, _, _, hpage⟩ := takeoverSet_leaves c s
  have phase : (takeoverSet c s).path.phase = none := by
    simp [takeoverSet, takeoverTold, takeoverBegun, fixViews, startTaking, (wantRadio_asks _).1]
  rw [enterTakeover_undecided hf]
  generalize takeoverSet c s = u at *
  have holds : TakeoverHolds s u := ⟨taken.dwellD, taken.dwell, taken.fixedH, taken.fixedG, taken.base, taken.cursor, taken.uplink, taken.receive,
    by rw [taken.health], taken.wanted⟩
  have moved (p : PathState) (d : PathCause) : TakeoverHolds s (changePath p d u) :=
    ⟨holds.dwellD, holds.dwell, holds.fixedH, holds.fixedG, holds.base, holds.cursor, holds.uplink, holds.receive, holds.timer1s, holds.wanted⟩
  have told (p : PathState) (d : PathCause) (hlen : u.events.entries.length = 11) :
      detailOfKind (changePath p d u) .pathChange = some (.pathChange .takeover p d) := by
    rw [detailOfKind_changePath hlen, taken.path]
  have places (p : PathState) (d : PathCause) : (changePath p d u).events.entries.length = u.events.entries.length := by simp [changePath]
  unfold takenPath takenDetail
  by_cases ha : s.radio.state = .attached
  · simp only [ha, if_true]
    refine ⟨rfl, moved _ _, taken.window, rfl, phase, line, fun hno hlen => ?_⟩
    obtain ⟨hrec, hlen', _⟩ := asks hno hlen
    exact ⟨hrec, (places _ _).trans hlen', told _ _ hlen'⟩
  · by_cases hb : s.radio.state = .backoff
    · simp only [hb, reduceCtorEq, if_false, if_true]
      refine ⟨rfl, moved _ _, taken.window, rfl, phase, line, fun hno hlen => ?_⟩
      obtain ⟨hrec, hlen', _⟩ := asks hno hlen
      exact ⟨hrec, (places _ _).trans hlen', told _ _ hlen'⟩
    · simp only [ha, hb, if_false]
      exact ⟨taken.path, holds, taken.window, hpage, phase, line, asks⟩

/-- The 100 ms expiry outside DOZE (R29). -/
theorem exec_health100ms {s : State} (ht : s.health.timer100.isSome = true) (he : s.power.mode ≠ .doze) : exec .health100msExpiry s
    = .next (settle (evaluate (if (sampleSig { s with health.timer100 := some 100 }).path.path = .fibre
      then sampleTxp (sampleSig { s with health.timer100 := some 100 }) else sampleSig { s with health.timer100 := some 100 }))) := by
  show Host.Outcome.next (doHealth100msExpiry s) = _
  simp only [doHealth100msExpiry, ht, enginesRun]
  simp [he]

/-- The expiry that samples SIG with LOS asserted, under Automatic in FIBRE with SIG falling into its low band, takes over (R30, R31, R34). -/
theorem exec_health100ms_takesOver {s : State} (ht : s.health.timer100.isSome = true) (he : s.power.mode ≠ .doze) (hp : s.path.path = .fibre)
    (hl : s.loader.shadowsLoaded = true) (hs : s.loader.softReset = .none) (ho : s.loader.policy.pathOverride = .automatic)
    (hv : s.health.verdict = .healthy) (hlos : s.pins.los = true) (hlow : max 1 (s.health.sig - s.loader.policy.sig.p) ≤ s.loader.policy.sig.t) :
    ∃ d h, detailKind d = .fibreVerdict ∧ h.verdict = .unhealthy ∧ exec .health100msExpiry s
      = .next (settle (enterTakeover .verdict (raiseEvent d { s with health := h }))) := by
  obtain ⟨v, hsample, hval⟩ := sampleSig_eq { s with health.timer100 := some 100 }
  rw [if_neg (by simp [hlos])] at hval
  obtain ⟨x, r, htxp⟩ : ∃ x r, sampleTxp { s with health.timer100 := some 100, health.sig := v }
      = { s with health.timer100 := some 100, health.sig := v, health.txp := x, health.txReference := r } := by
    unfold sampleTxp
    split
    · exact ⟨s.health.txp, s.health.txReference, rfl⟩
    · exact ⟨_, _, rfl⟩
  obtain ⟨d, hd, heval⟩ := evaluate_takesOver
    (s := { s with health.timer100 := some 100, health.sig := v, health.txp := x, health.txReference := r }) hp hl hs ho hv (by rw [hval]; exact hlow)
  refine ⟨d, { s.health with timer100 := some 100, sig := v, txp := x, txReference := r, verdict := .unhealthy }, hd, rfl, ?_⟩
  rw [exec_health100ms ht he, hsample, if_pos hp, htxp, heval]

/-! ### An interruption -/

/-- What an interruption of a return in `s` with the cause `c` sets (R20), and what later work of its command leaves of it. -/
structure Interrupted (c : PathCause) (s t : State) : Prop where
  path : t.path.path = if s.radio.state = .attached then .radio else .held
  phase : t.path.phase = none
  drainTimer : t.path.drainTimer = none
  fence : t.ring.fence = none
  pause : t.path.returnPause = false
  dwell : t.path.dwell = s.path.dwell
  page : t.events.pageWanted = true
  timer : t.path.releaseTimer = s.path.releaseTimer
  tx : t.path.txReleased = s.path.txReleased
  rx : t.path.rxReleased = s.path.rxReleased

/-- The return's registers as its end leaves them (R20). -/
def returnUndone (s : State) : State :=
  withPauseTarget (fun s => { s with path.returnPause := false }) { s with path.drainTimer := none, path.phase := none, ring.fence := none }

theorem returnUndone_eq (s : State) : ∃ b, returnUndone s = { s with
    path.drainTimer := none, path.phase := none, path.returnPause := false, ring.fence := none, radio.items.pause := b } := by
  unfold returnUndone withPauseTarget
  split <;> exact ⟨_, rfl⟩

/-- The return ended, before the PENDING entries are judged again (R20, R62). -/
def returnEnded (c : PathCause) (s : State) : State :=
  changePath (if s.radio.state = .attached then .radio else .held) c (readAhead (returnUndone s))

theorem interruptReturn_undecided {c : PathCause} {s : State} (hp : s.path.path = .returning) (hph : s.path.phase = some .draining)
    (hs : s.loader.softReset = .none)
    (hd : s.loader.policy.pathOverride = .radioNow ∨ s.loader.policy.pathOverride = .automatic ∧ s.path.dwell ≠ .met) :
    interruptReturn c s = judgePending (returnEnded c s) := by
  have undecided (u : State) (hpol : u.loader.policy = s.loader.policy) (hdw : u.path.dwell = s.path.dwell) : evalReturn u = u := by
    have none : returnDecision u = none := by
      unfold returnDecision
      obtain ho | ⟨ho, hm⟩ := hd
      · (repeat' split) <;> simp_all
      · (repeat' split) <;> simp_all
    simp [evalReturn, none]
  have drainOpen : (s.path.path = .returning && s.path.phase = some .draining && !softResetStands s) = true := by simp [hp, hph, softResetStands, hs]
  obtain ⟨b, hundone⟩ := returnUndone_eq s
  have ended : interruptReturn c s = evalReturn (judgePending (returnEnded c s)) := by
    have state : (readAhead (returnUndone s)).radio.state = s.radio.state := by simp [hundone]
    unfold interruptReturn returnEnded
    rw [if_pos drainOpen, ← state]
    rfl
  rw [ended]
  exact undecided _ (by simp [returnEnded, hundone]) (by simp [returnEnded, hundone])

/-- An interruption after which no return is decided: what it sets, and its Path Change, which no write waits to carry (R20, R62). -/
theorem interruptReturn_leaves {c : PathCause} {s : State} (hp : s.path.path = .returning) (hph : s.path.phase = some .draining)
    (hs : s.loader.softReset = .none)
    (hd : s.loader.policy.pathOverride = .radioNow ∨ s.loader.policy.pathOverride = .automatic ∧ s.path.dwell ≠ .met)
    (hw : s.bus.waiting = []) (hlen : s.events.entries.length = 11) :
    Interrupted c s (interruptReturn c s) ∧ Unforced (interruptReturn c s) ∧ .eventRecord ∉ (interruptReturn c s).bus.waiting
      ∧ (interruptReturn c s).events.entries.length = 11 ∧ detailOfKind (interruptReturn c s) .pathChange
        = some (.pathChange .returning (if s.radio.state = .attached then .radio else .held) c) := by
  rw [interruptReturn_undecided hp hph hs hd]
  obtain ⟨b, hundone⟩ := returnUndone_eq s
  have judged := (judgePending_engineKeeps (returnEnded c s)).toEngineAsks
  have read : EngineAsks s (readAhead (returnUndone s)) := by
    have kept : EngineKeeps s (readAhead (returnUndone s)) := by
      rw [hundone]
      exact (readAhead_engineKeeps _).of_moved rfl rfl
    exact kept.toEngineAsks
  have line : (returnEnded c s).bus = (readAhead (returnUndone s)).bus := rfl
  have noRecord : .eventRecord ∉ (returnEnded c s).bus.waiting := by
    rw [line]
    exact read.noRecord (by simp [hw])
  have unforced : Unforced (returnEnded c s) := by
    have h := read.unforced (by simp [Unforced, hw])
    rwa [Unforced, ← line] at h
  have places : (returnEnded c s).events.entries.length = 11 := by
    have h := read.places.trans hlen
    simpa [returnEnded, changePath] using h
  have told : detailOfKind (returnEnded c s) .pathChange
      = some (.pathChange .returning (if s.radio.state = .attached then .radio else .held) c) := by
    rw [returnEnded, detailOfKind_changePath (read.places.trans hlen)]
    simp [hundone, hp]
  refine ⟨?_, judged.unforced unforced, judged.noRecord noRecord, judged.places.trans places, ?_⟩
  · constructor <;> simp [returnEnded, hundone, changePath, askPage]
  · rw [judged.detail noRecord (by simp [engineRaises]), told]

theorem Interrupted.settles {c : PathCause} {s u : State} (h : Interrupted c s u) (hf : Unforced u) : Interrupted c s (settle u) := by
  have release := (settle_unforced u).release hf
  refine ⟨by simp [h.path], by simp [h.phase], by simp [h.drainTimer], by simp [h.fence], by simp [h.pause], by simp [h.dwell], by simp [h.page],
    ?_, ?_, ?_⟩
  · rw [release.timer, h.timer]
  · rw [release.tx, h.tx]
  · rw [release.rx, h.rx]

/-! ### The verdict's expiries -/

theorem exec_health100ms_offFibre {s : State} (ht : s.health.timer100.isSome = true) (he : s.power.mode ≠ .doze) (hp : s.path.path ≠ .fibre) :
    ∃ v, v = (if s.pins.los = false ∧ s.pins.link = true then min 253 (s.health.sig + s.loader.policy.sig.q)
        else max 1 (s.health.sig - s.loader.policy.sig.p))
      ∧ exec .health100msExpiry s = .next (settle (evaluate { s with health.timer100 := some 100, health.sig := v })) := by
  obtain ⟨v, hsample, hval⟩ := sampleSig_eq { s with health.timer100 := some 100 }
  refine ⟨v, hval, ?_⟩
  rw [exec_health100ms ht he, hsample, if_neg hp]

/-- Off FIBRE SIG alone is counted, and in its low band it makes the verdict UNHEALTHY: the dwell stops and under Automatic a return is
interrupted (R15, R20, R34). -/
theorem evaluate_offFibre_falls {s : State} (hp : s.path.path ≠ .fibre) (hd : s.path.path ≠ .disabled) (hv : s.health.verdict = .healthy)
    (hlow : s.health.sig ≤ s.loader.policy.sig.t) :
    ∃ d, detailKind d = .fibreVerdict ∧ evaluate s = if s.loader.policy.pathOverride = .automatic
      then interruptReturn .interruptedByVerdict (raiseEvent d { s with health.verdict := .unhealthy, path.dwell := .stopped })
      else raiseEvent d { s with health.verdict := .unhealthy, path.dwell := .stopped } := by
  have low : verdictNow s = .unhealthy := by simp [verdictNow, counted, hp, inLowBand, attributeValue, attributeParams, hlow]
  refine ⟨.fibreVerdict .unhealthy (decidingAttribute s) s.health.sig s.health.txp s.health.rxa s.health.txe, rfl, ?_⟩
  simp only [evaluate, low, hv, reduceCtorEq, if_false, verdictReport, raiseEvent_frame]
  cases hpath : s.path.path
  case fibre => exact absurd hpath hp
  case disabled => exact absurd hpath hd
  all_goals rfl

/-- SIG alone in its high band off FIBRE makes the verdict HEALTHY and starts the dwell (R13, R34). -/
theorem evaluate_offFibre_recovers {s : State} (hp : s.path.path ≠ .fibre) (hd : s.path.path ≠ .disabled) (hv : s.health.verdict = .unhealthy)
    (hhigh : s.loader.policy.sig.t < s.health.sig) (hrestore : min 253 (s.loader.policy.sig.t + s.loader.policy.sig.m) ≤ s.health.sig) :
    ∃ d, evaluate s = raiseEvent d { s with health.verdict := .healthy, path.dwell := .running (s.path.dwellD * 1000) } := by
  have high : verdictNow s = .healthy := by
    simp [verdictNow, counted, hp, inLowBand, inHighBand, attributeValue, attributeParams, restoreLevel, Nat.not_le_of_lt hhigh]
    omega
  refine ⟨.fibreVerdict .healthy (decidingAttribute s) s.health.sig s.health.txp s.health.rxa s.health.txe, ?_⟩
  simp only [evaluate, high, hv, reduceCtorEq, if_false, verdictReport, raiseEvent_frame]
  cases hpath : s.path.path
  case fibre => exact absurd hpath hp
  case disabled => exact absurd hpath hd
  all_goals rfl

/-- The verdict's takeover to the command's end, under Automatic (R5, R34). -/
theorem verdict_takesOver {s : State} (ht : s.health.timer100.isSome = true) (he : s.power.mode ≠ .doze) (hp : s.path.path = .fibre)
    (hl : s.loader.shadowsLoaded = true) (hs : s.loader.softReset = .none) (ho : s.loader.policy.pathOverride = .automatic)
    (hv : s.health.verdict = .healthy) (hlos : s.pins.los = true) (hlow : max 1 (s.health.sig - s.loader.policy.sig.p) ≤ s.loader.policy.sig.t)
    (hw : s.bus.waiting = []) (hlen : s.events.entries.length = 11) :
    ∃ u t, exec .health100msExpiry s = .next t ∧ u.health.verdict = .unhealthy ∧ u.path = s.path ∧ u.bus = s.bus ∧ u.loader = s.loader
      ∧ t.health.verdict = .unhealthy ∧ t.path.path = takenPath s.radio.state ∧ TakeoverHolds u t
      ∧ detailOfKind t .pathChange = some (takenDetail s.radio.state .verdict) := by
  obtain ⟨d, h, _, hverdict, hexec⟩ := exec_health100ms_takesOver ht he hp hl hs ho hv hlos hlow
  generalize hu : raiseEvent d { s with health := h } = u at hexec
  have hradio : u.radio = s.radio := by simp [← hu]
  have hbus : u.bus = s.bus := by simp [← hu]
  have hplaces : u.events.entries.length = 11 := by simp [← hu, hlen]
  obtain ⟨path, holds, window, _, _, line, told⟩ := enterTakeover_leaves (c := .verdict) (s := u) (by simp [← hu, ho])
  obtain ⟨hno, _, hdetail⟩ := told (by simp [hbus, hw]) hplaces
  refine ⟨u, _, hexec, by simp [← hu, hverdict], by simp [← hu], hbus, by simp [← hu], by simp [← hu, hverdict], ?_,
    settle_takeoverHolds holds window (line (by simp [hbus, hw])), ?_⟩
  · simp [path, hradio]
  · rw [(settle_engineKeeps _).detail hno (by simp [engineRaises]), hdetail, hradio]

/-- A verdict that interrupts a drain, to the command's end (R20). -/
theorem verdict_interrupts {s : State} (ht : s.health.timer100.isSome = true) (he : s.power.mode ≠ .doze) (hp : s.path.path = .returning)
    (hph : s.path.phase = some .draining) (hs : s.loader.softReset = .none) (ho : s.loader.policy.pathOverride = .automatic)
    (hv : s.health.verdict = .healthy) (hlos : s.pins.los = true) (hlow : max 1 (s.health.sig - s.loader.policy.sig.p) ≤ s.loader.policy.sig.t)
    (hw : s.bus.waiting = []) (hlen : s.events.entries.length = 11) :
    ∃ u t, exec .health100msExpiry s = .next t ∧ u.path.dwell = .stopped ∧ u.path.releaseTimer = s.path.releaseTimer
      ∧ u.path.txReleased = s.path.txReleased ∧ u.path.rxReleased = s.path.rxReleased ∧ u.radio = s.radio
      ∧ t.health.verdict = .unhealthy ∧ Interrupted .interruptedByVerdict u t ∧ detailOfKind t .pathChange
        = some (.pathChange .returning (if s.radio.state = .attached then .radio else .held) .interruptedByVerdict) := by
  obtain ⟨v, hval, hexec⟩ := exec_health100ms_offFibre ht he (by simp [hp])
  rw [if_neg (by simp [hlos])] at hval
  obtain ⟨d, _, heval⟩ := evaluate_offFibre_falls (s := { s with health.timer100 := some 100, health.sig := v }) (by simp [hp]) (by simp [hp]) hv
    (by rw [hval]; exact hlow)
  rw [heval, if_pos ho] at hexec
  generalize hu : raiseEvent d _ = u at hexec
  have hpath : u.path = { s.path with dwell := .stopped } := by simp [← hu]
  have hradio : u.radio = s.radio := by simp [← hu]
  have hplaces : u.events.entries.length = 11 := by simp [← hu, hlen]
  obtain ⟨interrupted, unforced, hno, _, hdetail⟩ := interruptReturn_leaves (c := .interruptedByVerdict) (s := u) (by simp [hpath, hp])
    (by simp [hpath, hph]) (by simp [← hu, hs]) (.inr ⟨by simp [← hu, ho], by simp [hpath]⟩) (by simp [← hu, hw]) hplaces
  refine ⟨u, _, hexec, by simp [hpath], by simp [hpath], by simp [hpath], by simp [hpath], hradio, by simp [← hu],
    interrupted.settles unforced, ?_⟩
  rw [(settle_engineKeeps _).detail hno (by simp [engineRaises]), hdetail, hradio]

/-! ### The override of a policy block -/

/-- What an ordinary application holds of a takeover (R5). -/
theorem TakeoverHolds.applied {bs : List Byte} {s w v : State} (h : TakeoverHolds s v) (hv : overrideTaken bs false w = v) :
    TakeoverHolds s (readEnds (appliedTold bs false w)) := by
  constructor <;> simp only [appliedTold, ownersTaken, hv, readEnds_frame, raiseEvent_frame, ownersRest_frame]
  · exact h.dwellD
  · exact h.dwell
  · exact h.fixedH
  · exact h.fixedG
  · exact h.base
  · exact h.cursor
  · exact h.uplink
  · exact h.receive
  · exact h.timer1s
  · exact h.wanted

theorem Interrupted.applied {bs : List Byte} {c : PathCause} {s w v : State} (h : Interrupted c s v) (hv : overrideTaken bs false w = v) :
    Interrupted c s (readEnds (appliedTold bs false w)) := by
  constructor <;> simp only [appliedTold, ownersTaken, hv, readEnds_frame, raiseEvent_frame, ownersRest_frame]
  · exact h.path
  · exact h.phase
  · exact h.drainTimer
  · exact h.fence
  · exact h.pause
  · exact h.dwell
  · exact h.page
  · exact h.timer
  · exact h.tx
  · exact h.rx

/-- An application that interrupts a drain, to the command's end (R20). -/
theorem policy_interrupts {a : Addr} {rest : List MasterTransfer} {bs : List Byte} {c : PathCause} {s : State}
    (hq : s.bus.queue = ⟨.policyRead true, .read a .sixteen⟩ :: rest) (hbs : bs = s.loader.firstHalf ++ bytesOf (memReadWords s.sram a 16))
    (hk : s.loader.readKind = .ordinary) (hsoft : asksSoftReset bs = false) (hp : s.path.path = .returning) (hph : s.path.phase = some .draining)
    (hs : s.loader.softReset = .none) (hchange : s.loader.policy.pathOverride ≠ (policyOf bs).pathOverride)
    (hd : (policyOf bs).pathOverride = .radioNow ∧ c = .interruptedByRadioNow
      ∨ (policyOf bs).pathOverride = .automatic ∧ s.health.verdict = .unhealthy ∧ s.path.dwell ≠ .met ∧ c = .interruptedByVerdict)
    (hw : s.bus.waiting = []) (hlen : s.events.entries.length = 11) :
    ∃ t, exec .policyApplied s = .next t ∧ Interrupted c s t
      ∧ detailOfKind t .pathChange = some (.pathChange .returning (if s.radio.state = .attached then .radio else .held) c) := by
  rw [exec_policyApplied hq, ← hbs]
  generalize hu : ({ s with bus.queue := rest, bus.waitCount := 0 } : State) = u
  obtain ⟨n, k, htaken⟩ := policyTaken_eq bs false u
  have override : overrideTaken bs false u = interruptReturn c (policyTaken bs false u) := by
    have differs : ((policyOf bs).pathOverride != u.loader.policy.pathOverride) = true := by simpa [← hu] using Ne.symm hchange
    rw [overrideTaken, if_pos differs, htaken]
    simp only [overrideChanged]
    have path : u.path.path = .returning := by simp [← hu, hp]
    simp only [path]
    obtain ⟨hnow, rfl⟩ | ⟨hauto, hverdict, _, rfl⟩ := hd
    · simp only [hnow]
    · have verdict : u.health.verdict = .unhealthy := by simp [← hu, hverdict]
      simp only [hauto, verdict, if_true]
  obtain ⟨interrupted, unforced, hno, hplaces, hdetail⟩ := interruptReturn_leaves (c := c) (s := policyTaken bs false u)
    (by rw [htaken]; simp [← hu, hp]) (by rw [htaken]; simp [← hu, hph]) (by rw [htaken]; simp [← hu, hs])
    (by
      rw [htaken]
      obtain ⟨hnow, _⟩ | ⟨hauto, _, hmet, _⟩ := hd
      · exact .inl (by simp [hnow])
      · exact .inr ⟨by simp [hauto], by simpa [← hu] using hmet⟩)
    (by rw [htaken]; simp [← hu, hw]) (by rw [htaken]; simp [← hu, hlen])
  rw [← override] at interrupted unforced hno hplaces hdetail
  have kind : u.loader.readKind = .ordinary := by simp [← hu, hk]
  have path : (policyTaken bs false u).path = s.path := by rw [htaken]; simp [← hu]
  have radio : (policyTaken bs false u).radio = s.radio := by rw [htaken]; simp [← hu]
  have from_s : Interrupted c s (overrideTaken bs false u) := by
    obtain ⟨h1, h2, h3, h4, h5, h6, h7, h8, h9, h10⟩ := interrupted
    rw [path] at h6 h8 h9 h10
    rw [radio] at h1
    exact ⟨h1, h2, h3, h4, h5, h6, h7, h8, h9, h10⟩
  refine ⟨_, rfl, ?_, ?_⟩
  · rw [applyBlock_ordinary kind (.inl hsoft)]
    exact (from_s.applied rfl).settles ((readEnds_keepsLine _).2.2 ((appliedTold_keeps rfl).2.2 unforced))
  · rw [(settle_applied_detail kind (.inl hsoft) rfl hno).1 _ (by simp [engineRaises]) (by simp) (by simp), hdetail, radio]

theorem overrideChanged_fibre {s : State} (hp : s.path.path = .fibre) : overrideChanged s = evalTakeover s := by simp [overrideChanged, hp]

theorem evalTakeover_begins {c : PathCause} {s : State} (hp : s.path.path = .fibre) (hl : s.loader.shadowsLoaded = true)
    (hs : s.loader.softReset = .none) (hc : takeoverCause s = some c) : evalTakeover s = enterTakeover c s := by
  simp [evalTakeover, hp, hl, hs, hc, softResetStands]

/-- An application that takes over in FIBRE, to the command's end (R5). -/
theorem policy_takesOver {a : Addr} {rest : List MasterTransfer} {bs : List Byte} {c : PathCause} {s : State}
    (hq : s.bus.queue = ⟨.policyRead true, .read a .sixteen⟩ :: rest) (hbs : bs = s.loader.firstHalf ++ bytesOf (memReadWords s.sram a 16))
    (hk : s.loader.readKind = .ordinary) (hsoft : asksSoftReset bs = false) (hp : s.path.path = .fibre) (hl : s.loader.shadowsLoaded = true)
    (hs : s.loader.softReset = .none) (hchange : s.loader.policy.pathOverride ≠ (policyOf bs).pathOverride)
    (hc : (policyOf bs).pathOverride = .radioNow ∧ c = .radioNow
      ∨ (policyOf bs).pathOverride = .automatic ∧ s.health.verdict = .unhealthy ∧ c = .verdict)
    (hw : s.bus.waiting = []) (hlen : s.events.entries.length = 11) :
    ∃ u t, exec .policyApplied s = .next t ∧ u.path = s.path ∧ u.loader.policy = policyOf bs ∧ u.health = s.health
      ∧ u.bus.txHorizon = s.bus.txHorizon ∧ u.bus.rxHorizon = s.bus.rxHorizon ∧ t.path.path = takenPath s.radio.state ∧ TakeoverHolds u t
      ∧ detailOfKind t .pathChange = some (takenDetail s.radio.state c) := by
  rw [exec_policyApplied hq, ← hbs]
  generalize hu : ({ s with bus.queue := rest, bus.waitCount := 0 } : State) = u
  obtain ⟨n, k, htaken⟩ := policyTaken_eq bs false u
  have override : overrideTaken bs false u = enterTakeover c (policyTaken bs false u) := by
    have differs : ((policyOf bs).pathOverride != u.loader.policy.pathOverride) = true := by simpa [← hu] using Ne.symm hchange
    have cause : takeoverCause (policyTaken bs false u) = some c := by
      rw [htaken]
      obtain ⟨hnow, rfl⟩ | ⟨hauto, hverdict, rfl⟩ := hc
      · simp [takeoverCause, hnow]
      · simp [takeoverCause, hauto, ← hu, hverdict]
    have free : (policyTaken bs false u).path.path = .fibre ∧ (policyTaken bs false u).loader.shadowsLoaded = true
        ∧ (policyTaken bs false u).loader.softReset = .none := by
      rw [htaken]
      simp [← hu, hp, hl, hs]
    obtain ⟨hpath, hloaded, hnone⟩ := free
    rw [overrideTaken, if_pos differs, overrideChanged_fibre hpath]
    exact evalTakeover_begins hpath hloaded hnone cause
  have radio : (policyTaken bs false u).radio = s.radio := by rw [htaken]; simp [← hu]
  obtain ⟨path, holds, window, _, _, line, told⟩ := enterTakeover_leaves (c := c) (s := policyTaken bs false u) (by
    rw [htaken]
    obtain ⟨h, _⟩ | ⟨h, _⟩ := hc <;> simp [h])
  obtain ⟨hno, _, hdetail⟩ := told (by rw [htaken]; simp [← hu, hw]) (by rw [htaken]; simp [← hu, hlen])
  have noStatus := line (by rw [htaken]; simp [← hu, hw])
  rw [← override] at path holds window noStatus hno hdetail
  have kind : u.loader.readKind = .ordinary := by simp [← hu, hk]
  refine ⟨policyTaken bs false u, _, rfl, ?_, ?_, ?_, ?_, ?_, ?_, ?_, ?_⟩
  · rw [htaken]; simp [← hu]
  · rw [htaken]
  · rw [htaken]; simp [← hu]
  · rw [htaken]; simp [← hu]
  · rw [htaken]; simp [← hu]
  · rw [applyBlock_ordinary kind (.inl hsoft), ownersTaken]
    simp [path, radio]
  · rw [applyBlock_ordinary kind (.inl hsoft)]
    refine settle_takeoverHolds (holds.applied rfl) ?_ ((readEnds_keepsLine _).2.1 ((appliedTold_keeps rfl).2.1 noStatus))
    simp only [readEnds_frame, raiseEvent_frame]
    exact ownersRest_window window
  · rw [(settle_applied_detail kind (.inl hsoft) rfl hno).1 _ (by simp [engineRaises]) (by simp) (by simp), hdetail, radio]

/-- An application whose new override brings nothing in a drain, to the command's end (R20). -/
theorem policy_drainsOn {a : Addr} {rest : List MasterTransfer} {bs : List Byte} {s : State}
    (hq : s.bus.queue = ⟨.policyRead true, .read a .sixteen⟩ :: rest) (hbs : bs = s.loader.firstHalf ++ bytesOf (memReadWords s.sram a 16))
    (hk : s.loader.readKind = .ordinary) (hsoft : asksSoftReset bs = false) (hp : s.path.path = .returning)
    (hauto : (policyOf bs).pathOverride = .automatic) (hv : s.health.verdict = .healthy) :
    ∃ t, exec .policyApplied s = .next t ∧ t.path.path = .returning ∧ t.path.phase = s.path.phase ∧ t.path.drainTimer = s.path.drainTimer
      ∧ t.ring.fence = s.ring.fence ∧ t.path.returnPause = s.path.returnPause := by
  rw [exec_policyApplied hq, ← hbs]
  generalize hu : ({ s with bus.queue := rest, bus.waitCount := 0 } : State) = u
  obtain ⟨n, k, htaken⟩ := policyTaken_eq bs false u
  have override : overrideTaken bs false u = policyTaken bs false u := by
    have path : u.path.path = .returning := by simp [← hu, hp]
    have verdict : u.health.verdict = .healthy := by simp [← hu, hv]
    unfold overrideTaken
    split
    · rw [htaken, overrideChanged]
      simp [path, hauto, verdict]
    · rfl
  refine ⟨_, rfl, ?_⟩
  rw [applyBlock_ordinary (by simp [← hu, hk]) (.inl hsoft), ownersTaken, override, htaken]
  simp [← hu, hp]

/-! ### An entry to DOZE that the takeover abandons -/

/-- The takeover's own release of the transmit ring, with an empty window, asks for reads alone. -/
theorem checkTxRelease_reads {s : State} (hwin : s.ring.window = []) :
    ∃ ps, (checkTxRelease s).bus.waiting = s.bus.waiting ++ ps ∧ ∀ p ∈ ps, calmRequest p = true ∧ p ≠ .txcHandBack := by
  unfold checkTxRelease
  split
  · have unadvanced (u : State) (hu : u.ring.window = []) : tryAdvance u = u := by simp [tryAdvance, doneCount, hu]
    obtain ⟨ps, hps, hall⟩ := readAhead_asks (checkTxOverrun (setTxReleased { s with bus.txGuard := true }))
    refine ⟨ps, ?_, hall⟩
    rw [completeTx, afterTxRelease]
    show (readAhead (tryAdvance _)).bus.waiting = _
    rw [unadvanced _ (by simp [setTxReleased, hwin]), hps]
    simp [setTxReleased]
  · exact ⟨[], by simp, by simp⟩

/-- Its release of the receive ring, with the fill cursor at G, asks for nothing. -/
theorem checkRxRelease_silent {s : State} (hc : s.ring.fillCursor = s.bus.fixedG) : (checkRxRelease s).bus.waiting = s.bus.waiting := by
  unfold checkRxRelease
  split
  · simp [completeRx, afterRxRelease, setRxReleased, hc]
  · rfl

theorem stopScan_silent {s : State} (hw : s.bus.waiting = []) : (stopScan s).bus.waiting = [] := by
  rw [stopScan, withdrawScanRead_idle (by simp [hw])]
  exact hw

/-- A takeover from an empty line leaves reads alone waiting. -/
theorem takeoverSet_calm (c : PathCause) {s : State} (hw : s.bus.waiting = []) :
    ∀ p ∈ (takeoverSet c s).bus.waiting, calmRequest p = true ∧ p ≠ .txcHandBack := by
  have told (u : State) : (takeoverTold c u).bus = u.bus := rfl
  rw [takeoverSet, told, (wantRadio_asks _).2.1, takeoverBegun]
  generalize hb : ceaseEntry { s with path.dwellD := takeoverDwell s, path.path := .takeover, path.phase := none, health.timer1s := none } = b
  generalize hv : startTaking (fixViews (stopScan b)) = v
  have line : v.bus.waiting = [] := by
    have h := stopScan_silent (s := b) (by simp [← hb, hw])
    simpa [← hv, startTaking, fixViews] using h
  have window : v.ring.window = [] := by simp [← hv, startTaking]
  have cursor : v.ring.fillCursor = v.bus.fixedG := by simp [← hv, startTaking]
  obtain ⟨ps, hps, hall⟩ := checkTxRelease_reads (s := { v with path.txReleased := false, path.rxReleased := false }) window
  have begun : (beginRelease v).bus.waiting = ps := by
    have silent := checkRxRelease_silent (s := checkTxRelease { v with path.txReleased := false, path.rxReleased := false }) (by simp [cursor])
    rw [hps] at silent
    simp only [beginRelease]
    split <;> simp [silent, line]
  obtain ⟨qs, hqs, hall'⟩ := readAhead_asks (beginRelease v)
  intro p hp
  rw [hqs, begun, List.mem_append] at hp
  exact hp.elim (hall p) (hall' p)

theorem wantRadio_stands (s : State) : (wantRadio s).hold = s.hold ∧ (wantRadio s).pins = s.pins ∧ (wantRadio s).radio.slotA = s.radio.slotA
    ∧ (wantRadio s).radio.slotB = s.radio.slotB := by
  obtain ⟨u, hu, h | h | h⟩ := wantRadio_cases s <;> rw [h, hu] <;> exact ⟨rfl, rfl, rfl, rfl⟩

/-- What a takeover that abandons an entry to DOZE leaves of the power unit, the hold memory and the radio link (R157). -/
theorem takeoverSet_abandons {e : EntryStage} (c : PathCause) {s : State} (he : s.power.step = .entering e) :
    (takeoverSet c s).power = { s.power with step := .awake } ∧ (takeoverSet c s).pins = s.pins ∧ (takeoverSet c s).hold = s.hold
      ∧ (takeoverSet c s).radio.slotA = s.radio.slotA ∧ (takeoverSet c s).radio.slotB = s.radio.slotB
      ∧ (e ≠ .link → (takeoverSet c s).radio.items.lowPower = s.radio.items.lowPower)
      ∧ (e = .link → s.radio.lowPowerTold = true → s.radio.ldo = none → s.radio.items.lowPower = none →
        (takeoverSet c s).radio.items.lowPower = some false) := by
  generalize hb : { s with path.dwellD := takeoverDwell s, path.path := .takeover, path.phase := none, health.timer1s := none } = b
  have ceased : ceaseEntry b = abandonEntry b := by simp [ceaseEntry, ← hb, he]
  obtain ⟨hpower, hlow, _⟩ := wantRadio_kept (takeoverBegun s)
  have told (u : State) : (takeoverTold c u).power = u.power ∧ (takeoverTold c u).radio = u.radio ∧ (takeoverTold c u).pins = u.pins
      ∧ (takeoverTold c u).hold = u.hold := ⟨rfl, rfl, rfl, rfl⟩
  obtain ⟨tpower, tradio, tpins, thold⟩ := told (wantRadio (takeoverBegun s))
  have begun : takeoverBegun s = readAhead (beginRelease (startTaking (fixViews (stopScan (abandonEntry b))))) := by
    rw [← ceased, ← hb]
    rfl
  have power : (abandonEntry b).power = { s.power with step := .awake } := by
    simp only [abandonEntry]
    split <;> simp [← hb]
  obtain ⟨whold, wpins, wslotA, wslotB⟩ := wantRadio_stands (takeoverBegun s)
  rw [takeoverSet, tpower, tradio, tpins, thold, hpower, hlow, whold, wpins, wslotA, wslotB, begun]
  refine ⟨by simp [fixViews, startTaking, power], by simp [fixViews, startTaking, ← hb], by simp [fixViews, startTaking, ← hb],
    by simp [fixViews, startTaking, ← hb], by simp [fixViews, startTaking, ← hb], fun hl => ?_, fun hl ht hn hi => ?_⟩
  · have unanswered : b.power.step ≠ .entering .link := by simp [← hb, he, hl]
    simp only [readAhead_frame, beginRelease_frame, startTaking, fixViews, stopScan_frame, abandonEntry, unanswered, if_false]
    simp [← hb]
  · simp [fixViews, startTaking, abandonEntry, answerLowPower, ← hb, he, hl, ht, hn, hi]

/-- The verdict's takeover with the radio ATTACHED or backing off abandons an entry to DOZE, which the command's end begins again (R157). -/
theorem verdict_abandonsEntry {e : EntryStage} {s : State} (ht : s.health.timer100.isSome = true) (hp : s.path.path = .fibre)
    (hl : s.loader.shadowsLoaded = true) (hs : s.loader.softReset = .none) (ho : s.loader.policy.pathOverride = .automatic)
    (hv : s.health.verdict = .healthy) (hlos : s.pins.los = true) (hlow : max 1 (s.health.sig - s.loader.policy.sig.p) ≤ s.loader.policy.sig.t)
    (hw : s.bus.waiting = []) (hlen : s.events.entries.length = 11) (hr : s.radio.state = .attached ∨ s.radio.state = .backoff)
    (he : s.power.step = .entering e) (hd : dozeConditions s = true) :
    ∃ t, exec .health100msExpiry s = .next t ∧ t.path.path = (if s.radio.state = .attached then .radio else .held)
      ∧ t.power.step = .entering .settling ∧ t.power.mode = .reserve ∧ (e ≠ .link → t.radio.items.lowPower = s.radio.items.lowPower)
      ∧ (e = .link → s.radio.lowPowerTold = true → s.radio.ldo = none → s.radio.items.lowPower = none → t.radio.items.lowPower = some false)
      ∧ t.events.pageWanted = true := by
  simp only [dozeConditions, uplinkEmpty, downlinkEmpty, slotsFree, Bool.and_eq_true, beq_iff_eq] at hd
  obtain ⟨⟨⟨⟨⟨⟨⟨⟨hmode, hlost⟩, hmains⟩, _⟩, ⟨huE, huV⟩, huD⟩, hdV, hdD⟩, hA, hB⟩, hoff⟩, hquiet⟩ := hd
  obtain ⟨d, h, _, hverdict, hexec⟩ := exec_health100ms_takesOver ht (by simp [hmode]) hp hl hs ho hv hlos hlow
  generalize hu : raiseEvent d { s with health := h } = u at hexec
  have step : u.power.step = .entering e := by simp [← hu, he]
  have radio : u.radio = s.radio := by simp [← hu]
  obtain ⟨power, pins, hold, slotA, slotB, low, low'⟩ := takeoverSet_abandons .verdict step
  have calm := takeoverSet_calm .verdict (s := u) (by simp [← hu, hw])
  obtain ⟨path, _, _, page, phase, _⟩ := enterTakeover_leaves (c := .verdict) (s := u) (by simp [← hu, ho])
  have soft : (enterTakeover .verdict u).loader.softReset = .none := by simp [← hu, hs]
  have moved : ∃ q, enterTakeover .verdict u = changePath (if s.radio.state = .attached then .radio else .held) q (takeoverSet .verdict u) := by
    rw [enterTakeover_undecided (by simp [← hu, ho]), radio]
    obtain hr | hr := hr
    · exact ⟨.attached, by simp [hr]⟩
    · exact ⟨.attachFailed, by simp [hr]⟩
  obtain ⟨q, moved⟩ := moved
  have same (p : PathState) (w : State) : (changePath p q w).power = w.power ∧ (changePath p q w).pins = w.pins ∧ (changePath p q w).hold = w.hold
      ∧ (changePath p q w).radio = w.radio ∧ (changePath p q w).bus = w.bus ∧ (changePath p q w).path.path = p := ⟨rfl, rfl, rfl, rfl, rfl, rfl⟩
  obtain ⟨mpower, mpins, mhold, mradio, mbus, mpath⟩ := same (if s.radio.state = .attached then .radio else .held) (takeoverSet .verdict u)
  rw [← moved] at mpower mpins mhold mradio mbus mpath
  have vhold := (mhold.trans hold).trans (show u.hold = s.hold by simp [← hu])
  have vpins := (mpins.trans pins).trans (show u.pins = s.pins by simp [← hu])
  have vpower := (mpower.trans power).trans (show _ = { s.power with step := .awake } by simp [← hu])
  have vslotA := ((congrArg RadioLink.slotA mradio).trans slotA).trans (congrArg RadioLink.slotA radio)
  have vslotB := ((congrArg RadioLink.slotB mradio).trans slotB).trans (congrArg RadioLink.slotB radio)
  generalize enterTakeover .verdict u = v at *
  obtain ⟨w, k, x, y, z, hquiet'⟩ := settle_quiet (s := v) (n := 64) rfl (by rw [mbus]; exact fun p hm => (calm p hm).1)
    ⟨by rw [mbus]; exact fun hm => (calm _ hm).2 rfl, by simp [phase], by simp [soft]⟩ (by simp [vhold, hdV]) (by simp [vhold, hdD])
  have holds : dozeConditions { v with bus.waiting := w, bus.queue := k, ring.scanRunning := x, ring.scanMark := y, ring.scanRead := z } = true := by
    have place : v.path.path = .radio ∨ v.path.path = .held := by
      rw [mpath]
      split <;> simp
    have place' : (v.path.path == .fibre || v.path.path == .radio || v.path.path == .held) = true := by
      obtain h | h := place <;> simp [h]
    simp only [dozeConditions, uplinkEmpty, downlinkEmpty, slotsFree, place', vpower, vpins, vhold, vslotA, vslotB]
    simp [hmode, hlost, hmains, huE, huV, huD, hdV, hdD, hA, hB, hoff, hquiet]
  have awake : v.power.step = .awake := by rw [vpower]
  have ended : settle v = { v with
      bus.waiting := w, bus.queue := k
      ring.scanRunning := x, ring.scanMark := y, ring.scanRead := z
      power.step := .entering .settling } := by
    rw [hquiet', evalDoze]
    simp [awake, holds]
  refine ⟨settle v, hexec, ?_, ?_, ?_, fun hne => ?_, fun hlink htold hldo hnone => ?_, ?_⟩
  · rw [ended]
    exact mpath
  · rw [ended]
  · rw [ended]
    simp [vpower, hmode]
  · rw [ended]
    simp only [mradio]
    rw [low hne, radio]
  · rw [ended]
    simp only [mradio]
    exact low' hlink (by simpa [radio] using htold) (by simpa [radio] using hldo) (by simpa [radio] using hnone)
  · rw [ended]
    exact page

/-- Settles O39. -/
theorem takeoverSetsDwellAndViews : Obligations.TakeoverSetsDwellAndViews := by
  unfold Obligations.TakeoverSetsDwellAndViews
  refine ⟨?_, ?_, ?_, ?_, ?_, ?_, ?_, ?_, ?_, ?_, ?_⟩
  · intro s ht he hp hl hs ho hv hlos hlow ha hb hw hlen
    obtain ⟨u, t, hexec, hverdict, hpath, hbus, hloader, tverdict, tpath, holds, told⟩ := verdict_takesOver ht he hp hl hs ho hv hlos hlow hw hlen
    have dwell : takeoverDwell u = takeoverDwell s := by simp [takeoverDwell, hpath, hloader]
    refine ⟨t, hexec, tverdict, by simp [tpath, takenPath, ha, hb], by rw [holds.dwellD, dwell]; rfl, by simp [holds.dwell, hverdict],
      by rw [holds.fixedH, hbus], by rw [holds.fixedG, hbus], by rw [holds.base, hbus], by rw [holds.cursor, hbus], holds.uplink, holds.receive,
      holds.timer1s, holds.wanted, by simpa [takenDetail, ha, hb] using told⟩
  · intro s ht he
    show Host.Outcome.next (doRefallTimerExpiry s) = _
    simp [doRefallTimerExpiry, ht, nowOrRecorded, enginesRun, he, refallExpires]
  · intro s ht he hr
    show Host.Outcome.next (doRefallTimerExpiry s) = _
    simp only [doRefallTimerExpiry, ht, nowOrRecorded, enginesRun, he, hr]
    rfl
  · intro s ht he hp hv hlos hlink hhigh hrestore
    have offFibre : s.path.path ≠ .fibre ∧ s.path.path ≠ .disabled := by obtain h | h | h | h := hp <;> simp [h]
    obtain ⟨v, hval, hexec⟩ := exec_health100ms_offFibre ht he offFibre.1
    rw [if_pos ⟨hlos, hlink⟩] at hval
    obtain ⟨d, heval⟩ := evaluate_offFibre_recovers (s := { s with health.timer100 := some 100, health.sig := v }) offFibre.1 offFibre.2 hv
      (by rw [hval]; exact hhigh) (by rw [hval]; exact hrestore)
    rw [heval] at hexec
    exact ⟨_, hexec, by simp, by simp, by simp⟩
  · intro s ht he hp hph hs ho hv hlos hlow hw hlen
    obtain ⟨u, t, hexec, udwell, utimer, utx, urx, uradio, tverdict, h, told⟩ := verdict_interrupts ht he hp hph hs ho hv hlos hlow hw hlen
    exact ⟨t, hexec, tverdict, by rw [h.dwell, udwell], h.phase, h.drainTimer, h.fence, h.pause, by rw [h.path, uradio], told,
      by rw [h.timer, utimer], by rw [h.tx, utx], by rw [h.rx, urx], h.page⟩
  · intro s ht he hp hph ho hv hlos hlow
    obtain ⟨v, hval, hexec⟩ := exec_health100ms_offFibre ht he (by simp [hp])
    rw [if_neg (by simp [hlos])] at hval
    obtain ⟨d, _, heval⟩ := evaluate_offFibre_falls (s := { s with health.timer100 := some 100, health.sig := v }) (by simp [hp]) (by simp [hp]) hv
      (by rw [hval]; exact hlow)
    rw [heval, if_neg (by simp [ho])] at hexec
    exact ⟨_, hexec, by simp, by simp, by simp [hp], by simp [hph], by simp, by simp⟩
  · intro a rest bs s hq hbs hk hsoft hp hph hs hold hnew _ hw hlen
    obtain ⟨t, hexec, h, told⟩ := policy_interrupts hq hbs hk hsoft hp hph hs (by rw [hnew]; exact hold) (.inl ⟨hnew, rfl⟩) hw hlen
    exact ⟨t, hexec, h.dwell, h.phase, h.drainTimer, h.fence, h.pause, h.path, told, h.timer, h.tx, h.rx, h.page⟩
  · intro a rest bs s hq hbs hk hsoft hp hph hs hold hnew hv hmet _ hw hlen
    rw [← bytes_secondHalf] at hbs
    rw [← asksSoftReset_eq] at hsoft
    rw [← policyOf_eq] at hnew
    obtain ⟨t, hexec, h, told⟩ := policy_interrupts hq hbs hk hsoft hp hph hs (by rw [hnew]; exact hold) (.inr ⟨hnew, hv, hmet, rfl⟩) hw hlen
    exact ⟨t, hexec, h.dwell, h.phase, h.drainTimer, h.fence, h.pause, h.path, told, h.timer, h.tx, h.rx, h.page⟩
  · intro a rest bs s hq hbs hk hsoft hp hph _ _ hnew hv _ _
    rw [← bytes_secondHalf] at hbs
    rw [← asksSoftReset_eq] at hsoft
    rw [← policyOf_eq] at hnew
    obtain ⟨t, hexec, path, phase, drainTimer, fence, pause⟩ := policy_drainsOn hq hbs hk hsoft hp hnew hv
    exact ⟨t, hexec, path, phase.trans hph, drainTimer, fence, pause⟩
  · intro a rest bs cause s hq hbs hk hsoft hp hl hs hchange hc _ hw hlen
    rw [← bytes_secondHalf] at hbs
    rw [← asksSoftReset_eq] at hsoft
    rw [← policyOf_eq] at hchange hc ⊢
    obtain ⟨u, t, hexec, upath, upolicy, uhealth, uH, uG, path, h, told⟩ := policy_takesOver hq hbs hk hsoft hp hl hs hchange hc hw hlen
    have dwell : takeoverDwell u = if s.path.refallOpen then min (2 * s.path.dwellD) 3600 else (policyOf bs).d0 := by
      simp [takeoverDwell, upath, upolicy]
    exact ⟨t, hexec, path, told, h.dwellD.trans dwell, by rw [h.dwell, h.dwellD, uhealth], h.fixedH.trans uH, h.fixedG.trans uG,
      h.base.trans uH, h.cursor.trans uG, h.uplink, h.receive, h.timer1s, h.wanted⟩
  · intro e s ht hp hl hs ho hv hlos hlow hw hlen hr he hd
    exact verdict_abandonsEntry ht hp hl hs ho hv hlos hlow hw hlen hr he hd

end Sys2Proof.Machine
end

section
/-! Lines that hold reads alone (R150), the re-initialisation (R171), and the application of a policy block to a command's end (R164). -/

-- One theorem at a time, as in the model's laws: the threads of many at once would not fit the memory a check has.
set_option Elab.async false

namespace Sys2Proof.Machine

/-! ### Lines of reads -/

/-- The reads of the rings and of the policy block, whose issue moves at most the PGEN value kept for the application's event. -/
def readRequest : Purpose → Bool
  | .descriptorRead _ _ => true
  | .scanRead _ => true
  | .frameRead _ => true
  | .receiveDescriptorRead => true
  | .policyRead _ => true
  | .txcHandBack => false
  | .shadowRead _ => false
  | .completion _ _ => false
  | .txcAdvance => false
  | .txcForced => false
  | .bufferWrite => false
  | .receiveStatus => false
  | .abandonedEmpty _ => false
  | .rxfDelivery => false
  | .rxfCatchUp => false
  | .rxfForced => false
  | .eventRecord => false
  | .evpWrite => false
  | .pageHalf _ _ => false

/-- Reads alone wait for the master. -/
abbrev ReadsWait (s : State) : Prop := ∀ p ∈ s.bus.waiting, readRequest p = true

/-- Work that asks for reads alone. -/
abbrev ReadsKept (s t : State) : Prop := ReadsWait s → ReadsWait t

namespace ReadsKept

theorem of_asks {s t : State} {ps : List Purpose} (hw : t.bus.waiting = s.bus.waiting ++ ps) (hp : ∀ p ∈ ps, readRequest p = true) :
    ReadsKept s t := fun hs p hmem => by
  rw [hw, List.mem_append] at hmem
  exact hmem.elim (hs p) (hp p)

theorem of_eq {s t : State} (hw : t.bus.waiting = s.bus.waiting := by simp) : ReadsKept s t := of_asks (ps := []) (by simpa using hw) (by simp)

theorem trans {s t u : State} (h : ReadsKept s t) (h' : ReadsKept t u) : ReadsKept s u := fun hs => h' (h hs)

theorem foldl {β : Type} {g : State → β → State} (hg : ∀ s a, ReadsKept s (g s a)) (l : List β) (s : State) : ReadsKept s (l.foldl g s) := by
  induction l generalizing s with
  | nil => exact id
  | cons a l ih => exact fun h => ih _ (hg s a h)

end ReadsKept

theorem onIssue_read {p : Purpose} (hp : readRequest p = true) (s : State) : ∃ g, onIssue p s = { s with loader.pgenAtIssue := g } := by
  cases p
  case policyRead b =>
    cases b
    · exact ⟨_, rfl⟩
    · exact ⟨s.loader.pgenAtIssue, rfl⟩
  all_goals first | exact ⟨s.loader.pgenAtIssue, rfl⟩ | simp [readRequest] at hp

theorem pump_reads (n : Nat) {s : State} (hr : ReadsWait s) :
    ∃ w q g, pump n s = { s with bus.waiting := w, bus.queue := q, loader.pgenAtIssue := g } ∧ ∀ p ∈ w, readRequest p = true := by
  induction n generalizing s with
  | zero => exact ⟨s.bus.waiting, s.bus.queue, s.loader.pgenAtIssue, rfl, hr⟩
  | succ n ih =>
    unfold pump
    split
    · exact ⟨s.bus.waiting, s.bus.queue, s.loader.pgenAtIssue, rfl, hr⟩
    · rename_i p rest hline
      split
      · have hrest : ∀ q ∈ rest, readRequest q = true := fun q hq => hr q (by rw [hline]; exact List.mem_cons_of_mem _ hq)
        have issued : ∃ q g, issueOne p rest s = { s with bus.waiting := rest, bus.queue := q, loader.pgenAtIssue := g } := by
          simp only [issueOne]
          (repeat' split)
          · exact ⟨s.bus.queue, s.loader.pgenAtIssue, rfl⟩
          · exact ⟨s.bus.queue, s.loader.pgenAtIssue, rfl⟩
          · rename_i x _
            obtain ⟨g, hg⟩ := onIssue_read (hr p (by simp [hline])) { s with bus.waiting := rest, bus.queue := s.bus.queue ++ [⟨p, x⟩] }
            exact ⟨_, g, hg⟩
        obtain ⟨q, g, hq⟩ := issued
        rw [hq]
        exact ih (s := { s with bus.waiting := rest, bus.queue := q, loader.pgenAtIssue := g }) hrest
      · exact ⟨s.bus.waiting, s.bus.queue, s.loader.pgenAtIssue, rfl, hr⟩

theorem withdrawScanRead_reads (s : State) : ReadsKept s (withdrawScanRead s) := fun hs => by
  unfold withdrawScanRead
  split
  · exact fun p hp => hs p (List.mem_of_mem_filter hp)
  · exact hs

theorem stopScan_reads (s : State) : ReadsKept s (stopScan s) := withdrawScanRead_reads s

theorem scanNext_reads (s : State) : ReadsKept s (scanNext s) := by
  simp only [scanNext]
  split
  · exact .of_asks (ps := [.scanRead (s.ring.scanMark.getD 0)]) (by simp) (by simp [readRequest])
  · exact id

theorem evalScan_reads (s : State) : ReadsKept s (evalScan s) := by
  unfold evalScan
  (repeat' split)
  · exact scanNext_reads s
  · exact scanNext_reads (startScan s)
  · exact stopScan_reads s
  · exact id

/-- With only reads waiting, no delivery to begin and no hand-back due, the standing work moves the line and the queue, the PGEN value kept
for an application, the scan, and what the doze conditions move (R150, R157). -/
theorem settle_undelivering {s v : State} {n : Nat} (h : issueAll s = pump n v) (hr : ReadsWait v)
    (hph : v.path.path ≠ .returning ∨ v.path.phase ≠ some .closing) (hso : v.loader.softReset ≠ .completing)
    (hd : v.path.path = .fibre ∨ v.hold.dqV = [] ∧ v.hold.dqD = []) : ∃ w q g a b c, settle s
      = evalDoze { v with
        bus.waiting := w, bus.queue := q, loader.pgenAtIssue := g
        ring.scanRunning := a, ring.scanMark := b, ring.scanRead := c } := by
  obtain ⟨w₁, q₁, g₁, h₁, hr₁⟩ := pump_reads n hr
  obtain ⟨w₂, a, b, c, h₂⟩ := evalScan_quiet (pump n v)
  have wait₁ : ReadsWait (pump n v) := by rw [h₁]; exact hr₁
  have wait₂ := evalScan_reads _ wait₁
  obtain ⟨w₃, q₃, g₃, h₃, hr₃⟩ := pump_reads 64 wait₂
  have wait₃ : ReadsWait (pump 64 (evalScan (pump n v))) := by rw [h₃]; exact hr₃
  obtain ⟨w₄, q₄, g₄, h₄, _⟩ := pump_reads 64 wait₃
  refine ⟨w₄, q₄, g₄, a, b, c, ?_⟩
  have undelivered : judgeDelivery (pump n v) = pump n v := by
    obtain hd | ⟨hV, hD⟩ := hd
    · have barred : mayDeliver (pump n v) = false := by simp [mayDeliver, h₁, hd]
      simp [judgeDelivery, barred]
    · exact judgeDelivery_idle (by simpa [h₁] using hV) (by simpa [h₁] using hD)
  have handed : tryHandBack (pump 64 (evalScan (pump n v))) = pump 64 (evalScan (pump n v)) := by
    rw [h₃, h₂, h₁]
    obtain hph | hph := hph
    · simp [tryHandBack, hph, hso]
    · simp [tryHandBack, hph, hso]
  rw [settle, h, undelivered]
  show evalDoze (pump 64 (tryHandBack (pump 64 (evalScan (pump n v))))) = _
  rw [handed, h₄, h₃, h₂, h₁]

theorem settle_reads {s v : State} {n : Nat} (h : issueAll s = pump n v) (hr : ReadsWait v)
    (hph : v.path.path ≠ .returning ∨ v.path.phase ≠ some .closing) (hso : v.loader.softReset ≠ .completing) (hV : v.hold.dqV = [])
    (hD : v.hold.dqD = []) : ∃ w q g a b c, settle s
      = evalDoze { v with
        bus.waiting := w, bus.queue := q, loader.pgenAtIssue := g
        ring.scanRunning := a, ring.scanMark := b, ring.scanRead := c } :=
  settle_undelivering h hr hph hso (.inr ⟨hV, hD⟩)

/-! ### Work that asks for reads alone -/

theorem judgePending_reads (s : State) : ReadsKept s (judgePending s) := by
  refine .foldl (fun u e => ?_) _ s
  have taken (c : FrameClass) : ReadsKept u (beginTake e c u) := .of_asks (beginTake_waiting e c u) (by simp [readRequest])
  unfold judgeEntry
  (repeat' split) <;> first | exact taken _ | exact id

theorem freeCells_reads (cells : List Nat) (s : State) : ReadsKept s (freeCells cells s) := by
  unfold freeCells
  split
  · exact id
  · exact .trans (.of_eq (by simp)) (judgePending_reads _)

theorem freeRecord_reads (r : FrameRecord) (s : State) : ReadsKept s (freeRecord r s) := by
  unfold freeRecord
  split
  · exact id
  · exact freeCells_reads _ _

theorem loseRecord_reads (reason : LossReason) (r : FrameRecord) (s : State) : ReadsKept s (loseRecord reason r s) :=
  .trans (t := reportLoss reason r s) (.of_eq (by simp)) (freeRecord_reads r _)

theorem loseAll_reads (reason : LossReason) (rs : List FrameRecord) (s : State) : ReadsKept s (loseAll reason rs s) :=
  .foldl (fun s r => loseRecord_reads reason r s) rs s

theorem softDiscardRecord_reads (r : FrameRecord) (s : State) : ReadsKept s (softDiscardRecord r s) :=
  .trans (t := countSoftDiscard r s) (.of_eq (by simp)) (freeRecord_reads r _)

theorem abandonPayload_reads (s : State) : ReadsKept s (abandonPayload s) := by
  have ended : ReadsKept s { s with radio.receiver := .idle } := .of_eq rfl
  unfold abandonPayload
  split
  · dsimp only
    split
    · exact ended
    · split
      · exact .trans ended (loseRecord_reads _ _ _)
      · exact .trans ended (loseRecord_reads _ _ _)
      · exact .trans ended (softDiscardRecord_reads _ _)
  · exact id

theorem freeOnLdo_reads (s : State) : ReadsKept s (freeOnLdo s) :=
  .trans (t := { s with hold.onLdo := [] }) (.of_eq rfl) (.foldl (fun u r => freeCells_reads r.cells u) s.hold.onLdo _)

theorem cutLink_reads (s : State) : ReadsKept s (cutLink s) :=
  .trans (t := { s with radio.ldo := none }) (.of_eq rfl) (.trans (freeOnLdo_reads _) (.trans (abandonPayload_reads _) (.of_eq rfl)))

theorem powerRule_reads (s : State) : ReadsKept s (powerRule s) := by
  have off : ReadsKept s (enterOff s) := .trans (.of_eq (by simp [dropPower])) (cutLink_reads _)
  unfold powerRule
  split
  · exact id
  · split <;> (try split) <;> first | exact id | exact off | exact .of_eq (by simp)

/-! ### The re-initialisation (R24, R41, R82, R102, R126, R161, R171) -/

/-- With nothing on LDO to free and no record arriving, the power rule moves the radio link alone, its slots and failures apart. -/
theorem powerRule_unloaded {s : State} (hl : s.hold.onLdo = []) (hr : ∀ r, s.radio.receiver = .payload r → r.record = none) :
    ∃ r l, powerRule s = { s with radio := r, hold.onLdo := l } ∧ r.slotA = s.radio.slotA ∧ r.slotB = s.radio.slotB
      ∧ r.failures = s.radio.failures ∧ r.lastCause = s.radio.lastCause := by
  have same : ∃ r l, s = { s with radio := r, hold.onLdo := l } ∧ r.slotA = s.radio.slotA ∧ r.slotB = s.radio.slotB
      ∧ r.failures = s.radio.failures ∧ r.lastCause = s.radio.lastCause := ⟨s.radio, s.hold.onLdo, rfl, rfl, rfl, rfl, rfl⟩
  have abandoned (u : State) (hu : ∀ r, u.radio.receiver = .payload r → r.record = none) :
      ∃ k, abandonPayload u = { u with radio.receiver := k } := by
    unfold abandonPayload
    split
    · rename_i r hrec
      simp only [hu r hrec]
      exact ⟨_, rfl⟩
    · exact ⟨u.radio.receiver, rfl⟩
  have freed (u : State) (hu : u.hold.onLdo = []) : freeOnLdo u = { u with hold.onLdo := [] } := by simp [freeOnLdo, hu]
  have cut (u : State) (hu : u.hold.onLdo = []) (hrec : ∀ r, u.radio.receiver = .payload r → r.record = none) :
      cutLink u = { u with radio.ldo := none, radio.receiver := .idle, hold.onLdo := [] } := by
    obtain ⟨k, hk⟩ := abandoned { u with radio.ldo := none, hold.onLdo := [] } hrec
    simp only [cutLink, freed { u with radio.ldo := none } hu, hk]
  have off : ∃ r l, enterOff s = { s with radio := r, hold.onLdo := l } ∧ r.slotA = s.radio.slotA ∧ r.slotB = s.radio.slotB
      ∧ r.failures = s.radio.failures ∧ r.lastCause = s.radio.lastCause := by
    unfold enterOff
    exact ⟨_, [], cut _ hl hr, rfl, rfl, rfl, rfl⟩
  unfold powerRule
  split
  · exact same
  · split <;> (try split) <;> first | exact same | exact off | exact ⟨_, s.hold.onLdo, rfl, rfl, rfl, rfl, rfl⟩

/-- What a re-initialisation in `s` sets. -/
structure Reinitialised (s t : State) : Prop where
  softReset : t.loader.softReset = .rereading
  softWait : t.loader.softWait = none
  readState : t.loader.readState = .reading
  values : t.health.sig = 253 ∧ t.health.txp = 253 ∧ t.health.rxa = 253 ∧ t.health.txe = 253
  verdict : t.health.verdict = .healthy
  timers : t.health.timer100 = some 100 ∧ t.health.timer1s = some 1000
  freeList : t.hold.freeList = List.range 256
  uplink : t.hold.uqE = [] ∧ t.hold.uqV = [] ∧ t.hold.uqD = []
  downlink : t.hold.dqV = [] ∧ t.hold.dqD = []
  paused : t.hold.paused = false
  sweeps : t.hold.sweep10 = some 10 ∧ t.hold.sweep1s = some 1000
  ring : t.ring.takes = [] ∧ t.ring.delivery = none ∧ t.ring.window = [] ∧ t.ring.base = none ∧ t.ring.fence = none
  pacer : t.pacer.credit = 0 ∧ t.pacer.grantSeen = false ∧ t.pacer.refusalPause = none ∧ t.pacer.carried = s.pacer.carried
  slots : t.radio.slotA = none ∧ t.radio.slotB = none
  failures : t.radio.failures = 0 ∧ t.radio.lastCause = none
  power : t.power.quiet = .running (s.loader.policy.dozeDelay * 1000) ∧ t.power.latch = WakeLatch.empty
  path : t.path = s.path
  views : t.bus.uplinkView = s.bus.uplinkView ∧ t.bus.receiveView = s.bus.receiveView ∧ t.bus.txGuard = s.bus.txGuard
    ∧ t.bus.rxGuard = s.bus.rxGuard ∧ t.bus.txHorizon = s.bus.txHorizon ∧ t.bus.rxHorizon = s.bus.rxHorizon
  policy : t.loader.policy = s.loader.policy ∧ t.loader.softResetInForce = s.loader.softResetInForce
    ∧ t.loader.counterClearInForce = s.loader.counterClearInForce
  others : ∀ k, k ≠ .softResetDone → entryOfKind t k = none
  told : ∃ up down positions, detailOfKind t .softResetDone = some (.softResetDone up down positions)
    ∧ (s.radio.receiver = .idle → up = s.loader.softUp ∧ down = s.loader.softDown ∧ positions = s.loader.softPositions)

/-- The re-initialisation up to the power rule. -/
def blocksReinitialised (s : State) : State :=
  s |> reinitHealth |> reinitHold |> reinitPacer |> reinitRing |> reinitRadio |> reinitPower

theorem endReceiving_record (s : State) {r : Receiving} (h : (endReceiving s).radio.receiver = .payload r) : r.record = none := by
  unfold endReceiving at h
  split at h
  · split at h
    · simp only [Receiver.payload.injEq] at h
      rw [← h]
    · simp_all
  · simp_all

theorem reinitRadio_eq (s : State) : ∃ r, reinitRadio s = { s with radio := r } ∧ r.slotA = s.radio.slotA ∧ r.slotB = s.radio.slotB
    ∧ r.receiver = s.radio.receiver ∧ r.failures = 0 ∧ r.lastCause = none := by
  unfold reinitRadio
  cases s.radio.state <;> dsimp only
  case backoff =>
    unfold startAfterCycle
    split
    · exact ⟨_, rfl, rfl, rfl, rfl, rfl, rfl⟩
    · split <;> exact ⟨_, rfl, rfl, rfl, rfl, rfl, rfl⟩
  all_goals exact ⟨_, rfl, rfl, rfl, rfl, rfl, rfl⟩

theorem emptySlots_slots (s : State) : (emptySlots s).radio.slotA = none ∧ (emptySlots s).radio.slotB = none := by
  have cleared (slot : Slot) (u : State) : (clearSlot slot u).radio.slotA = (if slot = .a then none else u.radio.slotA)
      ∧ (clearSlot slot u).radio.slotB = (if slot = .b then none else u.radio.slotB) := by
    cases slot <;> simp only [clearSlot] <;> (repeat' split) <;> simp_all
  simp [emptySlots, cleared]

/-- The hold memory, the slots and the radio's receiver as a re-initialisation leaves them (R82, R118). -/
theorem reinitHold_sets (s : State) : (reinitHold s).hold.freeList = List.range 256
    ∧ (reinitHold s).hold.uqE = [] ∧ (reinitHold s).hold.uqV = [] ∧ (reinitHold s).hold.uqD = [] ∧ (reinitHold s).hold.dqV = []
    ∧ (reinitHold s).hold.dqD = [] ∧ (reinitHold s).hold.onLdo = [] ∧ (reinitHold s).hold.paused = false
    ∧ (reinitHold s).hold.sweep10 = some 10 ∧ (reinitHold s).hold.sweep1s = some 1000
    ∧ (reinitHold s).ring.takes = [] ∧ (reinitHold s).ring.delivery = none
    ∧ (reinitHold s).radio.slotA = none ∧ (reinitHold s).radio.slotB = none
    ∧ (∀ p, (reinitHold s).radio.receiver = .payload p → p.record = none)
    ∧ (s.radio.receiver = .idle → (reinitHold s).loader = s.loader) := by
  obtain ⟨slotA, slotB⟩ := emptySlots_slots (endSending (endReceiving s))
  have paused (u : State) : ∃ b, withPauseTarget (fun s => { s with hold.paused := false }) u
      = { u with hold.paused := false, radio.items.pause := b } := by
    unfold withPauseTarget
    split <;> exact ⟨_, rfl⟩
  obtain ⟨b, hb⟩ := paused { emptyQueues (emptySlots (endSending (endReceiving s))) with
    hold.freeList := List.range Config.cellCount, hold.onLdo := []
    hold.sweep10 := some 10, hold.sweep1s := some 1000
    ring.takes := [], ring.delivery := none }
  have whole : reinitHold s = _ := hb
  rw [whole]
  refine ⟨by simp [Config.cellCount], rfl, rfl, rfl, rfl, rfl, rfl, rfl, rfl, rfl, rfl, rfl, slotA, slotB, fun p hp => ?_, fun hidle => ?_⟩
  · have kept : (endSending (endReceiving s)).radio.receiver = (endReceiving s).radio.receiver := by simp
    exact endReceiving_record s (kept.symm.trans (by simpa [emptyQueues] using hp))
  · simp [emptyQueues, endReceiving, hidle]

/-- The blocks as a re-initialisation leaves them, up to the power rule. -/
theorem reinitialise_blocks (s : State) : ∃ v r l, reinitialise s = beginRead .softReset { raiseEvent (.softResetDone
      v.loader.softUp v.loader.softDown v.loader.softPositions) (clearEntries { v with radio := r, hold.onLdo := l }) with
        loader.softReset := .rereading, loader.softWait := none }
    ∧ v = blocksReinitialised s ∧ r.slotA = none ∧ r.slotB = none ∧ r.failures = 0 ∧ r.lastCause = none := by
  obtain ⟨r₀, hradio, hA₀, hB₀, hrec₀, hf₀, hc₀⟩ := reinitRadio_eq (reinitRing (reinitPacer (reinitHold (reinitHealth s))))
  obtain ⟨_, _, _, _, _, _, ldo, _, _, _, _, _, slotA, slotB, record, _⟩ := reinitHold_sets (reinitHealth s)
  have blocks : (blocksReinitialised s).radio = r₀ := by simp [blocksReinitialised, hradio]
  obtain ⟨r, l, hrule, hA, hB, hf, hc⟩ := powerRule_unloaded (s := blocksReinitialised s)
    (by simp [blocksReinitialised, reinitRing, ringInFibre, reinitPacer, ldo]) (by
      rw [blocks]
      intro p hp
      exact record p (by simpa [hrec₀, reinitRing, ringInFibre, reinitPacer] using hp))
  have inner : (reinitRing (reinitPacer (reinitHold (reinitHealth s)))).radio = (reinitHold (reinitHealth s)).radio := by
    simp [reinitRing, ringInFibre, reinitPacer]
  refine ⟨_, r, l, ?_, rfl, ?_, ?_, ?_, ?_⟩
  · have unfolded : reinitialise s = beginRead .softReset { raiseEvent (.softResetDone
        (powerRule (blocksReinitialised s)).loader.softUp (powerRule (blocksReinitialised s)).loader.softDown
        (powerRule (blocksReinitialised s)).loader.softPositions) (clearEntries (powerRule (blocksReinitialised s))) with
          loader.softReset := .rereading, loader.softWait := none } := rfl
    rw [unfolded, hrule]
  · rw [hA, blocks, hA₀, inner, slotA]
  · rw [hB, blocks, hB₀, inner, slotB]
  · rw [hf, blocks, hf₀]
  · rw [hc, blocks, hc₀]

theorem reinitialise_sets (s : State) : Reinitialised s (reinitialise s) := by
  obtain ⟨v, r, l, whole, hv, slotA, slotB, failures, lastCause⟩ := reinitialise_blocks s
  obtain ⟨freeList, uqE, uqV, uqD, dqV, dqD, _, paused, sweep10, sweep1s, takes, delivery, _, _, _, uncounted⟩ :=
    reinitHold_sets (reinitHealth s)
  have hold : v.hold = (reinitHold (reinitHealth s)).hold := by simp [hv, blocksReinitialised, reinitRing, ringInFibre, reinitPacer]
  have health : v.health = (reinitHealth s).health := by simp [hv, blocksReinitialised, reinitRing, ringInFibre, reinitPacer]
  have ring : v.ring.takes = (reinitHold (reinitHealth s)).ring.takes ∧ v.ring.delivery = (reinitHold (reinitHealth s)).ring.delivery
      ∧ v.ring.window = [] ∧ v.ring.base = none ∧ v.ring.fence = none := by simp [hv, blocksReinitialised, reinitRing, ringInFibre, reinitPacer]
  have pacer : v.pacer.credit = 0 ∧ v.pacer.grantSeen = false ∧ v.pacer.refusalPause = none ∧ v.pacer.carried = s.pacer.carried := by
    simp [hv, blocksReinitialised, reinitRing, ringInFibre, reinitPacer]
  have power : v.power.quiet = .running (s.loader.policy.dozeDelay * 1000) ∧ v.power.latch = WakeLatch.empty := by
    simp [hv, blocksReinitialised, reinitPower, restartQuiet, reinitRing, ringInFibre, reinitPacer]
  have rest : v.path = s.path ∧ v.loader.policy = s.loader.policy ∧ v.loader.softResetInForce = s.loader.softResetInForce
      ∧ v.loader.counterClearInForce = s.loader.counterClearInForce ∧ v.loader.softPositions = s.loader.softPositions := by
    simp [hv, blocksReinitialised, reinitRing, ringInFibre, reinitPacer]
  have views : v.bus.uplinkView = s.bus.uplinkView ∧ v.bus.receiveView = s.bus.receiveView ∧ v.bus.txGuard = s.bus.txGuard
      ∧ v.bus.rxGuard = s.bus.rxGuard ∧ v.bus.txHorizon = s.bus.txHorizon ∧ v.bus.rxHorizon = s.bus.rxHorizon := by
    simp [hv, blocksReinitialised, reinitRing, ringInFibre, reinitPacer]
  have cleared : (clearEntries { v with radio := r, hold.onLdo := l }).events.entries = List.replicate 11 none := rfl
  generalize hd : EventDetail.softResetDone _ _ _ = d at whole
  have kind : detailKind d = .softResetDone := by rw [← hd]; rfl
  have others (k : EventKind) (hk : k ≠ .softResetDone) :
      entryOfKind (raiseEvent d (clearEntries { v with radio := r, hold.onLdo := l })) k = none := by
    rw [entryOfKind_raiseEvent_ne (by rw [kind]; exact Ne.symm hk), entryOfKind, cleared, List.getD_eq_getElem?_getD, List.getElem?_replicate]
    split <;> rfl
  have told : detailOfKind (raiseEvent d (clearEntries { v with radio := r, hold.onLdo := l })) .softResetDone = some d := by
    rw [← kind]
    exact detailOfKind_raiseEvent (by rw [cleared]; rfl)
  obtain ⟨takes', delivery', window, base, fence⟩ := ring
  obtain ⟨credit, grantSeen, refusalPause, carried⟩ := pacer
  obtain ⟨quiet, latch⟩ := power
  obtain ⟨path, policy, softForce, clearForce, positions⟩ := rest
  obtain ⟨uplink, receive, txGuard, rxGuard, txHorizon, rxHorizon⟩ := views
  have same (w : State) : (beginRead .softReset { w with loader.softReset := .rereading, loader.softWait := none }).events = w.events := rfl
  rw [whole]
  constructor
  case others =>
    intro k hk
    simpa [entryOfKind, beginRead] using others k hk
  case told =>
    refine ⟨v.loader.softUp, v.loader.softDown, v.loader.softPositions, ?_, fun hidle => ?_⟩
    · simpa [detailOfKind, entryOfKind, beginRead, ← hd] using told
    · have loader : v.loader = (reinitHold (reinitHealth s)).loader := by
        simp [hv, blocksReinitialised, reinitRing, ringInFibre, reinitPacer]
      rw [loader, uncounted (by simpa using hidle)]
      simp
  case values => simp [beginRead, clearEntries, health, reinitHealth]
  case verdict => simp [beginRead, clearEntries, health, reinitHealth]
  case timers => simp [beginRead, clearEntries, health, reinitHealth]
  all_goals simp [beginRead, clearEntries, hold, freeList, uqE, uqV, uqD, dqV, dqD, paused, sweep10, sweep1s, takes', takes, delivery', delivery,
    window, base, fence, credit, grantSeen, refusalPause, carried, quiet, latch, path, policy, softForce, clearForce, uplink, receive, txGuard,
    rxGuard, txHorizon, rxHorizon, slotA, slotB, failures, lastCause]

theorem reinitialise_reads (s : State) : ReadsKept s (reinitialise s) := by
  obtain ⟨v, r, l, whole, hv, _⟩ := reinitialise_blocks s
  have scanned : ReadsKept s v := by
    have stopped := stopScan_reads { ringInFibre (reinitPacer (reinitHold (reinitHealth s))) with ring.readMark := none }
    have line : v.bus.waiting = (stopScan { ringInFibre (reinitPacer (reinitHold (reinitHealth s))) with ring.readMark := none }).bus.waiting := by
      simp [hv, blocksReinitialised, reinitRing]
    exact .trans (.of_eq (by simp [ringInFibre, reinitPacer])) (.trans stopped (.of_eq line))
  refine scanned.trans (.of_asks (ps := [.policyRead false, .policyRead true]) ?_ (by simp [readRequest]))
  rw [whole]
  simp [beginRead, clearEntries]

/-- A re-initialisation stands to the command's end, with reads alone waiting (R171). -/
theorem settle_reinitialised {s t : State} (h : Reinitialised s t) (hr : ReadsWait t) (hp : s.path.path = .fibre) :
    Reinitialised s (settle t) := by
  obtain ⟨uqE, uqV, uqD⟩ := h.uplink
  obtain ⟨dqV, dqD⟩ := h.downlink
  obtain ⟨w, q, g, a, b, c, hs⟩ := settle_reads (s := t) (n := 64) rfl hr (.inl (by simp [h.path, hp])) (by simp [h.softReset]) dqV dqD
  obtain ⟨y, k, hradio⟩ := evalDoze_radio { t with
    bus.waiting := w, bus.queue := q, loader.pgenAtIssue := g
    ring.scanRunning := a, ring.scanMark := b, ring.scanRead := c }
  rw [hs]
  constructor
  case others => simpa [entryOfKind] using h.others
  case told => simpa [entryOfKind, detailOfKind] using h.told
  case slots => simpa [hradio] using h.slots
  case failures => simpa [hradio] using h.failures
  case path => simpa using h.path
  case softReset => simpa using h.softReset
  case softWait => simpa using h.softWait
  case readState => simpa using h.readState
  case values => simpa using h.values
  case verdict => simpa using h.verdict
  case timers => simpa using h.timers
  case freeList => simpa using h.freeList
  case uplink => simpa using h.uplink
  case downlink => simpa using h.downlink
  case paused => simpa using h.paused
  case sweeps => simpa using h.sweeps
  case ring => simpa using h.ring
  case pacer => simpa using h.pacer
  case power => simpa using h.power
  case views => simpa using h.views
  case policy => simpa using h.policy

/-! ### Owners that ask for reads alone -/

theorem loseOld_reads (u : State) : ReadsKept u (dropOldUqE u) ∧ ReadsKept u (dropOldUqV u) :=
  ⟨.trans (.of_eq (t := { u with hold.uqE := u.hold.uqE.dropWhile (voiceTooOld u) }) rfl) (loseAll_reads _ _ _),
    .trans (.of_eq (t := { u with hold.uqV := u.hold.uqV.dropWhile (voiceTooOld u) }) rfl) (loseAll_reads _ _ _)⟩

theorem placementAttempt_reads (s : State) : ReadsKept s (placementAttempt s) := by
  have examined (u : State) : ReadsKept u (examine u) := by
    obtain ⟨hE, _⟩ := loseOld_reads u
    simp only [examine]
    split
    · exact hE.trans (loseOld_reads _).2
    · exact hE
  have placed (slot : Slot) (r : FrameRecord) (u : State) : ReadsKept u (place slot r u) := by
    have filled : ReadsKept u (u |> chargeSlot slot (frameCost u r.length) |> removeHead |> fillSlot slot r) := .of_eq (by simp)
    unfold place
    dsimp only
    split
    · exact filled.trans (judgePending_reads _)
    · exact filled
  have once (u : State) : ReadsKept u (placeOnce u) := by
    unfold placeOnce
    dsimp only
    (repeat' split)
    · exact (examined u).trans (placed _ _ _)
    · exact examined u
    · exact examined u
    · exact id
  unfold placementAttempt
  dsimp only
  split
  · exact once s
  · exact (once s).trans (once _)

theorem ownersRest_reads (old p : Policy) (startUp : Bool) (s : State) : ReadsKept s (ownersRest old p startUp s) := by
  have judged : ReadsKept s (judgePending (evalPause s)) := .trans (.of_eq (by simp)) (judgePending_reads _)
  have placed (b : Bool) (u : State) : ReadsKept u (if b then placementAttempt u else u) := by
    cases b
    · exact id
    · exact placementAttempt_reads u
  have metered (u : State) : ReadsKept u (meterTakes old startUp u) := .of_eq (by simp)
  exact judged.trans (.trans (placed _ _) (.trans (metered _) (powerRule_reads _)))

theorem readEnds_reads (s : State) : ReadsKept s (readEnds s) := by
  obtain ⟨ps, hps, hall⟩ := readEnds_waiting s
  exact .of_asks hps fun p hp => by
    obtain ⟨b, rfl⟩ := hall p hp
    rfl

end Sys2Proof.Machine
end

section
/-! A policy block's application to the command's end: its record, its requests, the counters, and a soft reset in FIBRE (R164, R171). -/

-- One theorem at a time, as in the model's laws: the threads of many at once would not fit the memory a check has.
set_option Elab.async false

namespace Sys2Proof.Machine

/-! ### What the override's change asks for -/

/-- The eleven places of the records stand, and no event record comes to wait. -/
structure PlacesStand (s t : State) : Prop where
  line : .eventRecord ∉ s.bus.waiting → .eventRecord ∉ t.bus.waiting
  places : t.events.entries.length = s.events.entries.length

theorem PlacesStand.refl (s : State) : PlacesStand s s := ⟨id, rfl⟩

theorem enterReturning_places (c : PathCause) (s : State) : PlacesStand s (enterReturning c s) := by
  refine ⟨enterReturning_noRecord c s, ?_⟩
  obtain ⟨u, hu, _, he, _⟩ := enterReturning_begins c s
  rw [hu]
  simp [changePath, he]

theorem enterReturning_reads (c : PathCause) (s : State) : ReadsKept s (enterReturning c s) := by
  obtain ⟨u, hu, hw, _⟩ := enterReturning_begins c s
  rw [hu]
  exact .trans (.of_eq (by simp [hw])) (judgePending_reads _)

theorem evalReturn_places (s : State) : PlacesStand s (evalReturn s) := by
  obtain h | ⟨c, h⟩ := evalReturn_cases s <;> rw [h]
  · exact .refl s
  · exact enterReturning_places c s

theorem evalReturn_reads (s : State) : ReadsKept s (evalReturn s) := by
  obtain h | ⟨c, h⟩ := evalReturn_cases s <;> rw [h]
  · exact id
  · exact enterReturning_reads c s

theorem readRequest_of_calm {p : Purpose} (h : calmRequest p = true) (hb : p ≠ .txcHandBack) : readRequest p = true := by
  cases p <;> simp_all [calmRequest, readRequest]

theorem interruptReturn_cases (c : PathCause) (s : State) :
    interruptReturn c s = s ∨ interruptReturn c s = evalReturn (judgePending (returnEnded c s)) := by
  have state : (readAhead (returnUndone s)).radio.state = s.radio.state := by
    obtain ⟨b, hb⟩ := returnUndone_eq s
    simp [hb]
  unfold interruptReturn returnEnded
  rw [← state]
  split
  · exact .inr rfl
  · exact .inl rfl

theorem returnEnded_places (c : PathCause) (s : State) : PlacesStand s (judgePending (returnEnded c s)) := by
  obtain ⟨b, hb⟩ := returnUndone_eq s
  have asks := (judgePending_engineKeeps (returnEnded c s)).toEngineAsks
  have ended := (readAhead_engineKeeps (returnUndone s)).toEngineAsks
  refine ⟨fun hno => asks.noRecord (ended.noRecord (by simpa [hb] using hno)), ?_⟩
  rw [asks.places]
  simp [returnEnded, changePath, hb]

theorem returnEnded_reads (c : PathCause) (s : State) : ReadsKept s (judgePending (returnEnded c s)) := by
  obtain ⟨b, hb⟩ := returnUndone_eq s
  obtain ⟨ps, hps, hall⟩ := readAhead_asks (returnUndone s)
  refine .trans (.of_asks (ps := ps) ?_ fun p hp => readRequest_of_calm (hall p hp).1 (hall p hp).2) (judgePending_reads _)
  have line : (returnEnded c s).bus = (readAhead (returnUndone s)).bus := rfl
  rw [line, hps]
  simp [hb]

/-- A takeover leaves the counters and the radio's receiver. -/
theorem takeoverSet_uncounted (c : PathCause) (s : State) :
    (takeoverSet c s).events.counters = s.events.counters ∧ (takeoverSet c s).radio.receiver = s.radio.receiver := by
  have receiver (u : State) : (wantRadio u).radio.receiver = u.radio.receiver := by
    obtain ⟨v, hv, h | h | h⟩ := wantRadio_cases u <;> rw [h, hv] <;> rfl
  have told (u : State) : (takeoverTold c u).radio = u.radio ∧ (takeoverTold c u).events.counters = u.events.counters := ⟨rfl, rfl⟩
  rw [takeoverSet, (told _).1, (told _).2, receiver, (wantRadio_asks _).2.2]
  simp [takeoverBegun, fixViews, startTaking]

/-- No return closes (R17). -/
abbrev NotClosing (s : State) : Prop := s.path.path ≠ .returning ∨ s.path.phase ≠ some .closing

/-- What an override's change leaves and asks for, from an empty line and an empty window. -/
structure Overridden (s t : State) : Prop where
  records : s.events.entries.length = 11 → PlacesStand s t
  reads : ReadsWait t
  counters : t.events.counters = s.events.counters
  receiver : t.radio.receiver = s.radio.receiver
  phase : NotClosing s → NotClosing t

theorem evalTakeover_cases (s : State) : evalTakeover s = s ∨ s.path.path = .fibre ∧ ∃ c, s.loader.policy.pathOverride ≠ .fibreOnly
    ∧ takeoverCause s = some c ∧ evalTakeover s = enterTakeover c s := by
  unfold evalTakeover
  split
  · split
    · rename_i hcond _ c hc
      simp only [Bool.and_eq_true, decide_eq_true_eq] at hcond
      refine .inr ⟨hcond.1.1, c, fun ho => ?_, hc, rfl⟩
      simp [takeoverCause, ho] at hc
    · exact .inl rfl
  · exact .inl rfl

theorem enterTakeover_overridden {c : PathCause} {s : State} (hf : s.loader.policy.pathOverride ≠ .fibreOnly) (hw : s.bus.waiting = []) :
    Overridden s (enterTakeover c s) := by
  obtain ⟨path, _, _, _, phase, _, told⟩ := enterTakeover_leaves (c := c) hf
  have calm := takeoverSet_calm c hw
  obtain ⟨counters, receiver⟩ := takeoverSet_uncounted c s
  have moved (p : PathState) (d : PathCause) (u : State) : (changePath p d u).bus = u.bus ∧ (changePath p d u).events.counters = u.events.counters
      ∧ (changePath p d u).radio = u.radio := ⟨rfl, rfl, rfl⟩
  have same : (enterTakeover c s).bus = (takeoverSet c s).bus ∧ (enterTakeover c s).events.counters = (takeoverSet c s).events.counters
      ∧ (enterTakeover c s).radio = (takeoverSet c s).radio := by
    rw [enterTakeover_undecided hf]
    split
    · exact moved _ _ _
    · split
      · exact moved _ _ _
      · exact ⟨rfl, rfl, rfl⟩
  obtain ⟨bus, events, radio⟩ := same
  refine ⟨fun hlen => ?_, ?_, by rw [events, counters], by rw [radio, receiver], fun _ => .inr (by simp [phase])⟩
  · obtain ⟨hno, places, _⟩ := told (by simp [hw]) hlen
    exact ⟨fun _ => hno, by rw [places, hlen]⟩
  rw [ReadsWait, bus]
  exact fun p hp => readRequest_of_calm (calm p hp).1 (calm p hp).2

theorem evalReturn_overridden {s t : State} (h : PlacesStand s t) (hr : ReadsWait t) (hc : t.events.counters = s.events.counters)
    (hradio : t.radio.receiver = s.radio.receiver) (hph : NotClosing s → NotClosing t) : Overridden s (evalReturn t) := by
  obtain ⟨line, places⟩ := evalReturn_places t
  refine ⟨fun _ => ⟨fun hno => line (h.line hno), places.trans h.places⟩, evalReturn_reads t hr, by simp [hc], by simp [hradio], fun hs => ?_⟩
  obtain he | ⟨c, he⟩ := evalReturn_cases t <;> rw [he]
  · exact hph hs
  · exact .inr (by simp)

/-- The override's change from an empty line (R2, R14, R20). -/
theorem overrideChanged_overridden {s : State} (hw : s.bus.waiting = []) : Overridden s (overrideChanged s) := by
  have stays : Overridden s s := ⟨fun _ => .refl s, by simp [ReadsWait, hw], rfl, rfl, id⟩
  have returns : Overridden s (evalReturn s) := evalReturn_overridden (.refl s) stays.reads rfl rfl id
  have interrupts (c : PathCause) : Overridden s (interruptReturn c s) := by
    obtain h | h := interruptReturn_cases c s
    · rw [h]
      exact stays
    · obtain ⟨b, hb⟩ := returnUndone_eq s
      rw [h]
      exact evalReturn_overridden (returnEnded_places c s) (returnEnded_reads c s stays.reads) (by simp [returnEnded, hb]) (by simp [returnEnded, hb])
        (fun _ => .inr (by simp [returnEnded, hb]))
  unfold overrideChanged
  split
  · obtain h | ⟨_, c, hf, _, h⟩ := evalTakeover_cases s <;> rw [h]
    · exact stays
    · exact enterTakeover_overridden hf hw
  · exact stays
  · (repeat' split) <;> first | exact interrupts _ | exact stays
  · exact returns

/-! ### The owners of an application -/

/-- The override's owner holds the policy and the requests in force, and moves nothing of the policy block's reading (R164). -/
theorem overrideTaken_loader (bs : List Byte) (startUp : Bool) (s : State) : (overrideTaken bs startUp s).loader.policy = policyOf bs
    ∧ (overrideTaken bs startUp s).loader.softResetInForce = asksSoftReset bs
    ∧ (overrideTaken bs startUp s).loader.counterClearInForce = asksCounterClear bs
    ∧ (overrideTaken bs startUp s).loader.readState = s.loader.readState ∧ (overrideTaken bs startUp s).loader.readKind = s.loader.readKind
    ∧ (overrideTaken bs startUp s).loader.softReset = s.loader.softReset := by
  obtain ⟨c, k, h⟩ := policyTaken_eq bs startUp s
  unfold overrideTaken
  split <;> simp [h]

theorem overrideTaken_overridden {bs : List Byte} {startUp : Bool} {s : State} (hw : s.bus.waiting = []) :
    Overridden (policyTaken bs startUp s) (overrideTaken bs startUp s) := by
  obtain ⟨c, k, h⟩ := policyTaken_eq bs startUp s
  have line : (policyTaken bs startUp s).bus.waiting = [] := by simp [h, hw]
  unfold overrideTaken
  split
  · exact overrideChanged_overridden line
  · exact ⟨fun _ => .refl _, by simp [ReadsWait, line], rfl, rfl, id⟩

/-- What an application leaves of the loader (R163, R164). -/
theorem applied_loader (bs : List Byte) (s : State) : (settle (applyBlock bs s)).loader.policy = policyOf bs
    ∧ (settle (applyBlock bs s)).loader.softResetInForce = asksSoftReset bs
    ∧ (settle (applyBlock bs s)).loader.counterClearInForce = asksCounterClear bs := by
  obtain ⟨policy, soft, clear, _⟩ := overrideTaken_loader bs (s.loader.readKind == .startUp) s
  rw [applyBlock_eq, ownersTaken]
  simp [policy, soft, clear]

/-- The reading's state after an ordinary application without a soft reset: IDLE, or READING for one that was due (R162). -/
theorem applied_readState {bs : List Byte} {s : State} (hk : s.loader.readKind = .ordinary)
    (hsoft : asksSoftReset bs = false ∨ s.loader.softResetInForce = true) : (settle (applyBlock bs s)).loader.readState
      = if s.loader.readState = .readingDue then .reading else .idle := by
  obtain ⟨_, _, _, state, _⟩ := overrideTaken_loader bs false s
  rw [applyBlock_ordinary hk hsoft]
  have same : (ownersTaken bs false s).loader.readState = s.loader.readState := by simp [ownersTaken, state]
  simp only [settle_frame]
  unfold readEnds
  by_cases h : s.loader.readState = .readingDue
  · simp [h, same, beginRead]
  · simp [h, same]

/-! ### The counters -/

/-- With no payload arriving the power rule counts nothing (R118). -/
theorem powerRule_uncounted {s : State} (h : s.radio.receiver = .idle) : (powerRule s).events = s.events := by
  have off : (enterOff s).events = s.events := by
    simp [enterOff, cutLink, abandonPayload, dropPower, h]
  unfold powerRule
  split
  · rfl
  · split <;> (try split) <;> first | rfl | exact off | simp

/-- With the uplink queues empty and no payload arriving the owners' rest counts nothing. -/
theorem ownersRest_uncounted {old p : Policy} {startUp : Bool} {s : State} (he : uplinkEmpty s = true) (h : s.radio.receiver = .idle) :
    (ownersRest old p startUp s).events.counters = s.events.counters := by
  have empty : uplinkEmpty (judgePending (evalPause s)) = true := by simpa [uplinkEmpty] using he
  have placed (b : Bool) : (if b then placementAttempt (judgePending (evalPause s)) else judgePending (evalPause s))
      = judgePending (evalPause s) := by rw [placementAttempt_empty empty, ite_self]
  unfold ownersRest
  simp only [placed]
  rw [powerRule_uncounted (by simp [h])]
  simp

theorem appliedTold_reads {bs : List Byte} {startUp : Bool} {s : State} (h : ReadsWait (overrideTaken bs startUp s)) :
    ReadsWait (appliedTold bs startUp s) := by
  have line : (appliedTold bs startUp s).bus = (ownersRest s.loader.policy (policyOf bs) startUp (overrideTaken bs startUp s)).bus := by
    simp [appliedTold, ownersTaken]
  rw [ReadsWait, line]
  exact ownersRest_reads _ _ _ _ h

/-- An application's counters at the command's end are those the requests leave. -/
theorem applied_counters {bs : List Byte} {s : State} (hk : s.loader.readKind = .ordinary)
    (hsoft : asksSoftReset bs = false ∨ s.loader.softResetInForce = true) (hrest : atRest s) (he : uplinkEmpty s = true)
    (hidle : s.radio.receiver = .idle) : (settle (applyBlock bs s)).events.counters = (takeRequests bs false s).events.counters := by
  obtain ⟨⟨hw, _⟩, hV, hD, _, _, hphase, hcomplete⟩ := hrest
  obtain ⟨c, k, htaken⟩ := policyTaken_eq bs false s
  have taken : (policyTaken bs false s).events.counters = (takeRequests bs false s).events.counters := by simp [policyTaken]
  have changed := overrideTaken_overridden (bs := bs) (startUp := false) hw
  have queues : (overrideTaken bs false s).hold.uqE = s.hold.uqE ∧ (overrideTaken bs false s).hold.uqV = s.hold.uqV
      ∧ (overrideTaken bs false s).hold.uqD = s.hold.uqD ∧ (overrideTaken bs false s).hold.dqV = s.hold.dqV
      ∧ (overrideTaken bs false s).hold.dqD = s.hold.dqD ∧ (overrideTaken bs false s).loader.softReset = s.loader.softReset := by
    unfold overrideTaken
    split <;> simp [htaken]
  obtain ⟨uqE, uqV, uqD, dqV, dqD, soft⟩ := queues
  have notClosing : NotClosing (overrideTaken bs false s) := changed.phase (by rw [htaken]; exact .inr hphase)
  have uncounted : (ownersTaken bs false s).events.counters = (takeRequests bs false s).events.counters := by
    rw [ownersTaken, ownersRest_uncounted (by simpa [uplinkEmpty, uqE, uqV, uqD] using he) (by rw [changed.receiver, htaken]; exact hidle),
      changed.counters, taken]
  have reads : ReadsWait (applyBlock bs s) := by
    have ended : applyBlock bs s = readEnds (appliedTold bs false s) := applyBlock_ordinary hk hsoft
    rw [ended]
    exact readEnds_reads _ (appliedTold_reads changed.reads)
  obtain ⟨w, q, g, x, y, z, hs⟩ := settle_reads (s := applyBlock bs s) (n := 64) rfl reads
    (by rw [applyBlock_ordinary hk hsoft, ownersTaken]; simpa [NotClosing] using notClosing)
    (by rw [applyBlock_ordinary hk hsoft, ownersTaken]; simpa [soft] using hcomplete)
    (by rw [applyBlock_ordinary hk hsoft, ownersTaken]; simpa [dqV] using hV)
    (by rw [applyBlock_ordinary hk hsoft, ownersTaken]; simpa [dqD] using hD)
  rw [hs, applyBlock_ordinary hk hsoft]
  simpa using uncounted

theorem takeRequests_counters {bs : List Byte} {s : State} : (takeRequests bs false s).events.counters
    = if asksCounterClear bs = true ∧ s.loader.counterClearInForce = false then List.replicate 10 ⟨0, false⟩ else s.events.counters := by
  simp only [takeRequests]
  split <;> split <;> simp_all [clearCounters]

/-! ### A soft reset in FIBRE (R171) -/

/-- Where no take may begin, the path and the window's judging stand. -/
abbrev Untaken (s t : State) : Prop := mayTake s = false → t.path = s.path ∧ mayTake t = false

namespace Untaken

theorem of_eq {s t : State} (hp : t.path = s.path := by simp) (hs : t.loader.softReset = s.loader.softReset := by simp)
    (hm : t.power.mode = s.power.mode := by simp) : Untaken s t := fun h => ⟨hp, by simpa [mayTake, holdsRings, softResetStands, enginesRun, hp, hs, hm] using h⟩

theorem trans {s t u : State} (h : Untaken s t) (h' : Untaken t u) : Untaken s u := fun hs => by
  obtain ⟨hp, ht⟩ := h hs
  obtain ⟨hp', hu⟩ := h' ht
  exact ⟨hp'.trans hp, hu⟩

theorem foldl {β : Type} {g : State → β → State} (hg : ∀ s a, Untaken s (g s a)) (l : List β) (s : State) : Untaken s (l.foldl g s) := by
  induction l generalizing s with
  | nil => exact fun h => ⟨rfl, h⟩
  | cons a l ih => exact (hg s a).trans (ih _)

end Untaken

theorem judgePending_untaken {s : State} (h : mayTake s = false) : judgePending s = s := by
  have once (e : Entry) : judgeEntry s e = s := by simp [judgeEntry, h]
  have all (l : List Entry) : l.foldl judgeEntry s = s := by
    induction l with
    | nil => rfl
    | cons e l ih => rw [List.foldl_cons, once, ih]
  exact all _

theorem freeCells_untaken (cells : List Nat) (s : State) : Untaken s (freeCells cells s) := by
  unfold freeCells
  split
  · exact fun h => ⟨rfl, h⟩
  · refine .trans (t := evalPause { s with hold.freeList := s.hold.freeList ++ cells }) .of_eq fun h => ?_
    rw [judgePending_untaken h]
    exact ⟨rfl, h⟩

theorem freeRecord_untaken (r : FrameRecord) (s : State) : Untaken s (freeRecord r s) := by
  unfold freeRecord
  split
  · exact .of_eq
  · exact freeCells_untaken _ _

theorem abandonPayload_untaken (s : State) : Untaken s (abandonPayload s) := by
  have ended : Untaken s { s with radio.receiver := .idle } := .of_eq
  have lost (reason : LossReason) (r : FrameRecord) (u : State) : Untaken u (loseRecord reason r u) :=
    .trans (t := reportLoss reason r u) .of_eq (freeRecord_untaken r _)
  have dropped (r : FrameRecord) (u : State) : Untaken u (softDiscardRecord r u) :=
    .trans (t := countSoftDiscard r u) .of_eq (freeRecord_untaken r _)
  unfold abandonPayload
  split
  · dsimp only
    split
    · exact ended
    · split
      · exact ended.trans (lost _ _ _)
      · exact ended.trans (lost _ _ _)
      · exact ended.trans (dropped _ _)
  · exact .of_eq

theorem powerRule_untaken (s : State) : Untaken s (powerRule s) := by
  have freed (u : State) : Untaken u (freeOnLdo u) :=
    .trans (t := { u with hold.onLdo := [] }) .of_eq (.foldl (fun v r => freeCells_untaken r.cells v) u.hold.onLdo _)
  have cut (u : State) : Untaken u (cutLink u) :=
    .trans (t := { u with radio.ldo := none }) .of_eq (.trans (freed _) (.trans (abandonPayload_untaken _) (.of_eq rfl rfl rfl)))
  have off : Untaken s (enterOff s) := .trans (.of_eq (by simp [dropPower]) (by simp [dropPower]) (by simp [dropPower])) (cut _)
  unfold powerRule
  split
  · exact .of_eq
  · split <;> (try split) <;> first | exact .of_eq | exact off

/-- A soft reset in FIBRE is the re-initialisation, once the priority timer and the emergency flag are cleared. -/
def softResetCleared (s : State) : State :=
  stopScan (powerRule { s with
    loader.softUp := 0, loader.softDown := 0, loader.softPositions := 0
    path.priorityTimer := none, path.emergency := false })

theorem beginSoftReset_fibre {s : State} (hp : s.path.path = .fibre) : beginSoftReset s = reinitialise (softResetCleared s) := by
  simp [beginSoftReset, clearEmergency, hp, softResetCleared]

theorem softResetCleared_path {s : State} (hp : s.path.path = .fibre) :
    (softResetCleared s).path = { s.path with priorityTimer := none, emergency := false } := by
  have idle : mayTake { s with
      loader.softUp := 0, loader.softDown := 0, loader.softPositions := 0
      path.priorityTimer := none, path.emergency := false } = false := by simp [mayTake, holdsRings, hp]
  have stands := (powerRule_untaken _ idle).1
  simp [softResetCleared, stands]

theorem afterApplication_softReset (s : State) : afterApplication .ordinary true s
    = beginSoftReset { s with loader.readState := .idle, loader.readKind := .ordinary } := rfl

theorem afterApplication_reread (soft : Bool) (s : State) : afterApplication .softReset soft s
    = readEnds (askPage (evalTakeover { s with loader.softReset := .none })) := rfl

theorem applyBlock_told (bs : List Byte) (s : State) : applyBlock bs s
    = afterApplication s.loader.readKind (asksSoftReset bs && !s.loader.softResetInForce) (appliedTold bs (s.loader.readKind == .startUp) s) :=
  applyBlock_eq bs s

/-- An application whose soft reset begins in FIBRE with the override unchanged: the re-initialisation, at the command's end. -/
theorem policy_reinitialises {bs : List Byte} {s : State} (hk : s.loader.readKind = .ordinary) (hsoft : asksSoftReset bs = true)
    (hforce : s.loader.softResetInForce = false) (hp : s.path.path = .fibre) (hsame : s.loader.policy.pathOverride = (policyOf bs).pathOverride)
    (hw : s.bus.waiting = []) : ∃ z, Reinitialised z (settle (applyBlock bs s)) ∧ z.path.path = .fibre ∧ z.path.emergency = false
      ∧ z.path.priorityTimer = none ∧ z.path.dwellD = s.path.dwellD ∧ z.loader.policy = policyOf bs := by
  obtain ⟨c, k, htaken⟩ := policyTaken_eq bs false s
  have kept : overrideTaken bs false s = policyTaken bs false s := by simp [overrideTaken, hsame]
  have begins : (asksSoftReset bs && !s.loader.softResetInForce) = true := by simp [hsoft, hforce]
  have kind : (ReadKind.ordinary == ReadKind.startUp) = false := rfl
  generalize hy : ({ appliedTold bs false s with loader.readState := .idle, loader.readKind := .ordinary } : State) = y
  have applied : applyBlock bs s = beginSoftReset y := by
    rw [applyBlock_told, hk, begins, kind, afterApplication_softReset, hy]
  have ypath : y.path.path = .fibre ∧ y.path.dwellD = s.path.dwellD ∧ y.loader.policy = policyOf bs := by
    simp [← hy, appliedTold, ownersTaken, kept, htaken, hp]
  obtain ⟨ypath, ydwell, ypolicy⟩ := ypath
  have yreads : ReadsWait y := by
    have reads : ReadsWait (overrideTaken bs false s) := by
      rw [kept, htaken]
      simp [ReadsWait, hw]
    have line : y.bus = (appliedTold bs false s).bus := by simp [← hy]
    rw [ReadsWait, line]
    exact appliedTold_reads reads
  have zpath := softResetCleared_path ypath
  have zpolicy : (softResetCleared y).loader.policy = policyOf bs := by simp [softResetCleared, ypolicy]
  have zreads : ReadsWait (softResetCleared y) :=
    stopScan_reads _ (powerRule_reads _ (ReadsKept.of_eq (s := y) rfl yreads))
  refine ⟨softResetCleared y, ?_, by rw [zpath]; exact ypath, by rw [zpath], by rw [zpath], by rw [zpath]; exact ydwell, zpolicy⟩
  rw [applied, beginSoftReset_fibre ypath]
  exact settle_reinitialised (reinitialise_sets _) (reinitialise_reads _ zreads) (by rw [zpath]; exact ypath)

/-! ### The reread after a soft reset (R171) -/

theorem takeoverTold_bus (c : PathCause) (s : State) : (takeoverTold c s).bus = s.bus := rfl

theorem takeoverTold_detail {c : PathCause} {k : EventKind} (hk : k ≠ .pathChange) (s : State) :
    detailOfKind (takeoverTold c s) k = detailOfKind s k :=
  detailOfKind_of_entry (entryOfKind_raiseEvent_ne (d := .pathChange .fibre .takeover c) (Ne.symm hk)
    { s with path.dwell := if s.health.verdict = .healthy then .running (s.path.dwellD * 1000) else .stopped })

theorem enterTakeover_detail {c : PathCause} {s : State} {k : EventKind} (hf : s.loader.policy.pathOverride ≠ .fibreOnly)
    (hno : .eventRecord ∉ s.bus.waiting) (hk : k ≠ .pathChange) (hr : ¬ engineRaises k) :
    .eventRecord ∉ (enterTakeover c s).bus.waiting ∧ detailOfKind (enterTakeover c s) k = detailOfKind s k := by
  have asks := takeoverBegun_asks s
  have line : (takeoverSet c s).bus = (takeoverBegun s).bus := by rw [takeoverSet, takeoverTold_bus, (wantRadio_asks _).2.1]
  have detail : detailOfKind (takeoverSet c s) k = detailOfKind s k := by
    rw [takeoverSet, takeoverTold_detail hk, ← asks.detail hno hr, detailOfKind, entryOfKind, (wantRadio_asks _).2.2]
    rfl
  have moved (p : PathState) (d : PathCause) (u : State) : (changePath p d u).bus = u.bus ∧ detailOfKind (changePath p d u) k = detailOfKind u k :=
    ⟨rfl, detailOfKind_of_entry (entryOfKind_raiseEvent_ne (d := .pathChange u.path.path p d) (Ne.symm hk) { u with path.path := p })⟩
  have stays : .eventRecord ∉ (takeoverSet c s).bus.waiting := by
    rw [line]
    exact asks.noRecord hno
  rw [enterTakeover_undecided hf]
  split
  · rw [(moved _ _ _).1, (moved _ _ _).2]
    exact ⟨stays, detail⟩
  · split
    · rw [(moved _ _ _).1, (moved _ _ _).2]
      exact ⟨stays, detail⟩
    · exact ⟨stays, detail⟩

theorem applyBlock_reread {bs : List Byte} {s : State} (hk : s.loader.readKind = .softReset) :
    applyBlock bs s = readEnds (askPage (evalTakeover { appliedTold bs false s with loader.softReset := .none })) := by
  have kind : (ReadKind.softReset == ReadKind.startUp) = false := rfl
  rw [applyBlock_told, hk, kind, afterApplication_reread]

/-- In FIBRE with the verdict HEALTHY only Radio Now takes over (R5). -/
theorem overrideTaken_healthy {bs : List Byte} {startUp : Bool} {s : State} (hp : s.path.path = .fibre) (hv : s.health.verdict = .healthy) :
    ((policyOf bs).pathOverride ≠ .radioNow → overrideTaken bs startUp s = policyTaken bs startUp s)
    ∧ (overrideTaken bs startUp s = policyTaken bs startUp s
      ∨ (policyOf bs).pathOverride = .radioNow ∧ overrideTaken bs startUp s = enterTakeover .radioNow (policyTaken bs startUp s)) := by
  obtain ⟨c, k, h⟩ := policyTaken_eq bs startUp s
  have path : (policyTaken bs startUp s).path.path = .fibre := by simp [h, hp]
  have cause : takeoverCause (policyTaken bs startUp s) = if (policyOf bs).pathOverride = .radioNow then some .radioNow else none := by
    simp [takeoverCause, h, hv]
  unfold overrideTaken
  split
  · rw [overrideChanged_fibre path]
    obtain he | ⟨_, d, _, hd, he⟩ := evalTakeover_cases (policyTaken bs startUp s) <;> rw [he]
    · exact ⟨fun _ => rfl, .inl rfl⟩
    · rw [hd] at cause
      by_cases hnow : (policyOf bs).pathOverride = .radioNow
      · simp only [hnow, if_true, Option.some.injEq] at cause
        exact ⟨fun hne => absurd hnow hne, .inr ⟨hnow, by rw [cause]⟩⟩
      · simp [hnow] at cause
  · exact ⟨fun _ => rfl, .inl rfl⟩

/-- What the reread's application sets at its command's end. -/
structure RereadEnds (bs : List Byte) (s t : State) : Prop where
  soft : t.loader.softReset = .none
  readState : t.loader.readState = .idle
  readKind : t.loader.readKind = .ordinary
  page : t.events.pageWanted = true
  told : detailOfKind t .policyApplied = some (.policyApplied (clampedCount bs) s.loader.pgenAtIssue)
  stays : (policyOf bs).pathOverride ≠ .radioNow → t.path.path = .fibre
  leaves : (policyOf bs).pathOverride = .radioNow → t.path.path ≠ .fibre
    ∧ t.path.dwellD = if s.path.refallOpen then min (2 * s.path.dwellD) 3600 else (policyOf bs).d0

theorem readEnds_idle {s : State} (h : s.loader.readState = .reading) :
    readEnds s = { s with loader.readState := .idle, loader.readKind := .ordinary } := by simp [readEnds, h]

theorem takenPath_ne_fibre (r : RadioState) : takenPath r ≠ .fibre := by
  unfold takenPath
  split
  · simp
  · split <;> simp

theorem policy_rereads {bs : List Byte} {s : State} (hk : s.loader.readKind = .softReset) (hr : s.loader.readState = .reading)
    (hp : s.path.path = .fibre) (hv : s.health.verdict = .healthy) (hl : s.loader.shadowsLoaded = true) (hw : s.bus.waiting = [])
    (hlen : s.events.entries.length = 11) : RereadEnds bs s (settle (applyBlock bs s)) := by
  obtain ⟨c, k, htaken⟩ := policyTaken_eq bs false s
  obtain ⟨hstays, hcases⟩ := overrideTaken_healthy (bs := bs) (startUp := false) hp hv
  have changed := overrideTaken_overridden (bs := bs) (startUp := false) hw
  obtain ⟨line, places⟩ := changed.records (by simp [htaken, hlen])
  have noRecord : .eventRecord ∉ (overrideTaken bs false s).bus.waiting := line (by simp [htaken, hw])
  obtain ⟨xno, _, xtold⟩ := (appliedTold_keeps (bs := bs) (startUp := false) (s := s) rfl).1 noRecord
  have xtold := xtold (by rw [places]; simp [htaken, hlen])
  generalize hy : ({ appliedTold bs false s with loader.softReset := .none } : State) = y
  have same : y.bus = (appliedTold bs false s).bus ∧ y.events = (appliedTold bs false s).events := by
    simp [← hy]
  have yno : .eventRecord ∉ y.bus.waiting := by
    rw [same.1]
    exact xno
  have ytold : detailOfKind y .policyApplied = some (.policyApplied (clampedCount bs) s.loader.pgenAtIssue) := by
    rw [← xtold, detailOfKind, detailOfKind, entryOfKind, entryOfKind, same.2]
  obtain ⟨policy, _, _, state, _⟩ := overrideTaken_loader bs false s
  have yloader : y.loader.policy = policyOf bs ∧ y.loader.readState = .reading ∧ y.loader.softReset = .none
      ∧ y.path.path = (overrideTaken bs false s).path.path ∧ y.path.dwellD = (overrideTaken bs false s).path.dwellD
      ∧ y.path.refallOpen = (overrideTaken bs false s).path.refallOpen
      ∧ y.loader.shadowsLoaded = (overrideTaken bs false s).loader.shadowsLoaded
      ∧ y.health.verdict = (overrideTaken bs false s).health.verdict := by
    simp [← hy, appliedTold, ownersTaken, policy, state, hr]
  obtain ⟨ypolicy, ystate, ysoft, ypath, ydwell, yrefall, yloaded, yverdict⟩ := yloader
  have applied : applyBlock bs s = readEnds (askPage (evalTakeover y)) := by rw [applyBlock_reread hk, hy]
  have ended (w : State) (hno : .eventRecord ∉ w.bus.waiting) :
      detailOfKind (settle (readEnds (askPage w))) .policyApplied = detailOfKind w .policyApplied := by
    rw [(settle_engineKeeps _).detail ((readEnds_keepsLine _).1 (by simpa using hno)) (by simp [engineRaises])]
    simp [detailOfKind, entryOfKind, askPage]
  have told : .eventRecord ∉ (evalTakeover y).bus.waiting ∧ detailOfKind (evalTakeover y) .policyApplied = detailOfKind y .policyApplied := by
    obtain h | ⟨_, d, hf, _, h⟩ := evalTakeover_cases y <;> rw [h]
    · exact ⟨yno, rfl⟩
    · exact enterTakeover_detail hf yno (by simp) (by simp [engineRaises])
  have idle : (evalTakeover y).loader.readState = .reading := by simp [ystate]
  rw [applied]
  refine ⟨by simp [ysoft], ?_, ?_, by simp, ?_, fun hnow => ?_, fun hnow => ?_⟩
  · rw [readEnds_idle (by simpa using idle)]
    simp
  · rw [readEnds_idle (by simpa using idle)]
    simp
  · rw [ended _ told.1, told.2, ytold]
  · have fibre : y.path.path = .fibre := by simp [ypath, hstays hnow, htaken, hp]
    have cause : takeoverCause y = none := by simp [takeoverCause, yverdict, hstays hnow, htaken, hv, ypolicy, hnow]
    simp [evalTakeover, cause, fibre]
  · have notFibreOnly : y.loader.policy.pathOverride ≠ .fibreOnly := by simp [ypolicy, hnow]
    obtain h | ⟨_, h⟩ := hcases
    · have cause : takeoverCause y = some .radioNow := by simp [takeoverCause, ypolicy, hnow, yverdict, h, htaken, hv]
      have begins := evalTakeover_begins (s := y) (by simp [ypath, h, htaken, hp]) (by simp [yloaded, h, htaken, hl]) ysoft cause
      obtain ⟨path, holds, _⟩ := enterTakeover_leaves (c := .radioNow) notFibreOnly
      rw [begins]
      refine ⟨by simp [path, takenPath_ne_fibre], ?_⟩
      simp [holds.dwellD, takeoverDwell, yrefall, ydwell, ypolicy, h, htaken]
    · obtain ⟨path, holds, _⟩ := enterTakeover_leaves (c := .radioNow) (s := policyTaken bs false s) (by simp [htaken, hnow])
      have away : y.path.path ≠ .fibre := by
        rw [ypath, h, path]
        exact takenPath_ne_fibre _
      have stands : evalTakeover y = y := by simp [evalTakeover, away]
      rw [stands]
      have dwell : takeoverDwell (policyTaken bs false s) = if s.path.refallOpen then min (2 * s.path.dwellD) 3600 else (policyOf bs).d0 := by
        simp [takeoverDwell, htaken]
      refine ⟨by simpa using away, ?_⟩
      rw [← dwell, ← holds.dwellD, ← h, ← ydwell]
      simp

/-! ### The two reads -/

theorem readReturns_firstHalf (ws : List Word) (s : State) :
    readReturns (.policyRead false) ws s = { s with loader.firstHalf := bytesOf ws } := rfl

theorem exec_firstHalf {a : Addr} {rest : List MasterTransfer} {s : State} (hq : s.bus.queue = ⟨.policyRead false, .read a .sixteen⟩ :: rest) :
    ∃ t, exec .masterTransferCarried s = .next t ∧ t.loader.firstHalf = bytesRead s.sram a 64 ∧ t.loader.policy = s.loader.policy := by
  have carried : exec .masterTransferCarried s = .next (settle (readReturns (.policyRead false) (memReadWords s.sram a 16)
      { s with bus.queue := rest, bus.waitCount := 0 })) := by
    show Host.Outcome.next (doMasterTransferCarried s) = _
    simp only [doMasterTransferCarried, carryHead, hq]
    rfl
  rw [readReturns_firstHalf] at carried
  exact ⟨_, carried, by simp [bytes_secondHalf], by simp⟩

/-- Settles O56. -/
theorem policyAppliedTakesTheBlock : Obligations.PolicyAppliedTakesTheBlock := by
  unfold Obligations.PolicyAppliedTakesTheBlock
  refine ⟨fun a rest s hq => exec_firstHalf hq, ?_, ?_, ?_, ?_, ?_⟩
  · intro a rest bs s hq hbs hk hw hlen
    rw [← bytes_secondHalf] at hbs
    rw [exec_policyApplied hq, ← hbs, ← policyOf_eq, ← asksSoftReset_eq, ← asksCounterClear_eq, ← clampedCount_eq]
    generalize hu : ({ s with bus.queue := rest, bus.waitCount := 0 } : State) = u
    obtain ⟨policy, soft, clear⟩ := applied_loader bs u
    refine ⟨_, rfl, policy, soft, clear, fun hnone => ?_⟩
    have force : asksSoftReset bs = false ∨ u.loader.softResetInForce = true := by simpa [← hu] using hnone
    have kind : u.loader.readKind = .ordinary := by simp [← hu, hk]
    obtain ⟨c, k, htaken⟩ := policyTaken_eq bs false u
    have changed := overrideTaken_overridden (bs := bs) (startUp := false) (s := u) (by simp [← hu, hw])
    obtain ⟨line, places⟩ := changed.records (by rw [htaken]; simp [← hu, hlen])
    have noRecord : .eventRecord ∉ (overrideTaken bs false u).bus.waiting := line (by rw [htaken]; simp [← hu, hw])
    refine ⟨?_, fun hr => ?_, fun hr => ?_⟩
    · rw [(settle_applied_detail kind force rfl noRecord).2 (by rw [places, htaken]; simp [← hu, hlen])]
      simp [← hu]
    · rw [applied_readState kind force]
      simp [← hu, hr]
    · rw [applied_readState kind force]
      simp [← hu, hr]
  · intro a rest bs s hq hbs hk hsoft hclear hforce hrest he hidle
    rw [← bytes_secondHalf] at hbs
    rw [← asksSoftReset_eq] at hsoft
    rw [← asksCounterClear_eq] at hclear
    rw [exec_policyApplied hq, ← hbs]
    refine ⟨_, rfl, ?_⟩
    rw [applied_counters (s := { s with bus.queue := rest, bus.waitCount := 0 }) hk (.inl hsoft) (atRest_of_eq hrest) (by simpa [uplinkEmpty] using he) hidle, takeRequests_counters]
    simp [hclear, hforce]
  · intro a rest bs s hq hbs hk hsoft hforce hp hsame hw _
    rw [← bytes_secondHalf] at hbs
    rw [← asksSoftReset_eq] at hsoft
    rw [← policyOf_eq] at hsame ⊢
    rw [exec_policyApplied hq, ← hbs]
    obtain ⟨z, h, path, emergency, priority, dwellD, policy⟩ :=
      policy_reinitialises (s := { s with bus.queue := rest, bus.waitCount := 0 }) hk hsoft hforce hp hsame hw
    obtain ⟨sig, txp, rxa, txe⟩ := h.values
    obtain ⟨timer100, timer1s⟩ := h.timers
    obtain ⟨uqE, uqV, uqD⟩ := h.uplink
    obtain ⟨dqV, dqD⟩ := h.downlink
    obtain ⟨credit, grantSeen, refusalPause, _⟩ := h.pacer
    obtain ⟨slotA, slotB⟩ := h.slots
    obtain ⟨failures, lastCause⟩ := h.failures
    obtain ⟨quiet, _⟩ := h.power
    obtain ⟨up, down, positions, told, _⟩ := h.told
    refine ⟨_, rfl, by rw [h.path, path], by rw [h.path, emergency], by rw [h.path, priority], by rw [h.path, dwellD], h.softReset, h.readState, sig,
      txp, rxa, txe, h.verdict, timer100, timer1s, h.freeList, uqE, uqV, uqD, dqV, dqD, h.paused, credit, grantSeen, refusalPause, slotA, slotB,
      failures, lastCause, by rw [quiet, policy], h.others, ?_⟩
    obtain ⟨e, he, _⟩ := Option.map_eq_some_iff.mp told
    simp [he]
  · intro a rest bs s hq hbs hk hsoft hclear hrest he hidle
    rw [← bytes_secondHalf] at hbs
    rw [← asksSoftReset_eq] at hsoft
    rw [← asksCounterClear_eq] at hclear
    rw [exec_policyApplied hq, ← hbs]
    refine ⟨_, rfl, ?_⟩
    rw [applied_counters (s := { s with bus.queue := rest, bus.waitCount := 0 }) hk (.inl hsoft) (atRest_of_eq hrest) (by simpa [uplinkEmpty] using he) hidle, takeRequests_counters, if_neg]
    obtain h | h := hclear <;> simp [h]
  · intro a rest bs s hq hbs hk _ hr hp hv hl _ _ hw hlen _
    rw [← bytes_secondHalf] at hbs
    rw [exec_policyApplied hq, ← hbs, ← policyOf_eq, ← asksSoftReset_eq, ← clampedCount_eq]
    generalize hu : ({ s with bus.queue := rest, bus.waitCount := 0 } : State) = u
    obtain ⟨policy, soft, _⟩ := applied_loader bs u
    have h : RereadEnds bs u (settle (applyBlock bs u)) := policy_rereads (by simp [← hu, hk]) (by simp [← hu, hr]) (by simp [← hu, hp])
      (by simp [← hu, hv]) (by simp [← hu, hl]) (by simp [← hu, hw]) (by simp [← hu, hlen])
    refine ⟨_, rfl, policy, h.soft, soft, h.readState, h.readKind, h.page, by rw [h.told]; simp [← hu], h.stays, fun hnow => ?_⟩
    obtain ⟨path, dwell⟩ := h.leaves hnow
    exact ⟨path, by rw [dwell]; simp [← hu]⟩

end Sys2Proof.Machine
end

section
/-! The end of the shadow reads and the start-up read (R145, R164, R175). -/

-- One theorem at a time, as in the model's laws: the threads of many at once would not fit the memory a check has.
set_option Elab.async false

namespace Sys2Proof.Machine

/-! ### The first requests of a started part -/

/-- The writes of the status page and the reads of the policy block, which any state with a map forms. -/
def pageOrPolicy : Purpose → Bool
  | .pageHalf _ _ => true
  | .policyRead _ => true
  | .shadowRead _ => false
  | .descriptorRead _ _ => false
  | .scanRead _ => false
  | .frameRead _ => false
  | .receiveDescriptorRead => false
  | .completion _ _ => false
  | .txcAdvance => false
  | .txcForced => false
  | .txcHandBack => false
  | .bufferWrite => false
  | .receiveStatus => false
  | .abandonedEmpty _ => false
  | .rxfDelivery => false
  | .rxfCatchUp => false
  | .rxfForced => false
  | .eventRecord => false
  | .evpWrite => false

theorem issueOne_pageOrPolicy {s : State} {m : MemoryMap} {p : Purpose} (rest : List Purpose) (hm : s.loader.map = some m)
    (hp : pageOrPolicy p = true) : ∃ x g, issueOne p rest s = { s with
      bus.waiting := rest, bus.queue := s.bus.queue ++ [⟨p, x⟩], loader.pgenAtIssue := g } := by
  have formed (u : State) : ∃ x, formTransfer u m p = some x := by
    cases p
    case pageHalf b e => cases b <;> exact ⟨_, rfl⟩
    case policyRead b => cases b <;> exact ⟨_, rfl⟩
    all_goals simp [pageOrPolicy] at hp
  have acted (u : State) : ∃ g, onIssue p u = { u with loader.pgenAtIssue := g } := by
    cases p
    case pageHalf b e => exact ⟨u.loader.pgenAtIssue, rfl⟩
    case policyRead b =>
      cases b
      · exact ⟨_, rfl⟩
      · exact ⟨u.loader.pgenAtIssue, rfl⟩
    all_goals simp [pageOrPolicy] at hp
  obtain ⟨x, hx⟩ := formed { s with bus.waiting := rest }
  obtain ⟨g, hg⟩ := acted { s with bus.waiting := rest, bus.queue := s.bus.queue ++ [⟨p, x⟩] }
  exact ⟨x, g, by rw [issueOne_formed hm hx, hg]⟩

/-- They join the queue one after the other (R150). -/
theorem pump_pageOrPolicy {m : MemoryMap} (k : Nat) (ps : List Purpose) {s : State} (hm : s.loader.map = some m)
    (he : s.power.mode ≠ .doze) (hw : s.bus.waiting = ps) (hq : s.bus.queue.length + ps.length ≤ 8) (hp : ∀ p ∈ ps, pageOrPolicy p = true) :
    ∃ xs g, pump (k + ps.length) s = pump k { s with bus.waiting := [], bus.queue := s.bus.queue ++ xs, loader.pgenAtIssue := g }
      ∧ xs.map (·.purpose) = ps := by
  induction ps generalizing s with
  | nil =>
    refine ⟨[], s.loader.pgenAtIssue, ?_, rfl⟩
    simp only [List.length_nil, Nat.add_zero, List.append_nil]
    rw [← hw]
  | cons p ps ih =>
    simp only [List.length_cons] at hq
    obtain ⟨x, g, hx⟩ := issueOne_pageOrPolicy ps hm (hp p (by simp))
    obtain ⟨xs, g', hxs, hmap⟩ := ih (s := { s with bus.waiting := ps, bus.queue := s.bus.queue ++ [⟨p, x⟩], loader.pgenAtIssue := g }) hm he rfl
      (by simp; omega) fun p' hp' => hp p' (by simp [hp'])
    refine ⟨⟨p, x⟩ :: xs, g', ?_, by simp [hmap]⟩
    rw [List.length_cons, ← Nat.add_assoc, pump_cons _ hw (by omega) he, hx, hxs]
    simp

/-! ### The end of the shadow reads (R145, R175) -/

/-- The blocks as the last shadow read leaves them, before the first page. -/
def shadowsHeld (s : State) : State :=
  { s with
    loader.shadowsLoaded := true
    events.evp := shadowCount s .evc
    events.slotKinds := List.replicate 64 none
    health.txReference := some (shadowCount s .txc)
    events.refreshTimer := some 100 }

theorem evalTakeover_none {s : State} (h : takeoverCause s = none) : evalTakeover s = s := by
  unfold evalTakeover
  split
  · simp [h]
  · rfl

theorem shadowsCarried_untaken {s : State} (h : takeoverCause s = none) : shadowsCarried s
    = if shadowWord s .pgen != 0 then beginRead .startUp (beginPage false (shadowsHeld s)) else startUpAllowance (beginPage false (shadowsHeld s)) := by
  have unfolded : shadowsCarried s = if shadowWord (beginPage false (evalTakeover (shadowsHeld s))) .pgen != 0
    then beginRead .startUp (beginPage false (evalTakeover (shadowsHeld s)))
    else startUpAllowance (beginPage false (evalTakeover (shadowsHeld s))) := rfl
  have none : takeoverCause (shadowsHeld s) = none := h
  rw [unfolded, evalTakeover_none none]
  rfl

theorem exec_shadowReadsCarried {a : Addr} {s : State} (hq : s.bus.queue = [⟨.shadowRead .pgen, .read a .one⟩]) (hp : s.bus.shadows.pgen = none)
    (htxp : s.bus.shadows.txp ≠ none) (hrxp : s.bus.shadows.rxp ≠ none) (hrxf : s.bus.shadows.rxf ≠ none) (htxc : s.bus.shadows.txc ≠ none)
    (hevc : s.bus.shadows.evc ≠ none) (hl : s.loader.shadowsLoaded = false) : exec .shadowReadsCarried s
      = .next (settle (shadowsCarried { s with
        bus.queue := [], bus.waitCount := 0
        bus.shadows.pgen := some (memWord s.sram (a.toNat / 4 * 4)) })) := by
  have last : lastShadowRead s = true := by
    simp [lastShadowRead, headPurpose, hq, shadowsMissing, List.filter_cons, hp, htxp, hrxp, hrxf, htxc, hevc]
  have returned (u : State) : carryMaster ⟨.shadowRead .pgen, .read a .one⟩ u
      = shadowReturns .pgen ((memReadWords u.sram a (burstWords .one)).headD 0) u := rfl
  have pgen (v : Word) (u : State) : shadowReturns .pgen v u = if allShadows { u with bus.shadows.pgen := some v } && !u.loader.shadowsLoaded
      then shadowsCarried { u with bus.shadows.pgen := some v } else { u with bus.shadows.pgen := some v } := rfl
  show Host.Outcome.next (doShadowReadsCarried s) = _
  rw [doShadowReadsCarried, if_pos last, carryHead, hq]
  simp only [returned, pgen, headD_memReadWords]
  rw [if_pos]
  simp [allShadows, hl, Option.isSome_iff_ne_none, htxp, hrxp, hrxf, htxc, hevc]

theorem postedKinds_none {s : State} (h : s.events.evp = shadowCount s .evc) : postedKinds s = [] := by
  have zero : dist (shadowCount s .evc) s.events.evp = 0 := by simp [h, dist]
  simp [postedKinds, zero, kindsFrom]

/-- What the start of the page and of the start-up read holds at its command's end, from the state that asks for them alone. -/
theorem settle_started {ps : List Purpose} {m : MemoryMap} {u : State} (hm : u.loader.map = some m) (he : u.power.mode ≠ .doze)
    (hw : u.bus.waiting = ps) (hq : u.bus.queue = []) (hfew : ps.length ≤ 8) (hp : ∀ p ∈ ps, pageOrPolicy p = true) (hpath : u.path.path = .fibre)
    (hs : u.loader.softReset = .none) : ((settle u).bus.queue.map (·.purpose)).take ps.length = ps ∧ (settle u).events = u.events := by
  obtain ⟨xs, g, hpump, hmap⟩ := pump_pageOrPolicy (64 - ps.length) ps hm he hw (by simp [hq, hfew]) hp
  have fuel : 64 = 64 - ps.length + ps.length := by omega
  have issued : issueAll u = pump (64 - ps.length) { u with bus.waiting := [], bus.queue := u.bus.queue ++ xs, loader.pgenAtIssue := g } := by
    rw [← hpump, ← fuel]
    rfl
  obtain ⟨new, hnew, _⟩ := (settle_engineKeeps_from issued).passes m [] hm (by simp) List.nil_prefix
  obtain ⟨w, q, g', a, b, c, hsettle⟩ := settle_undelivering issued (by simp [ReadsWait]) (.inl (by simp [hpath])) (by simp [hs]) (.inl hpath)
  refine ⟨?_, by rw [hsettle]; simp⟩
  rw [hnew, hq, List.nil_append, List.map_append, hmap, List.take_left]

/-- The page's two halves, and the policy reads that follow them when PGEN is not zero (R166, R175). -/
def firstRequests (reads : Bool) : List Purpose :=
  [.pageHalf false false, .pageHalf true false] ++ if reads then [.policyRead false, .policyRead true] else []

theorem take_two_firstRequests {reads : Bool} {l : List Purpose} (h : l.take (firstRequests reads).length = firstRequests reads) :
    l.take 2 = [.pageHalf false false, .pageHalf true false] := by
  have inner : l.take 2 = (l.take (firstRequests reads).length).take 2 := by
    rw [List.take_take]
    cases reads <;> rfl
  rw [inner, h]
  cases reads <;> rfl

/-- What the end of the shadow reads leaves without a takeover, by whether PGEN is zero (R175). -/
theorem shadowsCarried_leaves {s : State} (h : takeoverCause s = none) (hw : s.bus.waiting = []) :
    (shadowsCarried s).bus.waiting = firstRequests (shadowWord s .pgen != 0)
    ∧ (shadowsCarried s).bus.queue = s.bus.queue ∧ (shadowsCarried s).bus.shadows = s.bus.shadows
    ∧ (shadowsCarried s).loader.map = s.loader.map ∧ (shadowsCarried s).power.mode = s.power.mode ∧ (shadowsCarried s).path.path = s.path.path
    ∧ (shadowsCarried s).loader.softReset = s.loader.softReset ∧ (shadowsCarried s).loader.shadowsLoaded = true
    ∧ (shadowsCarried s).events.evp = shadowCount s .evc ∧ (shadowsCarried s).health.txReference = some (shadowCount s .txc)
    ∧ (shadowsCarried s).events.refreshTimer = some 100 ∧ (shadowsCarried s).events.refreshCount = s.events.refreshCount + 1
    ∧ (shadowWord s .pgen ≠ 0 → (shadowsCarried s).loader.readState = .reading)
    ∧ (shadowWord s .pgen = 0 → (shadowsCarried s).loader.readState = s.loader.readState
      ∧ (shadowsCarried s).pacer.usageBase = some s.loader.policy.usageBase ∧ (shadowsCarried s).pacer.carried = 0) := by
  have based (u : State) : (startUpAllowance u).pacer.usageBase = some u.loader.policy.usageBase ∧ (startUpAllowance u).pacer.carried = 0 := by
    simp only [startUpAllowance]
    split <;> simp [applyUsageBase]
  rw [shadowsCarried_untaken h]
  by_cases hz : shadowWord s .pgen = 0
  · have hb : (shadowWord s .pgen != 0) = false := by simp [hz]
    rw [hb]
    simp [hz, based, beginPage, shadowsHeld, firstRequests, hw]
  · have hb : (shadowWord s .pgen != 0) = true := by simpa using hz
    rw [hb]
    simp [hz, beginRead, beginPage, shadowsHeld, firstRequests, hw]
    exact fun hzero => absurd hzero hz

/-! ### The start-up read (R164) -/

theorem startUpAllowance_allowance (s : State) : (startUpAllowance s).pacer.allowance
    = allowanceOf s.loader.policy.allowanceMiB (min (s.loader.policy.usageBase * 1024) (2 ^ 64 - 1)) := by
  have set (a : Allowance) (u : State) : (setAllowance a u).pacer.allowance = a := by
    simp only [setAllowance]
    split <;> simp
  simp only [startUpAllowance]
  split
  · rename_i h
    simp only [Bool.and_eq_true, decide_eq_true_eq] at h
    obtain ⟨hnew, hold⟩ := h
    rw [hold, ← hnew]
    simp [usageCount, applyUsageBase]
  · rw [set]
    simp [usageCount, applyUsageBase]

/-- The states of the allowance by the base of a policy block (R100). -/
theorem allowanceOf_base {mib base : Nat} (hb : base < 2 ^ 32) : allowanceOf mib (min (base * 1024) (2 ^ 64 - 1))
    = if mib = 0 then .normal else if mib * 1048576 ≤ base * 1024 then .exhausted
      else if mib * 917504 ≤ base * 1024 then .warned else .normal := by
  have small : min (base * 1024) (2 ^ 64 - 1) = base * 1024 := by omega
  have eighth : mib * 1048576 - mib * 1048576 / 8 = mib * 917504 := by omega
  simp only [allowanceOf, small, eighth]

/-- No takeover is due, whatever the override was: Radio Now is not asked for and Automatic finds the verdict HEALTHY (R5). -/
theorem overrideTaken_untaken {bs : List Byte} {startUp : Bool} {s : State} (hp : s.path.path = .fibre)
    (hv : s.health.verdict = .healthy ∨ (policyOf bs).pathOverride = .fibreOnly) (hn : (policyOf bs).pathOverride ≠ .radioNow) :
    overrideTaken bs startUp s = policyTaken bs startUp s := by
  obtain ⟨c, k, h⟩ := policyTaken_eq bs startUp s
  have path : (policyTaken bs startUp s).path.path = .fibre := by simp [h, hp]
  have none : takeoverCause (policyTaken bs startUp s) = none := by
    obtain hv | hv := hv <;> simp [takeoverCause, h, hv, hn]
  unfold overrideTaken
  split
  · rw [overrideChanged_fibre path, evalTakeover_none none]
  · rfl

theorem takeRequests_startUp (bs : List Byte) (s : State) : (takeRequests bs true s).events = s.events := by simp [takeRequests]

theorem afterApplication_startUp (soft : Bool) {s : State} (hp : s.path.path = .fibre) : afterApplication .startUp soft s
    = readEnds { startUpAllowance s with path.dwellD := s.loader.policy.d0 } := by
  have path : (startUpAllowance s).path.path = .fibre := by simp [hp]
  have policy : (startUpAllowance s).loader.policy = s.loader.policy := by simp
  show readEnds (if (startUpAllowance s).path.path = .fibre
    then { startUpAllowance s with path.dwellD := (startUpAllowance s).loader.policy.d0 } else startUpAllowance s) = _
  rw [if_pos path, policy]

/-- The start-up read's application to the command's end (R1, R99, R164). -/
theorem policy_startsUp {bs : List Byte} {s : State} (hk : s.loader.readKind = .startUp) (hp : s.path.path = .fibre)
    (hr : s.loader.readState = .reading) (hv : s.health.verdict = .healthy ∨ (policyOf bs).pathOverride = .fibreOnly)
    (hn : (policyOf bs).pathOverride ≠ .radioNow) (hrest : atRest s) (he : uplinkEmpty s = true) (hidle : s.radio.receiver = .idle)
    (hlen : s.events.entries.length = 11) : (settle (applyBlock bs s)).loader.softReset = s.loader.softReset
      ∧ (settle (applyBlock bs s)).loader.readState = .idle ∧ (settle (applyBlock bs s)).loader.readKind = .ordinary
      ∧ (settle (applyBlock bs s)).events.counters = s.events.counters
      ∧ detailOfKind (settle (applyBlock bs s)) .policyApplied = some (.policyApplied (clampedCount bs) s.loader.pgenAtIssue)
      ∧ (settle (applyBlock bs s)).path.path = .fibre ∧ (settle (applyBlock bs s)).path.dwellD = (policyOf bs).d0
      ∧ (settle (applyBlock bs s)).pacer.usageBase = some (policyOf bs).usageBase ∧ (settle (applyBlock bs s)).pacer.carried = 0
      ∧ (settle (applyBlock bs s)).pacer.allowance
        = allowanceOf (policyOf bs).allowanceMiB (min ((policyOf bs).usageBase * 1024) (2 ^ 64 - 1)) := by
  obtain ⟨⟨hw, _⟩, hV, hD, _, _, hphase, hcomplete⟩ := hrest
  obtain ⟨c, k, htaken⟩ := policyTaken_eq bs true s
  have kept := overrideTaken_untaken (startUp := true) hp hv hn
  have counters : (policyTaken bs true s).events.counters = s.events.counters := by
    rw [policyTaken]
    simp [takeRequests_startUp]
  have line : (overrideTaken bs true s).bus.waiting = [] := by simp [kept, htaken, hw]
  obtain ⟨records, _⟩ := appliedTold_keeps (bs := bs) (startUp := true) (s := s) rfl
  obtain ⟨xno, _, xtold⟩ := records (by simp [line])
  have xtold := xtold (by simp [kept, htaken, hlen])
  have xreads : ReadsWait (appliedTold bs true s) := appliedTold_reads (by simp [ReadsWait, line])
  have xs : (appliedTold bs true s).loader.policy = policyOf bs ∧ (appliedTold bs true s).path.path = .fibre
      ∧ (appliedTold bs true s).path.phase = s.path.phase ∧ (appliedTold bs true s).loader.softReset = s.loader.softReset
      ∧ (appliedTold bs true s).loader.readState = .reading ∧ (appliedTold bs true s).hold.dqV = []
      ∧ (appliedTold bs true s).hold.dqD = [] ∧ (appliedTold bs true s).events.counters = s.events.counters := by
    refine ⟨?_, ?_, ?_, ?_, ?_, ?_, ?_, ?_⟩
    case refine_8 =>
      have uncounted : (ownersTaken bs true s).events.counters = s.events.counters := by
        rw [ownersTaken, kept, ownersRest_uncounted (by simpa [htaken, uplinkEmpty] using he) (by simpa [htaken] using hidle), counters]
      simp [appliedTold, uncounted]
    all_goals simp [appliedTold, ownersTaken, kept, htaken, hp, hr, hV, hD]
  obtain ⟨xpolicy, xpath, xphase, xsoft, xstate, xV, xD, xcounters⟩ := xs
  have kind : (ReadKind.startUp == ReadKind.startUp) = true := rfl
  have applied : applyBlock bs s = readEnds { startUpAllowance (appliedTold bs true s) with path.dwellD := (policyOf bs).d0 } := by
    rw [applyBlock_told, hk, kind, afterApplication_startUp _ xpath, xpolicy]
  generalize appliedTold bs true s = x at *
  have allowed : detailOfKind (startUpAllowance x) .policyApplied = detailOfKind x .policyApplied := by
    have set (a : Allowance) (u : State) : (setAllowance a u).events = u.events := by simp
    simp only [startUpAllowance]
    split
    · rfl
    · rw [detailOfKind, entryOfKind, set]
      exact detailOfKind_of_entry (entryOfKind_raiseEvent_ne (d := .allowance _ _ _ _) (by simp [detailKind]) _)
  have based : (startUpAllowance x).pacer.usageBase = some x.loader.policy.usageBase ∧ (startUpAllowance x).pacer.carried = 0 := by
    simp only [startUpAllowance]
    split <;> simp [applyUsageBase]
  have ended : readEnds { startUpAllowance x with path.dwellD := (policyOf bs).d0 } = { startUpAllowance x with
      path.dwellD := (policyOf bs).d0, loader.readState := .idle, loader.readKind := .ordinary } := readEnds_idle (by simp [xstate])
  generalize hy : ({ startUpAllowance x with
    path.dwellD := (policyOf bs).d0, loader.readState := .idle, loader.readKind := .ordinary } : State) = y at ended
  rw [applied, ended]
  have yreads : ReadsWait y := ReadsKept.of_eq (s := x) (by simp [← hy]) xreads
  obtain ⟨w, q, g, a, b, d, hs⟩ := settle_reads (s := y) (n := 64) rfl yreads (.inl (by simp [← hy, xpath]))
    (by simpa [← hy, xsoft] using hcomplete) (by simp [← hy, xV]) (by simp [← hy, xD])
  have told : detailOfKind (settle y) .policyApplied = detailOfKind (startUpAllowance x) .policyApplied := by
    have stands : (settle y).events = y.events := by rw [hs]; simp
    have same : y.events = (startUpAllowance x).events := by simp [← hy]
    rw [detailOfKind, detailOfKind, entryOfKind, entryOfKind, stands, same]
  refine ⟨by simp [← hy, xsoft], by simp [← hy], by simp [← hy], ?_, by rw [told, allowed, xtold], by simp [← hy, xpath], by simp [← hy], ?_, ?_, ?_⟩
  · rw [hs]
    simp [← hy, xcounters]
  · simp [← hy, based, xpolicy]
  · simp [← hy, based]
  · simp [← hy, startUpAllowance_allowance, xpolicy]

/-- Settles O18. -/
theorem shadowReadsCarriedStartsUp : Obligations.ShadowReadsCarriedStartsUp := by
  unfold Obligations.ShadowReadsCarriedStartsUp
  constructor
  · intro a c e m s hq hw hm hpgen htxp hrxp hrxf htxc hevc hl hp hv ho he hs
    rw [exec_shadowReadsCarried hq hpgen htxp hrxp hrxf (by simp [htxc]) (by simp [hevc]) hl]
    generalize hu : ({ s with
      bus.queue := [], bus.waitCount := 0
      bus.shadows.pgen := some (memWord s.sram (a.toNat / 4 * 4)) } : State) = u
    have cause : takeoverCause u = none := by simp [takeoverCause, ← hu, hv, ho]
    have word : shadowWord u .pgen = memWord s.sram (a.toNat / 4 * 4) := by simp [shadowWord, shadowOf, ← hu]
    have evc : shadowCount u .evc = countOf e := by simp [shadowCount, shadowWord, shadowOf, ← hu, hevc]
    have txc : shadowCount u .txc = countOf c := by simp [shadowCount, shadowWord, shadowOf, ← hu, htxc]
    obtain ⟨waiting, queue, shadows, map, mode, path, soft, loaded, evp, reference, timer, count, reading, based⟩ :=
      shadowsCarried_leaves cause (by simp [← hu, hw])
    rw [word] at waiting reading based
    rw [evc] at evp
    rw [txc] at reference
    have firm : ∀ p ∈ firstRequests (memWord s.sram (a.toNat / 4 * 4) != 0), pageOrPolicy p = true := by
      cases (memWord s.sram (a.toNat / 4 * 4) != 0) <;> simp [firstRequests, pageOrPolicy]
    have few : (firstRequests (memWord s.sram (a.toNat / 4 * 4) != 0)).length ≤ 8 := by
      cases (memWord s.sram (a.toNat / 4 * 4) != 0) <;> simp [firstRequests]
    obtain ⟨first, events⟩ := settle_started (m := m) (by rw [map]; simp [← hu, hm]) (by rw [mode]; simpa [← hu] using he) waiting
      (by rw [queue]; simp [← hu]) few firm (by rw [path]; simp [← hu, hp]) (by rw [soft]; simp [← hu, hs])
    have kept : u.bus.shadows.pgen = some (memWord s.sram (a.toNat / 4 * 4)) ∧ u.events.refreshCount = s.events.refreshCount
        ∧ u.path.path = .fibre ∧ u.loader.readState = s.loader.readState ∧ u.loader.policy = s.loader.policy := by simp [← hu, hp]
    obtain ⟨upgen, ucount, upath, ustate, upolicy⟩ := kept
    have counted : shadowCount (settle (shadowsCarried u)) .evc = countOf e := by
      rw [← evc]
      simp [shadowCount, shadowWord, shadowOf, shadows]
    refine ⟨_, rfl, by simp [shadows, upgen], by simp [loaded], by rw [events, evp], postedKinds_none (by rw [counted, events, evp]), by simp [reference],
      by simp [timer], by simp [count, ucount], by simp [path, upath], take_two_firstRequests first, fun hne => ⟨by simp [reading hne], ?_⟩, fun hz => ?_⟩
    · have nonzero : (memWord s.sram (a.toNat / 4 * 4) != 0) = true := by simpa using hne
      rw [nonzero] at first
      exact first
    · obtain ⟨state, base, carried⟩ := based hz
      exact ⟨by simp [state, ustate], by simp [base, upolicy], by simp [carried]⟩
  · intro a rest bs s hq hbs hk hp hr hs hv hn hrest he hidle hlen
    rw [exec_policyApplied hq, ← hbs]
    generalize hu : ({ s with bus.queue := rest, bus.waitCount := 0 } : State) = u
    obtain ⟨policy, soft, clear⟩ := applied_loader bs u
    obtain ⟨none, state, kind, counters, told, path, dwell, base, carried, allowance⟩ := policy_startsUp (bs := bs) (s := u) (by simp [← hu, hk])
      (by simp [← hu, hp]) (by simp [← hu, hr]) (by simpa [← hu] using hv) hn (atRest_of_eq hrest (by simp [← hu]) (by simp [← hu]) (by simp [← hu])
        (by simp [← hu]) (by simp [← hu]) (by simp [← hu, scanWanted, softResetStands]) (by simp [← hu]) (by simp [← hu]))
      (by simpa [← hu, uplinkEmpty] using he) (by simp [← hu, hidle]) (by simp [← hu, hlen])
    refine ⟨_, rfl, policy, soft, clear, by rw [none]; simp [← hu, hs], state, kind, by rw [counters]; simp [← hu], by rw [told]; simp [← hu], path,
      dwell, base, carried, ?_⟩
    rw [allowance, allowanceOf_base]
    rw [policyOf_eq]
    exact quadIn_lt bs _

end Sys2Proof.Machine
end

section
/-! The hand-back, and that of a soft reset with its re-initialisation (R19, R24). -/

-- One theorem at a time, as in the model's laws: the threads of many at once would not fit the memory a check has.
set_option Elab.async false

namespace Sys2Proof.Machine

/-! ### The carrying of the write of TXC = F -/

/-- What a write of the part leaves before the hand-back: views' values, scan, records of overruns and shadows apart, all stands. -/
structure WriteLands (s v : State) : Prop where
  path : v.path = s.path
  loader : v.loader = s.loader
  radio : v.radio = s.radio
  health : v.health = s.health
  power : v.power = s.power
  hold : v.hold = s.hold
  pacer : v.pacer = s.pacer
  fence : v.ring.fence = s.ring.fence
  partRxf : v.ring.partRxf = s.ring.partRxf
  window : v.ring.window = s.ring.window
  reads : ReadsKept s v
  places : v.events.entries.length = s.events.entries.length

namespace WriteLands

theorem refl (s : State) : WriteLands s s := by constructor <;> first | rfl | exact id

theorem trans {s t u : State} (h : WriteLands s t) (h' : WriteLands t u) : WriteLands s u where
  path := h'.path.trans h.path
  loader := h'.loader.trans h.loader
  radio := h'.radio.trans h.radio
  health := h'.health.trans h.health
  power := h'.power.trans h.power
  hold := h'.hold.trans h.hold
  pacer := h'.pacer.trans h.pacer
  fence := h'.fence.trans h.fence
  partRxf := h'.partRxf.trans h.partRxf
  window := h'.window.trans h.window
  reads := h.reads.trans h'.reads
  places := h'.places.trans h.places

theorem ite {s t : State} {p : Prop} [Decidable p] (h : WriteLands s t) : WriteLands s (if p then t else s) := by
  split
  · exact h
  · exact .refl s

end WriteLands

theorem checkTxOverrun_lands (s : State) : WriteLands s (checkTxOverrun s) := by
  have places : (checkTxOverrun s).events.entries.length = s.events.entries.length := by
    unfold checkTxOverrun judgeTxOverrun
    (repeat' split) <;> simp
  constructor <;> first | exact places | exact .of_eq | simp

theorem checkRxOverrun_lands (s : State) : WriteLands s (checkRxOverrun s) := by
  have places : (checkRxOverrun s).events.entries.length = s.events.entries.length := by
    unfold checkRxOverrun judgeRxOverrun
    (repeat' split) <;> simp
  constructor <;> first | exact places | exact .of_eq | simp

theorem txcChanged_lands {s : State} (htx : s.path.txReleased = true) : WriteLands s (txcChanged s) := by
  have released : checkTxRelease (scanFollowsTxc s) = scanFollowsTxc s := by simp [checkTxRelease, htx]
  have reads : ReadsKept s (scanFollowsTxc s) := by
    unfold scanFollowsTxc
    split
    · exact .trans (t := { s with ring.scanMark := some (shadowCount s .txc) }) (.of_eq rfl) (withdrawScanRead_reads _)
    · exact id
  have followed : WriteLands s (scanFollowsTxc s) := by constructor <;> first | exact reads | simp
  have unfolded : txcChanged s = checkTxOverrun (scanFollowsTxc s) := by rw [txcChanged, released]
  rw [unfolded]
  exact followed.trans (checkTxOverrun_lands _)

theorem txpChanged_lands (before s : State) : WriteLands s (txpChanged before s) := by
  have followed : WriteLands s (scanFollowsTxp (shadowCount before .txp) s) := by
    have reads : ReadsKept s (scanFollowsTxp (shadowCount before .txp) s) := by
      unfold scanFollowsTxp
      split
      · exact .trans (t := { s with ring.scanMark := some (shadowCount s .txc) }) (.of_eq rfl) (withdrawScanRead_reads _)
      · exact id
    constructor <;> first | exact reads | simp
  have read (u : State) : WriteLands u (readAhead u) := by
    obtain ⟨ps, hps, hall⟩ := readAhead_asks u
    have reads : ReadsKept u (readAhead u) := .of_asks hps fun p hp => readRequest_of_calm (hall p hp).1 (hall p hp).2
    constructor <;> first | exact reads | simp
  exact followed.trans ((checkTxOverrun_lands _).trans (read _))

theorem rxfChanged_lands {s : State} (hrx : s.path.rxReleased = true) : WriteLands s (rxfChanged s) := by
  have released : checkRxRelease s = s := by simp [checkRxRelease, hrx]
  rw [rxfChanged, released]
  exact checkRxOverrun_lands s

theorem reportChanges_lands (before : State) {s : State} (htx : s.path.txReleased = true) (hrx : s.path.rxReleased = true) :
    WriteLands s (reportChanges before s) := by
  have txp : WriteLands s (if countChanged before s .txp then txpChanged before s else s) := .ite (txpChanged_lands before s)
  simp only [reportChanges]
  generalize (if countChanged before s .txp then txpChanged before s else s) = u at *
  have txc : WriteLands u (if countChanged before u .txc then txcChanged u else u) := .ite (txcChanged_lands (by rw [txp.path]; exact htx))
  generalize (if countChanged before u .txc then txcChanged u else u) = v at *
  have rxp : WriteLands v (if countChanged before v .rxp then checkRxOverrun v else v) := .ite (checkRxOverrun_lands v)
  generalize (if countChanged before v .rxp then checkRxOverrun v else v) = w at *
  have whole := txp.trans (txc.trans rxp)
  exact whole.trans (.ite (rxfChanged_lands (by rw [whole.path]; exact hrx)))

theorem exec_handBack {a : Addr} {rest : List MasterTransfer} {ws : List LaneWord} {s : State}
    (hq : s.bus.queue = ⟨.txcHandBack, .write a ws⟩ :: rest) (htx : s.path.txReleased = true) (hrx : s.path.rxReleased = true) :
    ∃ v, exec .handBack s = .next (settle (handBack v)) ∧ WriteLands s v := by
  generalize hu : ({ s with bus.queue := rest, bus.waitCount := 0 } : State) = u
  have carried : exec .handBack s = .next (settle (handBack (reportChanges u (followViews .txcHandBack ws (landWords (placeWords a ws) u))))) := by
    show Host.Outcome.next (doHandBack s) = _
    simp only [doHandBack, carryWhen, headPurpose, carryHead, hq, ← hu]
    rfl
  have taken : WriteLands s u := by rw [← hu]; constructor <;> first | rfl | exact .of_eq rfl
  have landed : WriteLands u (followViews .txcHandBack ws (landWords (placeWords a ws) u)) := by
    constructor <;> first | exact .of_eq | simp
  have whole := taken.trans landed
  exact ⟨_, carried, whole.trans (reportChanges_lands u (by rw [whole.path]; exact htx) (by rw [whole.path]; exact hrx))⟩

/-! ### The hand-back up to the want of the radio (R19) -/

/-- What a hand-back with the cause `c` in `s` sets. -/
structure HandsBack (c : PathCause) (s t : State) : Prop where
  path : t.path = { s.path with
    path := .fibre, phase := none, drainTimer := none, releaseTimer := none, dwell := .stopped, returnPause := false, radioWanted := false }
  views : t.bus.uplinkView = .off ∧ t.bus.receiveView = .off ∧ t.bus.txGuard = false ∧ t.bus.rxGuard = false
    ∧ t.bus.txHorizon = s.ring.fence ∧ t.bus.rxHorizon = s.ring.partRxf
  base : t.ring.base = none ∧ t.ring.fence = none
  health : t.health = { s.health with
    txp := 253, rxa := 253, txe := 253, txReference := some (shadowCount s .txc), activityMark := false, timer1s := some 1000 }
  reads : ReadsKept s t
  told : .eventRecord ∉ s.bus.waiting → s.events.entries.length = 11 →
    .eventRecord ∉ t.bus.waiting ∧ detailOfKind t .pathChange = some (.pathChange s.path.path .fibre c)
  window : t.ring.window = []
  policy : t.loader.policy = s.loader.policy ∧ t.loader.softReset = s.loader.softReset
  pacer : t.pacer = s.pacer
  uncounted : s.radio.receiver = .idle → t.loader = s.loader ∧ t.radio.receiver = .idle

/-- The views ended, the path in FIBRE and its health started again (R19, R38). -/
def handBackMoved (c : PathCause) (s : State) : State :=
  healthInFibre (changePath .fibre c
    { ringInFibre (endViews s) with path.phase := none, path.drainTimer := none, path.releaseTimer := none, path.dwell := .stopped })

/-- The hand-back before the power rule. -/
def handedBack (c : PathCause) (s : State) : State :=
  startLinger { withPauseTarget (fun s => { s with path.returnPause := false }) (markReceiving .atReturn (handBackMoved c s)) with
    path.radioWanted := false }

theorem handBackWith_eq (c : PathCause) (s : State) : handBackWith c s = powerRule (handedBack c s) := rfl

theorem handedBack_eq (c : PathCause) (s : State) : ∃ r, handedBack c s = { handBackMoved c s with
      path.returnPause := false, path.radioWanted := false, radio := r } ∧ (s.radio.receiver = .idle → r.receiver = .idle) := by
  have linger (u : State) : ∃ r, startLinger u = { u with radio := r } ∧ r.receiver = u.radio.receiver := by
    unfold startLinger
    (repeat' split) <;> exact ⟨_, rfl, rfl⟩
  have paused (u : State) : ∃ b, withPauseTarget (fun s => { s with path.returnPause := false }) u
      = { u with path.returnPause := false, radio.items.pause := b } := by
    unfold withPauseTarget
    split <;> exact ⟨_, rfl⟩
  have marked (u : State) : ∃ k, markReceiving .atReturn u = { u with radio.receiver := k } ∧ (u.radio.receiver = .idle → k = .idle) := by
    unfold markReceiving
    split
    · rename_i hr
      split
      · exact ⟨u.radio.receiver, rfl, id⟩
      · exact ⟨_, rfl, fun h => by simp [h] at hr⟩
    · exact ⟨u.radio.receiver, rfl, id⟩
  have radio : (handBackMoved c s).radio = s.radio := rfl
  obtain ⟨k, hmark, hidle⟩ := marked (handBackMoved c s)
  obtain ⟨b, hpause⟩ := paused { handBackMoved c s with radio.receiver := k }
  obtain ⟨r, hlinger, hreceiver⟩ := linger { handBackMoved c s with
    path.returnPause := false, path.radioWanted := false, radio.receiver := k, radio.items.pause := b }
  refine ⟨r, ?_, fun h => hreceiver.trans (hidle (by rw [radio, h]))⟩
  rw [handedBack, hmark, hpause, hlinger]

/-- With no payload arriving the power rule leaves the loader's counts. -/
theorem powerRule_idleReceiver {s : State} (h : s.radio.receiver = .idle) : (powerRule s).loader = s.loader ∧ (powerRule s).radio.receiver = .idle := by
  have off : (enterOff s).loader = s.loader ∧ (enterOff s).radio.receiver = .idle := by
    simp [enterOff, cutLink, abandonPayload, dropPower, h]
  unfold powerRule
  split
  · exact ⟨rfl, h⟩
  · split <;> (try split) <;> first | exact ⟨rfl, h⟩ | exact off | simp [h]

theorem handBackWith_sets (c : PathCause) (s : State) : HandsBack c s (handBackWith c s) := by
  obtain ⟨r, hback, hidle⟩ := handedBack_eq c s
  have moved : (handBackMoved c s).path = { s.path with path := .fibre, phase := none, drainTimer := none, releaseTimer := none, dwell := .stopped }
      ∧ (handBackMoved c s).bus.waiting = s.bus.waiting ∧ (handBackMoved c s).ring.window = []
      ∧ (handBackMoved c s).loader = s.loader := by
    simp [handBackMoved, healthInFibre, changePath, ringInFibre, endViews, askPage]
  obtain ⟨path, waiting, window, loader⟩ := moved
  have untaken : mayTake (handedBack c s) = false := by simp [mayTake, holdsRings, hback, path]
  have records : s.events.entries.length = 11 →
      detailOfKind (handedBack c s) .pathChange = some (.pathChange s.path.path .fibre c) := fun hlen => by
    have changed := detailOfKind_changePath (p := .fibre) (c := c) (s := { ringInFibre (endViews s) with
      path.phase := none, path.drainTimer := none, path.releaseTimer := none, path.dwell := .stopped }) hlen
    rw [hback]
    exact changed
  have asks := powerRule_asks (handedBack c s)
  have line : (handedBack c s).bus.waiting = s.bus.waiting := by simp [hback, waiting]
  rw [handBackWith_eq]
  constructor
  · rw [(powerRule_untaken _ untaken).1]
    simp [hback, path]
  · simp [hback, handBackMoved, healthInFibre, endViews, ringInFibre]
  · simp [hback, handBackMoved, healthInFibre, endViews, ringInFibre]
  · simp [hback, handBackMoved, healthInFibre, endViews, ringInFibre, shadowCount, shadowWord, shadowOf]
  · exact .trans (.of_eq line) (powerRule_reads _)
  · intro hno hlen
    have hno' : .eventRecord ∉ (handedBack c s).bus.waiting := by rwa [line]
    exact ⟨asks.1.noRecord hno', by rw [asks.1.detail hno' (by simp [engineRaises]), records hlen]⟩
  · exact (asks.2 (by simp [hback, window])).1
  · simp [hback, loader]
  · simp [hback, handBackMoved, healthInFibre, endViews, ringInFibre]
  · intro h
    have idle : (handedBack c s).radio.receiver = .idle := by simp [hback, hidle h]
    obtain ⟨hloader, hreceiver⟩ := powerRule_idleReceiver idle
    exact ⟨by rw [hloader, hback]; exact loader, hreceiver⟩

/-- Settles O38. -/
theorem handBackReturnsTheRings : Obligations.HandBackReturnsTheRings := by
  unfold Obligations.HandBackReturnsTheRings
  constructor
  · intro a rest m f s hq _ _ _ hfence hp htx hrx hs hv ho ⟨hw, _⟩ hlen
    obtain ⟨v, hexec, lands⟩ := exec_handBack hq htx hrx
    have back := handBackWith_sets .handedBack v
    have vreads : ReadsWait v := lands.reads (by simp [ReadsWait, hw])
    have returned : handBack v = handBackReturn v := by simp [handBack, softResetStands, lands.loader, hs]
    generalize hz : handBackWith .handedBack v = z at back
    have zpath := back.path
    rw [lands.path] at zpath
    have zpolicy : z.loader.policy.pathOverride = .automatic := by rw [back.policy.1, lands.loader, ho]
    have zverdict : z.health.verdict = .healthy := by simp [back.health, lands.health, hv]
    have ends : handBackReturn v = { z with path.refallOpen := true, path.refallTimer := some 600000 } := by
      have cause : takeoverCause { z with path.refallOpen := true, path.refallTimer := some 600000 } = none := by
        simp [takeoverCause, zpolicy, zverdict]
      rw [handBackReturn, hz]
      exact evalTakeover_none cause
    rw [returned, ends] at hexec
    generalize hy : ({ z with path.refallOpen := true, path.refallTimer := some 600000 } : State) = y at hexec
    have noRecord : .eventRecord ∉ v.bus.waiting := fun h => by simpa [readRequest] using vreads _ h
    obtain ⟨zno, ztold⟩ := back.told noRecord (by rw [lands.places, hlen])
    have ytold : detailOfKind (settle y) .pathChange = some (.pathChange .returning .fibre .handedBack) := by
      rw [(settle_engineKeeps y).detail (by simpa [← hy] using zno) (by simp [engineRaises]), ← hp, ← lands.path, ← ztold, ← hy]
      rfl
    obtain ⟨w, q, g, b, c, d, hsettle⟩ := settle_undelivering (s := y) (n := 64) rfl (ReadsKept.of_eq (s := z) (by simp [← hy]) (back.reads vreads))
      (.inl (by simp [← hy, zpath])) (by simp [← hy, back.policy.2, lands.loader, hs]) (.inl (by simp [← hy, zpath]))
    obtain ⟨uplink, receive, txGuard, rxGuard, txHorizon, rxHorizon⟩ := back.views
    rw [lands.fence, hfence] at txHorizon
    rw [lands.partRxf] at rxHorizon
    have zhealth := back.health
    rw [lands.health] at zhealth
    refine ⟨_, hexec, by simp [← hy, zpath], by simp [← hy, zpath], by simp [← hy, zpath], ?_, by simp [← hy, zpath], by simp [← hy], by simp [← hy],
      by simp [← hy, zpath], by simp [← hy, zpath], by simp [← hy, zpath], ?_, ?_, by simp [← hy, txGuard], by simp [← hy, rxGuard],
      by simp [← hy, txHorizon], by simp [← hy, rxHorizon], ?_, ?_, by simp [← hy, back.base.2], by simp [← hy, zhealth], by simp [← hy, zhealth],
      by simp [← hy, zhealth], by simp [← hy, zhealth], by simp [← hy, zverdict], by simp [← hy, zhealth], by simp [← hy, zhealth],
      by simp [← hy, zhealth], ytold⟩
    · rw [hsettle]
      simp [← hy, zpath]
    · rw [hsettle]
      simp [← hy, uplink]
    · rw [hsettle]
      simp [← hy, receive]
    · rw [hsettle]
      simp [← hy, back.window]
    · rw [hsettle]
      simp [← hy, back.base.1]
  · intro a rest m f s hq _ _ _ hfence _ htx hrx hs _ hw hlen hidle
    obtain ⟨v, hexec, lands⟩ := exec_handBack hq htx hrx
    have back := handBackWith_sets .softReset v
    have vreads : ReadsWait v := lands.reads (by simp [ReadsWait, hw])
    have soft : handBack v = reinitialise (handBackWith .softReset v) := by simp [handBack, handBackSoft, softResetStands, lands.loader, hs]
    rw [soft] at hexec
    generalize handBackWith .softReset v = z at back hexec
    have zpath := back.path
    rw [lands.path] at zpath
    have h := settle_reinitialised (reinitialise_sets z) (reinitialise_reads z (back.reads vreads)) (by simp [zpath])
    obtain ⟨zloader, zidle⟩ := back.uncounted (by rw [lands.radio]; exact hidle)
    rw [lands.loader] at zloader
    obtain ⟨uplink, receive, txGuard, rxGuard, txHorizon, rxHorizon⟩ := back.views
    obtain ⟨tuplink, treceive, ttxGuard, trxGuard, ttxHorizon, trxHorizon⟩ := h.views
    rw [lands.fence, hfence] at txHorizon
    rw [lands.partRxf] at rxHorizon
    obtain ⟨sig, txp, rxa, txe⟩ := h.values
    obtain ⟨timer100, timer1s⟩ := h.timers
    obtain ⟨uqE, uqV, uqD⟩ := h.uplink
    obtain ⟨dqV, dqD⟩ := h.downlink
    obtain ⟨sweep10, sweep1s⟩ := h.sweeps
    obtain ⟨takes, delivery, window, base, fence⟩ := h.ring
    obtain ⟨credit, grantSeen, refusalPause, carried⟩ := h.pacer
    obtain ⟨slotA, slotB⟩ := h.slots
    obtain ⟨failures, lastCause⟩ := h.failures
    obtain ⟨quiet, latch⟩ := h.power
    obtain ⟨up, down, positions, told, counts⟩ := h.told
    obtain ⟨rfl, rfl, rfl⟩ := counts zidle
    rw [zloader] at quiet told
    have tpath := h.path.trans zpath
    refine ⟨_, hexec, by rw [tpath], by rw [tpath], by rw [tpath], by rw [tpath], by rw [tpath], by rw [tpath], by rw [tpath], by rw [tpath],
      by rw [tpath], tuplink.trans uplink, treceive.trans receive, ttxGuard.trans txGuard, trxGuard.trans rxGuard, ttxHorizon.trans txHorizon,
      trxHorizon.trans rxHorizon, window, base, fence, takes, delivery, h.softReset, h.softWait, h.readState, sig, txp, rxa, txe, h.verdict,
      timer100, timer1s, h.freeList, uqE, uqV, uqD, dqV, dqD, h.paused, sweep10, sweep1s, credit, grantSeen, refusalPause, ?_, slotA, slotB,
      failures, lastCause, quiet, latch, h.others, told⟩
    rw [carried, back.pacer, lands.pacer]

end Sys2Proof.Machine
end

section
/-! Discards (R18, R82, R171): what the standing work leaves while only a discard's writes wait for the master and no downlink record
is held, and what the discarding of every held record moves. -/

-- One theorem at a time, as in the model's laws: the threads of many at once would not fit the memory a check has.
set_option Elab.async false

namespace Sys2Proof.Machine

/-! ### Lines of a discard's writes -/

/-- The requests whose issue moves no held record: neither a taken entry's completion, nor a delivery's write, nor an event's record. -/
def discardRequest : Purpose → Bool
  | .completion _ .takenRadio => false
  | .completion _ .notCarried => true
  | .completion _ .tooLong => true
  | .completion _ .empty => true
  | .completion _ .abandoned => true
  | .completion _ .droppedAtReturn => true
  | .descriptorRead _ _ => true
  | .scanRead _ => true
  | .frameRead _ => true
  | .txcAdvance => true
  | .txcForced => true
  | .txcHandBack => true
  | .receiveDescriptorRead => true
  | .abandonedEmpty _ => true
  | .rxfCatchUp => true
  | .rxfForced => true
  | .evpWrite => true
  | .pageHalf _ _ => true
  | .shadowRead _ => false
  | .bufferWrite => false
  | .receiveStatus => false
  | .rxfDelivery => false
  | .eventRecord => false
  | .policyRead _ => false

/-- Only a discard's writes wait. -/
abbrev Discarding (s : State) : Prop := ∀ p ∈ s.bus.waiting, discardRequest p = true

/-- The held records, their counts and their loss events stand. -/
structure RecordsStand (s t : State) : Prop where
  hold : t.hold = s.hold
  slotA : t.radio.slotA = s.radio.slotA
  slotB : t.radio.slotB = s.radio.slotB
  unsent : t.radio.unsent = s.radio.unsent
  pacer : t.pacer = s.pacer
  counters : t.events.counters = s.events.counters
  voiceLoss : entryOfKind t .voiceLoss = entryOfKind s .voiceLoss
  dataLoss : entryOfKind t .dataLoss = entryOfKind s .dataLoss
  loader : t.loader = s.loader

theorem RecordsStand.trans {s t u : State} (h : RecordsStand s t) (h' : RecordsStand t u) : RecordsStand s u where
  hold := h'.hold.trans h.hold
  slotA := h'.slotA.trans h.slotA
  slotB := h'.slotB.trans h.slotB
  unsent := h'.unsent.trans h.unsent
  pacer := h'.pacer.trans h.pacer
  counters := h'.counters.trans h.counters
  voiceLoss := h'.voiceLoss.trans h.voiceLoss
  dataLoss := h'.dataLoss.trans h.dataLoss
  loader := h'.loader.trans h.loader

/-- The transfers issued and those that wait, in the order of their issue (R150). -/
abbrev lineOf (s : State) : List Purpose := s.bus.queue.map (·.purpose) ++ s.bus.waiting

/-- With a map loaded, firm requests that follow one another in line do so still. -/
def LineStands (s t : State) : Prop :=
  s.loader.map ≠ none → ∀ X : List Purpose, (∀ p ∈ X, standsFirm p = true) → X <:+: lineOf s → X <:+: lineOf t

/-- What the standing work keeps while a discard's writes are all that waits. -/
def DiscardKeeps (s t : State) : Prop := Discarding s → Discarding t ∧ RecordsStand s t ∧ LineStands s t

namespace DiscardKeeps

theorem refl (s : State) : DiscardKeeps s s := fun h => ⟨h, by constructor <;> rfl, fun _ _ _ hX => hX⟩

theorem trans {s t u : State} (h : DiscardKeeps s t) (h' : DiscardKeeps t u) : DiscardKeeps s u := fun hs => by
  obtain ⟨ht, records, line⟩ := h hs
  obtain ⟨hu, records', line'⟩ := h' ht
  exact ⟨hu, records.trans records', fun hm X hX hin => line' (records.loader ▸ hm) X hX (line hm X hX hin)⟩

/-- What asks for a discard's writes behind the line. -/
theorem of_asks {s t : State} {ps : List Purpose} (hw : t.bus.waiting = s.bus.waiting ++ ps) (hp : ∀ p ∈ ps, discardRequest p = true)
    (hr : RecordsStand s t) (hq : t.bus.queue = s.bus.queue := by simp) : DiscardKeeps s t := by
  refine fun line => ⟨?_, hr, fun _ X _ hX => ?_⟩
  · rw [Discarding, hw]
    exact List.forall_mem_append.2 ⟨line, hp⟩
  · rw [lineOf, hq, hw, ← List.append_assoc]
    exact hX.trans (List.prefix_append _ _).isInfix

/-- What asks for nothing. -/
theorem of_eq {s t : State} (hw : t.bus.waiting = s.bus.waiting := by simp) (hr : RecordsStand s t := by constructor <;> simp [entryOfKind])
    (hq : t.bus.queue = s.bus.queue := by simp) : DiscardKeeps s t := .of_asks (ps := []) (by simpa using hw) (by simp) hr hq

end DiscardKeeps

theorem request_discard {p : Purpose} (hp : discardRequest p = true) (s : State) : DiscardKeeps s (request p s) :=
  .of_asks (ps := [p]) rfl (by simpa using hp) (by constructor <;> rfl)

theorem judgeTxOverrun_discard (s : State) : DiscardKeeps s (judgeTxOverrun s) := by
  have told : DiscardKeeps s (raiseEvent (.producerOverrun .transmit (shadowCount s .txp)) { s with ring.overrun := true }) := by
    refine .of_eq (hr := ?_)
    constructor
    case voiceLoss => exact entryOfKind_raiseEvent_ne (by simp [detailKind]) _
    case dataLoss => exact entryOfKind_raiseEvent_ne (by simp [detailKind]) _
    all_goals simp
  unfold judgeTxOverrun
  (repeat' split)
  · exact .refl s
  · exact told
  · exact .of_eq

theorem judgeRxOverrun_discard (s : State) : DiscardKeeps s (judgeRxOverrun s) := by
  have told (d : EventDetail) (hd : detailKind d = .busAnomaly) : DiscardKeeps s (raiseEvent d { s with ring.rxOverrun := true }) := by
    refine .of_eq (hr := ?_)
    constructor
    case voiceLoss => exact entryOfKind_raiseEvent_ne (by simp [hd]) _
    case dataLoss => exact entryOfKind_raiseEvent_ne (by simp [hd]) _
    all_goals simp
  unfold judgeRxOverrun
  (repeat' split)
  · exact .refl s
  · exact told _ rfl
  · exact .of_eq

theorem checkTxOverrun_discard (s : State) : DiscardKeeps s (checkTxOverrun s) := by
  unfold checkTxOverrun
  (repeat' split)
  · exact judgeTxOverrun_discard s
  · exact .of_eq
  · exact .refl s

theorem checkRxOverrun_discard (s : State) : DiscardKeeps s (checkRxOverrun s) := by
  unfold checkRxOverrun
  (repeat' split)
  · exact judgeRxOverrun_discard s
  · exact .of_eq
  · exact .refl s

theorem tryAdvance_discard (s : State) : DiscardKeeps s (tryAdvance s) := by
  unfold tryAdvance
  split
  · exact request_discard rfl s
  · exact .refl s

theorem readAhead_discard (s : State) : DiscardKeeps s (readAhead s) := by
  simp only [readAhead]
  split
  · exact .trans .of_eq (request_discard rfl _)
  · exact .refl s

theorem advanceIssued_discard (s : State) : DiscardKeeps s (advanceIssued s) :=
  .trans .of_eq ((checkTxOverrun_discard _).trans (readAhead_discard _))

theorem afterTxRelease_discard (s : State) : DiscardKeeps s (afterTxRelease s) :=
  (checkTxOverrun_discard s).trans ((tryAdvance_discard _).trans (readAhead_discard _))

theorem afterRxRelease_discard (s : State) : DiscardKeeps s (afterRxRelease s) := by
  simp only [afterRxRelease]
  split
  · exact (checkRxOverrun_discard s).trans (request_discard rfl _)
  · exact checkRxOverrun_discard s

theorem afterForcedRx_discard (s : State) : DiscardKeeps s (afterForcedRx s) := by
  unfold afterForcedRx
  (repeat' split)
  · exact .trans .of_eq (checkRxOverrun_discard _)
  · exact afterRxRelease_discard s
  · exact afterRxRelease_discard s

theorem rxfIssued_discard (s : State) : DiscardKeeps s (rxfIssued s) := .trans .of_eq (checkRxOverrun_discard _)

theorem completeTx_discard (s : State) : DiscardKeeps s (completeTx s) := .trans .of_eq (afterTxRelease_discard _)

theorem completeRx_discard (s : State) : DiscardKeeps s (completeRx s) := .trans .of_eq (afterRxRelease_discard _)

/-! ### The standing work -/

theorem onIssue_discard {p : Purpose} (hp : discardRequest p = true) (s : State) : DiscardKeeps s (onIssue p s) := by
  cases p
  case completion pos v =>
    have done : DiscardKeeps s (tryAdvance (updateEntry pos (fun e => { e with st := .done }) s)) := .trans .of_eq (tryAdvance_discard _)
    cases v
    case takenRadio => simp [discardRequest] at hp
    case abandoned => exact .refl s
    all_goals exact done
  case txcAdvance => exact advanceIssued_discard s
  case txcForced =>
    show DiscardKeeps s (if holdsRings s then afterTxRelease (setTxReleased s) else s)
    split
    · exact .trans .of_eq (afterTxRelease_discard _)
    · exact .refl s
  case txcHandBack => exact .of_eq rfl (by constructor <;> rfl) rfl
  case rxfCatchUp => exact rxfIssued_discard s
  case rxfForced =>
    show DiscardKeeps s (if holdsRings s then afterForcedRx (setRxReleased s) else s)
    split
    · exact .trans .of_eq (afterForcedRx_discard _)
    · exact .refl s
  all_goals first | exact .refl s | simp [discardRequest] at hp

/-- A request that stands for no transfer leaves the line without parting firm ones. -/
theorem infix_dropHead {X A B : List Purpose} {p : Purpose} (hp : p ∉ X) (h : X <:+: A ++ p :: B) : X <:+: A ++ B := by
  obtain ⟨l, r, h⟩ := h
  rw [List.append_assoc] at h
  obtain ⟨k, rfl, hk⟩ | ⟨k, rfl, hk⟩ := List.append_eq_append_iff.1 h
  · obtain ⟨j, rfl, hj⟩ | ⟨j, rfl, hj⟩ := List.append_eq_append_iff.1 hk
    · exact ⟨l, j ++ B, by simp⟩
    · cases j with
      | nil => exact ⟨l, B, by simp⟩
      | cons q j =>
        simp only [List.cons_append, List.cons.injEq] at hj
        exact absurd (by simp [hj.1]) hp
  · cases k with
    | nil =>
      cases X with
      | nil => exact List.nil_infix
      | cons q X =>
        simp only [List.nil_append, List.cons_append, List.cons.injEq] at hk
        exact absurd (by simp [hk.1]) hp
    | cons q k =>
      simp only [List.cons_append, List.cons.injEq] at hk
      exact ⟨A ++ k, r, by simp [hk.2]⟩

/-- The withdrawal of requests parts no others that follow one another. -/
theorem infix_filter {X A B : List Purpose} {f : Purpose → Bool} (hX : ∀ p ∈ X, f p = true) (h : X <:+: A ++ B) : X <:+: A ++ B.filter f := by
  induction B generalizing A with
  | nil => simpa using h
  | cons p B ih =>
    by_cases hp : f p = true
    · have := ih (A := A ++ [p]) (by simpa using h)
      simpa [hp] using this
    · rw [List.filter_cons_of_neg (by simpa using hp)]
      exact ih (infix_dropHead (fun hmem => hp (hX p hmem)) h)

/-- The head leaves the line: it is dropped, or its transfer joins the queue (R150). -/
theorem headLeaves_discard {s : State} {p : Purpose} {rest : List Purpose} {new : List MasterTransfer} (hw : s.bus.waiting = p :: rest)
    (hnew : new.map (·.purpose) = [p] ∨ new = [] ∧ (s.loader.map ≠ none → standsFirm p = false)) :
    DiscardKeeps s { s with bus.waiting := rest, bus.queue := s.bus.queue ++ new } := by
  refine fun line => ⟨fun q hq => line q (by rw [hw]; exact List.mem_cons_of_mem _ hq), by constructor <;> rfl,
    fun hm X hX hin => ?_⟩
  rw [lineOf, hw] at hin
  obtain hone | ⟨rfl, hfirm⟩ := hnew
  · simpa [lineOf, hone] using hin
  · have apart : p ∉ X := fun hmem => by simpa [hfirm hm] using hX p hmem
    simpa [lineOf] using infix_dropHead apart hin

theorem issueOne_discard {s : State} {p : Purpose} {rest : List Purpose} (hw : s.bus.waiting = p :: rest) :
    DiscardKeeps s (issueOne p rest s) := by
  intro hs
  have asks : discardRequest p = true := hs p (by simp [hw])
  have dropped (hfirm : s.loader.map ≠ none → standsFirm p = false) : DiscardKeeps s { s with bus.waiting := rest } := by
    simpa using headLeaves_discard hw (.inr ⟨rfl, hfirm⟩)
  simp only [issueOne]
  split
  · rename_i hmap
    exact dropped (absurd hmap) hs
  · rename_i m _
    split
    · rename_i hnone
      refine dropped (fun _ => ?_) hs
      by_contra hfirm
      obtain ⟨x, hx⟩ := formTransfer_of_standsFirm (by simpa using hfirm) { s with bus.waiting := rest } m
      simp [hx] at hnone
    · exact (headLeaves_discard hw (.inl rfl)).trans (onIssue_discard asks _) hs

theorem pump_discard (n : Nat) (s : State) : DiscardKeeps s (pump n s) := by
  induction n generalizing s with
  | zero => exact .refl s
  | succ n ih =>
    unfold pump
    split
    · exact .refl s
    · split
      · exact (issueOne_discard ‹_›).trans (ih _)
      · exact .refl s

theorem withdrawScanRead_discard (s : State) : DiscardKeeps s (withdrawScanRead s) := by
  unfold withdrawScanRead
  split
  · refine fun line => ⟨fun p hp => line p (List.mem_of_mem_filter hp), by constructor <;> rfl, fun _ X hX hin => ?_⟩
    exact infix_filter (fun p hp => by have := hX p hp; cases p <;> simp_all [standsFirm, isScanRead]) hin
  · exact .refl s

theorem scanNext_discard (s : State) : DiscardKeeps s (scanNext s) := by
  simp only [scanNext]
  split
  · exact .trans .of_eq (request_discard rfl _)
  · exact .refl s

theorem evalScan_discard (s : State) : DiscardKeeps s (evalScan s) := by
  unfold evalScan
  (repeat' split)
  · exact scanNext_discard s
  · exact .trans (t := startScan s) (.of_eq rfl (by constructor <;> rfl) rfl) (scanNext_discard _)
  · exact (withdrawScanRead_discard s).trans (.of_eq rfl (by constructor <;> rfl) rfl)
  · exact .refl s

theorem tryHandBack_discard (s : State) : DiscardKeeps s (tryHandBack s) := by
  unfold tryHandBack
  split
  · exact .trans .of_eq (request_discard rfl _)
  · exact .refl s

theorem issueAll_discard (s : State) : DiscardKeeps s (issueAll s) := pump_discard 64 s

/-- The standing work while a discard's writes are all that waits and no downlink record is queued. -/
theorem settle_discard {s : State} (hV : s.hold.dqV = []) (hD : s.hold.dqD = []) : DiscardKeeps s (settle s) := by
  intro hs
  obtain ⟨_, first, _⟩ := issueAll_discard s hs
  have undelivered : judgeDelivery (issueAll s) = issueAll s := judgeDelivery_idle (by rw [first.hold, hV]) (by rw [first.hold, hD])
  have doze (u : State) : DiscardKeeps u (evalDoze u) := .of_eq
  rw [settle, undelivered]
  exact ((issueAll_discard s).trans ((evalScan_discard _).trans ((issueAll_discard _).trans
    ((tryHandBack_discard _).trans ((issueAll_discard _).trans (doze _)))))) hs

/-! ### The forced release and the completions of pending entries -/

theorem requestAll_discard {ps : List Purpose} (hp : ∀ p ∈ ps, discardRequest p = true) (s : State) : DiscardKeeps s (requestAll ps s) :=
  .of_asks (ps := ps) rfl hp (by constructor <;> rfl)

/-- The writes of one ring's forced release. -/
theorem forced_discardRequest {asked : Count → Purpose} {last : Purpose} (ha : ∀ i, discardRequest (asked i) = true)
    (hl : discardRequest last = true) (n : Nat) (c : Count) :
    ∀ p ∈ (List.range n).map (fun i => asked (advance c i)) ++ [last], discardRequest p = true := by
  simp +contextual [or_imp, forall_and, ha, hl]

theorem forceTx_discard (s : State) : DiscardKeeps s (forceTx s) := by
  unfold forceTx
  (repeat' split)
  · exact .refl s
  · exact completeTx_discard s
  · exact .trans (t := { s with bus.txGuard := true, ring.txForcing := true }) .of_eq
      (requestAll_discard (forced_discardRequest (asked := (.completion · .abandoned)) (fun _ => rfl) rfl _ _) _)

theorem forceRx_discard (s : State) : DiscardKeeps s (forceRx s) := by
  unfold forceRx
  (repeat' split)
  · exact .refl s
  · exact completeRx_discard s
  · exact .trans (t := { s with bus.rxGuard := true, ring.rxForcing := true }) .of_eq
      (requestAll_discard (forced_discardRequest (asked := .abandonedEmpty) (fun _ => rfl) rfl _ _) _)

theorem forceRelease_discard (s : State) : DiscardKeeps s (forceRelease s) := by
  unfold forceRelease
  split
  · exact (forceTx_discard s).trans (forceRx_discard _)
  · exact .refl s

/-- Each ring the part holds is released by it or being released (R10). -/
theorem forceRelease_releases {s : State} (h : holdsRings s = true) :
    ((forceRelease s).path.txReleased = true ∨ (forceRelease s).ring.txForcing = true)
    ∧ ((forceRelease s).path.rxReleased = true ∨ (forceRelease s).ring.rxForcing = true) := by
  have tx : (forceTx s).path.txReleased = true ∨ (forceTx s).ring.txForcing = true := by
    unfold forceTx
    (repeat' split) <;> simp_all [completeTx, setTxReleased, forceTransmit]
  have rx (u : State) : (forceRx u).path.rxReleased = true ∨ (forceRx u).ring.rxForcing = true := by
    unfold forceRx
    (repeat' split) <;> simp_all [completeRx, setRxReleased, forceReceive]
  have kept : (forceRx (forceTx s)).path.txReleased = (forceTx s).path.txReleased ∧ (forceRx (forceTx s)).ring.txForcing = (forceTx s).ring.txForcing := by
    simp
  rw [forceRelease, if_pos h, kept.1, kept.2]
  exact ⟨tx, rx _⟩

/-- The completions a discard asks for, of the entries still PENDING (R18, R171). -/
abbrev drops (s : State) : List Purpose :=
  (s.ring.window.filter fun e => e.st == .pending && !e.completing).map fun e => .completion e.pos .droppedAtReturn

theorem drops_kinds (s : State) : ∀ p ∈ drops s, standsFirm p = true ∧ discardRequest p = true := by
  simp only [drops, List.mem_map, forall_exists_index, and_imp]
  rintro p e _ rfl
  exact ⟨rfl, rfl⟩

theorem dropPending_discard (s : State) : DiscardKeeps s (dropPending s) ∧ drops s <:+: lineOf (dropPending s) := by
  have asked : (dropPending s).bus.waiting = s.bus.waiting ++ drops s := rfl
  refine ⟨.of_asks asked (fun p hp => (drops_kinds s p hp).2) (by constructor <;> rfl) rfl, ?_⟩
  rw [lineOf, asked, ← List.append_assoc]
  exact (List.suffix_append _ _).isInfix

/-! ### The records discarded and their counts -/

/-- Each discarded record raises the counter of its direction (R82). -/
def discardCounts (rs : List FrameRecord) (cs : List Counter) : List Counter :=
  rs.foldl (fun cs r => cs.modify (counterIndex (lossCounter .discardedAtReturn r)) raisedCounter) cs

theorem counterIndex_inj {c d : CounterName} (h : counterIndex c = counterIndex d) : c = d := by
  cases c <;> cases d <;> simp [counterIndex] at h ⊢

/-- The records discarded that count under `c`. -/
abbrev discardedUnder (c : CounterName) (rs : List FrameRecord) : Nat := rs.countP fun r => lossCounter .discardedAtReturn r = c

/-- The value at which the counter `c` stands. -/
abbrev countAt (c : CounterName) (cs : List Counter) : Nat := (cs.getD (counterIndex c) ⟨0, false⟩).value

theorem countAt_raised_same {c : CounterName} {cs : List Counter} (hi : counterIndex c < cs.length) (hlt : countAt c cs < 65535) :
    countAt c (cs.modify (counterIndex c) raisedCounter) = countAt c cs + 1 := by
  simp only [countAt, List.getD_eq_getElem?_getD, List.getElem?_eq_getElem hi, Option.getD_some] at hlt
  simp [countAt, List.getD_eq_getElem?_getD, List.getElem?_eq_getElem hi, raisedCounter, hlt]

theorem countAt_raised_other {c d : CounterName} (h : d ≠ c) (cs : List Counter) :
    countAt c (cs.modify (counterIndex d) raisedCounter) = countAt c cs := by
  have apart : counterIndex d ≠ counterIndex c := fun heq => h (counterIndex_inj heq)
  simp [countAt, List.getD_eq_getElem?_getD, apart]

theorem discardCounts_value {c : CounterName} (rs : List FrameRecord) {cs : List Counter} (hi : counterIndex c < cs.length)
    (hle : countAt c cs + discardedUnder c rs ≤ 65535) : countAt c (discardCounts rs cs) = countAt c cs + discardedUnder c rs := by
  induction rs generalizing cs with
  | nil => rfl
  | cons r rs ih =>
    simp only [discardedUnder, List.countP_cons, decide_eq_true_eq] at hle ih ⊢
    rw [discardCounts, List.foldl_cons, ← discardCounts]
    by_cases hc : lossCounter .discardedAtReturn r = c
    · simp only [hc, if_true] at hle ⊢
      have raised := countAt_raised_same hi (by omega)
      rw [ih (by simpa using hi) (by omega), raised]
      omega
    · simp only [hc, if_false] at hle ⊢
      have same := countAt_raised_other hc cs
      rw [ih (by simpa using hi) (by omega), same]
      rfl

/-- Uplink records, then downlink ones, each counted under their own counter. -/
theorem discardedUnder_directions {up down : List FrameRecord} (hup : ∀ r ∈ up, r.direction = .uplink) (hdown : ∀ r ∈ down, r.direction = .downlink) :
    discardedUnder .discardedAtReturn (up ++ down) = up.length ∧ discardedUnder .downlinkDropped (up ++ down) = down.length := by
  have uplink (r : FrameRecord) (h : r.direction = .uplink) : lossCounter .discardedAtReturn r = .discardedAtReturn := by simp [lossCounter, h]
  have downlink (r : FrameRecord) (h : r.direction = .downlink) : lossCounter .discardedAtReturn r = .downlinkDropped := by simp [lossCounter, h]
  have all (c d : CounterName) (hcd : d ≠ c) (rs : List FrameRecord) (h : ∀ r ∈ rs, lossCounter .discardedAtReturn r = c) :
      discardedUnder c rs = rs.length ∧ discardedUnder d rs = 0 :=
    ⟨List.countP_eq_length.2 (by simpa using h), List.countP_eq_zero.2 fun r hr => by simp [h r hr, Ne.symm hcd]⟩
  obtain ⟨upSame, upOther⟩ := all .discardedAtReturn .downlinkDropped (by simp) up fun r hr => uplink r (hup r hr)
  obtain ⟨downSame, downOther⟩ := all .downlinkDropped .discardedAtReturn (by simp) down fun r hr => downlink r (hdown r hr)
  simp only [discardedUnder, List.countP_append] at *
  omega

theorem freeRecord_frees_untaken (r : FrameRecord) {s : State} (h : mayTake s = false) : Frees s (freeRecord r s) := by
  have paused (u : State) : Frees u (evalPause u) := by
    simp only [evalPause, withPauseTarget]
    split <;> exact ⟨_, _, _, _, _, _, _, rfl⟩
  unfold freeRecord freeCells
  (repeat' split)
  · exact ⟨_, _, _, _, _, _, _, rfl⟩
  · exact .refl s
  · rw [judgePending_untaken (by simpa [mayTake, holdsRings, softResetStands, enginesRun] using h)]
    exact Frees.trans (t := { s with hold.freeList := s.hold.freeList ++ r.cells }) ⟨_, _, _, _, _, _, _, rfl⟩ (paused _)

theorem Frees.untaken {s t : State} (h : Frees s t) (hs : mayTake s = false) : mayTake t = false := by
  obtain ⟨_, _, _, _, _, _, _, rfl⟩ := h
  exact hs

/-- The discard of every held record at a return: only the free list, the pause and the counts move (R18, R82). -/
theorem loseAll_discards (rs : List FrameRecord) {s : State} (h : mayTake s = false) : Frees s (loseAll .discardedAtReturn rs s)
    ∧ (loseAll .discardedAtReturn rs s).events.counters = discardCounts rs s.events.counters := by
  induction rs generalizing s with
  | nil => exact ⟨.refl s, rfl⟩
  | cons r rs ih =>
    have reported : Frees s (reportLoss .discardedAtReturn r s) := ⟨_, _, _, _, _, _, _, rfl⟩
    have once := reported.trans (freeRecord_frees_untaken r (reported.untaken h))
    obtain ⟨freed, counted⟩ := ih (once.untaken h)
    refine ⟨once.trans freed, ?_⟩
    rw [loseAll, List.foldl_cons, ← loseAll]
    rw [loseRecord, counted]
    simp [discardCounts, reportLoss]

/-- The discard of every held record by a soft reset: with its own counts and no loss event (R171). -/
theorem softDiscardAll_discards (rs : List FrameRecord) {s : State} (h : mayTake s = false) : Frees s (softDiscardAll rs s)
    ∧ (softDiscardAll rs s).events.counters = discardCounts rs s.events.counters
    ∧ (softDiscardAll rs s).events.entries = s.events.entries
    ∧ (softDiscardAll rs s).loader.softUp = s.loader.softUp + discardedUnder .discardedAtReturn rs
    ∧ (softDiscardAll rs s).loader.softDown = s.loader.softDown + discardedUnder .downlinkDropped rs := by
  induction rs generalizing s with
  | nil => exact ⟨.refl s, rfl, rfl, rfl, rfl⟩
  | cons r rs ih =>
    have counting := countSoftDiscard_frees r s
    have once : Frees s (softDiscardRecord r s) := counting.trans (freeRecord_frees_untaken r (counting.untaken h))
    obtain ⟨freed, counters, entries, up, down⟩ := ih (once.untaken h)
    rw [softDiscardAll, List.foldl_cons, ← softDiscardAll, counters, entries, up, down]
    have one : (softDiscardRecord r s).events.counters = s.events.counters.modify (counterIndex (lossCounter .discardedAtReturn r)) raisedCounter
        ∧ (softDiscardRecord r s).events.entries = s.events.entries
        ∧ (softDiscardRecord r s).loader.softUp = s.loader.softUp + (if lossCounter .discardedAtReturn r = .discardedAtReturn then 1 else 0)
        ∧ (softDiscardRecord r s).loader.softDown = s.loader.softDown + (if lossCounter .discardedAtReturn r = .downlinkDropped then 1 else 0) := by
      cases hd : r.direction <;> simp [softDiscardRecord, countSoftDiscard, lossCounter, hd]
    obtain ⟨oneCounters, oneEntries, oneUp, oneDown⟩ := one
    rw [oneCounters, oneEntries, oneUp, oneDown]
    refine ⟨once.trans freed, rfl, rfl, ?_, ?_⟩ <;> simp only [discardedUnder, List.countP_cons, decide_eq_true_eq] <;> omega

/-! ### Hold memory and the slots emptied -/

/-- Everything held has left: the queues, the slots and what goes with them; the rings, the bus and the credit stand. -/
structure Emptied (s t : State) : Prop where
  bus : t.bus = s.bus
  ring : t.ring = s.ring
  path : t.path = s.path
  map : t.loader.map = s.loader.map
  uplink : t.hold.uqE = [] ∧ t.hold.uqV = [] ∧ t.hold.uqD = []
  downlink : t.hold.dqV = [] ∧ t.hold.dqD = []
  slots : t.radio.slotA = none ∧ t.radio.slotB = none ∧ t.radio.unsent = []
  charges : t.pacer.chargeA = none ∧ t.pacer.chargeB = none
  credit : t.pacer.credit = s.pacer.credit ∧ t.pacer.carried = s.pacer.carried

theorem emptySlots_unsent (s : State) : (emptySlots s).radio.unsent = [] := by
  have cleared (slot : Slot) (u : State) : (clearSlot slot u).radio.unsent = u.radio.unsent.filter (· != slot) := by
    cases slot <;> simp only [clearSlot] <;> (repeat' split) <;> rfl
  simp only [emptySlots, clearCharge, cleared, List.filter_filter]
  refine List.filter_eq_nil_iff.2 fun slot _ => ?_
  cases slot <;> simp

theorem emptied_of_frees {s t : State} (fate : ReceiveFate) (h : Frees (emptyQueues (emptySlots s)) t) : Emptied s (markReceiving fate t) := by
  obtain ⟨slotA, slotB⟩ := emptySlots_slots s
  obtain ⟨_, _, _, _, _, _, _, rfl⟩ := h
  constructor <;> simp [emptyQueues, slotA, slotB, emptySlots_unsent] <;> simp [emptySlots, clearCharge]

/-- A discard at a return (R18). -/
theorem discardAtReturn_empties {s : State} (h : mayTake s = false) : Emptied s (discardAtReturn s)
    ∧ (discardAtReturn s).events.counters = discardCounts (standingRecords s) s.events.counters := by
  have untaken : mayTake (emptyQueues (emptySlots s)) = false := by simpa [mayTake, holdsRings, softResetStands, enginesRun, emptyQueues] using h
  obtain ⟨freed, counters⟩ := loseAll_discards (standingRecords s) untaken
  refine ⟨emptied_of_frees .atReturn freed, ?_⟩
  simpa [discardAtReturn, emptyQueues] using counters

/-- A soft reset's discard (R171). -/
theorem discardAtSoftReset_empties {s : State} (h : mayTake s = false) : Emptied s (discardAtSoftReset s)
    ∧ (discardAtSoftReset s).events.counters = discardCounts (standingRecords s) s.events.counters
    ∧ (discardAtSoftReset s).events.entries = s.events.entries
    ∧ (discardAtSoftReset s).loader.softUp = s.loader.softUp + discardedUnder .discardedAtReturn (standingRecords s)
    ∧ (discardAtSoftReset s).loader.softDown = s.loader.softDown + discardedUnder .downlinkDropped (standingRecords s) := by
  have untaken : mayTake (emptyQueues (emptySlots s)) = false := by simpa [mayTake, holdsRings, softResetStands, enginesRun, emptyQueues] using h
  obtain ⟨freed, counted⟩ := softDiscardAll_discards (standingRecords s) untaken
  refine ⟨emptied_of_frees .atSoftReset freed, ?_⟩
  simpa [discardAtSoftReset, emptyQueues] using counted

/-! ### The command's end -/

/-- The completions a discard asked for are the writes of 11.4. -/
theorem settle_dropsFormed {m : MemoryMap} {s t : State} (hm : t.loader.map = some m) (hq : t.bus.queue = s.bus.queue) :
    ∀ x ∈ (settle t).bus.queue.drop s.bus.queue.length, ∀ p, x.purpose = .completion p .droppedAtReturn →
      x.transfer = .write (addrOf (descriptorAddr m.txBase m.txSize p + 4)) [⟨BitVec.ofNat 32 (13 * 16777216), 8⟩] := by
  intro x hx p hp
  obtain ⟨new, hnew, hformed, _⟩ := (settle_engineKeeps t).passes m [] hm (by simp) List.nil_prefix
  rw [hnew, hq, List.drop_left] at hx
  obtain ⟨u, hu⟩ := hformed x hx
  rw [hp] at hu
  exact (Option.some.inj hu).symm

/-- What a discard of `s` leaves at its command's end. -/
structure DiscardEnds (s t : State) : Prop where
  uplink : t.hold.uqE = [] ∧ t.hold.uqV = [] ∧ t.hold.uqD = []
  downlink : t.hold.dqV = [] ∧ t.hold.dqD = []
  slots : t.radio.slotA = none ∧ t.radio.slotB = none ∧ t.radio.unsent = []
  charges : t.pacer.chargeA = none ∧ t.pacer.chargeB = none
  credit : t.pacer.credit = s.pacer.credit ∧ t.pacer.carried = s.pacer.carried
  asked : ∀ m, s.loader.map = some m → drops s <:+: lineOf t
  formed : ∀ m, s.loader.map = some m → ∀ x ∈ t.bus.queue.drop s.bus.queue.length, ∀ p, x.purpose = .completion p .droppedAtReturn →
    x.transfer = .write (addrOf (descriptorAddr m.txBase m.txSize p + 4)) [⟨BitVec.ofNat 32 (13 * 16777216), 8⟩]

/-- `v` is the state once the rings are being released and the completions are asked for, `t` the one once everything held has left. -/
theorem settle_emptied {s v t : State} (hv : Discarding v) (hasks : drops s <:+: lineOf v) (hempty : Emptied v t)
    (hq : v.bus.queue = s.bus.queue) (hm : v.loader.map = s.loader.map) (hp : v.pacer = s.pacer) :
    DiscardEnds s (settle t) ∧ RecordsStand t (settle t) := by
  obtain ⟨downV, downD⟩ := hempty.downlink
  obtain ⟨_, records, line⟩ := settle_discard downV downD (by rw [Discarding, hempty.bus]; exact hv)
  have map : t.loader.map = s.loader.map := hempty.map.trans hm
  refine ⟨⟨?_, ?_, ?_, ?_, ?_, fun m hmap => ?_, fun m hmap => ?_⟩, records⟩
  · simpa [records.hold] using hempty.uplink
  · simpa [records.hold] using hempty.downlink
  · simpa [records.slotA, records.slotB, records.unsent] using hempty.slots
  · simpa [records.pacer] using hempty.charges
  · simpa [records.pacer, hp] using hempty.credit
  · refine line (by simp [map, hmap]) _ (fun p hin => (drops_kinds s p hin).1) ?_
    rwa [lineOf, hempty.bus]
  · exact settle_dropsFormed (map.trans hmap) (by rw [hempty.bus, hq])

/-- The discard's counts, once for each of its two counters. -/
theorem discard_counted {s t : State} {up down : List FrameRecord} (hlen : s.events.counters.length = 10)
    (hc : t.events.counters = discardCounts (up ++ down) s.events.counters)
    (hup : ∀ r ∈ up, r.direction = .uplink) (hdown : ∀ r ∈ down, r.direction = .downlink) :
    ((counterOf s .discardedAtReturn).value + up.length ≤ 65535 →
        (counterOf t .discardedAtReturn).value = (counterOf s .discardedAtReturn).value + up.length)
    ∧ ((counterOf s .downlinkDropped).value + down.length ≤ 65535 →
        (counterOf t .downlinkDropped).value = (counterOf s .downlinkDropped).value + down.length) := by
  obtain ⟨ups, downs⟩ := discardedUnder_directions hup hdown
  have value (c : CounterName) (hi : counterIndex c < s.events.counters.length) := discardCounts_value (c := c) (up ++ down) hi
  rw [← hc] at value
  have returned := value .discardedAtReturn (by simp [hlen, counterIndex])
  have dropped := value .downlinkDropped (by simp [hlen, counterIndex])
  rw [ups] at returned
  rw [downs] at dropped
  exact ⟨returned, dropped⟩

theorem standingRecords_kept {s t : State} (hh : t.hold = s.hold) (hr : t.radio = s.radio) : standingRecords t = standingRecords s := by
  simp [standingRecords, slotRecords, hh, hr]

theorem standingRecords_directions (s : State) :
    standingRecords s = (s.hold.uqE ++ s.hold.uqV ++ s.hold.uqD ++ slotRecords s) ++ (s.hold.dqV ++ s.hold.dqD) := by
  simp [standingRecords]

/-- What waits and what is in line once a discard has asked for its writes. -/
theorem dropPending_line {s u : State} (hu : Discarding u) (hwin : u.ring.window = s.ring.window) :
    Discarding (dropPending u) ∧ drops s <:+: lineOf (dropPending u) := by
  obtain ⟨keeps, line⟩ := dropPending_discard u
  rw [drops, hwin] at line
  exact ⟨(keeps hu).1, line⟩

theorem drainTimerExpiry_discards {s : State} (hd : draining s = true) (ht : s.path.drainTimer.isSome = true) (hw : s.bus.waiting = []) :
    ∃ t, exec .drainTimerExpiry s = .next t ∧ DiscardEnds s t ∧ t.path.path = .returning ∧ t.path.phase = some .closing
      ∧ t.path.drainTimer = none ∧ t.events.counters = discardCounts (standingRecords s) s.events.counters
      ∧ (t.path.txReleased = true ∨ t.ring.txForcing = true) ∧ (t.path.rxReleased = true ∨ t.ring.rxForcing = true) := by
  have returning : s.path.path = .returning := by
    simp only [draining, Bool.and_eq_true, beq_iff_eq] at hd
    exact hd.1.1
  have carried : exec .drainTimerExpiry s = .next (settle (discardAtReturn (dropPending (forceRelease
      { s with path.phase := some .closing, path.drainTimer := none })))) := by
    show Host.Outcome.next (doDrainTimerExpiry s) = _
    simp [doDrainTimerExpiry, hd, ht]
  obtain ⟨forced, _⟩ := forceRelease_discard { s with path.phase := some .closing, path.drainTimer := none } (by simp [Discarding, hw])
  obtain ⟨waits, line⟩ := dropPending_line (s := s) forced (by simp)
  have releases := forceRelease_releases (s := { s with path.phase := some .closing, path.drainTimer := none }) (by simp [holdsRings, returning])
  have untaken : mayTake (dropPending (forceRelease { s with path.phase := some .closing, path.drainTimer := none })) = false := by
    simp [mayTake]
  have kept : standingRecords (dropPending (forceRelease { s with path.phase := some .closing, path.drainTimer := none })) = standingRecords s :=
    standingRecords_kept (by simp) (by simp)
  obtain ⟨empties, counted⟩ := discardAtReturn_empties untaken
  rw [kept] at counted
  generalize hv : dropPending (forceRelease { s with path.phase := some .closing, path.drainTimer := none }) = v at *
  obtain ⟨ends, records⟩ := settle_emptied waits line empties (by simp [← hv]) (by simp [← hv]) (by simp [← hv])
  have release := settle_keepsRelease (s := discardAtReturn v) (n := 64) rfl
  refine ⟨_, carried, ends, ?_, ?_, ?_, ?_, release.txForced ?_, release.rxForced ?_⟩
  · simp [← hv, returning]
  · simp [← hv]
  · simp [← hv]
  · rw [records.counters, counted]
    simp [← hv]
  · rw [empties.path, empties.ring]
    simpa [← hv] using releases.1
  · rw [empties.path, empties.ring]
    simpa [← hv] using releases.2

theorem softResetDiscard_discards {s : State} (hs : s.loader.softReset = .waiting) (hw : s.bus.waiting = []) :
    ∃ t, exec .softResetDiscard s = .next t ∧ DiscardEnds s t ∧ t.loader.softReset = .completing ∧ t.loader.softWait = none
      ∧ t.events.counters = discardCounts (standingRecords s) s.events.counters
      ∧ t.loader.softUp = s.loader.softUp + discardedUnder .discardedAtReturn (standingRecords s)
      ∧ t.loader.softDown = s.loader.softDown + discardedUnder .downlinkDropped (standingRecords s)
      ∧ (holdsRings s = true → (t.path.txReleased = true ∨ t.ring.txForcing = true) ∧ (t.path.rxReleased = true ∨ t.ring.rxForcing = true))
      ∧ t.loader.softPositions = s.loader.softPositions + (drops s).length
      ∧ entryOfKind t .voiceLoss = entryOfKind s .voiceLoss ∧ entryOfKind t .dataLoss = entryOfKind s .dataLoss := by
  have carried : exec .softResetDiscard s = .next (settle (softDiscard s)) := by
    show Host.Outcome.next (doSoftResetDiscard s) = _
    simp [doSoftResetDiscard, hs]
  obtain ⟨forced, forcedStand, _⟩ := forceRelease_discard s (by simp [Discarding, hw])
  have releases := forceRelease_releases (s := s)
  have positions : (softDiscard s) = { discardAtSoftReset (dropPending { forceRelease s with
      loader.softPositions := s.loader.softPositions + (drops s).length }) with loader.softReset := .completing, loader.softWait := none } := by
    simp [softDiscard, pendingEntries]
  generalize hu : ({ forceRelease s with loader.softPositions := s.loader.softPositions + (drops s).length } : State) = u at positions
  obtain ⟨waits, line⟩ := dropPending_line (s := s) (u := u) (by simpa [← hu] using forced) (by simp [← hu])
  have untaken : mayTake (dropPending u) = false := by simp [mayTake, softResetStands, ← hu, hs]
  have kept : standingRecords (dropPending u) = standingRecords s := standingRecords_kept (by simp [← hu]) (by simp [← hu])
  obtain ⟨empties, counters, entries, up, down⟩ := discardAtSoftReset_empties untaken
  rw [kept] at counters up down
  generalize hv : dropPending u = v at *
  have completes : Emptied v { discardAtSoftReset v with loader.softReset := .completing, loader.softWait := none } :=
    ⟨empties.bus, empties.ring, empties.path, empties.map, empties.uplink, empties.downlink, empties.slots, empties.charges, empties.credit⟩
  obtain ⟨ends, records⟩ := settle_emptied waits line completes (by simp [← hv, ← hu]) (by simp [← hv, ← hu]) (by simp [← hv, ← hu])
  have release := settle_keepsRelease (s := softDiscard s) (n := 64) rfl
  rw [positions] at carried release
  have lossesStand : v.events.entries = (forceRelease s).events.entries := by simp [← hv, ← hu]
  refine ⟨_, carried, ends, ?_, ?_, ?_, ?_, ?_, fun hrings => ⟨release.txForced ?_, release.rxForced ?_⟩, ?_, ?_, ?_⟩
  · rw [records.loader]
  · rw [records.loader]
  · rw [records.counters]
    simpa [← hv, ← hu] using counters
  · rw [records.loader]
    simpa [← hv, ← hu] using up
  · rw [records.loader]
    simpa [← hv, ← hu] using down
  · simpa [empties.path, empties.ring, ← hv, ← hu] using (releases hrings).1
  · simpa [empties.path, empties.ring, ← hv, ← hu] using (releases hrings).2
  · rw [records.loader]
    simp [← hv, ← hu]
  · rw [records.voiceLoss, ← forcedStand.voiceLoss]
    simp [entryOfKind, entries, lossesStand]
  · rw [records.dataLoss, ← forcedStand.dataLoss]
    simp [entryOfKind, entries, lossesStand]

end Sys2Proof.Machine
end

section
/-! A soft reset asked for off FIBRE (R171): while no PENDING entry can be taken, the application moves neither ring nor path, and the
soft reset then fixes the fence and waits. -/

-- One theorem at a time, as in the model's laws: the threads of many at once would not fit the memory a check has.
set_option Elab.async false

namespace Sys2Proof.Machine

/-! ### Work that takes no entry -/

abbrev NoPending (s : State) : Prop := ∀ e ∈ s.ring.window, e.st ≠ .pending

/-- No payload being received is a discarded one of an earlier soft reset. -/
abbrev PayloadUncounted (s : State) : Prop := ∀ p, s.radio.receiver = .payload p → p.fate ≠ .atSoftReset

/-- The rings, the path, the line and a soft reset's counts stand. -/
structure RingsLeft (s t : State) : Prop where
  ring : t.ring = s.ring
  path : t.path = s.path
  bus : t.bus = s.bus
  receiver : t.radio.receiver = s.radio.receiver ∨ t.radio.receiver = .idle
  counts : PayloadUncounted s → t.loader.softUp = s.loader.softUp ∧ t.loader.softDown = s.loader.softDown
    ∧ t.loader.softPositions = s.loader.softPositions

namespace RingsLeft

theorem refl (s : State) : RingsLeft s s := ⟨rfl, rfl, rfl, .inl rfl, fun _ => ⟨rfl, rfl, rfl⟩⟩

theorem of_eq {s t : State} (hr : t.ring = s.ring := by simp) (hp : t.path = s.path := by simp) (hb : t.bus = s.bus := by simp)
    (hl : t.loader = s.loader := by simp) (hrec : t.radio.receiver = s.radio.receiver := by simp) : RingsLeft s t :=
  ⟨hr, hp, hb, .inl hrec, fun _ => by simp [hl]⟩

theorem uncounted {s t : State} (h : RingsLeft s t) (hs : PayloadUncounted s) : PayloadUncounted t := by
  intro p hp
  obtain hrec | hrec := h.receiver
  · exact hs p (hrec ▸ hp)
  · simp [hrec] at hp

theorem trans {s t u : State} (h : RingsLeft s t) (h' : RingsLeft t u) : RingsLeft s u where
  ring := h'.ring.trans h.ring
  path := h'.path.trans h.path
  bus := h'.bus.trans h.bus
  receiver := h'.receiver.elim (fun e => by rw [e]; exact h.receiver) .inr
  counts hs := by
    obtain ⟨up, down, positions⟩ := h.counts hs
    obtain ⟨up', down', positions'⟩ := h'.counts (h.uncounted hs)
    exact ⟨up'.trans up, down'.trans down, positions'.trans positions⟩

end RingsLeft

/-- With no PENDING entry the work leaves the rings. -/
def Unjudged (s t : State) : Prop := NoPending s → RingsLeft s t

namespace Unjudged

theorem of_left {s t : State} (h : RingsLeft s t) : Unjudged s t := fun _ => h

theorem refl (s : State) : Unjudged s s := of_left (.refl s)

theorem trans {s t u : State} (h : Unjudged s t) (h' : Unjudged t u) : Unjudged s u := fun hs =>
  (h hs).trans (h' (by rw [NoPending, (h hs).ring]; exact hs))

theorem foldl {β : Type} {g : State → β → State} (hg : ∀ s a, Unjudged s (g s a)) (l : List β) (s : State) : Unjudged s (l.foldl g s) := by
  induction l generalizing s with
  | nil => exact refl s
  | cons a l ih => exact (hg s a).trans (ih _)

end Unjudged

theorem judgePending_unjudged (s : State) : Unjudged s (judgePending s) := fun h => by
  rw [judgePending_idle h]
  exact .refl s

theorem freeCells_unjudged (cells : List Nat) (s : State) : Unjudged s (freeCells cells s) := by
  unfold freeCells
  split
  · exact .refl s
  · exact .trans (t := evalPause { s with hold.freeList := s.hold.freeList ++ cells }) (.of_left .of_eq) (judgePending_unjudged _)

theorem freeRecord_unjudged (r : FrameRecord) (s : State) : Unjudged s (freeRecord r s) := by
  unfold freeRecord
  split
  · exact .of_left .of_eq
  · exact freeCells_unjudged _ _

theorem loseRecord_unjudged (reason : LossReason) (r : FrameRecord) (s : State) : Unjudged s (loseRecord reason r s) :=
  .trans (t := reportLoss reason r s) (.of_left .of_eq) (freeRecord_unjudged r _)

theorem loseAll_unjudged (reason : LossReason) (rs : List FrameRecord) (s : State) : Unjudged s (loseAll reason rs s) :=
  .foldl (fun s r => loseRecord_unjudged reason r s) rs s

theorem examine_unjudged (s : State) : Unjudged s (examine s) := by
  have dropE (u : State) : Unjudged u (dropOldUqE u) :=
    .trans (t := { u with hold.uqE := u.hold.uqE.dropWhile (voiceTooOld u) }) (.of_left .of_eq) (loseAll_unjudged _ _ _)
  have dropV (u : State) : Unjudged u (dropOldUqV u) :=
    .trans (t := { u with hold.uqV := u.hold.uqV.dropWhile (voiceTooOld u) }) (.of_left .of_eq) (loseAll_unjudged _ _ _)
  simp only [examine]
  split
  · exact (dropE s).trans (dropV _)
  · exact dropE s

theorem placementAttempt_unjudged (s : State) : Unjudged s (placementAttempt s) := by
  have placed (slot : Slot) (r : FrameRecord) (u : State) : Unjudged u (place slot r u) := by
    have filled : Unjudged u (u |> chargeSlot slot (frameCost u r.length) |> removeHead |> fillSlot slot r) := .of_left .of_eq
    unfold place
    dsimp only
    split
    · exact filled.trans (judgePending_unjudged _)
    · exact filled
  have once (u : State) : Unjudged u (placeOnce u) := by
    unfold placeOnce
    dsimp only
    (repeat' split)
    · exact (examine_unjudged u).trans (placed _ _ _)
    · exact examine_unjudged u
    · exact examine_unjudged u
    · exact .refl u
  simp only [placementAttempt]
  split
  · exact once s
  · exact (once s).trans (once _)

theorem abandonPayload_unjudged (s : State) : Unjudged s (abandonPayload s) := by
  have ended : RingsLeft s { s with radio.receiver := .idle } := ⟨rfl, rfl, rfl, .inr rfl, fun _ => ⟨rfl, rfl, rfl⟩⟩
  unfold abandonPayload
  split
  · rename_i p hp
    dsimp only
    split
    · exact .of_left ended
    · split
      · exact (Unjudged.of_left ended).trans (loseRecord_unjudged _ _ _)
      · exact (Unjudged.of_left ended).trans (loseRecord_unjudged _ _ _)
      · rename_i r _ _ hfate
        intro hs
        have freed := (freeRecord_unjudged r (countSoftDiscard r { s with radio.receiver := .idle })) (by simpa [NoPending] using hs)
        refine ⟨?_, ?_, ?_, ?_, fun huncounted => absurd hfate (huncounted p hp)⟩
        · simp [softDiscardRecord, freed.ring]
        · simp [softDiscardRecord, freed.path]
        · simp [softDiscardRecord, freed.bus]
        · simp [softDiscardRecord]
  · exact .refl s

theorem powerRule_unjudged (s : State) : Unjudged s (powerRule s) := by
  have freed (u : State) : Unjudged u (freeOnLdo u) :=
    .trans (t := { u with hold.onLdo := [] }) (.of_left .of_eq) (.foldl (fun v r => freeCells_unjudged r.cells v) u.hold.onLdo _)
  have cut (u : State) : Unjudged u (cutLink u) :=
    .trans (t := { u with radio.ldo := none }) (.of_left .of_eq) (.trans (freed _) (.trans (abandonPayload_unjudged _)
      (.of_left ⟨rfl, rfl, rfl, .inr rfl, fun _ => ⟨rfl, rfl, rfl⟩⟩)))
  have off : Unjudged s (enterOff s) := .trans (.of_left (.of_eq (by simp [dropPower]) (by simp [dropPower]) (by simp [dropPower])
    (by simp [dropPower]) (by simp [dropPower]))) (cut _)
  have started : Unjudged s (enterStarting (powerUp s)) := .of_left (.of_eq rfl rfl rfl rfl rfl)
  unfold powerRule
  split
  · exact .refl s
  · split <;> (try split) <;> first | exact .refl s | exact off | exact started

/-- With the radio wanted the power rule leaves the rings. -/
theorem powerRule_leaves {s : State} (h : NoPending s ∨ s.path.radioWanted = true) : RingsLeft s (powerRule s) := by
  obtain h | h := h
  · exact powerRule_unjudged s h
  · obtain hs | hs := powerRule_wanted h <;> rw [hs]
    · exact .refl s
    · exact .of_eq rfl rfl rfl rfl rfl

/-! ### The owners with no entry to take -/

/-- No free cell, and every entry needs some. -/
abbrev NoRoom (s : State) : Prop := s.hold.freeList = [] ∧ ∀ e ∈ s.ring.window, 0 < e.cellsNeed

theorem judgePending_noRoom {s : State} (h : NoRoom s) : judgePending s = s := by
  obtain ⟨free, need⟩ := h
  have refused (e : Entry) (he : 0 < e.cellsNeed) : judgeEntry s e = s := by
    have none : eligible s e = false := by
      unfold eligible
      split
      · rfl
      · have short (c : FrameClass) (b : Bool) : cellsAllow s c b e.cellsNeed = false := by
          simp only [cellsAllow, freeCount, free, List.length_nil]
          split <;> simp <;> omega
        simp [short]
    simp [judgeEntry, none]
  have all (l : List Entry) (hl : ∀ e ∈ l, 0 < e.cellsNeed) : l.foldl judgeEntry s = s := by
    induction l with
    | nil => rfl
    | cons e l ih =>
      rw [List.foldl_cons, refused e (hl e (by simp))]
      exact ih fun x hx => hl x (by simp [hx])
  exact all _ need

theorem ownersRest_leaves {old p : Policy} {startUp : Bool} {s : State}
    (h : NoPending s ∨ NoRoom s ∧ s.path.radioWanted = true ∧ (s.radio.state = .attached → old.burst = p.burst ∧ old.overhead = p.overhead)) :
    RingsLeft s (ownersRest old p startUp s) := by
  have paused : RingsLeft s (evalPause s) := .of_eq
  have metered (u : State) : RingsLeft u (meterTakes old startUp u) := .of_eq
  unfold ownersRest
  obtain h | ⟨room, wanted, same⟩ := h
  · have judged : Unjudged s (judgePending (evalPause s)) := .trans (.of_left paused) (judgePending_unjudged _)
    have placed (b : Bool) (u : State) : Unjudged u (if b then placementAttempt u else u) := by
      cases b
      · exact .refl u
      · exact placementAttempt_unjudged u
    exact (judged.trans ((placed _ _).trans (.trans (.of_left (metered _)) (powerRule_unjudged _)))) h
  · have judged : judgePending (evalPause s) = evalPause s := judgePending_noRoom (by simpa [NoRoom] using room)
    have unplaced : (if p.burst != old.burst || p.overhead != old.overhead then placementAttempt (evalPause s) else evalPause s) = evalPause s := by
      by_cases hatt : s.radio.state = .attached
      · simp [same hatt]
      · have once : placeOnce (evalPause s) = evalPause s := by simp [placeOnce, mayPlace, hatt]
        simp [placementAttempt, once]
    simp only [judged, unplaced]
    exact paused.trans ((metered _).trans (powerRule_leaves (.inr (by simpa using wanted))))

/-! ### The soft reset off FIBRE -/

/-- The state a soft reset begins in, its counts at 0 and the emergency ended (R171). -/
def softResetCalled (s : State) : State :=
  powerRule { s with
    loader.softUp := 0, loader.softDown := 0, loader.softPositions := 0
    path.priorityTimer := none, path.emergency := false }

theorem beginSoftReset_offFibre {s : State} (hp : s.path.path ≠ .fibre) : beginSoftReset s
    = { (if s.path.path = .returning then discardRead (softResetCalled s) else fixFence (softResetCalled s)) with
        loader.softReset := .waiting, loader.softWait := some 500 } := by
  simp [beginSoftReset, clearEmergency, hp, softResetCalled]

/-- What a soft reset off FIBRE sets while its wait begins (R171). -/
structure SoftResetWaits (s t : State) : Prop where
  path : t.path = { s.path with priorityTimer := none, emergency := false }
  waits : t.loader.softReset = .waiting ∧ t.loader.softWait = some 500
  counts : t.loader.softUp = 0 ∧ t.loader.softDown = 0 ∧ t.loader.softPositions = 0
  readState : t.loader.readState = s.loader.readState
  takes : t.ring.takes = s.ring.takes
  fenced : s.path.path ≠ .returning → t.ring.fence = some (fenceAt s) ∧ t.ring.readMark = some (fenceAt s)
    ∧ t.ring.window = s.ring.window.filter fun e => dist (s.ring.base.getD 0) e.pos < dist (s.ring.base.getD 0) (fenceAt s)
  returning : s.path.path = .returning → t.ring.fence = s.ring.fence ∧ t.ring.window = s.ring.window
  read : ∀ d, s.ring.descriptorRead = some d → t.ring.descriptorRead = some { d with discard := true }

theorem beginSoftReset_waits {s : State} (hp : s.path.path ≠ .fibre) (h : NoPending s ∨ s.path.radioWanted = true) (hr : PayloadUncounted s) :
    SoftResetWaits s (beginSoftReset s) ∧ (beginSoftReset s).bus = s.bus := by
  have left : RingsLeft _ (softResetCalled s) := powerRule_leaves (by simpa [NoPending] using h)
  obtain ⟨ring, path, bus, _, counts⟩ := left
  obtain ⟨up, down, positions⟩ := counts (by simpa [PayloadUncounted] using hr)
  have state : (softResetCalled s).loader.readState = s.loader.readState := by simp [softResetCalled]
  have fence : fenceAt (softResetCalled s) = fenceAt s := by simp [fenceAt, ring]
  rw [beginSoftReset_offFibre hp]
  generalize softResetCalled s = u at *
  by_cases hret : s.path.path = .returning
  · rw [if_pos hret]
    refine ⟨⟨path, ⟨rfl, rfl⟩, ⟨up, down, positions⟩, state, ?_, fun h => absurd hret h, fun _ => ?_, fun d hd => ?_⟩, bus⟩ <;> simp [discardRead, ring]
    simp [hd]
  · rw [if_neg hret]
    refine ⟨⟨path, ⟨rfl, rfl⟩, ⟨up, down, positions⟩, state, ?_, fun _ => ?_, fun h => absurd h hret, fun d hd => ?_⟩, bus⟩ <;>
      simp [fixFence, discardRead, ring, fence]
    simp [hd]

/-- In a soft reset's wait off FIBRE, with nothing waiting for the master, the standing work only stops a scan. -/
theorem settle_softWaiting {t : State} (hs : t.loader.softReset = .waiting) (hp : t.path.path ≠ .fibre) (hw : t.bus.waiting = []) :
    (settle t).path = t.path ∧ (settle t).loader = t.loader ∧ (settle t).ring.takes = t.ring.takes ∧ (settle t).ring.fence = t.ring.fence
      ∧ (settle t).ring.readMark = t.ring.readMark ∧ (settle t).ring.window = t.ring.window
      ∧ (settle t).ring.descriptorRead = t.ring.descriptorRead := by
  have undelivered : judgeDelivery t = t := by simp [judgeDelivery, mayDeliver, softResetStands, hs]
  have scanned : ∃ running mark read, evalScan t = { t with ring.scanRunning := running, ring.scanMark := mark, ring.scanRead := read } := by
    simp only [evalScan, scanWanted_offFibre hp, Bool.false_eq_true, if_false]
    split
    · exact ⟨_, _, _, by rw [stopScan, withdrawScanRead_idle (by simp [hw])]⟩
    · exact ⟨t.ring.scanRunning, t.ring.scanMark, t.ring.scanRead, rfl⟩
  obtain ⟨running, mark, read, hscan⟩ := scanned
  have waiting : (evalScan t).bus.waiting = [] := by rw [hscan]; exact hw
  have noHandBack : tryHandBack (evalScan t) = evalScan t := by simp [tryHandBack, hscan, hs]
  rw [settle, issueAll_idle hw, undelivered, issueAll_idle waiting, noHandBack, issueAll_idle waiting, hscan]
  simp

theorem settle_softResetWaits {s t : State} (h : SoftResetWaits s t) (hp : s.path.path ≠ .fibre) (hw : t.bus.waiting = []) :
    SoftResetWaits s (settle t) := by
  obtain ⟨path, loader, takes, fence, mark, window, read⟩ := settle_softWaiting h.waits.1 (by rw [h.path]; exact hp) hw
  constructor
  case path => rw [path, h.path]
  case waits => rw [loader]; exact h.waits
  case counts => rw [loader]; exact h.counts
  case readState => rw [loader]; exact h.readState
  case takes => rw [takes, h.takes]
  case fenced => rw [fence, mark, window]; exact h.fenced
  case returning => rw [fence, window]; exact h.returning
  case read => rw [read]; exact h.read

/-- An application whose soft reset begins off FIBRE with the override unchanged, while no PENDING entry can be taken. -/
theorem policy_softResetWaits {bs : List Byte} {s : State} (hk : s.loader.readKind = .ordinary) (hsoft : asksSoftReset bs = true)
    (hforce : s.loader.softResetInForce = false) (hp : s.path.path ≠ .fibre) (hsame : s.loader.policy.pathOverride = (policyOf bs).pathOverride)
    (hw : s.bus.waiting = []) (hr : PayloadUncounted s)
    (h : NoPending s ∨ NoRoom s ∧ s.path.radioWanted = true
      ∧ (s.radio.state = .attached → s.loader.policy.burst = (policyOf bs).burst ∧ s.loader.policy.overhead = (policyOf bs).overhead)) :
    ∃ y, SoftResetWaits y (settle (applyBlock bs s)) ∧ y.ring = s.ring ∧ y.path = s.path ∧ y.loader.readState = .idle := by
  obtain ⟨c, k, htaken⟩ := policyTaken_eq bs false s
  have kept : overrideTaken bs false s = policyTaken bs false s := by simp [overrideTaken, hsame]
  have begins : (asksSoftReset bs && !s.loader.softResetInForce) = true := by simp [hsoft, hforce]
  have kind : (ReadKind.ordinary == ReadKind.startUp) = false := rfl
  have left : RingsLeft (policyTaken bs false s) (ownersTaken bs false s) := by
    rw [ownersTaken, kept]
    exact ownersRest_leaves (by rw [htaken]; exact h)
  have told : RingsLeft (ownersTaken bs false s) (appliedTold bs false s) := .of_eq (by simp [appliedTold]) (by simp [appliedTold])
    (by simp [appliedTold]) (by simp [appliedTold]) (by simp [appliedTold])
  have applied : RingsLeft (policyTaken bs false s) (appliedTold bs false s) := left.trans told
  have uncounted : PayloadUncounted (appliedTold bs false s) := applied.uncounted (by rw [htaken]; exact hr)
  obtain ⟨ring, path, bus, _, _⟩ := applied
  have ring : (appliedTold bs false s).ring = s.ring := by rw [ring, htaken]
  have path : (appliedTold bs false s).path = s.path := by rw [path, htaken]
  have bus : (appliedTold bs false s).bus = s.bus := by rw [bus, htaken]
  have free : NoPending (appliedTold bs false s) ∨ (appliedTold bs false s).path.radioWanted = true := by
    rw [NoPending, ring, path]
    exact h.imp_right fun h => h.2.1
  have applies : applyBlock bs s = beginSoftReset { appliedTold bs false s with loader.readState := .idle, loader.readKind := .ordinary } := by
    rw [applyBlock_told, hk, begins, kind, afterApplication_softReset]
  generalize appliedTold bs false s = x at *
  obtain ⟨waits, line⟩ := beginSoftReset_waits (s := { x with loader.readState := .idle, loader.readKind := .ordinary }) (by simpa [path] using hp)
    (by simpa [NoPending] using free) (by simpa [PayloadUncounted] using uncounted)
  rw [applies]
  exact ⟨_, settle_softResetWaits waits (by simpa [path] using hp) (by rw [line]; simp [bus, hw]), ring, path, rfl⟩

/-- Settles O37: each discard asks for its writes and empties hold while nothing may be taken, and the standing work then moves no
record; a soft reset off FIBRE begins its wait with nothing taken. -/
theorem discardsEmptyHold : Obligations.DiscardsEmptyHold := by
  unfold Obligations.DiscardsEmptyHold
  refine ⟨?_, ?_, ?_⟩
  · intro s hd ht hw hlen hup hdown
    obtain ⟨t, carried, ends, path, phase, timer, counts, tx, rx⟩ := drainTimerExpiry_discards hd ht hw
    obtain ⟨uqE, uqV, uqD⟩ := ends.uplink
    obtain ⟨dqV, dqD⟩ := ends.downlink
    obtain ⟨slotA, slotB, unsent⟩ := ends.slots
    obtain ⟨chargeA, chargeB⟩ := ends.charges
    obtain ⟨credit, carriedBytes⟩ := ends.credit
    rw [standingRecords_directions] at counts
    obtain ⟨returned, dropped⟩ := discard_counted hlen counts hup hdown
    exact ⟨t, carried, path, phase, timer, tx, rx, uqE, uqV, uqD, dqV, dqD, slotA, slotB, unsent, chargeA, chargeB, credit, carriedBytes,
      returned, dropped, ends.asked, ends.formed⟩
  · intro s hs hw hlen hup hdown
    obtain ⟨t, carried, ends, completes, wait, counts, up, down, released, positions, voice, data⟩ := softResetDiscard_discards hs hw
    obtain ⟨uqE, uqV, uqD⟩ := ends.uplink
    obtain ⟨dqV, dqD⟩ := ends.downlink
    obtain ⟨slotA, slotB, _⟩ := ends.slots
    obtain ⟨chargeA, chargeB⟩ := ends.charges
    obtain ⟨credit, carriedBytes⟩ := ends.credit
    rw [standingRecords_directions] at counts up down
    obtain ⟨ups, downs⟩ := discardedUnder_directions hup hdown
    obtain ⟨returned, dropped⟩ := discard_counted hlen counts hup hdown
    exact ⟨t, carried, completes, wait, uqE, uqV, uqD, dqV, dqD, slotA, slotB, chargeA, chargeB, credit, carriedBytes, by rw [up, ups],
      by rw [down, downs], returned, dropped, released, by simpa using positions, voice, data, ends.asked, ends.formed⟩
  · intro a rest bs s hq hbs hk hsoft hforce hp hsame hw hfree hr
    have offFibre : s.path.path ≠ .fibre := by rintro h; simp [h] at hp
    rw [exec_policyApplied hq, ← hbs]
    obtain ⟨y, waits, ring, path, state⟩ := policy_softResetWaits (s := { s with bus.queue := rest, bus.waitCount := 0 }) hk hsoft hforce
      offFibre hsame hw hr (hfree.imp_right fun ⟨free, need, wanted, same⟩ => ⟨⟨free, need⟩, wanted, same⟩)
    obtain ⟨resets, wait⟩ := waits.waits
    obtain ⟨up, down, positions⟩ := waits.counts
    have fence : fenceAt y = fenceAt s := by simp [fenceAt, ring]
    refine ⟨_, rfl, by simp [waits.path, path], by simp [waits.path], by simp [waits.path], resets, wait, up, down, positions,
      by rw [waits.readState, state], by rw [waits.takes, ring], fun hne => ?_, fun hret => ?_, fun d hd => waits.read d (by rw [ring]; exact hd)⟩
    · simpa [ring, fence] using waits.fenced (by rw [path]; exact hne)
    · simpa [ring] using waits.returning (by rw [path]; exact hret)

end Sys2Proof.Machine
end

section
/-! Registers with a stated range (R27, R53, R107, R117, R150, R151, R163, R165, R167): every operation of the part brings values in
range to values in range, proved once for each operation that moves one, and so does every step. -/

-- One theorem at a time, as in the model's laws: the threads of many at once would not fit the memory a check has.
set_option Elab.async false

namespace Sys2Proof.Machine

/-! ### The ranges -/

/-- The four health values lie within 1 and 253 (R27). -/
def HealthInRange (h : Health) : Prop := healthOk h.sig ∧ healthOk h.txp ∧ healthOk h.rxa ∧ healthOk h.txe

/-- There are ten counters, each at most 65535 (R165). -/
def CountersInRange (cs : List Counter) : Prop := cs.length = 10 ∧ ∀ c ∈ cs, c.value ≤ 65535

/-- There are eleven entries, and a set one repeats at most 255 times (R167). -/
def EntriesInRange (es : List (Option EventEntry)) : Prop := es.length = 11 ∧ ∀ e ∈ es, ∀ x ∈ e, x.repeats ≤ 255

/-- The registers with a range that stand in `s` in range stand in `t` in range. -/
structure KeepsRanges (s t : State) : Prop where
  health : HealthInRange s.health → HealthInRange t.health
  takes : s.ring.takes.length ≤ Config.takePlaces → t.ring.takes.length ≤ Config.takePlaces
  queue : s.bus.queue.length ≤ Config.queuePlaces → t.bus.queue.length ≤ Config.queuePlaces
  waitCount : s.bus.waitCount ≤ 4 → t.bus.waitCount ≤ 4
  failures : s.radio.failures ≤ 255 → t.radio.failures ≤ 255
  quality : s.radio.grantQuality ≤ 31 → t.radio.grantQuality ≤ 31
  counters : CountersInRange s.events.counters → CountersInRange t.events.counters
  entries : EntriesInRange s.events.entries → EntriesInRange t.events.entries
  policy : PolicyInLimits s.loader.policy → PolicyInLimits t.loader.policy

/-- The registers with a range, as far as their ranges ask. -/
def ranged (s : State) : (Nat × Nat × Nat × Nat) × (Nat × Nat × Nat) × (Nat × Nat) × List Counter × List (Option EventEntry) × Policy :=
  ((s.health.sig, s.health.txp, s.health.rxa, s.health.txe), (s.ring.takes.length, s.bus.queue.length, s.bus.waitCount),
    (s.radio.failures, s.radio.grantQuality), s.events.counters, s.events.entries, s.loader.policy)

namespace KeepsRanges

/-- What moves no register with a range. -/
theorem of_eq {s t : State} (h : ranged t = ranged s := by simp [ranged]) : KeepsRanges s t := by
  simp only [ranged, Prod.mk.injEq] at h
  obtain ⟨⟨hsig, htxp, hrxa, htxe⟩, ⟨htakes, hqueue, hwait⟩, ⟨hfailures, hquality⟩, hcounters, hentries, hpolicy⟩ := h
  constructor <;> simp only [HealthInRange, hsig, htxp, hrxa, htxe, htakes, hqueue, hwait, hfailures, hquality, hcounters, hentries,
    hpolicy, imp_self]

theorem refl (s : State) : KeepsRanges s s := of_eq rfl

theorem trans {s t u : State} (h : KeepsRanges s t) (h' : KeepsRanges t u) : KeepsRanges s u :=
  ⟨h'.health ∘ h.health, h'.takes ∘ h.takes, h'.queue ∘ h.queue, h'.waitCount ∘ h.waitCount, h'.failures ∘ h.failures,
    h'.quality ∘ h.quality, h'.counters ∘ h.counters, h'.entries ∘ h.entries, h'.policy ∘ h.policy⟩

/-- A move of no register with a range, before. -/
theorem of_moved {s u t : State} (h : KeepsRanges u t) (e : ranged u = ranged s := by simp [ranged]) : KeepsRanges s t :=
  (of_eq e).trans h

/-- A move of no register with a range, after. -/
theorem then_eq {s u t : State} (h : KeepsRanges s u) (e : ranged t = ranged u := by simp [ranged]) : KeepsRanges s t :=
  h.trans (of_eq e)

/-- A later act that moves no register with a range. -/
theorem aside {f : State → State} {s u : State} (h : KeepsRanges s u) (e : ranged (f u) = ranged u := by simp [ranged]) :
    KeepsRanges s (f u) := h.trans (of_eq e)

theorem ite {s t u : State} {p : Prop} [Decidable p] (ht : p → KeepsRanges s t) (hu : ¬ p → KeepsRanges s u) :
    KeepsRanges s (if p then t else u) := by
  split
  · exact ht ‹_›
  · exact hu ‹_›

/-- An act made under a condition. -/
theorem when {s t : State} {p : Prop} [Decidable p] (ht : p → KeepsRanges s t) : KeepsRanges s (if p then t else s) :=
  ite ht fun _ => refl s

theorem foldl {β : Type} {g : State → β → State} (hg : ∀ s a, KeepsRanges s (g s a)) (l : List β) (s : State) :
    KeepsRanges s (l.foldl g s) := by
  induction l generalizing s with
  | nil => exact refl s
  | cons a l ih => exact (hg s a).trans (ih _)

end KeepsRanges

/-- The counts are in range exactly when each register is. -/
theorem countsInRange_iff (s : State) : CountsInRange s ↔ HealthInRange s.health ∧ s.ring.takes.length ≤ Config.takePlaces
    ∧ s.bus.queue.length ≤ Config.queuePlaces ∧ s.bus.waitCount ≤ 4 ∧ s.radio.failures ≤ 255 ∧ s.radio.grantQuality ≤ 31
    ∧ CountersInRange s.events.counters ∧ EntriesInRange s.events.entries := by
  simp only [CountsInRange, HealthInRange, CountersInRange, EntriesInRange, and_assoc]

theorem KeepsRanges.counts {s t : State} (h : KeepsRanges s t) (hs : CountsInRange s) : CountsInRange t := by
  rw [countsInRange_iff] at hs ⊢
  obtain ⟨hhealth, htakes, hqueue, hwait, hfailures, hquality, hcounters, hentries⟩ := hs
  exact ⟨h.health hhealth, h.takes htakes, h.queue hqueue, h.waitCount hwait, h.failures hfailures, h.quality hquality,
    h.counters hcounters, h.entries hentries⟩

/-! ### Events and counters -/

/-- A list modified at one place keeps what its members have and the modification keeps. -/
theorem forall_mem_modify {α : Type} {P : α → Prop} {f : α → α} (hf : ∀ x, P x → P (f x)) {l : List α} (i : Nat)
    (h : ∀ x ∈ l, P x) : ∀ x ∈ l.modify i f, P x := by
  induction l generalizing i with
  | nil => simp
  | cons a l ih =>
    obtain ⟨ha, hl⟩ := List.forall_mem_cons.1 h
    cases i with
    | zero => exact List.forall_mem_cons.2 ⟨hf a ha, hl⟩
    | succ i => exact List.forall_mem_cons.2 ⟨ha, ih i hl⟩

/-- A raise saturates at 255 repeats (R167). -/
theorem raisedEntry_repeats (now : Millis) (d : EventDetail) (e : Option EventEntry) : (raisedEntry now d e).repeats ≤ 255 := by
  cases e <;> simp [raisedEntry]

/-- A raise saturates at 65535 (R165). -/
theorem raisedCounter_value {c : Counter} (h : c.value ≤ 65535) : (raisedCounter c).value ≤ 65535 := by
  unfold raisedCounter
  split
  · simp only; omega
  · exact h

theorem raiseEvent_keepsRanges (d : EventDetail) (s : State) : KeepsRanges s (raiseEvent d s) := by
  constructor
  case entries =>
    rintro ⟨hlength, hrepeats⟩
    refine ⟨by simpa using hlength, ?_⟩
    rw [raiseEvent_events_entries]
    refine forall_mem_modify (fun e _ x hx => ?_) _ hrepeats
    obtain rfl : _ = x := by simpa using hx
    exact raisedEntry_repeats s.clock d e
  all_goals simp

theorem raiseCounter_keepsRanges (c : CounterName) (s : State) : KeepsRanges s (raiseCounter c s) := by
  constructor
  case counters =>
    rintro ⟨hlength, hvalues⟩
    refine ⟨by simpa using hlength, ?_⟩
    rw [raiseCounter_events_counters]
    exact forall_mem_modify (P := fun c : Counter => c.value ≤ 65535) (fun _ => raisedCounter_value) _ hvalues
  all_goals simp

theorem clearCounters_keepsRanges (s : State) : KeepsRanges s (clearCounters s) := by
  constructor
  case counters => exact fun _ => ⟨by simp, by simp⟩
  all_goals simp

theorem clearEntries_keepsRanges (s : State) : KeepsRanges s (clearEntries s) := by
  constructor
  case entries => exact fun _ => ⟨by simp [clearEntries], by simp [clearEntries]⟩
  all_goals simp

/-- The issue of an event record clears one entry (R168). -/
theorem recordIssued_keepsRanges (s : State) : KeepsRanges s (recordIssued s) := by
  constructor
  case entries =>
    rintro ⟨hlength, hrepeats⟩
    unfold recordIssued
    split
    · exact ⟨hlength, hrepeats⟩
    · refine ⟨by simpa using hlength, fun e he => ?_⟩
      obtain he | rfl := List.mem_or_eq_of_mem_set he
      · exact hrepeats e he
      · simp
  all_goals simp

theorem reportLoss_keepsRanges (reason : LossReason) (r : FrameRecord) (s : State) : KeepsRanges s (reportLoss reason r s) :=
  (raiseCounter_keepsRanges _ s).trans (raiseEvent_keepsRanges _ _)

theorem countSoftDiscard_keepsRanges (r : FrameRecord) (s : State) : KeepsRanges s (countSoftDiscard r s) := by
  simp only [countSoftDiscard]
  split <;> exact (raiseCounter_keepsRanges _ s).then_eq rfl

theorem reportStale_keepsRanges (dropped : List (Nat × Ring)) (s : State) : KeepsRanges s (reportStale dropped s) := by
  unfold reportStale
  split
  · exact .refl s
  · exact (raiseCounter_keepsRanges _ s).trans (raiseEvent_keepsRanges _ _)

/-! ### Takes and hold memory -/

/-- A take begins only while fewer than four are in progress (R53). -/
theorem beginTake_keepsRanges (e : Entry) (c : FrameClass) {s : State} (h : s.ring.takes.length < Config.takePlaces) :
    KeepsRanges s (beginTake e c s) := by
  constructor
  case takes =>
    intro _
    simp only [beginTake]
    split <;> simpa using h
  all_goals simp

theorem judgeEntry_keepsRanges (s : State) (e : Entry) : KeepsRanges s (judgeEntry s e) := by
  unfold judgeEntry
  split
  · rename_i hmay
    have room : s.ring.takes.length < Config.takePlaces := by simp at hmay; exact hmay.1.1
    split
    · exact beginTake_keepsRanges _ _ room
    · exact .refl s
  · exact .refl s

theorem judgePending_keepsRanges (s : State) : KeepsRanges s (judgePending s) := .foldl judgeEntry_keepsRanges _ s

theorem freeCells_keepsRanges (cells : List Nat) (s : State) : KeepsRanges s (freeCells cells s) := by
  unfold freeCells
  exact .ite (fun _ => .refl s) fun _ => (judgePending_keepsRanges _).of_moved

theorem freeRecord_keepsRanges (r : FrameRecord) (s : State) : KeepsRanges s (freeRecord r s) := by
  unfold freeRecord
  exact .ite (fun _ => .of_eq) fun _ => freeCells_keepsRanges _ s

theorem freeOnLdo_keepsRanges (s : State) : KeepsRanges s (freeOnLdo s) := by
  unfold freeOnLdo
  exact (KeepsRanges.foldl (fun s (r : FrameRecord) => freeCells_keepsRanges r.cells s) _ _).of_moved rfl

theorem loseRecord_keepsRanges (reason : LossReason) (r : FrameRecord) (s : State) : KeepsRanges s (loseRecord reason r s) :=
  (reportLoss_keepsRanges reason r s).trans (freeRecord_keepsRanges r _)

theorem softDiscardRecord_keepsRanges (r : FrameRecord) (s : State) : KeepsRanges s (softDiscardRecord r s) :=
  (countSoftDiscard_keepsRanges r s).trans (freeRecord_keepsRanges r _)

theorem returnRecord_keepsRanges (r : FrameRecord) (s : State) : KeepsRanges s (returnRecord r s) := by
  unfold returnRecord
  exact .ite (fun _ => loseRecord_keepsRanges _ _ s) fun _ => .of_eq

theorem loseAll_keepsRanges (reason : LossReason) (rs : List FrameRecord) (s : State) : KeepsRanges s (loseAll reason rs s) :=
  .foldl (fun s r => loseRecord_keepsRanges reason r s) rs s

theorem softDiscardAll_keepsRanges (rs : List FrameRecord) (s : State) : KeepsRanges s (softDiscardAll rs s) :=
  .foldl (fun s r => softDiscardRecord_keepsRanges r s) rs s

/-- Records lost once the queues have been set anew. -/
theorem loseAll_withHold_keepsRanges (reason : LossReason) (rs : List FrameRecord) (h : HoldMemory) (s : State) :
    KeepsRanges s (loseAll reason rs { s with hold := h }) := (loseAll_keepsRanges _ _ _).of_moved rfl

theorem dropOldUqE_keepsRanges (s : State) : KeepsRanges s (dropOldUqE s) := loseAll_withHold_keepsRanges _ _ _ s

theorem dropOldUqV_keepsRanges (s : State) : KeepsRanges s (dropOldUqV s) := loseAll_withHold_keepsRanges _ _ _ s

theorem dropOldDqV_keepsRanges (s : State) : KeepsRanges s (dropOldDqV s) := loseAll_withHold_keepsRanges _ _ _ s

theorem sweepVoice_keepsRanges (s : State) : KeepsRanges s (sweepVoice s) :=
  ((loseAll_withHold_keepsRanges _ _ _ s).trans (loseAll_withHold_keepsRanges _ _ _ _)).trans (loseAll_withHold_keepsRanges _ _ _ _)

theorem expireUqD_keepsRanges (r : FrameRecord) (s : State) : KeepsRanges s (expireUqD r s) := by
  have lost : KeepsRanges s (loseRecord .expired r { s with hold.uqD := s.hold.uqD.erase r }) := (loseRecord_keepsRanges _ _ _).of_moved rfl
  exact lost.trans (judgePending_keepsRanges _)

theorem sweepData_keepsRanges (s : State) : KeepsRanges s (sweepData s) :=
  (KeepsRanges.foldl (fun s r => expireUqD_keepsRanges r s) _ s).trans (loseAll_withHold_keepsRanges _ _ _ _)

theorem discardAtReturn_keepsRanges (s : State) : KeepsRanges s (discardAtReturn s) := by
  simp only [discardAtReturn]
  exact .aside ((loseAll_keepsRanges _ _ (emptyQueues (emptySlots s))).of_moved)

theorem discardAtSoftReset_keepsRanges (s : State) : KeepsRanges s (discardAtSoftReset s) := by
  simp only [discardAtSoftReset]
  exact .aside ((softDiscardAll_keepsRanges _ (emptyQueues (emptySlots s))).of_moved)

theorem reportRefused_keepsRanges (c : FrameClass) (n : Nat) (s : State) : KeepsRanges s (reportRefused c n s) := by
  unfold reportRefused
  exact .ite (fun _ => countSoftDiscard_keepsRanges _ s) fun _ =>
    .ite (fun _ => reportLoss_keepsRanges _ _ s) fun _ => reportLoss_keepsRanges _ _ s

/-! ### The Pacer and the Meter -/

theorem evalAllowance_keepsRanges (cause : AllowanceCause) (s : State) : KeepsRanges s (evalAllowance cause s) := by
  simp only [evalAllowance]
  exact .ite (fun _ => .refl s) fun _ => .aside (raiseEvent_keepsRanges _ s)

theorem countUsage_keepsRanges (n : Nat) (s : State) : KeepsRanges s (countUsage n s) := (evalAllowance_keepsRanges _ _).of_moved rfl

theorem startUpAllowance_keepsRanges (s : State) : KeepsRanges s (startUpAllowance s) := by
  simp only [startUpAllowance]
  exact .ite (fun _ => .of_eq) fun _ => .aside ((raiseEvent_keepsRanges _ _).of_moved rfl)

theorem place_keepsRanges (slot : Slot) (r : FrameRecord) (s : State) : KeepsRanges s (place slot r s) := by
  simp only [place]
  exact .ite (fun _ => (judgePending_keepsRanges _).of_moved) fun _ => .of_eq

theorem examine_keepsRanges (s : State) : KeepsRanges s (examine s) := by
  simp only [examine]
  exact .ite (fun _ => (dropOldUqE_keepsRanges s).trans (dropOldUqV_keepsRanges _)) fun _ => dropOldUqE_keepsRanges s

theorem placeOnce_keepsRanges (s : State) : KeepsRanges s (placeOnce s) := by
  unfold placeOnce
  refine .when fun _ => ?_
  dsimp only
  split
  · exact .ite (fun _ => (examine_keepsRanges s).trans (place_keepsRanges _ _ _)) fun _ => examine_keepsRanges s
  · exact examine_keepsRanges s

theorem placementAttempt_keepsRanges (s : State) : KeepsRanges s (placementAttempt s) := by
  simp only [placementAttempt]
  exact .ite (fun _ => placeOnce_keepsRanges s) fun _ => (placeOnce_keepsRanges s).trans (placeOnce_keepsRanges _)

theorem settleAccepted_keepsRanges (slot : Slot) (b : BusySlot) (s : State) : KeepsRanges s (settleAccepted slot b s) := by
  simp only [settleAccepted]
  refine .trans (.trans ?_ (freeRecord_keepsRanges _ _)) (placementAttempt_keepsRanges _)
  exact .ite (fun _ => (countUsage_keepsRanges _ _).of_moved) fun _ => .of_eq

theorem settleRefused_keepsRanges (slot : Slot) (b : BusySlot) (s : State) : KeepsRanges s (settleRefused slot b s) := by
  simp only [settleRefused]
  exact ((returnRecord_keepsRanges _ _).of_moved).trans (placementAttempt_keepsRanges _)

/-! ### The Radio Link Manager -/

theorem abandonPayload_keepsRanges (s : State) : KeepsRanges s (abandonPayload s) := by
  unfold abandonPayload
  dsimp only
  (repeat' split)
  · exact .of_eq rfl
  · exact (loseRecord_keepsRanges _ _ _).of_moved rfl
  · exact (loseRecord_keepsRanges _ _ _).of_moved rfl
  · exact (softDiscardRecord_keepsRanges _ _).of_moved rfl
  · exact .refl s

/-- An abandoned payload, after which the receiver waits for a header. -/
theorem abandonPayload_idle_keepsRanges (s : State) : KeepsRanges s { abandonPayload s with radio.receiver := .idle } :=
  (abandonPayload_keepsRanges s).then_eq rfl

theorem cutLink_keepsRanges (s : State) : KeepsRanges s (cutLink s) :=
  .trans (.of_moved (freeOnLdo_keepsRanges { s with radio.ldo := none }) rfl) (abandonPayload_idle_keepsRanges _)

theorem enterOff_keepsRanges (s : State) : KeepsRanges s (enterOff s) := (cutLink_keepsRanges _).of_moved

theorem powerRule_keepsRanges (s : State) : KeepsRanges s (powerRule s) := by
  unfold powerRule
  refine .ite (fun _ => .refl s) fun _ => ?_
  cases s.radio.state with
  | off => exact .when fun _ => .of_eq
  | attaching => exact .refl s
  | attached => exact .refl s
  | _ => exact .ite (fun _ => .refl s) fun _ => enterOff_keepsRanges s

theorem detachedNext_keepsRanges (s : State) : KeepsRanges s (detachedNext s) := by
  unfold detachedNext
  exact .ite (fun _ => .of_eq) fun _ => powerRule_keepsRanges s

/-- The failure count saturates at 255 (R114). -/
theorem countFailure_keepsRanges (cause : Nat) (s : State) : KeepsRanges s (countFailure cause s) := by
  have counted : KeepsRanges s { s with
      radio.attachTimer := none, radio.failures := min (s.radio.failures + 1) 255, radio.lastCause := some cause } := by
    constructor
    case failures => exact fun _ => Nat.min_le_right _ _
    all_goals simp
  simp only [countFailure]
  exact .ite (fun _ => counted.trans (raiseEvent_keepsRanges _ _)) fun _ => counted

theorem attachFails_keepsRanges (cause : Nat) (s : State) : KeepsRanges s (attachFails cause s) := by
  simp only [attachFails]
  exact .ite (fun _ => (countFailure_keepsRanges cause s).then_eq) fun _ => (countFailure_keepsRanges cause s).then_eq

theorem afterFailure_keepsRanges (s : State) : KeepsRanges s (afterFailure s) := .when fun _ => powerRule_keepsRanges s

theorem endBackoff_keepsRanges (s : State) : KeepsRanges s (endBackoff s) := by
  simp only [endBackoff]
  exact .ite (fun _ => (detachedNext_keepsRanges _).of_moved rfl) fun _ => .of_eq

theorem wantRadio_keepsRanges (s : State) : KeepsRanges s (wantRadio s) := by
  simp only [wantRadio]
  exact .ite (fun _ => .of_eq) fun _ => (powerRule_keepsRanges _).of_moved rfl

theorem unwantRadio_keepsRanges (s : State) : KeepsRanges s (unwantRadio s) := (powerRule_keepsRanges _).of_moved

theorem timeOutSlot_keepsRanges (slot : Slot) (s : State) : KeepsRanges s (timeOutSlot slot s) := by
  unfold timeOutSlot
  split
  · exact .refl s
  · exact settleRefused_keepsRanges _ _ s

/-! ### The Ring Agent -/

theorem judgeTxOverrun_keepsRanges (s : State) : KeepsRanges s (judgeTxOverrun s) := by
  unfold judgeTxOverrun
  refine .ite (fun _ => .ite (fun _ => .refl s) fun _ => ?_) fun _ => .of_eq rfl
  exact (raiseEvent_keepsRanges _ { s with ring.overrun := true }).of_moved rfl

theorem judgeRxOverrun_keepsRanges (s : State) : KeepsRanges s (judgeRxOverrun s) := by
  unfold judgeRxOverrun
  refine .ite (fun _ => .ite (fun _ => .refl s) fun _ => ?_) fun _ => .of_eq rfl
  exact (raiseEvent_keepsRanges _ { s with ring.rxOverrun := true }).of_moved rfl

theorem checkTxOverrun_keepsRanges (s : State) : KeepsRanges s (checkTxOverrun s) := by
  unfold checkTxOverrun
  exact .when fun _ => .ite (fun _ => judgeTxOverrun_keepsRanges s) fun _ => .of_eq rfl

theorem checkRxOverrun_keepsRanges (s : State) : KeepsRanges s (checkRxOverrun s) := by
  unfold checkRxOverrun
  exact .when fun _ => .ite (fun _ => judgeRxOverrun_keepsRanges s) fun _ => .of_eq rfl

theorem checksDue_keepsRanges (s : State) : KeepsRanges s (checksDue s) := by
  have tx : KeepsRanges s (if s.ring.txCheckDue then judgeTxOverrun { s with ring.txCheckDue := false } else s) :=
    .when fun _ => (judgeTxOverrun_keepsRanges _).of_moved rfl
  simp only [checksDue]
  exact .ite (fun _ => tx.trans ((judgeRxOverrun_keepsRanges _).of_moved rfl)) fun _ => tx

theorem appendEntry_keepsRanges (e : Entry) (s : State) : KeepsRanges s (appendEntry e s) := by
  unfold appendEntry
  split
  · exact (judgePending_keepsRanges _).of_moved rfl
  · exact .of_eq

theorem descriptorsReturn_keepsRanges (ws : List Word) (s : State) : KeepsRanges s (descriptorsReturn ws s) := by
  unfold descriptorsReturn
  split
  · exact .refl s
  · have read (u : State) : KeepsRanges u (readAhead u) := .of_eq
    have marked (u : State) (c : Option Count) : KeepsRanges u { u with ring.readMark := c } := .of_eq rfl
    refine .ite (fun _ => .of_eq) fun _ => .trans (.trans ?_ (marked _ _)) (read _)
    exact (KeepsRanges.foldl (fun s e => appendEntry_keepsRanges e s) _ _).of_moved rfl

end Sys2Proof.Machine
end

section
/-! The ranges through the Path Controller, the health monitor, the standing work of a command's end and the soft reset. -/

-- One theorem at a time, as in the model's laws: the threads of many at once would not fit the memory a check has.
set_option Elab.async false

namespace Sys2Proof.Machine

/-! ### Release, return and takeover -/

theorem changePath_keepsRanges (p : PathState) (c : PathCause) (s : State) : KeepsRanges s (changePath p c s) := by
  unfold changePath
  exact .aside ((raiseEvent_keepsRanges _ { s with path.path := p }).of_moved rfl)

theorem afterTxRelease_keepsRanges (s : State) : KeepsRanges s (afterTxRelease s) := by
  unfold afterTxRelease
  exact (checkTxOverrun_keepsRanges s).then_eq

theorem completeTx_keepsRanges (s : State) : KeepsRanges s (completeTx s) := (afterTxRelease_keepsRanges _).of_moved

theorem afterRxRelease_keepsRanges (s : State) : KeepsRanges s (afterRxRelease s) := by
  simp only [afterRxRelease]
  exact .ite (fun _ => (checkRxOverrun_keepsRanges s).then_eq) fun _ => checkRxOverrun_keepsRanges s

theorem afterForcedRx_keepsRanges (s : State) : KeepsRanges s (afterForcedRx s) := by
  unfold afterForcedRx
  split
  · exact .ite (fun _ => (checkRxOverrun_keepsRanges _).of_moved rfl) fun _ => afterRxRelease_keepsRanges s
  · exact afterRxRelease_keepsRanges s

theorem completeRx_keepsRanges (s : State) : KeepsRanges s (completeRx s) := (afterRxRelease_keepsRanges _).of_moved

theorem checkTxRelease_keepsRanges (s : State) : KeepsRanges s (checkTxRelease s) := .when fun _ => completeTx_keepsRanges s

theorem checkRxRelease_keepsRanges (s : State) : KeepsRanges s (checkRxRelease s) := .when fun _ => completeRx_keepsRanges s

theorem forceTx_keepsRanges (s : State) : KeepsRanges s (forceTx s) := by
  unfold forceTx
  exact .ite (fun _ => .refl s) fun _ => .ite (fun _ => completeTx_keepsRanges s) fun _ => .of_eq

theorem forceRx_keepsRanges (s : State) : KeepsRanges s (forceRx s) := by
  unfold forceRx
  exact .ite (fun _ => .refl s) fun _ => .ite (fun _ => completeRx_keepsRanges s) fun _ => .of_eq

theorem forceRelease_keepsRanges (s : State) : KeepsRanges s (forceRelease s) :=
  .when fun _ => (forceTx_keepsRanges s).trans (forceRx_keepsRanges _)

/-- A change of the pause target may add a pause item. -/
theorem withPauseTarget_keepsRanges {f : State → State} {s : State} (h : KeepsRanges s (f s)) : KeepsRanges s (withPauseTarget f s) := by
  unfold withPauseTarget
  exact .ite (fun _ => h) fun _ => h.then_eq rfl

theorem returnPause_keepsRanges (b : Bool) (s : State) :
    KeepsRanges s (withPauseTarget (fun s => { s with path.returnPause := b }) s) :=
  withPauseTarget_keepsRanges (.of_eq (s := s) (t := { s with path.returnPause := b }) rfl)

theorem enterReturning_keepsRanges (c : PathCause) (s : State) : KeepsRanges s (enterReturning c s) := by
  simp only [enterReturning]
  exact ((returnPause_keepsRanges true _).of_moved.trans (changePath_keepsRanges _ _ _)).trans (judgePending_keepsRanges _)

theorem evalReturn_keepsRanges (s : State) : KeepsRanges s (evalReturn s) := by
  unfold evalReturn
  refine .ite (fun _ => .refl s) fun _ => ?_
  split
  · exact enterReturning_keepsRanges _ s
  · exact .refl s

theorem moveAndEval_keepsRanges (p : PathState) (c : PathCause) (s : State) : KeepsRanges s (moveAndEval p c s) :=
  (changePath_keepsRanges p c s).trans (evalReturn_keepsRanges _)

theorem radioReport_keepsRanges (s : State) : KeepsRanges s (radioReport s) := by
  unfold radioReport
  split
  · split
    · exact moveAndEval_keepsRanges _ _ s
    · exact moveAndEval_keepsRanges _ _ s
    all_goals exact .refl s
  · exact .ite (fun _ => .refl s) fun _ => moveAndEval_keepsRanges _ _ s
  · exact .when fun _ => moveAndEval_keepsRanges _ _ s
  all_goals exact .refl s

theorem interruptReturn_keepsRanges (c : PathCause) (s : State) : KeepsRanges s (interruptReturn c s) := by
  simp only [interruptReturn]
  refine .when fun _ => .trans (.trans (.trans ?_ (changePath_keepsRanges _ _ _)) (judgePending_keepsRanges _)) (evalReturn_keepsRanges _)
  exact .aside ((returnPause_keepsRanges false _).of_moved rfl)

theorem beginRelease_keepsRanges (s : State) : KeepsRanges s (beginRelease s) := by
  have checked (u : State) : KeepsRanges u (checkRxRelease (checkTxRelease u)) :=
    (checkTxRelease_keepsRanges u).trans (checkRxRelease_keepsRanges _)
  have begun : KeepsRanges s (checkRxRelease (checkTxRelease { s with path.txReleased := false, path.rxReleased := false })) :=
    (checked _).of_moved rfl
  simp only [beginRelease]
  exact .ite (fun _ => begun) fun _ => begun.then_eq rfl

theorem enterTakeover_keepsRanges (c : PathCause) (s : State) : KeepsRanges s (enterTakeover c s) := by
  have released (u : State) : KeepsRanges u (wantRadio (readAhead (beginRelease u))) :=
    .trans (.aside (beginRelease_keepsRanges u)) (wantRadio_keepsRanges _)
  unfold enterTakeover
  extract_lets health path entered working _ timed recorded reported
  have hworking : KeepsRanges s working := (released _).of_moved (by simp [ranged, entered, health, path])
  have htimed : KeepsRanges s timed := hworking.then_eq (by simp [ranged, timed])
  have hrecorded : KeepsRanges s recorded := .aside (f := askPage) (htimed.trans (raiseEvent_keepsRanges _ _))
  have hreported : KeepsRanges s reported := hrecorded.trans (radioReport_keepsRanges _)
  exact .ite (fun _ => hreported.trans (evalReturn_keepsRanges _)) fun _ => hreported

theorem evalTakeover_keepsRanges (s : State) : KeepsRanges s (evalTakeover s) := by
  unfold evalTakeover
  refine .when fun _ => ?_
  split
  · exact enterTakeover_keepsRanges _ s
  · exact .refl s

theorem verdictReport_keepsRanges (s : State) : KeepsRanges s (verdictReport s) := by
  unfold verdictReport
  dsimp only
  split
  · exact evalTakeover_keepsRanges s
  · exact .refl s
  · split
    · exact .of_eq rfl
    · exact .ite (fun _ => (interruptReturn_keepsRanges _ _).of_moved rfl) fun _ => .of_eq rfl

theorem overrideChanged_keepsRanges (s : State) : KeepsRanges s (overrideChanged s) := by
  unfold overrideChanged
  split
  · exact evalTakeover_keepsRanges s
  · exact .refl s
  · split
    · exact interruptReturn_keepsRanges _ s
    · exact .when fun _ => interruptReturn_keepsRanges _ s
    · exact .refl s
  · exact evalReturn_keepsRanges s

theorem clearEmergency_keepsRanges (s : State) : KeepsRanges s (clearEmergency s) := (powerRule_keepsRanges _).of_moved rfl

theorem scanReports_keepsRanges (s : State) : KeepsRanges s (scanReports s) := by
  unfold scanReports
  exact .when fun _ => (enterTakeover_keepsRanges _ _).of_moved

/-! ### The health monitor -/

theorem healthOk_penalty (a : AttributeParams) {v : Nat} (h : healthOk v) : healthOk (penalty a v) := by
  unfold healthOk penalty at *; omega

theorem healthOk_recovery (a : AttributeParams) {v : Nat} (h : healthOk v) : healthOk (recovery a v) := by
  unfold healthOk recovery at *; omega

/-- A sample moves one value, within 1 and 253 (R27). -/
theorem sample_keepsRanges (a : Attribute) (good : Bool) (s : State) : KeepsRanges s (sample a good s) := by
  have kept (v : Nat) (hv : healthOk v) : healthOk (if good then recovery (attributeParams s.loader.policy a) v
      else penalty (attributeParams s.loader.policy a) v) := by
    split
    · exact healthOk_recovery _ hv
    · exact healthOk_penalty _ hv
  constructor
  case health =>
    rintro ⟨hsig, htxp, hrxa, htxe⟩
    cases a with
    | sig => exact ⟨kept _ hsig, htxp, hrxa, htxe⟩
    | txp => exact ⟨hsig, kept _ htxp, hrxa, htxe⟩
    | rxa => exact ⟨hsig, htxp, kept _ hrxa, htxe⟩
    | txe => exact ⟨hsig, htxp, hrxa, kept _ htxe⟩
  all_goals simp

theorem sampleTxp_keepsRanges (s : State) : KeepsRanges s (sampleTxp s) := by
  unfold sampleTxp
  split
  · exact .refl s
  · exact (sample_keepsRanges _ _ s).then_eq rfl

theorem sampleRxa_keepsRanges (s : State) : KeepsRanges s (sampleRxa s) := (sample_keepsRanges _ _ s).then_eq rfl

theorem evaluate_keepsRanges (s : State) : KeepsRanges s (evaluate s) := by
  simp only [evaluate]
  refine .ite (fun _ => .refl s) fun _ => .trans ?_ (verdictReport_keepsRanges _)
  exact (raiseEvent_keepsRanges _ _).of_moved rfl

theorem sampleTxe_keepsRanges (v : Byte) (s : State) : KeepsRanges s (sampleTxe v s) := by
  unfold sampleTxe
  have sampled (good : Bool) : KeepsRanges s (evaluate (sample .txe good s)) :=
    (sample_keepsRanges _ _ s).trans (evaluate_keepsRanges _)
  exact .when fun _ => .ite (fun _ => sampled true) fun _ => .when fun _ => sampled false

/-- The values start again at 253 (R41). -/
theorem reinitHealth_keepsRanges (s : State) : KeepsRanges s (reinitHealth s) := by
  constructor
  case health => exact fun _ => by simp [HealthInRange, healthOk]
  all_goals simp

/-- The entry to FIBRE sets three values to 253 and leaves SIG (R38). -/
theorem healthInFibre_keepsRanges (s : State) : KeepsRanges s (healthInFibre s) := by
  constructor
  case health => exact fun ⟨hsig, _⟩ => by simpa [HealthInRange, healthOk] using hsig
  all_goals simp

theorem handBackWith_keepsRanges (c : PathCause) (s : State) : KeepsRanges s (handBackWith c s) := by
  have entered (u : State) : KeepsRanges u (markReceiving .atReturn (healthInFibre (changePath .fibre c u))) :=
    .aside ((changePath_keepsRanges _ _ u).trans (healthInFibre_keepsRanges _))
  simp only [handBackWith]
  exact ((entered _).of_moved.trans (returnPause_keepsRanges false _)).trans (unwantRadio_keepsRanges _)

theorem handBackReturn_keepsRanges (s : State) : KeepsRanges s (handBackReturn s) := by
  have opened (u : State) : KeepsRanges u { u with path.refallOpen := true, path.refallTimer := some 600000 } := .of_eq rfl
  exact ((handBackWith_keepsRanges _ s).trans (opened _)).trans (evalTakeover_keepsRanges _)

/-! ### The standing work -/

theorem judgeDelivery_keepsRanges (s : State) : KeepsRanges s (judgeDelivery s) := by
  unfold judgeDelivery
  refine .when fun _ => ?_
  dsimp only
  split
  · exact (dropOldDqV_keepsRanges s).then_eq
  · exact (dropOldDqV_keepsRanges s).then_eq
  · exact dropOldDqV_keepsRanges s

/-- A take that ends leaves fewer in progress (R55). -/
theorem takeEnds_keepsRanges (pos : Count) (s : State) : KeepsRanges s (takeEnds pos s) := by
  unfold takeEnds
  split
  · exact .refl s
  · rename_i t _
    have ended : KeepsRanges s { updateEntry pos (fun e => { e with st := .done }) s with
        ring.takes := s.ring.takes.eraseP fun u => u.pos == pos } := by
      constructor
      case takes => exact fun h => (List.length_eraseP_le ..).trans h
      all_goals simp
    refine .ite (fun _ => ended.trans (softDiscardRecord_keepsRanges _ _)) fun _ =>
      .ite (fun _ => ended.trans (loseRecord_keepsRanges _ _ _)) fun _ => ?_
    exact ((ended.then_eq).trans (placementAttempt_keepsRanges _)).trans (judgePending_keepsRanges _)

theorem completionIssued_keepsRanges (pos : Count) (v : Completion) (s : State) : KeepsRanges s (completionIssued pos v s) := by
  cases v with
  | abandoned => exact .refl s
  | takenRadio => exact .aside (f := tryAdvance) (takeEnds_keepsRanges pos s)
  | _ => exact .of_eq (by simp [completionIssued, ranged])

theorem advanceIssued_keepsRanges (s : State) : KeepsRanges s (advanceIssued s) := by
  simp only [advanceIssued]
  exact .aside ((checkTxOverrun_keepsRanges _).of_moved rfl)

theorem endDelivery_keepsRanges (s : State) : KeepsRanges s (endDelivery s) := by
  have counted (short : Bool) (u : State) : KeepsRanges u (if short then raiseCounter .downlinkTruncated u else u) :=
    .when fun _ => raiseCounter_keepsRanges _ u
  unfold endDelivery
  split
  · exact .refl s
  · extract_lets short _ ended kept
    have hkept : KeepsRanges s kept := (counted short ended).of_moved rfl
    exact .ite (fun _ => hkept.trans (softDiscardRecord_keepsRanges _ _)) fun _ => hkept.trans (freeRecord_keepsRanges _ _)

theorem statusIssued_keepsRanges (s : State) : KeepsRanges s (statusIssued s) := by
  unfold statusIssued
  extract_lets ring filled
  have hended : KeepsRanges s (endDelivery filled) := (endDelivery_keepsRanges filled).of_moved rfl
  exact .ite (fun _ => .aside hended) fun _ => .ite (fun _ => .of_eq (by simp [ranged, filled, ring])) fun _ => hended

theorem rxfIssued_keepsRanges (s : State) : KeepsRanges s (rxfIssued s) := (checkRxOverrun_keepsRanges _).of_moved rfl

theorem onIssue_keepsRanges (p : Purpose) (s : State) : KeepsRanges s (onIssue p s) := by
  unfold onIssue
  split
  · exact completionIssued_keepsRanges _ _ s
  · exact advanceIssued_keepsRanges s
  · exact .when fun _ => (afterTxRelease_keepsRanges _).of_moved
  · exact .of_eq rfl
  · exact .of_eq
  · exact statusIssued_keepsRanges s
  · exact (rxfIssued_keepsRanges s).trans (endDelivery_keepsRanges _)
  · exact rxfIssued_keepsRanges s
  · exact .when fun _ => (afterForcedRx_keepsRanges _).of_moved
  · exact recordIssued_keepsRanges s
  all_goals exact .of_eq rfl

/-- A transfer joins the master queue only while that has room (R150). -/
theorem issueOne_keepsRanges (p : Purpose) (rest : List Purpose) {s : State} (h : s.bus.queue.length < Config.queuePlaces) :
    KeepsRanges s (issueOne p rest s) := by
  simp only [issueOne]
  split
  · exact .of_eq rfl
  · split
    · exact .of_eq rfl
    · refine .trans ?_ (onIssue_keepsRanges p _)
      constructor
      case queue => intro _; simpa using h
      all_goals simp

theorem pump_keepsRanges (n : Nat) (s : State) : KeepsRanges s (pump n s) := by
  induction n generalizing s with
  | zero => exact .refl s
  | succ n ih =>
    unfold pump
    split
    · exact .refl s
    · split
      · rename_i hroom
        simp at hroom
        exact (issueOne_keepsRanges _ _ hroom.1).trans (ih _)
      · exact .refl s

theorem issueAll_keepsRanges (s : State) : KeepsRanges s (issueAll s) := pump_keepsRanges 64 s

theorem settle_keepsRanges (s : State) : KeepsRanges s (settle s) := by
  have judged (u : State) : KeepsRanges u (evalScan (judgeDelivery (issueAll u))) :=
    .aside ((issueAll_keepsRanges u).trans (judgeDelivery_keepsRanges _))
  have handed (u : State) : KeepsRanges u (tryHandBack (issueAll u)) := .aside (issueAll_keepsRanges u)
  unfold settle
  exact .aside (((judged s).trans (handed _)).trans (issueAll_keepsRanges _))

end Sys2Proof.Machine
end

section
/-! The ranges through the soft reset, the policy block, the Packet Bus and every command and step (R27, R53, R107, R117, R150, R151,
R163, R165, R167). -/

-- One theorem at a time, as in the model's laws: the threads of many at once would not fit the memory a check has.
set_option Elab.async false

namespace Sys2Proof.Machine

/-! ### The soft reset -/

theorem endReceiving_keepsRanges (s : State) : KeepsRanges s (endReceiving s) := by
  unfold endReceiving
  split
  · split
    · exact (countSoftDiscard_keepsRanges _ s).then_eq rfl
    · exact .refl s
  · exact .refl s

/-- No take outlasts the re-initialisation (R65, R82). -/
theorem reinitHold_keepsRanges (s : State) : KeepsRanges s (reinitHold s) := by
  have emptied (u : State) : KeepsRanges u { u with
      hold.freeList := List.range Config.cellCount, hold.onLdo := [], hold.sweep10 := some 10, hold.sweep1s := some 1000,
      ring.takes := [], ring.delivery := none } := by
    constructor
    case takes => exact fun _ => Nat.zero_le _
    all_goals simp
  have paused (u : State) : KeepsRanges u (withPauseTarget (fun s => { s with hold.paused := false }) u) :=
    withPauseTarget_keepsRanges (.of_eq (s := u) (t := { u with hold.paused := false }) rfl)
  simp only [reinitHold]
  exact .trans (.trans (.then_eq (endReceiving_keepsRanges s)) (emptied _)) (paused _)

/-- The failures and the grant start again at 0 (R126). -/
theorem reinitRadio_keepsRanges (s : State) : KeepsRanges s (reinitRadio s) := by
  constructor
  case failures => exact fun _ => Nat.zero_le _
  case quality => exact fun _ => Nat.zero_le _
  all_goals simp

theorem reinitialise_keepsRanges (s : State) : KeepsRanges s (reinitialise s) := by
  have emptied (u : State) : KeepsRanges u (reinitRing (reinitPacer (reinitHold (reinitHealth u)))) :=
    ((reinitHealth_keepsRanges u).trans (reinitHold_keepsRanges _)).then_eq
  unfold reinitialise
  extract_lets fresh powered recorded loader
  have hfresh : KeepsRanges s fresh := .aside (f := reinitPower) ((emptied s).trans (reinitRadio_keepsRanges _))
  have hpowered : KeepsRanges s powered := hfresh.trans (powerRule_keepsRanges fresh)
  have hrecorded : KeepsRanges s recorded := (hpowered.trans (clearEntries_keepsRanges _)).trans (raiseEvent_keepsRanges _ _)
  exact hrecorded.then_eq (by simp [ranged, loader])

theorem beginSoftReset_keepsRanges (s : State) : KeepsRanges s (beginSoftReset s) := by
  unfold beginSoftReset
  extract_lets loader path zeroed cleared marked waiting
  have hcleared : KeepsRanges s cleared := (clearEmergency_keepsRanges zeroed).of_moved rfl
  have hmarked : KeepsRanges s marked := hcleared.trans (.ite (fun _ => .of_eq) fun _ => .of_eq)
  exact .ite (fun _ => .trans (.aside (f := stopScan) hcleared) (reinitialise_keepsRanges _)) fun _ => hmarked.then_eq rfl

theorem softDiscard_keepsRanges (s : State) : KeepsRanges s (softDiscard s) := by
  have completing (u : State) : KeepsRanges u { u with loader.softReset := .completing, loader.softWait := none } := .of_eq rfl
  unfold softDiscard
  extract_lets released loader counted discarded
  have hcounted : KeepsRanges s counted := (forceRelease_keepsRanges s).then_eq rfl
  have hdiscarded : KeepsRanges s discarded := .trans (.aside (f := dropPending) hcounted) (discardAtSoftReset_keepsRanges _)
  exact hdiscarded.trans (completing discarded)

theorem handBackSoft_keepsRanges (s : State) : KeepsRanges s (handBackSoft s) :=
  (KeepsRanges.when fun _ => softDiscard_keepsRanges s).trans ((handBackWith_keepsRanges _ _).trans (reinitialise_keepsRanges _))

theorem handBack_keepsRanges (s : State) : KeepsRanges s (handBack s) :=
  .ite (fun _ => handBackSoft_keepsRanges s) fun _ => handBackReturn_keepsRanges s

/-! ### The policy block -/

theorem within_limited {lo hi : Nat} (h : lo ≤ hi) (v : Nat) : within lo hi (limited lo hi v) := by
  unfold limited; omega

/-- A block is clamped and paired as it is read (R79, R163). -/
theorem policyInLimits_policyOf (bs : List Byte) : PolicyInLimits (policyOf bs) := by
  have params (i : Nat) : ParamsInLimits (blockParams bs i) :=
    ⟨within_limited (by decide) _, within_limited (by decide) _, within_limited (by decide) _, within_limited (by decide) _⟩
  have byte := byteIn_lt bs 34
  have pair := pairIn_lt bs 40
  have quad := quadIn_lt bs 44
  have high := within_limited (lo := 16) (hi := 192) (by decide) (byteIn bs 30)
  have low := within_limited (lo := 32) (hi := 240) (by decide) (byteIn bs 31)
  rw [policyOf_eq]
  refine ⟨within_limited (by decide) _, within_limited (by decide) _, within_limited (by decide) _, params _, params _, params _, params _,
    within_limited (by decide) _, within_limited (by decide) _, within_limited (by decide) _, within_limited (by decide) _,
    within_limited (by decide) _, high, ?_, ?_, within_limited (by decide) _, ?_, within_limited (by decide) _,
    within_limited (by decide) _, ?_, within_limited (by decide) _, ?_, within_limited (by decide) _, within_limited (by decide) _,
    within_limited (by decide) _⟩ <;> simp only [blockPolicy, Nat.zero_add] <;> grind

/-- The defaults of R163 are in its ranges. -/
theorem policyInLimits_default : PolicyInLimits Policy.default := by
  simp [PolicyInLimits, ParamsInLimits, Policy.default, within]

/-- The policy in force takes a value in limits. -/
theorem withPolicy_keepsRanges {p : Policy} (hp : PolicyInLimits p) (s : State) : KeepsRanges s { s with loader.policy := p } := by
  constructor
  case policy => exact fun _ => hp
  all_goals simp

theorem meterTakes_keepsRanges (old : Policy) (b : Bool) (s : State) : KeepsRanges s (meterTakes old b s) := by
  have capped (u : State) : KeepsRanges u
      (if u.loader.policy.trickle != old.trickle && u.pacer.allowance == .exhausted then setDownlinkCap u.loader.policy.trickle u else u) :=
    .when fun _ => .of_eq
  simp only [meterTakes]
  exact .ite (fun _ => .trans (.trans (capped s) (.when fun _ => .of_eq)) (evalAllowance_keepsRanges _ _)) fun _ =>
    .trans (capped s) (.when fun _ => .of_eq)

theorem ownersTake_keepsRanges {p : Policy} (hp : PolicyInLimits p) (b : Bool) (s : State) : KeepsRanges s (ownersTake p b s) := by
  unfold ownersTake
  extract_lets old loader clamped overridden judged attempted
  have hclamped : KeepsRanges s clamped := .aside (f := clampCredit) (withPolicy_keepsRanges hp s)
  have hoverridden : KeepsRanges s overridden := hclamped.trans (.when fun _ => overrideChanged_keepsRanges _)
  have hjudged : KeepsRanges s judged := .trans (.aside (f := evalPause) hoverridden) (judgePending_keepsRanges _)
  have hattempted : KeepsRanges s attempted := hjudged.trans (.when fun _ => placementAttempt_keepsRanges _)
  exact (hattempted.trans (meterTakes_keepsRanges _ _ _)).trans (powerRule_keepsRanges _)

theorem takeRequests_keepsRanges (bs : List Byte) (b : Bool) (s : State) : KeepsRanges s (takeRequests bs b s) := by
  simp only [takeRequests]
  exact .then_eq (.when fun _ => clearCounters_keepsRanges s) rfl

theorem afterApplication_keepsRanges (k : ReadKind) (soft : Bool) (s : State) : KeepsRanges s (afterApplication k soft s) := by
  cases k with
  | ordinary => exact .ite (fun _ => (beginSoftReset_keepsRanges _).of_moved rfl) fun _ => .of_eq
  | startUp =>
    have allowed : KeepsRanges s (if (startUpAllowance s).path.path = .fibre then
        { startUpAllowance s with path.dwellD := (startUpAllowance s).loader.policy.d0 } else startUpAllowance s) :=
      (startUpAllowance_keepsRanges s).trans (.when fun _ => .of_eq rfl)
    exact .aside (f := readEnds) allowed
  | softReset =>
    have judged : KeepsRanges s (evalTakeover { s with loader.softReset := .none }) := (evalTakeover_keepsRanges _).of_moved rfl
    exact .aside (f := readEnds) (.aside (f := askPage) judged)

theorem applyBlock_keepsRanges (bs : List Byte) (s : State) : KeepsRanges s (applyBlock bs s) :=
  (takeRequests_keepsRanges bs _ s).trans <| (ownersTake_keepsRanges (policyInLimits_policyOf bs) _ _).trans <|
    (raiseEvent_keepsRanges _ _).trans (afterApplication_keepsRanges _ _ _)

/-- A valid image's default policy is in limits, and the part starts with it (R175). -/
theorem startUp_keepsRanges (bs : List Byte) (s : State) : KeepsRanges s (startUp bs s) := by
  unfold startUp
  extract_lets p loader path health hold pacer started powered raised
  have hstarted : KeepsRanges s started := (withPolicy_keepsRanges (policyInLimits_policyOf (imagePolicy bs)) s).then_eq rfl
  have hpowered : KeepsRanges s powered :=
    .aside (f := restartQuiet) (.trans (.aside (f := clampCredit) hstarted) (powerRule_keepsRanges _))
  have hraised : KeepsRanges s raised := hpowered.trans (.when fun _ => raiseEvent_keepsRanges _ _)
  exact .trans (.aside hraised) (settle_keepsRanges _)

theorem loadEnds_keepsRanges (k b : Bool) (bs : List Byte) (s : State) : KeepsRanges s (loadEnds k b bs s) := by
  simp only [loadEnds]
  exact .ite (fun _ => (startUp_keepsRanges _ _).of_moved rfl) fun _ => .of_eq rfl

theorem shadowsCarried_keepsRanges (s : State) : KeepsRanges s (shadowsCarried s) := by
  unfold shadowsCarried
  extract_lets loader health events carried paged
  have hpaged : KeepsRanges s paged := .aside (f := beginPage false) ((evalTakeover_keepsRanges carried).of_moved rfl)
  exact .ite (fun _ => .aside hpaged) fun _ => hpaged.trans (startUpAllowance_keepsRanges _)

/-! ### The Packet Bus -/

theorem reportChanges_keepsRanges (b s : State) : KeepsRanges s (reportChanges b s) := by
  have txp (u : State) : KeepsRanges u (txpChanged b u) := .aside (f := readAhead) (checkTxOverrun_keepsRanges _).of_moved
  have txc (u : State) : KeepsRanges u (txcChanged u) :=
    ((checkTxRelease_keepsRanges _).of_moved).trans (checkTxOverrun_keepsRanges _)
  have rxf (u : State) : KeepsRanges u (rxfChanged u) := (checkRxRelease_keepsRanges u).trans (checkRxOverrun_keepsRanges _)
  simp only [reportChanges]
  exact .trans (.trans (.trans (.when fun _ => txp _) (.when fun _ => txc _)) (.when fun _ => checkRxOverrun_keepsRanges _))
    (.when fun _ => rxf _)

theorem reportRequester_keepsRanges (req : Requester) (ws : List (Nat × LaneWord)) (b s : State) :
    KeepsRanges s (reportRequester req ws b s) := by
  unfold reportRequester
  split
  · exact .trans (.when fun _ => .of_eq) (.when fun _ => .of_eq)
  · exact .trans (.when fun _ => .of_eq) (.foldl (fun s v => sampleTxe_keepsRanges v s) _ _)
  · exact .refl s

theorem carryWrite_keepsRanges (req : Requester) (a : Addr) (ws : List LaneWord) (s : State) : KeepsRanges s (carryWrite req a ws s) := by
  simp only [carryWrite]
  exact .trans (.trans ((reportChanges_keepsRanges s _).of_moved) (reportRequester_keepsRanges _ _ _ _)) (reportStale_keepsRanges _ _)

theorem shadowReturns_keepsRanges (w : Watched) (v : Word) (s : State) : KeepsRanges s (shadowReturns w v s) := by
  simp only [shadowReturns]
  cases w <;> exact .ite (fun _ => (shadowsCarried_keepsRanges _).of_moved rfl) fun _ => .of_eq rfl

theorem scanReturns_keepsRanges (pos : Count) (v : Word) (s : State) : KeepsRanges s (scanReturns pos v s) := by
  unfold scanReturns
  split
  · exact .refl s
  · exact .ite (fun _ => .of_eq rfl) fun _ => .ite (fun _ => (scanReports_keepsRanges _).of_moved rfl) fun _ =>
      .ite (fun _ => .of_eq rfl) fun _ => .of_eq rfl

/-- A frame read returns within its take. -/
theorem frameReturns_keepsRanges (pos : Count) (ws : List Word) (s : State) : KeepsRanges s (frameReturns pos ws s) := by
  unfold frameReturns
  split
  · exact .refl s
  · exact .ite (fun _ => .of_eq) fun _ => .of_eq

theorem readReturns_keepsRanges (p : Purpose) (ws : List Word) (s : State) : KeepsRanges s (readReturns p ws s) := by
  unfold readReturns
  split
  · exact shadowReturns_keepsRanges _ _ s
  · exact descriptorsReturn_keepsRanges _ s
  · exact scanReturns_keepsRanges _ _ s
  · exact frameReturns_keepsRanges _ _ s
  · exact .of_eq
  · exact .ite (fun _ => applyBlock_keepsRanges _ s) fun _ => .of_eq rfl
  all_goals exact .refl s

theorem writeCarried_keepsRanges (p : Purpose) (s : State) : KeepsRanges s (writeCarried p s) := by
  unfold writeCarried
  split
  · exact handBack_keepsRanges s
  · exact .ite (fun _ => .of_eq) fun _ => .of_eq rfl
  · exact .refl s

theorem carryMaster_keepsRanges (t : MasterTransfer) (s : State) : KeepsRanges s (carryMaster t s) := by
  unfold carryMaster
  split
  · exact readReturns_keepsRanges _ _ s
  · exact ((reportChanges_keepsRanges s _).of_moved).trans (writeCarried_keepsRanges _ _)

/-- A carriage takes one transfer off the queue and starts the wait count again (R150, R151). -/
theorem carryHead_keepsRanges (s : State) : KeepsRanges s (carryHead s) := by
  unfold carryHead
  split
  · exact .refl s
  · rename_i t rest hq
    have carried : KeepsRanges s { s with bus.queue := rest, bus.waitCount := 0 } := by
      constructor
      case queue => rw [hq]; exact fun h => (Nat.le_succ _).trans h
      case waitCount => exact fun _ => Nat.zero_le _
      all_goals simp
    exact (carried.trans (carryMaster_keepsRanges t _)).trans (settle_keepsRanges _)

theorem carryWhen_keepsRanges (p : Purpose → Bool) (s : State) : KeepsRanges s (carryWhen p s) := by
  unfold carryWhen
  split
  · exact .when fun _ => carryHead_keepsRanges s
  · exact .refl s

/-- Once the arbiter has come to a gateway transfer, the wait count is below 4 or the master has nothing to carry (R151). -/
theorem masterFirst_masterTurn (s : State) : masterTurn (masterFirst s) = false := by
  unfold masterFirst
  split
  · rename_i hturn
    unfold carryHead
    split
    · rename_i hq
      simp [masterTurn, hq] at hturn
    · simp [masterTurn]
  · simpa using ‹¬ masterTurn s = true›

/-- The wait count rises to at most 4 (R151). -/
theorem grantGateway_keepsRanges {s : State} (h : masterTurn s = false) : KeepsRanges s (grantGateway s) := by
  constructor
  case waitCount =>
    intro _
    rw [grantGateway_bus_waitCount]
    split
    · exact Nat.zero_le _
    · rename_i hq
      simp [masterTurn, hq] at h
      omega
  all_goals simp

theorem gatewayTransfer_keepsRanges (req : Requester) (x : Transfer) (s : State) : KeepsRanges s (gatewayTransfer req x s) := by
  have granted : KeepsRanges s (grantGateway (masterFirst s)) :=
    .trans (.when fun _ => carryHead_keepsRanges s) (grantGateway_keepsRanges (masterFirst_masterTurn s))
  unfold gatewayTransfer
  cases x with
  | read a len => exact granted.then_eq.trans (settle_keepsRanges _)
  | write a ws => exact (granted.trans (carryWrite_keepsRanges req a ws _)).trans (settle_keepsRanges _)

end Sys2Proof.Machine
end

section
/-! Every command and every step keeps the ranges: O8 and O13. -/

-- One theorem at a time, as in the model's laws: the threads of many at once would not fit the memory a check has.
set_option Elab.async false

namespace Sys2Proof.Machine

/-! ### Parts of commands -/

/-- Work done before a command's end. -/
theorem KeepsRanges.settled {s t : State} (h : KeepsRanges s t) : KeepsRanges s (settle t) := h.trans (settle_keepsRanges t)

theorem nowOrRecorded_keepsRanges (r : Recorded) {f : State → State} {s : State} (h : KeepsRanges s (f s)) :
    KeepsRanges s (nowOrRecorded r f s) := by
  unfold nowOrRecorded
  exact .ite (fun _ => h) fun _ => .ite (fun _ => .refl s) fun _ => .of_eq rfl

theorem attachedLost_keepsRanges (s : State) : KeepsRanges s (attachedLost s) :=
  ((detachedNext_keepsRanges _).of_moved).trans (radioReport_keepsRanges _)

theorem readyInAttached_keepsRanges (s : State) : KeepsRanges s (readyInAttached s) := by
  unfold readyInAttached
  extract_lets timedOut
  have htimedOut : KeepsRanges s timedOut :=
    .trans (timeOutSlot_keepsRanges .a (leaveAttached (readyTold s))).of_moved (timeOutSlot_keepsRanges .b _)
  exact .trans (.trans (.aside (f := readyItems) htimedOut) (detachedNext_keepsRanges _)) (radioReport_keepsRanges _)

theorem changeMode_keepsRanges (m : PowerMode) (c : PowerCause) (s : State) : KeepsRanges s (changeMode m c s) := by
  unfold changeMode
  exact .trans ((raiseEvent_keepsRanges _ { s with power.mode := m }).of_moved rfl) (powerRule_keepsRanges _)

/-- What follows an attach that fails. -/
theorem attachFailed_keepsRanges (cause : Nat) (s : State) : KeepsRanges s (afterFailure (radioReport (attachFails cause s))) :=
  ((attachFails_keepsRanges cause s).trans (radioReport_keepsRanges _)).trans (afterFailure_keepsRanges _)

theorem moduleIsReady_keepsRanges (s : State) : KeepsRanges s (moduleIsReady s) := by
  unfold moduleIsReady
  split
  · exact .refl s
  · exact (detachedNext_keepsRanges _).of_moved
  · exact .of_eq
  · exact (attachFailed_keepsRanges _ _).of_moved
  · exact readyInAttached_keepsRanges s
  · exact .of_eq

/-- A success clears the failures (R113). -/
theorem attachSucceeds_keepsRanges (s : State) : KeepsRanges s (attachSucceeds s) := by
  have cleared : KeepsRanges s { s with
      radio.attachTimer := none, radio.failures := 0, radio.lastCause := none, radio.state := .attached,
      radio.silenceTimer := some 10000, radio.items.attach := false, radio.attachTag := none, path.emergency := false } := by
    constructor
    case failures => exact fun _ => Nat.zero_le _
    all_goals simp
  have reported := KeepsRanges.trans (.aside (f := creditAtAttach) cleared) (radioReport_keepsRanges _)
  exact .aside (f := startLinger) (reported.trans (placementAttempt_keepsRanges _))

theorem payloadEnds_keepsRanges (r : FrameRecord) (fate : ReceiveFate) (s : State) : KeepsRanges s (payloadEnds r fate s) := by
  unfold payloadEnds
  cases fate with
  | atSoftReset => exact softDiscardRecord_keepsRanges r s
  | atReturn => exact loseRecord_keepsRanges _ r s
  | ordinary =>
    exact .ite (fun _ => loseRecord_keepsRanges _ r s) fun _ => .ite (fun _ => loseRecord_keepsRanges _ r s) fun _ =>
      .ite (fun _ => (countUsage_keepsRanges _ _).of_moved) fun _ => .of_eq

theorem askDownlink_keepsRanges (c : FrameClass) (n : Nat) (s : State) : KeepsRanges s (askDownlink c n s) := by
  unfold askDownlink
  exact .ite (fun _ => .of_eq) fun _ => (reportRefused_keepsRanges c n s).then_eq

theorem startFails_keepsRanges (s : State) : KeepsRanges s (startFails s) := by
  unfold startFails
  extract_lets off radio dropped
  have counted : KeepsRanges s (countFailure 17 dropped) := (countFailure_keepsRanges _ dropped).of_moved rfl
  exact .trans (.trans (.aside (f := enterBackoff) counted) (cutLink_keepsRanges _)) (radioReport_keepsRanges _)

theorem attachExpires_keepsRanges (s : State) : KeepsRanges s (attachExpires s) := by
  simp only [attachExpires]
  exact .ite (fun _ => (attachFailed_keepsRanges _ _).of_moved rfl) fun _ => .of_eq rfl

theorem actRecorded_keepsRanges (r : Recorded) (s : State) : KeepsRanges s (actRecorded r s) := by
  cases r with
  | release => exact (forceRelease_keepsRanges _).of_moved rfl
  | dwell => exact .when fun _ => (evalReturn_keepsRanges _).of_moved rfl
  | refall => exact .of_eq rfl
  | priority => exact .trans ((clearEmergency_keepsRanges { s with path.priorityTimer := none }).of_moved rfl) (evalReturn_keepsRanges _)
  | start => exact .ite (fun _ => startFails_keepsRanges s) fun _ => .of_eq rfl
  | attach => exact attachExpires_keepsRanges s
  | backoff => exact .ite (fun _ => endBackoff_keepsRanges s) fun _ => .of_eq rfl
  | linger => exact .of_eq (by simp [actRecorded, ranged])

/-- An expiry acted on at once or recorded for the restart. -/
theorem expiry_keepsRanges (r : Recorded) (s : State) : KeepsRanges s (settle (nowOrRecorded r (actRecorded r) s)) :=
  (nowOrRecorded_keepsRanges r (actRecorded_keepsRanges r s)).settled

theorem useLatch_keepsRanges (s : State) : KeepsRanges s (useLatch s) := by
  unfold useLatch
  extract_lets latch power returned quiet unit emptied
  have hreturned : KeepsRanges s returned := .when fun _ => .of_eq rfl
  have hquiet : KeepsRanges s quiet := hreturned.trans (.when fun _ => .of_eq)
  have hemptied : KeepsRanges s emptied := hquiet.then_eq rfl
  exact .ite (fun _ => (hemptied.trans (sample_keepsRanges _ _ _)).trans (evaluate_keepsRanges _)) fun _ => hemptied

theorem restart_keepsRanges (s : State) : KeepsRanges s (evalReturn (useLatch (takeUpWork (actAllRecorded (startBlocks s))))) := by
  have acted : KeepsRanges s (actAllRecorded (startBlocks s)) :=
    ((KeepsRanges.foldl (fun s r => actRecorded_keepsRanges r s) _ _).of_moved rfl).of_moved
  have checked (u : State) : KeepsRanges u (takeUpWork u) := by
    simp only [takeUpWork]
    exact .ite (fun _ => (checksDue_keepsRanges u).then_eq) fun _ => (checksDue_keepsRanges u).then_eq
  exact ((acted.trans (checked _)).trans (useLatch_keepsRanges _)).trans (evalReturn_keepsRanges _)

/-! ### Groups of commands -/

theorem lines_keepsRanges (s : State) :
    (∀ los link, KeepsRanges s (doLosLinkChange los link s)) ∧ KeepsRanges s (doOffhookAssert s) ∧ KeepsRanges s (doOffhookDeassert s)
      ∧ KeepsRanges s (doMainsLostAssert s) ∧ KeepsRanges s (doMainsLostDeassert s) ∧ KeepsRanges s (doRiAssert s) := by
  refine ⟨fun los link => ?_, ?_, ?_, ?_, ?_, .settled .of_eq⟩
  · exact .ite (fun _ => .refl s) fun _ => .settled .of_eq
  · exact .ite (fun _ => .refl s) fun _ => .settled .of_eq
  · exact .when fun _ => .settled ((evalReturn_keepsRanges _).of_moved)
  · refine .ite (fun _ => .refl s) fun _ => .ite (fun _ => .of_eq rfl) fun _ => .ite (fun _ => .of_eq rfl) fun _ => ?_
    dsimp only
    split
    · exact .settled ((changeMode_keepsRanges _ _ _).of_moved rfl)
    · exact .settled (.of_eq rfl)
    · exact .of_eq rfl
  · refine .when fun _ => .ite (fun _ => .of_eq rfl) fun _ => .ite (fun _ => .of_eq rfl) fun _ => ?_
    dsimp only
    split
    · exact .of_eq rfl
    · exact .settled .of_eq
    · exact .settled .of_eq

theorem messages_keepsRanges (s : State) :
    KeepsRanges s (doModuleReady s) ∧ (∀ tag, KeepsRanges s (doAttachResult tag s)) ∧ (∀ u d q, KeepsRanges s (doGrantReport u d q s))
      ∧ (∀ tag, KeepsRanges s (doSendResult tag s)) ∧ KeepsRanges s (doCoverageLost s)
      ∧ (∀ tag n, KeepsRanges s (doDeliverDownHeader tag n s)) ∧ (∀ bs, KeepsRanges s (doDeliverDownEnd bs s))
      ∧ (∀ type tag n, KeepsRanges s (doBadCarrierHeader type tag n s)) ∧ KeepsRanges s (doLinkFramingError s)
      ∧ KeepsRanges s (doLinkReceiverResync s) := by
  refine ⟨?_, fun tag => ?_, fun u d q => ?_, fun tag => ?_, ?_, fun tag n => ?_, fun bs => ?_, fun type tag n => ?_, ?_,
    .when fun _ => .of_eq rfl⟩
  · exact .when fun _ => (moduleIsReady_keepsRanges s).settled
  · exact .when fun _ => .ite (fun _ => (attachSucceeds_keepsRanges s).settled) fun _ => (attachFailed_keepsRanges _ s).settled
  · have granted : KeepsRanges s { s with
        radio.grantUp := u.toNat, radio.grantDown := d.toNat, radio.grantQuality := min q.toNat 31 } := by
      constructor
      case quality => exact fun _ => Nat.min_le_right _ _
      all_goals simp
    exact .when fun _ => .ite (fun _ => granted.then_eq rfl) fun _ => granted
  · unfold doSendResult
    refine .when fun _ => ?_
    split
    · exact raiseCounter_keepsRanges _ s
    · exact .ite (fun _ => (settleRefused_keepsRanges _ _ s).settled) fun _ => (settleAccepted_keepsRanges _ _ s).settled
  · exact .when fun _ => (attachedLost_keepsRanges s).settled
  · exact .when fun _ => .ite (fun _ => .settled .of_eq) fun _ => .ite (fun _ => .settled ((raiseCounter_keepsRanges _ _).of_moved))
      fun _ => .settled ((askDownlink_keepsRanges _ _ _).of_moved)
  · unfold doDeliverDownEnd
    split
    · refine .when fun _ => ?_
      dsimp only
      split
      · exact .settled (.of_eq rfl)
      · exact .settled ((payloadEnds_keepsRanges _ _ _).of_moved)
    · exact .refl s
  · have counted := raiseCounter_keepsRanges .linkFramingErrors s
    exact .when fun _ => .settled (.ite (fun _ => counted.then_eq) fun _ => counted)
  · exact .when fun _ => .settled (((raiseCounter_keepsRanges _ s).trans (abandonPayload_keepsRanges _)).then_eq rfl)

/-- A message begun on LDO moves no more than its own act does. -/
theorem arbiterTakes_keepsRanges (m : Bool) (n : NextMessage) {f : State → State} (hf : ∀ u, KeepsRanges u (f u)) (s : State) :
    KeepsRanges s (arbiterTakes m n f s) := by
  simp only [arbiterTakes]
  exact .ite (fun _ => .ite (fun _ => (hf _).of_moved) fun _ => .of_eq) fun _ => .of_eq rfl

theorem arbiter_keepsRanges (s : State) :
    (∀ m, KeepsRanges s (doAttachRequest m s)) ∧ (∀ m, KeepsRanges s (doDetachRequest m s)) ∧ KeepsRanges s (doDetachRequestSent s)
      ∧ (∀ m, KeepsRanges s (doSendUp m s)) ∧ KeepsRanges s (doSendUpEnd s) ∧ (∀ m, KeepsRanges s (doPauseDown m s))
      ∧ (∀ m, KeepsRanges s (doResumeDown m s)) ∧ (∀ m, KeepsRanges s (doDownCap m s))
      ∧ (∀ m, KeepsRanges s (doLowPower m s)) ∧ KeepsRanges s (doLowPowerSent s) := by
  refine ⟨fun m => arbiterTakes_keepsRanges m _ (fun u => ?_) s, fun m => arbiterTakes_keepsRanges m _ (fun u => .of_eq) s, ?_,
    fun m => ?_, ?_, fun m => arbiterTakes_keepsRanges m _ (fun u => .of_eq) s, fun m => arbiterTakes_keepsRanges m _ (fun u => .of_eq) s,
    fun m => arbiterTakes_keepsRanges m _ (fun u => .of_eq) s, fun m => ?_, ?_⟩
  · simp only [beginAttach]
    exact .ite (fun _ => (raiseEvent_keepsRanges _ _).of_moved) fun _ => .of_eq
  · unfold doDetachRequestSent
    split
    · exact .ite (fun _ => .settled ((attachedLost_keepsRanges _).of_moved rfl)) fun _ => .settled (.of_eq rfl)
    · exact .refl s
  · unfold doSendUp
    split
    · exact arbiterTakes_keepsRanges m _ (fun u => .of_eq) s
    · exact .of_eq rfl
  · unfold doSendUpEnd
    split
    · rename_i slot live record _
      have sent : KeepsRanges s (if live then markSent slot { s with radio.ldo := none } else { s with radio.ldo := none }) :=
        .ite (fun _ => .of_eq) fun _ => .of_eq rfl
      exact .settled (sent.trans (freeOnLdo_keepsRanges _))
    · exact .refl s
  · unfold doLowPower
    split
    · exact arbiterTakes_keepsRanges m _ (fun u => .of_eq) s
    · exact .of_eq rfl
  · unfold doLowPowerSent
    split
    · exact .settled (.ite (fun _ => .of_eq rfl) fun _ => .of_eq rfl)
    · exact .refl s

theorem doHealth100msExpiry_keepsRanges (s : State) : KeepsRanges s (doHealth100msExpiry s) := by
  have sampled : KeepsRanges s (sampleSig { s with health.timer100 := some 100 }) := (sample_keepsRanges _ _ _).of_moved rfl
  exact .when fun _ => .settled (.trans (.ite (fun _ => sampled.trans (sampleTxp_keepsRanges _)) fun _ => sampled) (evaluate_keepsRanges _))

theorem doHealth1sExpiry_keepsRanges (s : State) : KeepsRanges s (doHealth1sExpiry s) := by
  have sampled : KeepsRanges s (sampleRxa { s with health.timer1s := some 1000 }) := (sampleRxa_keepsRanges _).of_moved rfl
  exact .when fun _ => .settled (sampled.trans (evaluate_keepsRanges _))

theorem doDrainTimerExpiry_keepsRanges (s : State) : KeepsRanges s (doDrainTimerExpiry s) := by
  have forced : KeepsRanges s (forceRelease { s with path.phase := some .closing, path.drainTimer := none }) :=
    (forceRelease_keepsRanges _).of_moved rfl
  exact .when fun _ => .settled (.trans (.aside (f := dropPending) forced) (discardAtReturn_keepsRanges _))

/-- The timers of the module and its slots. -/
theorem moduleTimers_keepsRanges (s : State) :
    KeepsRanges s (doModuleResetRelease s) ∧ KeepsRanges s (doCycleTimerExpiry s) ∧ KeepsRanges s (doGrantSilenceExpiry s)
      ∧ ∀ slot, KeepsRanges s (doSendResultTimeout slot s) :=
  ⟨.when fun _ => .of_eq rfl, .when fun _ => .settled (.ite (fun _ => .of_eq) fun _ => .of_eq),
    .when fun _ => (attachedLost_keepsRanges s).settled, fun slot => .when fun _ => (timeOutSlot_keepsRanges slot s).settled⟩

/-- The timers of the Pacer and of hold memory, and the end of the drain. -/
theorem holdTimers_keepsRanges (s : State) :
    KeepsRanges s (doDrainComplete s) ∧ KeepsRanges s (doPacingTimerExpiry s) ∧ KeepsRanges s (doRefusalPauseEnd s)
      ∧ KeepsRanges s (doSweep10ms s) ∧ KeepsRanges s (doSweep1s s) := by
  refine ⟨.when fun _ => .settled (.of_eq rfl), .when fun _ => .settled ?_, .when fun _ => .settled ?_, .when fun _ => .settled ?_,
    .when fun _ => .settled ?_⟩
  · exact (placementAttempt_keepsRanges _).of_moved
  · exact (placementAttempt_keepsRanges _).of_moved rfl
  · exact (sweepVoice_keepsRanges _).of_moved rfl
  · exact (sweepData_keepsRanges _).of_moved rfl

theorem status_keepsRanges (s : State) :
    KeepsRanges s (doDeliveryEnd s) ∧ KeepsRanges s (doEventPost s) ∧ KeepsRanges s (doStatusRefreshExpiry s)
      ∧ KeepsRanges s (doStatusPageWrite s) ∧ KeepsRanges s (doSoftResetDiscard s) ∧ KeepsRanges s (doMainsReturnExpiry s)
      ∧ KeepsRanges s (doQuietTimerExpiry s) ∧ KeepsRanges s (doDozeEntrySettled s) ∧ KeepsRanges s (doDozeReached s)
      ∧ KeepsRanges s (doDozeTimerExpiry s) ∧ KeepsRanges s (doRestartEnd s) := by
  refine ⟨?_, .when fun _ => .settled .of_eq, .when fun _ => .of_eq, .when fun _ => .settled .of_eq,
    .when fun _ => (softDiscard_keepsRanges s).settled, .when fun _ => .settled ((changeMode_keepsRanges _ _ _).of_moved rfl),
    .when fun _ => .settled (.of_eq rfl), .when fun _ => .settled .of_eq, .when fun _ => .of_eq, .when fun _ => .of_eq,
    .when fun _ => (restart_keepsRanges s).settled⟩
  unfold doDeliveryEnd
  split
  · exact .when fun _ => .settled .of_eq
  · exact .refl s

/-! ### Every command and every step -/

theorem healthInRange_reset : HealthInRange Health.reset := by simp [HealthInRange, healthOk, Health.reset]

theorem countersInRange_reset : CountersInRange EventUnit.reset.counters := by simp [CountersInRange, EventUnit.reset]

theorem entriesInRange_reset : EntriesInRange EventUnit.reset.entries := by simp [EntriesInRange, EventUnit.reset]

/-- A reset gives each register with a range a value in it, whatever stood. -/
theorem resetBlocks_keepsRanges (p : LoadPhase) (s : State) : KeepsRanges s (resetBlocks p s) where
  health _ := healthInRange_reset
  takes _ := Nat.zero_le _
  queue _ := Nat.zero_le _
  waitCount _ := Nat.zero_le _
  failures _ := Nat.zero_le _
  quality _ := Nat.zero_le _
  counters _ := countersInRange_reset
  entries _ := entriesInRange_reset
  policy _ := policyInLimits_default

theorem exec_keepsRanges (c : Instr) {s t : State} (e : exec c s = .next t) : KeepsRanges s t := by
  obtain ⟨hLosLinkChange, hOffhookAssert, hOffhookDeassert, hMainsLostAssert, hMainsLostDeassert, hRiAssert⟩ := lines_keepsRanges s
  obtain ⟨hModuleReady, hAttachResult, hGrantReport, hSendResult, hCoverageLost, hDeliverDownHeader, hDeliverDownEnd, hBadCarrierHeader,
    hLinkFramingError, hLinkReceiverResync⟩ := messages_keepsRanges s
  obtain ⟨hAttachRequest, hDetachRequest, hDetachRequestSent, hSendUp, hSendUpEnd, hPauseDown, hResumeDown, hDownCap, hLowPower,
    hLowPowerSent⟩ := arbiter_keepsRanges s
  obtain ⟨hModuleResetRelease, hCycleTimerExpiry, hGrantSilenceExpiry, hSendResultTimeout⟩ := moduleTimers_keepsRanges s
  obtain ⟨hDrainComplete, hPacingTimerExpiry, hRefusalPauseEnd, hSweep10ms, hSweep1s⟩ := holdTimers_keepsRanges s
  obtain ⟨hDeliveryEnd, hEventPost, hStatusRefreshExpiry, hStatusPageWrite, hSoftResetDiscard, hMainsReturnExpiry, hQuietTimerExpiry,
    hDozeEntrySettled, hDozeReached, hDozeTimerExpiry, hRestartEnd⟩ := status_keepsRanges s
  cases c <;> cases e
  case powerOnReset => exact ((resetBlocks_keepsRanges _ (cutMaster s)).of_moved (by simp [ranged])).then_eq rfl
  case resetAsserted => exact (resetBlocks_keepsRanges _ (cutMaster s)).of_moved
  case configurationLoadEnd => exact .when fun _ => loadEnds_keepsRanges _ _ _ s
  case shadowReadsCarried => exact .when fun _ => carryHead_keepsRanges s
  case gatewayTransfer => exact gatewayTransfer_keepsRanges _ _ s
  case uReadTxpWord => exact gatewayTransfer_keepsRanges _ _ s
  case uReadRxpWord => exact gatewayTransfer_keepsRanges _ _ s
  case txpWordWrite => exact gatewayTransfer_keepsRanges _ _ s
  case txcWordWrite => exact gatewayTransfer_keepsRanges _ _ s
  case rxpWordWrite => exact gatewayTransfer_keepsRanges _ _ s
  case rxfWordWrite => exact gatewayTransfer_keepsRanges _ _ s
  case evcWordWrite => exact gatewayTransfer_keepsRanges _ _ s
  case pgenWordWrite => exact gatewayTransfer_keepsRanges _ _ s
  case txRingCompletionWrite => exact gatewayTransfer_keepsRanges _ _ s
  case staleUplinkWrite => exact gatewayTransfer_keepsRanges _ _ s
  case masterTransferCarried => exact carryHead_keepsRanges s
  case priorityScanReadReturn => exact carryWhen_keepsRanges _ s
  case descriptorReadReturn => exact carryWhen_keepsRanges _ s
  case takeEnd => exact carryWhen_keepsRanges _ s
  case deliveryDescriptorRead => exact carryWhen_keepsRanges _ s
  case handBack => exact carryWhen_keepsRanges _ s
  case policyApplied => exact carryWhen_keepsRanges _ s
  case startTimerExpiry => exact .when fun _ => expiry_keepsRanges .start s
  case attachTimerExpiry => exact .when fun _ => expiry_keepsRanges .attach s
  case backoffTimerExpiry => exact .when fun _ => expiry_keepsRanges .backoff s
  case lingerTimerExpiry => exact .when fun _ => expiry_keepsRanges .linger s
  case releaseTimerExpiry => exact .when fun _ => expiry_keepsRanges .release s
  case dwellTimerExpiry => exact .when fun _ => expiry_keepsRanges .dwell s
  case refallTimerExpiry => exact .when fun _ => nowOrRecorded_keepsRanges .refall (actRecorded_keepsRanges .refall s)
  case priorityTimerExpiry => exact .when fun _ => expiry_keepsRanges .priority s
  case losLinkChange => exact hLosLinkChange _ _
  case offhookAssert => exact hOffhookAssert
  case offhookDeassert => exact hOffhookDeassert
  case mainsLostAssert => exact hMainsLostAssert
  case mainsLostDeassert => exact hMainsLostDeassert
  case riAssert => exact hRiAssert
  case moduleReady => exact hModuleReady
  case attachResult => exact hAttachResult _
  case grantReport => exact hGrantReport _ _ _
  case sendResult => exact hSendResult _
  case coverageLost => exact hCoverageLost
  case deliverDownHeader => exact hDeliverDownHeader _ _
  case deliverDownEnd => exact hDeliverDownEnd _
  case badCarrierHeader => exact hBadCarrierHeader _ _ _
  case linkFramingError => exact hLinkFramingError
  case linkReceiverResync => exact hLinkReceiverResync
  case attachRequest => exact hAttachRequest _
  case detachRequest => exact hDetachRequest _
  case detachRequestSent => exact hDetachRequestSent
  case sendUp => exact hSendUp _
  case sendUpEnd => exact hSendUpEnd
  case pauseDown => exact hPauseDown _
  case resumeDown => exact hResumeDown _
  case downCap => exact hDownCap _
  case lowPower => exact hLowPower _
  case lowPowerSent => exact hLowPowerSent
  case moduleResetRelease => exact hModuleResetRelease
  case cycleTimerExpiry => exact hCycleTimerExpiry
  case grantSilenceExpiry => exact hGrantSilenceExpiry
  case sendResultTimeout => exact hSendResultTimeout _
  case health100msExpiry => exact doHealth100msExpiry_keepsRanges s
  case health1sExpiry => exact doHealth1sExpiry_keepsRanges s
  case drainComplete => exact hDrainComplete
  case drainTimerExpiry => exact doDrainTimerExpiry_keepsRanges s
  case pacingTimerExpiry => exact hPacingTimerExpiry
  case refusalPauseEnd => exact hRefusalPauseEnd
  case sweep10ms => exact hSweep10ms
  case sweep1s => exact hSweep1s
  case deliveryEnd => exact hDeliveryEnd
  case eventPost => exact hEventPost
  case statusRefreshExpiry => exact hStatusRefreshExpiry
  case statusPageWrite => exact hStatusPageWrite
  case softResetDiscard => exact hSoftResetDiscard
  case mainsReturnExpiry => exact hMainsReturnExpiry
  case quietTimerExpiry => exact hQuietTimerExpiry
  case dozeEntrySettled => exact hDozeEntrySettled
  case dozeReached => exact hDozeReached
  case dozeTimerExpiry => exact hDozeTimerExpiry
  case restartEnd => exact hRestartEnd

/-- A millisecond moves no register with a range. -/
theorem tick_keepsRanges (s : State) : KeepsRanges s (tick s) := by
  unfold tick
  split <;> exact .of_eq rfl

theorem step_keepsRanges {s t : State} (e : step s = .next t) : KeepsRanges s t := by
  unfold step at e
  split at e
  · cases e
    exact tick_keepsRanges s
  · rename_i c rest _
    exact (exec_keepsRanges c e).of_moved rfl

/-- Settles O8: every operation that moves a count or a health value keeps its range, and so every step does. -/
theorem countsStayInRange : Obligations.CountsStayInRange := fun _ _ e => (step_keepsRanges e).counts

/-- Settles O13: the policy in force is moved by a reset, a valid image and an applied block alone, each of which gives one in limits. -/
theorem policyStaysInLimits : Obligations.PolicyStaysInLimits := fun _ _ e => (step_keepsRanges e).policy

theorem reset_countsInRange : CountsInRange State.reset :=
  (countsInRange_iff _).2 ⟨healthInRange_reset, Nat.zero_le _, Nat.zero_le _, Nat.zero_le _, Nat.zero_le _, Nat.zero_le _,
    countersInRange_reset, entriesInRange_reset⟩

theorem reset_creditInRange : CreditInRange State.reset := by
  unfold CreditInRange creditBound
  decide

/-- No record stands after a reset: the 256 cells are all on the free list. -/
theorem reset_cellsAccounted : CellsAccounted State.reset := by
  have none_stands : allRecords State.reset = [] := rfl
  have all_free : State.reset.hold.freeList = List.range Config.cellCount := by simp only [State.reset, HoldMemory.resetWith]
  unfold CellsAccounted
  rw [none_stands, all_free]
  simp

theorem reset_blank : Blank State.reset := ⟨rfl, rfl, rfl, rfl, rfl, rfl, rfl, rfl, rfl, by decide, rfl⟩

/-- Settles O15: the reset record of each block meets its invariant. -/
theorem resetStateMeetsInvariants : Obligations.ResetStateMeetsInvariants :=
  ⟨reset_memories_wf, reset_countsInRange, reset_creditInRange, reset_cellsAccounted, fun _ => reset_blank,
    fun _ => ⟨rfl, rfl, rfl, rfl, rfl, rfl⟩, policyInLimits_default, by unfold DozeAgrees; decide⟩

end Sys2Proof.Machine
end

section
/-! The samples of the health monitor (R27, R29 to R33): SIG and TXP at the 100 ms expiry, RXA at the 1 s expiry, TXE and the activity
mark with a gateway write. -/

-- One theorem at a time, as in the model's laws: the threads of many at once would not fit the memory a check has.
set_option Elab.async false

namespace Sys2Proof.Machine

/-! ### The timed samples -/

/-- The TXP sample with a transmit reference (R31). -/
theorem sampleTxp_health {ref : Count} {s : State} (h : s.health.txReference = some ref) : (sampleTxp s).health = { s.health with
    txp := if shadowCount s .txc = ref ∧ shadowCount s .txp ≠ ref then max 1 (s.health.txp - s.loader.policy.txp.p)
      else min 253 (s.health.txp + s.loader.policy.txp.q)
    txReference := some (shadowCount s .txc) } := by
  simp only [sampleTxp, h, sample, setAttribute, recovery, penalty, attributeParams, attributeValue]
  by_cases hc : shadowCount s .txc = ref
  · by_cases hp : shadowCount s .txp = ref <;> simp [hc, hp]
  · simp [hc]

theorem sampleTxp_of_noReference {s : State} (h : s.health.txReference = none) : sampleTxp s = s := by simp [sampleTxp, h]

/-- The TXP sample leaves the other values. -/
theorem sampleTxp_others (s : State) : (sampleTxp s).health.sig = s.health.sig ∧ (sampleTxp s).health.rxa = s.health.rxa
    ∧ (sampleTxp s).health.txe = s.health.txe := by
  cases h : s.health.txReference with
  | none => simp [sampleTxp_of_noReference h]
  | some ref => simp [sampleTxp_health h]

/-- The SIG sample leaves the other values. -/
theorem sampleSig_others (s : State) : (sampleSig s).health.txp = s.health.txp ∧ (sampleSig s).health.rxa = s.health.rxa
    ∧ (sampleSig s).health.txe = s.health.txe := ⟨rfl, rfl, rfl⟩

/-- The RXA sample clears the mark (R32). -/
theorem sampleRxa_eq (s : State) : ∃ v, sampleRxa s = { s with health.rxa := v, health.activityMark := false }
    ∧ v = (if s.health.activityMark then min 253 (s.health.rxa + s.loader.policy.rxa.q)
      else max 1 (s.health.rxa - s.loader.policy.rxa.p)) :=
  ⟨_, rfl, rfl⟩

/-- The 1 s expiry in FIBRE outside DOZE (R29). -/
theorem exec_health1s {s : State} (ht : s.health.timer1s.isSome = true) (he : s.power.mode ≠ .doze) (hp : s.path.path = .fibre) :
    exec .health1sExpiry s = .next (settle (evaluate (sampleRxa { s with health.timer1s := some 1000 }))) := by
  show Host.Outcome.next (doHealth1sExpiry s) = _
  simp [doHealth1sExpiry, ht, enginesRun, he, hp]

/-- Settles O28: the expiry's sample by `sampleSig_eq`; the change of the lines ends in a wake and the standing work, which keep the health
monitor. -/
theorem sigSampleReadsTheLines : Obligations.SigSampleReadsTheLines := by
  refine ⟨fun s ht he => ?_, fun los link s => ⟨_, rfl, ?_⟩⟩
  · obtain ⟨v, hsample, hv⟩ := sampleSig_eq { s with health.timer100 := some 100 }
    refine ⟨_, exec_health100ms ht he, ?_⟩
    have sampled : (if (sampleSig { s with health.timer100 := some 100 }).path.path = .fibre
        then sampleTxp (sampleSig { s with health.timer100 := some 100 })
        else sampleSig { s with health.timer100 := some 100 }).health.sig = v := by
      split <;> simp [sampleTxp_others, hsample]
    constructor
    · simp only [settle_frame, evaluate_frame, sampled]
      exact hv
    · split <;> simp
  · unfold doLosLinkChange
    split
    · rename_i hsame
      simp_all
    · simp

/-! ### A gateway write's samples -/

theorem foldl_sampleTxe_activityMark (vs : List Byte) (s : State) :
    (vs.foldl (fun s v => sampleTxe v s) s).health.activityMark = s.health.activityMark := by
  induction vs generalizing s with
  | nil => rfl
  | cons v vs ih => simp [ih]

theorem rxfTouched_activityMark (s : State) :
    (rxfTouched s).health.activityMark = (s.health.activityMark || (s.path.path = .fibre && enginesRun s)) := by
  unfold rxfTouched
  split <;> simp [*]

/-- The mark is set by a U write with an enabled byte on the RXF word, in FIBRE outside DOZE (R32). -/
theorem reportRequester_activityMark (q : Requester) (ws : List (Nat × LaneWord)) (b s : State) :
    (reportRequester q ws b s).health.activityMark
      = (s.health.activityMark || (q = .u && covers s ws .rxf && s.path.path = .fibre && enginesRun s)) := by
  cases q with
  | p =>
    simp only [reportRequester]
    (repeat' split) <;> simp
  | o => simp [reportRequester]
  | u =>
    simp only [reportRequester, foldl_sampleTxe_activityMark]
    cases covers s ws .rxf <;> simp [rxfTouched_activityMark]

/-- What a gateway write leaves of the health monitor is what its requester's report leaves. -/
theorem carryWrite_health (q : Requester) (a : Addr) (ws : List LaneWord) (s : State) :
    (carryWrite q a ws s).health = (reportRequester q (carriedWords s q (placeWords a ws)) s
      (reportChanges s (landWords (carriedWords s q (placeWords a ws)) s))).health := by simp [carryWrite]

theorem carryWrite_activityMark (q : Requester) (a : Addr) (ws : List LaneWord) (s : State) :
    (carryWrite q a ws s).health.activityMark = (s.health.activityMark
      || (q = .u && covers s (carriedWords s q (placeWords a ws)) .rxf && s.path.path = .fibre && enginesRun s)) := by
  simp [carryWrite_health, reportRequester_activityMark, covers, enginesRun]

/-- With no guard set a U write of one word is carried whole. -/
theorem carriedWords_one {a : Addr} {l : LaneWord} {s : State} (htx : s.bus.txGuard = false) (hrx : s.bus.rxGuard = false) :
    carriedWords s .u (placeWords a [l]) = [(a.toNat / 4 * 4, l)] := by
  simp [carriedWords, placeWords_one, guardedBy_unguarded htx hrx]

/-- Settles O29: the mark by `carryWrite_activityMark`, its sample by `sampleRxa_eq`, the TXP sample by `sampleTxp_eq`. -/
theorem receiveActivityIsSampledEachSecond : Obligations.ReceiveActivityIsSampledEachSecond := by
  refine ⟨?_, ?_, ?_, ?_, ?_⟩
  · intro a l m s hm ha hl hturn htx hrx hp he
    refine ⟨_, congrArg Host.Outcome.next (gatewayTransfer_write hturn), ?_⟩
    have carried := carriedWords_one (a := a) (l := l) (s := grantGateway s) (by simpa using htx) (by simpa using hrx)
    have covered : covers (grantGateway s) [(a.toNat / 4 * 4, l)] .rxf = true := by
      simp only [covers, grantGateway_frame, hm, List.any_cons, List.any_nil, Bool.or_false, Bool.and_eq_true, beq_iff_eq, bne_iff_ne]
      exact ⟨ha, hl⟩
    simp [carryWrite_activityMark, carried, covered, hp, enginesRun, he]
  · intro q a ws s hnot hturn
    refine ⟨_, congrArg Host.Outcome.next (gatewayTransfer_write hturn), ?_⟩
    obtain hq | hp | he := hnot <;> simp [carryWrite_activityMark, enginesRun, *]
  · intro s ht he hp
    obtain ⟨v, hsample, hv⟩ := sampleRxa_eq { s with health.timer1s := some 1000 }
    refine ⟨_, exec_health1s ht he hp, ?_⟩
    rw [hsample]
    simpa using hv
  · intro ref s ht he hp href
    refine ⟨_, exec_health100ms ht he, ?_⟩
    rw [if_pos (by simpa using hp)]
    simp only [settle_frame, evaluate_frame,
      sampleTxp_health (s := sampleSig { s with health.timer100 := some 100 }) (by simpa using href)]
    exact ⟨rfl, rfl, rfl, rfl⟩
  · intro s ht he hno
    refine ⟨_, exec_health100ms ht he, ?_⟩
    by_cases hp : s.path.path = .fibre
    · have href : s.health.txReference = none := hno.resolve_left fun h => h hp
      rw [if_pos (by simpa using hp), sampleTxp_of_noReference (by simpa using href)]
      simp [sampleSig_others, hp]
    · rw [if_neg (by simpa using hp)]
      simp [sampleSig_others]

/-! ### The TXE sample -/

/-- A completion sampled in FIBRE outside DOZE (R33). -/
theorem sampleTxe_health {s : State} (hp : s.path.path = .fibre) (he : s.power.mode ≠ .doze) (v : Byte) :
    (v = 1 → (sampleTxe v s).health.txe = min 253 (s.health.txe + s.loader.policy.txe.q))
      ∧ (2 ≤ v.toNat → v.toNat ≤ 7 → (sampleTxe v s).health.txe = max 1 (s.health.txe - s.loader.policy.txe.p))
      ∧ (v = 0 ∨ 8 ≤ v.toNat → (sampleTxe v s).health.txe = s.health.txe) ∧ (sampleTxe v s).health.sig = s.health.sig
      ∧ (sampleTxe v s).health.txp = s.health.txp ∧ (sampleTxe v s).health.rxa = s.health.rxa := by
  have runs : (s.path.path = .fibre && enginesRun s) = true := by simp [hp, enginesRun, he]
  unfold sampleTxe
  rw [if_pos runs]
  by_cases hone : v = 1
  · rw [if_pos hone]
    subst hone
    simp [sample, setAttribute, recovery, attributeParams, attributeValue]
  · rw [if_neg hone]
    by_cases herr : 2 ≤ v.toNat ∧ v.toNat ≤ 7
    · rw [if_pos (by simpa using herr)]
      refine ⟨fun h => absurd h hone, fun _ _ => ?_, fun h => ?_, ?_⟩
      · simp [sample, setAttribute, penalty, attributeParams, attributeValue]
      · obtain rfl | h := h
        · simp at herr
        · omega
      · simp [sample, setAttribute]
    · rw [if_neg (by simpa using herr)]
      exact ⟨fun h => absurd h hone, fun h h' => absurd ⟨h, h'⟩ herr, fun _ => rfl, rfl, rfl, rfl⟩

/-- The one completion field a one-word write covers (R44). -/
theorem completionsIn_one {m : MemoryMap} {k a : Nat} {l : LaneWord} {s : State} (hm : s.loader.map = some m) (hk : k < m.txSize)
    (ha : a = m.txBase + 16 * k + 4) (hl : laneOn l 3 = true) : completionsIn s [(a, l)] = [wordByte l.data 3] := by
  have field : (inTxRing m a && (a - m.txBase) % 16 == 4) = true := by
    simp only [inTxRing, Bool.and_eq_true, decide_eq_true_eq, beq_iff_eq]
    omega
  simp [completionsIn, hm, field, hl, insertWord]

/-- The reports before the sample keep what it reads. -/
theorem reportRequester_completion {ws : List (Nat × LaneWord)} {v : Byte} {b s : State} (h : completionsIn s ws = [v]) :
    ∃ u, reportRequester .u ws b s = sampleTxe v u ∧ u.path.path = s.path.path ∧ u.power.mode = s.power.mode
      ∧ u.loader.policy = s.loader.policy ∧ u.health.sig = s.health.sig ∧ u.health.txp = s.health.txp ∧ u.health.rxa = s.health.rxa
      ∧ u.health.txe = s.health.txe := by
  refine ⟨if covers s ws .rxf then rxfTouched s else s, ?_, ?_⟩
  · have same : completionsIn (if covers s ws .rxf then rxfTouched s else s) ws = completionsIn s ws := by
      split <;> simp [completionsIn]
    simp only [reportRequester, same, h, List.foldl_cons, List.foldl_nil]
  · split <;> simp

/-- Settles O30: the one completion field covered by `completionsIn_one`, its sample by `sampleTxe_health`. -/
theorem macCompletionSamplesTxe : Obligations.MacCompletionSamplesTxe := by
  intro a l m k s hm hk ha hl htx hrx hturn hp he
  refine ⟨_, congrArg Host.Outcome.next (gatewayTransfer_write hturn), ?_⟩
  have carried := carriedWords_one (a := a) (l := l) (s := grantGateway s) (by simpa using htx) (by simpa using hrx)
  have field := completionsIn_one (s := reportChanges (grantGateway s) (landWords [(a.toNat / 4 * 4, l)] (grantGateway s)))
    (by simpa using hm) hk ha hl
  obtain ⟨u, hu, path, mode, policy, sig, txp, rxa, txe⟩ := reportRequester_completion (b := grantGateway s) field
  have sampled := sampleTxe_health (s := u) (by simpa [path] using hp) (by simpa [mode] using he) (wordByte l.data 3)
  rw [sig, txp, rxa, txe, policy] at sampled
  simpa [carryWrite_health, carried, hu] using sampled

end Sys2Proof.Machine
end

section
/-! The end of the configuration load (R173, R174, R175): the judgement of the image, and the start of a blank part by a valid one. -/

-- One theorem at a time, as in the model's laws: the threads of many at once would not fit the memory a check has.
set_option Elab.async false

namespace Sys2Proof.Machine

/-! ### An image that fails -/

theorem exec_configurationLoadEnd {k b : Bool} {img : List Byte} {s : State} (h : s.loader.phase = .loading) :
    exec (.configurationLoadEnd k b img) s = .next (loadEnds k b img s) := by
  show Host.Outcome.next (doConfigurationLoadEnd k b img s) = _
  rw [doConfigurationLoadEnd, if_pos h]

/-- A code other than 0 leaves the part as it was, but for the end of the load (R174). -/
theorem loadEnds_of_code {k b : Bool} {img : List Byte} {n : Nat} {s : State} (h : judgeImage k b img = n) (hn : n ≠ 0) :
    loadEnds k b img s = { s with loader.phase := .ended, loader.flashCode := n, pins.bypass := b } := by
  simp [loadEnds, h, hn]

/-- BYPASS gives code 7 whatever the image holds (R174). -/
theorem judgeImage_bypass (k : Bool) (img : List Byte) : judgeImage k true img = 7 := by simp [judgeImage]

theorem imageFails_ne_zero {k : Bool} {img : List Byte} {n : Nat} (h : ImageFails k img n) : n ≠ 0 := by
  rintro rfl
  exact h

/-! ### A valid image -/

/-- The module as the power rule leaves it from OFF (R109). -/
def startedRadio (needed : Bool) (r : RadioLink) : RadioLink :=
  if needed then { r with
    mpwr := true, mrst := true, mrstTimer := some 10, state := .starting, ready := false, startTimer := some 20000 } else r

theorem startedRadio_state (needed : Bool) (r : RadioLink) :
    (startedRadio needed r).state = if needed then .starting else r.state := by
  cases needed <;> rfl

theorem powerRule_off {s : State} (hw : partWorks s = true) (ho : s.radio.state = .off) :
    powerRule s = { s with radio := startedRadio (moduleNeeded s) s.radio } := by
  simp only [powerRule, hw, ho, startedRadio, Bool.not_true, Bool.false_eq_true, if_false]
  split <;> rfl

/-- The six shadow reads of R145 in their order. -/
def shadowReads (m : MemoryMap) : List MasterTransfer :=
  [Watched.txp, .txc, .rxp, .rxf, .evc, .pgen].map fun w => ⟨.shadowRead w, .read (addrOf (watchedAddr m w)) .one⟩

theorem shadowReads_imageMap (img : List Byte) : shadowReads (imageMap img)
    = [(Watched.txp, 32), (.txc, 36), (.rxp, 40), (.rxf, 44), (.evc, 48), (.pgen, 52)].map fun w =>
        ⟨.shadowRead w.1, .read (BitVec.ofNat 24 (quadIn img w.2)) .one⟩ := by
  simp only [shadowReads, List.map_cons, List.map_nil, watchedAddr, addrOf_wrapAddr, imageMap]

/-- A part started by an image, before its shadow reads (R175). -/
def startedPart (img : List Byte) (credit : Int) (entries : List (Option EventEntry)) (s : State) : State :=
  { s with
    loader.map := some (imageMap img)
    loader.linkClock := byteIn img 2
    loader.defaultPolicy := blockPolicy img 128
    loader.policy := blockPolicy img 128
    path.path := .fibre
    path.dwellD := (blockPolicy img 128).d0
    health.timer100 := some 100
    health.timer1s := some 1000
    health.activityMark := false
    hold.sweep10 := some 10
    hold.sweep1s := some 1000
    pacer.pacing := some 1
    pacer.credit := credit
    radio := startedRadio ((blockPolicy img 128).warm && s.power.mode == .mains) s.radio
    power.quiet := .running ((blockPolicy img 128).dozeDelay * 1000)
    events.entries := entries }

/-- The reads of the shadows are all a started part has to issue. -/
theorem settle_shadowReads {m : MemoryMap} {s : State} (hm : s.loader.map = some m) (he : s.power.mode ≠ .doze)
    (hw : s.bus.waiting = (shadowReads m).map (·.purpose)) (hq : s.bus.queue = [])
    (hrest : atRest { s with bus.waiting := [] }) (hstep : s.power.step = .awake) (hquiet : s.power.quiet ≠ .runOut) :
    settle s = { s with bus.waiting := [], bus.queue := shadowReads m } := by
  have formed : ∀ x ∈ shadowReads m, ∀ u, formTransfer u m x.purpose = some x.transfer ∧ onIssue x.purpose u = u := by
    simp [shadowReads, formTransfer, onIssue]
  have issued : issueAll s = { s with bus.waiting := [], bus.queue := shadowReads m } := by
    have pumped := pump_silent (rest := []) 58 (shadowReads m) hm he (by simpa using hw) (by simp [hq, shadowReads]) formed
    rw [hq, List.nil_append] at pumped
    rw [issueAll, show 64 = 58 + (shadowReads m).length from rfl, pumped, pump_nil 58 rfl]
  have rests : atRest { s with bus.waiting := [], bus.queue := shadowReads m } := hrest
  have awake : evalDoze { s with bus.waiting := [], bus.queue := shadowReads m }
      = { s with bus.waiting := [], bus.queue := shadowReads m } := by
    simp [evalDoze, hstep, dozeConditions, hquiet]
  rw [← awake, ← settle_atRest rests]
  simp only [settle, issued]
  rw [issueAll_idle (s := { s with bus.waiting := [], bus.queue := shadowReads m }) rfl]

/-- The blocks of a blank part as an image starts them, before the power mode's entry (R175). -/
theorem startUp_blocks (img : List Byte) {s : State} (hb : Blank s) (hp : s.loader.phase = .ended) : ∃ c,
    startUp img s = settle (requestAll ((shadowReads (imageMap img)).map (·.purpose))
      (if s.power.mode = .reserve then raiseEvent (.powerMode Config.startUpModeLeft .reserve .startUp) (startedPart img c s.events.entries s)
        else startedPart img c s.events.entries s)) := by
  unfold startUp
  extract_lets p loader health path hold pacer started powered raised
  have works : partWorks (clampCredit started) = true := by
    simp [partWorks, clampCredit, started, loader, path, hp]
  have off : (clampCredit started).radio.state = .off := by simp [clampCredit, started, hb.radio_eq, RadioLink.reset]
  have needed : moduleNeeded (clampCredit started) = ((blockPolicy img 128).warm && s.power.mode == .mains) := by
    simp [moduleNeeded, clampCredit, started, loader, path, p, hb.radio_eq, hb.path_eq, RadioLink.reset, PathController.reset,
      imagePolicy_eq]
  have hpowered : powered = startedPart img (clampCredit started).pacer.credit s.events.entries s := by
    simp only [powered, powerRule_off works off, needed]
    simp only [restartQuiet, clampCredit, started, loader, path, health, hold, pacer, p, imagePolicy_eq, mapOf_eq, field_one, startedPart]
  exact ⟨_, by simp only [raised, hpowered]; rfl⟩

/-- The start of a blank part (R175). -/
theorem startUp_blank (img : List Byte) {s : State} (hb : Blank s) (hp : s.loader.phase = .ended) : ∃ c e,
    startUp img s = { startedPart img c e s with bus.waiting := [], bus.queue := shadowReads (imageMap img) }
      ∧ (e.getD (kindPriority .powerMode - 1) none).isSome = (s.power.mode == .reserve) := by
  obtain ⟨c, hstart⟩ := startUp_blocks img hb hp
  obtain ⟨hqueue, hwaiting, _⟩ := hb.bus_fields
  obtain ⟨hstep, _⟩ := hb.power_fields
  obtain ⟨_, _, hentries⟩ := hb.events_fields
  have settled (e : List (Option EventEntry)) :
      settle (requestAll ((shadowReads (imageMap img)).map (·.purpose)) (startedPart img c e s))
        = { startedPart img c e s with bus.waiting := [], bus.queue := shadowReads (imageMap img) } := by
    refine settle_shadowReads rfl hb.mode_ne ?_ hqueue ?_ hstep (by simp [startedPart])
    · show s.bus.waiting ++ _ = _
      rw [hwaiting, List.nil_append]
    · obtain ⟨hdqV, hdqD, _⟩ := hb.hold_fields
      obtain ⟨_, hsoft, _⟩ := hb.loader_fields
      refine ⟨⟨rfl, ?_⟩, hdqV, hdqD, ?_, ?_, ?_, ?_⟩ <;>
        simp [scanWanted, startedPart, requestAll, hb.ring_eq, hb.path_eq, hb.health_eq, hsoft, RingAgent.reset, PathController.reset, Health.reset]
  have place : kindPriority .powerMode - 1 = 8 := rfl
  rw [hstart]
  by_cases hm : s.power.mode = .reserve
  · rw [if_pos hm]
    exact ⟨c, _, settled _, by simp [hm, hentries, place, detailKind, startedPart]⟩
  · rw [if_neg hm]
    exact ⟨c, _, settled _, by simp [hm, hentries, place]⟩

/-- Settles O17: the code by `judgeImage_of_first`, the start of a blank part by `startUp_blank`. -/
theorem configurationLoadEndJudges : Obligations.ConfigurationLoadEndJudges := by
  refine ⟨fun k img s hl => ?_, fun k img n s hl hn first => ?_, fun k img s hl hb hvalid => ?_⟩
  · rw [exec_configurationLoadEnd hl, loadEnds_of_code (judgeImage_bypass k img) (by decide)]
  · rw [exec_configurationLoadEnd hl, loadEnds_of_code (judgeImage_of_first hn first) (imageFails_ne_zero hn)]
  · have hblank : Blank { s with loader.phase := .ended, loader.flashCode := 0, pins.bypass := false } :=
      ⟨congrArg (fun l : Loader => { l with phase := .ended, flashCode := 0 }) hb.loader_eq, hb.2⟩
    obtain ⟨c, e, hstart, hentry⟩ := startUp_blank img hblank rfl
    refine ⟨_, exec_configurationLoadEnd hl, ?_⟩
    rw [loadEnds, judgeImage_of_valid hvalid]
    simp only [if_true]
    rw [hstart]
    refine ⟨rfl, rfl, rfl, rfl, rfl, rfl, rfl, ?_, ?_, rfl, rfl, rfl, rfl, rfl, rfl, rfl, rfl, rfl, shadowReads_imageMap img, ?_, hentry, rfl, rfl⟩
    · exact (congrArg Loader.softResetInForce hb.loader_eq).trans rfl
    · exact (congrArg Loader.counterClearInForce hb.loader_eq).trans rfl
    · refine (startedRadio_state _ _).trans ?_
      simp [hb.radio_eq, RadioLink.reset, blockPolicy]

end Sys2Proof.Machine
end

section
/-! The stages of the entry to DOZE (R156, R157, R158): its beginning, its page, the message its page's carriage asks for, and DOZE. -/

-- One theorem at a time, as in the model's laws: the threads of many at once would not fit the memory a check has.
set_option Elab.async false

namespace Sys2Proof.Machine

/-! ### The doze conditions -/

theorem evalDoze_awake_begins {s : State} (h : s.power.step = .awake) (hc : dozeConditions s = true) :
    (evalDoze s).power.step = .entering .settling := by simp [evalDoze, h, hc]

theorem evalDoze_awake_stays {s : State} (h : s.power.step = .awake) (hc : dozeConditions s = false) :
    (evalDoze s).power.step = .awake := by simp [evalDoze, h, hc]

/-- An entry goes on while the conditions hold (R157). -/
theorem evalDoze_entering {s : State} {e : EntryStage} (h : s.power.step = .entering e) (hc : dozeConditions s = true) :
    evalDoze s = s := by simp [evalDoze, h, hc]

theorem evalDoze_entering_step {s : State} {e : EntryStage} (h : s.power.step = .entering e) (hc : dozeConditions s = true) :
    (evalDoze s).power.step = .entering e := by rw [evalDoze_entering h hc, h]

/-- What the conditions say of the parts that the standing work asks about. -/
theorem dozeConditions_says {s : State} (h : dozeConditions s = true) : s.power.mode = .reserve ∧ s.path.path ≠ .returning
    ∧ s.hold.dqV = [] ∧ s.hold.dqD = [] := by
  simp only [dozeConditions, Bool.and_eq_true, beq_iff_eq, downlinkEmpty, Bool.or_eq_true] at h
  obtain ⟨⟨⟨⟨⟨⟨⟨⟨hmode, _⟩, _⟩, hpath⟩, _⟩, hdqV, hdqD⟩, _⟩, _⟩, _⟩ := h
  refine ⟨hmode, ?_, hdqV, hdqD⟩
  obtain (hp | hp) | hp := hpath <;> simp [hp]

/-! ### The entry page -/

/-- Nothing is in flight (R156). -/
theorem entrySettled_iff (s : State) : entrySettled s = true ↔ s.ring.takes = [] ∧ s.ring.delivery = none
    ∧ (∀ p, s.radio.receiver ≠ .payload p) ∧ s.loader.readState = .idle ∧ s.loader.dueAfterRestart = false ∧ s.loader.softReset = .none
    ∧ mayPost s = false ∧ s.events.pageWriting = false ∧ s.bus.queue = [] ∧ s.bus.waiting = [] := by
  unfold entrySettled
  cases s.radio.receiver <;> simp [and_assoc]

theorem entryDone_iff (s : State) : entryDone s = true ↔ s.radio.items.lowPower = none ∧ s.radio.ldo = none
    ∧ (∀ p, s.radio.receiver ≠ .payload p) ∧ s.bus.queue = [] ∧ s.bus.waiting = [] := by
  unfold entryDone
  cases s.radio.receiver <;> simp [and_assoc]

theorem length_leBytes (n v : Nat) : (leBytes n v).length = n := by simp [leBytes]

/-- The second word of the page of entry: path, radio, DOZE and allowance (R158). -/
theorem wordsOf_pageFirst_entry (s : State) : (wordsOf (pageFirst true s))[1]?
    = some ⟨wordOf [pathCode s.path.path, radioCode s.radio.state, 2, allowanceCode s.pacer.allowance], 15⟩ := by
  have bytes : ∃ rest, pageFirst true s = leBytes 4 s.events.refreshCount.toNat
      ++ ([pathCode s.path.path, radioCode s.radio.state, 2, allowanceCode s.pacer.allowance] ++ rest) :=
    ⟨_, by simp only [pageFirst, List.append_assoc]; rfl⟩
  obtain ⟨rest, hbytes⟩ := bytes
  have second : slice (pageFirst true s) 4 4 = [pathCode s.path.path, radioCode s.radio.state, 2, allowanceCode s.pacer.allowance] := by
    rw [hbytes, leBytes_four]
    rfl
  have long : 1 < (pageFirst true s).length / 4 := by
    rw [hbytes]
    simp only [List.length_append, length_leBytes, List.length_cons, List.length_nil]
    omega
  simp [wordsOf, long, second]

/-- The two halves of the page of entry joined to an empty queue (R150, R166). -/
def entryPage (m : MemoryMap) (s : State) : List MasterTransfer :=
  [⟨.pageHalf false true, .write (addrOf m.pageBase) (wordsOf (pageFirst true s))⟩,
    ⟨.pageHalf true true, .write (addrOf (m.pageBase + 64)) (wordsOf (pageSecond s))⟩]

theorem issueAll_entryPage {m : MemoryMap} {s : State} (hm : s.loader.map = some m) (he : s.power.mode ≠ .doze) (hq : s.bus.queue = [])
    (hw : s.bus.waiting = [.pageHalf false true, .pageHalf true true]) :
    issueAll s = { s with bus.waiting := [], bus.queue := entryPage m s } := by
  obtain ⟨u, hu⟩ : ∃ u : State, u = { s with
      bus.waiting := [.pageHalf true true]
      bus.queue := [⟨.pageHalf false true, .write (addrOf m.pageBase) (wordsOf (pageFirst true s))⟩] } := ⟨_, rfl⟩
  have first : issueOne (.pageHalf false true) [.pageHalf true true] s = u := by
    rw [issueOne_formed hm rfl, hq, hu]
    rfl
  have second : issueOne (.pageHalf true true) [] u = { s with bus.waiting := [], bus.queue := entryPage m s } := by
    rw [issueOne_formed (m := m) (by rw [hu]; exact hm) rfl, hu]
    rfl
  rw [issueAll, pump_cons 63 hw (by simp [hq]) he, first, pump_cons 62 (p := .pageHalf true true) (rest := []) (by rw [hu]) (by rw [hu]; simp)
    (by rw [hu]; exact he), second, pump_nil 62 rfl]

/-- Nothing but the page of entry being due, and the conditions holding, the standing work issues it. -/
theorem settle_entryPage {m : MemoryMap} {s : State} (hm : s.loader.map = some m) (hq : s.bus.queue = [])
    (hw : s.bus.waiting = [.pageHalf false true, .pageHalf true true]) (hc : dozeConditions s = true) (hstep : s.power.step = .entering .page)
    (hs : s.loader.softReset = .none) : (settle s).power.step = .entering .page ∧ entryPage m s <+: (settle s).bus.queue := by
  obtain ⟨hmode, hpath, hdqV, hdqD⟩ := dozeConditions_says hc
  have issued := issueAll_entryPage hm (by simp [hmode]) hq hw
  obtain ⟨w, q, g, a, b, c, hsettle⟩ := settle_reads (n := 0) issued (by simp [ReadsWait]) (.inl hpath) (by simp [hs]) hdqV hdqD
  obtain ⟨new, hnew, _⟩ := (settle_engineKeeps_from (n := 0) issued).passes m [] hm (by simp) List.nil_prefix
  refine ⟨?_, by rw [hnew]; exact List.prefix_append _ _⟩
  rw [hsettle]
  exact evalDoze_entering_step hstep hc

/-! ### The carriage of the page -/

theorem followWords_apart {a : Nat} {ws : List (Nat × LaneWord)} (h : ∀ p ∈ ws, p.1 ≠ a) (old : Option Word) : followWords a ws old = old := by
  have kept (v : Word) : ws.foldl (fun v p => if p.1 = a then mergeLanes v p.2 else v) v = v := by
    induction ws generalizing v with
    | nil => rfl
    | cons p ws ih =>
      rw [List.foldl_cons, if_neg (h p (by simp)), ih fun q hq => h q (by simp [hq])]
  simp [followWords, kept]

/-- A write apart from the watched words changes the memory alone (R143). -/
theorem landWords_apart {m : MemoryMap} {ws : List (Nat × LaneWord)} {s : State} (hm : s.loader.map = some m)
    (h : ∀ p ∈ ws, p.1 ∉ [watchedAddr m .txp, watchedAddr m .txc, watchedAddr m .rxp, watchedAddr m .rxf, watchedAddr m .evc,
      watchedAddr m .pgen]) : landWords ws s = { s with sram := memWriteWords s.sram ws } := by
  have apart (w : Watched) (old : Option Word) : followWords (watchedAddr m w) ws old = old :=
    followWords_apart (fun p hp heq => h p hp (by cases w <;> simp [heq])) old
  simp [landWords, hm, followAll, apart]

/-- With the shadows as they were nothing is reported (R144). -/
theorem reportChanges_same {b s : State} (h : s.bus.shadows = b.bus.shadows) : reportChanges b s = s := by
  have unchanged (w : Watched) : countChanged b s w = false := by simp [countChanged, shadowCount, shadowWord, h]
  simp [reportChanges, unchanged]

/-- What the carriage of the page of entry asks of the Radio Link Manager (R124, R158). -/
theorem tellEntry_says (s : State) :
    (moduleListens s = false ∨ s.radio.items.lowPower = some false →
        (tellEntry s).radio.items.lowPower = none ∧ (tellEntry s).radio.ldo = s.radio.ldo)
      ∧ (moduleListens s = true → s.radio.items.lowPower ≠ some false →
        (s.radio.ldo ≠ some (.lowPower true true) ∧ s.radio.ldo ≠ some (.lowPower true false)) →
        (tellEntry s).radio.items.lowPower = some true ∧ (tellEntry s).radio.ldo = s.radio.ldo)
      ∧ (moduleListens s = true → s.radio.items.lowPower ≠ some false →
        (s.radio.ldo = some (.lowPower true true) ∨ s.radio.ldo = some (.lowPower true false)) →
        (tellEntry s).radio.items.lowPower = none ∧ (tellEntry s).radio.ldo = some (.lowPower true true)) := by
  unfold tellEntry
  refine ⟨fun hoff => ?_, fun hon hnot hldo => ?_, fun hon hnot hldo => ?_⟩
  · rw [if_pos (by simpa using hoff)]
    exact ⟨rfl, rfl⟩
  · rw [if_neg (by simp [hon, hnot])]
    split
    · rename_i live hsent
      cases live <;> simp [hsent] at hldo
    · exact ⟨rfl, rfl⟩
  · rw [if_neg (by simp [hon, hnot])]
    obtain hldo | hldo := hldo <;> rw [hldo] <;> exact ⟨rfl, rfl⟩

theorem tellEntry_atRest {s : State} (h : atRest s) : atRest (tellEntry s) := by
  simpa [atRest, ringIdle, scanWanted, softResetStands] using h

theorem dozeConditions_tellEntry (s : State) : dozeConditions (tellEntry s) = dozeConditions s := by
  simp [dozeConditions, uplinkEmpty, downlinkEmpty, slotsFree]

/-- The part once the page of entry has been carried. -/
def entryPageGone (rest : List MasterTransfer) (mem : Memory) (s : State) : State :=
  { s with bus.queue := rest, bus.waitCount := 0, sram := mem, events.pageWriting := false, power.step := .entering .link }

theorem exec_entryPageCarried {a : Addr} {ws : List LaneWord} {rest : List MasterTransfer} {m : MemoryMap} {s : State}
    (hq : s.bus.queue = ⟨.pageHalf true true, .write a ws⟩ :: rest) (hm : s.loader.map = some m)
    (hapart : ∀ p ∈ placeWords a ws, p.1 ∉ [watchedAddr m .txp, watchedAddr m .txc, watchedAddr m .rxp, watchedAddr m .rxf,
      watchedAddr m .evc, watchedAddr m .pgen])
    (hstep : s.power.step = .entering .page) (hc : dozeConditions s = true) (hrest : atRest s) : ∃ mem,
    exec .masterTransferCarried s = .next (tellEntry (entryPageGone rest mem s)) := by
  obtain ⟨u, hu⟩ : ∃ u : State, u = { s with bus.queue := rest, bus.waitCount := 0 } := ⟨_, rfl⟩
  have landed : landWords (placeWords a ws) u = { u with sram := memWriteWords u.sram (placeWords a ws) } :=
    landWords_apart (by rw [hu]; exact hm) hapart
  have carried : carryMaster ⟨.pageHalf true true, .write a ws⟩ u
      = tellEntry (entryPageGone rest (memWriteWords u.sram (placeWords a ws)) s) := by
    show writeCarried (.pageHalf true true) (reportChanges u (landWords (placeWords a ws) u)) = _
    rw [landed, reportChanges_same (b := u) (s := { u with sram := memWriteWords u.sram (placeWords a ws) }) rfl, hu]
    simp only [writeCarried, entryPageCarried, hstep, if_true]
    rfl
  have rests := tellEntry_atRest (s := entryPageGone rest (memWriteWords u.sram (placeWords a ws)) s) hrest
  have goes_on := (dozeConditions_tellEntry (entryPageGone rest (memWriteWords u.sram (placeWords a ws)) s)).trans hc
  have entering : (tellEntry (entryPageGone rest (memWriteWords u.sram (placeWords a ws)) s)).power.step = .entering .link := by
    simp [entryPageGone]
  refine ⟨memWriteWords u.sram (placeWords a ws), ?_⟩
  have ran : exec .masterTransferCarried s = .next (settle (carryMaster ⟨.pageHalf true true, .write a ws⟩ u)) := by
    show Host.Outcome.next (carryHead s) = _
    rw [carryHead, hq, hu]
  rw [ran, carried, settle_atRest rests, evalDoze_entering entering goes_on]

/-! ### DOZE reached -/

/-- Settles O58: the beginning by `evalDoze_awake_begins`, the page by `settle_entryPage`, its carriage by `exec_entryPageCarried` and
`tellEntry_says`, the bars by `entrySettled_iff` and `entryDone_iff`. -/
theorem dozeEntryRunsItsStages : Obligations.DozeEntryRunsItsStages := by
  refine ⟨fun s hruns => ?_, fun m s hstep hc hsettled hm => ?_, fun a ws rest m s hq hm hapart hstep hc hrest => ?_, fun s hstep hc hdone => ?_,
    fun s hbar => ?_, fun s hbar => ?_⟩
  · have ran : exec .quietTimerExpiry s = .next (settle { s with power.quiet := .runOut }) := by
      show Host.Outcome.next (doQuietTimerExpiry s) = _
      rw [doQuietTimerExpiry, if_pos hruns]
    refine ⟨_, ran, by simp, by simp, fun hrest hawake hc => ?_, fun hrest hawake hc => ?_⟩
    · rw [settle_atRest (s := { s with power.quiet := .runOut }) hrest]
      exact evalDoze_awake_begins hawake hc
    · rw [settle_atRest (s := { s with power.quiet := .runOut }) hrest]
      exact evalDoze_awake_stays hawake hc
  · have ran : exec .dozeEntrySettled s = .next (settle (beginPage true { s with power.step := .entering .page })) := by
      show Host.Outcome.next (doDozeEntrySettled s) = _
      rw [doDozeEntrySettled, if_pos (by simp [hstep, hc, hsettled])]
    obtain ⟨_, _, _, _, _, hsoft, _, _, hqueue, hwaiting⟩ := (entrySettled_iff s).1 hsettled
    obtain ⟨hmode, _⟩ := dozeConditions_says hc
    obtain ⟨hpage, hissued⟩ := settle_entryPage (s := beginPage true { s with power.step := .entering .page }) hm hqueue
      (by simp [beginPage, hwaiting]) hc rfl hsoft
    refine ⟨_, ran, hpage, by simp [hmode], by simp [beginPage], _, _, hissued, ?_⟩
    exact wordsOf_pageFirst_entry (beginPage true { s with power.step := .entering .page })
  · obtain ⟨mem, ran⟩ := exec_entryPageCarried hq hm hapart hstep hc hrest
    obtain ⟨hmode, _⟩ := dozeConditions_says hc
    exact ⟨_, ran, by simp [entryPageGone], by simp [entryPageGone, hmode], by simp [entryPageGone], tellEntry_says (entryPageGone rest mem s)⟩
  · show Host.Outcome.next (doDozeReached s) = _
    rw [doDozeReached, if_pos (by simp [hstep, hc, hdone])]
    rfl
  · have barred : ¬ (entrySettled s = true ∧ dozeConditions s = true) := by
      rw [entrySettled_iff]
      rintro ⟨⟨htakes, hdelivery, hreceiver, hread, hdue, hsoft, hpost, hpage, hqueue, hwaiting⟩, hc⟩
      simp_all
    show Host.Outcome.next (doDozeEntrySettled s) = _
    rw [doDozeEntrySettled, if_neg fun h => barred (by simp_all)]
  · have barred : ¬ (entryDone s = true ∧ dozeConditions s = true) := by
      rw [entryDone_iff]
      rintro ⟨⟨hitem, hldo, hreceiver, hqueue, hwaiting⟩, hc⟩
      simp_all
    show Host.Outcome.next (doDozeReached s) = _
    rw [doDozeReached, if_neg fun h => barred (by simp_all)]

end Sys2Proof.Machine
end

section
/-! A command's end while only reads wait: what a delivery, the scan and an issue leave of the ring and of a Bus Anomaly (R50, R51, R150). -/

-- One theorem at a time, as in the model's laws: the threads of many at once would not fit the memory a check has.
set_option Elab.async false

namespace Sys2Proof.Machine

theorem judgeDelivery_reads (s : State) : ReadsKept s (judgeDelivery s) := by
  have dropped : ReadsKept s (dropOldDqV s) :=
    .trans (t := { s with hold.dqV := s.hold.dqV.dropWhile (voiceTooOld s) }) (.of_eq rfl) (loseAll_reads _ _ _)
  have begun (r : FrameRecord) (u : State) : ReadsKept u (beginDelivery r u) := .of_asks (ps := [.receiveDescriptorRead]) rfl (by simp [readRequest])
  unfold judgeDelivery
  dsimp only
  (repeat' split)
  · exact fun hs => begun _ _ (dropped hs)
  · exact fun hs => begun _ _ (dropped hs)
  · exact dropped
  · exact id

/-- No hand-back is due: the part neither closes nor completes a soft reset, or the write is asked for, or something is awaited (R18, R24). -/
abbrev HandBackBarred (s : State) : Prop :=
  ((s.path.path ≠ .returning ∨ s.path.phase ≠ some .closing) ∧ s.loader.softReset ≠ .completing) ∨ s.ring.handBackAsked = true ∨ closed s = false

theorem judgeDelivery_barred {s : State} (h : HandBackBarred s) : HandBackBarred (judgeDelivery s) := by
  cases hm : mayDeliver s
  · simpa [judgeDelivery, hm] using h
  · have offHandBack : (s.path.path ≠ .returning ∨ s.path.phase ≠ some .closing) ∧ s.loader.softReset ≠ .completing := by
      simp only [mayDeliver, softResetStands, Bool.and_eq_true, Bool.or_eq_true, beq_iff_eq, Bool.not_eq_true'] at hm
      obtain ⟨⟨⟨⟨⟨hpath, _⟩, _⟩, _⟩, _⟩, hsoft⟩ := hm
      refine ⟨?_, ?_⟩
      · obtain ((hp | hp) | hp) | ⟨hp, hph⟩ := hpath <;> simp [*]
      · rintro hso
        simp [hso] at hsoft
    exact .inl (by simpa using offHandBack)

theorem tryHandBack_barred {s : State} (h : HandBackBarred s) : tryHandBack s = s := by
  obtain ⟨hph | hph, hso⟩ | hasked | hopen := h
  · simp [tryHandBack, hph, hso]
  · exact tryHandBack_idle hph hso
  · simp [tryHandBack, hasked]
  · simp [tryHandBack, hopen]

/-- What a delivery loses is told as a loss, so a pending Bus Anomaly stands (R73, R78). -/
theorem judgeDelivery_anomaly (s : State) : entryOfKind (judgeDelivery s) .busAnomaly = entryOfKind s .busAnomaly := by
  have lost (reason : LossReason) (r : FrameRecord) (u : State) :
      entryOfKind (loseRecord reason r u) .busAnomaly = entryOfKind u .busAnomaly := by
    have told : entryOfKind (reportLoss reason r u) .busAnomaly = entryOfKind u .busAnomaly := by
      refine (entryOfKind_raiseEvent_ne ?_ _).trans (by simp [entryOfKind])
      simp only [lossDetail]
      split <;> simp [detailKind]
    rw [← told]
    simp [loseRecord, entryOfKind]
  have dropped : entryOfKind (dropOldDqV s) .busAnomaly = entryOfKind s .busAnomaly :=
    foldl_keeps (entryOfKind · .busAnomaly) (fun u r => loseRecord .expired r u) _ { s with hold.dqV := s.hold.dqV.dropWhile (voiceTooOld s) }
      fun u r => lost .expired r u
  unfold judgeDelivery
  dsimp only
  (repeat' split) <;> first | exact dropped | rfl

/-- With only reads waiting and no hand-back due, the standing work may begin a delivery; besides it moves the line and the queue, the
PGEN value kept for an application, the scan, and what the doze conditions move (R150, R157). -/
theorem settle_reading {s v : State} {n : Nat} (h : issueAll s = pump n v) (hr : ReadsWait v) (hb : HandBackBarred v) :
    ∃ w q g w' q' g' a b c, settle s = evalDoze { judgeDelivery { v with bus.waiting := w, bus.queue := q, loader.pgenAtIssue := g } with
      bus.waiting := w', bus.queue := q', loader.pgenAtIssue := g', ring.scanRunning := a, ring.scanMark := b, ring.scanRead := c } := by
  obtain ⟨w₁, q₁, g₁, h₁, hr₁⟩ := pump_reads n hr
  generalize hd : judgeDelivery { v with bus.waiting := w₁, bus.queue := q₁, loader.pgenAtIssue := g₁ } = d
  have reading : ReadsWait d := hd ▸ judgeDelivery_reads _ hr₁
  obtain ⟨w₂, a, b, c, h₂⟩ := evalScan_quiet d
  obtain ⟨w₃, q₃, g₃, h₃, hr₃⟩ := pump_reads 64 (evalScan_reads d reading)
  obtain ⟨w₄, q₄, g₄, h₄, _⟩ := pump_reads 64 (s := pump 64 (evalScan d)) (by rw [h₃]; exact hr₃)
  have handed : tryHandBack (pump 64 (evalScan d)) = pump 64 (evalScan d) := by
    refine tryHandBack_barred ?_
    have barred : HandBackBarred d := hd ▸ judgeDelivery_barred hb
    rw [h₃, h₂]
    exact barred
  refine ⟨w₁, q₁, g₁, w₄, q₄, g₄, a, b, c, ?_⟩
  rw [hd, settle, h, h₁, hd]
  show evalDoze (pump 64 (tryHandBack (pump 64 (evalScan d)))) = _
  rw [handed, h₄, h₃, h₂]

/-- While only reads wait and no hand-back is due, the descriptor read in flight and the transmit overrun stand (R50, R51, R150). -/
theorem settle_reading_leaves {s v : State} {n : Nat} (h : issueAll s = pump n v) (hr : ReadsWait v) (hb : HandBackBarred v) :
    (settle s).ring.descriptorRead = v.ring.descriptorRead ∧ (settle s).ring.overrun = v.ring.overrun := by
  obtain ⟨w, q, g, w', q', g', a, b, c, ht⟩ := settle_reading h hr hb
  simp [ht]

/-- The receive overrun and a pending Bus Anomaly stand while only reads and the hand-back's write wait. -/
structure AnomalyKeeps (s t : State) : Prop extends CalmKeeps s t where
  stands : (∀ p ∈ s.bus.waiting, calmRequest p = true) → t.ring.rxOverrun = s.ring.rxOverrun ∧ entryOfKind t .busAnomaly = entryOfKind s .busAnomaly

namespace AnomalyKeeps

theorem refl (s : State) : AnomalyKeeps s s := ⟨.refl s, fun _ => ⟨rfl, rfl⟩⟩

theorem trans {s t u : State} (h : AnomalyKeeps s t) (h' : AnomalyKeeps t u) : AnomalyKeeps s u where
  toCalmKeeps := h.toCalmKeeps.trans h'.toCalmKeeps
  stands hs := by
    obtain ⟨hrx, hdetail⟩ := h.stands hs
    obtain ⟨hrx', hdetail'⟩ := h'.stands (h.calm hs).1
    exact ⟨hrx'.trans hrx, hdetail'.trans hdetail⟩

theorem of_calm {s t : State} (h : CalmKeeps s t) (hrx : t.ring.rxOverrun = s.ring.rxOverrun := by simp)
    (hdetail : entryOfKind t .busAnomaly = entryOfKind s .busAnomaly := by simp [entryOfKind]) : AnomalyKeeps s t :=
  ⟨h, fun _ => ⟨hrx, hdetail⟩⟩

end AnomalyKeeps

theorem issueOne_anomaly {s : State} {p : Purpose} {rest : List Purpose} (hw : s.bus.waiting = p :: rest) : AnomalyKeeps s (issueOne p rest s) := by
  refine ⟨issueOne_calm hw, fun hs => ?_⟩
  have calm : calmRequest p = true := hs p (by simp [hw])
  simp only [issueOne]
  (repeat' split)
  · exact ⟨rfl, rfl⟩
  · exact ⟨rfl, rfl⟩
  · rename_i x _
    obtain h | ⟨_, h⟩ := onIssue_calm calm { s with bus.waiting := rest, bus.queue := s.bus.queue ++ [⟨p, x⟩] } <;> rw [h] <;> exact ⟨rfl, rfl⟩

theorem pump_anomaly (n : Nat) (s : State) : AnomalyKeeps s (pump n s) := by
  induction n generalizing s with
  | zero => exact .refl s
  | succ n ih =>
    unfold pump
    split
    · exact .refl s
    · split
      · exact (issueOne_anomaly ‹_›).trans (ih _)
      · exact .refl s

theorem settle_anomaly (s : State) : AnomalyKeeps s (settle s) :=
  settle_of_steps .trans pump_anomaly (fun s => .of_calm (judgeDelivery_calm s) (by simp) (judgeDelivery_anomaly s))
    (fun s => .of_calm (evalScan_calm s)) (fun s => .of_calm (tryHandBack_calm s)) (fun s => .of_calm (evalDoze_calm s)) (n := 64) rfl

end Sys2Proof.Machine
end

section
/-! A gateway write of one word on a producer's word: the landing, its reports, and its P wake (R143, R144, R156, R159). -/

-- One theorem at a time, as in the model's laws: the threads of many at once would not fit the memory a check has.
set_option Elab.async false

namespace Sys2Proof.Machine

/-! ### A gateway write of one word on a producer's word -/

/-- A word written on the TXP word moves its shadow alone (R143). -/
theorem landWords_txp {m : MemoryMap} {l : LaneWord} {v : Word} {s : State} (hm : s.loader.map = some m) (hapart : watchedApart m)
    (hv : s.bus.shadows.txp = some v) : ∃ mem, landWords [(watchedAddr m .txp, l)] s
      = { s with sram := mem, bus.shadows.txp := some (mergeLanes v l) } := by
  refine ⟨memWriteWords s.sram [(watchedAddr m .txp, l)], ?_⟩
  simp only [List.nodup_cons, List.mem_cons, List.not_mem_nil, or_false, not_or] at hapart
  obtain ⟨⟨h1, h2, h3, h4, h5⟩, _⟩ := hapart
  simp [landWords, hm, followAll, followWords, hv, h1, h2, h3, h4, h5]

theorem landWords_rxp {m : MemoryMap} {l : LaneWord} {v : Word} {s : State} (hm : s.loader.map = some m) (hapart : watchedApart m)
    (hv : s.bus.shadows.rxp = some v) : ∃ mem, landWords [(watchedAddr m .rxp, l)] s
      = { s with sram := mem, bus.shadows.rxp := some (mergeLanes v l) } := by
  refine ⟨memWriteWords s.sram [(watchedAddr m .rxp, l)], ?_⟩
  simp only [List.nodup_cons, List.mem_cons, List.not_mem_nil, or_false, not_or] at hapart
  obtain ⟨⟨_, h1, _⟩, ⟨h2, _⟩, ⟨h3, h4, h5⟩, _⟩ := hapart
  simp [landWords, hm, followAll, followWords, hv, Ne.symm h1, Ne.symm h2, h3, h4, h5]

/-- One word that no guard drops: its landing and its reports (R143, R144). -/
theorem carryWrite_one {q : Requester} {a : Addr} {l : LaneWord} {x : Nat} {s : State} (ha : a.toNat / 4 * 4 = x)
    (hg : q ≠ .u ∨ guardedBy s x = none) :
    carryWrite q a [l] s = reportRequester q [(x, l)] s (reportChanges s (landWords [(x, l)] s)) := by
  have placed : placeWords a [l] = [(x, l)] := by rw [placeWords_one, ha]
  have kept : carriedWords s q [(x, l)] = [(x, l)] := by
    obtain h | h := hg <;> simp [carriedWords, h]
  have dropped : droppedWords s q [(x, l)] = [] := by
    obtain h | h := hg <;> simp [droppedWords, h]
  simp only [carryWrite, placed, kept, dropped, reportStale]

/-- The report by its requester of a write of one word on the TXP word, off FIBRE: a P write with an enabled byte wakes (R144). -/
def producerTouched (q : Requester) (l : LaneWord) (s : State) : State := if q = .p ∧ l.lanes ≠ 0 then txpTouched s else s

@[simp] theorem producerTouched_frame (q : Requester) (l : LaneWord) (s : State) :
    (producerTouched q l s).bus = s.bus ∧ (producerTouched q l s).ring = s.ring ∧ (producerTouched q l s).events = s.events
    ∧ (producerTouched q l s).loader = s.loader ∧ (producerTouched q l s).path = s.path ∧ (producerTouched q l s).hold = s.hold
    ∧ (producerTouched q l s).power.mode = s.power.mode := by
  unfold producerTouched
  split <;> simp

/-- Off FIBRE a U write is told neither as receive activity nor as a completion (R32, R33, R144). -/
theorem reportRequester_u_offFibre {ws : List (Nat × LaneWord)} {b s : State} (hp : s.path.path ≠ .fibre) : reportRequester .u ws b s = s := by
  have untouched : rxfTouched s = s := by simp [rxfTouched, hp]
  have one (v : Byte) : sampleTxe v s = s := by simp [sampleTxe, hp]
  have unsampled (vs : List Byte) : vs.foldl (fun s v => sampleTxe v s) s = s := by
    induction vs with
    | nil => rfl
    | cons v vs ih => rw [List.foldl_cons, one, ih]
  simp [reportRequester, untouched, unsampled]

theorem reportRequester_txp {q : Requester} {m : MemoryMap} {l : LaneWord} {b s : State} (hm : s.loader.map = some m) (hapart : watchedApart m)
    (hp : s.path.path ≠ .fibre) : reportRequester q [(watchedAddr m .txp, l)] b s = producerTouched q l s := by
  simp only [List.nodup_cons, List.mem_cons, List.not_mem_nil, or_false, not_or] at hapart
  obtain ⟨⟨_, _, _, _, hpgen⟩, _⟩ := hapart
  cases q
  case p =>
    by_cases hl : l.lanes = 0#4 <;> simp [reportRequester, covers, hm, hpgen, producerTouched, hl]
  case u => simp [reportRequester_u_offFibre hp, producerTouched]
  case o => simp [reportRequester, producerTouched]

theorem reportRequester_rxp {q : Requester} {m : MemoryMap} {l : LaneWord} {b s : State} (hm : s.loader.map = some m) (hapart : watchedApart m)
    (hp : s.path.path ≠ .fibre) : reportRequester q [(watchedAddr m .rxp, l)] b s = s := by
  simp only [List.nodup_cons, List.mem_cons, List.not_mem_nil, or_false, not_or] at hapart
  obtain ⟨⟨_, htxp, _⟩, _, ⟨_, _, hpgen⟩, _⟩ := hapart
  cases q
  case p => simp [reportRequester, covers, hm, Ne.symm htxp, hpgen]
  case u => exact reportRequester_u_offFibre hp
  case o => rfl

/-- The state in which a write's new TXP count is told: the word has landed. -/
theorem carryWrite_txp {q : Requester} {a : Addr} {l : LaneWord} {m : MemoryMap} {v : Word} {s : State} (hm : s.loader.map = some m)
    (hapart : watchedApart m) (ha : onWatched m .txp a) (hg : q ≠ .u ∨ guardedBy s (watchedAddr m .txp) = none)
    (hp : s.path.path ≠ .fibre) (hv : s.bus.shadows.txp = some v) :
    ∃ mem z, z = { s with sram := mem, bus.shadows.txp := some (mergeLanes v l) }
      ∧ carryWrite q a [l] s = producerTouched q l (if countOf (mergeLanes v l) = countOf v then z else txpChanged s z) := by
  obtain ⟨mem, hland⟩ := landWords_txp (l := l) hm hapart hv
  refine ⟨mem, _, rfl, ?_⟩
  have changes : reportChanges s { s with sram := mem, bus.shadows.txp := some (mergeLanes v l) }
      = if countOf (mergeLanes v l) = countOf v then { s with sram := mem, bus.shadows.txp := some (mergeLanes v l) }
        else txpChanged s { s with sram := mem, bus.shadows.txp := some (mergeLanes v l) } := by
    by_cases hc : countOf (mergeLanes v l) = countOf v
    · simp [reportChanges, countChanged, shadowCount, shadowWord, shadowOf, hv, hc]
    · simp [reportChanges, countChanged, shadowCount, shadowWord, shadowOf, hv, hc, Ne.symm hc]
  rw [carryWrite_one ha hg, hland, changes]
  split
  · exact reportRequester_txp hm hapart hp
  · exact reportRequester_txp (by simpa using hm) hapart (by simpa using hp)

theorem carryWrite_rxp {q : Requester} {a : Addr} {l : LaneWord} {m : MemoryMap} {v : Word} {s : State} (hm : s.loader.map = some m)
    (hapart : watchedApart m) (ha : onWatched m .rxp a) (hg : q ≠ .u ∨ guardedBy s (watchedAddr m .rxp) = none)
    (hp : s.path.path ≠ .fibre) (hv : s.bus.shadows.rxp = some v) :
    ∃ mem z, z = { s with sram := mem, bus.shadows.rxp := some (mergeLanes v l) }
      ∧ carryWrite q a [l] s = if countOf (mergeLanes v l) = countOf v then z else checkRxOverrun z := by
  obtain ⟨mem, hland⟩ := landWords_rxp (l := l) hm hapart hv
  refine ⟨mem, _, rfl, ?_⟩
  have changes : reportChanges s { s with sram := mem, bus.shadows.rxp := some (mergeLanes v l) }
      = if countOf (mergeLanes v l) = countOf v then { s with sram := mem, bus.shadows.rxp := some (mergeLanes v l) }
        else checkRxOverrun { s with sram := mem, bus.shadows.rxp := some (mergeLanes v l) } := by
    by_cases hc : countOf (mergeLanes v l) = countOf v
    · simp [reportChanges, countChanged, shadowCount, shadowWord, shadowOf, hv, hc]
    · simp [reportChanges, countChanged, shadowCount, shadowWord, shadowOf, hv, hc, Ne.symm hc]
  rw [carryWrite_one ha hg, hland, changes]
  split
  · exact reportRequester_rxp hm hapart hp
  · exact reportRequester_rxp (by simpa using hm) hapart (by simpa using hp)

/-! ### The wake of a P write (R144, R156, R157, R159) -/

theorem wakeSource_awake {w : WakeSource} {s : State} (h : s.power.step = .awake) : wakeSource w s = s := by simp only [wakeSource, h]

theorem wakeSource_entering {w : WakeSource} {e : EntryStage} {s : State} (h : s.power.step = .entering e) :
    wakeSource w s = restartQuiet (abandonEntry s) := by simp only [wakeSource, h]

theorem wakeSource_restarting {w : WakeSource} {s : State} (h : s.power.step = .restarting) :
    wakeSource w s = { s with power.latch := latchSource w s.power.latch } := by simp only [wakeSource, h]

theorem txpTouched_awake {s : State} (he : s.power.mode ≠ .doze) (hd : s.power.step ≠ .dozing) (hr : s.power.step ≠ .restarting) :
    (txpTouched s).power.step = .awake ∧ (txpTouched s).power.quiet = .running (s.loader.policy.dozeDelay * 1000) := by
  have told : txpTouched s = wakeSource .txpWrite (restartQuiet s) := by simp [txpTouched, enginesRun, he]
  rw [told]
  cases hs : s.power.step
  case dozing => contradiction
  case restarting => contradiction
  case awake => exact ⟨by rw [wakeSource_awake (s := restartQuiet s) hs]; exact hs, by rw [wakeSource_awake (s := restartQuiet s) hs]; rfl⟩
  case entering e => rw [wakeSource_entering (s := restartQuiet s) hs]; simp

theorem txpTouched_doze {s : State} (he : s.power.mode = .doze) : txpTouched s = wakeSource .txpWrite s := by
  simp [txpTouched, enginesRun, he]

/-- A PGEN write told to an awake unit leaves it as it is; told in a restart it is latched besides (R159). -/
theorem pgenTouched_power (b s : State) : (s.power.step = .awake → (pgenTouched b s).power = s.power)
    ∧ (s.power.step = .restarting → (pgenTouched b s).power = { s.power with latch := latchSource .pgenWrite s.power.latch }) := by
  have wanted : (if b.bus.shadows.pgen != s.bus.shadows.pgen then wantRead s else s).power = s.power := by
    split <;> simp
  rw [pgenTouched]
  generalize (if b.bus.shadows.pgen != s.bus.shadows.pgen then wantRead s else s) = u at *
  rw [← wanted]
  exact ⟨fun h => by rw [wakeSource_awake h], fun h => by rw [wakeSource_restarting h]⟩

/-- A P write with an enabled byte on the TXP word is told to the Power Mode Unit, whatever else the word is (R144). -/
theorem carryWrite_wakes {a : Addr} {l : LaneWord} {m : MemoryMap} {s : State} (hm : s.loader.map = some m) (ha : onWatched m .txp a)
    (hl : l.lanes ≠ 0) : ∃ u, u.power = s.power ∧ u.loader = s.loader
      ∧ (carryWrite .p a [l] s = txpTouched u ∨ carryWrite .p a [l] s = pgenTouched s (txpTouched u)) := by
  refine ⟨reportChanges s (landWords [(watchedAddr m .txp, l)] s), by simp, by simp, ?_⟩
  rw [carryWrite_one ha (.inl (by simp))]
  generalize hu : reportChanges s (landWords [(watchedAddr m .txp, l)] s) = u
  have covered : covers u [(watchedAddr m .txp, l)] .txp = true := by
    have map : u.loader.map = some m := by simp [← hu, hm]
    simpa [covers, map] using hl
  simp only [reportRequester, covered, if_true]
  split
  · exact .inr rfl
  · exact .inl rfl

/-- Outside DOZE the quiet timer restarts and an entry to DOZE is abandoned, to the command's end (R156, R157). -/
theorem settle_wakes_awake {a : Addr} {l : LaneWord} {m : MemoryMap} {s : State} (hm : s.loader.map = some m) (ha : onWatched m .txp a)
    (hl : l.lanes ≠ 0) (he : s.power.mode ≠ .doze) (hd : s.power.step ≠ .dozing) (hr : s.power.step ≠ .restarting) :
    (settle (carryWrite .p a [l] s)).power.quiet = .running (s.loader.policy.dozeDelay * 1000)
      ∧ (settle (carryWrite .p a [l] s)).power.step = .awake := by
  obtain ⟨u, hpower, hloader, hcarry⟩ := carryWrite_wakes hm ha hl
  obtain ⟨hstep, hquiet⟩ := txpTouched_awake (s := u) (by rwa [hpower]) (by rwa [hpower]) (by rwa [hpower])
  have same : (carryWrite .p a [l] s).power = (txpTouched u).power := by
    obtain h | h := hcarry <;> rw [h]
    exact (pgenTouched_power _ _).1 hstep
  rw [hloader] at hquiet
  refine ⟨by simp [same, hquiet], settle_stays_awake (by rw [same, hstep]) ?_⟩
  rw [same, hquiet]
  simp

/-- In DOZE the write is latched and begins the restart (R159, R160). -/
theorem settle_wakes_dozing {a : Addr} {l : LaneWord} {m : MemoryMap} {s : State} (hm : s.loader.map = some m) (ha : onWatched m .txp a)
    (hl : l.lanes ≠ 0) (he : s.power.mode = .doze) (hs : s.power.step = .dozing) :
    let t := settle (carryWrite .p a [l] s)
    t.power.mode = .doze ∧ t.power.step = .restarting ∧ t.power.restart = some 2 ∧ t.power.dozeTimer = none ∧ t.power.latch.txpWrite = true := by
  obtain ⟨u, hpower, _, hcarry⟩ := carryWrite_wakes hm ha hl
  have woken : (txpTouched u).power = { u.power with
      latch := latchSource .txpWrite u.power.latch, step := .restarting, restart := some 2, dozeTimer := none } := by
    rw [txpTouched_doze (by rw [hpower, he]), wakeSource_dozing (by rw [hpower, hs])]
  have latched : ∃ k, k.txpWrite = true ∧ (carryWrite .p a [l] s).power = { u.power with
      latch := k, step := .restarting, restart := some 2, dozeTimer := none } := by
    obtain h | h := hcarry <;> rw [h]
    · exact ⟨_, rfl, woken⟩
    · refine ⟨latchSource .pgenWrite (latchSource .txpWrite u.power.latch), rfl, ?_⟩
      rw [(pgenTouched_power _ _).2 (by rw [woken]), woken]
  obtain ⟨k, hk, hend⟩ := latched
  intro t
  have power : t.power = (carryWrite .p a [l] s).power := settle_restarting_power (by simp [hend, hpower, he]) (by rw [hend])
  rw [power, hend]
  exact ⟨by rw [hpower]; exact he, rfl, rfl, rfl, hk⟩

/-! ### The overrun checks (R50, R66, R129) -/

/-- A transmit check outside DOZE, with the indication clear before it. -/
theorem checkTxOverrun_judges {s : State} (hr : holdsRings s = true) (he : s.power.mode ≠ .doze) (hclear : s.ring.overrun = false)
    (hlen : s.events.entries.length = 11) :
    (txSize s < dist (consumerRef s) (shadowCount s .txp) → (checkTxOverrun s).ring.overrun = true
      ∧ detailOfKind (checkTxOverrun s) .busAnomaly = some (.producerOverrun .transmit (shadowCount s .txp)))
    ∧ (dist (consumerRef s) (shadowCount s .txp) ≤ txSize s → (checkTxOverrun s).ring.overrun = false
      ∧ entryOfKind (checkTxOverrun s) .busAnomaly = entryOfKind s .busAnomaly) := by
  have judged : checkTxOverrun s = judgeTxOverrun s := by simp [checkTxOverrun, hr, enginesRun, he]
  rw [judged]
  refine ⟨fun h => ?_, fun h => ?_⟩
  · have beyond : txOverrunNow s = true := by simpa [txOverrunNow, hr] using h
    have raised : judgeTxOverrun s = raiseEvent (.producerOverrun .transmit (shadowCount s .txp)) { s with ring.overrun := true } := by
      simp [judgeTxOverrun, beyond, hclear]
    rw [raised]
    exact ⟨by simp, detailOfKind_raiseEvent (d := .producerOverrun .transmit _) hlen⟩
  · have within : txOverrunNow s = false := by simpa [txOverrunNow, hr] using h
    simp [judgeTxOverrun, within, entryOfKind]

/-- A receive check outside DOZE, with the indication clear before it. -/
theorem checkRxOverrun_judges {s : State} (hr : holdsRings s = true) (he : s.power.mode ≠ .doze) (hclear : s.ring.rxOverrun = false)
    (hlen : s.events.entries.length = 11) :
    (rxSize s < dist (rxConsumerRef s) (shadowCount s .rxp) → (checkRxOverrun s).ring.rxOverrun = true
      ∧ detailOfKind (checkRxOverrun s) .busAnomaly = some (.producerOverrun .receive (shadowCount s .rxp)))
    ∧ (dist (rxConsumerRef s) (shadowCount s .rxp) ≤ rxSize s → (checkRxOverrun s).ring.rxOverrun = false
      ∧ entryOfKind (checkRxOverrun s) .busAnomaly = entryOfKind s .busAnomaly) := by
  have judged : checkRxOverrun s = judgeRxOverrun s := by simp [checkRxOverrun, hr, enginesRun, he]
  rw [judged]
  refine ⟨fun h => ?_, fun h => ?_⟩
  · have beyond : rxOverrunNow s = true := by simpa [rxOverrunNow] using h
    have raised : judgeRxOverrun s = raiseEvent (.producerOverrun .receive (shadowCount s .rxp)) { s with ring.rxOverrun := true } := by
      simp [judgeRxOverrun, beyond, hclear]
    rw [raised]
    exact ⟨by simp, detailOfKind_raiseEvent (d := .producerOverrun .receive _) hlen⟩
  · have within : rxOverrunNow s = false := by simpa [rxOverrunNow] using h
    simp [judgeRxOverrun, within, entryOfKind]

/-- In DOZE the standing work leaves the two overruns, the checks due and the entries (R66, R152). -/
theorem settle_doze_rings {s : State} (h : s.power.mode = .doze) : (settle s).ring.overrun = s.ring.overrun
    ∧ (settle s).ring.rxOverrun = s.ring.rxOverrun ∧ (settle s).ring.txCheckDue = s.ring.txCheckDue
    ∧ (settle s).ring.rxCheckDue = s.ring.rxCheckDue ∧ (settle s).events.entries = s.events.entries := by
  have idle {u : State} (hu : u.power.mode = .doze) : issueAll u = u := by
    show pump 64 u = u
    rw [pump]
    split <;> simp [enginesRun, hu]
  have undelivered : judgeDelivery s = s := by simp [judgeDelivery, mayDeliver, enginesRun, h]
  obtain ⟨w, a, b, c, scanned⟩ := evalScan_quiet s
  have still : issueAll (evalScan s) = evalScan s := idle (by simp [h])
  have handed : issueAll (tryHandBack (evalScan s)) = tryHandBack (evalScan s) := idle (by simp [h])
  have standing : settle s = evalDoze (tryHandBack (evalScan s)) := by rw [settle, idle h, undelivered, still, handed]
  rw [standing]
  simp

end Sys2Proof.Machine
end

section
/-! A producer's new count to the command's end: the overrun checks (R50, R66, R129) and the next descriptor read (R49, R51). -/

-- One theorem at a time, as in the model's laws: the threads of many at once would not fit the memory a check has.
set_option Elab.async false

namespace Sys2Proof.Machine

/-! ### The producer clauses -/

theorem exec_txpWordWrite {q : Requester} {a : Addr} {ws : List LaneWord} {s : State} (h : masterTurn s = false) :
    exec (.txpWordWrite q a ws) s = .next (settle (carryWrite q a ws (grantGateway s))) :=
  congrArg Host.Outcome.next (gatewayTransfer_write h)

theorem exec_rxpWordWrite {q : Requester} {a : Addr} {ws : List LaneWord} {s : State} (h : masterTurn s = false) :
    exec (.rxpWordWrite q a ws) s = .next (settle (carryWrite q a ws (grantGateway s))) :=
  congrArg Host.Outcome.next (gatewayTransfer_write h)

theorem notFibre_of_holdsRings {s : State} (h : holdsRings s = true) : s.path.path ≠ .fibre := by
  intro hp
  simp [holdsRings, hp] at h

/-- The conditions under which a requester's write of one word reaches the word: no turn of the master's, and no guard in U's way (R148, R151). -/
theorem granted_unguarded {q : Requester} {a : Nat} {s : State} (hg : q ≠ .u ∨ (s.bus.txGuard = false ∧ s.bus.rxGuard = false)) :
    q ≠ .u ∨ guardedBy (grantGateway s) a = none :=
  hg.imp_right fun ⟨htx, hrx⟩ => guardedBy_unguarded (by simpa using htx) (by simpa using hrx)

/-- A granted gateway write of one word has landed on the TXP word; what it brings is still to be told. -/
def txpLanded (mem : Memory) (w : Word) (s : State) : State := { grantGateway s with sram := mem, bus.shadows.txp := some w }

/-- A granted gateway write of one word has landed on the RXP word; what it brings is still to be told. -/
def rxpLanded (mem : Memory) (w : Word) (s : State) : State := { grantGateway s with sram := mem, bus.shadows.rxp := some w }

@[simp] theorem txpLanded_frame (mem : Memory) (w : Word) (s : State) :
    (txpLanded mem w s).loader = s.loader ∧ (txpLanded mem w s).ring = s.ring ∧ (txpLanded mem w s).path = s.path
    ∧ (txpLanded mem w s).power = s.power ∧ (txpLanded mem w s).events = s.events ∧ (txpLanded mem w s).bus.waiting = s.bus.waiting
    ∧ (txpLanded mem w s).bus.queue = s.bus.queue ∧ shadowCount (txpLanded mem w s) .txp = countOf w
    ∧ shadowCount (txpLanded mem w s) .txc = shadowCount s .txc := by
  simp [txpLanded, shadowCount, shadowWord, shadowOf]

@[simp] theorem rxpLanded_frame (mem : Memory) (w : Word) (s : State) :
    (rxpLanded mem w s).loader = s.loader ∧ (rxpLanded mem w s).ring = s.ring ∧ (rxpLanded mem w s).path = s.path
    ∧ (rxpLanded mem w s).power = s.power ∧ (rxpLanded mem w s).events = s.events ∧ (rxpLanded mem w s).bus.waiting = s.bus.waiting
    ∧ (rxpLanded mem w s).bus.queue = s.bus.queue ∧ shadowCount (rxpLanded mem w s) .rxp = countOf w
    ∧ shadowCount (rxpLanded mem w s) .rxf = shadowCount s .rxf := by
  simp [rxpLanded, shadowCount, shadowWord, shadowOf]

/-- A write on the TXP word to the command's end: what the standing work begins from. -/
theorem txpWrite_lands {q : Requester} {a : Addr} {l : LaneWord} {m : MemoryMap} {v : Word} {s : State} (hm : s.loader.map = some m)
    (hapart : watchedApart m) (ha : onWatched m .txp a) (hturn : masterTurn s = false)
    (hg : q ≠ .u ∨ (s.bus.txGuard = false ∧ s.bus.rxGuard = false)) (hr : holdsRings s = true) (hv : s.bus.shadows.txp = some v) :
    ∃ mem, exec (.txpWordWrite q a [l]) s = .next (settle (producerTouched q l (if countOf (mergeLanes v l) = countOf v
      then txpLanded mem (mergeLanes v l) s else txpChanged (grantGateway s) (txpLanded mem (mergeLanes v l) s)))) := by
  obtain ⟨mem, z, hz, hcarry⟩ := carryWrite_txp (q := q) (l := l) (s := grantGateway s) (by simpa using hm) hapart ha (granted_unguarded hg)
    (by simpa using notFibre_of_holdsRings hr) (by simpa using hv)
  exact ⟨mem, by rw [exec_txpWordWrite hturn, hcarry, hz]; rfl⟩

theorem rxpWrite_lands {q : Requester} {a : Addr} {l : LaneWord} {m : MemoryMap} {v : Word} {s : State} (hm : s.loader.map = some m)
    (hapart : watchedApart m) (ha : onWatched m .rxp a) (hturn : masterTurn s = false)
    (hg : q ≠ .u ∨ (s.bus.txGuard = false ∧ s.bus.rxGuard = false)) (hr : holdsRings s = true) (hv : s.bus.shadows.rxp = some v) :
    ∃ mem, exec (.rxpWordWrite q a [l]) s = .next (settle (if countOf (mergeLanes v l) = countOf v
      then rxpLanded mem (mergeLanes v l) s else checkRxOverrun (rxpLanded mem (mergeLanes v l) s))) := by
  obtain ⟨mem, z, hz, hcarry⟩ := carryWrite_rxp (q := q) (l := l) (s := grantGateway s) (by simpa using hm) hapart ha (granted_unguarded hg)
    (by simpa using notFibre_of_holdsRings hr) (by simpa using hv)
  exact ⟨mem, by rw [exec_rxpWordWrite hturn, hcarry, hz]; rfl⟩

/-- With no class read waiting for room, a TXP count that changed moves the scan's mark at most (R63). -/
theorem scanFollowsTxp_unasked (old : Count) {s : State} (hw : s.bus.waiting = []) : ∃ k, scanFollowsTxp old s = { s with ring.scanMark := k } := by
  unfold scanFollowsTxp
  split
  · exact ⟨_, by rw [moveScanMark, withdrawScanRead_idle (by simp [hw])]⟩
  · exact ⟨s.ring.scanMark, rfl⟩

theorem txpChanged_unasked (b : State) {s : State} (hw : s.bus.waiting = []) :
    ∃ k, txpChanged b s = readAhead (checkTxOverrun { s with ring.scanMark := k }) := by
  obtain ⟨k, hk⟩ := scanFollowsTxp_unasked (shadowCount b .txp) hw
  exact ⟨k, by rw [← hk]; rfl⟩

theorem readsWait_of_idle {s : State} (h : s.bus.waiting = []) : ReadsWait s := by simp [ReadsWait, h]

theorem readsWait_readAhead {s : State} (h : s.bus.waiting = []) : ReadsWait (readAhead s) := by
  obtain ⟨ps, hps, hall⟩ := readAhead_asks s
  rw [ReadsWait, hps, h]
  exact fun p hp => readRequest_of_calm (hall p (by simpa using hp)).1 (hall p (by simpa using hp)).2

/-- With nothing waiting, the standing work leaves the receive overrun and a pending Bus Anomaly (R129). -/
theorem settle_leaves_rxOverrun {u : State} (hw : u.bus.waiting = []) :
    (settle u).ring.rxOverrun = u.ring.rxOverrun ∧ detailOfKind (settle u) .busAnomaly = detailOfKind u .busAnomaly := by
  obtain ⟨hrx, hdetail⟩ := (settle_anomaly u).stands (by simp [hw])
  exact ⟨hrx, detailOfKind_of_entry hdetail⟩

/-- The receive check of a count that changed stands to the command's end (R129). -/
theorem settle_checkRxOverrun_judges {z : State} (hr : holdsRings z = true) (he : z.power.mode ≠ .doze) (hclear : z.ring.rxOverrun = false)
    (hw : z.bus.waiting = []) (hlen : z.events.entries.length = 11) :
    let t := settle (checkRxOverrun z)
    (rxSize z < dist (rxConsumerRef z) (shadowCount z .rxp) → t.ring.rxOverrun = true
      ∧ detailOfKind t .busAnomaly = some (.producerOverrun .receive (shadowCount z .rxp)))
    ∧ (dist (rxConsumerRef z) (shadowCount z .rxp) ≤ rxSize z → t.ring.rxOverrun = false
      ∧ detailOfKind t .busAnomaly = detailOfKind z .busAnomaly) := by
  have judged := checkRxOverrun_judges hr he hclear hlen
  obtain ⟨hoverrun, hdetail⟩ := settle_leaves_rxOverrun (u := checkRxOverrun z) (by simpa using hw)
  intro t
  rw [hoverrun, hdetail]
  exact ⟨judged.1, fun h => ⟨(judged.2 h).1, detailOfKind_of_entry (judged.2 h).2⟩⟩

/-- With the next descriptor read alone waiting and no hand-back due, the standing work leaves the transmit overrun, the descriptor read in
flight and a pending Bus Anomaly (R50, R51, R61). -/
theorem settle_leaves_readAhead {q : Requester} {l : LaneWord} {u : State} (hw : u.bus.waiting = []) (hb : HandBackBarred u) :
    let t := settle (producerTouched q l (readAhead u))
    t.ring.overrun = u.ring.overrun ∧ t.ring.descriptorRead = (readAhead u).ring.descriptorRead
      ∧ detailOfKind t .busAnomaly = detailOfKind u .busAnomaly := by
  obtain ⟨ps, hps, hall⟩ := readAhead_asks u
  have asked : ∀ p ∈ (producerTouched q l (readAhead u)).bus.waiting, calmRequest p = true ∧ p ≠ .txcHandBack := by
    simpa [hps, hw] using hall
  have reads : ReadsWait (producerTouched q l (readAhead u)) := fun p hp => readRequest_of_calm (asked p hp).1 (asked p hp).2
  have barred : HandBackBarred (producerTouched q l (readAhead u)) := by simpa [HandBackBarred, closed] using hb
  obtain ⟨hread, hoverrun⟩ := settle_reading_leaves (n := 64) rfl reads barred
  have detail := ((settle_anomaly _).stands fun p hp => (asked p hp).1).2
  intro t
  exact ⟨hoverrun.trans (by simp), hread.trans (by simp), detailOfKind_of_entry (detail.trans (by simp [entryOfKind]))⟩

/-- With nothing waiting and no hand-back due the standing work leaves the transmit overrun and a pending Bus Anomaly (R50, R61). -/
theorem settle_leaves_overrun {q : Requester} {l : LaneWord} {u : State} (hw : u.bus.waiting = []) (hb : HandBackBarred u) :
    (settle (producerTouched q l u)).ring.overrun = u.ring.overrun
      ∧ detailOfKind (settle (producerTouched q l u)) .busAnomaly = detailOfKind u .busAnomaly := by
  have idle : (producerTouched q l u).bus.waiting = [] := by simp [hw]
  have barred : HandBackBarred (producerTouched q l u) := by simpa [HandBackBarred, closed] using hb
  obtain ⟨_, hoverrun⟩ := settle_reading_leaves (n := 64) rfl (readsWait_of_idle idle) barred
  have detail := ((settle_anomaly (producerTouched q l u)).stands (by simp [hw])).2
  exact ⟨hoverrun.trans (by simp), detailOfKind_of_entry (detail.trans (by simp [entryOfKind]))⟩

/-- The transmit check of a TXP count that changed stands to the command's end (R50). -/
theorem settle_txpChanged_judges {q : Requester} {l : LaneWord} {b z : State} (hr : holdsRings z = true) (he : z.power.mode ≠ .doze)
    (hclear : z.ring.overrun = false) (hw : z.bus.waiting = []) (hlen : z.events.entries.length = 11) (hb : HandBackBarred z) :
    let t := settle (producerTouched q l (txpChanged b z))
    (txSize z < dist (consumerRef z) (shadowCount z .txp) → t.ring.overrun = true
      ∧ detailOfKind t .busAnomaly = some (.producerOverrun .transmit (shadowCount z .txp)))
    ∧ (dist (consumerRef z) (shadowCount z .txp) ≤ txSize z → t.ring.overrun = false
      ∧ detailOfKind t .busAnomaly = detailOfKind z .busAnomaly) := by
  obtain ⟨k, hk⟩ := txpChanged_unasked b hw
  have judged := checkTxOverrun_judges (s := { z with ring.scanMark := k }) hr he hclear hlen
  have barred : HandBackBarred (checkTxOverrun { z with ring.scanMark := k }) := by simpa [HandBackBarred, closed] using hb
  obtain ⟨hoverrun, _, hdetail⟩ := settle_leaves_readAhead (q := q) (l := l) (by simpa using hw) barred
  intro t
  have told : t = settle (producerTouched q l (readAhead (checkTxOverrun { z with ring.scanMark := k }))) := by rw [← hk]
  rw [told, hoverrun, hdetail]
  exact ⟨fun h => judged.1 h, fun h => ⟨(judged.2 h).1, detailOfKind_of_entry (judged.2 h).2⟩⟩

/-! ### In DOZE (R66) -/

/-- In DOZE a TXP count that changed makes the check due and reads nothing ahead (R66). -/
theorem settle_txpChanged_doze {q : Requester} {l : LaneWord} {b z : State} (hr : holdsRings z = true) (he : z.power.mode = .doze) :
    let t := settle (producerTouched q l (txpChanged b z))
    t.ring.txCheckDue = true ∧ t.ring.overrun = z.ring.overrun ∧ t.events.entries = z.events.entries := by
  have idle (u : State) (hu : u.power.mode = .doze) : readAhead u = u := by simp [readAhead, mayReadAhead, enginesRun, hu]
  have due : checkTxOverrun (scanFollowsTxp (shadowCount b .txp) z) = { scanFollowsTxp (shadowCount b .txp) z with ring.txCheckDue := true } := by
    have held : holdsRings (scanFollowsTxp (shadowCount b .txp) z) = true := by simpa [holdsRings] using hr
    simp [checkTxOverrun, held, enginesRun, he]
  have told : txpChanged b z = { scanFollowsTxp (shadowCount b .txp) z with ring.txCheckDue := true } := by
    rw [← due]
    exact idle _ (by simp [he])
  obtain ⟨hoverrun, _, hdue, _, hentries⟩ := settle_doze_rings (s := producerTouched q l (txpChanged b z)) (by simp [he])
  intro t
  exact ⟨hdue.trans (by simp [told]), hoverrun.trans (by simp [told]), hentries.trans (by simp [told])⟩

theorem settle_checkRxOverrun_doze {z : State} (hr : holdsRings z = true) (he : z.power.mode = .doze) :
    let t := settle (checkRxOverrun z)
    t.ring.rxCheckDue = true ∧ t.ring.rxOverrun = z.ring.rxOverrun ∧ t.events.entries = z.events.entries := by
  have due : checkRxOverrun z = { z with ring.rxCheckDue := true } := by simp [checkRxOverrun, hr, enginesRun, he]
  obtain ⟨_, hoverrun, _, hdue, hentries⟩ := settle_doze_rings (s := checkRxOverrun z) (by simp [he])
  intro t
  exact ⟨hdue.trans (by simp [due]), hoverrun.trans (by simp [due]), hentries.trans (by simp [due])⟩

/-! ### The next descriptor read (R49, R51) -/

theorem mayRead_iff {m : MemoryMap} {b : Count} {s : State} (hm : s.loader.map = some m) (hb : s.ring.base = some b) (hf : s.ring.fence = none)
    (p : Count) : mayRead s p = true ↔ positionReadable b (consumerRef s) (shadowCount s .txp) m.txSize p := by
  have producer : effectiveProducer s (consumerRef s) = producerHeld (consumerRef s) (shadowCount s .txp) m.txSize := by
    simp [effectiveProducer, advance, txSize, hm]
  simp only [mayRead, baseBeforeProducer, belowFence, hf, hb, producer, windowSpan, txSize, hm, Option.getD_some, Bool.and_eq_true,
    decide_eq_true_eq, positionReadable]
  tauto

theorem readLength_eq {m : MemoryMap} {b : Count} {s : State} (hm : s.loader.map = some m) (hb : s.ring.base = some b) (hf : s.ring.fence = none)
    (k : Count) : readLength s k = positionsToRead b (consumerRef s) (shadowCount s .txp) m.txSize k := by
  simp only [readLength, positionsToRead, slotOf, advance, txSize, hm, List.all_eq_true, List.mem_range, mayRead_iff hm hb hf, Bool.and_eq_true,
    decide_eq_true_eq, and_comm]

theorem positionsToRead_burst {base ref txp mark : Count} {size n : Nat} (h : n = positionsToRead base ref txp size mark) (hn : n ≠ 0) :
    burstFor (4 * n) = if n = 4 then .sixteen else if n = 2 then .eight else .four := by
  have few : n = 4 ∨ n = 2 ∨ n = 1 := by
    unfold positionsToRead at h
    split_ifs at h <;> omega
  obtain rfl | rfl | rfl := few <;> rfl

/-- Reading on from the mark: the read of as many positions as R51 allows is asked for, or none. -/
theorem readAhead_eq {m : MemoryMap} {b k : Count} {n : Nat} {s : State} (may : mayReadAhead s = true) (hm : s.loader.map = some m)
    (hb : s.ring.base = some b) (hf : s.ring.fence = none) (hk : s.ring.readMark = some k)
    (hn : n = positionsToRead b (consumerRef s) (shadowCount s .txp) m.txSize k) :
    readAhead s = if n = 0 then s else request (.descriptorRead k n) { s with ring.descriptorRead := some ⟨k, n, false⟩ } := by
  have length : readLength s k = n := by rw [readLength_eq hm hb hf, hn]
  by_cases h : n = 0 <;> simp [readAhead, hk, length, may, h]

/-- A descriptor read first in line joins the queue, whatever follows it (R150). -/
theorem settle_issues_descriptorRead {m : MemoryMap} {base ref txp k : Count} {size n : Nat} {Y : List Purpose} {s : State}
    (hm : s.loader.map = some m) (hn : n = positionsToRead base ref txp size k) (h0 : n ≠ 0) (hw : s.bus.waiting = .descriptorRead k n :: Y)
    (hq : s.bus.queue.length ≤ 7) (he : s.power.mode ≠ .doze) : s.bus.queue ++ [readOfPositions m k n] <+: (settle s).bus.queue := by
  have formed : formTransfer { s with bus.waiting := Y } m (.descriptorRead k n) = some (readOfPositions m k n).transfer := by
    simp only [readOfPositions, ← positionsToRead_burst hn h0]
    rfl
  have issued : issueAll s = pump 63 { s with bus.waiting := Y, bus.queue := s.bus.queue ++ [readOfPositions m k n] } := by
    rw [issueAll, pump_cons 63 hw hq he, issueOne_formed hm formed]
    rfl
  obtain ⟨new, hnew, _⟩ := (settle_engineKeeps_from issued).passes m [] hm (by simp) List.nil_prefix
  rw [hnew]
  exact List.prefix_append _ _

/-- Reading ahead with nothing waiting and no hand-back due, to the command's end (R51, R150). -/
theorem settle_readAhead {q : Requester} {l : LaneWord} {m : MemoryMap} {b k : Count} {n : Nat} {u : State} (may : mayReadAhead u = true)
    (hm : u.loader.map = some m) (hb : u.ring.base = some b) (hf : u.ring.fence = none) (hk : u.ring.readMark = some k)
    (hw : u.bus.waiting = []) (hq : u.bus.queue.length ≤ 7) (hback : HandBackBarred u)
    (hn : n = positionsToRead b (consumerRef u) (shadowCount u .txp) m.txSize k) :
    let t := settle (producerTouched q l (readAhead u))
    (n ≠ 0 → u.bus.queue ++ [readOfPositions m k n] <+: t.bus.queue ∧ t.ring.descriptorRead = some ⟨k, n, false⟩)
      ∧ (n = 0 → t.ring.descriptorRead = none) ∧ t.ring.readMark = some k := by
  have asked := readAhead_eq may hm hb hf hk hn
  obtain ⟨_, hread, _⟩ := settle_leaves_readAhead (q := q) (l := l) hw hback
  have awake : u.power.mode ≠ .doze := by
    intro hd
    simp [mayReadAhead, enginesRun, hd] at may
  have unread : u.ring.descriptorRead = none := by
    simp only [mayReadAhead, Bool.and_eq_true, beq_iff_eq] at may
    exact may.2
  intro t
  refine ⟨fun h0 => ?_, fun h0 => ?_, by simp [t, hk]⟩
  · rw [if_neg h0] at asked
    have line : (producerTouched q l (readAhead u)).bus.waiting = .descriptorRead k n :: [] := by simp [asked, request, hw]
    have joined := settle_issues_descriptorRead (s := producerTouched q l (readAhead u)) (by simpa using hm) hn h0 line (by simpa using hq)
      (by simpa using awake)
    exact ⟨by simpa using joined, hread.trans (by simp [asked, request])⟩
  · exact hread.trans (by rw [asked, if_pos h0, unread])

theorem shadowCount_of_bus {s t : State} (h : t.bus = s.bus) (w : Watched) : shadowCount t w = shadowCount s w := by
  simp [shadowCount, shadowWord, h]

/-- A TXP count that changed issues the next descriptor read from the mark (R51). -/
theorem settle_txpChanged_reads {q : Requester} {l : LaneWord} {m : MemoryMap} {b k : Count} {n : Nat} {c z : State} (may : mayReadAhead z = true)
    (hm : z.loader.map = some m) (hb : z.ring.base = some b) (hf : z.ring.fence = none) (hk : z.ring.readMark = some k)
    (hw : z.bus.waiting = []) (hq : z.bus.queue.length ≤ 7) (hback : HandBackBarred z)
    (hn : n = positionsToRead b (consumerRef z) (shadowCount z .txp) m.txSize k) :
    let t := settle (producerTouched q l (txpChanged c z))
    (n ≠ 0 → z.bus.queue ++ [readOfPositions m k n] <+: t.bus.queue ∧ t.ring.descriptorRead = some ⟨k, n, false⟩)
      ∧ (n = 0 → t.ring.descriptorRead = none) ∧ t.ring.readMark = some k := by
  obtain ⟨x, htold⟩ := txpChanged_unasked c hw
  rw [htold]
  generalize hu : checkTxOverrun { z with ring.scanMark := x } = u
  have bus : u.bus = z.bus := by simp [← hu]
  have ref : consumerRef u = consumerRef z := by
    rw [consumerRef, shadowCount_of_bus bus, consumerRef]
    simp [← hu]
  have may' : mayReadAhead u = true := by simpa [← hu, mayReadAhead, holdsRings, softResetStands, enginesRun] using may
  have barred : HandBackBarred u := by simpa [← hu, HandBackBarred, closed] using hback
  rw [← bus]
  exact settle_readAhead may' (by simpa [← hu] using hm) (by simpa [← hu] using hb) (by simpa [← hu] using hf) (by simpa [← hu] using hk)
    (by rw [bus, hw]) (by rwa [bus]) barred (by rw [ref, shadowCount_of_bus bus, hn])

end Sys2Proof.Machine
end

section
/-! The next descriptor read at a takeover (R6, R8, R51). -/

-- One theorem at a time, as in the model's laws: the threads of many at once would not fit the memory a check has.
set_option Elab.async false

namespace Sys2Proof.Machine

/-- Reading ahead is allowed but for a read in flight: the ring's base and mark stand at `k`, from which `n` positions may be read, and the read of
them is either still to be asked for or asked for alone (R49, R51). -/
structure ReadsOn (m : MemoryMap) (b k : Count) (n : Nat) (s : State) : Prop where
  holds : holdsRings s = true
  phase : s.path.phase ≠ some .closing
  soft : s.loader.softReset = .none
  awake : s.power.mode ≠ .doze
  map : s.loader.map = some m
  base : s.ring.base = some b
  unfenced : s.ring.fence = none
  mark : s.ring.readMark = some k
  length : n = positionsToRead b (consumerRef s) (shadowCount s .txp) m.txSize k
  line : s.bus.waiting = [] ∧ s.ring.descriptorRead = none
    ∨ n ≠ 0 ∧ s.bus.waiting = [.descriptorRead k n] ∧ s.ring.descriptorRead = some ⟨k, n, false⟩

/-- The read is asked for, where there is one. -/
def ReadAsked (k : Count) (n : Nat) (s : State) : Prop :=
  (n ≠ 0 → s.bus.waiting = [.descriptorRead k n] ∧ s.ring.descriptorRead = some ⟨k, n, false⟩)
    ∧ (n = 0 → s.bus.waiting = [] ∧ s.ring.descriptorRead = none)

namespace ReadsOn

variable {m : MemoryMap} {b k : Count} {n : Nat} {s : State}

theorem may (h : ReadsOn m b k n s) (hread : s.ring.descriptorRead = none) : mayReadAhead s = true := by
  simp [mayReadAhead, h.holds, h.phase, softResetStands, h.soft, enginesRun, h.awake, hread]

theorem asked (h : ReadsOn m b k n s) : ReadAsked k n (readAhead s) := by
  obtain ⟨hw, hread⟩ | ⟨h0, hw, hread⟩ := h.line
  · rw [readAhead_eq (h.may hread) h.map h.base h.unfenced h.mark h.length]
    refine ⟨fun h0 => ?_, fun h0 => ?_⟩
    · simp [h0, request, hw]
    · simp [h0, hw, hread]
  · have still : readAhead s = s := by simp [readAhead, mayReadAhead, hread]
    rw [still]
    exact ⟨fun _ => ⟨hw, hread⟩, fun h => absurd h h0⟩

theorem readAhead (h : ReadsOn m b k n s) : ReadsOn m b k n (readAhead s) where
  holds := by simpa [holdsRings] using h.holds
  phase := by simpa using h.phase
  soft := by simpa using h.soft
  awake := by simpa using h.awake
  map := by simpa using h.map
  base := by simpa using h.base
  unfenced := by simpa using h.unfenced
  mark := by simpa using h.mark
  length := by simpa [consumerRef, shadowCount, shadowWord, shadowOf] using h.length
  line := by
    by_cases h0 : n = 0
    · exact .inl (h.asked.2 h0)
    · exact .inr ⟨h0, h.asked.1 h0⟩

end ReadsOn

theorem afterRxRelease_waiting {s : State} (h : s.ring.fillCursor = s.ring.partRxf) : (afterRxRelease s).bus.waiting = s.bus.waiting := by
  simp [afterRxRelease, h]

/-- A receive release with the fill cursor at G asks for nothing (R9, R127). -/
theorem checkRxRelease_waiting {s : State} (h : s.ring.fillCursor = s.bus.fixedG) : (checkRxRelease s).bus.waiting = s.bus.waiting := by
  unfold checkRxRelease
  split
  · refine (afterRxRelease_waiting ?_).trans (by simp)
    unfold setRxReleased stopReleaseTimer
    split <;> exact h
  · rfl

theorem ReadsOn.checkRxRelease {m : MemoryMap} {b k : Count} {n : Nat} {s : State} (h : ReadsOn m b k n s) (hg : s.ring.fillCursor = s.bus.fixedG) :
    ReadsOn m b k n (checkRxRelease s) where
  holds := by simpa [holdsRings] using h.holds
  phase := by simpa using h.phase
  soft := by simpa using h.soft
  awake := by simpa using h.awake
  map := by simpa using h.map
  base := by simpa using h.base
  unfenced := by simpa using h.unfenced
  mark := by simpa using h.mark
  length := by simpa [consumerRef, shadowCount, shadowWord, shadowOf] using h.length
  line := by simpa [checkRxRelease_waiting hg] using h.line

/-- A transmit release at H with an empty window reads on from H as the consumer reference (R9, R50, R51). -/
theorem ReadsOn.checkTxRelease {m : MemoryMap} {b k : Count} {n : Nat} {s : State} (h : ReadsOn m b k n s) (hh : s.bus.fixedH = some b)
    (hwin : s.ring.window = []) (hrel : s.path.txReleased = false) : ReadsOn m b k n (checkTxRelease s) := by
  unfold Machine.checkTxRelease
  split
  case isFalse => exact h
  case isTrue hc =>
    have atH : shadowCount s .txc = b := by
      simp only [Bool.and_eq_true, beq_iff_eq] at hc
      exact Option.some.inj (hc.2.trans hh)
    obtain ⟨hreleased, _, _, _, hpart, hbase, _, _, hwait, _, hwindow, hpower, hloader, hphase, hpath⟩ := txReleasedNow_sets s
    have unadvanced : tryAdvance (checkTxOverrun (txReleasedNow s)) = checkTxOverrun (txReleasedNow s) := by
      simp [tryAdvance, doneCount, hwindow, hwin]
    show ReadsOn m b k n (Machine.readAhead (tryAdvance (checkTxOverrun (txReleasedNow s))))
    rw [unadvanced]
    refine ReadsOn.readAhead ?_
    constructor
    · simpa [holdsRings, hpath] using h.holds
    · simpa [hphase] using h.phase
    · simpa [hloader] using h.soft
    · simpa [hpower] using h.awake
    · simpa [hloader] using h.map
    · simpa [hbase] using hh
    · simpa [txReleasedNow] using h.unfenced
    · simpa [txReleasedNow] using h.mark
    · have ref : consumerRef s = b := by simp [consumerRef, hrel, atH]
      have same : consumerRef (checkTxOverrun (txReleasedNow s)) = consumerRef s := by
        rw [ref]
        simp [consumerRef, hreleased, hpart, hh]
      have producer : shadowCount (checkTxOverrun (txReleasedNow s)) .txp = shadowCount s .txp := by
        simp [shadowCount, shadowWord, shadowOf, txReleasedNow]
      rw [same, producer]
      exact h.length
    · simpa [hwait, txReleasedNow] using h.line

/-- Reading on turns neither on the receive ring's release nor on the release timer. -/
theorem ReadsOn.rxMoved {m : MemoryMap} {b k : Count} {n : Nat} {s : State} (h : ReadsOn m b k n s) (released : Bool) (timer : Option Nat) :
    ReadsOn m b k n { s with path.rxReleased := released, path.releaseTimer := timer } :=
  ⟨h.holds, h.phase, h.soft, h.awake, h.map, h.base, h.unfenced, h.mark, h.length, h.line⟩

theorem ReadsOn.beginRelease {m : MemoryMap} {b k : Count} {n : Nat} {s : State} (h : ReadsOn m b k n { s with path.txReleased := false })
    (hh : s.bus.fixedH = some b) (hg : s.ring.fillCursor = s.bus.fixedG) (hwin : s.ring.window = []) : ReadsOn m b k n (beginRelease s) := by
  have begun : ReadsOn m b k n { s with path.txReleased := false, path.rxReleased := false } := h.rxMoved false s.path.releaseTimer
  have checked := (begun.checkTxRelease hh hwin rfl).checkRxRelease (by simpa using hg)
  simp only [Machine.beginRelease]
  split
  · exact checked
  · exact checked.rxMoved _ _

theorem stopScan_unasked {s : State} (hw : s.bus.waiting = []) : (stopScan s).bus.waiting = [] := by
  rw [stopScan, withdrawScanRead_idle (by simp [hw])]
  exact hw

theorem wantRadio_loader (s : State) : (wantRadio s).loader = s.loader := by
  obtain ⟨u, hu, h | h | h⟩ := wantRadio_cases s <;> rw [h, hu] <;> rfl

/-- A takeover asks for the descriptor read from H (R6, R8, R51). -/
theorem takeoverSet_asksRead {c : PathCause} {m : MemoryMap} {h : Count} {n : Nat} {s : State} (he : s.power.mode ≠ .doze)
    (hs : s.loader.softReset = .none) (hm : s.loader.map = some m) (hw : s.bus.waiting = []) (hh : s.bus.txHorizon = some h)
    (hread : s.ring.descriptorRead = none) (hn : n = positionsToRead h (shadowCount s .txc) (shadowCount s .txp) m.txSize h) :
    ReadAsked h n (takeoverSet c s) ∧ (takeoverSet c s).ring.readMark = some h ∧ (takeoverSet c s).bus.queue = s.bus.queue
      ∧ (takeoverSet c s).loader.map = some m := by
  generalize hv : startTaking (fixViews (stopScan (ceaseEntry { s with
    path.dwellD := takeoverDwell s, path.path := .takeover, path.phase := none, health.timer1s := none }))) = v
  have counts (w : Watched) : shadowCount v w = shadowCount s w := by simp [← hv, shadowCount, shadowWord, fixViews, startTaking]
  have ready : ReadsOn m h h n { v with path.txReleased := false } := by
    constructor
    · simp [← hv, holdsRings, fixViews, startTaking]
    · simp [← hv, fixViews, startTaking]
    · simp [← hv, fixViews, startTaking, hs]
    · simp [← hv, fixViews, startTaking, he]
    · simp [← hv, fixViews, startTaking, hm]
    · simp [← hv, fixViews, startTaking, hh]
    · simp [← hv, fixViews, startTaking]
    · simp [← hv, fixViews, startTaking, hh]
    · rw [hn, ← counts, ← counts]
      rfl
    · exact .inl (by simp [← hv, fixViews, startTaking, hread, stopScan_unasked, hw])
  have released := ready.beginRelease (by simp [← hv, fixViews, startTaking, hh]) (by simp [← hv, startTaking]) (by simp [← hv, startTaking])
  have begun : takeoverBegun s = readAhead (beginRelease v) := by rw [← hv]; rfl
  have bus : (takeoverSet c s).bus = (takeoverBegun s).bus := by simp [takeoverSet, takeoverTold, (wantRadio_asks _).2.1]
  have ring : (takeoverSet c s).ring = (takeoverBegun s).ring := by simp [takeoverSet, takeoverTold, (wantRadio_kept _).2.2]
  have loader : (takeoverSet c s).loader = (takeoverBegun s).loader := by simp [takeoverSet, takeoverTold, wantRadio_loader]
  rw [ReadAsked, bus, ring, loader, begun]
  exact ⟨released.asked, released.readAhead.mark, by simp [← hv, fixViews, startTaking], released.readAhead.map⟩

/-- A read asked for alone is issued by the command's end and counts as in flight (R51, R150). -/
theorem ReadAsked.settles {m : MemoryMap} {base ref txp k : Count} {size n : Nat} {s : State} (h : ReadAsked k n s)
    (hn : n = positionsToRead base ref txp size k) (hm : s.loader.map = some m) (hq : s.bus.queue.length ≤ 7) (he : s.power.mode ≠ .doze)
    (hb : HandBackBarred s) :
    (n ≠ 0 → s.bus.queue ++ [readOfPositions m k n] <+: (settle s).bus.queue ∧ (settle s).ring.descriptorRead = some ⟨k, n, false⟩)
      ∧ (n = 0 → (settle s).ring.descriptorRead = none) := by
  obtain ⟨hsome, hnone⟩ := h
  refine ⟨fun h0 => ?_, fun h0 => ?_⟩
  · obtain ⟨hw, hread⟩ := hsome h0
    have leaves := settle_reading_leaves (n := 64) (s := s) rfl (by simp [ReadsWait, hw, readRequest]) hb
    exact ⟨settle_issues_descriptorRead hm hn h0 hw hq he, leaves.1.trans hread⟩
  · obtain ⟨hw, hread⟩ := hnone h0
    exact ((settle_reading_leaves (n := 64) (s := s) rfl (readsWait_of_idle hw) hb).1).trans hread

end Sys2Proof.Machine
end

section
/-! A descriptor read's return: the entries it enters and the read that follows it (R51 to R54). -/

-- One theorem at a time, as in the model's laws: the threads of many at once would not fit the memory a check has.
set_option Elab.async false

namespace Sys2Proof.Machine

/-! ### A read in flight stands (R51) -/

/-- A descriptor read in flight stays in flight as it is. -/
def ReadStands (s t : State) : Prop := ∀ d, s.ring.descriptorRead = some d → t.ring.descriptorRead = some d

namespace ReadStands

theorem refl (s : State) : ReadStands s s := fun _ => id

theorem trans {s t u : State} (h : ReadStands s t) (h' : ReadStands t u) : ReadStands s u := fun d hd => h' d (h d hd)

theorem of_eq {s t : State} (h : t.ring.descriptorRead = s.ring.descriptorRead := by simp) : ReadStands s t := fun _ hd => h.trans hd

end ReadStands

theorem readAhead_stands (s : State) : ReadStands s (readAhead s) := by
  intro d hd
  have still : readAhead s = s := by simp [readAhead, mayReadAhead, hd]
  rw [still, hd]

theorem onIssue_stands (p : Purpose) (s : State) : ReadStands s (onIssue p s) := by
  cases p
  case txcAdvance => exact .trans (t := checkTxOverrun _) (.of_eq) (readAhead_stands _)
  case txcForced =>
    simp only [onIssue]
    split
    · exact .trans (t := tryAdvance (checkTxOverrun (setTxReleased s))) (.of_eq) (readAhead_stands _)
    · exact .refl s
  case rxfForced =>
    simp only [onIssue]
    split <;> exact .of_eq
  case policyRead second => cases second <;> exact .of_eq rfl
  all_goals exact .of_eq (by simp [onIssue])

theorem issueOne_stands (p : Purpose) (rest : List Purpose) (s : State) : ReadStands s (issueOne p rest s) := by
  simp only [issueOne]
  (repeat' split)
  · exact .of_eq rfl
  · exact .of_eq rfl
  · exact fun d hd => onIssue_stands _ _ d hd

theorem settle_stands (s : State) : ReadStands s (settle s) :=
  settle_of_steps .trans (pump_of_issueOne .refl .trans issueOne_stands) (fun _ => .of_eq) (fun _ => .of_eq) (fun _ => .of_eq) (fun _ => .of_eq)
    (n := 64) rfl

/-! ### The requests of entries that enter, and the read behind them (R52, R54, R150) -/

/-- What an entry that enters asks for: its take's first read, or the completion that a failed check gives it (R52, R54). -/
def entryRequest : Purpose → Bool
  | .frameRead _ => true
  | .completion _ v => v == .notCarried || v == .empty || v == .tooLong
  | _ => false

/-- Issuing what an entry asks for at most adds a TXC advance at the line's end; the queue grows by one transfer at most. -/
theorem issueOne_entryRequest {m : MemoryMap} {p : Purpose} {rest : List Purpose} {s : State} (hm : s.loader.map = some m)
    (hp : entryRequest p = true) : ∃ ps, (issueOne p rest s).bus.waiting = rest ++ ps
      ∧ (issueOne p rest s).bus.queue.length ≤ s.bus.queue.length + 1 := by
  have advanced (u : State) : ∃ ps, (tryAdvance u).bus.waiting = u.bus.waiting ++ ps := by
    unfold tryAdvance
    split
    · exact ⟨_, rfl⟩
    · exact ⟨[], by simp⟩
  cases p
  case frameRead pos =>
    refine ⟨[], ?_⟩
    simp only [issueOne, hm]
    split <;> simp [onIssue]
  case completion pos v =>
    rw [issueOne_formed hm rfl]
    have told (x : MasterTransfer) : onIssue (.completion pos v) { s with bus.waiting := rest, bus.queue := s.bus.queue ++ [x] }
        = tryAdvance (updateEntry pos (fun e => { e with st := .done }) { s with bus.waiting := rest, bus.queue := s.bus.queue ++ [x] }) := by
      cases v <;> first | rfl | simp [entryRequest] at hp
    rw [told]
    obtain ⟨ps, hps⟩ := advanced (updateEntry pos (fun e => { e with st := .done }) { s with
      bus.waiting := rest
      bus.queue := s.bus.queue ++ [⟨.completion pos v, .write (addrOf (descriptorAddr m.txBase m.txSize pos + 4)) [completionWord v]⟩] })
    exact ⟨ps, by rw [hps]; simp, by simp⟩
  all_goals simp [entryRequest] at hp

/-- A descriptor read behind few requests of entries is issued (R150). -/
theorem pump_issues_descriptorRead {m : MemoryMap} {k : Count} {n : Nat} (i : Nat) (X : List Purpose)
    (hformed : ∀ u, formTransfer u m (.descriptorRead k n) = some (readOfPositions m k n).transfer) {Y : List Purpose} {s : State}
    (hm : s.loader.map = some m) (he : s.power.mode ≠ .doze) (hw : s.bus.waiting = X ++ .descriptorRead k n :: Y)
    (hX : ∀ p ∈ X, entryRequest p = true) (hq : s.bus.queue.length + X.length ≤ 7) :
    ∃ v, pump (X.length + 1 + i) s = pump i v ∧ readOfPositions m k n ∈ v.bus.queue ∧ v.loader.map = some m := by
  induction X generalizing s Y with
  | nil =>
    have issued : pump (1 + i) s = pump i (issueOne (.descriptorRead k n) Y s) := by
      rw [Nat.add_comm]
      exact pump_cons i hw (by simpa using hq) he
    refine ⟨_, by simpa using issued, ?_⟩
    rw [issueOne_formed hm (hformed _)]
    exact ⟨by simp [onIssue, readOfPositions], hm⟩
  | cons p X ih =>
    simp only [List.length_cons] at hq
    obtain ⟨ps, hps, hlen⟩ := issueOne_entryRequest (rest := X ++ .descriptorRead k n :: Y) hm (hX p (by simp))
    obtain ⟨v, hv, hin, hmv⟩ := ih (s := issueOne p (X ++ .descriptorRead k n :: Y) s) (Y := Y ++ ps) (by simpa using hm) (by simpa using he)
      (by rw [hps]; simp) (fun q hq => hX q (by simp [hq])) (by omega)
    refine ⟨v, ?_, hin, hmv⟩
    rw [← hv, ← pump_cons _ (by simpa using hw) (by omega) he]
    congr 1
    simp only [List.length_cons]
    omega

/-! ### The entries of a read enter (R51 to R54) -/

/-- The judgement of R53 passes the entry by as things stand. -/
def PassedBy (s : State) (e : Entry) : Prop := (s.ring.takes.length < Config.takePlaces && mayTake s && eligible s e) = false

theorem judgeEntry_passedBy {s : State} {e : Entry} (h : PassedBy s e) : judgeEntry s e = s := by
  unfold PassedBy at h
  simp [judgeEntry, h]

/-- Fewer cells and more takes leave an entry passed by (R53, R70). -/
theorem PassedBy.mono {s t : State} {e : Entry} (h : PassedBy s e) (htakes : s.ring.takes.length ≤ t.ring.takes.length)
    (hcells : t.hold.freeList.length ≤ s.hold.freeList.length) (hmay : mayTake t = mayTake s) (hpath : t.path.path = s.path.path)
    (huq : t.hold.uqD = s.hold.uqD) (hloader : t.loader = s.loader) (hclock : t.clock = s.clock) : PassedBy t e := by
  have old : uqDTooOld t = uqDTooOld s := by
    unfold uqDTooOld recordAge
    rw [huq, hloader, hclock]
  have allowed (c : FrameClass) (b : Bool) (n : Nat) (ha : cellsAllow t c b n = true) : cellsAllow s c b n = true := by
    unfold cellsAllow freeCount at *
    split at ha <;> simp_all <;> omega
  have taken (he : eligible t e = true) : eligible s e = true := by
    unfold eligible at *
    split at he
    · exact he
    · simp only [hpath, old, Bool.and_eq_true] at he ⊢
      exact ⟨⟨he.1.1, allowed _ _ _ he.1.2⟩, he.2⟩
  simp only [PassedBy, Bool.and_eq_false_iff, decide_eq_false_iff_not, hmay] at h ⊢
  refine h.imp (Or.imp_left fun h => by omega) fun h => ?_
  cases ht : eligible t e
  · rfl
  · simp [taken ht] at h

/-- A take passes every entry by that was passed by, and the entry taken. -/
theorem beginTake_passesBy {e : Entry} {cls : FrameClass} {s : State} {l : List Entry} (hwin : s.ring.window = l ++ [e])
    (hl : ∀ x ∈ l, PassedBy s x) : ∀ x ∈ (beginTake e cls s).ring.window, PassedBy (beginTake e cls s) x := by
  obtain ⟨y, b, u, hu, hbegin⟩ := beginTake_eq e cls s
  have ring : (beginTake e cls s).ring = u.ring := by rw [hbegin]; split <;> simp
  have hold : (beginTake e cls s).hold = u.hold := by rw [hbegin]; split <;> simp
  have mono {x : Entry} (hx : PassedBy s x) : PassedBy (beginTake e cls s) x :=
    hx.mono (by rw [ring, hu]; simp) (by rw [hold, hu]; simp) (by simp [mayTake, holdsRings, softResetStands, enginesRun]) (by simp)
      (by rw [hold, hu]) (by simp) (by simp)
  have taking {x : Entry} (hx : x.st = .taking) : PassedBy (beginTake e cls s) x := by
    have no : eligible (beginTake e cls s) x = false := by
      unfold eligible
      split <;> simp [hx]
    simp [PassedBy, no]
  have window : (beginTake e cls s).ring.window = s.ring.window.map fun x => if x.pos = e.pos then { x with st := .taking } else x := by
    rw [ring, hu]
  rw [window, hwin]
  intro x hx
  obtain ⟨z, hz, rfl⟩ := List.mem_map.1 hx
  by_cases hpos : z.pos = e.pos
  · rw [if_pos hpos]
    exact taking rfl
  · rw [if_neg hpos]
    obtain hz | hz := List.mem_append.1 hz
    · exact mono (hl z hz)
    · exact absurd (congrArg Entry.pos (List.mem_singleton.1 hz)) hpos

/-- Of a read's entries, `n` have entered: each has asked for one thing at most, and none in the window waits for a place it could have. -/
structure Entered (n : Nat) (s : State) : Prop where
  few : s.bus.waiting.length ≤ n
  asked : ∀ p ∈ s.bus.waiting, entryRequest p = true
  passed : ∀ x ∈ s.ring.window, PassedBy s x

theorem Entered.appendEntry {n : Nat} {s : State} (h : Entered n s) (e : Entry) : Entered (n + 1) (appendEntry e s) := by
  cases hv : entryCheck s e
  case some v =>
    have failed : Machine.appendEntry e s = request (.completion e.pos v) { s with ring.window := s.ring.window ++ [{ e with completing := true }] } := by
      simp [Machine.appendEntry, hv]
    have told : entryRequest (.completion e.pos v) = true := by
      unfold entryCheck at hv
      split_ifs at hv <;> cases hv <;> rfl
    rw [failed]
    refine ⟨by simpa [request] using h.few, ?_, ?_⟩
    · show ∀ p ∈ s.bus.waiting ++ [.completion e.pos v], entryRequest p = true
      exact List.forall_mem_append.2 ⟨h.asked, by simpa using told⟩
    · have stays {x : Entry} (hx : PassedBy s x) : PassedBy (request (.completion e.pos v)
          { s with ring.window := s.ring.window ++ [{ e with completing := true }] }) x := hx.mono le_rfl le_rfl rfl rfl rfl rfl rfl
      have completing : PassedBy (request (.completion e.pos v) { s with ring.window := s.ring.window ++ [{ e with completing := true }] })
          { e with completing := true } := by
        have no (u : State) : eligible u { e with completing := true } = false := by
          unfold eligible
          split <;> simp
        simp [PassedBy, no]
      exact List.forall_mem_append.2 ⟨fun x hx => stays (h.passed x hx), by simpa using completing⟩
  case none =>
    obtain ⟨w, hw⟩ : ∃ w, w = { s with ring.window := s.ring.window ++ [e] } := ⟨_, rfl⟩
    have stays {x : Entry} (hx : PassedBy s x) : PassedBy w x := hx.mono (by simp [hw]) (by simp [hw]) (by rw [hw]; rfl) (by simp [hw]) (by simp [hw])
      (by simp [hw]) (by simp [hw])
    have others : ∀ x ∈ s.ring.window, PassedBy w x := fun x hx => stays (h.passed x hx)
    have idle (l : List Entry) (hl : ∀ x ∈ l, PassedBy w x) : l.foldl judgeEntry w = w := by
      induction l with
      | nil => rfl
      | cons x l ih => rw [List.foldl_cons, judgeEntry_passedBy (hl x (by simp)), ih fun y hy => hl y (by simp [hy])]
    have judged : Machine.appendEntry e s = judgeEntry w e := by
      rw [appendEntry_passes hv, ← hw, judgePending]
      have window : w.ring.window = s.ring.window ++ [e] := by rw [hw]
      rw [window, List.foldl_append, idle _ others]
      rfl
    have line : w.bus.waiting = s.bus.waiting := by rw [hw]
    rw [judged]
    by_cases hpass : PassedBy w e
    · rw [judgeEntry_passedBy hpass]
      refine ⟨by rw [line]; exact h.few.trans (Nat.le_succ n), by rw [line]; exact h.asked, ?_⟩
      rw [hw] at others hpass ⊢
      exact List.forall_mem_append.2 ⟨others, by simpa using hpass⟩
    · have begun : judgeEntry w e = beginTake e (if e.cls = 2 then .voicePriority else if e.cls = 1 then .voice else .data) w := by
        simp only [PassedBy, Bool.not_eq_false] at hpass
        simp only [judgeEntry, hpass, takeClass_of_passes hv, if_true]
      rw [begun]
      refine ⟨?_, ?_, beginTake_passesBy (by rw [hw]) others⟩
      · simp [beginTake_waiting, line, h.few]
      · rw [beginTake_waiting, line]
        exact List.forall_mem_append.2 ⟨h.asked, by simp [entryRequest]⟩

theorem Entered.foldl (es : List Entry) {n : Nat} {s : State} (h : Entered n s) :
    Entered (n + es.length) (es.foldl (fun s e => Machine.appendEntry e s) s) := by
  induction es generalizing n s with
  | nil => exact h
  | cons e es ih =>
    have entered := ih (h.appendEntry e)
    rwa [show n + 1 + es.length = n + (e :: es).length by simp only [List.length_cons]; omega] at entered

/-- What the entry of a read's entries leaves (R51 to R54). -/
theorem appendEntries_leave (es : List Entry) (s : State) :
    let t := es.foldl (fun s e => appendEntry e s) s
    t.loader = s.loader ∧ t.power = s.power ∧ t.path.path = s.path.path ∧ t.path.phase = s.path.phase ∧ t.path.txReleased = s.path.txReleased
      ∧ t.bus.shadows = s.bus.shadows ∧ t.bus.queue = s.bus.queue ∧ t.ring.base = s.ring.base ∧ t.ring.partTxc = s.ring.partTxc
      ∧ t.ring.fence = s.ring.fence ∧ t.ring.descriptorRead = s.ring.descriptorRead := by
  induction es generalizing s with
  | nil => simp
  | cons e es ih =>
    have next := ih (appendEntry e s)
    simpa using next

/-- The state after a read's entries have entered and the mark stands past them, from which the agent reads on (R51). -/
def entriesEntered (first : Count) (j : Nat) (ws : List Word) (s : State) : State :=
  { (readEntries first j ws).foldl (fun s e => appendEntry e s) { s with ring.descriptorRead := none } with ring.readMark := some (advance first j) }

theorem entriesEntered_leaves (first : Count) (j : Nat) (ws : List Word) (s : State) :
    let t := entriesEntered first j ws s
    t.loader = s.loader ∧ t.power = s.power ∧ t.path.path = s.path.path ∧ t.path.phase = s.path.phase ∧ t.path.txReleased = s.path.txReleased
      ∧ t.bus.shadows = s.bus.shadows ∧ t.bus.queue = s.bus.queue ∧ t.ring.base = s.ring.base ∧ t.ring.partTxc = s.ring.partTxc
      ∧ t.ring.fence = s.ring.fence ∧ t.ring.descriptorRead = none ∧ t.ring.readMark = some (advance first j) := by
  obtain ⟨h1, h2, h3, h4, h5, h6, h7, h8, h9, h10, h11⟩ := appendEntries_leave (readEntries first j ws) { s with ring.descriptorRead := none }
  exact ⟨h1, h2, h3, h4, h5, h6, h7, h8, h9, h10, h11, rfl⟩

/-- After a read's return the next is issued behind what its entries ask for, at most one request each (R51, R150). -/
theorem settle_descriptorsReturn_reads {first : Count} {j : Nat} {ws : List Word} {m : MemoryMap} {b : Count} {n : Nat} {s : State}
    (hread : s.ring.descriptorRead = some ⟨first, j, false⟩) (hm : s.loader.map = some m) (hr : holdsRings s = true)
    (hph : s.path.phase ≠ some .closing) (hso : s.loader.softReset = .none) (he : s.power.mode ≠ .doze) (hw : s.bus.waiting = [])
    (hf : s.ring.fence = none) (hb : s.ring.base = some b) (hpend : ∀ e ∈ s.ring.window, e.st ≠ .pending) (hq : s.bus.queue.length + j ≤ 7)
    (hn : n = positionsToRead b (consumerRef s) (shadowCount s .txp) m.txSize (advance first j)) :
    let t := settle (descriptorsReturn ws s)
    (n ≠ 0 → readOfPositions m (advance first j) n ∈ t.bus.queue ∧ t.ring.descriptorRead = some ⟨advance first j, n, false⟩)
      ∧ ((∀ e ∈ readEntries first j ws, entryCheck s e = none) → n = 0 → t.ring.descriptorRead = none)
      ∧ t.ring.readMark = some (advance first j) := by
  have entered : Entered (0 + (readEntries first j ws).length) (entriesEntered first j ws s) := by
    have start : Entered 0 { s with ring.descriptorRead := none } := by
      refine ⟨by simp [hw], by simp [hw], fun x hx => ?_⟩
      have no : eligible { s with ring.descriptorRead := none } x = false := by
        unfold eligible
        split <;> simp [hpend x hx]
      simp [PassedBy, no]
    obtain ⟨hfew, hasked, hpassed⟩ := start.foldl (readEntries first j ws)
    exact ⟨hfew, hasked, fun x hx => (hpassed x hx).mono le_rfl le_rfl rfl rfl rfl rfl rfl⟩
  have few : (entriesEntered first j ws s).bus.waiting.length ≤ j := by simpa [readEntries] using entered.few
  obtain ⟨hloader, hpower, hpath, hphase, hreleased, hshadows, hqueue, hbase, hpart, hfence, hnone, hmark⟩ := entriesEntered_leaves first j ws s
  have returned : descriptorsReturn ws s = readAhead (entriesEntered first j ws s) := descriptorsReturn_enters hread
  have calm (hpass : ∀ e ∈ readEntries first j ws, entryCheck s e = none) : ReadsWait (entriesEntered first j ws s) := by
    obtain ⟨hcalm, ⟨hnoBack, _⟩, _⟩ := appendEntries_keys (readEntries first j ws) (s := { s with ring.descriptorRead := none }) (by simp [hw])
      ⟨by simp [hw], hph, by simp [hso]⟩ hpass
    exact fun p hp => readRequest_of_calm (hcalm p hp) fun hback => hnoBack (hback ▸ hp)
  generalize entriesEntered first j ws s = u at *
  have ref : consumerRef u = consumerRef s := by simp [consumerRef, shadowCount, shadowWord, hreleased, hpart, hshadows]
  have txp : shadowCount u .txp = shadowCount s .txp := by simp [shadowCount, shadowWord, hshadows]
  have may : mayReadAhead u = true := by
    have held : holdsRings u = true := by simpa [holdsRings, hpath] using hr
    simp [mayReadAhead, held, hphase, hph, softResetStands, hloader, hso, enginesRun, hpower, he, hnone]
  have asked := readAhead_eq (n := n) may (by rw [hloader, hm]) (by rw [hbase, hb]) (by rw [hfence, hf]) hmark (by rw [ref, txp]; exact hn)
  intro t
  have told : t = settle (readAhead u) := by rw [← returned]
  rw [told]
  refine ⟨fun h0 => ?_, fun hpass h0 => ?_, by simp [hmark]⟩
  · have burst := positionsToRead_burst hn h0
    have formed (v : State) : formTransfer v m (.descriptorRead (advance first j) n) = some (readOfPositions m (advance first j) n).transfer := by
      simp only [readOfPositions, ← burst]
      rfl
    have line : (readAhead u).bus.waiting = u.bus.waiting ++ .descriptorRead (advance first j) n :: [] := by simp [asked, h0, request]
    obtain ⟨i, hi⟩ : ∃ i, 64 = u.bus.waiting.length + 1 + i := ⟨63 - u.bus.waiting.length, by omega⟩
    obtain ⟨v, hv, hin, hmv⟩ := pump_issues_descriptorRead i u.bus.waiting formed (s := readAhead u) (by simp [hloader, hm]) (by simp [hpower, he])
      line entered.asked (by simp only [readAhead_frame, hqueue]; omega)
    have issued : issueAll (readAhead u) = pump i v := by rw [← hv, ← hi]; rfl
    obtain ⟨new, hnew, _⟩ := (settle_engineKeeps_from issued).passes m [] hmv (by simp) List.nil_prefix
    refine ⟨by rw [hnew]; exact List.mem_append_left _ hin, ?_⟩
    exact settle_stands _ _ (by simp [asked, h0, request])
  · rw [if_pos h0] at asked
    rw [asked]
    have leaves := settle_reading_leaves (n := 64) (s := u) rfl (calm hpass) (.inl ⟨.inr (by rw [hphase]; exact hph), by simp [hloader, hso]⟩)
    exact leaves.1.trans hnone

/-- Settles O22: the writes by what lands and what its count brings (`txpWrite_lands`, `settle_txpChanged_judges`, `settle_txpChanged_reads`), the
takeover by `takeoverSet_asksRead`, and the return of a read by `settle_descriptorsReturn_reads`. -/
theorem producerWritesWakeAndOverrun : Obligations.ProducerWritesWakeAndOverrun := by
  refine ⟨?_, ?_, ?_, ?_, ?_, ?_, ?_, ?_⟩
  · intro a l m s hm ha hl hturn
    refine ⟨_, exec_txpWordWrite hturn, fun he hd hr => ?_, fun he hs => ?_⟩
    · obtain ⟨hquiet, hstep⟩ := settle_wakes_awake (s := grantGateway s) (by simpa using hm) ha hl (by simpa using he) (by simpa using hd)
        (by simpa using hr)
      exact ⟨by simpa using hquiet, hstep, by simp⟩
    · exact settle_wakes_dozing (s := grantGateway s) (by simpa using hm) ha hl (by simpa using he) (by simpa using hs)
  · intro q a l m v s hm hapart ha hturn hg hr he hclear hv hw hlen
    obtain ⟨mem, hexec⟩ := rxpWrite_lands (l := l) hm hapart ha hturn hg hr hv
    have judged := settle_checkRxOverrun_judges (z := rxpLanded mem (mergeLanes v l) s) (by simpa [holdsRings] using hr) (by simpa using he)
      (by simpa using hclear) (by simpa using hw) (by simpa using hlen)
    obtain ⟨hoverrun, hdetail⟩ := settle_leaves_rxOverrun (u := rxpLanded mem (mergeLanes v l) s) (by simpa using hw)
    simp only [rxSize, rxConsumerRef, detailOfKind, entryOfKind, rxpLanded_frame] at judged hoverrun hdetail ⊢
    refine ⟨_, hexec, fun hne => ?_, fun hle => ?_⟩
    · rw [if_neg hne]
      exact judged.1
    · split
      · exact ⟨hoverrun.trans hclear, hdetail⟩
      · exact judged.2 hle
  · intro q a l m v s hm hapart ha hturn hg hr he hclear hv hw hlen hb
    obtain ⟨mem, hexec⟩ := txpWrite_lands (l := l) hm hapart ha hturn hg hr hv
    have barred : HandBackBarred (txpLanded mem (mergeLanes v l) s) := by
      simpa [HandBackBarred, closed] using hb.imp_left fun ⟨hph, hso⟩ => ⟨.inr hph, hso⟩
    have judged := settle_txpChanged_judges (q := q) (l := l) (b := grantGateway s) (z := txpLanded mem (mergeLanes v l) s)
      (by simpa [holdsRings] using hr) (by simpa using he) (by simpa using hclear) (by simpa using hw) (by simpa using hlen) barred
    obtain ⟨hoverrun, hdetail⟩ := settle_leaves_overrun (q := q) (l := l) (u := txpLanded mem (mergeLanes v l) s) (by simpa using hw) barred
    simp only [txSize, consumerRef, detailOfKind, entryOfKind, txpLanded_frame] at judged hoverrun hdetail ⊢
    refine ⟨_, hexec, fun hne => ?_, fun hle => ?_⟩
    · rw [if_neg hne]
      exact judged.1
    · split
      · exact ⟨hoverrun.trans hclear, hdetail⟩
      · exact judged.2 hle
  · intro q a l m v s hm hapart ha hturn hg hr he hv hne _
    obtain ⟨mem, hexec⟩ := txpWrite_lands (l := l) hm hapart ha hturn hg hr hv
    rw [if_neg hne] at hexec
    obtain ⟨hdue, hoverrun, hentries⟩ := settle_txpChanged_doze (q := q) (l := l) (b := grantGateway s) (z := txpLanded mem (mergeLanes v l) s)
      (by simpa [holdsRings] using hr) (by simpa using he)
    exact ⟨_, hexec, hdue, by simpa using hoverrun, by simpa using hentries⟩
  · intro q a l m v s hm hapart ha hturn hg hr he hv hne _
    obtain ⟨mem, hexec⟩ := rxpWrite_lands (l := l) hm hapart ha hturn hg hr hv
    rw [if_neg hne] at hexec
    obtain ⟨hdue, hoverrun, hentries⟩ := settle_checkRxOverrun_doze (z := rxpLanded mem (mergeLanes v l) s)
      (by simpa [holdsRings] using hr) (by simpa using he)
    exact ⟨_, hexec, hdue, by simpa using hoverrun, by simpa using hentries⟩
  · intro q a l m v b k n s hm hapart ha hturn hg hr hph hso he hv hne hw hq hread hf hb hk hn
    obtain ⟨mem, hexec⟩ := txpWrite_lands (l := l) hm hapart ha hturn hg hr hv
    rw [if_neg hne] at hexec
    have issued := settle_txpChanged_reads (q := q) (l := l) (n := n) (c := grantGateway s) (z := txpLanded mem (mergeLanes v l) s)
      (by simpa [mayReadAhead, holdsRings, softResetStands, enginesRun, hph, hso, he, hread] using hr) (by simpa using hm) (by simpa using hb)
      (by simpa using hf) (by simpa using hk) (by simpa using hw) (by simpa using hq) (.inl ⟨.inr (by simpa using hph), by simp [hso]⟩)
      (by simpa [consumerRef] using hn)
    exact ⟨_, hexec, by simpa using issued⟩
  · intro m h n s ht he hp hl hs ho hv hlos hlow ha hb hw hq hm hh hread hn
    obtain ⟨d, g, _, _, hexec⟩ := exec_health100ms_takesOver ht he hp hl hs ho hv hlos hlow
    generalize hu : raiseEvent d { s with health := g } = u at hexec
    have bus : u.bus = s.bus := by simp [← hu]
    rw [enterTakeover_stays (by simpa [← hu] using ha) (by simpa [← hu] using hb) (by simp [← hu, ho])] at hexec
    have taken := takeoverSet_taken .verdict u
    obtain ⟨_, _, hmode, hsoft, _⟩ := takeoverSet_leaves .verdict u
    obtain ⟨hasked, hmark, hqueue, hmap⟩ := takeoverSet_asksRead (c := .verdict) (h := h) (n := n) (s := u) (by simpa [← hu] using he)
      (by simpa [← hu] using hs) (by simpa [← hu] using hm) (by rw [bus, hw]) (by rw [bus, hh]) (by simpa [← hu] using hread)
      (by rw [shadowCount_of_bus bus, shadowCount_of_bus bus, hn])
    rw [bus] at hqueue
    have issued := hasked.settles hn hmap (by rw [hqueue]; exact hq) (by rw [hmode]; simpa [← hu] using he)
      (.inl ⟨.inl (by simp [taken.path]), by rw [hsoft]; simp [← hu, hs]⟩)
    rw [hqueue] at issued
    exact ⟨_, hexec, by simp [taken.path], issued.1, issued.2, by simpa using hmark⟩
  · intro first j a len rest m b n s hq hread hm hr hph hso he hw hf hb hpend hfew hn
    obtain ⟨hissued, hnone, hmark⟩ := settle_descriptorsReturn_reads (ws := memReadWords s.sram a (burstWords len))
      (s := { s with bus.queue := rest, bus.waitCount := 0 }) hread hm hr hph hso he hw hf hb hpend hfew hn
    exact ⟨_, exec_descriptorReadReturn hq, fun h0 => ⟨(hissued h0).1, (hissued h0).2, hmark⟩, fun hpass h0 => ⟨hnone hpass h0, hmark⟩⟩

end Sys2Proof.Machine
end

section
/-! The frame reads of a take: the bytes they store in the record's cells (R44, R55, R68). -/

-- One theorem at a time, as in the model's laws: the threads of many at once would not fit the memory a check has.
set_option Elab.async false

namespace Sys2Proof.Machine

/-! ### The bytes of a frame in its cells -/

/-- A record's bytes lie in places of their own (R68). -/
theorem cellPlace_inj {r : FrameRecord} {i j : Nat} (hn : r.cells.Nodup) (hl : r.cells.length = (r.length + 255) / 256) (hi : i < r.length)
    (hj : j < r.length) (h : cellPlace r i = cellPlace r j) : i = j := by
  simp only [cellPlace, Config.cellBytes] at h
  have cells : r.cells.getD (i / 256) 0 = r.cells.getD (j / 256) 0 := by omega
  have hi' : i / 256 < r.cells.length := by omega
  have hj' : j / 256 < r.cells.length := by omega
  rw [List.getD_eq_getElem _ _ hi', List.getD_eq_getElem _ _ hj', hn.getElem_inj_iff] at cells
  omega

/-- Bytes stored in a record's cells from place `first` on, none past its end, read as stored; its other bytes stand (R68). -/
theorem frameByte_storeFrame {r : FrameRecord} {s : State} {first i : Nat} {bs : List Byte} (hn : r.cells.Nodup)
    (hl : r.cells.length = (r.length + 255) / 256) (hwf : Memory.wf s.hold.cells = true) (hin : ∀ k < bs.length, first + k < r.length)
    (hi : i < r.length) : frameByte (storeFrame s r first bs) r i
      = if first ≤ i ∧ i < first + bs.length then bs.getD (i - first) 0 else frameByte s r i := by
  simp only [frameByte, storeFrame_hold_cells]
  split
  case isTrue h =>
    obtain ⟨hge, hlt⟩ := h
    refine memRead_memWriteAll_of_mem hwf ?_ (List.mem_map.2 ⟨i - first, by simp only [List.mem_range]; omega, by rw [Nat.add_sub_cancel' hge]⟩)
    rw [List.map_map]
    refine List.Nodup.map_on (fun j hj k hk heq => ?_) List.nodup_range
    have := cellPlace_inj hn hl (hin j (List.mem_range.1 hj)) (hin k (List.mem_range.1 hk)) heq
    omega
  case isFalse h =>
    refine memRead_memWriteAll_of_notMem hwf _ _ fun p hp heq => h ?_
    obtain ⟨k, hk, rfl⟩ := List.mem_map.1 hp
    have hk := List.mem_range.1 hk
    have := cellPlace_inj hn hl (hin k hk) hi heq
    omega

/-! ### The bytes of a read's words -/

theorem bytesRead_length (m : Memory) (a : Addr) (n : Nat) : (bytesRead m a n).length = n := by simp [bytesRead]

theorem bytesRead_getD {m : Memory} {a : Addr} {n i : Nat} (h : i < n) :
    (bytesRead m a n).getD i 0 = memRead m ((a.toNat / 4 * 4 + i) % 16777216) := by simp [bytesRead, List.getD_eq_getElem?_getD, h]

/-- Byte `i` of the words from word `k` of the frame at `a` on, counted from word `k`'s first byte (R44). -/
theorem wordAt_byte (a : Addr) (k i : Nat) : ((wordAt a k).toNat / 4 * 4 + i) % 16777216 = (a.toNat / 4 * 4 + 4 * k + i) % 16777216 := by
  simp only [wordAt, addrOf, wrapAddr, Config.memoryBytes, BitVec.toNat_ofNat]
  omega

/-- How many bytes of the frame lie before a take's next read, and how many bytes of that read's first word lie before the frame (R55). -/
theorem takeBytes_eq (t : Take) (m : Memory) (n : Nat) : ∃ skip, skip + 4 * t.wordsRead = t.addr.toNat % 4 + (4 * t.wordsRead - t.addr.toNat % 4)
    ∧ (4 * t.wordsRead - t.addr.toNat % 4 = 0 ∨ skip = 0) ∧ takeBytes t (memReadWords m (wordAt t.addr t.wordsRead) n)
      = ((bytesRead m (wordAt t.addr t.wordsRead) (4 * n)).drop skip).take (t.record.length - (4 * t.wordsRead - t.addr.toNat % 4)) := by
  refine ⟨if t.wordsRead = 0 then t.addr.toNat % 4 else 0, ?_, ?_, by simp only [takeBytes, bytesOf_memReadWords]⟩ <;> split <;> omega

/-- A frame read stores in the record's cells the frame bytes its words hold, as they stand in packet memory (R55, R68). -/
theorem frameByte_stored {t : Take} {s : State} {m : Memory} {n i : Nat} (hn : t.record.cells.Nodup)
    (hl : t.record.cells.length = (t.record.length + 255) / 256) (hwf : Memory.wf s.hold.cells = true) (hi : i < t.record.length) :
    frameByte (storeFrame s t.record (4 * t.wordsRead - t.addr.toNat % 4) (takeBytes t (memReadWords m (wordAt t.addr t.wordsRead) n))) t.record i
      = if 4 * t.wordsRead ≤ t.addr.toNat % 4 + i ∧ t.addr.toNat % 4 + i < 4 * (t.wordsRead + n)
        then memRead m ((t.addr.toNat + i) % 16777216) else frameByte s t.record i := by
  obtain ⟨skip, hskip, hnone, hbytes⟩ := takeBytes_eq t m n
  generalize 4 * t.wordsRead - t.addr.toNat % 4 = first at *
  have length : (takeBytes t (memReadWords m (wordAt t.addr t.wordsRead) n)).length = min (t.record.length - first) (4 * n - skip) := by
    simp [hbytes, bytesRead_length]
  rw [frameByte_storeFrame hn hl hwf (by omega) hi]
  refine ite_congr (propext ?_) (fun h => ?_) fun _ => rfl
  · rw [length]
    omega
  · have within : skip + (i - first) < 4 * n := by omega
    have place : t.addr.toNat / 4 * 4 + 4 * t.wordsRead + (skip + (i - first)) = t.addr.toNat + i := by omega
    rw [hbytes, List.getD_eq_getElem?_getD, List.getElem?_take_of_lt (by omega), List.getElem?_drop, ← List.getD_eq_getElem?_getD,
      bytesRead_getD within, wordAt_byte, place]

/-! ### A frame read's return -/

/-- A frame read's words have gone to the record's cells (R55). -/
def frameStored (t : Take) (pos : Count) (ws : List Word) (s : State) : State :=
  { storeFrame s t.record (4 * t.wordsRead - t.addr.toNat % 4) (takeBytes t ws) with
    ring.takes := s.ring.takes.map fun u => if u.pos = pos then { u with wordsRead := t.wordsRead + ws.length } else u }

theorem frameReturns_eq {t : Take} {pos : Count} {ws : List Word} {s : State} (h : takeAt s pos = some t) :
    frameReturns pos ws s = request
      (if t.wordsRead + ws.length < wordsSpanned t.addr t.record.length then .frameRead pos else .completion pos .takenRadio)
      (frameStored t pos ws s) := by
  simp only [frameReturns, h]
  split <;> rfl

theorem carryHead_frameRead {pos : Count} {a : Addr} {len : BurstLen} {rest : List MasterTransfer} {s : State}
    (hq : s.bus.queue = ⟨.frameRead pos, .read a len⟩ :: rest) :
    carryHead s = settle (frameReturns pos (memReadWords s.sram a (burstWords len)) { s with bus.queue := rest, bus.waitCount := 0 }) := by
  simp only [carryHead, hq]
  rfl

theorem exec_frameRead {pos : Count} {a : Addr} {len : BurstLen} {rest : List MasterTransfer} {c : Instr} {s : State}
    (hc : c = .masterTransferCarried ∨ c = .takeEnd ∧ lastFrameRead s pos = true) (hq : s.bus.queue = ⟨.frameRead pos, .read a len⟩ :: rest) :
    exec c s = .next (settle (frameReturns pos (memReadWords s.sram a (burstWords len)) { s with bus.queue := rest, bus.waitCount := 0 })) := by
  rw [← carryHead_frameRead hq]
  obtain rfl | ⟨rfl, hlast⟩ := hc
  · rfl
  · show Host.Outcome.next (doTakeEnd s) = _
    simp [doTakeEnd, carryWhen, headPurpose, hq, hlast]

end Sys2Proof.Machine
end

section
/-! The end of a take: what its completion's issue hands over, and what the work behind it leaves (R55 to R57). -/

-- One theorem at a time, as in the model's laws: the threads of many at once would not fit the memory a check has.
set_option Elab.async false

namespace Sys2Proof.Machine

/-! ### What the standing work leaves of the takes and of the uplink queues -/

/-- With no other take's completion waiting and no entry to judge, the takes and the uplink queues stand. -/
structure HandedStands (s t : State) : Prop where
  line : Discarding t
  unjudged : NoPending t
  takes : t.ring.takes = s.ring.takes
  uqE : t.hold.uqE = s.hold.uqE
  uqV : t.hold.uqV = s.hold.uqV
  uqD : t.hold.uqD = s.hold.uqD

/-- A step of the standing work under which what a take handed over stands. -/
def HandedKept (s t : State) : Prop := Discarding s → NoPending s → HandedStands s t

namespace HandedKept

theorem refl (s : State) : HandedKept s s := fun hs hn => ⟨hs, hn, rfl, rfl, rfl, rfl⟩

theorem trans {s t u : State} (h : HandedKept s t) (h' : HandedKept t u) : HandedKept s u := fun hs hn => by
  have ht := h hs hn
  have hu := h' ht.line ht.unjudged
  exact ⟨hu.line, hu.unjudged, hu.takes.trans ht.takes, hu.uqE.trans ht.uqE, hu.uqV.trans ht.uqV, hu.uqD.trans ht.uqD⟩

/-- What keeps a discard's writes' line keeps the rest with it when it leaves the takes and makes no entry PENDING. -/
theorem of_discard {s t : State} (h : DiscardKeeps s t) (htakes : t.ring.takes = s.ring.takes := by simp)
    (hn : NoPending s → NoPending t := by exact fun hn => by simpa [NoPending] using hn) : HandedKept s t := fun hs hno => by
  obtain ⟨ht, records, _⟩ := h hs
  exact ⟨ht, hn hno, htakes, by rw [records.hold], by rw [records.hold], by rw [records.hold]⟩

end HandedKept

theorem updateEntry_done_noPending {pos : Count} {s : State} (h : NoPending s) : NoPending (updateEntry pos (fun e => { e with st := .done }) s) := by
  intro e he
  obtain ⟨x, hx, rfl⟩ := List.mem_map.1 (show e ∈ s.ring.window.map _ from he)
  split
  · simp
  · exact h x hx

theorem onIssue_handed {p : Purpose} (hp : discardRequest p = true) (s : State) : HandedKept s (onIssue p s) := by
  have keeps := onIssue_discard hp s
  cases p
  case completion pos v =>
    cases v
    case takenRadio => simp [discardRequest] at hp
    case abandoned => exact .refl s
    all_goals
      refine .of_discard keeps (by simp [onIssue, completionIssued]) fun h => ?_
      have done := updateEntry_done_noPending (pos := pos) h
      simpa only [NoPending, onIssue, completionIssued, tryAdvance_frame] using done
  case txcAdvance =>
    refine .of_discard keeps (by simp [onIssue]) fun h e he => ?_
    have window : (advanceIssued s).ring.window = s.ring.window.drop (doneCount s) := by simp [advanceIssued]
    exact h e (List.mem_of_mem_drop (window ▸ he))
  case txcForced =>
    refine .of_discard keeps (by simp only [onIssue]; split <;> simp) fun h => ?_
    simp only [onIssue]
    split
    · simpa [NoPending] using h
    · exact h
  case rxfForced =>
    refine .of_discard keeps (by simp only [onIssue]; split <;> simp) fun h => ?_
    simp only [onIssue]
    split
    · simpa [NoPending] using h
    · exact h
  case txcHandBack => exact .of_discard keeps rfl fun _ => by simp [NoPending, onIssue]
  case rxfCatchUp => exact .of_discard keeps (by simp [onIssue]) fun h => by simpa [NoPending, onIssue] using h
  all_goals first | exact .refl s | simp [discardRequest] at hp

theorem issueOne_handed {p : Purpose} {rest : List Purpose} {s : State} (hw : s.bus.waiting = p :: rest) : HandedKept s (issueOne p rest s) := by
  intro hs hn
  have asks : discardRequest p = true := hs p (by simp [hw])
  have others : ∀ q ∈ rest, discardRequest q = true := fun q hq => hs q (by simp [hw, hq])
  simp only [issueOne]
  (repeat' split)
  · exact ⟨others, hn, rfl, rfl, rfl, rfl⟩
  · exact ⟨others, hn, rfl, rfl, rfl, rfl⟩
  · rename_i x _
    have stands := onIssue_handed asks { s with bus.waiting := rest, bus.queue := s.bus.queue ++ [⟨p, x⟩] } others hn
    exact ⟨stands.line, stands.unjudged, stands.takes, stands.uqE, stands.uqV, stands.uqD⟩

theorem pump_handed (n : Nat) (s : State) : HandedKept s (pump n s) := by
  induction n generalizing s with
  | zero => exact .refl s
  | succ n ih =>
    unfold pump
    split
    · exact .refl s
    · split
      · exact (issueOne_handed ‹_›).trans (ih _)
      · exact .refl s

/-- A delivery judged drops downlink records and begins to read a receive descriptor; the takes and the uplink queues stand (R73, R127). -/
theorem judgeDelivery_handed (s : State) : HandedKept s (judgeDelivery s) := by
  have dropped : HandedKept s (dropOldDqV s) := fun hs hn => by
    have left := loseAll_unjudged .expired (s.hold.dqV.takeWhile (voiceTooOld s)) { s with hold.dqV := s.hold.dqV.dropWhile (voiceTooOld s) } hn
    refine ⟨?_, ?_, ?_, by simp, by simp, by simp⟩
    · rw [Discarding, show (dropOldDqV s).bus = s.bus from left.bus]
      exact hs
    · rw [NoPending, show (dropOldDqV s).ring = s.ring from left.ring]
      exact hn
    · rw [show (dropOldDqV s).ring = s.ring from left.ring]
  have begun (r : FrameRecord) (dqV dqD : List FrameRecord) (u : State) :
      HandedKept u (beginDelivery r { u with hold.dqV := dqV, hold.dqD := dqD }) := fun hs hn =>
    ⟨List.forall_mem_append.2 ⟨hs, by simp [discardRequest]⟩, hn, rfl, rfl, rfl, rfl⟩
  unfold judgeDelivery
  dsimp only
  (repeat' split)
  · exact dropped.trans (begun _ _ (dropOldDqV s).hold.dqD _)
  · exact dropped.trans (begun _ (dropOldDqV s).hold.dqV _ _)
  · exact dropped
  · exact .refl s

/-- To the command's end the takes and the uplink queues stand as a take's completion left them. -/
theorem settle_handed {s v : State} {n : Nat} (h : issueAll s = pump n v) : HandedKept v (settle s) :=
  settle_of_steps .trans pump_handed judgeDelivery_handed (fun s => .of_discard (evalScan_discard s)) (fun s => .of_discard (tryHandBack_discard s))
    (fun s => .of_discard (.of_eq)) h

/-! ### The completion's issue (R55, R56, R72) -/

/-- The entry is DONE, the take is over, and its record stands at its queue's tail (R55, R72). -/
def takeHanded (r : FrameRecord) (pos : Count) (s : State) : State :=
  recordJoins (joinQueue r { updateEntry pos (fun e => { e with st := .done }) s with ring.takes := s.ring.takes.eraseP fun u => u.pos == pos })

@[simp] theorem takeHanded_frame (r : FrameRecord) (pos : Count) (s : State) : (takeHanded r pos s).loader = s.loader
    ∧ (takeHanded r pos s).bus = s.bus ∧ (takeHanded r pos s).path = s.path ∧ (takeHanded r pos s).radio.state = s.radio.state
    ∧ (takeHanded r pos s).power.mode = s.power.mode ∧ (takeHanded r pos s).ring.base = s.ring.base
    ∧ (takeHanded r pos s).ring.takes = s.ring.takes.eraseP (fun u => u.pos == pos)
    ∧ (takeHanded r pos s).ring.window = s.ring.window.map fun e => if e.pos = pos then { e with st := .done } else e := by
  simp [takeHanded, recordJoins, updateEntry]

/-- The record joins the tail of its class's uplink queue; the others stand (R72). -/
theorem takeHanded_queues {r : FrameRecord} (h : r.direction = .uplink) (pos : Count) (s : State) :
    (takeHanded r pos s).hold.uqE = (if r.cls = .voicePriority then s.hold.uqE ++ [r] else s.hold.uqE)
      ∧ (takeHanded r pos s).hold.uqV = (if r.cls = .voice then s.hold.uqV ++ [r] else s.hold.uqV)
      ∧ (takeHanded r pos s).hold.uqD = (if r.cls = .data then s.hold.uqD ++ [r] else s.hold.uqD) := by
  cases hc : r.cls <;> simp [takeHanded, recordJoins, joinQueue, h, hc]

theorem takeHanded_noPending {r : FrameRecord} {pos : Count} {s : State} (h : NoPending s) : NoPending (takeHanded r pos s) := by
  simp only [NoPending, takeHanded_frame]
  exact updateEntry_done_noPending (pos := pos) h

/-- A take's end with the radio not ATTACHED and no entry PENDING does no more than hand the record over (R55, R56). -/
theorem takeEnds_hands {t : Take} {pos : Count} {s : State} (ht : takeAt s pos = some t) (hso : s.loader.softReset = .none)
    (hph : s.path.phase ≠ some .closing) (hr : s.radio.state ≠ .attached) (hpend : NoPending s) : takeEnds pos s = takeHanded t.record pos s := by
  have ended : takeEnds pos s = judgePending (placementAttempt (takeHanded t.record pos s)) := by
    simp only [takeEnds, ht]
    simp [hso, hph, takeHanded]
  rw [ended, placementAttempt_unattached (by simpa using hr), judgePending_idle (takeHanded_noPending hpend)]

/-- The write that a take's completion is (R55, R57). -/
def completionWrite (m : MemoryMap) (pos : Count) : MasterTransfer :=
  ⟨.completion pos .takenRadio, .write (addrOf (descriptorAddr m.txBase m.txSize pos + 4)) [completionWord .takenRadio]⟩

/-- A take's completion has left the line for the master's queue; what its issue does is still to come (R150). -/
def completionGone (m : MemoryMap) (pos : Count) (s : State) : State :=
  { s with bus.waiting := [], bus.queue := s.bus.queue ++ [completionWrite m pos] }

@[simp] theorem completionGone_frame (m : MemoryMap) (pos : Count) (s : State) : (completionGone m pos s).loader = s.loader
    ∧ (completionGone m pos s).path = s.path ∧ (completionGone m pos s).power = s.power ∧ (completionGone m pos s).ring = s.ring
    ∧ (completionGone m pos s).hold = s.hold ∧ (completionGone m pos s).bus.waiting = []
    ∧ (completionGone m pos s).bus.queue = s.bus.queue ++ [completionWrite m pos] := ⟨rfl, rfl, rfl, rfl, rfl, rfl, rfl⟩

/-- A take's completion waiting alone is issued, and the take ends with it (R55, R150). -/
theorem issueAll_takenRadio {m : MemoryMap} {t : Take} {pos : Count} {s : State} (hm : s.loader.map = some m)
    (hw : s.bus.waiting = [.completion pos .takenRadio]) (hq : s.bus.queue.length ≤ 7) (he : s.power.mode ≠ .doze) (ht : takeAt s pos = some t)
    (hso : s.loader.softReset = .none) (hph : s.path.phase ≠ some .closing) (hr : s.radio.state ≠ .attached) (hpend : NoPending s) :
    issueAll s = pump 63 (tryAdvance (takeHanded t.record pos (completionGone m pos s))) := by
  have formed : formTransfer { s with bus.waiting := [] } m (.completion pos .takenRadio) = some (completionWrite m pos).transfer := rfl
  rw [issueAll, pump_cons 63 hw hq he, issueOne_formed hm formed, ← takeEnds_hands (s := completionGone m pos s) ht hso hph hr hpend]
  rfl

/-- A take's last read has returned: its words are stored and its completion is asked for (R55). -/
def lastReturned (t : Take) (pos : Count) (ws : List Word) (rest : List MasterTransfer) (s : State) : State :=
  request (.completion pos .takenRadio) (frameStored t pos ws { s with bus.queue := rest, bus.waitCount := 0 })

@[simp] theorem lastReturned_frame (t : Take) (pos : Count) (ws : List Word) (rest : List MasterTransfer) (s : State) :
    (lastReturned t pos ws rest s).loader = s.loader ∧ (lastReturned t pos ws rest s).path = s.path
    ∧ (lastReturned t pos ws rest s).radio = s.radio ∧ (lastReturned t pos ws rest s).power = s.power
    ∧ (lastReturned t pos ws rest s).ring.window = s.ring.window ∧ (lastReturned t pos ws rest s).ring.base = s.ring.base
    ∧ (lastReturned t pos ws rest s).hold.uqE = s.hold.uqE ∧ (lastReturned t pos ws rest s).hold.uqV = s.hold.uqV
    ∧ (lastReturned t pos ws rest s).hold.uqD = s.hold.uqD ∧ (lastReturned t pos ws rest s).bus.queue = rest
    ∧ (lastReturned t pos ws rest s).bus.waiting = s.bus.waiting ++ [.completion pos .takenRadio] := by
  simp [lastReturned, frameStored]

/-- The take is the same but for the words it has read. -/
theorem takeAt_lastReturned {t : Take} {pos : Count} {s : State} (h : takeAt s pos = some t) (ws : List Word) (rest : List MasterTransfer) :
    ∃ k, takeAt (lastReturned t pos ws rest s) pos = some { t with wordsRead := k } := by
  have atPos : t.pos = pos := by simpa using List.find?_some h
  have same (u : Take) : (if u.pos = pos then { u with wordsRead := t.wordsRead + ws.length } else u).pos = u.pos := by split <;> rfl
  refine ⟨t.wordsRead + ws.length, ?_⟩
  have found : s.ring.takes.find? (fun u => u.pos == pos) = some t := h
  simp [takeAt, lastReturned, frameStored, List.find?_map, same, found, atPos]

/-- One take fewer is in progress (R56). -/
theorem takes_lastReturned {t : Take} {pos : Count} {s : State} (h : takeAt s pos = some t) (ws : List Word) (rest : List MasterTransfer) :
    ((lastReturned t pos ws rest s).ring.takes.eraseP fun u => u.pos == pos).length + 1 = s.ring.takes.length := by
  obtain ⟨k, hk⟩ := takeAt_lastReturned h ws rest
  have kept : (lastReturned t pos ws rest s).ring.takes.length = s.ring.takes.length := by simp [lastReturned, frameStored]
  have found := List.mem_of_find?_eq_some hk
  rw [← kept]
  exact List.length_eraseP_add_one found (List.find?_some (p := fun u : Take => u.pos == pos) hk)

/-- A take's last read returns with nothing waiting besides: its completion alone is asked for, and the standing work goes on from its issue. -/
theorem exec_takeEnd {m : MemoryMap} {t : Take} {pos : Count} {a : Addr} {rest : List MasterTransfer} {s : State} (ht : takeAt s pos = some t)
    (hq : s.bus.queue = ⟨.frameRead pos, .read a (takeBurst t)⟩ :: rest) (hlast : lastFrameRead s pos = true) (hroom : rest.length ≤ 7)
    (hw : s.bus.waiting = []) (hm : s.loader.map = some m) (he : s.power.mode ≠ .doze) (hso : s.loader.softReset = .none)
    (hph : s.path.phase ≠ some .closing) (hr : s.radio.state ≠ .attached) (hpend : NoPending s) :
    ∃ ws, exec .takeEnd s = .next (settle (lastReturned t pos ws rest s))
      ∧ issueAll (lastReturned t pos ws rest s)
        = pump 63 (tryAdvance (takeHanded t.record pos (completionGone m pos (lastReturned t pos ws rest s)))) := by
  refine ⟨memReadWords s.sram a (burstWords (takeBurst t)), ?_, ?_⟩
  · have whole : ¬ t.wordsRead + burstWords (takeBurst t) < wordsSpanned t.addr t.record.length := by
      simpa [lastFrameRead, ht] using hlast
    rw [exec_frameRead (.inr ⟨rfl, hlast⟩) hq, frameReturns_eq (s := { s with bus.queue := rest, bus.waitCount := 0 }) ht]
    simp [memReadWords, wordAddrs, whole, lastReturned]
  · obtain ⟨k, hk⟩ := takeAt_lastReturned ht (memReadWords s.sram a (burstWords (takeBurst t))) rest
    exact issueAll_takenRadio (t := { t with wordsRead := k }) (by simpa using hm) (by simp [hw]) (by simpa using hroom) (by simpa using he) hk
      (by simpa using hso) (by simpa using hph) (by simpa using hr) (by simpa [NoPending] using hpend)

/-- To the command's end one take fewer is in progress, and the record stands at its queue's tail (R55, R56, R72). -/
theorem settle_takenRadio {m : MemoryMap} {t : Take} {pos : Count} {s : State} (hpend : NoPending s)
    (issued : issueAll s = pump 63 (tryAdvance (takeHanded t.record pos (completionGone m pos s)))) :
    (settle s).ring.takes = s.ring.takes.eraseP (fun u => u.pos == pos) ∧ (t.record.direction = .uplink →
      (settle s).hold.uqE = (if t.record.cls = .voicePriority then s.hold.uqE ++ [t.record] else s.hold.uqE)
      ∧ (settle s).hold.uqV = (if t.record.cls = .voice then s.hold.uqV ++ [t.record] else s.hold.uqV)
      ∧ (settle s).hold.uqD = (if t.record.cls = .data then s.hold.uqD ++ [t.record] else s.hold.uqD)) := by
  have line : Discarding (tryAdvance (takeHanded t.record pos (completionGone m pos s))) := by
    unfold tryAdvance
    split <;> simp [Discarding, discardRequest]
  have unjudged : NoPending (takeHanded t.record pos (completionGone m pos s)) := takeHanded_noPending hpend
  have kept := settle_handed issued line (by simpa only [NoPending, tryAdvance_frame] using unjudged)
  refine ⟨kept.takes.trans (by simp), fun hup => ?_⟩
  have queues := takeHanded_queues hup pos (completionGone m pos s)
  simpa [kept.uqE, kept.uqV, kept.uqD] using queues

/-! ### The advance of TXC past the DONE run (R57) -/

/-- The write that advances TXC to `c` (R57). -/
def advanceWrite (m : MemoryMap) (c : Count) : MasterTransfer := ⟨.txcAdvance, .write (addrOf (watchedAddr m .txc)) [⟨c.setWidth 32, 15⟩]⟩

/-- The advance of TXC from `b` past the DONE run has gone to the master's queue, before the agent goes on (R57). -/
def advanceGone (m : MemoryMap) (b : Count) (s : State) : State :=
  { s with
    bus.waiting := []
    bus.queue := s.bus.queue ++ [advanceWrite m (advance b (doneCount s))]
    ring.window := s.ring.window.drop (doneCount s)
    ring.base := some (advance b (doneCount s))
    ring.partTxc := some (advance b (doneCount s)) }

/-- With nothing else waiting the advance over a DONE run is issued: one write of TXC just past it, and the window keeps the rest (R57). -/
theorem settle_advances {m : MemoryMap} {b : Count} {k : Nat} {s v : State} (issued : issueAll s = pump (k + 1) (tryAdvance v))
    (hm : v.loader.map = some m) (hw : v.bus.waiting = []) (hq : v.bus.queue.length ≤ 7) (he : v.power.mode ≠ .doze)
    (hrel : v.path.txReleased = true) (hn : doneCount v ≠ 0) (hb : v.ring.base = some b) (hph : v.path.phase ≠ some .closing)
    (hso : v.loader.softReset ≠ .completing) :
    advanceWrite m (advance b (doneCount v)) ∈ (settle s).bus.queue
      ∧ (settle s).ring.base = some (advance b (doneCount v)) ∧ (settle s).ring.partTxc = some (advance b (doneCount v))
      ∧ (settle s).ring.window.map entryKey = (v.ring.window.drop (doneCount v)).map entryKey := by
  have asked : tryAdvance v = request .txcAdvance v := by simp [tryAdvance, hrel, enginesRun, he, hn, hw]
  have count : doneCount { v with bus.waiting := [] } = doneCount v := rfl
  have formed : formTransfer { request .txcAdvance v with bus.waiting := [] } m .txcAdvance
      = some (advanceWrite m (advance b (doneCount v))).transfer := by simp [formTransfer, hrel, count, hn, hb, indexWord, advanceWrite]
  have advanced : issueAll s = pump k (readAhead (checkTxOverrun (advanceGone m b v))) := by
    have line : (request .txcAdvance v).bus.waiting = [.txcAdvance] := by simp [hw]
    rw [issued, asked, pump_cons k line hq he, issueOne_formed (s := request .txcAdvance v) hm formed]
    have base : (request .txcAdvance v).ring.base = some b := hb
    simp only [onIssue, advanceIssued, base, Option.getD_some]
    rfl
  have kept : CalmKeeps (advanceGone m b v) (settle s) := ((checkTxOverrun_calm _).trans (readAhead_calm _)).trans (settle_calm advanced)
  have engine : EngineKeeps (advanceGone m b v) (settle s) :=
    ((checkTxOverrun_engineKeeps _).trans (readAhead_engineKeeps _)).trans (settle_engineKeeps_from advanced)
  have calm : ∀ p ∈ (advanceGone m b v).bus.waiting, calmRequest p = true := by simp [advanceGone]
  obtain ⟨_, stands⟩ := kept.calm calm
  obtain ⟨_, window⟩ := kept.window calm ⟨by simp [advanceGone], hph, hso⟩
  obtain ⟨new, hnew, _⟩ := engine.passes m [] hm (by simp) List.nil_prefix
  refine ⟨?_, stands.base, stands.partTxc, window⟩
  rw [hnew]
  simp [advanceGone]

/-- The entry whose take ended heads the DONE run behind it. -/
theorem doneCount_handed {r : FrameRecord} {pos : Count} {e : Entry} {ds tl : List Entry} {s : State} (hwin : s.ring.window = e :: (ds ++ tl))
    (he : e.pos = pos) (hds : ∀ d ∈ ds, d.st = .done) (htl : ∀ d ∈ tl.head?, d.st = .taking ∧ d.pos ≠ pos) :
    doneCount (takeHanded r pos s) = 1 + ds.length := by
  have ends : ∀ x ∈ ds.map (fun x : Entry => if x.pos = pos then { x with st := .done } else x), (x.st == EntryState.done) = true := by
    intro x hx
    obtain ⟨d, hd, rfl⟩ := List.mem_map.1 hx
    split <;> simp [hds d hd]
  have rest : (tl.map fun x : Entry => if x.pos = pos then { x with st := .done } else x).takeWhile (fun x => x.st == .done) = [] := by
    cases tl with
    | nil => rfl
    | cons d tl =>
      obtain ⟨htaking, hpos⟩ := htl d (by simp)
      simp [hpos, htaking]
  simp only [doneCount, takeHanded_frame, hwin, List.map_cons, List.map_append, he, if_true]
  rw [List.takeWhile_cons_of_pos (by simp), List.takeWhile_append_of_pos ends, rest]
  simp [Nat.add_comm]

/-- Past the DONE run the window keeps the entries behind it. -/
theorem drop_handed {r : FrameRecord} {pos : Count} {e : Entry} {ds tl : List Entry} {s : State} (hwin : s.ring.window = e :: (ds ++ tl)) :
    ((takeHanded r pos s).ring.window.drop (1 + ds.length)).map (·.pos) = tl.map (·.pos) := by
  have same (x : Entry) : (if x.pos = pos then { x with st := .done } else x).pos = x.pos := by split <;> rfl
  simp [hwin, Nat.add_comm 1, Function.comp_def, same]

/-- Settles O33: the completion and the hand-over by `exec_takeEnd` and `settle_takenRadio`, the advance past the DONE run by
`settle_advances`, and the stored bytes by `frameByte_stored`. -/
theorem takeEndHandsFrameToHold : Obligations.TakeEndHandsFrameToHold := by
  refine ⟨?_, ?_, ?_⟩
  · intro pos a rest m tk s htake hq hlast hroom hw hm he hso hph hr hpend
    obtain ⟨ws, hexec, hissued⟩ := exec_takeEnd htake hq hlast hroom hw hm he hso hph hr hpend
    obtain ⟨htakes, hqueues⟩ := settle_takenRadio (by simpa [NoPending] using hpend) hissued
    refine ⟨_, hexec, ?_, ?_, fun hup => by simpa using hqueues hup⟩
    · exact settle_issues_completion (Y := []) (by simpa using hm) (by simp [hw]) (by simpa using hroom) (by simpa using he)
    · rw [htakes]
      exact takes_lastReturned htake ws rest
  · intro pos a rest tk ds tl e m b s htake hq hlast hroom hw hm he hso hph hr hrel hpend hb hwin hpos _ hds htl
    obtain ⟨ws, hexec, hissued⟩ := exec_takeEnd htake hq hlast (by omega) hw hm he hso hph hr hpend
    generalize hv : takeHanded tk.record pos (completionGone m pos (lastReturned tk pos ws rest s)) = v at hissued
    have count : doneCount v = 1 + ds.length := by rw [← hv]; exact doneCount_handed (by simpa using hwin) hpos hds htl
    obtain ⟨hmem, hbase, hpart, hkeys⟩ := settle_advances (m := m) (b := b) hissued (by simpa [← hv] using hm) (by simp [← hv])
      (by simp [← hv]; omega) (by simpa [← hv] using he) (by simpa [← hv] using hrel) (by omega) (by simpa [← hv] using hb)
      (by simpa [← hv] using hph) (by simp [← hv, hso])
    rw [count] at hmem hbase hpart hkeys
    refine ⟨_, hexec, hmem, hbase, hpart, ?_⟩
    rw [map_pos_of_keys hkeys, ← hv]
    exact drop_handed (by simpa using hwin)
  · intro pos a rest tk len c s hc htake hq ha hn hl hwf
    refine ⟨_, exec_frameRead hc hq, fun i hi => ?_⟩
    rw [frameReturns_eq (s := { s with bus.queue := rest, bus.waitCount := 0 }) htake, ha]
    have cells : ∀ p u, frameByte (settle (request p u)) tk.record i = frameByte u tk.record i := fun p u => by simp [frameByte]
    rw [cells]
    exact frameByte_stored hn hl hwf hi

end Sys2Proof.Machine
end
